-- ==== Sys2Proof/Word.lean ====
section
/-! DEFINITION. The word types of the device and the sparse table the state is built from (spec/00 R13, spec/06 R153). -/

namespace Sys2Proof

/-- A byte of memory or of a packet. -/
abbrev Byte := BitVec 8
/-- A 16-bit half word (BF16 patterns, tags of buckets, counts). -/
abbrev Half := BitVec 16
/-- A 32-bit register or an FP32 pattern (spec/02 R29). -/
abbrev Word := BitVec 32
/-- A 64-bit scalar register, counter or time (spec/06 R153). -/
abbrev DWord := BitVec 64
/-- A 128-bit instruction word (spec/06, "The instruction word"). -/
abbrev IWord := BitVec 128
/-- An FP32 bit pattern. -/
abbrev F32 := BitVec 32

/-- A sparse table: the listed keys hold the listed values, every other key holds a default its reader names. -/
abbrev Tbl (α : Type) := List (Nat × α)

/-- The value a key holds, or none. -/
def Tbl.find {α : Type} : Tbl α → Nat → Option α
  | [], _ => none
  | (j, v) :: r, k => if j = k then some v else Tbl.find r k

/-- The value a key holds, or the default. -/
def Tbl.get {α : Type} (d : α) (t : Tbl α) (k : Nat) : α := (Tbl.find t k).getD d

/-- Give a key a value; keys stay in ascending order. -/
def Tbl.put {α : Type} : Tbl α → Nat → α → Tbl α
  | [], k, v => [(k, v)]
  | (j, w) :: r, k, v =>
    if k < j then (k, v) :: (j, w) :: r
    else if k = j then (k, v) :: r
    else (j, w) :: Tbl.put r k v

/-- Forget a key. -/
def Tbl.del {α : Type} (t : Tbl α) (k : Nat) : Tbl α := t.filter (fun e => e.1 ≠ k)

end Sys2Proof
end

