-- ==== Sys2Proof/Syntax.lean ====
section
/-! DEFINITION. The commands the block takes: one constructor per row of spec/opcode_table.json, with the operands that say where the step happens and what the world supplies. -/

namespace Sys2Proof

/-- The three instruction streams of a floe (spec/06 R153). -/
inductive Stream where
  | fwd | bwd | upd
  deriving DecidableEq, Repr

/-- The stream's number: FWD 0, BWD 1, UPD 2 (spec/06 R153). -/
def Stream.num : Stream → Nat
  | .fwd => 0 | .bwd => 1 | .upd => 2

/-- An error that one access met in a granule, a line or a transfer (spec/08 R238, R243, R244, R255). -/
inductive ReadErr where
  /-- Wrong bits of a granule's code word, or wrong bytes of a line's. -/
  | wrong (n : Nat)
  /-- A line that was read from the wrong address. -/
  | misplaced
  /-- A near-memory transfer that failed EDC this many times in a row. -/
  | edc (fails : Nat)
  /-- A CXL.mem data response that carries poison. -/
  | poisoned
  deriving DecidableEq, Repr

/-- The errors that a step's accesses met, each at a device address; an address that is not listed met none. -/
abbrev Errs := List (Nat × ReadErr)

/-- For how many consecutive ACLK cycles a stream has been eligible for a unit and refused (spec/06 R187), and the errors that the reads of the grant met. Which streams contend follows from the heads themselves. -/
structure Arb where
  refused : List (Stream × Nat) := []
  errs    : Errs := []
  deriving DecidableEq, Repr

/-- What step 2 of a cold reset finds: the levels of the strap pins, and whether the fuse shadow fails its check (spec/15 Table 15-4, spec/17 R551, R552). -/
structure Straps where
  x     : BitVec 6
  y     : BitVec 6
  z     : BitVec 6
  p     : Bool
  lead  : Bool
  boot  : BitVec 2
  expr  : BitVec 2
  fuseBad : Bool := false
  deriving DecidableEq, Repr

/-- The unit whose accepted instruction has read its last source byte (spec/06 Table 6-10). -/
inductive Reader where
  | array (bank : Nat)
  | vector
  | transfer (tagDst : Nat)
  | push
  deriving DecidableEq, Repr

/-- What a TIME packet brings (spec/15 R515): a child's request; or the parent's reply with the four time stamps in ps, and what R310 adds to the reply that aligns the device: the parent's ROUTER_EPOCH word and its pending T_SW. -/
inductive TimeMsg where
  | request (t1 : Int)
  | reply (t1 t2 t3 t4 : Int) (epoch : Word) (tsw : DWord)
  deriving DecidableEq, Repr

/-- What a MGMT packet of the key exchange of spec/13 R453 brings: the three acceptance conditions, each as it came out. `oed` is the same exchange carried between OED management endpoints (R454). -/
inductive MgmtMsg where
  | keyExchange (chainOk ownerSame sigOk : Bool)
  | oedSession (peer : Nat) (chainOk ownerSame sigOk : Bool)
  | other
  deriving DecidableEq, Repr

/-- What an ICMPv6 message asks (spec/11 Table 11-8). -/
inductive IcmpMsg where
  | neighborSolicitation | echoRequest | other
  deriving DecidableEq, Repr

/-- A CXL memory device found when a port's links are trained (spec/08 R253, R254): its port, its capacity in bytes, whether it lies behind the second ×8 sublink of a bifurcated port, and the rate its link trains at in the code of CXL_LINK_STATUS (0b01 32 GT/s, 0b10 64 GT/s; any other code is a lower rate). -/
structure CxlDev where
  port : Nat
  cap  : Nat
  sub  : Bool := false
  rate : BitVec 2 := 0b10
  deriving DecidableEq, Repr

/-- The commands: one constructor per row of spec/opcode_table.json, in the table's order. `f` is a logical floe, `st` a stream, `p` a partition, `port` a mesh port of spec/09 R269, `chip` a chiplet (0 OEX, 1 OEY, 2 OEZ, 3 OED), `die` a die, `page` a page index of spec/16 Table 16-1, `pv` a Gwyntik PARTITION value (spec/12 Table 12-4). `errs` lists the errors that the step's accesses met (spec/08 R238, R244); `route` the UCIe modules that the packets completed by a store go out on (spec/12 R404); `straps` the levels at the strap pins when a cold reset samples them (spec/17 R551). On a mesh port `block` is a control block (of a TAIL, what comes before its tag), `marks` the markers received in one block slot by receive slot, `sync` the sync headers of consecutive blocks on a lane, `lost` the receive slots that lost light or lock (spec/09 R275 to R277, spec/11 R368); `power` is a laser's output in 0.01 dB, `rx` says that a ring is a drop ring (spec/11 R374, R384), `fecCorr` and `fecBad` are the FEC codewords corrected and not correctable since the port's last frame (spec/11 R393). -/
inductive Instr where
  -- the core's instructions (spec/06)
  | salu (f : Nat) (st : Stream)
  | sld (f : Nat) (st : Stream) (errs : Errs)
  | sst (f : Nat) (st : Stream) (errs : Errs)
  | br (f : Nat) (st : Stream)
  | jump (f : Nat) (st : Stream)
  | halt (f : Nat) (st : Stream)
  | nop (f : Nat) (st : Stream)
  -- the units' instructions (spec/03 to spec/07)
  | mma (f : Nat) (st : Stream) (arb : Arb)
  | mmaT (f : Nat) (st : Stream) (arb : Arb)
  | mmaSp (f : Nat) (st : Stream) (arb : Arb)
  | xfer (f : Nat) (st : Stream) (arb : Arb)
  | vec (f : Nat) (st : Stream) (arb : Arb)
  | red (f : Nat) (st : Stream) (arb : Arb)
  | cvtBs16 (f : Nat) (st : Stream) (arb : Arb)
  | stashPush (f : Nat) (st : Stream) (arb : Arb)
  | stashPop (f : Nat) (st : Stream) (arb : Arb)
  | updAdamw (f : Nat) (st : Stream) (arb : Arb)
  | updSgdm (f : Nat) (st : Stream) (arb : Arb)
  | gateTopk (f : Nat) (st : Stream) (arb : Arb)
  | packAssign (f : Nat) (st : Stream) (arb : Arb)
  | packGather (f : Nat) (st : Stream) (arb : Arb)
  | packCombine (f : Nat) (st : Stream) (arb : Arb)
  -- the collective port's instructions (spec/10)
  | collShiftAllgather (f : Nat) (st : Stream) (arb : Arb)
  | collShiftRotate (f : Nat) (st : Stream) (arb : Arb)
  | collReduceScatter (f : Nat) (st : Stream) (arb : Arb)
  | collAllreduce (f : Nat) (st : Stream) (arb : Arb)
  | collPermute (f : Nat) (st : Stream) (arb : Arb)
  | collSteer (f : Nat) (st : Stream) (arb : Arb)
  | collVerdictCommit (f : Nat) (st : Stream) (arb : Arb)
  | collVerdictNorm (f : Nat) (st : Stream) (arb : Arb)
  | collVerdictBarrier (f : Nat) (st : Stream) (arb : Arb)
  | tagWait (f : Nat) (st : Stream)
  | tagSignal (f : Nat) (st : Stream)
  -- what follows an accepted instruction
  | tagWaitComplete (f : Nat) (st : Stream)
  | remoteSignal (src : Nat) (st : Stream) (dst : Nat)
  | sldReturn (f : Nat) (st : Stream) (rd : Nat)
  | tileRowDrain (f : Nat) (bank : Nat) (parityError : Bool)
  | mmaComplete (f : Nat) (bank : Nat)
  | vecPassComplete (f : Nat)
  | gatePackComplete (f : Nat) (errs : Errs)
  | updComplete (f : Nat) (errs : Errs)
  | xferComplete (f : Nat) (tagDst : Nat) (errs : Errs)
  | stashCopyComplete (f : Nat) (pop : Bool) (errs : Errs)
  | haltComplete (f : Nat) (st : Stream)
  | streamStall (f : Nat) (st : Stream)
  | collStepComplete (p : Nat) (tag : Nat)
  | verdictContribution (p : Nat) (tag : Nat)
  | verdictComplete (p : Nat) (tag : Nat)
  | steerComplete
  | stepTimeout (p : Nat) (tag : Nat)
  | slowResend (p : Nat) (tag : Nat)
  | pauseWaitExpiry (p : Nat)
  -- the mesh (spec/09, spec/10)
  | meshPacket (port : Nat) (bytes : List Byte)
  | shift
  | shiftAdd (rimeFail : Bool)
  | permute
  | verdict
  | noticeSlow
  | noticeReplay
  | noticeFail
  | noticeMismatch
  | noticeDone
  | noticeClose
  | mirror
  | bulk
  | mgmt (msg : MgmtMsg)
  | time (msg : TimeMsg)
  | hello
  | epoch
  | fc (port : Nat) (block : List Byte)
  | alignmentMarker (port : Nat) (marks : List (Nat × List Byte))
  | tail (port : Nat) (block : List Byte) (tagOk : Bool)
  | alignmentMarkerSend (port : Nat) (slot : Nat)
  | helloSend (port : Nat)
  | fcRefresh (port : Nat)
  | fcTimeout (port : Nat)
  | escapeTimeout (port : Nat)
  | lifetime
  | eject
  | epochSwitch
  | epochBankFree
  | keyingRetry (port : Nat)
  | laneLock (port : Nat)
  | portLossOfLock (port : Nat) (lost : DWord)
  -- Ethernet and optics (spec/11)
  | oedFrame (port : Nat) (bytes : List Byte) (counter : DWord) (tagOk : Bool) (fecCorr fecBad : Nat)
  | lldp (port : Nat) (bytes : List Byte)
  | pfcFrame (port : Nat) (pause : Bool) (prios : Byte)
  | icmpv6 (port : Nat) (forUs : Bool) (msg : IcmpMsg)
  | laserSample (chip : Nat) (laser : Nat) (power : Int)
  | laserLockLoss (chip : Nat) (laser : Nat)
  | spareReady (chip : Nat) (laser : Nat)
  | laserSwapComplete (chip : Nat)
  | ringFault (chip : Nat) (slot : Nat) (rx : Bool) (loopFirst : Bool)
  | wavelengthRecal (chip : Nat) (wl : Nat)
  | wavelengthRecalComplete (chip : Nat) (stillFaulted stillRx : DWord)
  | shuttleRemoved (k : Nat)
  | shuttleSeated (k : Nat)
  | sledFrame
  | oedDrainSafe (port : Nat)
  | optLaserCmdSwap (chip : Nat) (wl : Nat)
  | optLaserCmdRecal (chip : Nat) (wl : Nat)
  | optServiceDrain (chip : Nat) (mask : BitVec 4)
  | oedPortCfg (port : Nat) (mode : BitVec 2)
  -- register writes with rows of their own
  | nmmapRetire (iface : Nat)
  | rasCalveGo (site : Byte)
  | resetCtrlGo (die : Nat) (page : Nat)
  | ctrlHold (die : Nat) (page : Nat) (value : Bool)
  | ctrlFreeze (die : Nat) (page : Nat) (value : Bool)
  | rstWdtKick
  | timeSet (value : DWord)
  | routerBank (bank : Nat) (value : Word)
  | pwrCap (watts : Word)
  | registerWrite (addr : Nat) (value : Word) (hwSet : Word)
  -- Gwyntik (spec/12)
  | gwyTxStore (ep : Nat) (offset : Nat) (bytes : List Byte) (route : List Nat)
  | gwyRxLoad (ep : Nat)
  | resync (ep : Nat)
  | claim (pv : Nat)
  | release (pv : Nat)
  | loadBegin (pv : Nat)
  | loadChunk (pv : Nat)
  | loadEnd (pv : Nat)
  | start (pv : Nat)
  | pause (pv : Nat)
  | resume (pv : Nat)
  | abort (pv : Nat)
  | memWrite (pv : Nat) (errs : Errs)
  | memRead (pv : Nat) (errs : Errs)
  | csrWrite (pv : Nat)
  | csrRead (pv : Nat)
  | attest (pv : Nat)
  | certGet
  | fwStage
  | fwActivate
  | fwStatus
  | telem (pv : Nat)
  | snapshot (pv : Nat)
  | resetPartition (pv : Nat)
  | resetBlock
  | resetDevice
  | ownerChange
  | debugEnable
  | debugLock
  | keyRevoke
  | mfgMode
  | imageKeyEnroll
  | imageMinVersion
  -- the device's own events (spec/13 to spec/15)
  | thawDone (p : Nat)
  | fwActivated
  | fwQuietPoint (f : Nat)
  | fwHoldTimeout (f : Nat)
  | fwRehold (f : Nat)
  | por (straps : Straps) (vio18 : Bool)
  | resetN (straps : Straps)
  | warmResetN
  | watchdog
  | warmResetStart
  | fatal (die : Nat) (page : Nat) (bit : Nat) (straps : Straps)
  | regulatorPhaseLoss (rail : Nat) (straps : Straps)
  | coldResetReady (failedSites : List Nat) (cxl : List CxlDev) (flashOk : Bool)
  | warmResetReady
  | blockResetEscalation (die : Nat) (page : Nat)
  | blockResetComplete (die : Nat) (page : Nat)
  | thermalSample (die : Nat) (temps : List Int)
  | powerSample (deciwatts : Nat)
  | dvfsLevelChange (die : Nat)
  | voltageDroop (die : Nat)
  | sensorCrossCheck (die : Nat) (disagree : DWord)
  | refclkLoss
  | refclkRelock
  | timeExchange
  | presenceAssertion
  | sealPatternChange (returned : Bool)
  | heartbeatLoss
  | controlLaneRetrain (up : Bool)
  | orphanRejoin
  | bridgeDataLaneLoss
  | bridgeLaneRetrain (group : Nat) (lanesLost : Nat)
  | patrolRead (addr : Nat) (errs : Errs)
  | recalWindow (iface : Nat) (trained : Bool)
  | retirementUnblocked
  | frameMoveComplete
  | cxlHotAdd (dev : CxlDev)
  | cxlLinkDown (port : Nat) (window : Nat)
  | cxlTimeout (addr : Nat) (write : Bool)
  | ucieLinkUp (module : Nat) (half : Bool)
  | ucieLinkDown
  | calveQuietPoint
  | calveHoldTimeout
  | calveRetry
  | calveCopyComplete
  | siteHardFailure (site : Nat)
  | spareSelfTest (site : Nat) (pass : Bool)
  | addUnitTest (unit : Nat) (pass : Bool)
  | i3cBootRead
  | i3cCommand (bytes : List Byte)
  | i3cResponseRead
  | jtagBoundaryScan (instruction : Nat)
  | readersReleased (f : Nat) (reader : Reader) (errs : Errs)
  | tileRowRelease (f : Nat)
  | illegalOp (f : Nat) (st : Stream) (errs : Errs)
  | pcRange (f : Nat) (st : Stream)
  | badOpcode (pv : Nat)
  | blockLock (port : Nat) (slot : Nat) (sync : List (BitVec 2))
  | oedLinkState (port : Nat) (sub : Nat) (up : Bool)
  | ucieLaneRepair (module : Nat) (spareLane : Bool) (retries : Nat)
  | substrateTempCheck (chip : Nat) (temp : Int)
  | presenceExpiry
  | i3cDynamicAddress (addr : BitVec 7)
  | trstN
  | jtagDebugAccess (target : Nat)
  deriving DecidableEq, Repr

end Sys2Proof
end

