-- ==== Sys2Proof/Config.lean ====
section
/-! DEFINITION. What an implementation fixes and the spec leaves free: opaque constants, without a body, so that no proof can use a value of theirs (notes/assumptions/1.md to 4.md, 14.md, 126.md to 129.md). -/

namespace Sys2Proof.Config

/-- A byte of a near-memory or CXL unit that its holder has not written: unspecified (spec/13 R472). Arguments: the number of the claim that granted the unit, the device address. -/
opaque freeByte : Nat → Nat → BitVec 8

/-- A byte of an output that a reset abandoned while it was being written: unspecified (spec/04 R118, spec/05 R151). Arguments: a fresh counter value, the device address. -/
opaque abandonedByte : Nat → Nat → BitVec 8

/-- The n-th output of the security controller's random bit generator (spec/13 R448). -/
opaque random : Nat → BitVec 512

/-- The n-th bit of the pseudo-random pattern on SEAL_A (spec/13 R465). -/
opaque sealPattern : Nat → Bool

/-- The serial number in fuses (spec/13 R455 Table 13-3, spec/09 Table 9-11). -/
opaque serial : BitVec 128

/-- The base MAC address in fuses, before its three low bits are cleared (spec/09 R267). -/
opaque macFuse : BitVec 48

/-- The device unique secret in fuses (spec/13 R449). -/
opaque dus : BitVec 256

/-- The key id of the manufacturing CA (spec/13 Table 13-3) and of the manufacturing key (Table 13-5). -/
opaque mfgCaKeyId : BitVec 128

/-- The manufacturing key's public field (spec/13 R467, MFG_MODE). -/
opaque mfgKey : List (BitVec 8)

/-- The random part of the n-th ECDSA signature the device makes: its 132 bytes are not fixed by spec/13 R452. -/
opaque signature : Nat → BitVec 1056

/-- The manufacturer's signature in the identity certificate (spec/13 R455). -/
opaque identitySignature : BitVec 1056

/-- The register layout version of a block type: major and minor (spec/16 R533, R534). -/
opaque layoutVersion : Nat → BitVec 16

/-- The n-th shared secret of two ephemeral P-521 keys, 66 bytes (spec/13 R453). -/
opaque sharedSecret : Nat → BitVec 528

/-- The private key of the n-th ephemeral P-521 pair that the device makes (spec/13 R453). -/
opaque ephemeral : Nat → BitVec 521

/-- The claim nonce that an OED peer sends in a session (spec/13 R454). -/
opaque peerNonce : Nat → BitVec 128

/-- The reference of a laser at manufacture in 0.01 dB (spec/11 R374). Arguments: chiplet, laser. -/
opaque laserRef : Nat → Nat → Int

/-- The MAC address that Neighbor Discovery gives for an address on the datacentre network (spec/11 Table 11-8). -/
opaque neighborMac : BitVec 128 → BitVec 48

/-- The round-trip time a HELLO exchange gives: spec/09 R304 says that the HELLOs give it and no rule says how it is computed (notes/assumptions/14.md). -/
opaque rtt : Nat → BitVec 16

/-- The body of the firmware a component runs when the device leaves the factory (spec/13 R456, R460). -/
opaque factoryFirmware : Nat → List (BitVec 8)

end Sys2Proof.Config
end

