-- ==== Sys2Proof/Machine/State.lean ====
section
/-! DEFINITION. The state of the device as plain data: every register, queue, counter, mode and pin the spec names, the work in flight, and the queue of waiting commands. Each field's docstring gives its meaning, the rule of spec/ that names it and its reset value. -/

namespace Sys2Proof.Machine

/-! ## Values and records -/

/-- A decoded or exact value (spec/02 R29, R30): NaN, an infinity, or sign, magnitude times a power of two. -/
inductive FVal where
  | nan
  | inf (neg : Bool)
  | fin (neg : Bool) (m : Nat) (e : Int)
  deriving DecidableEq, Repr

/-- A decoded tensor descriptor (spec/06 R172 Table 6-8). -/
structure Desc where
  base     : Nat := 0
  fmt      : Nat := 0
  shape    : Nat := 0
  occ      : Bool := false
  isMeta   : Bool := false
  dim0b    : Nat := 0
  dim1b    : Nat := 0
  scaleOff : Nat := 0
  tid      : Nat := 0
  occOff   : Nat := 0
  org0b    : Nat := 0
  org1b    : Nat := 0
  gdim1b   : Nat := 0
  deriving DecidableEq, Repr

/-- Stream states (spec/06 Table 6-1). -/
inductive SState where
  | idle | running | paused | halted | faulted | stopped
  deriving DecidableEq, Repr

/-- A TAG.WAIT in progress (spec/06 R181): the tag, the selected conditions and the target count read when the wait started. -/
structure Waiting where
  tag    : Nat
  ww     : Bool
  wr     : Bool
  ws     : Bool
  target : Half
  deriving DecidableEq, Repr

/-- One stream of a floe (spec/06 R153). -/
structure StreamSt where
  /-- FLOE_STREAM_STATUS field (3 bits); 06 R155, R193; reset 0 IDLE. -/
  st : SState := .idle
  /-- PC, byte offset in the scratchpad window, kept at 64 bits, shown in FLOE_PC_* [22:0]; 06 R153, R160, R193; reset 0. -/
  pc : DWord := 0
  /-- FLOE_STREAM_FAULT field (8 bits); 06 R190, R193; reset 0. -/
  fault : Byte := 0
  /-- S0-S31, 64 bits each, S0 never listed; 06 R153, R157; reset: the spec gives START's values only, DESIGN CHOICE 0 (log 5). -/
  regs : Tbl DWord := []
  /-- Registers with a pending write; 06 R169; MODEL, reset none. -/
  pend : List Nat := []
  /-- Fetch buffer: the instruction word fetched last (128 bits); 06 R153, R162; reset none. -/
  fetch : Option IWord := none
  /-- SYSTIME of the fault of another stream that stopped this RUNNING one; 06 R189; MODEL, reset none. -/
  cut : Option DWord := none
  /-- Row accumulator RA0, 128 FP32 entries; 05 R142; reset +0. -/
  ra0 : Tbl F32 := []
  /-- Row accumulator RA1, 128 FP32 entries; 05 R142; reset +0. -/
  ra1 : Tbl F32 := []
  /-- FLOE_ISSUE_* (64 bits); 06 R193; reset 0. -/
  issued : DWord := 0
  /-- A HALT has issued and not completed; 06 R170; MODEL, reset false. -/
  halting : Bool := false
  /-- TAG.WAIT in progress; 06 R181; MODEL, reset none. -/
  wait : Option Waiting := none
  deriving DecidableEq, Repr

/-- The three counts of a tensor tag (spec/06 R176): WR 0-3, RD 0-15, SEQ 16 bits. -/
structure TagCount where
  wr  : Nat := 0
  rd  : Nat := 0
  seq : Half := 0
  deriving DecidableEq, Repr

/-- Bank states (spec/03 R88). -/
inductive BankSt where
  | free | opened | draining
  deriving DecidableEq, Repr

/-- An accumulator bank (spec/03 R63, R66, R88): its state, the stream that holds it OPEN, the geometry of the MMA that opened it, the end of the k range it has summed, its rows of FP32 values (a row not listed is +0), and the block accumulators of a k-block that the last MMA left in progress: its global index and each cell's exact sum. -/
structure Bank where
  st    : BankSt := .free
  owner : Stream := .fwd
  m0    : Nat := 0
  n0    : Nat := 0
  mb    : Nat := 0
  nb    : Nat := 0
  kEnd  : Nat := 0
  vals  : List (List F32) := []
  block : Option (Nat × List (List FVal)) := none
  deriving DecidableEq, Repr

/-- An accepted MMA whose last product is still to come (spec/03 R79, R87): the issuing stream, the instruction word, the effective M0, N0, K0, the descriptors read at acceptance and, once its operands have been read, the exact sums of its k-blocks by global index (8-bit and 4-bit classes), or the products each cell adds, newest first (BF16). -/
structure MmaOp where
  stream   : Stream
  w        : IWord
  m0       : Nat
  n0       : Nat
  k0       : Nat
  dA       : Desc
  dB       : Desc
  readDone : Bool := false
  blocks   : List (Nat × List (List FVal)) := []
  contrib  : List (List (List FVal)) := []
  kRun     : Nat := 0
  kSkipped : Nat := 0
  bSkipped : Nat := 0
  deriving DecidableEq, Repr

/-- A finished tile that drains from its bank (spec/03 R79, spec/05 R124): whether its MMA was an MMA.SP, its rows and how many have entered the queue. -/
structure Drain where
  sp      : Bool
  bank    : Nat
  stream  : Stream
  tag     : Nat
  mb      : Nat
  nb      : Nat
  rows    : List (List F32)
  entered : Nat := 0
  deriving DecidableEq, Repr

/-- A tile in the tile queue (spec/05 R123, R125, R126). -/
structure Tile where
  tag      : Nat
  owner    : Stream
  mb       : Nat
  nb       : Nat
  rows     : Tbl (List F32) := []
  entered  : Nat := 0
  released : Nat := 0
  kept     : Bool := false
  deriving DecidableEq, Repr

/-- An accepted VEC, RED or CVT.BS16 pass (spec/05 R128-R134): the word, the offsets applied, the descriptors and scalar values read at acceptance, the row accumulators as they were then, and the source and operand values read since. -/
structure PassOp where
  stream   : Stream
  w        : IWord
  m0       : Nat
  n0       : Nat
  dSrc     : Desc := {}
  dDst     : Desc := {}
  dOps     : Tbl Desc := []
  scal     : Tbl DWord := []
  ra0      : Tbl F32 := []
  ra1      : Tbl F32 := []
  readDone : Bool := false
  src      : Tbl (List F32) := []
  ops      : Tbl (List (List F32)) := []
  deriving DecidableEq, Repr

/-- An accepted GATE.TOPK or PACK.CAP (spec/04 R105, R111): word, first index after USE_S, descriptors. -/
structure CondOp where
  stream : Stream
  w      : IWord
  first  : Nat
  dA     : Desc := {}
  dB     : Desc := {}
  dSrc   : Desc := {}
  dDst   : Desc := {}
  deriving DecidableEq, Repr

/-- An accepted UPD (spec/07 R214-R216): word, offsets applied, the slice's descriptor, the current and alternate descriptors of the state set, the hyperparameters and κ read at acceptance, and the tensor base tag. -/
structure UpdOp where
  stream : Stream
  w      : IWord
  m0     : Nat
  n0     : Nat
  dG     : Desc
  cur    : Tbl Desc
  alt    : Tbl Desc
  hp     : Tbl DWord
  kappa  : F32
  deriving DecidableEq, Repr

/-- The instruction the vector engine runs, one at a time (spec/04 R118). -/
inductive VecUnit where
  | idle
  | pass (o : PassOp)
  | cond (o : CondOp)
  | upd (o : UpdOp)
  deriving DecidableEq, Repr

/-- An accepted XFER (spec/06 R184-R186), the byte ranges it has read: (destination address, bytes), and the controller and port pages whose isolation has ended its requests there (spec/15 R508). -/
structure XferOp where
  stream   : Stream
  w        : IWord
  dSrc     : Desc
  dDst     : Desc
  readDone : Bool := false
  data     : List (Nat × List Byte) := []
  occBits  : List (Nat × Bool) := []
  ended    : List (Nat × Nat) := []
  deriving DecidableEq, Repr

/-- An entry of a stash stack (spec/07 R194, R203): a stored tensor or a hole, declared or optional, its EID, the recorded descriptor fields, its tier (0 front, 1 near memory, 2 CXL), its offset in the stack's share and its footprint. -/
structure StashEntry where
  hole     : Bool
  declared : Bool
  eid      : Nat
  d        : Desc
  tier     : Nat
  off      : Nat
  fp       : Nat
  deriving DecidableEq, Repr

/-- A stash push or pop in flight (spec/07 R203, R204): stack, entry, the other tensor's descriptor and tag, for a push the bytes read so far, and the pages whose isolation has ended its requests there (spec/15 R508). -/
structure StashOp where
  stream   : Stream
  stack    : Nat
  entry    : StashEntry
  d        : Desc
  tag      : Nat
  readDone : Bool := false
  data     : List (List Byte) := []
  ended    : List (Nat × Nat) := []
  deriving DecidableEq, Repr

/-- An SLD whose value is on its way (spec/06 R166). -/
structure SldOp where
  stream : Stream
  rd     : Nat
  value  : DWord
  deriving DecidableEq, Repr

/-- A remote TAG.SIGNAL on its way (spec/06 R183). -/
structure Signal where
  src    : Nat
  stream : Stream
  dst    : Nat
  tag    : Nat
  amount : Half
  deriving DecidableEq, Repr

/-- A group table entry (spec/10 Table 10-1). -/
structure Group where
  gid     : Nat := 0
  gepoch  : Nat := 0
  n       : Nat := 1
  self    : Nat := 0
  tree    : Bool := false
  pred    : Nat := 0xFFFFFFFF
  succ    : Nat := 0xFFFFFFFF
  parent  : Nat := 0xFFFFFFFF
  childs  : List Nat := []
  timeout : Nat := 200
  guard   : Nat := 2
  deriving DecidableEq, Repr

/-- An exchange table (spec/10 R341): E, C, the destination member and slot of each expert, the source member and expert of each slot. -/
structure Exchange where
  e    : Nat := 0
  c    : Nat := 0
  out  : List (Nat × Nat) := []
  inn  : List (Nat × Nat) := []
  deriving DecidableEq, Repr

/-- A mesh packet: the header fields of spec/09 Table 9-2 and Table 9-3 that are not fixed, and the payload. Addresses are prefix and identifier (Table 9-1). -/
structure MeshPkt where
  hop     : Nat := 255
  src     : BitVec 128 := 0
  dst     : BitVec 128 := 0
  ch      : Nat := 0
  epoch   : Bool := false
  typ     : Nat := 0
  part    : Nat := 0
  tag     : Nat := 0
  member  : Nat := 0
  attempt : Nat := 0
  last    : Bool := false
  poison  : Bool := false
  slow    : Bool := false
  dhash   : Word := 0
  offset  : Nat := 0
  esc     : Bool := false
  detour  : Bool := false
  daxis   : Nat := 0
  step    : Word := 0
  birth   : Word := 0
  payload : List Byte := []
  deriving DecidableEq, Repr

/-- How a packet lies on its link (spec/09 R270, R277 to R279): its bytes with their padding, the position of the lane that carries its first block, bytes 0-15 of its TAIL, and the key and IV that seal it once the link is keyed. -/
structure Wire where
  bytes : List Byte := []
  lane  : Nat := 0
  tail  : List Byte := []
  cipher : Option (BitVec 256 × BitVec 96) := none
  deriving DecidableEq, Repr

/-- What has left the device on a mesh port: a packet with its tail's STOMP flag, the TAIL with STOMP of a packet already forwarded, a control block, an alignment marker. -/
inductive Sent where
  | packet (port : Nat) (p : MeshPkt) (stomp : Bool) (wire : Wire)
  | stompTail (port : Nat) (p : MeshPkt)
  | fc (port : Nat) (block : List Byte)
  | marker (port : Nat) (slot : Nat) (bytes : List Byte)
  deriving DecidableEq, Repr

/-- The kind of a collective step (spec/10 R320). -/
inductive StepKind where
  | allgather | rotate | reduceScatter | allreduce | permute
  | commit | norm | barrier
  deriving DecidableEq, Repr

/-- What one floe brought to a COLL.VERDICT (spec/10 R350): its floe, stream, RREG, the byte of CREG and the norm word of NREG; whether an UPD that was in flight then is still to complete (spec/07 R225). -/
structure Issue where
  floe   : Nat
  stream : Stream
  rreg   : Nat
  creg   : Byte
  nreg   : F32
  upd    : Bool := false
  deriving DecidableEq, Repr

/-- A verdict's combined value: byte, key, norm sum (spec/10 R351). -/
structure VVal where
  byte : Byte := 0
  key  : Word := 0
  q    : F32 := 0
  deriving DecidableEq, Repr

/-- A collective step in flight (spec/10 R318, R322-R327, R350-R352). -/
structure Step where
  floe     : Nat
  stream   : Stream
  tag      : Nat
  kind     : StepKind
  ch       : Nat
  gidx     : Nat
  group    : Group
  exch     : Exchange := {}
  dist     : Nat := 0
  serial   : Word
  attempt  : Nat := 0
  dSrc     : Desc := {}
  dDst     : Desc := {}
  tagSrc   : Nat := 0
  tagDst   : Nat := 0
  dhash    : Word := 0
  counts   : Tbl Nat := []
  complete : Bool := false
  doneHeld : Bool := false
  abandoned : Bool := false
  seen     : List (Nat × Nat × Nat) := []
  begun    : DWord := 0
  deadline : DWord := 0
  addUnit  : Option Nat := none
  issues   : List Issue := []
  mine     : Option VVal := none
  reports  : Tbl VVal := []
  result   : Option (VVal × DWord) := none
  deriving DecidableEq, Repr

/-- A COLL.STEER accepted and not complete (spec/10 R354-R356); `due` once its verdict has completed. -/
structure Steer where
  floe   : Nat
  stream : Stream
  rtag   : Nat
  plan   : Nat
  due    : Bool := false
  deriving DecidableEq, Repr

/-- A mirror transfer of a floe to its buddy (spec/10 R357): bytes sent in the step, those of them already counted as completed, the runs they came from (pair index, offset, address, length), whether the total was announced, whether the buddy confirmed it, whether it failed, the attempt, and the SYSTIME at which its 200 us timer runs out. -/
structure MirTx where
  sent      : Nat := 0
  done      : Nat := 0
  runs      : List (Nat × Nat × Nat × Nat) := []
  told      : Bool := false
  confirmed : Bool := false
  failed    : Bool := false
  attempt   : Nat := 0
  deadline  : DWord := 0
  deriving DecidableEq, Repr

/-! ## Floes -/

/-- One logical floe: its architectural state and its register page's fields. -/
structure Floe where
  /-- Stream FWD; 06 R153; reset as StreamSt. -/
  fwd : StreamSt := {}
  /-- Stream BWD; 06 R153; reset as StreamSt. -/
  bwd : StreamSt := {}
  /-- Stream UPD; 06 R153; reset as StreamSt. -/
  upd : StreamSt := {}
  /-- WR (2 bits), RD (4 bits), SEQ (16 bits) of the 256 tags; 06 R176; reset 0 (R176, R427). -/
  tags : Tbl TagCount := []
  /-- Accumulator bank 0, 128 x 128 FP32, FLOE_MMA_STATUS BANK0/OWNER0; 03 R63, R88, R92; reset FREE, +0. -/
  bank0 : Bank := {}
  /-- Accumulator bank 1; 03 R63, R88, R92; reset FREE, +0. -/
  bank1 : Bank := {}
  /-- MMAs accepted whose last product is to come, oldest first (FLOE_MMA_STATUS.BUSY); 03 R79, R92; MODEL, reset none. -/
  mmas : List MmaOp := []
  /-- Tiles draining from their banks; 03 R80, 05 R124; MODEL, reset none. -/
  drains : List Drain := []
  /-- The tile queue, 512 rows of 128 FP32 (FLOE_TQ_STATUS); 05 R123, R152; reset empty. -/
  tq : List Tile := []
  /-- The vector engine's instruction; 04 R118; MODEL, reset idle. -/
  vu : VecUnit := .idle
  /-- XFERs in flight, at most four; 06 R159; MODEL, reset none. -/
  xfers : List XferOp := []
  /-- STASH.PUSH in flight; 06 R159, 07 R203; MODEL, reset none. -/
  push : Option StashOp := none
  /-- STASH.POP copying; 06 R159, 07 R204; MODEL, reset none. -/
  pop : Option StashOp := none
  /-- SLDs in flight; 06 R166; MODEL, reset none. -/
  slds : List SldOp := []
  /-- The 16 stash stacks, top first (FLOE_STASH_STATUS); 07 R194, R234; reset empty. -/
  stashed : Tbl (List StashEntry) := []
  /-- The declared list: (EID, footprint), up to 256; 07 R197; reset empty. -/
  declared : List (Nat × Nat) := []
  /-- The group table, up to 256 entries; 10 R316; reset empty. -/
  groups : Tbl Group := []
  /-- The exchange tables, by group; 10 R341; reset empty. -/
  exchs : Tbl Exchange := []
  /-- Packets held in the early region, in order of arrival; 10 R324; reset none. -/
  early : List MeshPkt := []
  /-- The highest attempt seen for each bucket tag; 10 R324; MODEL, reset 0. -/
  tagAttempt : Tbl Nat := []
  /-- Floe record byte (8 bits); 10 R350 Table 10-8; reset 0. -/
  record : Byte := 0
  /-- Signed arbitration counters, key 4 x unit + stream; 06 R188; reset 0. -/
  weights : Tbl Int := []
  /-- RWL fields of the page are locked (START to partition reset); 06 R193, 07 R234, 10 R359; reset open. -/
  locked : Bool := false
  /-- FLOE_MMA_COUNT (64); 03 R92; reset 0. -/
  mmaCount : DWord := 0
  /-- FLOE_ARRAY_BUSY (64); 03 R92; reset 0. -/
  arrayBusy : DWord := 0
  /-- FLOE_ARRAY_STALL (64); 03 R92; reset 0. -/
  arrayStall : DWord := 0
  /-- FLOE_ARRAY_SKIP (64); 03 R92, 04 R104; reset 0. -/
  arraySkip : DWord := 0
  /-- FLOE_SP_MMA_COUNT (64); 04 R122; reset 0. -/
  spMmaCount : DWord := 0
  /-- FLOE_SKIP_KUNITS (64); 04 R122; reset 0. -/
  skipKunits : DWord := 0
  /-- FLOE_GATE_TOKENS (64); 04 R122; reset 0. -/
  gateTokens : DWord := 0
  /-- FLOE_GATE_NONFINITE (64); 04 R122; reset 0. -/
  gateNonfinite : DWord := 0
  /-- FLOE_PACK_ASSIGNED (64); 04 R122; reset 0. -/
  packAssigned : DWord := 0
  /-- FLOE_PACK_DROPPED (64); 04 R122; reset 0. -/
  packDropped : DWord := 0
  /-- FLOE_VFLAGS (32: FWD [4:0], BWD [12:8], UPD [20:16]); 05 R152; reset 0. -/
  vflags : Word := 0
  /-- FLOE_VEC_COUNT (64); 05 R152; reset 0. -/
  vecCount : DWord := 0
  /-- FLOE_VEC_BUSY (64); 05 R152; reset 0. -/
  vecBusy : DWord := 0
  /-- FLOE_VEC_NF_COUNT (64); 05 R152; reset 0. -/
  vecNf : DWord := 0
  /-- FLOE_VEC_SAT_COUNT (64); 05 R152; reset 0. -/
  vecSat : DWord := 0
  /-- FLOE_STREAM_CTL (32); 06 R193; reset MODE 0, weights 8/4/2, AGE_LOG2 0x0C, STALL_LOG2 0x1F. -/
  streamCtl : Word := 0x1F0C2480#32
  /-- FLOE_CODE_BASE (23); 06 R193; reset 0. -/
  codeBase : BitVec 23 := 0
  /-- FLOE_CODE_SIZE (23); 06 R193; reset 0. -/
  codeSize : BitVec 23 := 0
  /-- FLOE_DESC_BASE (23); 06 R193; reset 0. -/
  descBase : BitVec 23 := 0
  /-- FLOE_STASH_CFG.NSTK (5); 07 R234; reset 0. -/
  nstk : BitVec 5 := 0
  /-- FLOE_STASH_FRONT_BASE (23); 07 R234; reset 0. -/
  frontBase : BitVec 23 := 0
  /-- FLOE_STASH_FRONT_SIZE (23); 07 R234; reset 0. -/
  frontSize : BitVec 23 := 0
  /-- FLOE_STASH_NM_BASE (52); 07 R234; reset 0. -/
  nmBase : BitVec 52 := 0
  /-- FLOE_STASH_NM_SIZE (40); 07 R234; reset 0. -/
  nmSize : BitVec 40 := 0
  /-- FLOE_STASH_CXL_BASE (52); 07 R234; reset 0. -/
  cxlBase : BitVec 52 := 0
  /-- FLOE_STASH_CXL_SIZE (44); 07 R234; reset 0. -/
  cxlSize : BitVec 44 := 0
  /-- FLOE_STASH_PUSH_COUNT (64); 07 R234; reset 0. -/
  pushCount : DWord := 0
  /-- FLOE_STASH_SPILL_COUNT (64); 07 R234; reset 0. -/
  spillCount : DWord := 0
  /-- FLOE_STASH_HOLE_COUNT (64); 07 R234; reset 0. -/
  holeCount : DWord := 0
  /-- FLOE_STASH_RECOMP_COUNT (64); 07 R234; reset 0. -/
  recompCount : DWord := 0
  /-- FLOE_PP_CFG.PP_BASE (8); 07 R212, R234; reset 0. -/
  ppBase : BitVec 8 := 0
  /-- FLOE_PP_CFG.PP_COUNT (8); 07 R212, R234; reset 0. -/
  ppCount : BitVec 8 := 0
  /-- FLOE_UPD_GN_COMMIT (32); 07 R223, R234; reset 0. -/
  gnCommit : F32 := 0
  /-- FLOE_UPD_GN_CUR (32); 07 R223, R234; reset 0. -/
  gnCur : F32 := 0
  /-- FLOE_UPD_STATUS.CUR_VALID (1); 07 R223, R234; reset 0. -/
  curValid : Bool := false
  /-- FLOE_UPD_STATUS.HOLD (1); 07 R234; reset 0. -/
  holdMode : Bool := false
  /-- FLOE_UPD_STATUS.MIRROR (1); 07 R234; reset 0. -/
  mirrorOn : Bool := false
  /-- FLOE_UPD_STATUS.MIR_HALF (1); 07 R231, R234; reset 0. -/
  mirHalf : Bool := false
  /-- FLOE_UPD_ELEMENTS (64); 07 R234; reset 0. -/
  updElements : DWord := 0
  /-- FLOE_MIR_BYTES (64); 07 R234; reset 0. -/
  mirBytes : DWord := 0
  /-- Mirror transfer of this floe in the current step; 07 R231, 10 R357; MODEL, reset none sent. -/
  mirTx : MirTx := {}
  /-- FLOE_SP_CE_COUNT (64); 08 R259; reset 0. -/
  spCe : DWord := 0
  /-- FLOE_SP_UE_COUNT (64); 08 R259; reset 0. -/
  spUe : DWord := 0
  /-- FLOE_COLL_EARLY_BASE (23); 10 R359; reset 0. -/
  earlyBase : BitVec 23 := 0
  /-- FLOE_COLL_EARLY_SIZE (23); 10 R359; reset 0. -/
  earlySize : BitVec 23 := 0
  /-- FLOE_COLL_STEPS (64); 10 R359; reset 0. -/
  collSteps : DWord := 0
  /-- FLOE_COLL_REPLAYS (64); 10 R359; reset 0. -/
  collReplays : DWord := 0
  /-- FLOE_COLL_FAILS (64); 10 R359; reset 0. -/
  collFails : DWord := 0
  /-- FLOE_COLL_LAST_FAIL (64); 10 R359; reset 0. -/
  collLastFail : DWord := 0
  /-- FLOE_COLL_VERDICT_LATE (64); 10 R359; reset 0. -/
  verdictLate : DWord := 0
  /-- The floe is held for CONTROL firmware or calving; 14 R476, R482; MODEL, reset false. -/
  held : Bool := false
  /-- Inbound packets for the floe are ejected while it is copied; 14 R482 step 3; MODEL, reset false. -/
  copying : Bool := false
  deriving DecidableEq, Repr

/-! ## Partitions -/

/-- Partition states (spec/12 Table 12-15). -/
inductive PState where
  | free | claimed | loaded | running | paused | degraded | faulted | thawing
  deriving DecidableEq, Repr

/-- An open image load (spec/12 R424): the announced length and the bytes received in order. -/
structure Load where
  len   : Nat
  bytes : List Byte := []
  deriving DecidableEq, Repr

/-- What LOAD_END keeps of an image (spec/12 Tables 12-8 and 12-9, spec/13 Table 13-5). -/
structure Image where
  seed     : DWord := 0
  step     : Word := 0
  gn       : F32 := 0
  hold     : Bool := false
  mirror   : Bool := false
  secver   : Word := 0
  digest   : List Byte := []
  keyId    : BitVec 128 := 0
  entries  : Tbl (List Word) := []
  tagTable : Tbl Nat := []
  plans    : Tbl (List DWord) := []
  buddy    : Nat := 0xFFFFFFFF
  mirMap   : List (Nat × Nat × Nat × Nat) := []
  deriving DecidableEq, Repr

/-- One partition (spec/12, spec/13 Table 13-1). -/
structure Part where
  /-- PART_STATE field (4); 12 R444; reset 0 FREE. -/
  st : PState := .free
  /-- PART_OWNER field (4), none is 0xF; 12 R415, R444; reset none. -/
  owner : Option Nat := none
  /-- PART_GROUPS mask (26); 12 R444; reset 0. -/
  groups : BitVec 26 := 0
  /-- Granted near-memory units of 1 GiB; 12 R420, 13 R446; reset none. -/
  near : List Nat := []
  /-- Granted CXL units of 1 GiB; 12 R420, 13 R446; reset none. -/
  cxl : List Nat := []
  /-- The open load; 12 R424; reset none. -/
  load : Option Load := none
  /-- The loaded image; 12 R425; reset none. -/
  image : Option Image := none
  /-- Committed-step count (32); 02 R46; reset 0 (loaded at START). -/
  stepCount : Word := 0
  /-- Step serial (32); 10 R322; reset 0. -/
  serial : Word := 0
  /-- Commits (32), TELEM 0x01; 12 R436; reset 0. -/
  commits : Word := 0
  /-- Discards (32), TELEM 0x01; 12 R436; reset 0. -/
  discards : Word := 0
  /-- Key of the last verdict (32), TELEM 0x01; 12 R436; reset 0. -/
  lastKey : Word := 0
  /-- Collective steps in flight; 10 R318; reset none. -/
  steps : List Step := []
  /-- COLL.STEERs in flight; 10 R355; reset none. -/
  steers : List Steer := []
  /-- Plan fixed by the first COLL.STEER of each RTAG of the step; 10 R356; reset none. -/
  steerPlan : Tbl Nat := []
  /-- Verdict tags completed in the current step serial; 10 R354; MODEL, reset none. -/
  verdictDone : List Nat := []
  /-- Descriptors exchanged pending: a commit waits for the current and alternate tags to be free; 07 R226 item 1; MODEL, reset false. -/
  committing : Bool := false
  /-- Buddy's mirror half for senders; 07 R231; reset 0. -/
  mirHalf : Bool := false
  /-- Mirror bytes counted per (sender endpoint, serial) key; 10 R357; MODEL, reset none. -/
  mirGot : Tbl Nat := []
  /-- Mirror totals announced and not yet counted, keyed as mirGot; 10 R357; MODEL, reset none. -/
  mirWant : Tbl Nat := []
  /-- Steps that failed under the current serial, whose FAIL notices are still forwarded; 10 R344; MODEL, reset none. -/
  gone : List Step := []
  /-- A PAUSE waits for open steps to close; 10 R349; MODEL, reset false. -/
  pausing : Bool := false
  /-- Number of the claim, the identity of the partition's keys and nonce; 13 R449; MODEL, reset 0. -/
  claimNo : Nat := 0
  /-- The partition's keys exist; 13 R449, R450; reset false. -/
  keys : Bool := false
  /-- Bytes of the device's 512 GiB of near-memory stash that its images hold until release; 08 R258; reset 0. -/
  nmShare : Nat := 0
  /-- Weight at release, under which the thaw runs; 08 R248; reset 0. -/
  thawWeight : Nat := 0
  deriving DecidableEq, Repr

/-! ## Host interface -/

/-- A framed Gwyntik command packet (spec/12 Table 12-4). `src` is the endpoint 0-7, or 8 for the I3C management target; `zero` says whether every field that a command leaves 0 is 0; `busy` marks a command that has begun and waits for its answer (PAUSE, RESET of scope BLOCK). -/
structure GwyPkt where
  src     : Nat
  opcode  : Nat
  part    : Nat
  zero    : Bool
  seq     : Word
  tag     : Word
  arg0    : DWord
  arg1    : Word
  payload : List Byte
  busy    : Bool := false
  deriving DecidableEq, Repr

/-- A packet on its way to the host: an event or a response, its bytes not yet taken, and for a response the PARTITION value and the bytes of credit that its command uses until it is sent (spec/12 R417). -/
structure RxItem where
  event  : Bool
  bytes  : List Byte
  credit : Option (Nat × Nat) := none
  deriving DecidableEq, Repr

/-- One Gwyntik endpoint (spec/12 R401, R406-R410) and what the device keeps for it. -/
structure Endpoint where
  /-- GWY_EP_CFG.ENABLE (1); 12 R410; reset 0. -/
  enable : Bool := false
  /-- GWY_EP_CFG.MGMT (1); 12 R410; reset 0. -/
  mgmt : Bool := false
  /-- GWY_EP_CFG.LOCK (1); 12 R410; reset 0. -/
  lock : Bool := false
  /-- GWY_EP_CFG.LOCK has been written since processor-die reset (RWO); 00 R15, 12 R410; MODEL, reset false. -/
  cfgDone : Bool := false
  /-- GWY_EP_STATUS.LINK_RESET (1); 12 R410; reset 0. -/
  linkReset : Bool := false
  /-- GWY_EP_STATUS.TX_ERROR (1); 12 R407, R410; reset 0. -/
  txError : Bool := false
  /-- GWY_INT_ENABLE.RX (1); 12 R410; reset 0. -/
  intRx : Bool := false
  /-- GWY_INT_ENABLE.LINK (1); 12 R410; reset 0. -/
  intLink : Bool := false
  /-- GWY_MSI_ADDR (64); 12 R410; reset 0. -/
  msiAddr : DWord := 0
  /-- GWY_MSI_DATA (32); 12 R410; reset 0. -/
  msiData : Word := 0
  /-- Outbound buffer, up to 512 KiB (GWY_TX_SPACE); 12 R406; reset empty. -/
  tx : List Byte := []
  /-- Stores that stall until the outbound buffer has room; 12 R406; MODEL, reset none. -/
  stalled : List (List Byte) := []
  /-- Framed packets on their way, each with the UCIe module it was sent on, in the order sent; 12 R404, R407; MODEL, reset none. -/
  transit : List (Nat × List Byte) := []
  /-- Inbound packets in the 256 KiB buffer (GWY_RX_AVAIL); 12 R408; reset empty. -/
  rx : List RxItem := []
  /-- Responses and events held while the inbound buffer is full; 12 R408; reset none. -/
  heldRx : List RxItem := []
  /-- Event SEQUENCE (32); 12 R442; reset 0. -/
  evSeq : Word := 0
  /-- Events dropped since the last EVENT_LOST; 12 R443; reset 0. -/
  lostNow : Nat := 0
  /-- PART_EVENT_LOST_COUNT (64); 12 R444; reset 0. -/
  lostCount : DWord := 0
  /-- Expected sequence numbers by PARTITION value; 12 R413; reset 0. -/
  expSeq : Tbl Word := []
  /-- The endpoint received BUSY_ATTEST and waits for ATTEST_READY; 12 R433; reset false. -/
  busyAttest : Bool := false
  /-- The 8 bytes the last load from the RX window returned, in stream order; 12 R408; reset none. -/
  lastLoad : List Byte := []
  deriving DecidableEq, Repr

/-- The I3C targets (spec/17 R554-R556). -/
structure I3c where
  /-- Dynamic address of the management target (7 bits); 17 R554; reset none. -/
  dyn : Option (BitVec 7) := none
  /-- A command is outstanding; 17 R556; reset false. -/
  outstanding : Bool := false
  /-- The response a private read returns; 17 R556; reset none. -/
  response : Option (List Byte) := none
  /-- In-band interrupt raised; 17 R556; reset false. -/
  ibi : Bool := false
  /-- Bytes the last private read returned (boot status or response); 17 R555, R556; MODEL, reset none. -/
  lastRead : List Byte := []
  /-- Expected sequence number; 17 R556, 12 R413; reset 0. -/
  expSeq : Word := 0
  deriving DecidableEq, Repr

/-- One UCIe module (spec/12 Table 12-16). -/
structure Ucie where
  /-- UCIE_CFG.RATE (1); 12 R445; reset 0. -/
  rate : Bool := false
  /-- UCIE_LINK_STATUS.UP (1); 12 R445; reset 0. -/
  up : Bool := false
  /-- UCIE_LINK_STATUS.SPEED (2); 12 R445; reset 0. -/
  speed : BitVec 2 := 0
  /-- UCIE_LINK_STATUS.HALF (1); 12 R445; reset 0. -/
  half : Bool := false
  /-- UCIE_LINK_STATUS.REPAIRED (4); 12 R445; reset 0. -/
  repaired : BitVec 4 := 0
  /-- UCIE_RETRY_COUNT (64); 12 R445; reset 0. -/
  retry : DWord := 0
  /-- UCIE_PACKET_COUNT (64); 12 R445; reset 0. -/
  packets : DWord := 0
  /-- UCIE_CRC_FAIL_COUNT (64); 12 R445; reset 0. -/
  crcFail : DWord := 0
  deriving DecidableEq, Repr

/-! ## Memory tiers -/

/-- One near-memory controller, serving memory device d (spec/08 Table 8-8). -/
structure Nmc where
  /-- NMC_CFG.RATE (3); 08 R260; reset 0b100. -/
  rate : BitVec 3 := 4
  /-- NMC_CFG.RECAL (8); 08 R260; reset 0x64. -/
  recal : Byte := 0x64
  /-- NMC_CFG.PATROL (8); 08 R260; reset 0x18. -/
  patrol : Byte := 0x18
  /-- NMC_CE_THRESH (16); 08 R260; reset 0x0400. -/
  thresh : Half := 0x400
  /-- NMC_ECC_COUNT (64); 08 R260; reset 0. -/
  ecc : DWord := 0
  /-- NMC_UE_COUNT (64); 08 R260; reset 0. -/
  ue : DWord := 0
  /-- NMC_EDC_RETRY_COUNT (64); 08 R260; reset 0. -/
  edcRetry : DWord := 0
  /-- NMC_IF_CE (4 x 16); 08 R260; reset 0. -/
  ifCe : Tbl Nat := []
  /-- Uncorrectable reads per interface in the patrol period; 08 R249; MODEL, reset 0. -/
  ifUe : Tbl Nat := []
  /-- Interfaces whose passing of NMC_CE_THRESH in the patrol period has been reported; 08 R249; MODEL, reset none. -/
  told : List Nat := []
  /-- Consecutive failed training windows per interface; 08 R249; MODEL, reset 0. -/
  trainFails : Tbl Nat := []
  /-- RATE in force since the last recalibration window (3); 08 R260; reset 0b100. -/
  rateNow : BitVec 3 := 4
  deriving DecidableEq, Repr

/-- A retirement in progress (spec/08 R250): interface, blocked or moving, and the frame moves left: (frame, destination interface, destination slot). -/
structure Retire where
  iface   : Nat
  blocked : Bool
  moves   : List (Nat × Nat × Nat)
  deriving DecidableEq, Repr

/-- The near-memory map (spec/08 R241, Table 8-9). -/
structure NmMap where
  /-- State of each interface 0-47: 0 ACTIVE, 1 RETIRING, 2 RETIRED (ABSENT follows the variant); 08 R260; reset from record (ACTIVE). -/
  ifs : Tbl Nat := []
  /-- Frames not at their cold-reset place: frame to interface, slot; 08 R241, R250; reset none. -/
  moved : Tbl (Nat × Nat) := []
  /-- Interfaces left out when the frame table was built (48); 08 R241; reset from fuses (0). -/
  base : BitVec 48 := 0
  /-- Interfaces whose forced retirement is due; 08 R249; MODEL, reset none. -/
  due : List Nat := []
  /-- Interfaces retired since the table was built, withdrawn capacity in units of 20 GiB; 08 R242; reset 0. -/
  withdrawn : Nat := 0
  /-- NMMAP_CFG.AUTO_RETIRE (1); 08 R261; reset 1. -/
  autoRetire : Bool := true
  /-- NMMAP_CFG.MIG_WEIGHT (4); 08 R261; reset 4. -/
  migWeight : BitVec 4 := 4
  /-- NMMAP_RETIRE (48); 08 R261; reset 0. -/
  req : BitVec 48 := 0
  /-- NMMAP_RETIRED (48); 08 R261; reset from record (0). -/
  retired : BitVec 48 := 0
  /-- Retirements waiting, in the order triggered; 08 R252; MODEL, reset none. -/
  queue : List Nat := []
  /-- The retirement in progress (NMMAP_MIGRATE); 08 R261; reset none. -/
  cur : Option Retire := none
  /-- NMMAP_PART_WEIGHT (32); 08 R261; reset 0x4444_4444. -/
  weight : Word := 0x44444444
  deriving DecidableEq, Repr

/-- A CXL window (spec/08 R254): base, size in GiB, whether its device is lost, whether the device lies behind the second ×8 sublink. -/
structure CxlWin where
  base : Nat
  gib  : Nat
  lost : Bool := false
  sub  : Bool := false
  deriving DecidableEq, Repr

/-- One CXL port (spec/08 Table 8-10). -/
structure Cxl where
  /-- CXL_PORT_CFG.BIFURCATE (1); 08 R262; reset 0. -/
  bifurcate : Bool := false
  /-- CXLn_PERST_N is driven low; 17 R548; reset true. -/
  perst : Bool := true
  /-- CXL_LINK_STATUS (32); 08 R262; reset 0. -/
  link : Word := 0
  /-- Windows k = 0-3 (CXL_WIN_BASE, CXL_WIN_SIZE, CXL_DEV_COUNT); 08 R262; reset none. -/
  wins : Tbl CxlWin := []
  /-- Lines with a request that stayed unanswered and whose requester has still to be answered; 08 R255; MODEL, reset none. -/
  late : List Nat := []
  /-- Devices beyond the fourth or without a free base; 08 R254; reset 0. -/
  unplaced : Nat := 0
  /-- CXL_POISON_COUNT (64); 08 R262; reset 0. -/
  poison : DWord := 0
  /-- CXL_TIMEOUT_COUNT (64); 08 R262; reset 0. -/
  timeout : DWord := 0
  deriving DecidableEq, Repr

/-! ## Router -/

/-- Mesh port states (spec/09 ROUTER_PORT_STATUS, Table 9-12). -/
inductive PortSt where
  | down | training | keying | up | qCable | qVersion | qLoc | uncabled | qExpress
  deriving DecidableEq, Repr

/-- A packet that is passing through an input port: its header has been handled, its TAIL is to come (spec/09 R278-R280). -/
inductive Passage where
  | none
  | dropped
  /-- Routed on to `out`; held in that port's queue while its class is OFF. -/
  | forwarded (out : Nat) (p : MeshPkt)
  | here (p : MeshPkt)
  deriving DecidableEq, Repr

/-- A packet waiting at an output port: the input port it occupies a buffer of (12 for a local endpoint), the packet, whether its TAIL will carry STOMP (spec/09 R282, R293). -/
structure Queued where
  inp   : Nat
  p     : MeshPkt
  stomp : Bool := false
  deriving DecidableEq, Repr

/-- One mesh port k = 4a + d (spec/09 R269). -/
structure Port where
  /-- ROUTER_PORT_STATUS field (4); 09 R314; reset 0 DOWN. -/
  st : PortSt := .down
  /-- ROUTER_PORT_PEER.COORD (24: x [7:0], y [15:8], z [23:16]); 09 R314; reset 0. -/
  peerCoord : BitVec 24 := 0
  /-- ROUTER_PORT_PEER.PORT (4); 09 R314; reset 0. -/
  peerPort : BitVec 4 := 0
  /-- ROUTER_PORT_PEER.PROTO (16); 09 R314; reset 0. -/
  peerProto : Half := 0
  /-- Peer's mesh MAC, learned from its HELLO (48); 09 R270, R305; reset 0. -/
  peerMac : BitVec 48 := 0
  /-- Peer's serial number (128); 09 R305; reset 0. -/
  peerSerial : BitVec 128 := 0
  /-- ROUTER_PORT_FEATURES (64); 09 R308, R314; reset 0. -/
  feat : DWord := 0
  /-- ROUTER_PORT_RTT (16); 09 R314; reset 0. -/
  rtt : Half := 0
  /-- SYSTIME of the last HELLO received from the peer (64); 09 R305; reset 0. -/
  lastHello : DWord := 0
  /-- SYSTIME field of that HELLO (64); 09 R305; MODEL, reset 0. -/
  peerHello : DWord := 0
  /-- Transmit slots in the link, bit 8k + j; 11 R362, R367; reset 0. -/
  lanes : DWord := 0
  /-- Lane-set sequence number (16); 11 Table 11-4; reset 0. -/
  laneSeq : Half := 0
  /-- The supervised receive slots and the lane position that each one's last marker gave it; 09 R276, 11 R368; reset none. -/
  rxPos : Tbl Nat := []
  /-- Lanes in the link as the last marker announced them; 11 Table 11-4; reset 0. -/
  rxN : Nat := 0
  /-- Consecutive sync errors of each receive slot; 09 R275; reset 0. -/
  syncErr : Tbl Nat := []
  /-- The lane position that follows the last block of the last packet sent; 09 R278; reset 0. -/
  txLane : Nat := 0
  /-- Link keys agreed; 09 R279, 13 R449; reset none. -/
  keyed : Bool := false
  /-- Transmit GCM key (256); 09 R279, 13 R453; reset 0 (not keyed). -/
  txKey : BitVec 256 := 0
  /-- Transmit salt (32); 09 R279, 13 R453; reset 0 (not keyed). -/
  txSalt : Word := 0
  /-- Transmit GCM packet counter (64); 09 R279; reset 0. -/
  txCount : DWord := 0
  /-- Receive GCM key (256); 09 R279, 13 R453; reset 0 (not keyed). -/
  rxKey : BitVec 256 := 0
  /-- Receive salt (32); 09 R279, 13 R453; reset 0 (not keyed). -/
  rxSalt : Word := 0
  /-- Receive GCM packet counter (64); 09 R279; reset 0. -/
  rxCount : DWord := 0
  /-- OFF bits of CH0-CH7, MAIN class, as the peer last said; 09 R295; reset 0. -/
  offMain : Byte := 0
  /-- OFF bits, ESCAPE class; 09 R295; reset 0. -/
  offEsc : Byte := 0
  /-- No FC block heard for 10 µs: every class counts as OFF; 09 R295; reset false. -/
  fcSilent : Bool := false
  /-- FC refresh count sent (8); 09 Table 9-5; reset 0. -/
  fcRefresh : Byte := 0
  /-- OFF bits the device last sent for its input buffer, MAIN class (8); 09 R294, R295; reset 0. -/
  myMain : Byte := 0
  /-- OFF bits the device last sent, ESCAPE class (8); 09 R294, R295; reset 0. -/
  myEsc : Byte := 0
  /-- Packets queued for the port, oldest first; 09 R282; reset none. -/
  queue : List Queued := []
  /-- The packet passing in at this port; 09 R280; MODEL, reset none. -/
  passage : Passage := .none
  /-- Data blocks of the packet passing in; 09 R277, R278; MODEL, reset 0. -/
  blocks : Nat := 0
  /-- Token bucket of CH7 in eighths of a byte, at most 8 KiB; 09 R282; reset full. -/
  tok7 : Nat := 65536
  /-- Token bucket of CH0 in eighths of a byte, at most 8 KiB; 09 R282; reset full. -/
  tok0 : Nat := 65536
  /-- SYSTIME up to which the token buckets have been filled (64); 09 R282; MODEL, reset 0. -/
  tokAt : DWord := 0
  /-- Weighted round robin of CH1-CH6: the channel whose turn it is and the packets left in its turn; 09 R282; MODEL, reset none. -/
  wrr : Nat × Nat := (0, 0)
  /-- SYSTIMEs of the tag failures within the last 1 ms; 09 R280; reset none. -/
  tagFails : List DWord := []
  /-- An UP notice was flooded for the port since it came up; 09 R291, R310; MODEL, reset false. -/
  announced : Bool := false
  deriving DecidableEq, Repr

/-- A routing bank (spec/09, "Routing"): USABLE (12), ADAPT (3). -/
structure RBank where
  usable : BitVec 12 := 0
  adapt  : BitVec 3 := 0b011
  deriving DecidableEq, Repr

/-- Bank use (spec/09 R290): 0 ACTIVE, 1 DRAINING, 2 FREE. -/
inductive BankUse where
  | active | draining | free
  deriving DecidableEq, Repr

/-- A packet delivered whole to the device and waiting for its row (spec/09 R299): input port, packet, whether it is unusable (STOMP or a failed tag). -/
structure Arrived where
  port  : Nat
  p     : MeshPkt
  stomp : Bool
  deriving DecidableEq, Repr

/-- The serac router (spec/09 Table 9-12, spec/10 Table 10-13). -/
structure Router where
  /-- ROUTER_CFG.UDP_PORT (16); 09 R268, R314; reset 0x4B3E. -/
  udpPort : Half := 0x4B3E
  /-- ROUTER_PREFIX (64); 09 R266, R314; reset 0. -/
  pfx : DWord := 0
  /-- ROUTER_EPOCH.SRC_EPOCH (1); 09 R290, R314; reset 0. -/
  srcEpoch : Bool := false
  /-- ROUTER_BANK0 USABLE (12), ADAPT (3); 09 R284, R314; reset 0, 0b011. -/
  bank0 : RBank := {}
  /-- ROUTER_BANK1 USABLE (12), ADAPT (3); 09 R314; reset 0, 0b011. -/
  bank1 : RBank := {}
  /-- ROUTER_EPOCH.BANK0 (2); 09 R290, R314; reset ACTIVE. -/
  use0 : BankUse := .active
  /-- ROUTER_EPOCH.BANK1 (2); 09 R290, R314; reset FREE. -/
  use1 : BankUse := .free
  /-- ROUTER_EPOCH_SWITCH.T_SW (64); 09 R290, R314; reset 0 (none pending). -/
  tsw : DWord := 0
  /-- The switch scheduled after the pending one (64); 09 R292; MODEL, reset 0. -/
  tswNext : DWord := 0
  /-- Own port changes that join the pending switch but whose bank is not FREE yet; 09 R291; MODEL, reset none. -/
  changes : List (Nat × Bool) := []
  /-- Own port changes that wait for the switch after the pending one; 09 R292; MODEL, reset none. -/
  changesNext : List (Nat × Bool) := []
  /-- SYSTIME at which the DRAINING bank becomes FREE (64); 09 R290; MODEL, reset 0. -/
  freeAt : DWord := 0
  /-- EPOCH notices seen, keyed by origin coordinate and sequence; 09 R291; reset none. -/
  seen : List (Nat × Nat) := []
  /-- The device's own origin sequence (32); 09 R291; reset 0. -/
  originSeq : Word := 0
  /-- The twelve mesh ports, k = 4a + d; 09 R269; reset DOWN. -/
  ports : Tbl Port := []
  /-- ROUTER_CH_WEIGHT (24); 09 R282, R314; reset 0x42_6688. -/
  chWeight : BitVec 24 := 0x426688
  /-- ROUTER_PART_WEIGHT (32); 09 R283, R314; reset 0x4444_4444. -/
  partWeight : Word := 0x44444444
  /-- Weighted round robin of the local partitions by channel: whose turn it is and the packets left in its turn; 09 R283; MODEL, reset none. -/
  partTurn : Tbl (Nat × Nat) := []
  /-- ROUTER_DISCARD_COUNT (64 each) by code 0-15; 09 R301, R314, 10 R360; reset 0. -/
  discards : Tbl DWord := []
  /-- ROUTER_LINK_DOWN_COUNT (64); 09 R314; reset 0. -/
  linkDown : DWord := 0
  /-- ROUTER_ADD_STATUS.IN_SERVICE (7); 10 R337, R360; reset 0b011_1111. -/
  addIn : BitVec 7 := 0b0111111
  /-- ROUTER_ADD_STATUS.FAILED (7); 10 R339, R360, 14 R485; reset 0. -/
  addFailed : BitVec 7 := 0
  /-- Bytes bound to each add unit; 10 R337; MODEL, reset 0. -/
  addBound : Tbl Nat := []
  /-- ROUTER_ADD_BYTES (64); 10 R360; reset 0. -/
  addBytes : DWord := 0
  /-- ROUTER_RIME_COUNT (64); 10 R339, R360; reset 0. -/
  rime : DWord := 0
  /-- ROUTER_COPY_BYTES (64); 10 R360; reset 0. -/
  copyBytes : DWord := 0
  /-- Packets held whole for the device's own endpoints, oldest first; 09 R299; reset none. -/
  inbox : List Arrived := []
  /-- What has left on the mesh ports, newest first; 09; MODEL (observed output), reset none. -/
  sent : List Sent := []
  deriving DecidableEq, Repr

/-! ## Optical chiplets -/

/-- A change of plan on one chiplet (spec/10 R355, spec/11 R370, R372): the verdict tag that brings it, 0x10000 for the release of the grant; the mask it brings in, its number, and whether it is the installation plan. -/
structure PlanChange where
  tag     : Nat
  mask    : DWord
  plan    : BitVec 4
  install : Bool
  deriving DecidableEq, Repr

/-- One optical chiplet (spec/11 Table 11-10): 0 OEX, 1 OEY, 2 OEZ, 3 OED. -/
structure Chip where
  /-- OPT_CFG.AUTO_SWAP (1); 11 R392; reset 1. -/
  autoSwap : Bool := true
  /-- OPT_CFG.RECAL_H (8); 11 R385, R392; reset 0x18. -/
  recalH : Byte := 0x18
  /-- OPT_STATUS.PLAN (4); 11 R392; reset 0. -/
  plan : BitVec 4 := 0
  /-- OPT_STATUS.INSTALL (1); 11 R370, R392; reset 1. -/
  install : Bool := true
  /-- OPT_STATUS.SWITCHING (1); 11 R372, R392; reset 0. -/
  switching : Bool := false
  /-- OPT_STATUS.SHUTTLE (1), the SHUTTLE_PRES_N pin; 11 R388, R392; reset pin, DESIGN CHOICE seated (log 6). -/
  shuttle : Bool := true
  /-- The light is at the dump port; 11 R388; reset false. -/
  dump : Bool := false
  /-- The mask of the plan in force (64), shown in OPT_LIT; 11 R370, R392; reset installation plan. -/
  mask : DWord := 0
  /-- The plan change between T_RES and T_RES + 2 us: its mask, its number and whether it is the installation plan; 11 R372; MODEL, reset none. -/
  next : Option PlanChange := none
  /-- The plan changes whose verdict result is held, by the verdict's tag, in the order in which the results came; 10 R355; MODEL, reset none. -/
  prep : List PlanChange := []
  /-- Plan changes whose T_RES came during another change; 10 R356; MODEL, reset none. -/
  after : List PlanChange := []
  /-- OPT_RX_LOCKED (64); 11 R392; reset 0. -/
  rxLocked : DWord := 0
  /-- OPT_SLOT_FAULT (64), the slots with a faulted modulator ring; 11 R384, R392; reset from record (0). -/
  slotFault : DWord := 0
  /-- OPT_SLOT_FAULT (64), the receive slots with a faulted drop ring; 11 R384, R392; reset from record (0). -/
  rxFault : DWord := 0
  /-- OPT_WL_STATE (4 bits each): 0 NORMAL to 5 RETIRED; 11 R375, R392; reset from record (NORMAL). -/
  wlState : Tbl Nat := []
  /-- OPT_WL_LASER (4 bits each); 11 R392; reset from record (wavelength m fed by laser m). -/
  wlLaser : Tbl Nat := []
  /-- OPT_LASER_STATE (4 bits each): 0 ACTIVE to 5 FAILED; 11 R361, R392; reset from record (L0-L7 ACTIVE, L8-L11 SPARE). -/
  laserState : Tbl Nat := []
  /-- The wavelength a TUNING or READY spare is tuned to; 11 R375; MODEL, reset none. -/
  spareFor : Tbl Nat := []
  /-- The reference of each laser in 0.01 dB, where it is not that of manufacture; 11 R374, R379; reset from record (none). -/
  laserRef : Tbl Int := []
  /-- OPT_LASER_DB (16 bits each), 1 ms average in 0.01 dB; 11 R374, R392; reset 0. -/
  laserDb : Tbl Int := []
  /-- The samples of the sliding 1 ms window in 0.01 dB, at most 100, newest first; 11 R374; reset none. -/
  window : Tbl (List Int) := []
  /-- OPT_LASER_CMD.WL (3); 11 R392; reset 0. -/
  cmdWl : BitVec 3 := 0
  /-- OPT_LASER_CMD.SWAP (1), with the wavelength of the request; 11 R392; reset 0. -/
  swapReq : Option Nat := none
  /-- OPT_LASER_CMD.RECAL (1), with the wavelength of the request; 11 R392; reset 0. -/
  recalReq : Option Nat := none
  /-- The swap (true) or recalibration (false) in progress and its wavelength; 11 R377; MODEL, reset none. -/
  busy : Option (Nat × Bool) := none
  /-- Swaps (true) and recalibrations (false) that wait, in the order reached; 11 R377; MODEL, reset none. -/
  waiting : List (Nat × Bool) := []
  /-- OPT_SUBSTRATE_TEMP (16); 11 R383, R392; reset 0. -/
  temp : Half := 0
  /-- OPT_SERVICE.DRAIN (4); 11 R389, R392; reset 0. -/
  drain : BitVec 4 := 0
  /-- OPT_SERVICE.SAFE (4); 11 R389, R392; reset 0. -/
  safe : BitVec 4 := 0
  /-- OPT_SWAP_COUNT (64); 11 R392; reset 0. -/
  swaps : DWord := 0
  /-- OPT_STEER_COUNT (64); 11 R392; reset 0. -/
  steers : DWord := 0
  /-- OPT_RELOCK_COUNT (64); 11 R392; reset 0. -/
  relocks : DWord := 0
  /-- OPT_RECAL_COUNT (64); 11 R392; reset 0. -/
  recals : DWord := 0
  deriving DecidableEq, Repr

/-- What an OED frame of the device carries: an answer to Neighbor Solicitation or Echo, LLDP, an Oxenambe packet (spec/11 R386). -/
inductive OedBody where
  | neighborAdvertisement
  | echoReply
  | lldp
  | packet (p : MeshPkt)
  deriving DecidableEq, Repr

/-- A frame of the device on an OED port: what it carries, and its bytes from the source MAC on: for an Oxenambe packet all of them, else the source MAC and the tag (spec/09 R267, R271, spec/11 R386). -/
structure OedFrame where
  body  : OedBody
  pcp   : Nat
  bytes : List Byte
  deriving DecidableEq, Repr

/-- A frame that has left the device on an OED port. -/
structure OedSent where
  port  : Nat
  frame : OedFrame
  deriving DecidableEq, Repr

/-- One OED port (spec/11 Table 11-11). -/
structure OedPort where
  /-- OED_PORT_CFG.MODE (2); 11 R393; reset 0b00. -/
  mode : BitVec 2 := 0
  /-- OED_PORT_CFG.PFC_EN (8); 11 R393; reset 0x70. -/
  pfcEn : Byte := 0x70
  /-- OED_PORT_STATUS.LINK_A (1); 11 R393; reset 0. -/
  linkA : Bool := false
  /-- OED_PORT_STATUS.LINK_B (1); 11 R393; reset 0. -/
  linkB : Bool := false
  /-- OED_PORT_STATUS.DEGRADED (1); 11 R380, R393; reset 0. -/
  degraded : Bool := false
  /-- OED_FEC_CORR_COUNT (64); 11 R393; reset 0. -/
  fecCorr : DWord := 0
  /-- OED_FEC_UNCORR_COUNT (64); 11 R393; reset 0. -/
  fecUncorr : DWord := 0
  /-- Priorities paused by the peer (8); 11 R386; MODEL, reset 0. -/
  paused : Byte := 0
  /-- Frames that wait for their priority or for the link, oldest first; 11 R380, R386, R389; reset none. -/
  queue : List OedFrame := []
  deriving DecidableEq, Repr

/-- An OED session (spec/13 R454): the peer's coordinate and the session secret. -/
structure OedSession where
  peer : Nat
  z    : BitVec 528
  deriving DecidableEq, Repr

/-- An OED traffic key of the receive direction, its salt and its replay window (spec/13 R454): the highest counter accepted and the accepted ones among the 64 below it. -/
structure Replay where
  key  : BitVec 256 := 0
  salt : Word := 0
  high : Nat := 0
  any  : Bool := false
  got  : List Nat := []
  deriving DecidableEq, Repr

/-- The OED chiplet's Ethernet side. -/
structure Oed where
  /-- The four OED ports; 11 R393; reset as OedPort. -/
  ports : Tbl OedPort := []
  /-- OED_PREFIX (64); 11 R387, R393; reset 0. -/
  pfx : DWord := 0
  /-- OED_DISCARD_COUNT (64); 11 R393; reset 0. -/
  discards : DWord := 0
  /-- OED sessions; 13 R454; reset none. -/
  sessions : List OedSession := []
  /-- Traffic keys with their replay windows, keyed by peer coordinate, its partition and the local partition; 13 R454; reset none. -/
  replay : List ((Nat × Nat × Nat) × Replay) := []
  /-- LLDP frames delivered to device management, newest first; 11 R386; reset none. -/
  lldpRx : List (Nat × List Byte) := []
  /-- Frames the device itself has sent, newest first; 11 R386; MODEL (observed output), reset none. -/
  sent : List OedSent := []
  deriving DecidableEq, Repr

/-! ## Time, heat, power -/

/-- The time base and its alignment (spec/15 Table 15-12). -/
structure TimeSt where
  /-- TIME_SYSTIME (64), ns; 15 R510, R529; reset 0. -/
  systime : DWord := 0
  /-- TIME_ROOT (24: x [7:0], y [15:8], z [23:16]); 15 R515, R529; reset 0. -/
  root : BitVec 24 := 0
  /-- TIME_STATUS.ALIGNED (1); 15 R516, R529; reset 0. -/
  aligned : Bool := false
  /-- TIME_STATUS.PARENT (4); 15 R515, R529; reset 0. -/
  parent : BitVec 4 := 0
  /-- TIME_STATUS.HOPS (6); 15 R529; reset 0. -/
  hops : BitVec 6 := 0
  /-- TIME_SET (64); 15 R516, R529; reset 0. -/
  setVal : DWord := 0
  /-- TIME_SET has been written since cold reset (RWO); 15 R529; reset false. -/
  setDone : Bool := false
  /-- TIME_OFFSET (32), ps; 15 R529; reset 0. -/
  offset : Word := 0
  /-- Consecutive exchanges with |theta| below 1 ns; 15 R516; MODEL, reset 0. -/
  good : Nat := 0
  /-- Offset still to be slewed, in tenths of a ps; 15 R516; MODEL, reset 0. -/
  slew : Int := 0
  /-- SYSTIME below 1 ns, in tenths of a ps, 0-9,999; 15 R516; MODEL, reset 0. -/
  frac : Nat := 0
  /-- A port has reached UP since cold reset; 15 R516, 09 R310; MODEL, reset false. -/
  everUp : Bool := false
  /-- REFCLK is lost and the PLL holds over; 15 R514; reset false. -/
  refLost : Bool := false
  deriving DecidableEq, Repr

/-- One die's thermal page and DVFS (spec/15 Table 15-13). -/
structure Therm where
  /-- THERM_HOT.TEMP (16), 1/16 C; 15 R522, R530; reset 0. -/
  hot : Half := 0
  /-- THERM_HOT.SENSOR (6); 15 R530; reset 0. -/
  sensor : BitVec 6 := 0
  /-- THERM_STATE.LEVEL (2); 15 R530; reset 0. -/
  level : BitVec 2 := 0
  /-- THERM_STATE.DVFS (3); 15 R511, R530; reset 0. -/
  dvfs : Nat := 0
  /-- The level decided and not yet reached; 15 R512; MODEL, reset 0. -/
  target : Nat := 0
  /-- THERM_EXCLUDED (64); 15 R522, R530; reset 0. -/
  excluded : DWord := 0
  /-- THERM_STRETCH_COUNT (64); 15 R513, R530; reset 0. -/
  stretches : DWord := 0
  /-- THERM_THROTTLE_NS (64); 15 R530; reset 0. -/
  throttleNs : DWord := 0
  /-- SYSTIME up to which THERM_THROTTLE_NS has been counted (64); 15 R530; MODEL, reset 0. -/
  since : DWord := 0
  /-- Sensors that read 110 C or above at the last sample; 15 R525; MODEL, reset none. -/
  hotSet : List Nat := []
  /-- The level-1 THERMAL event has been sent and not re-armed; 15 R523; MODEL, reset false. -/
  warned : Bool := false
  /-- The die throttles under R524; 15 R524; MODEL, reset false. -/
  throttling : Bool := false
  /-- Samples since the last step down of R524; 15 R524; MODEL, reset 0. -/
  hotRun : Nat := 0
  /-- Consecutive samples at 97 C or below; 15 R524; MODEL, reset 0. -/
  coolRun : Nat := 0
  /-- The level that R524 asks for; 15 R524; MODEL, reset 0. -/
  hotLevel : Nat := 0
  /-- The first sample after step 3 of a cold reset is still to come; 15 R525; MODEL, reset true. -/
  first : Bool := true
  deriving DecidableEq, Repr

/-- Package power control (spec/15 R521, Table 15-13). -/
structure Power where
  /-- PWR_CAP (16), W; 15 R521, R530; reset 2,800 (L), 2,450 (M). -/
  cap : Half := 2800
  /-- PWR_NOW (32), 0.1 W; 15 R530; reset 0. -/
  now : Word := 0
  /-- Measurements of the last 1 ms, at most 10, newest first; 15 R521; MODEL, reset none. -/
  window : List Nat := []
  /-- The level that R521 asks of both dies; 15 R521; MODEL, reset 0. -/
  level : Nat := 0
  /-- Consecutive averages below 97 % of PWR_CAP; 15 R521; MODEL, reset 0. -/
  lowRun : Nat := 0
  deriving DecidableEq, Repr

/-! ## Reset and boot -/

/-- Where the device stands in its reset sequences (spec/15 Tables 15-4 and 15-5). -/
inductive Phase where
  /-- A cold reset that has not reached ready. -/
  | cold
  /-- Running. -/
  | ready
  /-- A warm reset that has not reached ready. -/
  | warm
  /-- The cold sequence has stopped for good (fuse shadow, reserved BOOT_MODE, flash, verification). -/
  | halted
  /-- THERM_TRIP: every clock and every regulator is off. -/
  | tripped
  deriving DecidableEq, Repr

/-- Reset registers and the boot sequence (spec/15 Table 15-11, spec/17 Table 17-5). -/
structure Rst where
  /-- The reset sequence; 15 R499, R502; MODEL, reset cold. -/
  phase : Phase := .cold
  /-- RST_CAUSE (7); 15 R496, R528; reset cause (POR). -/
  cause : BitVec 7 := 1
  /-- RST_WDT_CTL.PERIOD (16), ms; 15 R506, R528; reset 0. -/
  wdt : Half := 0
  /-- SYSTIME at the last restart of the watchdog period (64); 15 R506; MODEL, reset 0. -/
  kicked : DWord := 0
  /-- RST_READY_TIME (64); 15 R528; reset 0. -/
  readyTime : DWord := 0
  /-- RST_WARM_COUNT (64); 15 R528; reset 0. -/
  warms : DWord := 0
  /-- RESET DEVICE has been answered and the warm reset is to start; 12 R438; MODEL, reset false. -/
  devPending : Bool := false
  /-- Boot status byte 0: last completed step (8); 17 R555; reset 3. -/
  step : Byte := 3
  /-- Boot status byte 1: failure (8); 17 R555; reset as sampled: 6, LOC invalid, with every strap open (R552). -/
  fail : Byte := 0
  /-- Boot status bytes 4-7: SYSTIME[31:0] when byte 0 last changed (32); 17 R555; reset 0. -/
  stepTime : Word := 0
  /-- Components activated in RECOVERY; 15 R501; MODEL, reset none. -/
  recovered : List Nat := []
  /-- The latch of THERM_TRIP_N; 15 R525; reset clear. -/
  trip : Bool := false
  /-- The BLOCK_ERROR event that reports the last FATAL error is still to be sent; 14 R487; MODEL, reset false. -/
  fatalDue : Bool := false
  /-- Near-memory units and CXL units that some partition held when the warm reset began; 15 R502; MODEL, reset none. -/
  heldUnits : List Nat := []
  deriving DecidableEq, Repr

/-! ## Service -/

/-- A planned calving (spec/14 Table 14-2). -/
structure Calve where
  site    : Nat
  dst     : Nat
  floe    : Option Nat
  copying : Bool := false
  waiting : Bool := false
  deriving DecidableEq, Repr

/-- The RAS page and the service logic (spec/14 Table 14-6). -/
structure Ras where
  /-- RAS_PENDING (5); 14 R486, R494; reset 0. -/
  pending : BitVec 5 := 0
  /-- RAS_PIN_MASK.ALERT (5); 14 R487, R494; reset 0b0_1110. -/
  alert : BitVec 5 := 0b01110
  /-- RAS_PIN_MASK.ERR (5), bit 4 always 1; 14 R487, R494; reset 0b1_1000. -/
  err : BitVec 5 := 0b11000
  /-- RAS_CLASS_COUNT (64 each), classes 0-4; 14 R486, R494; reset 0. -/
  counts : Tbl DWord := []
  /-- RAS_CALVE.SITE (8); 14 R482, R494; reset 0. -/
  site : Byte := 0
  /-- RAS_CALVE.DEFERRED (1); 14 R482, R494; reset 0. -/
  deferred : Bool := false
  /-- The calving in progress (RAS_CALVE.GO); 14 R482, R494; reset none. -/
  calve : Option Calve := none
  /-- Logical floes away from their base-map site: floe to site; 14 R480, R481; reset from fuses (none). -/
  moved : Tbl Nat := []
  /-- Sites recorded as failed; 14 R480, R481; reset from fuses (none). -/
  failed : List Nat := []
  /-- Lost floe groups: no working site is left for one of their floes; 14 R483; reset none. -/
  lost : List Nat := []
  /-- Level of ALERT_N (true: low) that a warm reset holds; 15 R505; MODEL, reset false. -/
  heldAlert : Bool := false
  /-- Level of ERR_N (true: low) that a warm reset holds; 15 R505; MODEL, reset false. -/
  heldErr : Bool := false
  /-- RAS_BRIDGE.CTRL_UP (1); 14 R488, R494; reset 0. -/
  ctrlUp : Bool := false
  /-- RAS_BRIDGE.ORPHAN (1); 14 R489, R494; reset 0. -/
  orphan : Bool := false
  /-- SYSTIME from which the retrained control lane has carried heartbeats; 14 R491; MODEL, reset none. -/
  beatSince : Option DWord := none
  /-- RAS_BRIDGE.DATA_SPARES (8); 14 R494; reset 0xFF. -/
  dataSpares : Byte := 0xFF
  /-- Lanes lost of each bridge data lane group; 14 R475, R488; MODEL, reset 0. -/
  lanesLost : Tbl Nat := []
  /-- RAS_ORPHAN_COUNT (64); 14 R494; reset 0. -/
  orphans : DWord := 0
  /-- Rails whose spare regulator phase is used; 14 R475; reset none. -/
  phases : List Nat := []
  /-- SYSTIMEs of the ERR_COUNT rises of each site within the last hour; 14 R482; MODEL, reset none. -/
  siteErrs : Tbl (List DWord) := []
  deriving DecidableEq, Repr

/-! ## Security, fuses, flash -/

/-- A firmware activation in progress (spec/13 R461): component and, for CONTROL, the floes whose microcode is still to be replaced and those released to be held again. -/
structure FwAct where
  comp     : Nat
  todo     : List Nat := []
  released : List Nat := []
  deriving DecidableEq, Repr

/-- The security controller (spec/13 Table 13-10). -/
structure Sec where
  /-- SEC_STATUS.PRESENCE (1); 13 R464, R474; reset 0. -/
  presence : Bool := false
  /-- SEC_PRESENCE_TIME (64); 13 R464, R474; reset 0. -/
  presenceTime : DWord := 0
  /-- SEC_STATUS.SEAL_INTACT (1); 13 R465, R474; reset 0. -/
  intact : Bool := false
  /-- SYSTIME since which the loop has returned the pattern; 13 R465; MODEL, reset none. -/
  sealSince : Option DWord := none
  /-- The level SEAL_A drives (1); 13 R465, 15 R505; reset 0. -/
  sealA : Bool := false
  /-- Number of the next pattern bit; 13 R465; MODEL, reset 0. -/
  sealBit : Nat := 0
  /-- SEC_STATUS.DEBUG_ON (1); 13 R467, R474; reset 0. -/
  debugOn : Bool := false
  /-- What DEBUG_ENABLE opened: [0] processor die, [1] compute dies; 13 R467; reset 0. -/
  debugWhat : BitVec 2 := 0
  /-- SEC_STATUS.MFG_MODE (1); 13 R467, R474; reset 0. -/
  mfg : Bool := false
  /-- SEC_MEAS_EPOCH (32); 13 R457, R474; reset 0. -/
  epoch : Word := 0
  /-- Number of the scrub key in use; 13 R449; MODEL, reset 0. -/
  scrub : Nat := 0
  /-- Claims made since reset, the source of claimNo; 13 R449; MODEL, reset 0. -/
  claims : Nat := 0
  /-- The firmware activation in progress; 13 R461; reset none. -/
  fwAct : Option FwAct := none
  /-- A bridge key is agreed; 13 R448; reset false. -/
  bridgeKey : Bool := false
  deriving DecidableEq, Repr

/-- The fuses (spec/13 R449, R460, R462, R467, spec/14 R480). -/
structure Fuses where
  /-- Remap records of die 0 used, in the order written; 14 R480; reset fuses, DESIGN CHOICE none (log 7). -/
  rec0 : List (Nat × Nat) := []
  /-- Remap records of die 1 used; 14 R480; reset fuses, DESIGN CHOICE none (log 7). -/
  rec1 : List (Nat × Nat) := []
  /-- Near-memory interfaces that the fuses retire (48); 08 R260; reset fuses, DESIGN CHOICE 0 (log 7). -/
  ifsOut : BitVec 48 := 0
  /-- SEC_OWNER_COUNT.USED (5); 13 R467, R474; reset fuses, DESIGN CHOICE 0 (log 7). -/
  ownerUsed : Nat := 0
  /-- SEC_FWKEY_VALID (4); 13 R460, R474; reset fuses, DESIGN CHOICE all valid (log 7). -/
  fwKeyValid : BitVec 4 := 0b1111
  /-- Public fields of the firmware-key slots (136 bytes each); 13 R460; reset fuses, DESIGN CHOICE none programmed (log 7). -/
  fwKeys : Tbl (List Byte) := []
  /-- SEC_ROLLBACK C1-C6 (8 bits each), 0-64; 13 R462, R474; reset fuses, DESIGN CHOICE 0 (log 7). -/
  rollback : Tbl Nat := []
  /-- SEC_STATUS.DEBUG_LOCKED (1); 13 R467, R474; reset fuses, DESIGN CHOICE 0 (log 7). -/
  debugLocked : Bool := false
  /-- The serial number (128); 09 Table 9-11, 13 R455, R466; reset fuses, DESIGN CHOICE a constant without a body (log 3). -/
  serial : BitVec 128 := Config.serial
  /-- The manufacturing key's public field (136 bytes); 13 Table 13-5, R467; reset fuses, DESIGN CHOICE a constant without a body (log 3). -/
  mfgKey : List Byte := Config.mfgKey
  deriving DecidableEq, Repr

/-- A firmware slot of boot flash (spec/13 R461): the announced total, the chunks staged, and of the package the version, security version and body. -/
structure Slot where
  total   : Nat := 0
  chunks  : List (Nat × List Byte) := []
  version : Word := 0
  secver  : Nat := 0
  body    : List Byte := []
  /-- The package has been active: the next FW_STAGE begins anew. -/
  used    : Bool := false
  /-- The package the device left the factory with. -/
  factory : Bool := false
  deriving DecidableEq, Repr

/-- A component's two slots and which is active (spec/13 R461, R463). -/
structure Comp where
  activeB : Bool := false
  a       : Slot := { factory := true }
  b       : Slot := {}
  deriving DecidableEq, Repr

/-- What the service record holds of a chiplet's lasers: the laser that feeds each wavelength, each laser's state and its reference (spec/11 R379). -/
structure LaserRecord where
  feeds  : Tbl Nat := []
  states : Tbl Nat := []
  refs   : Tbl Int := []
  deriving DecidableEq, Repr

/-- Boot and secure flash (spec/13 R459, R461, R469, spec/17 R557). -/
structure Flash where
  /-- The owner key field (136 bytes), SEC_STATUS.OWNED; 13 R467, R474; reset flash, DESIGN CHOICE none (log 7). -/
  owner : Option (List Byte) := none
  /-- Enrolled image-key fields by slot 0-7; 13 R459; reset flash, DESIGN CHOICE none (log 7). -/
  imageKeys : Tbl (List Byte) := []
  /-- Minimum security versions by slot, 8 for the owner key (32); 13 R459; reset 0. -/
  mins : Tbl Word := []
  /-- SEC_AUDIT_COUNTER (64); 13 R469, R474; reset flash, DESIGN CHOICE 0 (log 7). -/
  auditCount : DWord := 0
  /-- Audit records by slot (256 bytes each); 13 R469; reset flash, DESIGN CHOICE none (log 7). -/
  audit : Tbl (List Byte) := []
  /-- SEC_SEAL_COUNT (16); 13 R465, R474; reset flash, DESIGN CHOICE 0 (log 7). -/
  sealCount : Half := 0
  /-- Owner changes used when the alias certificate was issued (Table 13-3 bytes 44-47); 13 R455; reset flash, DESIGN CHOICE 0 (log 7). -/
  aliasOwner : Nat := 0
  /-- Firmware slots by component 1-6; 13 R461; reset flash, DESIGN CHOICE slot A active (log 7). -/
  comps : Tbl Comp := []
  /-- Service record: interfaces retired, in recorded order; 08 R241, R250; reset record, DESIGN CHOICE none (log 7). -/
  retiredIfs : List Nat := []
  /-- Service record: wavelength feeds, laser states and references by chiplet; 11 R379; reset record, DESIGN CHOICE none (log 7). -/
  lasers : Tbl LaserRecord := []
  /-- Service record: faulted slots by chiplet; 11 R384, R392; reset record, DESIGN CHOICE none (log 7). -/
  slotFaults : Tbl DWord := []
  /-- Service record: receive slots with a faulted drop ring by chiplet; 11 R384, R392; reset record, DESIGN CHOICE none (log 7). -/
  rxFaults : Tbl DWord := []
  /-- Service record: volatile remap table, (failed site, taking site) in order; 14 R480; reset record, DESIGN CHOICE none (log 7). -/
  remap : List (Nat × Nat) := []
  /-- Service record: add units retired (7); 14 R485; reset record, DESIGN CHOICE 0 (log 7). -/
  addRetired : BitVec 7 := 0
  /-- Service record: cause of the last FATAL: die, page, ERR_STATUS bit; 14 R487; reset record, DESIGN CHOICE none (log 7). -/
  fatal : Option (Nat × Nat × Nat) := none
  deriving DecidableEq, Repr

/-- The processor die as the device reaches it (spec/12 R395 to R400). -/
structure Proc where
  /-- The firmware written into the 2 MiB of processor-die SRAM from address 0; 12 R396, R399; reset none. -/
  sram : List Byte := []
  /-- Bytes of SRAM and of the 128 GiB of LPDDR5X written since, by physical address; 12 R396, R400; reset none. -/
  written : Tbl Byte := []
  /-- Interrupt identities pending in the IMSIC files, newest first: (page address of the file, identity); 12 R395, R396; reset none. -/
  imsic : List (Nat × Nat) := []
  /-- Core 0 is released; 12 R399; reset false. -/
  released : Bool := false
  /-- Cores 1 to 31 that core 0 has released (31); 12 R399; reset 0. -/
  others : BitVec 31 := 0
  deriving DecidableEq, Repr

/-! ## Pages -/

/-- The common header of a page (spec/16 Table 16-3) and what the block's reset and update machinery holds. -/
structure Header where
  /-- CTRL.HOLD (1); 16 R534, R536; reset 0. -/
  hold : Bool := false
  /-- CTRL.FREEZE (1); 16 R534; reset 0. -/
  freeze : Bool := false
  /-- Counter values at the moment FREEZE was set, by offset; 16 R534; reset none. -/
  frozen : Tbl Word := []
  /-- ERR_STATUS (32); 16 R534, R546; reset 0. -/
  errStatus : Word := 0
  /-- ERR_MASK (32); 16 R534; reset 0. -/
  errMask : Word := 0
  /-- ERR_COUNT (32), saturating; 16 R541; reset 0. -/
  errCount : Word := 0
  /-- INT_STATUS (32); 16 R542; reset 0. -/
  intStatus : Word := 0
  /-- INT_ENABLE (32); 16 R542; reset 0. -/
  intEnable : Word := 0
  /-- RESET_CTRL.ISOLATE (1); 16 R534; reset 0. -/
  isolate : Bool := false
  /-- RESET_STATUS.STATE (2), RESET_CTRL.GO while not 0; 16 R534; reset 0b00. -/
  resetState : BitVec 2 := 0
  /-- RESET_STATUS.ESCALATED (1); 16 R534, R535; reset 0. -/
  escalated : Bool := false
  /-- RESET_STATUS.RESETS (16), saturating; 16 R534; reset 0. -/
  resets : Half := 0
  /-- LIVE_UPDATE.PENDING (1); 16 R534; reset 0. -/
  livePending : Bool := false
  /-- LIVE_UPDATE.ACTIVE (1), STATUS.UPDATING (1); 16 R534; reset 0. -/
  liveActive : Bool := false
  /-- LIVE_UPDATE.DEFERRALS (16), saturating; 16 R534; reset 0. -/
  deferrals : Half := 0
  deriving DecidableEq, Repr

/-- A latched high half or a staged low half of a 64-bit register (spec/16 R537): the requester (0-7 endpoints, 8 the I3C target, 9 firmware), the register's address, the half. -/
structure HalfLatch where
  req  : Nat
  addr : Nat
  half : Word
  deriving DecidableEq, Repr

/-! ## The device -/

/-- The variants of the part (spec/00 R1 Table 0-1). -/
inductive Variant where
  /-- AZS9-L960-H -/
  | l960
  /-- AZS9-M960-H -/
  | m960
  /-- AZS9-L480-H -/
  | l480
  deriving DecidableEq, Repr

/-- The state of the device. -/
structure State where
  /-- The fused variant; 00 R1, R4; DESIGN CHOICE AZS9-L960-H (log 8). -/
  variant : Variant
  /-- The straps as sampled at cold reset; 17 R551, R552; reset pins, DESIGN CHOICE all open (log 8). -/
  straps : Straps
  /-- The logical floes 0-207 (L) or 0-191 (M); 01 R18, 03; reset as Floe. -/
  floes : Tbl Floe
  /-- Remote TAG.SIGNALs on their way; 06 R183; MODEL, reset none. -/
  signals : List Signal
  /-- The partitions 0-7; 12, 13; reset FREE. -/
  parts : Tbl Part
  /-- PART_STATE_REJECT_COUNT (64 each); 12 R416, R444; reset 0. -/
  rejects : Tbl DWord
  /-- PART_STEER: the holder of the steering grant (3 + 1); 12 R444, 10 R354; reset none. -/
  steer : Option Nat
  /-- Bytes of scratchpads, near memory and CXL windows in canonical form; 01 R21, 08; reset nothing listed. -/
  mem : List Host.Cell
  /-- Scratchpad granules (32 bytes) with an uncorrectable error, by address; 08 R238; reset none. -/
  spBad : List Nat
  /-- Poisoned near-memory and CXL lines (64 bytes), as address ranges from the first to before the second; 08 R244, R256; reset none. -/
  poison : List (Nat × Nat)
  /-- Gwyntik endpoints 0-7; 12 R410; reset as Endpoint. -/
  eps : Tbl Endpoint
  /-- Commands that have arrived and are not answered, in order; 12 R414; reset none. -/
  cmdq : List GwyPkt
  /-- Interrupt messages written, newest first: (address, data); 12 R409; MODEL (observed output), reset none. -/
  msis : List (DWord × Word)
  /-- Endpoints that received BUSY_ATTEST over I3C or Gwyntik are in Endpoint; the I3C targets; 17 R554; reset as I3c. -/
  i3c : I3c
  /-- The four UCIe modules; 12 R445; reset down. -/
  ucie : Tbl Ucie
  /-- Near-memory controllers by memory device 0-11; 08 R260; reset as Nmc. -/
  nmcs : Tbl Nmc
  /-- The near-memory map; 08 R261; reset as NmMap. -/
  nm : NmMap
  /-- CXL ports 0 and 1; 08 R262; reset as Cxl. -/
  cxls : Tbl Cxl
  /-- The serac router; 09 R314; reset as Router. -/
  router : Router
  /-- The optical chiplets 0-3; 11 R392; reset as Chip. -/
  chips : Tbl Chip
  /-- The OED ports; 11 R393; reset as Oed. -/
  oed : Oed
  /-- The last service-LED frame sent, 256 bits in the order sent; 11 R390; reset none. -/
  sled : List Bool
  /-- The time base; 15 R529; reset as TimeSt. -/
  time : TimeSt
  /-- Thermal pages by die; 15 R530; reset as Therm. -/
  therms : Tbl Therm
  /-- Package power; 15 R530; reset as Power. -/
  power : Power
  /-- Reset registers and boot; 15 R528; reset as Rst. -/
  rst : Rst
  /-- RAS page and service; 14 R494; reset as Ras. -/
  ras : Ras
  /-- Security controller; 13 R474; reset as Sec. -/
  sec : Sec
  /-- Fuses; 13, 14; reset as Fuses. -/
  fuses : Fuses
  /-- Boot and secure flash; 13, 17 R557; reset as Flash. -/
  flash : Flash
  /-- The processor die; 12 R399; reset in reset. -/
  proc : Proc
  /-- The JTAG instruction register; 17 R558; reset none (TAP reset). -/
  jtag : Option Nat
  /-- Page headers, keyed by die x 0x4000 + page; 16 R534; reset as Header. -/
  hdrs : Tbl Header
  /-- High halves latched by low-half reads; 16 R537; reset none. -/
  latches : List HalfLatch
  /-- Low halves staged by low-half writes; 16 R537; reset none. -/
  staged : List HalfLatch
  /-- Counter from which free values are drawn; MODEL (free values), DESIGN CHOICE 0 (log 9). -/
  fresh : Nat
  /-- The commands that wait, first in, first out; MODEL (the block's command queue), reset empty. -/
  pending : List Instr
  deriving DecidableEq, Repr

/-- Why the machine stops. -/
inductive Fault where
  /-- Raised by GWY_TX_STORE: a store to a TX window that is neither 8 bytes wide and 8-byte aligned nor 64 bytes wide and 64-byte aligned raises an access fault in the host (spec/12 R406). Safe: the device itself does nothing on such an access. -/
  | hostAccess
  deriving DecidableEq, Repr

/-- Why a command has no meaning here. -/
inductive Refusal where
  /-- Raised by an arm of Dispatch.lean whose command is not modelled yet. Safe. -/
  | notModelled (mnemonic : String)
  /-- Raised by JTAG_DEBUG_ACCESS while debug access is open: what a debug access does is not in the spec (spec/17 R558, spec/12 R395). Safe. -/
  | debugUnit
  deriving DecidableEq, Repr

/-! ## Reset -/

/-- Every strap open: a strap left open reads 0 (spec/17 R552). -/
def Straps.open : Straps :=
  { x := 0, y := 0, z := 0, p := false, lead := false, boot := 0, expr := 0 }

/-- The device right after power-on reset: a cold reset has run to step 3 of spec/15 Table 15-4, SYSTIME is 0, and every register is at the value of its Reset column. -/
def State.reset : State :=
  { variant := .l960, straps := Straps.open, floes := [], signals := [], parts := [], rejects := [], steer := none,
    mem := [], spBad := [], poison := [], eps := [], cmdq := [], msis := [], i3c := {}, ucie := [], nmcs := [],
    nm := {}, cxls := [], router := {}, chips := [], oed := {}, sled := [], time := {}, therms := [], power := {},
    rst := { fail := 6 }, ras := {}, sec := {}, fuses := {}, flash := {}, proc := {}, jtag := none, hdrs := [], latches := [],
    staged := [], fresh := 0, pending := [] }

end Sys2Proof.Machine
end

