-- ==== Sys2Proof/Machine/Flags.lean ====
section
/-! DEFINITION. The lane flags of the vector engine and where they are gathered (spec/05 R140, Table 5-4). -/

namespace Sys2Proof.Machine

/-- The flags a lane raises (spec/05 Table 5-4). -/
structure Flg where
  nv  : Bool := false
  dz  : Bool := false
  ovf : Bool := false
  nf  : Bool := false
  sat : Bool := false
  deriving DecidableEq, Repr

/-- Flags are ORed over stages, lanes and rows (spec/05 R140). -/
def orFlg (a b : Flg) : Flg :=
  { nv := a.nv || b.nv, dz := a.dz || b.dz, ovf := a.ovf || b.ovf, nf := a.nf || b.nf, sat := a.sat || b.sat }

/-- The field of FLOE_VFLAGS: NV, DZ, OF, NF, SAT in bits 0-4 (spec/05 Table 5-9). -/
def flgBits (a : Flg) : Nat :=
  (if a.nv then 1 else 0) + (if a.dz then 2 else 0) + (if a.ovf then 4 else 0) + (if a.nf then 8 else 0) + (if a.sat then 16 else 0)

/-- A pass's flags are ORed into the issuing stream's field of FLOE_VFLAGS, at bit 8 x stream (spec/05 R140). -/
def orVflags (v : Word) (st : Stream) (a : Flg) : Word := v ||| BitVec.ofNat 32 (flgBits a * 2 ^ (8 * st.num))

end Sys2Proof.Machine
end

