-- ==== Sys2Proof/Machine/Fp.lean ====
section
/-! DEFINITION. Exact values, the two roundings, FP32 and BF16, the floating-point operations and their flags (spec/02 R29 to R47, spec/05 R136). Every operation forms the exact value, or a value exact enough that its rounding is the exact value's, and rounds once. -/

namespace Sys2Proof.Machine

/-! ## Exact values -/

/-- Exact zero. -/
def fzero : FVal := .fin false 0 0
/-- The value is a NaN or an infinity. -/
def FVal.nonfinite : FVal → Bool
  | .nan | .inf _ => true
  | .fin _ _ _ => false
/-- The value is zero. -/
def FVal.zero : FVal → Bool
  | .fin _ m _ => m == 0
  | .nan | .inf _ => false
/-- The value is a NaN. -/
def FVal.isNan : FVal → Bool
  | .nan => true
  | .inf _ | .fin _ _ _ => false
/-- The sign bit of a value that is no NaN. -/
def FVal.sign : FVal → Bool
  | .nan => false
  | .inf n => n
  | .fin n _ _ => n
/-- The negative of a value. -/
def FVal.neg : FVal → FVal
  | .nan => .nan
  | .inf n => .inf (!n)
  | .fin n m e => .fin (!n) m e
/-- The magnitude of a value. -/
def FVal.mag : FVal → FVal
  | .nan => .nan
  | .inf _ => .inf false
  | .fin _ m e => .fin false m e
/-- A value times a power of two. -/
def FVal.scale (v : FVal) (k : Int) : FVal :=
  match v with
  | .fin n m e => .fin n m (e + k)
  | .nan => .nan
  | .inf n => .inf n
/-- The signed significand of a finite value over 2^q, for q at most its exponent. -/
def signedAt (n : Bool) (m : Nat) (e q : Int) : Int :=
  let a : Int := ((m <<< (e - q).toNat : Nat) : Int)
  if n then -a else a
/-- The value i times 2^q. -/
def ofIntExp (i : Int) (q : Int) : FVal := .fin (decide (i < 0)) i.natAbs q

/-- The exact sum; of zeros as IEEE 754 gives it under RNE, of an infinity and its negative NaN (spec/02 R42, spec/03 R72). -/
def FVal.add : FVal → FVal → FVal
  | .nan, _ => .nan
  | _, .nan => .nan
  | .inf a, .inf b => if a = b then .inf a else .nan
  | .inf a, .fin _ _ _ => .inf a
  | .fin _ _ _, .inf b => .inf b
  | .fin a m e, .fin b n f =>
    if m = 0 && n = 0 then .fin (a && b) 0 0
    else if m = 0 then .fin b n f
    else if n = 0 then .fin a m e
    else
      let q := min e f
      ofIntExp (signedAt a m e q + signedAt b n f q) q
/-- The exact difference. -/
def FVal.sub (x y : FVal) : FVal := x.add y.neg
/-- The exact product; zero times an infinity is NaN. -/
def FVal.mul : FVal → FVal → FVal
  | .nan, _ => .nan
  | _, .nan => .nan
  | .inf a, .inf b => .inf (a != b)
  | .inf a, .fin b n _ => if n = 0 then .nan else .inf (a != b)
  | .fin a m _, .inf b => if m = 0 then .nan else .inf (a != b)
  | .fin a m e, .fin b n f => .fin (a != b) (m * n) (e + f)
/-- The quotient: exact where it ends within 64 bits, else with a last bit that stands for the rest. -/
def FVal.div : FVal → FVal → FVal
  | .nan, _ => .nan
  | _, .nan => .nan
  | .inf _, .inf _ => .nan
  | .inf a, .fin b _ _ => .inf (a != b)
  | .fin a _ _, .inf b => .fin (a != b) 0 0
  | .fin a m e, .fin b n f =>
    if n = 0 then (if m = 0 then .nan else .inf (a != b))
    else if m = 0 then .fin (a != b) 0 0
    else
      let k := n.log2 + 64
      let t := m <<< k
      .fin (a != b) (2 * (t / n) + (if t % n = 0 then 0 else 1)) (e - f - k - 1)
/-- The integer square root, bit by bit from bit k - 1. -/
def isqrt (a : Nat) : Nat → Nat → Nat
  | 0, r => r
  | k + 1, r => let t := r + 2 ^ k; isqrt a k (if t * t ≤ a then t else r)
/-- The square root, with a last bit for the rest; of a value below zero NaN, of -0 itself (spec/05 R136). -/
def FVal.sqrt : FVal → FVal
  | .nan => .nan
  | .inf n => if n then .nan else .inf false
  | .fin n m e =>
    if m = 0 then .fin n 0 0
    else if n then .nan
    else
      let m1 := if e % 2 = 0 then m else 2 * m
      let e1 := if e % 2 = 0 then e else e - 1
      let a := m1 <<< 128
      let s := isqrt a (a.log2 / 2 + 1) 0
      .fin false (2 * s + (if s * s = a then 0 else 1)) (e1 / 2 - 65)
/-- Exact comparison of values that are no NaN: x < y. -/
def FVal.lt : FVal → FVal → Bool
  | .nan, _ => false
  | _, .nan => false
  | .inf a, .inf b => a && !b
  | .inf a, .fin _ _ _ => a
  | .fin _ _ _, .inf b => !b
  | .fin a m e, .fin b n f =>
    let q := min e f
    decide (signedAt a m e q < signedAt b n f q)
/-- Exact equality of values that are no NaN. -/
def FVal.eqv (x y : FVal) : Bool := !x.isNan && !y.isNan && !x.lt y && !y.lt x

/-! ## Rounding (spec/02 R42, R43) -/

/-- RNE of a magnitude m 2^e to a multiple of 2^q (spec/02 R42). -/
def rneAt (m : Nat) (e q : Int) : Nat :=
  if q ≤ e then m <<< (e - q).toNat
  else
    let sh := (q - e).toNat
    let n := m >>> sh
    let r := m % 2 ^ sh
    if 2 ^ sh < 2 * r || (2 * r == 2 ^ sh && n % 2 == 1) then n + 1 else n
/-- SR of a magnitude m 2^e to a multiple of 2^q with a draw (spec/02 R43). -/
def srAt (m : Nat) (e q : Int) (draw : Nat) : Nat :=
  if q ≤ e then m <<< (e - q).toNat
  else
    let sh := (q - e).toNat
    let n := m >>> sh
    let r := m % 2 ^ sh
    if 65536 ≤ r * 65536 / 2 ^ sh + draw then n + 1 else n
/-- Round by RNE, or by SR where a draw is given. -/
def roundAt (draw : Option Nat) (m : Nat) (e q : Int) : Nat :=
  match draw with
  | none => rneAt m e q
  | some r => srAt m e q r
/-- RNE of a signed value to an integer. -/
def rneInt (v : Int) (e : Int) : Int :=
  let n : Int := Int.ofNat (rneAt v.natAbs e 0)
  if v < 0 then -n else n
/-- The exponent of one unit in the last place of a format of p significant bits whose smallest unit is 2^qmin. -/
def ulpExp (p qmin : Int) (m : Nat) (e : Int) : Int := max ((m.log2 : Int) + e - (p - 1)) qmin
/-- The code, without sign, of a magnitude in a format of p significant bits and smallest unit 2^qmin. -/
def magCode (draw : Option Nat) (p : Nat) (qmin : Int) (m : Nat) (e : Int) : Nat :=
  if m = 0 then 0
  else
    let q := ulpExp p qmin m e
    (q - qmin).toNat * 2 ^ (p - 1) + roundAt draw m e q

/-- The canonical FP32 NaN (spec/02 R31). -/
def nan32 : F32 := 0x7FC00000#32
/-- RNE to FP32 (spec/02 R42); a magnitude beyond the range becomes an infinity. -/
def f32Of : FVal → F32
  | .nan => nan32
  | .inf n => if n then 0xFF800000#32 else 0x7F800000#32
  | .fin n m e =>
    let c := min (magCode none 24 (-149) m e) 0x7F800000
    BitVec.ofNat 32 (c + if n then 0x80000000 else 0)
/-- The value of an FP32 pattern (spec/02 R29, R30). -/
def val32 (w : F32) : FVal :=
  let x := w.toNat
  let n : Bool := x.testBit 31
  let e : Nat := x / 2 ^ 23 % 256
  let f : Nat := x % 2 ^ 23
  if e = 255 then (if f = 0 then .inf n else .nan)
  else if e = 0 then .fin n f (-149)
  else .fin n (f + 2 ^ 23) ((e : Int) - 150)
/-- RNE or SR to BF16 (spec/02 R41). -/
def bf16Of (draw : Option Nat) : FVal → Half
  | .nan => 0x7FC0#16
  | .inf n => if n then 0xFF80#16 else 0x7F80#16
  | .fin n m e =>
    let c := min (magCode draw 8 (-133) m e) 0x7F80
    BitVec.ofNat 16 (c + if n then 0x8000 else 0)
/-- The value of a BF16 pattern: it widens exactly (spec/02 R41). -/
def valBf16 (h : Half) : FVal := val32 (BitVec.ofNat 32 (h.toNat * 65536))
/-- An FP32 pattern is a NaN or an infinity. -/
def nonfinite32 (w : F32) : Bool := w.toNat / 2 ^ 23 % 256 == 255

/-! ## The draw of stochastic rounding (spec/02 R44 to R46) -/

/-- The mixing function of spec/02 R44. -/
def srMix (v : DWord) : DWord :=
  let a := v ^^^ (v >>> 30)
  let b := a * 0xBF58476D1CE4E5B9#64
  let c := b ^^^ (b >>> 27)
  let d := c * 0x94D049BB133111EB#64
  d ^^^ (d >>> 31)
/-- The 16-bit draw of an element (spec/02 R44): seed, committed-step count, tensor_id, element index. -/
def srDraw (seed : DWord) (step tensorId c : Nat) : Nat :=
  let h := srMix (seed ^^^ 0x9E3779B97F4A7C15#64)
  let g := srMix (h ^^^ BitVec.ofNat 64 (step * 2 ^ 32 + tensorId))
  (srMix (g ^^^ BitVec.ofNat 64 c)).toNat % 65536

/-! ## Transcendentals: fixed point with 440 fraction bits (spec/05 R136; notes/assumptions/23.md) -/

/-- Fraction bits of the fixed-point computations. -/
def fxBits : Nat := 440
/-- One in fixed point. -/
def fxOne : Int := ((2 ^ fxBits : Nat) : Int)
/-- The fixed-point product. -/
def fxMul (a b : Int) : Int := a * b / fxOne
/-- The value of a fixed-point number. -/
def fxVal (a : Int) : FVal := ofIntExp a (-(fxBits : Int))
/-- Fixed point of m 2^e, the bits below the last dropped. -/
def fxOf (n : Bool) (m : Nat) (e : Int) : Int :=
  let k := e + fxBits
  let a : Int := if 0 ≤ k then ((m <<< k.toNat : Nat) : Int) else ((m >>> (-k).toNat : Nat) : Int)
  if n then -a else a
/-- The series 1 + x + x^2/2! + ... from its n-th term on. -/
def expSeries (x term : Int) (i : Nat) : Nat → Int → Int
  | 0, acc => acc
  | n + 1, acc => let t := fxMul term x / ((i : Int) + 1); expSeries x t (i + 1) n (acc + t)
/-- The series z + z^3/3 + z^5/5 + ... of atanh. -/
def atanhSeries (z2 pow : Int) (i : Nat) : Nat → Int → Int
  | 0, acc => acc
  | n + 1, acc => atanhSeries z2 (fxMul pow z2) (i + 2) n (acc + pow / (i : Int))
/-- ln 2 in fixed point. -/
def fxLn2 : Int := 2 * atanhSeries (fxOne / 9) (fxOne / 3) 1 150 0
/-- e^x in fixed point for |x| at most 256. -/
def fxExp (x : Int) : Int :=
  let k := (x + fxLn2 / 2) / fxLn2
  let y := expSeries (x - k * fxLn2) fxOne 0 90 fxOne
  if 0 ≤ k then y * ((2 ^ k.toNat : Nat) : Int) else y / ((2 ^ (-k).toNat : Nat) : Int)
/-- ln of a positive m 2^e in fixed point. -/
def fxLn (m : Nat) (e : Int) : Int :=
  let l := m.log2
  let y : Int := ((m <<< fxBits) >>> l : Nat)
  let z := (y - fxOne) * fxOne / (y + fxOne)
  2 * atanhSeries (fxMul z z) z 1 150 0 + (e + l) * fxLn2
/-- A value that rounds up to nothing but is not zero. -/
def ftiny : FVal := .fin false 1 (-440)
/-- A value beyond the FP32 range. -/
def fhuge : FVal := .fin false 1 300

/-- A finite value is at or above the integer k in magnitude. -/
def bigMag (m : Nat) (e : Int) (k : Nat) : Bool := !(FVal.fin false m e).lt (.fin false k 0)
/-- e^x (spec/05 R136). -/
def FVal.exp : FVal → FVal
  | .nan => .nan
  | .inf n => if n then fzero else .inf false
  | .fin n m e =>
    if m = 0 then .fin false 1 0
    else if bigMag m e 200 then (if n then ftiny else fhuge)
    else fxVal (fxExp (fxOf n m e))
/-- 2^x (spec/05 R136). -/
def FVal.exp2 : FVal → FVal
  | .nan => .nan
  | .inf n => if n then fzero else .inf false
  | .fin n m e =>
    if m = 0 then .fin false 1 0
    else if bigMag m e 200 then (if n then ftiny else fhuge)
    else
      let x := fxOf n m e
      let k := x / fxOne
      let r := x - k * fxOne
      (if r = 0 then .fin false 1 0 else fxVal (fxExp (fxMul r fxLn2))).scale k
/-- ln x (spec/05 R136). -/
def FVal.ln : FVal → FVal
  | .nan => .nan
  | .inf n => if n then .nan else .inf false
  | .fin n m e => if m = 0 then .inf true else if n then .nan else if FVal.eqv (.fin false m e) (.fin false 1 0) then fzero else fxVal (fxLn m e)
/-- tanh x (spec/05 R136). -/
def FVal.tanh : FVal → FVal
  | .nan => .nan
  | .inf n => .fin n 1 0
  | .fin n m e =>
    if m = 0 then .fin n 0 0
    else
      let t := if bigMag m e 100 then fxOne - 1 else fxOne - 2 * fxOne * fxOne / (fxExp (2 * fxOf false m e) + fxOne)
      if n then (fxVal t).neg else if t = 0 then .fin false m e else fxVal t
/-- 1 / (1 + e^-x) (spec/05 R136). -/
def FVal.sigmoid : FVal → FVal
  | .nan => .nan
  | .inf n => if n then fzero else .fin false 1 0
  | .fin n m e =>
    if bigMag m e 200 then (if n then ftiny else fxVal (fxOne - 1))
    else fxVal (fxOne * fxOne / (fxOne + fxExp (fxOf (!n) m e)))
/-- ln (1 + e^x) (spec/05 R136). -/
def FVal.softplus : FVal → FVal
  | .nan => .nan
  | .inf n => if n then fzero else .inf false
  | .fin n m e =>
    if bigMag m e 200 then (if n then ftiny else .fin false m e)
    else fxVal (fxLn (fxOne + fxExp (fxOf n m e)).toNat (-(fxBits : Int)))
/-- 1 - e^-y for DSOFTPLUS (spec/05 Table 5-6). -/
def FVal.oneMinusExp : FVal → FVal
  | .nan => .nan
  | .inf n => if n then .inf true else .fin false 1 0
  | .fin n m e =>
    if m = 0 then fzero
    else if bigMag m e 200 then (if n then fhuge.neg else fxVal (fxOne - 1))
    else
      let t := fxOne - fxExp (fxOf (!n) m e)
      if t = 0 then .fin n m e else fxVal t
/-- 1 / sqrt x (spec/05 R136). -/
def FVal.rsqrt : FVal → FVal
  | .nan => .nan
  | .inf n => if n then .nan else fzero
  | .fin n m e =>
    if m = 0 then .inf n
    else if n then .nan
    else
      let m1 := if e % 2 = 0 then m else 2 * m
      let e1 := if e % 2 = 0 then e else e - 1
      let k := m1.log2 / 2 + 70
      let a := 2 ^ (2 * k) / m1
      let s := isqrt a (a.log2 / 2 + 1) 0
      .fin false (2 * s + (if s * s * m1 = 2 ^ (2 * k) then 0 else 1)) (-(e1 / 2) - k - 1)

/-! ## FP32 operations with their flags (spec/05 R136, R140) -/

/-- Round a result once, raising OF where a finite result of finite operands leaves the range (spec/05 Table 5-4). -/
def roundFlg (v : FVal) (f : Flg) : F32 × Flg :=
  let r := f32Of v
  (r, if !v.nonfinite && nonfinite32 r then { f with ovf := true } else f)
/-- A result with NV where it is a NaN of operands that are no NaN, and DZ where asked. -/
def opFlg (anyNan dz : Bool) (v : FVal) : F32 × Flg := roundFlg v { nv := v.isNan && !anyNan, dz := dz }
/-- x + b -/
def fAdd (x b : F32) : F32 := f32Of ((val32 x).add (val32 b))
/-- x - b -/
def fSub (x b : F32) : F32 := f32Of ((val32 x).sub (val32 b))
/-- x times b -/
def fMul (x b : F32) : F32 := f32Of ((val32 x).mul (val32 b))
/-- x / b -/
def fDiv (x b : F32) : F32 := f32Of ((val32 x).div (val32 b))
/-- The square root. -/
def fSqrt (x : F32) : F32 := f32Of (val32 x).sqrt
/-- The larger of two values; a NaN operand gives the canonical NaN, MAX(+0, -0) is +0 (spec/05 R136). -/
def fMax (x b : F32) : F32 :=
  let u := val32 x
  let v := val32 b
  if u.isNan || v.isNan then nan32 else if u.lt v then b else if v.lt u then x else if u.sign then b else x
/-- The smaller of two values; MIN(+0, -0) is -0 (spec/05 R136). -/
def fMin (x b : F32) : F32 :=
  let u := val32 x
  let v := val32 b
  if u.isNan || v.isNan then nan32 else if u.lt v then x else if v.lt u then b else if u.sign then x else b
/-- An int32 or int64 to FP32 by RNE. -/
def fOfInt (i : Int) : F32 := f32Of (ofIntExp i 0)
/-- FP32 to an integer of n bits by RNE, saturated; NaN gives 0 (spec/05 Table 5-3, spec/06 Table 6-6). The two flags: it saturated, it met a NaN. -/
def fToInt (n : Nat) (x : F32) : Int × Bool × Bool :=
  let hi : Int := ((2 ^ (n - 1) : Nat) : Int) - 1
  let lo : Int := -((2 ^ (n - 1) : Nat) : Int)
  match val32 x with
  | .nan => (0, false, true)
  | .inf neg => (if neg then lo else hi, true, false)
  | .fin neg m e =>
    let k : Int := ((rneAt m e 0 : Nat) : Int)
    let v := if neg then -k else k
    if v < lo then (lo, true, false) else if hi < v then (hi, true, false) else (v, false, false)

end Sys2Proof.Machine
end

