-- ==== Sys2Proof/Machine/Formats.lean ====
section
/-! DEFINITION. Element formats, the MX scale recipe, BS16 conversion and addition, the firn update and the moment codes (spec/02). Formats are named by their FMT code of spec/06 Table 6-9: 1 E4M3, 2 E5M2, 3 E2M1, 4 INT8, 5 INT4, 6 BF16, 7 BS16, 9 firn, 10 moment codes. -/

namespace Sys2Proof.Machine

/-! ## Elements (spec/02 Table 2-1) -/

/-- The format takes four bits an element. -/
def fmt4 (fmt : Nat) : Bool := fmt == 3 || fmt == 5
/-- The format takes eight bits an element and carries scales. -/
def fmt8 (fmt : Nat) : Bool := fmt == 1 || fmt == 2 || fmt == 4
/-- An MX format (spec/02 R35). -/
def fmtMx (fmt : Nat) : Bool := fmt4 fmt || fmt8 fmt
/-- A minifloat of p significant bits, whose smallest unit is 2^qmin. -/
def miniVal (p : Nat) (qmin : Int) (bits c : Nat) : FVal :=
  let g := c % 2 ^ (bits - 1)
  let n := c.testBit (bits - 1)
  let e := g / 2 ^ (p - 1)
  if e = 0 then .fin n g qmin else .fin n (g % 2 ^ (p - 1) + 2 ^ (p - 1)) (qmin + (e : Int) - 1)
/-- A two's-complement element of some bits with its implicit scale (spec/02 R32). -/
def intVal (bits : Nat) (q : Int) (c : Nat) : FVal :=
  if c.testBit (bits - 1) then .fin true (2 ^ bits - c % 2 ^ bits) q else .fin false (c % 2 ^ bits) q
/-- The value of an element code, without its scale (spec/02 Table 2-1). -/
def elemVal (fmt c : Nat) : FVal :=
  match fmt with
  | 1 => if c % 128 = 127 then .nan else miniVal 4 (-9) 8 c
  | 2 => if c % 128 = 124 then .inf (c.testBit 7) else if 124 < c % 128 then .nan else miniVal 3 (-16) 8 c
  | 3 => miniVal 2 (-1) 4 c
  | 4 => intVal 8 (-6) c
  | 5 => intVal 4 (-2) c
  | _ => fzero
/-- emax of a format (spec/02 Table 2-1). -/
def emaxOf (fmt : Nat) : Int := if fmt = 1 then 8 else if fmt = 2 then 15 else if fmt = 3 then 2 else 0
/-- The code of a finite value divided by its scale: rounded, saturated to the largest finite value, zero as +0 (spec/02 R38). -/
def elemCode (fmt : Nat) (draw : Option Nat) (v : FVal) : Nat :=
  match v with
  | .nan | .inf _ => 0
  | .fin n m e =>
    let c := match fmt with
      | 1 => min (magCode draw 4 (-9) m e) 126
      | 2 => min (magCode draw 3 (-16) m e) 123
      | 3 => min (magCode draw 2 (-1) m e) 7
      | 4 => min (roundAt draw m e (-6)) 127
      | 5 => min (roundAt draw m e (-2)) 7
      | _ => 0
    if c = 0 then 0
    else if fmt = 4 then (if n then 256 - c else c)
    else if fmt = 5 then (if n then 16 - c else c)
    else if fmt = 3 then (if n then c + 8 else c)
    else if n then c + 128 else c
/-- A decoded MX element in FP32: a scale of 0xFF decodes to NaN, a magnitude above the range to an infinity (spec/02 R39, R41). -/
def mxVal32 (fmt c scale : Nat) : F32 :=
  if scale = 255 then nan32 else f32Of ((elemVal fmt c).scale ((scale : Int) - 127))

/-- floor (log2) of a finite non-zero value. -/
def flog2 : FVal → Int
  | .fin _ m e => (m.log2 : Int) + e
  | .nan | .inf _ => 0
/-- The larger magnitude of two finite values. -/
def magMax (a b : FVal) : FVal := if a.mag.lt b.mag then b.mag else a.mag
/-- The largest magnitude of some values. -/
def amaxOf (l : List FVal) : FVal := l.foldl magMax fzero
/-- Clamp an exponent to -127 to 127 (spec/02 R37). -/
def clampX (x : Int) : Int := max (-127) (min 127 x)
/-- The scale byte of a block, 255 where an element is not finite, 0 where all are zero (spec/02 R37, R39). -/
def mxScale (fmt : Nat) (l : List FVal) : Nat :=
  if l.any FVal.nonfinite then 255
  else
    let a := amaxOf l
    if a.zero then 0 else (clampX (flog2 a - emaxOf fmt) + 127).toNat
/-- The element code under a scale byte (spec/02 R37 to R39). -/
def mxCode (fmt scale : Nat) (draw : Option Nat) (v : FVal) : Nat :=
  if scale = 255 then 0 else elemCode fmt draw (v.scale (127 - (scale : Int)))

/-! ## BS16 (spec/02 R48 to R55) -/

/-- A BS16 block (spec/02 Table 2-5). -/
structure Bs where
  m    : List Int
  exp  : Nat
  pois : Bool := false
  sat  : Bool := false
  deriving DecidableEq, Repr

/-- The sum of the mantissas modulo 7 (spec/02 Table 2-5). -/
def Bs.res (b : Bs) : Nat := ((b.m.foldl (fun a x => a + x) 0) % 7).toNat
/-- The 68 bytes of a block (spec/02 Table 2-5). -/
def Bs.bytes (b : Bs) : List Byte :=
  b.m.flatMap (fun x => [BitVec.ofInt 8 x, BitVec.ofInt 8 (x / 256)])
    ++ [BitVec.ofNat 8 b.exp, BitVec.ofNat 8 ((if b.pois then 1 else 0) + (if b.sat then 2 else 0)), BitVec.ofNat 8 b.res, 0]
/-- A zero block with its flags. -/
def Bs.none (pois sat : Bool) : Bs := { m := List.replicate 32 0, exp := 0, pois := pois, sat := sat }
/-- The mantissas of a block's bytes. -/
def bsMants : Nat → List Byte → List Int
  | 0, _ => []
  | n + 1, lo :: hi :: r => (hi ++ lo : BitVec 16).toInt :: bsMants n r
  | n + 1, _ => 0 :: bsMants n []
/-- The block of 68 bytes, and whether it is malformed: a malformed block counts as poisoned and zero; its own SAT flag is kept (spec/02 R50; notes/assumptions/24.md). -/
def bsParse (l : List Byte) : Bs × Bool :=
  let m := bsMants 32 l
  let e := (l.getD 64 0).toNat
  let f := (l.getD 65 0).toNat
  let r := (l.getD 66 0).toNat + 256 * (l.getD 67 0).toNat
  let b : Bs := { m := m, exp := e, pois := f.testBit 0, sat := f.testBit 1 }
  let bad := (e == 0 && m.any (fun x => x != 0)) || e == 255 || m.any (fun x => x == -32768) || r != b.res || 4 ≤ f
  if bad then (Bs.none true b.sat, true) else (b, false)
/-- Element i of a block (spec/02 R49, R53). -/
def Bs.val (b : Bs) (i : Nat) : FVal := if b.pois then .nan else ofIntExp (b.m.getD i 0) ((b.exp : Int) - 141)
/-- The largest magnitude of integers. -/
def maxAbs (l : List Int) : Nat := l.foldl (fun a x => max a x.natAbs) 0
/-- Clamp a mantissa. -/
def clampM (x : Int) : Int := max (-32767) (min 32767 x)
/-- The loop of spec/02 R52 and R54: mantissas at the exponent, raised until they fit, clamped with SAT at 254. -/
def bsFit (g : Nat → List Int) (sat : Bool) : Nat → Nat → Bs
  | 0, e => { m := (g e).map clampM, exp := e, sat := sat }
  | n + 1, e =>
    let m := g e
    if maxAbs m ≤ 32767 then { m := m, exp := if m.all (fun x => x == 0) then 0 else e, sat := sat }
    else if e = 254 then { m := m.map clampM, exp := 254, sat := true }
    else bsFit g sat n (e + 1)
/-- RNE of a value times 2^k to an integer. -/
def rneVal (v : FVal) (k : Int) : Int :=
  match v with
  | .fin n m e => let a : Int := Int.ofNat (rneAt m (e + k) 0)
                  if n then -a else a
  | .nan | .inf _ => 0
/-- CVT.BS16 of 32 FP32 values (spec/02 R52). -/
def bsConvert (l : List FVal) : Bs :=
  if l.any FVal.nonfinite then Bs.none true false
  else
    let a := amaxOf l
    if a.zero then Bs.none false false
    else bsFit (fun e => l.map (fun v => rneVal v (141 - (e : Int)))) false 300 (max 1 (flog2 a + 127)).toNat
/-- A mantissa aligned for addition, truncated beyond 15 steps (spec/02 R54). -/
def bsAlign (emax e : Nat) (x : Int) : Int :=
  let d := emax - e
  if d ≤ 15 then x * ((2 ^ (15 - d) : Nat) : Int)
  else let t : Int := Int.ofNat (x.natAbs / 2 ^ (d - 15))
       if x < 0 then -t else t
/-- The sum of two blocks (spec/02 R54). -/
def bsAdd (a b : Bs) : Bs :=
  let sat := a.sat || b.sat
  if a.pois || b.pois then Bs.none true sat
  else
    let em := max a.exp b.exp
    let s := List.zipWith (fun x y => bsAlign em a.exp x + bsAlign em b.exp y) a.m b.m
    if s.all (fun x => x == 0) then Bs.none false sat
    else
      let p := (maxAbs s).log2
      let e := min 254 (max 1 (em + p - 29))
      bsFit (fun e => s.map (fun x => rneInt x (-((e : Int) - (em : Int) + 15)))) sat 300 e

/-! ## The firn update (spec/02 R56 to R59) -/

/-- log2 of ulp (W) (spec/02 R57). -/
def ulpBf16 (w : Half) : Int :=
  let e : Nat := w.toNat / 128 % 256
  if e = 0 then -133 else (e : Int) - 134
/-- W' and f' from W, f and the step; the last part says that a non-finite value is recorded (spec/02 R58, R59). -/
def firnUpdate (w : Half) (f : Byte) (delta : F32) : Half × Byte × Bool :=
  let v := valBf16 w
  let d := val32 delta
  if v.nonfinite || d.nonfinite then (0x7FC0#16, 0, true)
  else
    let x := (v.add (ofIntExp f.toInt (ulpBf16 w - 8))).add d
    let w1 := if x.zero then 0#16 else bf16Of none x
    if (valBf16 w1).nonfinite then (0x7FC0#16, 0, true)
    else
      let r := rneVal (x.sub (valBf16 w1)) (8 - ulpBf16 w1)
      (w1, BitVec.ofInt 8 (max (-128) (min 127 r)), false)

/-! ## The second moment (spec/02 R61) -/

/-- The scale byte of a group of square roots: 255 where some v is below zero or not finite, 0 where all are zero. -/
def momScale (v s : List FVal) : Nat :=
  if v.any (fun x => x.nonfinite || (x.sign && !x.zero)) then 255
  else
    let a := amaxOf s
    if a.zero then 0 else (clampX (flog2 a) + 127).toNat
/-- The code of a square root under a scale byte. -/
def momCode (scale : Nat) (draw : Option Nat) (s : FVal) : Nat :=
  if scale = 255 then 0
  else match s with
    | .fin _ m e => min (roundAt draw m (e + 134 - (scale : Int)) 0) 255
    | .nan | .inf _ => 0
/-- The decoded square root of a code. -/
def momVal (scale c : Nat) : FVal := if scale = 255 then .nan else .fin false c ((scale : Int) - 134)

end Sys2Proof.Machine
end

