-- ==== Sys2Proof/Machine/Ops.lean ====
section
/-! DEFINITION. The named operations over the state: reading and updating its parts, bytes and words, the geometry of the variants, memory bytes, errors, events and answers. -/

namespace Sys2Proof.Machine

/-! ## Parts of the state -/

/-- Logical floe f. -/
def State.floe (s : State) (f : Nat) : Floe := Tbl.get {} s.floes f
/-- Replace logical floe f. -/
def State.setFloe (s : State) (f : Nat) (x : Floe) : State := { s with floes := s.floes.put f x }
/-- Partition p. -/
def State.part (s : State) (p : Nat) : Part := Tbl.get {} s.parts p
/-- Replace partition p. -/
def State.setPart (s : State) (p : Nat) (x : Part) : State := { s with parts := s.parts.put p x }
/-- Gwyntik endpoint e. -/
def State.ep (s : State) (e : Nat) : Endpoint := Tbl.get {} s.eps e
/-- Replace endpoint e. -/
def State.setEp (s : State) (e : Nat) (x : Endpoint) : State := { s with eps := s.eps.put e x }
/-- Mesh port k. -/
def State.port (s : State) (k : Nat) : Port := Tbl.get {} s.router.ports k
/-- Replace the router. -/
def State.setRouter (s : State) (r : Router) : State := { s with router := r }
/-- Replace mesh port k. -/
def State.setPort (s : State) (k : Nat) (x : Port) : State := s.setRouter { s.router with ports := s.router.ports.put k x }
/-- Chiplet c. -/
def State.chip (s : State) (c : Nat) : Chip := Tbl.get {} s.chips c
/-- Replace chiplet c. -/
def State.setChip (s : State) (c : Nat) (x : Chip) : State := { s with chips := s.chips.put c x }
/-- OED port k. -/
def State.oedPort (s : State) (k : Nat) : OedPort := Tbl.get {} s.oed.ports k
/-- Replace OED port k. -/
def State.setOedPort (s : State) (k : Nat) (x : OedPort) : State := { s with oed := { s.oed with ports := s.oed.ports.put k x } }
/-- The thermal page of a die. -/
def State.therm (s : State) (d : Nat) : Therm := Tbl.get {} s.therms d
/-- Replace a die's thermal page. -/
def State.setTherm (s : State) (d : Nat) (x : Therm) : State := { s with therms := s.therms.put d x }
/-- UCIe module m. -/
def State.mod (s : State) (m : Nat) : Ucie := Tbl.get {} s.ucie m
/-- Replace UCIe module m. -/
def State.setMod (s : State) (m : Nat) (x : Ucie) : State := { s with ucie := s.ucie.put m x }
/-- The near-memory controller of memory device d. -/
def State.nmc (s : State) (d : Nat) : Nmc := Tbl.get {} s.nmcs d
/-- Replace a near-memory controller. -/
def State.setNmc (s : State) (d : Nat) (x : Nmc) : State := { s with nmcs := s.nmcs.put d x }
/-- CXL port k. -/
def State.cxl (s : State) (k : Nat) : Cxl := Tbl.get {} s.cxls k
/-- Replace CXL port k. -/
def State.setCxl (s : State) (k : Nat) (x : Cxl) : State := { s with cxls := s.cxls.put k x }
/-- Where a page's header is held: the fields of the ROUTER page are mirrored between the two dies (spec/09 R314). -/
def hdrKey (d p : Nat) : Nat := if p = 0xA0 then p else 0x4000 * d + p
/-- The header of page p of die d. -/
def State.hdr (s : State) (d p : Nat) : Header := Tbl.get {} s.hdrs (hdrKey d p)
/-- Replace a page header. -/
def State.setHdr (s : State) (d p : Nat) (x : Header) : State := { s with hdrs := s.hdrs.put (hdrKey d p) x }
/-- SYSTIME in ns. -/
def State.now (s : State) : DWord := s.time.systime
/-- Replace the security controller's state. -/
def State.setSec (s : State) (x : Sec) : State := { s with sec := x }
/-- Replace the RAS state. -/
def State.setRas (s : State) (x : Ras) : State := { s with ras := x }
/-- Replace the reset state. -/
def State.setRst (s : State) (x : Rst) : State := { s with rst := x }
/-- Replace the flash. -/
def State.setFlash (s : State) (x : Flash) : State := { s with flash := x }

/-- A stream of a floe. -/
def Floe.stream (x : Floe) : Stream → StreamSt
  | .fwd => x.fwd | .bwd => x.bwd | .upd => x.upd
/-- Replace a stream of a floe. -/
def Floe.setStream (x : Floe) : Stream → StreamSt → Floe
  | .fwd, y => { x with fwd := y }
  | .bwd, y => { x with bwd := y }
  | .upd, y => { x with upd := y }
/-- Stream st of logical floe f. -/
def State.stream (s : State) (f : Nat) (st : Stream) : StreamSt := (s.floe f).stream st
/-- Replace stream st of logical floe f. -/
def State.setStream (s : State) (f : Nat) (st : Stream) (y : StreamSt) : State := s.setFloe f ((s.floe f).setStream st y)
/-- The three streams in their order (spec/06 R153). -/
def allStreams : List Stream := [.fwd, .bwd, .upd]

/-- Apply an update for each element in order. -/
def State.each {α : Type} (s : State) (l : List α) (g : State → α → State) : State := l.foldl g s

/-- Take the first waiting item that satisfies a test. -/
def takeFirst {α : Type} (g : α → Bool) : List α → Option (α × List α)
  | [] => none
  | a :: r => if g a then some (a, r) else (takeFirst g r).map (fun x => (x.1, a :: x.2))

/-- Insert a number into an ascending list. -/
def insertUp (a : Nat) : List Nat → List Nat
  | [] => [a]
  | b :: r => if a ≤ b then a :: b :: r else b :: insertUp a r
/-- Some numbers in ascending order. -/
def sortUp (l : List Nat) : List Nat := l.foldr insertUp []

/-! ## Bytes -/

/-- The n low bytes of a value, least significant first (spec/00 R13). -/
def leBytes : Nat → Nat → List Byte
  | 0, _ => []
  | n + 1, v => BitVec.ofNat 8 v :: leBytes n (v / 256)
/-- The value of bytes given least significant first. -/
def ofLe : List Byte → Nat
  | [] => 0
  | b :: r => b.toNat + 256 * ofLe r
/-- The n low bytes of a value in network order (spec/00 R13). -/
def beBytes (n v : Nat) : List Byte := (leBytes n v).reverse
/-- The value of bytes in network order. -/
def ofBe (l : List Byte) : Nat := ofLe l.reverse
/-- n bytes of zeros. -/
def zeros (n : Nat) : List Byte := List.replicate n 0
/-- Bytes i to i + n - 1 of a list. -/
def sliceB (l : List Byte) (i n : Nat) : List Byte := (l.drop i).take n
/-- The little-endian value of n bytes at i. -/
def leAt (l : List Byte) (i n : Nat) : Nat := ofLe (sliceB l i n)
/-- The network-order value of n bytes at i. -/
def beAt (l : List Byte) (i n : Nat) : Nat := ofBe (sliceB l i n)
/-- Bits [lo + n - 1 : lo] of a number. -/
def bitsOf (v lo n : Nat) : Nat := (v >>> lo) % 2 ^ n
/-- Bit i of a number. -/
def bitOf (v i : Nat) : Bool := v.testBit i
/-- How far an address lies above a base. -/
def above (a base : Nat) : Nat := ((a : Int) - (base : Int)).toNat
/-- 1 for true. -/
def b2n (b : Bool) : Nat := if b then 1 else 0
/-- Pack 4-bit fields, field 0 lowest. -/
def packNibbles (n : Nat) (g : Nat → Nat) : Nat := (List.range n).foldl (fun a i => a + (g i % 16) * 16 ^ i) 0
/-- Pack one bit per index, index 0 lowest. -/
def packBits (n : Nat) (g : Nat → Bool) : Nat := (List.range n).foldl (fun a i => a + b2n (g i) * 2 ^ i) 0
/-- Set or clear one bit of a vector. -/
def setBit {w : Nat} (v : BitVec w) (i : Nat) (b : Bool) : BitVec w :=
  if b then v ||| (BitVec.ofNat w 1 <<< i) else v &&& ~~~ (BitVec.ofNat w 1 <<< i)
/-- A counter of 64 bits, one more. -/
def bump (c : DWord) : DWord := c + 1
/-- A saturating counter (spec/16 R541). -/
def satInc {w : Nat} (c : BitVec w) : BitVec w := if c = BitVec.allOnes w then c else c + 1
/-- The signed value of a vector as an integer, for registers in two's complement. -/
def ofInt16 (i : Int) : Half := BitVec.ofInt 16 i

/-- One step of the CRC-32C shift register, reflected (spec/00 Table 0-3: Castagnoli polynomial 0x1EDC_6F41). -/
def crcBit (c : Nat) : Nat := if c % 2 = 1 then (c / 2) ^^^ 0x82F63B78 else c / 2
/-- One byte through the CRC-32C register. -/
def crcByte (c : Nat) (b : Byte) : Nat :=
  crcBit (crcBit (crcBit (crcBit (crcBit (crcBit (crcBit (crcBit (c ^^^ b.toNat))))))))
/-- CRC-32C with an initial value of all ones and final inversion (spec/12 R412, spec/10 R343). -/
def crc32c (l : List Byte) : Word := BitVec.ofNat 32 (l.foldl crcByte 0xFFFFFFFF ^^^ 0xFFFFFFFF)

/-! ## Geometry of the variants (spec/00 Table 0-1, spec/01 R18) -/

/-- Grade M. -/
def Variant.isM : Variant → Bool
  | .m960 => true
  | .l960 | .l480 => false
/-- Active floes of one die. -/
def Variant.perDie (v : Variant) : Nat := if v.isM then 96 else 104
/-- Logical floes of the device. -/
def Variant.floes (v : Variant) : Nat := 2 * v.perDie
/-- Floe groups of the device. -/
def Variant.groups (v : Variant) : Nat := v.floes / 8
/-- Memory devices fitted. -/
def Variant.devices : Variant → Nat
  | .l480 => 6
  | .l960 | .m960 => 12
/-- A near-memory controller is fitted (spec/00 R2): device d is controller d mod 6 of die d div 6. -/
def Variant.nmcFitted (v : Variant) (d : Nat) : Bool :=
  match v with
  | .l480 => d % 2 == 0
  | .l960 | .m960 => true
/-- The power limit of the grade in W (spec/15 R495). -/
def Variant.maxWatts (v : Variant) : Nat := if v.isM then 2450 else 2800
/-- The ordering number in ASCII (spec/17 R564). -/
def Variant.order : Variant → String
  | .l960 => "AZS9-L960-H"
  | .m960 => "AZS9-M960-H"
  | .l480 => "AZS9-L480-H"

/-- The lead die (spec/17 R552). -/
def State.lead (s : State) : Nat := b2n s.straps.lead
/-- The die of a logical floe (spec/01 Table 1-3). -/
def State.floeDie (s : State) (f : Nat) : Nat := f / s.variant.perDie
/-- The base-map site of a logical floe (spec/14, "Calving"; spare sites are the highest of each die, notes/assumptions/7.md). -/
def State.baseSite (s : State) (f : Nat) : Nat := s.floeDie f * 112 + f % s.variant.perDie
/-- The site a logical floe runs on (spec/14 R480). -/
def State.siteOf (s : State) (f : Nat) : Nat := Tbl.get (s.baseSite f) s.ras.moved f
/-- The logical floe a site carries, if any. -/
def State.floeAt (s : State) (site : Nat) : Option Nat :=
  (List.range s.variant.floes).find? (fun f => s.siteOf f == site)
/-- The page of a site: die and page index (spec/16 Table 16-1). -/
def sitePage (site : Nat) : Nat × Nat := (site / 112, 1 + site % 112)
/-- The page of a logical floe. -/
def State.floePage (s : State) (f : Nat) : Nat × Nat := sitePage (s.siteOf f)
/-- The working spare sites of a die, ascending (spec/14 R481): sites that are not failed, carry no floe and are not the target of a calving in progress. -/
def State.spares (s : State) (die : Nat) : List Nat :=
  ((List.range 112).map (fun l => die * 112 + l)).filter
    (fun site => !(s.ras.failed.contains site) && (s.floeAt site).isNone && s.ras.calve.all (fun j => j.dst != site))

/-- RECOVERY has not gone on to step 5: no SECURITY and PLATFORM package has been activated (spec/15 R501). -/
def State.recovering (s : State) : Bool :=
  s.rst.phase == .cold && s.straps.boot == 2 && !(s.rst.recovered.contains 1 && s.rst.recovered.contains 2)
/-- Links may come up: the reset sequence goes on to its step 5 (spec/15 Table 15-4, R501). -/
def State.linksStart (s : State) : Bool :=
  match s.rst.phase with
  | .ready | .warm => true
  | .cold => !s.recovering
  | .halted | .tripped => false
/-- The coordinate of the straps (spec/17 R552). -/
def State.coord (s : State) : Nat × Nat × Nat := (s.straps.x.toNat, s.straps.y.toNat, s.straps.z.toNat)
/-- A coordinate packed one byte each, x lowest (spec/09 Table 9-12, spec/15 Table 15-12). -/
def packCoord (c : Nat × Nat × Nat) : Nat := c.1 + 256 * c.2.1 + 65536 * c.2.2
/-- The number of ones of a number's low n bits. -/
def ones (n v : Nat) : Nat := (List.range n).foldl (fun a i => a + b2n (bitOf v i)) 0
/-- The coordinate is valid when the 19 LOC bits hold an odd number of ones (spec/09 R263). -/
def State.locValid (s : State) : Bool :=
  (ones 6 s.straps.x.toNat + ones 6 s.straps.y.toNat + ones 6 s.straps.z.toNat + b2n s.straps.p) % 2 == 1
/-- The express distance D, none for the reserved code (spec/09 R265). -/
def State.express (s : State) : Option Nat :=
  if s.straps.expr = 0 then some 4 else if s.straps.expr = 1 then some 8
  else if s.straps.expr = 2 then some 16 else none

/-! ## Partitions and floes -/

/-- A partition exists: it holds resources (spec/13 R446). -/
def Part.held (x : Part) : Bool := x.st != .free
/-- The partition that holds floe group g, if any. -/
def State.groupHolder (s : State) (g : Nat) : Option Nat :=
  (List.range 8).find? (fun p => (s.part p).held && (s.part p).groups.getLsbD g)
/-- The partition that holds logical floe f, if any (FLOE_LOGICAL.PARTITION, OWNED). -/
def State.floePart (s : State) (f : Nat) : Option Nat := if f < s.variant.floes then s.groupHolder (f / 8) else none
/-- The logical floes of a floe-group mask in ascending order; position i is partition floe index i (spec/12 R423). -/
def floesOfMask (m : BitVec 26) : List Nat := (List.range 208).filter (fun f => m.getLsbD (f / 8))
/-- The logical floes of partition p. -/
def State.partFloes (s : State) (p : Nat) : List Nat := floesOfMask (s.part p).groups
/-- The state code of a partition (spec/12 Table 12-15). -/
def PState.code : PState → Nat
  | .free => 0 | .claimed => 1 | .loaded => 2 | .running => 3 | .paused => 4 | .degraded => 5 | .faulted => 6 | .thawing => 7

/-! ## Memory bytes -/

/-- The base of the floes' scratchpad windows (spec/01 R21 Table 1-6). -/
def spBase : Nat := 0xF0000000000
/-- The stride of a scratchpad window. -/
def spStride : Nat := 0x800000
/-- The backed bytes of a scratchpad: 6 MiB. -/
def spSize : Nat := 0x600000
/-- The base of CXL memory. -/
def cxlBase : Nat := 0x10000000000
/-- The device address of an offset of floe f's scratchpad window. -/
def spAddr (f off : Nat) : Nat := spBase + spStride * f + off
/-- An address of a scratchpad window. -/
def isSp (a : Nat) : Bool := spBase ≤ a && a < spBase + 208 * spStride
/-- The floe whose window holds a scratchpad address. -/
def spFloe (a : Nat) : Nat := above a spBase / spStride

/-- The 1 GiB unit of a near-memory address is among the granted units of p; likewise for CXL. -/
def Part.holds (x : Part) (a : Nat) : Bool :=
  if a < cxlBase then x.near.contains (a / 2 ^ 30) else x.cxl.contains (above a cxlBase / 2 ^ 30)
/-- The partition whose grant holds an address outside the scratchpads. -/
def State.unitHolder (s : State) (a : Nat) : Option Nat :=
  (List.range 8).find? (fun p => (s.part p).held && (s.part p).holds a)

/-- What an unlisted address reads as: a scratchpad byte reads 0, since partition reset, thaw and self-test leave zeros (spec/12 R438, spec/13 R471, spec/15 R509); a near-memory or CXL byte that its holder has not written is unspecified (spec/13 R472), a free value of the claim (notes/assumptions/1.md). -/
def State.blank (s : State) (a : Nat) : Byte :=
  if isSp a then 0
  else match s.unitHolder a with
    | some p => Config.freeByte (s.part p).claimNo a
    | none => Config.freeByte 0 a

/-- The byte listed at an address. -/
def cellAt : List Host.Cell → Nat → Option Byte
  | [], _ => none
  | c :: r, a => if c.1 = a then some c.2 else cellAt r a

/-- The byte an address holds. -/
def State.byte (s : State) (a : Nat) : Byte := (cellAt s.mem a).getD (s.blank a)

/-- The cells that a run of bytes lists: a scratchpad byte of 0 is not listed. -/
def newCells : Nat → List Byte → List Host.Cell
  | _, [] => []
  | a, b :: r => if isSp a && b == 0 then newCells (a + 1) r else (a, b) :: newCells (a + 1) r
/-- The cells below an address. -/
def cellsBelow (a : Nat) : List Host.Cell → List Host.Cell
  | [] => []
  | c :: r => if c.1 < a then c :: cellsBelow a r else []
/-- The cells at or above an address. -/
def cellsFrom (a : Nat) : List Host.Cell → List Host.Cell
  | [] => []
  | c :: r => if c.1 < a then cellsFrom a r else c :: r
/-- n bytes from an address, of cells that begin at it or above. -/
def readCells (blank : Nat → Byte) : Nat → Nat → List Host.Cell → List Byte
  | 0, _, _ => []
  | n + 1, a, [] => blank a :: readCells blank n (a + 1) []
  | n + 1, a, c :: r => if c.1 = a then c.2 :: readCells blank n (a + 1) r else blank a :: readCells blank n (a + 1) (c :: r)
/-- n bytes from an address. -/
def State.bytes (s : State) (a n : Nat) : List Byte := readCells s.blank n a (cellsFrom a s.mem)
/-- Write a run of bytes, keeping the canonical form. -/
def putBytes (m : List Host.Cell) (a : Nat) (l : List Byte) : List Host.Cell :=
  cellsBelow a m ++ newCells a l ++ cellsFrom (a + l.length) m
/-- Forget the bytes of a range: they read as an unlisted address does. -/
def dropBytes (m : List Host.Cell) (a n : Nat) : List Host.Cell := cellsBelow a m ++ cellsFrom (a + n) m
/-- The device with a run of bytes written. -/
def State.poke (s : State) (a : Nat) (l : List Byte) : State := { s with mem := putBytes s.mem a l }
/-- The canonical form of memory: addresses strictly rising, no scratchpad byte listed as 0. -/
def Memory.wf : List Host.Cell → Bool
  | [] => true
  | c :: r => !(isSp c.1 && c.2 == 0) && (match r with | [] => true | d :: _ => decide (c.1 < d.1)) && Memory.wf r

/-! ## Errors (spec/14 R486, spec/16 R541, R542) -/

/-- Report an error of a class to the RAS page (spec/14 R486). -/
def State.rasReport (s : State) (cls : Nat) : State :=
  s.setRas { s.ras with pending := setBit s.ras.pending cls true
                        counts := s.ras.counts.put cls (bump (Tbl.get 0 s.ras.counts cls)) }
/-- A rise of a floe site's ERR_COUNT is remembered for an hour, the last 64 of them (spec/14 R482). -/
def State.siteErr (s : State) (die page : Nat) : State :=
  if 1 ≤ page && page ≤ 112 then
    let site := die * 112 + (page - 1)
    let l := (s.now :: Tbl.get [] s.ras.siteErrs site).take 64
    s.setRas { s.ras with siteErrs := s.ras.siteErrs.put site (l.filter (fun t => s.now.toNat < t.toNat + 3600000000000)) }
  else s
/-- Count a write or an input that a block's own rules count (spec/16 R541). -/
def State.countErr (s : State) (die page : Nat) : State :=
  let h := s.hdr die page
  (s.setHdr die page { h with errCount := satInc h.errCount }).siteErr die page

/-! ## Gwyntik packets to the host (spec/12) -/

/-- The link is up: at least one UCIe module is up (spec/12 Table 12-3). -/
def State.linkUp (s : State) : Bool := (List.range 4).any (fun m => (s.mod m).up)
/-- A payload in whole units of 4 bytes, padded with zeros (spec/12 Table 12-4; notes/assumptions/48.md). -/
def padded4 (l : List Byte) : List Byte := l ++ zeros ((4 - l.length % 4) % 4)
/-- A 32-byte header with its CRC and its payload (spec/12 Table 12-4). -/
def gwyBytes (op pf seq tag st det arg0 arg1 : Nat) (payload : List Byte) : List Byte :=
  let pl := padded4 payload
  let h := beBytes 1 op ++ beBytes 1 pf ++ beBytes 2 (pl.length / 4) ++ beBytes 4 seq ++ beBytes 4 tag ++ beBytes 1 st
    ++ beBytes 1 det ++ beBytes 2 0 ++ beBytes 8 arg0 ++ beBytes 4 arg1
  h ++ beBytes 4 (crc32c (h ++ pl)).toNat ++ pl
/-- Bytes a packet takes in the inbound buffer: padded to a multiple of 8 (spec/12 R408). -/
def padded8 (n : Nat) : Nat := (n + 7) / 8 * 8
/-- GWY_RX_AVAIL (spec/12 R408). -/
def Endpoint.avail (x : Endpoint) : Nat := x.rx.foldl (fun a i => a + i.bytes.length) 0
/-- Undelivered events of an endpoint (spec/12 R443). -/
def Endpoint.events (x : Endpoint) : Nat := ((x.rx ++ x.heldRx).filter (fun i => i.event)).length

/-- The interrupt file whose page holds an address of the IMSIC regions (spec/12 Table 12-1): machine level, 4 KiB a core; supervisor and seven guest files, 32 KiB a core. -/
def isImsic (a : Nat) : Bool := (0x100000000 ≤ a && a < 0x100020000) || (0x100100000 ≤ a && a < 0x100200000)
/-- An address of processor-die memory: SRAM or LPDDR5X (spec/12 Table 12-1). -/
def isHostMem (a : Nat) : Bool := a < 0x200000 || (0x8000000000 ≤ a && a < 0xA000000000)
/-- A 32-bit write that reaches the processor die: into memory, or to the first word of an interrupt file, where the identity it names becomes pending (spec/12 R395, R396; the file's layout is that of the RISC-V Advanced Interrupt Architecture, PRESUMED, notes/assumptions/125.md). -/
def Proc.store (x : Proc) (a d : Nat) : Proc :=
  if isHostMem a then { x with written := (List.range 4).foldl (fun t i => t.put (a + i) (BitVec.ofNat 8 (d / 256 ^ i))) x.written }
  else if isImsic a && a % 0x1000 = 0 && 1 ≤ d && d < 2048 && !x.imsic.contains (a, d) then { x with imsic := (a, d) :: x.imsic }
  else x
/-- The endpoint writes GWY_MSI_DATA to GWY_MSI_ADDR (spec/12 R409). -/
def State.msi (s : State) (x : Endpoint) : State :=
  { s with msis := (x.msiAddr, x.msiData) :: s.msis, proc := s.proc.store x.msiAddr.toNat x.msiData.toNat }
/-- Put a packet into an endpoint's inbound buffer, or hold it while the 256 KiB are full; a first byte raises the RX interrupt (spec/12 R408, R409). -/
def State.pushRx (s : State) (e : Nat) (ev : Bool) (l : List Byte) (credit : Option (Nat × Nat) := none) : State :=
  let x := s.ep e
  let b := l ++ zeros (padded8 l.length - l.length)
  if x.heldRx.isEmpty && x.avail + b.length ≤ 262144 then
    let s1 := s.setEp e { x with rx := x.rx ++ [{ event := ev, bytes := b }] }
    if x.avail = 0 && x.intRx then s1.msi x else s1
  else s.setEp e { x with heldRx := x.heldRx ++ [{ event := ev, bytes := b, credit := credit }] }

/-- Send one event packet to an endpoint, the sequence number advancing (spec/12 R442). -/
def State.pushEvent (s : State) (e part code die : Nat) (pl : List Byte) : State :=
  let x := s.ep e
  let b := gwyBytes 0 (part * 16 + 2) x.evSeq.toNat 0 0 0 s.now.toNat (code + 65536 * die) pl
  (s.setEp e { x with evSeq := x.evSeq + 1 }).pushRx e true b

/-- The CSR window base of a die (spec/01 Table 1-6). -/
def csrBase (die : Nat) : Nat := 0xFF000000000 + 0x4000000 * die
/-- A 32-bit block address: the byte offset of a page from the base of die 0's CSR window (notes/assumptions/12.md). -/
def blockAddr (die page : Nat) : Nat := 0x4000000 * die + 0x1000 * page

/-- The class of an error flag of a page (spec/14 Table 14-3, spec/16 Table 16-5): 0 CORRECTED to 4 FATAL (notes/assumptions/13.md). `ty` is the page's type code. -/
def errClass (ty bit : Nat) : Nat :=
  match ty, bit with
  | 2, 0 | 2, 1 => 1
  | 2, 2 => 2
  | 3, 0 | 3, 1 => 1
  | 4, 0 | 4, 1 => 1
  | 4, 2 => 2
  | 5, 2 => 3
  | 6, 0 | 6, 1 | 6, 2 => 1
  | 6, 3 => 3
  | 7, 0 | 7, 3 => 1
  | 8, 0 => 3
  | 10, 0 => 4
  | 10, 1 => 2
  | 11, 0 | 11, 1 => 3
  | 14, 0 => 2
  | _, _ => 0

/-- The type code of a page index (spec/16 Table 16-1); 0 for an unassigned index. -/
def pageType (page : Nat) : Nat :=
  if page = 0 then 1
  else if page ≤ 0x70 then 2
  else if 0x80 ≤ page && page ≤ 0x85 then 3
  else if page = 0x88 then 4
  else if page = 0x90 || page = 0x91 then 5
  else if page = 0xA0 then 6
  else if page = 0xA8 || page = 0xA9 then 7
  else if page = 0xB0 then 8
  else if page = 0xC0 then 9
  else if page = 0xC1 then 10
  else if page = 0xC2 then 11
  else if page = 0xC3 then 12
  else if page = 0xC4 then 13
  else if page = 0xC5 then 14
  else 0

/-- PART.ERR_STATUS[0] EVENT_LOST: a BLOCK_ERROR goes to the management endpoints that have room, and is never itself counted as lost (spec/12 R443, spec/16 R542, notes/assumptions/11.md). -/
def State.lostError (s : State) : State :=
  let d := s.lead
  let h := s.hdr d 0xC3
  let s1 := s.setHdr d 0xC3 { h with errStatus := setBit h.errStatus 0 true, errCount := satInc h.errCount }
  let s2 := if h.errMask.getLsbD 0 then s1 else s1.rasReport 0
  if h.intEnable.getLsbD 0 && !h.intStatus.getLsbD 0 then
    let s3 := s2.each (List.range 8) (fun s e =>
      let x := s.ep e
      if x.mgmt && x.enable && s.linkUp && x.events < 256 then
        s.pushEvent e 15 0x40 d (leBytes 4 (blockAddr d 0xC3) ++ leBytes 4 (s.hdr d 0xC3).errStatus.toNat)
      else s)
    let g := s3.hdr d 0xC3
    s3.setHdr d 0xC3 { g with intStatus := setBit g.intStatus 0 true }
  else s2

/-- Send an event to an endpoint: dropped and counted with 256 undelivered, preceded by EVENT_LOST after a loss (spec/12 R443). Nothing is sent while no module is up (notes/assumptions/11.md). -/
def State.event (s : State) (e part code die : Nat) (pl : List Byte) : State :=
  let x := s.ep e
  if !(x.enable && s.linkUp) then s
  else if 256 ≤ x.events then
    (s.setEp e { x with lostNow := x.lostNow + 1, lostCount := bump x.lostCount }).lostError
  else if x.lostNow = 0 then s.pushEvent e part code die pl
  else
    let s1 := (s.setEp e { x with lostNow := 0 }).pushEvent e 15 0xFF 0xFF (leBytes 4 x.lostNow)
    if 256 ≤ (s1.ep e).events then
      let y := s1.ep e
      (s1.setEp e { y with lostNow := 1, lostCount := bump y.lostCount }).lostError
    else s1.pushEvent e part code die pl

/-- Send a device event to every enabled management endpoint (spec/12 R443). -/
def State.eventMgmt (s : State) (code die : Nat) (pl : List Byte) : State :=
  s.each (List.range 8) (fun s e => if (s.ep e).mgmt then s.event e 15 code die pl else s)
/-- Send an event about partition p to its bound endpoint (spec/12 R443). -/
def State.eventOwner (s : State) (p code die : Nat) (pl : List Byte) : State :=
  match (s.part p).owner with
  | some e => s.event e p code die pl
  | none => s

/-- The BLOCK_ERROR event of a page (spec/12 Table 12-13). -/
def State.blockError (s : State) (die page : Nat) : State :=
  s.eventMgmt 0x40 die (leBytes 4 (blockAddr die page) ++ leBytes 4 (s.hdr die page).errStatus.toNat)

/-- Set an ERR_STATUS bit: the count rises, the RAS page hears of it unless the bit is masked, and BLOCK_ERROR is sent once per INT_STATUS bit while enabled (spec/14 R486, spec/16 R541, R542). -/
def State.raise (s : State) (die page bit : Nat) : State :=
  let h := s.hdr die page
  let s1 := (s.setHdr die page { h with errStatus := setBit h.errStatus bit true, errCount := satInc h.errCount }).siteErr die page
  let s2 := if h.errMask.getLsbD bit then s1 else s1.rasReport (errClass (pageType page) bit)
  if h.intEnable.getLsbD bit && !h.intStatus.getLsbD bit then
    let s3 := s2.blockError die page
    let g := s3.hdr die page
    s3.setHdr die page { g with intStatus := setBit g.intStatus bit true }
  else s2

/-- Bytes of credit a command uses (spec/12 R417). -/
def GwyPkt.cost (c : GwyPkt) : Nat := 32 + c.payload.length
/-- Answer a command: the response carries its opcode, partition, sequence and tag; over I3C it waits for the next private read and raises the in-band interrupt (spec/12 R411, R414, spec/17 R556). -/
def State.respond (s : State) (c : GwyPkt) (st det arg0 arg1 : Nat) (pl : List Byte) : State :=
  let b := gwyBytes c.opcode (c.part * 16 + 1) c.seq.toNat c.tag.toNat st det arg0 arg1 pl
  if c.src = 8 then { s with i3c := { s.i3c with response := some b, outstanding := false, ibi := true } }
  else s.pushRx c.src false b (if st = 7 then none else some (c.part, c.cost))

/-- LINK_RESET sets on an endpoint, with its interrupt (spec/12 R409). -/
def State.linkReset (s : State) (e : Nat) : State :=
  let x := s.ep e
  let s1 := s.setEp e { x with linkReset := true }
  if x.intLink && !x.linkReset then s1.msi x else s1

end Sys2Proof.Machine
end

