-- ==== Sys2Proof/Machine/Crypto.lean ====
section
/-! DEFINITION. SHA-512 and the verification of ECDSA signatures on P-521, from the standards spec/00 Table 0-3 names (PRESUMED, notes/assumptions/20.md); key fields, key ids and signature blocks (spec/13 R452, R458). -/

namespace Sys2Proof.Machine

/-! ## SHA-512 (FIPS 180-4) -/

/-- 2 to the 64. -/
def m64 : Nat := 2 ^ 64
/-- The words of 64 bits that a number holds, most significant first. -/
def words64 : Nat → Nat → List Nat
  | 0, _ => []
  | n + 1, x => x >>> (64 * n) % m64 :: words64 n x
/-- A quarter of the round constants in one number: the first 64 fraction bits of the cube roots of primes 1 to 20. -/
def cubeRoots0 : Nat :=
  0x428a2f98d728ae227137449123ef65cdb5c0fbcfec4d3b2fe9b5dba58189dbbc3956c25bf348b53859f111f1b605d019923f82a4af194f9bab1c5ed5da6d8118d807aa98a303024212835b0145706fbe243185be4ee4b28c550c7dc3d5ffb4e272be5d74f27b896f80deb1fe3b1696b19bdc06a725c71235c19bf174cf692694e49b69c19ef14ad2efbe4786384f25e30fc19dc68b8cd5b5240ca1cc77ac9c65
/-- A quarter of the round constants in one number: the first 64 fraction bits of the cube roots of primes 21 to 40. -/
def cubeRoots1 : Nat :=
  0x2de92c6f592b02754a7484aa6ea6e4835cb0a9dcbd41fbd476f988da831153b5983e5152ee66dfaba831c66d2db43210b00327c898fb213fbf597fc7beef0ee4c6e00bf33da88fc2d5a79147930aa72506ca6351e003826f142929670a0e6e7027b70a8546d22ffc2e1b21385c26c9264d2c6dfc5ac42aed53380d139d95b3df650a73548baf63de766a0abb3c77b2a881c2c92e47edaee692722c851482353b
/-- A quarter of the round constants in one number: the first 64 fraction bits of the cube roots of primes 41 to 60. -/
def cubeRoots2 : Nat :=
  0xa2bfe8a14cf10364a81a664bbc423001c24b8b70d0f89791c76c51a30654be30d192e819d6ef5218d69906245565a910f40e35855771202a106aa07032bbd1b819a4c116b8d2d0c81e376c085141ab532748774cdf8eeb9934b0bcb5e19b48a8391c0cb3c5c95a634ed8aa4ae3418acb5b9cca4f7763e373682e6ff3d6b2b8a3748f82ee5defb2fc78a5636f43172f6084c87814a1f0ab728cc702081a6439ec
/-- A quarter of the round constants in one number: the first 64 fraction bits of the cube roots of primes 61 to 80. -/
def cubeRoots3 : Nat :=
  0x90befffa23631e28a4506cebde82bde9bef9a3f7b2c67915c67178f2e372532bca273eceea26619cd186b8c721c0c207eada7dd6cde0eb1ef57d4f7fee6ed17806f067aa72176fba0a637dc5a2c898a6113f9804bef90dae1b710b35131c471b28db77f523047d8432caab7b40c724933c9ebe0a15c9bebc431d67c49c100d4c4cc5d4becb3e42b6597f299cfc657e2a5fcb6fab3ad6faec6c44198c4a475817
/-- The 80 round constants, in order. -/
def roundConstants : List Nat := [cubeRoots0, cubeRoots1, cubeRoots2, cubeRoots3].flatMap (words64 20)
/-- The first hash value: the first 64 fraction bits of the square roots of the first eight primes. -/
def squareRoots : Nat :=
  0x6a09e667f3bcc908bb67ae8584caa73b3c6ef372fe94f82ba54ff53a5f1d36f1510e527fade682d19b05688c2b3e6c1f1f83d9abfb41bd6b5be0cd19137e2179
/-- A word turned right by n bits. -/
def turn (n x : Nat) : Nat := x / 2 ^ n + x % 2 ^ n * 2 ^ (64 - n)
/-- The exclusive or of a word turned by three distances. -/
def turns (i j k x : Nat) : Nat := turn i x ^^^ turn j x ^^^ turn k x
/-- The schedule of a block, its latest word first, with n words still to come; each is the sum of the words 2, 7, 15 and 16 before it, two of them mixed. -/
def extend : Nat → List Nat → List Nat
  | 0, l => l
  | n + 1, l =>
    let two := l.getD 1 0
    let fifteen := l.getD 14 0
    let mixed := (turn 19 two ^^^ turn 61 two ^^^ two / 64) + (turn 1 fifteen ^^^ turn 8 fifteen ^^^ fifteen / 128)
    extend n ((mixed + l.getD 6 0 + l.getD 15 0) % m64 :: l)
/-- A round on the eight working words, with the sum of its constant and its schedule word. -/
def mixRound : List Nat → Nat → List Nat
  | [a, b, c, d, e, f, g, h], k =>
    let choice := (e &&& f) ||| ((m64 - 1 - e) &&& g)
    let majority := (a &&& (b ||| c)) ||| (b &&& c)
    let new := h + turns 14 18 41 e + choice + k
    [(new + turns 28 34 39 a + majority) % m64, a, b, c, (d + new) % m64, e, f, g]
  | l, _ => l
/-- A hash value after a block of 128 bytes. -/
def absorb (hash : List Nat) (block : List Byte) : List Nat :=
  let schedule := (extend 64 (words64 16 (ofBe block)).reverse).reverse
  let out := (List.zipWith (fun k w => k + w) roundConstants schedule).foldl mixRound hash
  List.zipWith (fun x y => (x + y) % m64) hash out
/-- A hash value after n blocks. -/
def absorbAll : Nat → List Nat → List Byte → List Nat
  | 0, hash, _ => hash
  | n + 1, hash, l => absorbAll n (absorb hash (l.take 128)) (l.drop 128)
/-- SHA-512 of a message. -/
def sha512 (l : List Byte) : List Byte :=
  let fill := (239 - l.length % 128) % 128
  let padded := l ++ 0x80#8 :: (zeros fill ++ beBytes 16 (8 * l.length))
  (absorbAll (padded.length / 128) (words64 8 squareRoots) padded).flatMap (beBytes 8)

/-! ## ECDSA on P-521 (FIPS 186-5) -/

/-- The field prime, 2 to the 521 less 1. -/
def p521 : Nat := 2 ^ 521 - 1
/-- The order of the group. -/
def n521 : Nat := 0x01fffffffffffffffffffffffffffffffffffffffffffffffffffffffffffffffffa51868783bf2f966b7fcc0148f709a5d03bb5c9b8899c47aebb6fb71e91386409
/-- The curve's coefficient b. -/
def b521 : Nat := 0x0051953eb9618e1c9a1f929a21a0b68540eea2da725b99b315f3b8b489918ef109e156193951ec7e937b1652c0bd3bb1bf073573df883d2c34f1ef451fd46b503f00
/-- The base point's x. -/
def gx521 : Nat := 0x00c6858e06b70404e9cd9e3ecb662395b4429c648139053fb521f828af606b4d3dbaa14b5e77efe75928fe1dc127a2ffa8de3348b3c1856a429bf97e7e31c2e5bd66
/-- The base point's y. -/
def gy521 : Nat := 0x011839296a789a3bc0045c8a5fb42c7d1bd998f54449579b446817afbd17273e662c97ee72995ef42640c550b9013fad0761353c7086a272c24088be94769fd16650

/-- x to the e modulo m, by e's low bits. -/
def powMod (m : Nat) : Nat → Nat → Nat → Nat
  | 0, _, _ => 1 % m
  | n + 1, x, e => let r := powMod m n (x * x % m) (e / 2); if e % 2 = 1 then r * x % m else r
/-- The inverse modulo a prime of at most 521 bits. -/
def invMod (m x : Nat) : Nat := powMod m 521 (x % m) (m - 2)

/-- A point in Jacobian coordinates; z is 0 at infinity. -/
structure Jac where
  x : Nat
  y : Nat
  z : Nat
/-- Subtraction in the field. -/
def subP (a b : Nat) : Nat := (a + p521 - b % p521) % p521
/-- Twice a point. -/
def Jac.dbl (q : Jac) : Jac :=
  let d := q.z * q.z % p521
  let g := q.y * q.y % p521
  let b := q.x * g % p521
  let a := 3 * (subP q.x d * ((q.x + d) % p521) % p521) % p521
  let x := subP (a * a) (8 * b)
  let z := subP (subP ((q.y + q.z) * (q.y + q.z)) g) d
  { x := x, y := subP (a * subP (4 * b) x) (8 * (g * g)), z := z }
/-- The sum of two points. -/
def Jac.plus (p q : Jac) : Jac :=
  if p.z = 0 then q else if q.z = 0 then p
  else
    let zp := p.z * p.z % p521
    let zq := q.z * q.z % p521
    let u1 := p.x * zq % p521
    let u2 := q.x * zp % p521
    let s1 := p.y * q.z % p521 * zq % p521
    let s2 := q.y * p.z % p521 * zp % p521
    if u1 = u2 then (if s1 = s2 then p.dbl else { x := 1, y := 1, z := 0 })
    else
      let h := subP u2 u1
      let r := subP s2 s1
      let hh := h * h % p521
      let hhh := h * hh % p521
      let v := u1 * hh % p521
      let x := subP (subP (r * r) hhh) (2 * v)
      { x := x, y := subP (r * subP v x) (s1 * hhh), z := h * p.z % p521 * q.z % p521 }
/-- k times a point, by k's high bits first. -/
def Jac.times (q : Jac) (k : Nat) : Nat → Jac
  | 0 => { x := 1, y := 1, z := 0 }
  | n + 1 => let r := (Jac.times q (k / 2) n).dbl; if k % 2 = 1 then r.plus q else r

/-- A public key field: 0x04, X and Y as 66-byte big-endian integers, three bytes of 0 (spec/13 R452). -/
def keyOk (f : List Byte) : Bool :=
  let x := beAt f 1 66
  let y := beAt f 67 66
  f.length == 136 && beAt f 0 1 == 4 && (f.drop 133).all (fun b => b == 0) && x < p521 && y < p521
    && y * y % p521 == (x * x % p521 * x + subP b521 (3 * x)) % p521
/-- A key id is the first 16 bytes of SHA-512 over the field (spec/13 R452). -/
def keyId (f : List Byte) : List Byte := (sha512 f).take 16
/-- A signature over a message verifies under a public key field: r and s as 66-byte big-endian integers (spec/13 R452). -/
def sigOk (f m sig : List Byte) : Bool :=
  let r := beAt sig 0 66
  let s := beAt sig 66 66
  if !(keyOk f) || r = 0 || s = 0 || n521 ≤ r || n521 ≤ s then false
  else
    let e := ofBe (sha512 m)
    let w := invMod n521 s
    let g : Jac := { x := gx521, y := gy521, z := 1 }
    let q : Jac := { x := beAt f 1 66, y := beAt f 67 66, z := 1 }
    let t := (g.times (e * w % n521) 521).plus (q.times (r * w % n521) 521)
    if t.z = 0 then false
    else
      let zi := invMod p521 t.z
      (t.x * zi % p521 * zi % p521) % n521 == r

/-! ## Signature blocks (spec/13 Table 13-5) -/

/-- The block's fixed fields hold: magic, zeros. -/
def blockOk (b : List Byte) : Bool :=
  b.length == 256 && b.take 4 == [0x53#8, 0x49#8, 0x47#8, 0x31#8] && beAt b 6 2 == 0 && (b.drop 220).all (fun x => x == 0)
/-- The signer kind. -/
def blockKind (b : List Byte) : Nat := beAt b 4 2
/-- The signer's key id. -/
def blockKey (b : List Byte) : List Byte := sliceB b 8 16
/-- The digest field. -/
def blockDigest (b : List Byte) : List Byte := sliceB b 24 64
/-- The block signs a message under a key: its key id, digest and signature all hold (spec/13 R458). `m` is the message before the block's first 24 bytes. -/
def blockSigns (b m key : List Byte) : Bool :=
  let msg := m ++ b.take 24
  blockOk b && blockKey b == keyId key && blockDigest b == sha512 msg && sigOk key msg (sliceB b 88 132)

end Sys2Proof.Machine
end

