-- ==== Sys2Proof/Machine/Keys.lean ====
section
/-! DEFINITION. Keys derived from the device unique secret, the firmware components and their measurements, certificates, and the keys that a shared secret gives (spec/13 R449 to R456, R460, R461). -/

namespace Sys2Proof.Machine

/-- The bytes of an ASCII text. -/
def ascii (t : String) : List Byte := t.toList.map (fun c => BitVec.ofNat 8 c.toNat)
/-- A list of bytes cut or filled with zeros to a length. -/
def padTo (n : Nat) (l : List Byte) : List Byte := (l ++ zeros n).take n

/-- The private key derived under a label (spec/13 R451). -/
def derivedKey (label : List Byte) : Nat :=
  let dus := beBytes 32 Config.dus.toNat
  let h := ofBe (sha512 (dus ++ label ++ [1#8]) ++ sha512 (dus ++ label ++ [2#8]))
  h % (n521 - 1) + 1
/-- The public key field of a private key (spec/13 R452). -/
def pubField (d : Nat) : List Byte :=
  let g : Jac := { x := gx521, y := gy521, z := 1 }
  let t := g.times d 521
  let zi := invMod p521 t.z
  [4#8] ++ beBytes 66 (t.x * zi % p521 * zi % p521) ++ beBytes 66 (t.y * zi % p521 * zi % p521 * zi % p521) ++ zeros 3
/-- The device identity key's public field (spec/13 Table 13-2). -/
def dikField : List Byte := pubField (derivedKey (ascii "IDENTITY"))

/-! ## Firmware slots (spec/13 R460, R461) -/

/-- A component's slots. -/
def State.comp (s : State) (c : Nat) : Comp := Tbl.get {} s.flash.comps c
/-- Replace a component's slots. -/
def State.setComp (s : State) (c : Nat) (x : Comp) : State := s.setFlash { s.flash with comps := s.flash.comps.put c x }
/-- The active slot, and the slot that is not active. -/
def Comp.active (x : Comp) : Slot := if x.activeB then x.b else x.a
def Comp.staged (x : Comp) : Slot := if x.activeB then x.a else x.b
/-- Replace the slot that is not active. -/
def Comp.setStaged (x : Comp) (y : Slot) : Comp := if x.activeB then { x with a := y } else { x with b := y }
/-- The body of the active package: the factory's until another has been activated. -/
def State.fwBody (s : State) (c : Nat) : List Byte :=
  let x := (s.comp c).active
  if x.factory then Config.factoryFirmware c else x.body
/-- A measurement is SHA-512 over the body of the active package (spec/13 R456). -/
def State.measure (s : State) (c : Nat) : List Byte := sha512 (s.fwBody c)
/-- The alias key's public field (spec/13 Table 13-2, R451). -/
def State.aliasField (s : State) : List Byte := pubField (derivedKey (ascii "ALIAS" ++ s.measure 1))

/-! ## Certificates (spec/13 R455) -/

/-- A certificate's first 380 bytes (spec/13 Table 13-3). -/
def State.certBody (s : State) (kind used : Nat) (issuer subject aliasKey : List Byte) (secver : Nat) : List Byte :=
  [0x41#8, 0x5A#8, 0x43#8, 0x54#8] ++ beBytes 1 kind ++ zeros 3 ++ beBytes 16 s.fuses.serial.toNat ++ padTo 16 (ascii s.variant.order)
    ++ beBytes 4 ((if s.variant.isM then 2 else 1) + 256 * s.variant.devices) ++ beBytes 4 used ++ padTo 16 issuer ++ padTo 136 subject ++ padTo 64 aliasKey
    ++ beBytes 4 secver ++ zeros 112
/-- A certificate issued by the device: its signature is a free value of its body (notes/assumptions/41.md). -/
def ownSigned (b : List Byte) : List Byte := b ++ beBytes 132 (Config.signature (2 ^ 64 + ofBe b)).toNat
/-- The certificate or audit record of an index; none for any other index (spec/13 R455; an owner's certificate exists once an owner is set, an unwritten record reads 0: notes/assumptions/41.md). -/
def State.certificate (s : State) (i : Nat) : Option (List Byte) :=
  if i = 0 then some (s.certBody 1 0 (beBytes 16 Config.mfgCaKeyId.toNat) dikField [] 0 ++ beBytes 132 Config.identitySignature.toNat)
  else if i = 1 then some (ownSigned (s.certBody 2 s.flash.aliasOwner (keyId dikField) s.aliasField (s.measure 1) (s.comp 1).active.secver))
  else if i = 2 then s.flash.owner.map (fun k => ownSigned (s.certBody 3 s.fuses.ownerUsed (keyId dikField) k [] 0))
  else if 0x1000 ≤ i && i < 0x1100 then some (Tbl.get (zeros 256) s.flash.audit (i - 0x1000))
  else none

/-! ## Key agreement (spec/13 R453, R454) -/

/-- A GCM key and its salt: bytes 0-31 and 32-35 of a hash (spec/13 R453). -/
def gcmKey (k : List Byte) : BitVec 256 × Word := (BitVec.ofNat 256 (beAt k 0 32), BitVec.ofNat 32 (beAt k 32 4))
/-- The key and salt of one direction of a mesh link: SHA-512 over the shared secret, "LINK", the sender's serial and the receiver's (spec/13 R453). -/
def linkKey (z : BitVec 528) (sender receiver : BitVec 128) : BitVec 256 × Word :=
  gcmKey (sha512 (beBytes 66 z.toNat ++ ascii "LINK" ++ beBytes 16 sender.toNat ++ beBytes 16 receiver.toNat))
/-- The key and salt of OED traffic from one partition endpoint to another: SHA-512 over the session secret, "OED", the sender's and the receiver's address and both claim nonces (spec/13 R454). -/
def oedTrafficKey (z : BitVec 528) (sender receiver : BitVec 128) (mine yours : BitVec 128) : BitVec 256 × Word :=
  gcmKey (sha512 (beBytes 66 z.toNat ++ ascii "OED" ++ beBytes 16 sender.toNat ++ beBytes 16 receiver.toNat ++ beBytes 16 mine.toNat ++ beBytes 16 yours.toNat))
/-- The claim nonce of the n-th claim: 128 random bits (spec/13 Table 13-2). -/
def claimNonce (n : Nat) : BitVec 128 := (Config.random (3 * n + 2)).setWidth 128
/-- The public field of the n-th ephemeral key pair that the device makes (spec/13 R453). -/
def ephemeralField (n : Nat) : List Byte := pubField ((Config.ephemeral n).toNat % (n521 - 1) + 1)
/-- The payload of the device's n-th packet of a key exchange: its identity certificate, its alias certificate, an ephemeral public key, and zeros in place of the signature while the peer's ephemeral key is not known (spec/13 R453 in the order listed; DESIGN CHOICE, notes/assumptions/17.md). -/
def State.keyPayload (s : State) (n : Nat) : List Byte :=
  (s.certificate 0).getD [] ++ (s.certificate 1).getD [] ++ ephemeralField n ++ zeros 132

end Sys2Proof.Machine
end

