-- ==== Sys2Proof/Machine/Router.lean ====
section
/-! DEFINITION. The serac router's shared operations: addresses, routing, queues and flow control, discards, ports going up and down, EPOCH notices (spec/09). -/

namespace Sys2Proof.Machine

/-! ## Addresses and ports -/

/-- The interface identifier of an endpoint (spec/09 Table 9-1). -/
def ifId (c : Nat × Nat × Nat) (mgmt : Bool) (part : Nat) : Nat :=
  2 ^ 16 * c.1 + 2 ^ 10 * c.2.1 + c.2.2 * 16 + b2n mgmt * 8 + part
/-- A device address: the prefix and the identifier (spec/09 R266). -/
def State.addr (s : State) (c : Nat × Nat × Nat) (mgmt : Bool) (part : Nat) : BitVec 128 :=
  BitVec.ofNat 128 (2 ^ 64 * s.router.pfx.toNat + ifId c mgmt part)
/-- The identifier half of an address. -/
def idOf (a : BitVec 128) : Nat := bitsOf a.toNat 0 64
/-- The prefix half of an address. -/
def prefixOf (a : BitVec 128) : Nat := bitsOf a.toNat 64 64
/-- The coordinate of an identifier. -/
def idCoord (i : Nat) : Nat × Nat × Nat := (bitsOf i 16 6, bitsOf i 10 6, bitsOf i 4 6)
/-- The MGMT bit of an identifier. -/
def idMgmt (i : Nat) : Bool := bitOf i 3
/-- The PART field of an identifier. -/
def idPart (i : Nat) : Nat := bitsOf i 0 3
/-- A coordinate component by axis. -/
def coordAt (c : Nat × Nat × Nat) (a : Nat) : Nat := if a = 0 then c.1 else if a = 1 then c.2.1 else c.2.2

/-- The neighbour port of an axis toward POS or NEG (spec/09 R269). -/
def nearPort (a : Nat) (pos : Bool) : Nat := 4 * a + b2n pos
/-- The express port of an axis toward POS or NEG (spec/09 R269). -/
def farPort (a : Nat) (pos : Bool) : Nat := 4 * a + 2 + b2n pos
/-- The opposite port of the same axis: NEG with POS, XNEG with XPOS (spec/09 R306). -/
def opposite (k : Nat) : Nat := if k % 2 = 0 then k + 1 else k - 1
/-- The die whose chiplets carry an axis: OEX and OEY on die 0, OEZ on die 1 (spec/16 Table 16-1). -/
def axisDie (a : Nat) : Nat := if a < 2 then 0 else 1

/-- The distance a port reaches, none for an express port under the reserved EXPRESS_D code (spec/09 R265, R269). -/
def State.reach (s : State) (k : Nat) : Option Nat := if k % 4 < 2 then some 1 else s.express
/-- The coordinate port k expects of its peer; none when it lies outside 0-63: the port is uncabled (spec/09 R269). -/
def State.peer (s : State) (k : Nat) : Option (Nat × Nat × Nat) :=
  match s.reach k with
  | none => none
  | some d =>
    let c := s.coord
    let a := k / 4
    let v := coordAt c a
    let w := if k % 2 = 1 then v + d else v - d
    if (k % 2 = 0 && v < d) || 63 < w then none
    else if a = 0 then some (w, c.2.1, c.2.2) else if a = 1 then some (c.1, w, c.2.2) else some (c.1, c.2.1, w)
/-- A port is cabled when its peer coordinate exists (spec/09 R269); a device whose coordinate is invalid brings every port up that has a distance (spec/09 R264, R265; DEDUCED, notes/assumptions/120.md). -/
def State.cabled (s : State) (k : Nat) : Bool := if s.locValid then (s.peer k).isSome else (s.reach k).isSome

/-- The features the device announces: express, adaptive, add in passing while an add unit is in service, mirroring, time transfer (spec/09 Table 9-11, spec/10 R340). -/
def State.features (s : State) : Nat :=
  b2n s.express.isSome + 2 + b2n (s.router.addIn != 0) * 4 + 8 + 16

/-- The device is the time root (spec/15 R515). -/
def State.isRoot (s : State) : Bool := s.time.root.toNat == packCoord s.coord

/-! ## Lit slots (spec/11 R362, R370, R371) -/

/-- The slots of mesh port k on its chiplet: bits 8 lambda + j for its two fibres 2d and 2d + 1 (spec/09 R269, spec/11 R369). -/
def portSlots (k : Nat) : DWord :=
  BitVec.ofNat 64 (packBits 64 (fun i => i % 8 == 2 * (k % 4) || i % 8 == 2 * (k % 4) + 1))
/-- The installation plan of a mesh chiplet: every slot of every cabled port (spec/11 R370). -/
def State.installMask (s : State) (c : Nat) : DWord :=
  [0, 1, 2, 3].foldl (fun m d => if s.cabled (4 * c + d) then m ||| portSlots (4 * c + d) else m) 0
/-- The laser that feeds a wavelength; 15 for a retired one (spec/11 Table 11-10). -/
def Chip.feeds (x : Chip) (w : Nat) : Nat := Tbl.get w x.wlLaser w
/-- The state of a laser: L0-L7 start ACTIVE, L8-L11 SPARE (spec/11 R361). -/
def Chip.laser (x : Chip) (l : Nat) : Nat := Tbl.get (if l < 8 then 0 else 1) x.laserState l
/-- The state of a wavelength (spec/11 Table 11-6). -/
def Chip.wl (x : Chip) (w : Nat) : Nat := Tbl.get 0 x.wlState w
/-- A wavelength is dark: RETIRED, draining for a swap or a recalibration, or its laser has failed (spec/11 R371, R378). -/
def Chip.wlDark (x : Chip) (w : Nat) : Bool := 3 ≤ x.wl w || x.laser (x.feeds w) != 0
/-- The mask of a plan change. -/
def State.changeMask (s : State) (c : Nat) (e : PlanChange) : DWord := if e.install then s.installMask c else e.mask
/-- The slots a mask lights: dark on an uncabled port, on a dark wavelength, at a faulted ring, and while the light is at the dump port (spec/11 R371, R388). -/
def State.litOf (s : State) (c : Nat) (m : DWord) : DWord :=
  let x := s.chip c
  let dark := BitVec.ofNat 64 (packBits 64 (fun i => x.dump || x.wlDark (i / 8)))
  m &&& s.installMask c &&& ~~~ x.slotFault &&& ~~~ dark
/-- The plan mask in force on a mesh chiplet: the installation plan, or the mask of the plan (spec/11 R370). -/
def State.planMask (s : State) (c : Nat) : DWord := if (s.chip c).install then s.installMask c else (s.chip c).mask
/-- The mask the crossbars of a chiplet are set to: the new plan's between T_RES and T_RES + 2 microseconds, else that of the plan in force (spec/11 Table 11-5). -/
def State.crossMask (s : State) (c : Nat) : DWord :=
  match (s.chip c).next with
  | some e => s.changeMask c e
  | none => s.planMask c
/-- The fibres that crossbar w lights, lowest first: driver D(w, i) is connected to the i-th of them, and the drivers past the last are powered down (spec/11 R362). -/
def State.crossbar (s : State) (c w : Nat) : List Nat := (List.range 8).filter (fun j => (s.crossMask c).getLsbD (8 * w + j))
/-- A wavelength carries no light: it is RETIRED, or the laser that feeds it is not ACTIVE (spec/11 R371, R378). -/
def Chip.wlOut (x : Chip) (w : Nat) : Bool := x.wl w == 5 || x.laser (x.feeds w) != 0
/-- The slots of a mesh chiplet that send light: connected to a driver, cabled, with a ring and a laser that work, and not at the dump port. A slot that sends light and is not in its port's link is UNPLACED (spec/11 R362, R367, R371). -/
def State.glow (s : State) (c : Nat) : DWord :=
  let x := s.chip c
  s.installMask c &&& ~~~ x.slotFault
    &&& BitVec.ofNat 64 (packBits 64 (fun i => (s.crossbar c (i / 8)).contains (i % 8) && !x.dump && !x.wlOut (i / 8)))
/-- The lit slots of a mesh chiplet. -/
def State.lit (s : State) (c : Nat) : DWord := s.litOf c (s.planMask c)
/-- The lit slots of mesh port k. -/
def State.portLit (s : State) (k : Nat) : DWord := s.lit (k / 4) &&& portSlots k

/-! ## Discards -/

/-- Discard a packet with a reason of spec/09 Table 9-7, or 14 STALE and 15 COLL_REFUSED of spec/10 R360. ADDR is given for a prefix alone: every coordinate of an identifier lies in the mesh, and a packet that finds no way to it is NO_ROUTE under R288 and R313 (DEDUCED, notes/assumptions/121.md). -/
def State.discard (s : State) (code : Nat) : State :=
  s.setRouter { s.router with discards := s.router.discards.put code (bump (Tbl.get 0 s.router.discards code)) }

/-- The age rule: older than 50 microseconds (spec/09 R289); not applied before the device is aligned (spec/09 R310). -/
def State.tooOld (s : State) (p : MeshPkt) : Bool :=
  s.time.aligned && 50000 < (BitVec.truncate 32 s.now - p.birth).toNat

/-- The use of the bank a packet's EPOCH bit names. -/
def Router.use (r : Router) (e : Bool) : BankUse := if e then r.use1 else r.use0
/-- The bank a packet's EPOCH bit names. -/
def Router.bank (r : Router) (e : Bool) : RBank := if e then r.bank1 else r.bank0

/-! ## Routing (spec/09 R284 to R288, R313) -/

/-- A port is usable for a packet: its bank bit is set, it is UP and it holds a lane (spec/09 R284). While the dies are separated, a port of the other die is not usable (spec/09 R313). -/
def State.usable (s : State) (half : Nat) (e : Bool) (k : Nat) : Bool :=
  (s.router.bank e).usable.getLsbD k && (s.port k).st == .up && (s.port k).lanes != 0
    && (!s.ras.orphan || axisDie (k / 4) == half)

/-- Where a packet goes next. -/
inductive Route where
  | deliver
  | out (k : Nat) (p : MeshPkt)
  | drop (code : Nat)
  deriving DecidableEq, Repr

/-- The distance to go on an axis. -/
def State.togo (s : State) (p : MeshPkt) (a : Nat) : Int :=
  (coordAt (idCoord (idOf p.dst)) a : Int) - (coordAt s.coord a : Int)

/-- The axes still to go, in dimension order; a detoured packet takes DAXIS last, as R285 says. The example after R288 has a packet finish DAXIS first: the two disagree, and the model follows the rule (DESIGN CHOICE, notes/assumptions/119.md). -/
def State.axesToGo (s : State) (p : MeshPkt) : List Nat :=
  (if p.detour then [0, 1, 2].filter (fun a => a ≠ p.daxis) ++ [p.daxis] else [0, 1, 2]).filter
    (fun a => s.togo p a ≠ 0)

/-- Dimension order with its express ports and detours (spec/09 R285, R288). -/
def State.dimOrder (s : State) (half : Nat) (p : MeshPkt) : Route :=
  match s.axesToGo p with
  | [] => .deliver
  | a :: _ =>
    let pos := decide (0 < s.togo p a)
    if s.express.any (fun d => d ≤ (s.togo p a).natAbs) && s.usable half p.epoch (farPort a pos) then .out (farPort a pos) p
    else if s.usable half p.epoch (nearPort a pos) then .out (nearPort a pos) p
    else if p.detour then .drop 4
    else
      let b := (a + 1) % 3
      let q := { p with detour := true, daxis := a }
      let negFirst := (s.router.bank p.epoch).adapt.getLsbD 2
      if s.usable half p.epoch (nearPort b (!negFirst)) then .out (nearPort b (!negFirst)) q
      else if s.usable half p.epoch (nearPort b negFirst) then .out (nearPort b negFirst) q
      else .drop 4

/-- The bytes of a packet on a link: 98 and the payload, padded to units of 32 (spec/09 R270, R274). -/
def MeshPkt.size (p : MeshPkt) : Nat := (98 + p.payload.length + 31) / 32 * 32
/-- The bytes of a channel waiting at a port, both classes (spec/09 R286). -/
def State.backlog (s : State) (k ch : Nat) : Nat :=
  ((s.port k).queue.filter (fun q => q.p.ch == ch)).foldl (fun a q => a + q.p.size) 0

/-- The productive ports of an adaptive packet, lowest number first (spec/09 R286). -/
def State.productive (s : State) (half : Nat) (p : MeshPkt) : List Nat :=
  (List.range 12).filter (fun k =>
    let a := k / 4
    let r := s.togo p a
    let toward := if k % 2 = 1 then decide (0 < r) else decide (r < 0)
    toward && s.usable half p.epoch k && (k % 4 < 2 || s.express.any (fun d => d ≤ r.natAbs)))

/-- An adaptive packet: CH2 or CH3 with the bank's ADAPT bit, and ESC 0 (spec/09 R286; notes/assumptions/15.md). -/
def State.adaptive (s : State) (p : MeshPkt) : Bool :=
  !p.esc && ((p.ch == 2 && (s.router.bank p.epoch).adapt.getLsbD 0) || (p.ch == 3 && (s.router.bank p.epoch).adapt.getLsbD 1))

/-- The element with the least measure, the first of equals. -/
def leastBy (g : Nat → Nat) : List Nat → Option Nat
  | [] => none
  | a :: r => match leastBy g r with
    | none => some a
    | some b => if g b < g a then some b else some a

/-- Which way of a packet a router half of a die takes on: while the dies are separated the other die's half delivers nothing and neither leaves its die nor begins a detour (spec/09 R313). -/
def State.orphanGuard (s : State) (half : Nat) (p : MeshPkt) (r : Route) : Route :=
  if s.ras.orphan && half ≠ s.lead then
    match r with
    | .deliver => .drop 4
    | .out k q => if axisDie (k / 4) = half && q.detour = p.detour then .out k q else .drop 4
    | .drop c => .drop c
  else r
/-- The next hop of a packet in a router half (spec/09 R285, R286, R313). -/
def State.route (s : State) (half : Nat) (p : MeshPkt) : Route :=
  s.orphanGuard half p (if s.adaptive p then
      match leastBy (fun k => s.backlog k p.ch) (s.productive half p) with
      | some k => .out k p
      | none => s.dimOrder half p
    else s.dimOrder half p)

/-! ## Output ports (spec/09 R279, R282, R295, R308) -/

/-- A class of a channel is OFF at a port, or no FC block has been heard for 10 microseconds (spec/09 R295). -/
def Port.off (x : Port) (ch : Nat) (esc : Bool) : Bool := x.fcSilent || (if esc then x.offEsc else x.offMain).getLsbD ch
/-- The class a packet travels in: ESCAPE once it has entered the escape path or taken a detour (spec/09 R287, R288). -/
def MeshPkt.escClass (p : MeshPkt) : Bool := p.esc || p.detour
/-- The feature bit a packet type needs of its link (spec/09 R308). -/
def featureOf (typ : Nat) : Option Nat := if typ = 2 then some 2 else if typ = 6 then some 3 else if typ = 9 then some 4 else none

/-! ### The bytes on a link (spec/09 R267, R268, R270 to R272, R277 to R279) -/

/-- The device's mesh MAC: the fused base with its three low bits cleared (spec/09 R267). -/
def meshMac : BitVec 48 := Config.macFuse &&& ~~~ 7
/-- The flags of byte 7 of the Oxenambe header, and of a TAIL with its STOMP (spec/09 Tables 9-3, 9-5). -/
def MeshPkt.flags (p : MeshPkt) (stomp : Bool) : Nat := b2n p.last * 128 + b2n p.poison * 64 + b2n p.slow * 32 + b2n stomp * 16
/-- The Oxenambe header (spec/09 Table 9-3). -/
def MeshPkt.header (p : MeshPkt) : List Byte :=
  beBytes 1 (16 + 2 * p.ch + b2n p.epoch) ++ beBytes 1 (8 * p.typ + p.part) ++ beBytes 2 p.tag ++ beBytes 3 (64 * p.member + 16 * p.attempt)
    ++ beBytes 1 (p.flags false) ++ beBytes 4 p.dhash.toNat ++ beBytes 5 p.offset ++ beBytes 2 p.payload.length
    ++ beBytes 1 (b2n p.esc * 128 + b2n p.detour * 64 + 16 * p.daxis) ++ beBytes 4 p.step.toNat ++ beBytes 4 p.birth.toNat ++ zeros 4
/-- A packet's bytes, with two MAC addresses, the UDP port and the UDP checksum (spec/09 Table 9-2). -/
def MeshPkt.frame (p : MeshPkt) (dst src : BitVec 48) (udp sum : Nat) : List Byte :=
  let n := 40 + p.payload.length
  beBytes 6 dst.toNat ++ beBytes 6 src.toNat ++ beBytes 2 0x8100 ++ beBytes 2 (8192 * p.ch) ++ beBytes 2 0x86DD
    ++ beBytes 4 (6 * 2 ^ 28 + 32 * 2 ^ 20 * p.ch) ++ beBytes 2 n ++ beBytes 1 17 ++ beBytes 1 p.hop ++ beBytes 16 p.src.toNat
    ++ beBytes 16 p.dst.toNat ++ beBytes 2 udp ++ beBytes 2 udp ++ beBytes 2 n ++ beBytes 2 sum ++ p.header ++ p.payload
/-- A packet's bytes on mesh port k: both MAC addresses are this hop's, the checksum is 0, and zeros pad it to units of 32 (spec/09 R270, R271). -/
def State.linkBytes (s : State) (k : Nat) (p : MeshPkt) : List Byte :=
  p.frame (s.port k).peerMac meshMac s.router.udpPort.toNat 0 ++ zeros (p.size - (98 + p.payload.length))
/-- Bytes 0-15 of a packet's TAIL (spec/09 Table 9-5). -/
def MeshPkt.tailBytes (p : MeshPkt) (stomp : Bool) : List Byte :=
  beBytes 1 0xE1 ++ beBytes 1 (p.flags stomp) ++ beBytes 2 (p.size / 32) ++ zeros 12
/-- The IV of the next packet sent: the salt and the packet counter (spec/09 R279). -/
def Port.iv (x : Port) : BitVec 96 := x.txSalt ++ x.txCount

/-! ### The choice of the next packet (spec/09 R282, R283, spec/10 R355) -/

/-- The lanes of a port that stay under every plan change whose verdict result is held (spec/10 R355, spec/11 Table 11-5 step 1). -/
def State.stay (s : State) (k : Nat) : DWord :=
  (s.chip (k / 4)).prep.foldl (fun m e => m &&& s.changeMask (k / 4) e) (s.port k).lanes
/-- The token buckets of CH7 and CH0 filled up to now: 1 % of 12.5 GB/s for each lane is an eighth of a byte a nanosecond (spec/09 R282). -/
def Port.filled (x : Port) (now : DWord) : Port :=
  let add := (now - x.tokAt).toNat * ones 64 x.lanes.toNat
  { x with tok7 := min 65536 (x.tok7 + add), tok0 := min 65536 (x.tok0 + add), tokAt := now }
/-- The bucket of the packet's channel holds the packet. -/
def Port.hasTokens (x : Port) (p : MeshPkt) : Bool := if p.ch = 7 then decide (8 * p.size ≤ x.tok7) else if p.ch = 0 then decide (8 * p.size ≤ x.tok0) else true
/-- Take a packet's tokens. -/
def Port.spend (x : Port) (p : MeshPkt) : Port :=
  if p.ch = 7 then { x with tok7 := x.tok7 - 8 * p.size } else if p.ch = 0 then { x with tok0 := x.tok0 - 8 * p.size } else x
/-- A packet may start on a port: its class is ON, its channel has tokens, and a lane stays (spec/09 R282, R295, spec/10 R355). -/
def State.mayStart (s : State) (k : Nat) (p : MeshPkt) : Bool :=
  let x := s.port k
  s.stay k != 0 && !x.off p.ch p.escClass && (x.filled s.now).hasTokens p
/-- One turn of a weighted round robin over 0 to 7: the turn goes on while it lasts and its owner has a packet; else the next owner that has one begins its own. -/
def nextTurn (w : Nat → Nat) (has : Nat → Bool) (cur : Nat × Nat) : Nat × Nat :=
  if 0 < cur.2 && has cur.1 then (cur.1, cur.2 - 1)
  else match ((List.range 8).map (fun i => (cur.1 + 1 + i) % 8)).find? has with
    | some c => (c, w c - 1)
    | none => cur
/-- The partition that a waiting packet of this device belongs to; none for transit and for the management endpoint. -/
def Queued.owner (q : Queued) : Option Nat := if q.inp = 12 && !idMgmt (idOf q.p.src) then some (idPart (idOf q.p.src)) else none
/-- The next packet of a port, taken out of its queue: CH7, CH0, the ESCAPE class, then CH1-CH6 by weighted round robin; among this device's own packets of one channel the partitions take turns (spec/09 R282, R283; notes/assumptions/16.md). -/
def State.pick (s : State) (k : Nat) : Option (Queued × State) :=
  let x := s.port k
  let r := s.router
  let ok := fun (q : Queued) => s.mayStart k q.p
  let main := fun (c : Nat) (q : Queued) => ok q && !q.p.escClass && q.p.ch == c
  let wrr := nextTurn (fun c => bitsOf r.chWeight.toNat (4 * (c - 1)) 4) (fun c => 1 ≤ c && c ≤ 6 && x.queue.any (main c)) x.wrr
  let high := ([fun (q : Queued) => ok q && q.p.ch == 7, fun q => ok q && q.p.ch == 0, fun q => ok q && q.p.escClass]).find? (fun g => x.queue.any g)
  let g := high.getD (main wrr.1)
  match x.queue.find? g with
  | none => none
  | some q0 =>
    let mine := fun (p : Nat) (q : Queued) => g q && q.p.ch == q0.p.ch && q.owner == some p
    let turn := nextTurn (fun p => bitsOf r.partWeight.toNat (4 * p) 4) (fun p => x.queue.any (mine p)) (Tbl.get (7, 0) r.partTurn q0.p.ch)
    (takeFirst (if q0.owner.isSome then mine turn.1 else g) x.queue).map (fun y =>
      let s1 := s.setPort k { x with queue := y.2, wrr := if high.isNone then wrr else x.wrr }
      (y.1, if q0.owner.isSome then s1.setRouter { s1.router with partTurn := r.partTurn.put q0.p.ch turn } else s1))

/-- A packet leaves on a port: its tokens are taken, its blocks are striped on from the lane after the last one, and the GCM packet counter advances once per packet after keying (spec/09 R278, R279, R282). A packet's blocks are counted with its TAIL (DEDUCED, notes/assumptions/122.md). -/
def State.emit (s : State) (k : Nat) (p : MeshPkt) (stomp : Bool) : State :=
  let x := (s.port k).filled s.now
  let m := max 1 (ones 64 (s.stay k).toNat)
  let w : Wire := { bytes := s.linkBytes k p, lane := x.txLane % m, tail := p.tailBytes stomp,
                    cipher := if x.keyed then some (x.txKey, x.iv) else none }
  let s1 := s.setPort k { x.spend p with txCount := if x.keyed then bump x.txCount else x.txCount, txLane := (x.txLane + p.size / 32 + 1) % m }
  s1.setRouter { s1.router with sent := .packet k p stomp w :: s1.router.sent }

/-- A waiting packet is discarded; what still passes in of it is dropped with it (spec/09 R301). -/
def State.dropQueued (s : State) (q : Queued) (code : Nat) : State :=
  let s1 := s.discard code
  match (s1.port q.inp).passage with
  | .forwarded _ p => if q.inp < 12 && p == q.p then s1.setPort q.inp { s1.port q.inp with passage := .dropped } else s1
  | .none | .dropped | .here _ => s1

/-- Send the next packet of a port: discarded where it is too old or where an UP link lacks the feature its type needs (spec/09 R289, R308). -/
def State.drainOne (s : State) (k : Nat) : State :=
  match s.pick k with
  | none => s
  | some (q, s1) =>
    if s1.tooOld q.p then s1.dropQueued q 2
    else if (s1.port k).st == .up && (featureOf q.p.typ).any (fun b => !(s1.port k).feat.getLsbD b) then s1.dropQueued q 10
    else s1.emit k q.p q.stomp
/-- Send every waiting packet of a port that may start (spec/09 R282, R295). -/
def State.drain (s : State) (k : Nat) : State := s.each (List.range (s.port k).queue.length) (fun s _ => s.drainOne k)

/-- Put a packet in a port's queue, from which it leaves in its turn. -/
def State.enqueue (s : State) (inp k : Nat) (p : MeshPkt) (stomp : Bool) : State :=
  let x := s.port k
  (s.setPort k { x with queue := x.queue ++ [{ inp := inp, p := p, stomp := stomp }] }).drain k
/-- Hand a packet to a port: discarded where the link lacks the feature its type needs, or where the port carries only HELLO and management packets (spec/09 R295, R304, R307, R308). -/
def State.sendOn (s : State) (inp k : Nat) (p : MeshPkt) (stomp : Bool) : State :=
  let x := s.port k
  let control := p.typ == 10 || p.typ == 8
  match x.st with
  | .up => if (featureOf p.typ).any (fun b => !x.feat.getLsbD b) then s.discard 10 else s.enqueue inp k p stomp
  | .keying => if control then s.enqueue inp k p stomp else s.discard 11
  | .training => if p.typ == 10 then s.enqueue inp k p stomp else s
  | .qCable | .qVersion | .qLoc | .qExpress => if control then s.enqueue inp k p stomp else s.discard 11
  | .down | .uncabled => s

/-- The half of the router in which local endpoints inject: the lead die's (spec/09 R313). -/
def State.localHalf (s : State) : Nat := s.lead

/-- A packet whole at the device waits for its row (spec/09 R299). -/
def State.arrive (s : State) (port : Nat) (p : MeshPkt) (stomp : Bool) : State :=
  s.setRouter { s.router with inbox := s.router.inbox ++ [{ port := port, p := p, stomp := stomp }] }

/-- The UP port whose peer's management endpoint a packet is for. -/
def State.peerPort (s : State) (p : MeshPkt) : Option Nat :=
  (List.range 12).find? (fun k => (s.port k).st == .up && (s.peer k).any (fun c => p.dst == s.addr c true 0))
/-- A local endpoint hands a packet to the mesh: the head is stamped with SYSTIME and the source epoch (spec/09 R290, Table 9-3). With an invalid coordinate it is discarded with QUARANTINE (R264); before the device is aligned, so is every packet but a MGMT or TIME packet for the management endpoint at the other end of a link (R310). -/
def State.inject (s : State) (p : MeshPkt) (stomp : Bool) : State :=
  let q := { p with birth := BitVec.truncate 32 s.now, epoch := s.router.srcEpoch, hop := 255, esc := false, detour := false, daxis := 0 }
  if !s.locValid then s.discard 11
  else if !s.time.aligned then
    match s.peerPort q with
    | some k => if q.typ == 8 || q.typ == 9 then s.sendOn 12 k q stomp else s.discard 11
    | none => s.discard 11
  else match s.route s.localHalf q with
    | .deliver => s.arrive 12 q stomp
    | .out k r => s.sendOn 12 k r stomp
    | .drop c => s.discard c

/-! ## Flow control toward the peer (spec/09 R293, R294) -/

/-- Bytes of a channel and class that occupy the buffer of input port k: packets routed on but not sent, and packets held whole for the device. -/
def State.occupied (s : State) (k ch : Nat) (esc : Bool) : Nat :=
  let q := (List.range 12).foldl (fun a j =>
    a + ((s.port j).queue.filter (fun q => q.inp == k && q.p.ch == ch && q.p.escClass == esc)).foldl (fun a q => a + q.p.size) 0) 0
  q + (s.router.inbox.filter (fun i => i.port == k && i.p.ch == ch && i.p.escClass == esc)).foldl (fun a i => a + i.p.size) 0
/-- Shared bytes left: 384 KiB less what each class uses beyond its 8 KiB (spec/09 R293). -/
def State.sharedLeft (s : State) (k : Nat) : Nat :=
  393216 - (List.range 8).foldl (fun a c => a + (s.occupied k c false - 8192) + (s.occupied k c true - 8192)) 0
/-- H: the round trip times the lane count times 12.5 GB/s, plus 4,512 bytes (spec/09 R294). -/
def State.fcH (s : State) (k : Nat) : Nat := (s.port k).rtt.toNat * ones 64 (s.port k).lanes.toNat * 25 / 2 + 4512
/-- The new OFF bit of a channel and class, from the old one (spec/09 R294). -/
def State.offBit (s : State) (k ch : Nat) (esc old : Bool) : Bool :=
  if s.occupied k ch esc ≤ 8192 then false
  else if s.sharedLeft k < s.fcH k then true
  else if 2 * s.fcH k < s.sharedLeft k then false
  else old
/-- The OFF bits of a class of input port k. -/
def State.offBits (s : State) (k : Nat) (esc : Bool) (old : Byte) : Byte :=
  BitVec.ofNat 8 (packBits 8 (fun c => s.offBit k c esc (old.getLsbD c)))
/-- An FC block (spec/09 Table 9-5). -/
def fcBlock (main esc refresh : Byte) : List Byte := beBytes 1 0x4B ++ [main, esc, refresh] ++ zeros 28
/-- Send an FC block on a port; the refresh count rises by one a block (spec/09 R295, Table 9-5; notes/assumptions/16.md). -/
def State.sendFc (s : State) (k : Nat) : State :=
  let x := s.port k
  let m := s.offBits k false x.myMain
  let e := s.offBits k true x.myEsc
  let s1 := s.setPort k { x with myMain := m, myEsc := e, fcRefresh := x.fcRefresh + 1 }
  s1.setRouter { s1.router with sent := .fc k (fcBlock m e x.fcRefresh) :: s1.router.sent }
/-- Send an FC block if an OFF bit of input port k has changed (spec/09 R295). -/
def State.fcChanged (s : State) (k : Nat) : State :=
  let x := s.port k
  let live := match x.st with
    | .down | .uncabled | .training => false
    | .keying | .up | .qCable | .qVersion | .qLoc | .qExpress => decide (k < 12)
  if live && (s.offBits k false x.myMain != x.myMain || s.offBits k true x.myEsc != x.myEsc) then s.sendFc k else s
/-- Send an FC block on every port an OFF bit of which has changed, after waiting packets have left (spec/09 R295). -/
def State.fcSweep (s : State) : State := s.each (List.range 12) (fun s k => s.fcChanged k)

/-! ## EPOCH notices (spec/09 R290 to R292, R565) -/

/-- Write the inactive bank, when it is FREE, as a copy of the active one with the device's own port changes (spec/09 R291). -/
def Router.writeInactive (r : Router) : Router :=
  let src := if r.use0 = .active then r.bank0 else r.bank1
  let b := { src with usable := r.changes.foldl (fun u c => setBit u c.1 c.2) src.usable }
  if r.use0 = .active then (if r.use1 = .free then { r with bank1 := b } else r)
  else (if r.use0 = .free then { r with bank0 := b } else r)

/-- Join the pending switch or schedule the next one; answers the T_SW that applies (spec/09 R291, R292). -/
def Router.join (r : Router) (now : DWord) (own : List (Nat × Bool)) : Router × DWord :=
  let n := now.toNat
  if r.tsw ≠ 0 ∧ n + 5000 ≤ r.tsw.toNat then ({ r with changes := r.changes ++ own }.writeInactive, r.tsw)
  else if r.tsw ≠ 0 then
    let t := if r.tswNext ≠ 0 ∧ n + 5000 ≤ r.tswNext.toNat then r.tswNext
      else BitVec.ofNat 64 (max (n + 20000) (r.tsw.toNat + 51000))
    ({ r with tswNext := t, changesNext := r.changesNext ++ own }, t)
  else
    let t := BitVec.ofNat 64 (max (n + 20000) r.freeAt.toNat)
    ({ r with tsw := t, changes := r.changes ++ own }.writeInactive, t)

/-- The payload of an EPOCH notice (spec/09 Table 9-13). -/
def epochPayload (k : Nat) (up : Bool) (c : Nat × Nat × Nat) (seq : Word) (t : DWord) : List Byte :=
  beBytes 1 1 ++ beBytes 1 0 ++ beBytes 1 (k + 16 * b2n up) ++ beBytes 1 0 ++ beBytes 1 c.1 ++ beBytes 1 c.2.1
    ++ beBytes 1 c.2.2 ++ beBytes 1 0 ++ beBytes 4 seq.toNat ++ zeros 4 ++ beBytes 8 t.toNat ++ zeros 8
/-- A new EPOCH packet with a payload (spec/09 R565). -/
def State.epochPkt (s : State) (pl : List Byte) : MeshPkt :=
  { src := s.addr s.coord true 0, dst := BitVec.ofNat 128 (2 ^ 64 * s.router.pfx.toNat), ch := 0,
    epoch := s.router.srcEpoch, typ := 11, birth := BitVec.truncate 32 s.now, payload := pl }
/-- A mesh port is being drained: it carries only HELLO packets (spec/11 R389). -/
def State.drained (s : State) (k : Nat) : Bool := (s.chip (k / 4)).drain.getLsbD (k % 4)
/-- Send a notice on every UP port but one (spec/09 R291); a port being drained carries none (spec/11 R389). -/
def State.flood (s : State) (but : Nat) (pl : List Byte) : State :=
  s.each (List.range 12) (fun s k => if k ≠ but && (s.port k).st == .up && !s.drained k then s.sendOn 12 k (s.epochPkt pl) false else s)

/-- The die and page of a chiplet (spec/16 Table 16-1). -/
def chipPage (c : Nat) : Nat × Nat := (c / 2, 0xA8 + c % 2)
/-- A live update is replacing the sequencer of a chiplet: bring-up, HELLO handling, the origination of notices, laser state moves other than failure and recalibration are suspended (spec/14 R477). -/
def State.suspended (s : State) (c : Nat) : Bool := (s.hdr (chipPage c).1 (chipPage c).2).liveActive
/-- Flood the notice that port k has gone down or come up, and give the change to the switch it joins (spec/09 R291, R292). -/
def State.announce (s : State) (k : Nat) (up : Bool) : State :=
  let (r, t) := s.router.join s.now [(k, up)]
  let seq := r.originSeq
  let pl := epochPayload k up s.coord seq t
  let s1 := s.setRouter { r with originSeq := seq + 1, seen := (packCoord s.coord, seq.toNat) :: r.seen }
  let s2 := s1.setPort k { s1.port k with announced := up }
  s2.flood 12 pl
/-- A port has gone down or come up: the notice goes out, or waits until the chiplet's sequencer has been replaced (spec/09 R291, spec/14 R477). -/
def State.notice (s : State) (k : Nat) (up : Bool) : State :=
  if s.suspended (k / 4) then s.setPort k { s.port k with announced := !up } else s.announce k up

/-! ## Ports -/

/-- The code of a port state (spec/09 Table 9-12). -/
def PortSt.code : PortSt → Nat
  | .down => 0 | .training => 1 | .keying => 2 | .up => 3 | .qCable => 4 | .qVersion => 5 | .qLoc => 6 | .uncabled => 7 | .qExpress => 8

/-- The LINK_STATE event of a port (spec/12 Table 12-13). -/
def State.linkEvent (s : State) (k : Nat) : State :=
  let x := s.port k
  s.eventMgmt 0x20 (axisDie (k / 4)) (leBytes 1 k ++ leBytes 1 x.st.code ++ leBytes 3 x.peerCoord.toNat ++ leBytes 1 0)

/-- Raise a ROUTER error flag, which both dies' pages show (spec/09 R314). -/
def State.raiseRouter (s : State) (bit : Nat) : State := s.raise s.lead 0xA0 bit

/-- Move a port to a state and report it (spec/09 R304, Table 12-13). -/
def State.portTo (s : State) (k : Nat) (st : PortSt) : State :=
  let x := s.port k
  if x.st = st then s else (s.setPort k { x with st := st }).linkEvent k

/-- Link features in use: those both ends announce (spec/09 R308). -/
def State.linkFeat (s : State) (peer : Nat) : DWord := BitVec.ofNat 64 s.features &&& BitVec.ofNat 64 peer

/-- The packet that was passing in from port k goes on with a STOMP tail, now or when its turn comes (spec/09 Table 9-6 step 1). -/
def State.stompPassage (s : State) (k : Nat) : State :=
  let x := s.port k
  let s1 := s.setPort k { x with passage := .none }
  match x.passage with
  | .forwarded out p =>
    let y := s1.port out
    if y.queue.any (fun q => q.inp == k && q.p == p && !q.stomp) then
      s1.setPort out { y with queue := y.queue.map (fun q => if q.inp == k && q.p == p then { q with stomp := true } else q) }
    else s1.setRouter { s1.router with sent := .stompTail out p :: s1.router.sent }
  | .none | .dropped | .here _ => s1

/-- A port without link keys (spec/09 R279, spec/13 R449). -/
def Port.unkeyed (x : Port) : Port := { x with keyed := false, txKey := 0, txSalt := 0, txCount := 0, rxKey := 0, rxSalt := 0, rxCount := 0 }
/-- Take a port down: queued packets are discarded with LINK_DOWN, a packet in passage goes on with STOMP, keys are lost, and a DOWN notice is flooded if the port had been announced (spec/09 R291, R304, Table 9-6). -/
def State.takeDown (s : State) (k : Nat) (st : PortSt) : State :=
  let x := s.port k
  let s1 := s.stompPassage k
  let s2 := s1.each (s1.port k).queue (fun s q => s.dropQueued q 5)
  let y := (s2.port k).unkeyed
  let z := if st == .down then { y with rxPos := [], rxN := 0, syncErr := [] } else y
  let s3 := s2.setPort k { z with st := st, queue := [], passage := .none, tagFails := [], fcSilent := false, offMain := 0, offEsc := 0, myMain := 0, myEsc := 0 }
  let s4 := if x.st = .up then
      (s3.setRouter { s3.router with linkDown := bump s3.router.linkDown }).raiseRouter 1
    else s3
  let s5 := if x.st = st then s4 else s4.linkEvent k
  let s6 := if x.announced then s5.notice k false else s5
  s6.fcSweep

/-- A port's key exchange has succeeded: it is UP with fresh keys; the time root is aligned from its first UP port; an aligned device floods the UP notice unless the port is drained (spec/09 R304, R310, spec/11 R389). -/
def State.bringUp (s : State) (k : Nat) : State :=
  let x := s.port k
  let z := Config.sharedSecret s.fresh
  let tx := linkKey z s.fuses.serial x.peerSerial
  let rx := linkKey z x.peerSerial s.fuses.serial
  let s0 : State := { s.setPort k { x with keyed := true, txKey := tx.1, txSalt := tx.2, txCount := 0, rxKey := rx.1, rxSalt := rx.2, rxCount := 0 } with fresh := s.fresh + 1 }
  let s1 := s0.portTo k .up
  let s2 := { s1 with time := { s1.time with everUp := true, aligned := s1.time.aligned || s1.isRoot } }
  if s2.time.aligned && !s2.drained k then s2.notice k true else s2

/-- Flood UP notices for every UP port that has none, once the device is aligned (spec/09 R310). -/
def State.announceAll (s : State) : State :=
  s.each (List.range 12) (fun s k =>
    if (s.port k).st == .up && !(s.port k).announced && !s.drained k then s.notice k true else s)

/-! ## Frames of the OED ports (spec/09 R267, R271, spec/11 R380, R386, R389) -/

/-- The one's-complement sum of 16-bit words in network order. -/
def sum16 : List Byte → Nat
  | [] => 0
  | [a] => a.toNat * 256
  | a :: b :: r => a.toNat * 256 + b.toNat + sum16 r
/-- Fold the carries of a one's-complement sum. -/
def fold16 (n : Nat) : Nat := (n % 65536 + n / 65536) % 65536 + (n % 65536 + n / 65536) / 65536
/-- The one's-complement sum of a frame's UDP datagram over the IPv6 pseudo-header (RFC 768 and RFC 8200, PRESUMED, notes/assumptions/19.md). -/
def udpSum (l : List Byte) : Nat :=
  let n := beAt l 62 2
  fold16 (fold16 (sum16 (sliceB l 26 32) + n + 17 + sum16 (sliceB l 58 n)))
/-- The UDP checksum that a frame is sent with (spec/09 R271). -/
def udpCheck (l : List Byte) : Nat := if udpSum l = 0xFFFF then 0xFFFF else 0xFFFF - udpSum l
/-- The MAC address of OED port n: base + 4 + n (spec/09 R267). -/
def oedMac (n : Nat) : BitVec 48 := meshMac + BitVec.ofNat 48 (4 + n)
/-- A frame that is no Oxenambe packet: of its bytes the spec gives the source MAC and the tag with VID 0 (spec/11 Table 11-8). -/
def oedPlain (n : Nat) (b : OedBody) : OedFrame := { body := b, pcp := 0, bytes := beBytes 6 (oedMac n).toNat ++ beBytes 2 0x8100 ++ zeros 2 }
/-- The frame of an Oxenambe packet on OED port n, with a computed checksum (spec/09 R271, spec/11 Table 11-8). -/
def State.oedPacket (s : State) (n : Nat) (p : MeshPkt) : OedFrame :=
  let f := p.frame (Config.neighborMac p.dst) (oedMac n) s.router.udpPort.toNat
  { body := .packet p, pcp := p.ch, bytes := f (udpCheck (f 0)) }
/-- An OED port may start a frame of a priority: it is up, and the priority is not paused (spec/11 R380, R386). -/
def OedPort.mayStart (y : OedPort) (pcp : Nat) : Bool := (y.linkA || y.linkB) && !y.paused.getLsbD pcp
/-- Send every waiting frame of an OED port that may start. -/
def State.oedFlush (s : State) (n : Nat) : State :=
  let y := s.oedPort n
  let go := y.queue.filter (fun f => y.mayStart f.pcp)
  let s1 := s.setOedPort n { y with queue := y.queue.filter (fun f => !y.mayStart f.pcp) }
  { s1 with oed := { s1.oed with sent := (go.map (fun f => { port := n, frame := f })).reverse ++ s1.oed.sent } }
/-- Hand a frame to an OED port: a port being drained takes no new frame; else it leaves in its turn (spec/11 R389). -/
def State.oedSend (s : State) (n : Nat) (f : OedFrame) : State :=
  if (s.chip 3).drain.getLsbD n then s
  else
    let y := s.oedPort n
    (s.setOedPort n { y with queue := y.queue ++ [f] }).oedFlush n

end Sys2Proof.Machine
end

