-- ==== Sys2Proof/Machine/Mesh.lean ====
section
/-! DEFINITION. The mesh: arriving packets and tails, HELLO, EPOCH and MGMT packets, flow control, the timers of ports and banks, bring-up (spec/09, spec/11 R366 to R368, spec/13 R453). -/

namespace Sys2Proof.Machine

/-! ## The header of an arriving packet (spec/09 Tables 9-2, 9-3) -/

/-- The fields of a packet's bytes. -/
def readPkt (l : List Byte) : MeshPkt :=
  let m := beAt l 70 3
  let f := beAt l 73 1
  let g := beAt l 85 1
  { hop := beAt l 25 1, src := BitVec.ofNat 128 (beAt l 26 16), dst := BitVec.ofNat 128 (beAt l 42 16),
    ch := bitsOf (beAt l 66 1) 1 3, epoch := bitOf (beAt l 66 1) 0, typ := bitsOf (beAt l 67 1) 3 5, part := bitsOf (beAt l 67 1) 0 3,
    tag := beAt l 68 2, member := m / 64, attempt := bitsOf m 4 2, last := bitOf f 7, poison := bitOf f 6, slow := bitOf f 5,
    dhash := BitVec.ofNat 32 (beAt l 74 4), offset := beAt l 78 5, esc := bitOf g 7, detour := bitOf g 6, daxis := bitsOf g 4 2,
    step := BitVec.ofNat 32 (beAt l 86 4), birth := BitVec.ofNat 32 (beAt l 90 4), payload := sliceB l 98 (beAt l 83 2) }

/-- The channels a packet type may use (spec/09 Table 9-4). -/
def chanOk (typ ch : Nat) : Bool :=
  match typ with
  | 1 | 2 => ch == 1 || ch == 2
  | 3 => ch == 3
  | 4 => ch == 1
  | 5 => ch == 1 || ch == 2 || ch == 3
  | 6 => ch == 6
  | 7 => ch == 4 || ch == 5 || ch == 6
  | 8 | 10 | 11 => ch == 0
  | 9 => ch == 7
  | _ => false

/-- The length of the types whose packets end at this router (spec/09 R305, R565). -/
def lenOk (typ n : Nat) : Bool := if typ = 10 then n == 64 else if typ = 11 then n == 32 else n ≤ 4352

/-- Every field of the first 98 bytes with a fixed or a legal value has it (spec/09 R270, R272, R273, R297, spec/00 R11). What the payload holds is for the packet's endpoint to check. -/
def State.headerOk (s : State) (l : List Byte) : Bool :=
  let p := readPkt l
  let n := beAt l 83 2
  let udp := s.router.udpPort.toNat
  98 ≤ l.length
    && beAt l 12 2 == 0x8100 && beAt l 14 2 == 8192 * p.ch && beAt l 16 2 == 0x86DD
    && beAt l 18 4 == 6 * 2 ^ 28 + 32 * 2 ^ 20 * p.ch && beAt l 22 2 == 40 + n && beAt l 24 1 == 17
    && beAt l 58 2 == udp && beAt l 60 2 == udp && beAt l 62 2 == 40 + n && beAt l 64 2 == 0
    && bitsOf (beAt l 66 1) 4 4 == 1 && bitsOf (beAt l 70 3) 0 4 == 0 && bitsOf (beAt l 73 1) 0 5 == 0
    && bitsOf (beAt l 85 1) 0 4 == 0 && p.daxis != 3 && beAt l 94 4 == 0
    && chanOk p.typ p.ch && lenOk p.typ n
    && idOf p.dst / 2 ^ 22 == 0 && (!idMgmt (idOf p.dst) || idPart (idOf p.dst) == 0)
    && ((p.typ != 10 && p.typ != 11) || idOf p.dst == 0)

/-- The discard reason of an arriving header, in the order of spec/09 R297; none where it passes. The age and bank checks are not applied before the device is aligned (spec/09 R310). -/
def State.headerDrop (s : State) (l : List Byte) : Option Nat :=
  let p := readPkt l
  if !s.headerOk l then some 0
  else if p.hop ≤ 1 then some 1
  else if s.tooOld p then some 2
  else if s.time.aligned && s.router.use p.epoch == .free then some 3
  else if prefixOf p.dst ≠ s.router.pfx.toNat then some 8
  else if p.part ≠ idPart (idOf p.dst) then some 9
  else none

/-- A packet addressed to this device's management endpoint. -/
def State.forMgmt (s : State) (p : MeshPkt) : Bool := idOf p.dst == ifId s.coord true 0

/-- A MGMT packet from the management endpoint at the other end of link k to this device's (spec/09 R304, R310). -/
def State.fromPeer (s : State) (k : Nat) (p : MeshPkt) : Bool := p.typ == 8 && s.forMgmt p && (s.peer k).any (fun c => p.src == s.addr c true 0)
/-- Every lane position of the link is held by a supervised receive slot: the lanes are aligned and ordered (spec/09 R276). -/
def Port.isAligned (x : Port) : Bool := 0 < x.rxN && (List.range x.rxN).all (fun i => x.rxPos.any (fun e => e.2 == i))
/-- The port's state lets the packet in; otherwise the discard reason, or none for a packet that cannot be framed (spec/09 R304, R307, R310). -/
def State.admits (s : State) (k : Nat) (p : MeshPkt) : Except (Option Nat) Unit :=
  let x := s.port k
  match x.st with
  | .down | .uncabled => .error none
  | .training => if p.typ == 10 && x.isAligned then .ok () else .error none
  | .keying => if p.typ == 10 || s.fromPeer k p then .ok () else .error (some 11)
  | .qCable | .qVersion | .qLoc | .qExpress => if p.typ == 10 || (p.typ == 8 && s.forMgmt p) then .ok () else .error (some 11)
  | .up => if s.time.aligned || p.typ == 10 || s.fromPeer k p || (p.typ == 9 && s.forMgmt p) then .ok () else .error (some 11)

/-- A packet is refused by the link it is to leave on: the feature its type needs is not in use (spec/09 R308). -/
def State.linkRefuses (s : State) (k : Nat) (p : MeshPkt) : Bool :=
  (featureOf p.typ).any (fun b => !(s.port k).feat.getLsbD b)

/-- MESH_PACKET (spec/09 R297, R285): a header is checked and the packet routed on or kept for the device; its TAIL is still to come. The row's bytes are the packet's as they stood before it was sealed. -/
def execMeshPacket (port : Nat) (bytes : List Byte) (s : State) : Host.Outcome State Fault Refusal :=
  let x := { s.port port with blocks := bytes.length / 32 }
  let p := readPkt bytes
  if 12 ≤ port || x.passage != .none then .next s
  else match s.admits port p with
    | .error none => .next s
    | .error (some c) => .next ((s.discard c).setPort port { x with passage := .dropped })
    | .ok _ =>
      match s.headerDrop bytes with
      | some c => .next ((s.discard c).setPort port { x with passage := .dropped })
      | none =>
        let q := { p with hop := p.hop - 1 }
        if q.typ == 10 || q.typ == 11 then .next (s.setPort port { x with passage := .here q })
        else match s.route (axisDie (port / 4)) q with
          | .deliver => .next (s.setPort port { x with passage := .here q })
          | .drop c => .next ((s.discard c).setPort port { x with passage := .dropped })
          | .out k r =>
            if s.linkRefuses k r then .next ((s.discard 10).setPort port { x with passage := .dropped })
            else .next (((s.setPort port { x with passage := .forwarded k r }).sendOn port k r false).fcChanged port)

/-- A tag failure on port k: reported, and sixteen within 1 ms take the link down (spec/09 R280). -/
def State.tagFail (s : State) (k : Nat) : State :=
  let s1 := s.raiseRouter 0
  let x := s1.port k
  let l := s1.now :: x.tagFails.filter (fun t => s1.now.toNat - t.toNat < 1000000)
  let s2 := s1.setPort k { x with tagFails := l }
  if 16 ≤ l.length then s2.takeDown k .down else s2

/-- The packet that was routed on is stomped: one that still waits is dropped if its own bytes are bad, or marked if its TAIL already carried STOMP; one that has been forwarded is followed by a TAIL with STOMP (spec/09 R280, R298). -/
def State.stompOut (s : State) (inp out : Nat) (p : MeshPkt) (bad : Bool) : State :=
  let y := s.port out
  let mine := fun (q : Queued) => q.inp == inp && q.p == p && !q.stomp
  if y.queue.any mine then
    s.setPort out { y with queue := if bad then y.queue.filter (fun q => !mine q)
                                    else y.queue.map (fun q => if mine q then { q with stomp := true } else q) }
  else s.setRouter { s.router with sent := .stompTail out p :: s.router.sent }

/-- A NOTICE payload holds no reserved value: a reason for FAIL alone, and a byte total for the notices of a mirror transfer alone (spec/10 Table 10-4, R357). -/
def noticeOk (l : List Byte) : Bool :=
  let k := beAt l 0 1
  l.length == 32 && 1 ≤ k && k ≤ 6 && beAt l 1 1 ≤ 3 && (if k = 3 then 1 ≤ beAt l 2 1 && beAt l 2 1 ≤ 4 else beAt l 2 1 == 0) && beAt l 3 1 == 0
    && beAt l 4 4 < 2 ^ 18 && (beAt l 8 8 == 0 || k == 2 || k == 3 || k == 5) && beAt l 16 16 == 0
/-- A VERDICT payload holds no reserved value (spec/10 R351). -/
def verdictOk (l : List Byte) : Bool := l.length == 32 && beAt l 1 1 ≤ 2 && beAt l 2 2 == 0 && beAt l 20 12 == 0
/-- Where a packet for the device itself goes when its TAIL is good: discarded with LIFETIME, HEADER for a reserved value in a NOTICE or VERDICT payload, MGMT_DOWN or PART, or kept for its row (spec/09 R289, R300, R311, spec/00 R11). -/
def State.deliverTo (s : State) (k : Nat) (p : MeshPkt) (stomp : Bool) : State :=
  if s.tooOld p then s.discard 2
  else if (p.typ == 5 && !noticeOk p.payload) || (p.typ == 4 && !verdictOk p.payload) then s.discard 0
  else if p.typ == 10 || p.typ == 11 then s.arrive k p stomp
  else if idMgmt (idOf p.dst) then if s.rst.phase == .warm then s.discard 12 else s.arrive k p stomp
  else
    let st := (s.part p.part).st
    if st == .running || st == .paused then s.arrive k p stomp else s.discard 9

/-- A TAIL block without its tag: its type, no reserved flag, the count of the data blocks that came, zeros (spec/09 R277, Table 9-5). -/
def tailOk (blocks : Nat) (l : List Byte) : Bool :=
  16 ≤ l.length && beAt l 0 1 == 0xE1 && bitsOf (beAt l 1 1) 0 4 == 0 && beAt l 2 2 == blocks && beAt l 4 12 == 0
/-- The flags of a TAIL say STOMP. -/
def tailStomp (l : List Byte) : Bool := bitOf (beAt l 1 1) 4
/-- TAIL (spec/09 R280, R298, R299): the tag and STOMP of the packet passing in at a port. A packet whose TAIL holds a reserved value or another count of blocks is discarded with HEADER (spec/00 R11; DESIGN CHOICE, notes/assumptions/123.md). A packet is counted once: what was discarded already is not counted again. -/
def execTail (port : Nat) (block : List Byte) (tagOk : Bool) (s : State) : Host.Outcome State Fault Refusal :=
  let x := s.port port
  let ok := tailOk x.blocks block
  let stomp := tailStomp block
  let s1 := s.setPort port { x with passage := .none, blocks := 0, rxCount := if x.keyed then bump x.rxCount else x.rxCount }
  let fail := fun (s : State) => if tagOk then s.discard 0 else (s.discard 7).tagFail port
  match x.passage with
  | .none => .next s
  | .dropped => .next (if tagOk then s1 else s1.tagFail port)
  | .forwarded out p =>
    if tagOk && ok then .next (if stomp then s1.stompOut port out p false else s1)
    else .next (fail (s1.stompOut port out p true)).fcSweep
  | .here p =>
    if !(tagOk && ok) then .next (fail s1)
    else if stomp then .next (if p.typ == 1 || p.typ == 2 then (s1.deliverTo port p true).fcChanged port else s1.discard 6)
    else .next ((s1.deliverTo port p false).fcChanged port)

/-! ## The inbox -/

/-- Take the first waiting packet that satisfies a test of it and of the port it came on; its buffer space comes free (spec/09 R295, R299). -/
def State.takeArrived (s : State) (g : Arrived → Bool) : Option (Arrived × State) :=
  (takeFirst g s.router.inbox).map (fun x => (x.1, (s.setRouter { s.router with inbox := x.2 }).fcChanged x.1.port))
/-- Take the first waiting packet that satisfies a test. -/
def State.takePkt (s : State) (g : MeshPkt → Bool) : Option (Arrived × State) := s.takeArrived (fun a => g a.p)
/-- The sequencer that brings mesh port k up and handles its HELLOs is being replaced (spec/14 R477). -/
def State.portSuspended (s : State) (k : Nat) : Bool := k < 12 && s.suspended (k / 4)

/-- EJECT (spec/09 R300): a packet for a partition whose bytes cannot be written within 2 microseconds is discarded. -/
def execEject (s : State) : Host.Outcome State Fault Refusal :=
  match s.takePkt (fun p => !idMgmt (idOf p.dst) && p.typ != 10 && p.typ != 11) with
  | none => .next s
  | some (_, s1) => .next (s1.discard 13)

/-- LIFETIME (spec/09 R289): packets too old at the head of a queue, and at delivery, are discarded. -/
def execLifetime (s : State) : Host.Outcome State Fault Refusal :=
  let s1 := s.each (List.range 12) (fun s k =>
    match (s.port k).queue with
    | [] => s
    | q :: r => if s.tooOld q.p then (s.setPort k { s.port k with queue := r }).dropQueued q 2 else s)
  let old := s1.router.inbox.filter (fun a => s1.tooOld a.p)
  let s2 := s1.setRouter { s1.router with inbox := s1.router.inbox.filter (fun a => !s1.tooOld a.p) }
  .next (s2.each old (fun s _ => s.discard 2)).fcSweep

/-! ## HELLO (spec/09 R304 to R309) -/

/-- The payload of a HELLO on port k (spec/09 Table 9-11). -/
def State.helloPayload (s : State) (k : Nat) : List Byte :=
  beBytes 1 1 ++ beBytes 1 0 ++ beBytes 1 (k + 16 * s.straps.expr.toNat + 64 * b2n s.locValid) ++ beBytes 1 0
    ++ beBytes 1 s.coord.1 ++ beBytes 1 s.coord.2.1 ++ beBytes 1 s.coord.2.2 ++ beBytes 1 0
    ++ beBytes 16 s.fuses.serial.toNat ++ beBytes 8 s.features ++ beBytes 6 meshMac.toNat ++ zeros 2
    ++ beBytes 8 s.now.toNat ++ beBytes 8 (s.port k).peerHello.toNat ++ zeros 8

/-- A HELLO packet for port k (spec/09 R305). -/
def State.helloPkt (s : State) (k : Nat) : MeshPkt :=
  { src := s.addr s.coord true 0, dst := BitVec.ofNat 128 (2 ^ 64 * s.router.pfx.toNat), ch := 0, epoch := s.router.srcEpoch,
    typ := 10, birth := BitVec.truncate 32 s.now, payload := s.helloPayload k }

/-- HELLO_SEND (spec/09 R304, R309): clear while bring-up runs, encrypted while UP; suspended while an UP port holds no lanes (spec/11 R373) and while the sequencer is being replaced (spec/14 R477). -/
def execHelloSend (port : Nat) (s : State) : Host.Outcome State Fault Refusal :=
  let x := s.port port
  let go := match x.st with
    | .training => x.isAligned
    | .up => x.lanes != 0
    | .keying | .qCable | .qVersion | .qLoc | .qExpress => true
    | .down | .uncabled => false
  if port < 12 && go && !s.portSuspended port then .next (s.sendOn 12 port (s.helloPkt port) false) else .next s

/-- The outcome of the checks of spec/09 R306 on a HELLO received on port k: the state it puts the port in, or none where all pass. -/
def State.helloFails (s : State) (k : Nat) (l : List Byte) : Option PortSt :=
  let b := beAt l 2 1
  if !(s.locValid && bitOf b 6) then some .qLoc
  else if beAt l 0 1 ≠ 1 then some .qVersion
  else if bitsOf b 4 2 ≠ s.straps.expr.toNat then some .qExpress
  else if s.peer k ≠ some (beAt l 4 1, beAt l 5 1, beAt l 6 1) then some .qCable
  else if bitsOf b 0 4 ≠ opposite k then some .qCable
  else none

/-- The management packet of the key exchange that KEYING begins with (spec/13 R453). -/
def State.keyPkt (s : State) (k : Nat) : MeshPkt :=
  { src := s.addr s.coord true 0, dst := s.addr ((s.peer k).getD s.coord) true 0, ch := 0, epoch := s.router.srcEpoch, typ := 8,
    birth := BitVec.truncate 32 s.now, payload := s.keyPayload s.fresh }
/-- A key exchange begins on a port, with a fresh ephemeral key (spec/13 R453). -/
def State.sendKey (s : State) (k : Nat) : State := ({ s with fresh := s.fresh + 1 } : State).sendOn 12 k (s.keyPkt k) false

/-- A HELLO of protocol 1.0 holds no reserved value (spec/09 Table 9-11, spec/00 R11); those of another version are not this table's. -/
def helloOk (l : List Byte) : Bool :=
  beAt l 0 2 != 0x0100 || (bitOf (beAt l 2 1) 7 == false && beAt l 3 1 == 0 && beAt l 7 1 == 0 && beAt l 24 8 < 32 && beAt l 38 2 == 0 && beAt l 56 8 == 0)
/-- HELLO (spec/09 R305 to R309): one with a reserved value is discarded; else the peer's fields are shown; a failed check quarantines the port, and takes an UP port down with a notice; a passed check keys a training port and refreshes an UP one. One that waited while its port went down changes nothing. HELLOs wait while the port's sequencer is being replaced (spec/14 R477). -/
def execHello (s : State) : Host.Outcome State Fault Refusal :=
  match s.takeArrived (fun a => a.p.typ == 10 && !s.portSuspended a.port) with
  | none => .next s
  | some (a, s1) =>
    let k := a.port
    let l := a.p.payload
    let x := s1.port k
    let y := { x with peerCoord := BitVec.ofNat 24 (packCoord (beAt l 4 1, beAt l 5 1, beAt l 6 1)),
                      peerPort := BitVec.ofNat 4 (beAt l 2 1), peerProto := BitVec.ofNat 16 (beAt l 0 1 + 256 * beAt l 1 1),
                      peerMac := BitVec.ofNat 48 (beAt l 32 6), peerSerial := BitVec.ofNat 128 (beAt l 8 16),
                      lastHello := s1.now, peerHello := BitVec.ofNat 64 (beAt l 40 8) }
    let s2 := s1.setPort k y
    if x.st == .down || x.st == .uncabled then .next s1
    else if !helloOk l then .next (s1.discard 0)
    else match s1.helloFails k l with
    | some q => if x.st == .up then .next (s2.takeDown k q) else .next (s2.portTo k q)
    | none =>
      match x.st with
      | .training =>
        let s3 := (s2.setPort k { y with feat := s2.linkFeat (beAt l 24 8) }).portTo k .keying
        .next (s3.sendKey k)
      | .up =>
        .next { s2.setPort k { y with feat := s2.linkFeat (beAt l 24 8), rtt := Config.rtt s2.fresh } with fresh := s2.fresh + 1 }
      | .keying => .next (s2.setPort k { y with feat := s2.linkFeat (beAt l 24 8) })
      | .down | .uncabled | .qCable | .qVersion | .qLoc | .qExpress => .next s2

/-! ## MGMT (spec/13 R453, R454) -/

/-- This device's own packet of the exchange that forms an OED session, to the sender of the peer's (spec/13 R454). -/
def State.oedKeyPkt (s : State) (p : MeshPkt) : MeshPkt :=
  { src := BitVec.ofNat 128 (2 ^ 64 * s.oed.pfx.toNat + ifId s.coord true 0), dst := p.src, ch := 0, epoch := s.router.srcEpoch, typ := 8,
    birth := BitVec.truncate 32 s.now, payload := s.keyPayload s.fresh }
/-- A session with an OED peer forms: its secret is that of the exchange, and the device's own packet goes out (spec/13 R454). -/
def State.formSession (s : State) (port peer : Nat) (p : MeshPkt) : State :=
  let s1 := { s with oed := { s.oed with sessions := { peer := peer, z := Config.sharedSecret s.fresh } :: s.oed.sessions }, fresh := s.fresh + 1 }
  s1.oedSend port (s.oedPacket port (s.oedKeyPkt p))

/-- MGMT: a key exchange whose three conditions hold brings a KEYING port UP; a failed one leaves it KEYING and sends LINK_STATE; any other MGMT packet on a KEYING port is discarded with QUARANTINE (spec/09 R304). An OED session forms under the same conditions. Bring-up waits while the port's sequencer is being replaced (spec/14 R477). -/
def execMgmt (msg : MgmtMsg) (s : State) : Host.Outcome State Fault Refusal :=
  match s.takeArrived (fun a => a.p.typ == 8 && !(s.portSuspended a.port && (s.port a.port).st == .keying)) with
  | none => .next s
  | some (a, s1) =>
    let keying := a.port < 12 && (s1.port a.port).st == .keying
    match msg with
    | .keyExchange chain own sig =>
      if !keying then .next s1 else if chain && own && sig then .next (s1.bringUp a.port) else .next (s1.linkEvent a.port)
    | .oedSession peer chain own sig =>
      if keying then .next (s1.discard 11)
      else if 12 < a.port && chain && own && sig && !s1.oed.sessions.any (fun e => e.peer == peer) then .next (s1.formSession (a.port - 13) peer a.p)
      else .next s1
    | .other => if keying then .next (s1.discard 11) else .next s1

/-- KEYING_RETRY (spec/13 R453): a port still KEYING repeats the exchange. -/
def execKeyingRetry (port : Nat) (s : State) : Host.Outcome State Fault Refusal :=
  if (s.port port).st == .keying && !s.portSuspended port then .next (s.sendKey port) else .next s

/-! ## EPOCH (spec/09 R290 to R292, R565) -/

/-- The payload of a notice holds no reserved value (spec/09 Table 9-13). -/
def epochOk (l : List Byte) : Bool :=
  beAt l 0 1 == 1 && beAt l 1 1 == 0 && bitsOf (beAt l 2 1) 0 4 < 12 && bitsOf (beAt l 2 1) 5 3 == 0 && beAt l 3 1 == 0
    && beAt l 4 1 < 64 && beAt l 5 1 < 64 && beAt l 6 1 < 64 && beAt l 7 1 == 0 && beAt l 12 4 == 0 && beAt l 24 8 == 0

/-- The switch that a notice of another router names: scheduled if none is pending; joined if it was detected, 20 microseconds before the T_SW it carries, at least 5 microseconds before the pending one; else the next, not earlier than 51 microseconds after the pending one (spec/09 R291, R292). -/
def Router.hear (r : Router) (t : DWord) : Router :=
  if r.tsw == 0 then { r with tsw := t }.writeInactive
  else if t.toNat ≤ r.tsw.toNat || t.toNat - 15000 ≤ r.tsw.toNat then r
  else
    let u := max t.toNat (r.tsw.toNat + 51000)
    if r.tswNext != 0 && u - 15000 ≤ r.tswNext.toNat then r else { r with tswNext := BitVec.ofNat 64 u }

/-- EPOCH: a notice not seen before joins or schedules the switch it names, and is flooded on every UP port but the one it came on; only the routers at the ends of the port change their USABLE bits, and they flood notices of their own (spec/09 R291). -/
def execEpoch (s : State) : Host.Outcome State Fault Refusal :=
  match s.takePkt (fun p => p.typ == 11) with
  | none => .next s
  | some (a, s1) =>
    let l := a.p.payload
    if !epochOk l then .next (s1.discard 0)
    else
      let key := (packCoord (beAt l 4 1, beAt l 5 1, beAt l 6 1), beAt l 8 4)
      let t := BitVec.ofNat 64 (beAt l 16 8)
      if s1.router.seen.contains key then .next s1
      else
        .next ((s1.setRouter ({ s1.router with seen := key :: s1.router.seen }.hear t)).flood a.port l)

/-- EPOCH_SWITCH (spec/09 R290): at T_SW the source epoch changes, the bank left becomes DRAINING and is FREE 51 microseconds later. -/
def execEpochSwitch (s : State) : Host.Outcome State Fault Refusal :=
  let r := s.router
  let other := if r.use0 = .active then r.use1 else r.use0
  if r.tsw = 0 ∨ other ≠ .free then .next s
  else
    let zero := decide (r.use0 = .active)
    .next (s.setRouter { r with srcEpoch := !r.srcEpoch, use0 := if zero then .draining else .active,
                                use1 := if zero then .active else .draining,
                                freeAt := r.tsw + 51000, tsw := r.tswNext, tswNext := 0, changes := r.changesNext, changesNext := [] })

/-- EPOCH_BANK_FREE (spec/09 R290, spec/11 R389): the DRAINING bank becomes FREE and takes the changes of a pending switch; ports being drained that the active bank no longer names are SAFE. -/
def execEpochBankFree (s : State) : Host.Outcome State Fault Refusal :=
  let r := s.router
  if r.use0 ≠ .draining ∧ r.use1 ≠ .draining then .next s
  else
    let r1 := { r with use0 := if r.use0 = .draining then .free else r.use0, use1 := if r.use1 = .draining then .free else r.use1 }
    let r2 := if r1.tsw = 0 then r1 else r1.writeInactive
    let act := if r2.use0 = .active then r2.bank0 else r2.bank1
    .next ((s.setRouter r2).each (List.range 12) (fun s k =>
      let x := s.chip (k / 4)
      if x.drain.getLsbD (k % 4) && !act.usable.getLsbD k then s.setChip (k / 4) { x with safe := setBit x.safe (k % 4) true } else s))

/-! ## Flow control (spec/09 R295) -/

/-- FC: a control block of the peer: an FC block gives its OFF bits, and packets whose class is ON leave; an IDLE block says nothing; a block of another type or with a value that is not 0 where the table has 0 is a reserved encoding, discarded and counted with HEADER (spec/09 R277, R295, spec/00 R11; DESIGN CHOICE, notes/assumptions/123.md). -/
def execFc (port : Nat) (block : List Byte) (s : State) : Host.Outcome State Fault Refusal :=
  let x := s.port port
  match x.st with
  | .down | .training | .uncabled => .next s
  | .keying | .up | .qCable | .qVersion | .qLoc | .qExpress =>
    if beAt block 0 1 = 0x4B ∧ (block.drop 4).all (fun b => b == 0) then
      .next ((s.setPort port { x with offMain := block.getD 1 0, offEsc := block.getD 2 0, fcSilent := false }).drain port).fcSweep
    else if beAt block 0 1 = 0x1E ∧ (block.drop 1).all (fun b => b == 0) then .next s
    else .next (s.discard 0)

/-- FC_REFRESH: the receiver sends an FC block at least once every microsecond. -/
def execFcRefresh (port : Nat) (s : State) : Host.Outcome State Fault Refusal :=
  match (s.port port).st with
  | .down | .uncabled | .training => .next s
  | .keying | .up | .qCable | .qVersion | .qLoc | .qExpress => .next (s.sendFc port)

/-- FC_TIMEOUT: no FC block for 10 microseconds; every class counts as OFF until one is heard. -/
def execFcTimeout (port : Nat) (s : State) : Host.Outcome State Fault Refusal :=
  let x := s.port port
  match x.st with
  | .keying | .up | .qCable | .qVersion | .qLoc | .qExpress => .next (s.setPort port { x with fcSilent := true })
  | .down | .training | .uncabled => .next s

/-- ESCAPE_TIMEOUT (spec/09 R287): the oldest adaptive packet at the port whose productive ports are all OFF for its channel sets ESC and takes the dimension-order port in the ESCAPE class. -/
def execEscapeTimeout (port : Nat) (s : State) : Host.Outcome State Fault Refusal :=
  let half := axisDie (port / 4)
  let x := s.port port
  match takeFirst (fun q => s.adaptive q.p && (s.productive half q.p).all (fun k => (s.port k).off q.p.ch q.p.escClass)) x.queue with
  | none => .next s
  | some (q, rest) =>
    let s1 := s.setPort port { x with queue := rest }
    let r := { q.p with esc := true }
    let inhalf := if q.inp < 12 then axisDie (q.inp / 4) else s1.localHalf
    match s1.orphanGuard inhalf r (s1.dimOrder inhalf r) with
    | .out k r2 =>
      let s2 := match (if q.inp < 12 then (s1.port q.inp).passage else .none) with
        | .forwarded _ p2 => if p2 == q.p then s1.setPort q.inp { s1.port q.inp with passage := .forwarded k r2 } else s1
        | _ => s1
      .next (s2.sendOn q.inp k r2 q.stomp).fcSweep
    | .deliver => .next (s1.arrive q.inp r q.stomp)
    | .drop c => .next (s1.dropQueued q c).fcSweep

/-! ## Bring-up and lanes (spec/09 R275, R276, R304, spec/11 R366 to R368) -/

/-- LANE_LOCK (spec/09 Table 9-10 step 1): the port is TRAINING; its link holds the slots that are lit. A port whose coordinate lies outside the mesh stays uncabled, no port trains while its light is at the dump port, and none before step 5 of a cold reset in RECOVERY or after the sequence has stopped (spec/15 Table 15-4, R501), nor while its sequencer is being replaced (spec/14 R477). -/
def execLaneLock (port : Nat) (s : State) : Host.Outcome State Fault Refusal :=
  let x := s.port port
  if port < 12 && x.st == .down && s.cabled port && !(s.chip (port / 4)).dump && s.linksStart && !s.portSuspended port then
    .next (s.setPort port { x with st := .training, lanes := s.portLit port, txLane := 0, rxPos := [], rxN := 0, syncErr := [] })
  else .next s

/-- A port goes out of lock with some of its supervised lanes counted, and restarts bring-up (spec/09 R304, spec/11 R368). -/
def State.unlock (s : State) (k n : Nat) : State :=
  let ch := s.chip (k / 4)
  (s.setChip (k / 4) { ch with relocks := ch.relocks + BitVec.ofNat 64 n, rxLocked := ch.rxLocked &&& ~~~ portSlots k }).takeDown k .down
/-- Receive slots of port k go out of lock: those that were supervised are counted and take the port down; of a port that supervises none of them the rest stays, unless it is TRAINING and no lane is left (spec/09 R275, R304, spec/11 R368). -/
def State.loseLanes (s : State) (k : Nat) (lost : DWord) : State :=
  let x := s.port k
  let ch := s.chip (k / 4)
  let n := (x.rxPos.filter (fun e => lost.getLsbD e.1)).length
  if x.st == .down || x.st == .uncabled then s
  else
    let left := ch.rxLocked &&& ~~~ (lost &&& portSlots k)
    if 0 < n || (x.st == .training && left &&& portSlots k == 0) then s.unlock k n
    else s.setChip (k / 4) { ch with rxLocked := left }
/-- PORT_LOSS_OF_LOCK (spec/11 R368, spec/09 R304): the receive slots that lost light or lock. -/
def execPortLossOfLock (port : Nat) (lost : DWord) (s : State) : Host.Outcome State Fault Refusal :=
  if port < 12 then .next (s.loseLanes port lost) else .next s

/-- The run of sync errors after some more sync headers, and whether it has come to sixteen on the way: 0b01 and 0b10 are blocks, the other two are errors (spec/09 R275). -/
def syncRun : Nat → List (BitVec 2) → Nat × Bool
  | n, [] => (n, decide (16 ≤ n))
  | n, h :: r => if 16 ≤ n then (n, true) else syncRun (if h = 1 || h = 2 then 0 else n + 1) r
/-- BLOCK_LOCK (spec/09 R275, Table 9-10 step 2): the sync headers of some consecutive blocks on a lane. A lane finds its blocks where they are all valid (DESIGN CHOICE: the spec gives no number of them, notes/assumptions/124.md); sixteen errors in a row take a locked lane out of lock. -/
def execBlockLock (port slot : Nat) (sync : List (BitVec 2)) (s : State) : Host.Outcome State Fault Refusal :=
  let x := s.port port
  let ch := s.chip (port / 4)
  if 12 ≤ port || x.st == .down || x.st == .uncabled || !(portSlots port &&& ~~~ ch.rxFault).getLsbD slot then .next s
  else
    let run := syncRun (Tbl.get 0 x.syncErr slot) sync
    if !ch.rxLocked.getLsbD slot then
      if !sync.isEmpty && sync.all (fun h => h == 1 || h == 2) then
        .next ((s.setChip (port / 4) { ch with rxLocked := ch.rxLocked ||| BitVec.ofNat 64 (2 ^ slot) }).setPort port { x with syncErr := x.syncErr.put slot 0 })
      else .next s
    else if run.2 then .next (s.loseLanes port (BitVec.ofNat 64 (2 ^ slot)))
    else .next (s.setPort port { x with syncErr := x.syncErr.put slot run.1 })

/-- A marker holds a legal value in every field (spec/11 Table 11-4). -/
def markerOk (l : List Byte) : Bool :=
  l.length == 32 && beAt l 0 1 == 0x2D && beAt l 1 1 < 64 && beAt l 2 1 < 64 && beAt l 3 1 < 64 && beAt l 4 1 < 16
    && beAt l 5 1 < 8 && beAt l 6 1 < 8 && (beAt l 7 1 < 16 || beAt l 7 1 == 0xFE || beAt l 7 1 == 0xFD)
    && beAt l 8 1 ≤ 16 && beAt l 9 1 < 2 && (l.drop 12).all (fun b => b == 0)

/-- The lane position a marker gives. -/
def markPos (b : List Byte) : Nat := beAt b 7 1
/-- A marker begins a new lane set. -/
def markChange (b : List Byte) : Bool := beAt b 9 1 == 1
/-- The positions of the receive slots after some markers: a position begins the supervision of its lane, LEAVING ends it, and an UNPLACED lane is not in the link (spec/11 R367, R368). -/
def Port.placed (x : Port) (marks : List (Nat × List Byte)) : Tbl Nat :=
  marks.foldl (fun t m => if markPos m.2 < 16 then t.put m.1 (markPos m.2) else t.del m.1) x.rxPos
/-- The lanes a port's link has after some markers: as a CHANGE announces, else as the first marker with a position did (spec/11 Table 11-4). -/
def Port.announcedLanes (x : Port) (marks : List (Nat × List Byte)) : Nat :=
  match marks.find? (fun m => markChange m.2) with
  | some m => beAt m.2 8 1
  | none =>
    if x.rxN ≠ 0 then x.rxN
    else match marks.find? (fun m => markPos m.2 < 16) with
      | some m => beAt m.2 8 1
      | none => 0
/-- ALIGNMENT_MARKER: the markers received in one block slot, by receive slot. An error in one takes its lane out of lock; one of another port or device takes the port to quarantine, unless it is there already or this device's own coordinate is invalid; a CHANGE that fewer lanes of the link carry than it announces takes the port out of lock; otherwise the lanes are ordered, join or leave (spec/09 R264, R275, R276, spec/11 R366 to R368). -/
def execAlignmentMarker (port : Nat) (marks : List (Nat × List Byte)) (s : State) : Host.Outcome State Fault Refusal :=
  let x := s.port port
  let ch := s.chip (port / 4)
  let got := marks.filter (fun m => m.1 < 64 && (portSlots port &&& ch.rxLocked).getLsbD m.1)
  let bad := got.filter (fun m => !markerOk m.2)
  let good := got.filter (fun m => markerOk m.2)
  let change := good.filter (fun m => markChange m.2)
  let n := x.announcedLanes good
  if 12 ≤ port || x.st == .down || x.st == .uncabled then .next s
  else if !bad.isEmpty then .next (s.loseLanes port (BitVec.ofNat 64 (packBits 64 (fun i => bad.any (fun m => m.1 == i)))))
  else if s.locValid && good.any (fun m => s.peer port != some (beAt m.2 1 1, beAt m.2 2 1, beAt m.2 3 1) || beAt m.2 4 1 != opposite port) then
    match x.st with
    | .up => .next (s.takeDown port .qCable)
    | .training | .keying => .next (s.portTo port .qCable)
    | .down | .uncabled | .qCable | .qVersion | .qLoc | .qExpress => .next s
  else if !change.isEmpty && (change.filter (fun m => markPos m.2 < 16)).length < n then
    .next (s.unlock port (x.rxPos.filter (fun e => !change.any (fun m => m.1 == e.1))).length)
  else
    let gone := BitVec.ofNat 64 (packBits 64 (fun i => good.any (fun m => m.1 == i && markPos m.2 == 0xFE)))
    .next ((s.setChip (port / 4) { ch with rxLocked := ch.rxLocked &&& ~~~ gone }).setPort port { x with rxPos := x.placed good, rxN := n })

/-- The slots of a port's link in ascending order of fibre, then wavelength: the lane positions (spec/11 R367). -/
def laneOrder (m : DWord) : List Nat :=
  ((List.range 64).map (fun i => i % 8 * 8 + i / 8)).filter (fun i => m.getLsbD i)

/-- The alignment marker of a lit lane (spec/11 Table 11-4): its position, or UNPLACED while it is lit but not in the link; `change` begins a new lane set, a lane that leaves carries LEAVING. -/
def State.marker (s : State) (k slot : Nat) (change leaving : Bool) : List Byte :=
  let x := s.port k
  let order := laneOrder x.lanes
  let pos := if leaving then 0xFE else if x.lanes.getLsbD slot then order.findIdx (fun i => i == slot) else 0xFD
  beBytes 1 0x2D ++ beBytes 1 s.coord.1 ++ beBytes 1 s.coord.2.1 ++ beBytes 1 s.coord.2.2 ++ beBytes 1 k ++ beBytes 1 (slot % 8)
    ++ beBytes 1 (slot / 8) ++ beBytes 1 pos ++ beBytes 1 order.length ++ beBytes 1 (b2n change) ++ beBytes 2 x.laneSeq.toNat ++ zeros 20

/-- ALIGNMENT_MARKER_SEND (spec/09 R276, spec/11 R367): a slot that sends light sends its marker: its position in the link, or UNPLACED. -/
def execAlignmentMarkerSend (port slot : Nat) (s : State) : Host.Outcome State Fault Refusal :=
  let x := s.port port
  if port < 12 && x.st != .uncabled && (s.glow (port / 4) &&& portSlots port).getLsbD slot then
    .next (s.setRouter { s.router with sent := .marker port slot (s.marker port slot false false) :: s.router.sent })
  else .next s

end Sys2Proof.Machine
end

