-- ==== Sys2Proof/Machine/TimeBase.lean ====
section
/-! DEFINITION. SYSTIME alignment and the reference clock (spec/15 R514 to R517, spec/09 R310). -/

namespace Sys2Proof.Machine

/-- The machine timer of the processor die counts SYSTIME in nanoseconds (spec/12 R397). -/
def State.machineTimer (s : State) : DWord := s.now

/-- Move SYSTIME by an offset in tenths of a ps (spec/15 R516). -/
def TimeSt.shift (t : TimeSt) (o : Int) : TimeSt :=
  let u := (t.systime.toNat : Int) * 10000 + t.frac + o
  { t with systime := BitVec.ofInt 64 (u / 10000), frac := (u % 10000).toNat }

/-- The offset of an exchange in ps: ((t2 - t1) - (t4 - t3)) / 2 (spec/15 R515). -/
def thetaOf (t1 t2 t3 t4 : Int) : Int := ((t2 - t1) - (t4 - t3)) / 2

/-- The coordinate of the time root. -/
def State.rootCoord (s : State) : Nat × Nat × Nat :=
  (bitsOf s.time.root.toNat 0 8, bitsOf s.time.root.toNat 8 8, bitsOf s.time.root.toNat 16 8)
/-- The way to the root on an axis. -/
def State.rootTogo (s : State) (a : Nat) : Int := (coordAt s.rootCoord a : Int) - (coordAt s.coord a : Int)

/-- The port that the choice of spec/09 R285 takes on an axis toward the root: the express port where it is UP and the way is at least D, else the neighbour port where it is UP. -/
def State.axisPort (s : State) (a : Nat) : Option Nat :=
  let r := s.rootTogo a
  let pos := decide (0 < r)
  if r = 0 then none
  else if s.express.any (fun d => d ≤ r.natAbs) && (s.port (farPort a pos)).st == .up then some (farPort a pos)
  else if (s.port (nearPort a pos)).st == .up then some (nearPort a pos) else none
/-- The device's parent port: the lowest-numbered of those that the port choice of spec/09 R285 takes toward the root (spec/15 R515; DEDUCED, notes/assumptions/18.md). -/
def State.parentPort (s : State) : Option Nat := [0, 1, 2].findSome? s.axisPort
/-- Parent hops to the root: express hops and single hops on each axis (spec/15 R515, R517; notes/assumptions/18.md). -/
def State.rootHops (s : State) : Nat :=
  [0, 1, 2].foldl (fun n a =>
    let r := (s.rootTogo a).natAbs
    n + match s.express with | some d => r / d + r % d | none => r) 0

/-- A TIME packet (spec/15 R515); its payload layout is not in the spec, its payload here is empty (notes/assumptions/17.md). -/
def State.timePkt (s : State) (k : Nat) : MeshPkt :=
  { src := s.addr s.coord true 0, dst := s.addr ((s.peer k).getD s.coord) true 0, ch := 7, epoch := s.router.srcEpoch, typ := 9,
    birth := BitVec.truncate 32 s.now }

/-- TIME_EXCHANGE (spec/15 R515): a device that is not the root sends its parent a TIME packet. -/
def execTimeExchange (s : State) : Host.Outcome State Fault Refusal :=
  if s.isRoot then .next s
  else match s.parentPort with
    | none => .next s
    | some k =>
      let s1 := { s with time := { s.time with parent := BitVec.ofNat 4 k, hops := BitVec.ofNat 6 s.rootHops } }
      .next (if s1.drained k then s1 else s1.sendOn 12 k (s1.timePkt k) false)

/-- The bank use a 2-bit code names (spec/09 Table 9-12). -/
def bankUseOf (n : Nat) : BankUse := if n = 0 then .active else if n = 1 then .draining else .free

/-- The device adopts its parent's ROUTER_EPOCH and pending T_SW when it becomes aligned (spec/09 R310). -/
def Router.adopt (r : Router) (epoch : Word) (t : DWord) : Router :=
  { r with srcEpoch := epoch.getLsbD 0, use0 := bankUseOf (bitsOf epoch.toNat 1 2), use1 := bankUseOf (bitsOf epoch.toNat 3 2), tsw := t }

/-- What an exchange does to a device that is not the root: it shows theta; before alignment SYSTIME steps by it, and the third offset in a row below 1 ns aligns the device; afterwards SYSTIME slews (spec/15 R515, R516, spec/09 R310). -/
def State.exchange (s : State) (th : Int) (epoch : Word) (tsw : DWord) : State :=
  let t := { s.time with offset := BitVec.ofInt 32 th }
  if t.aligned then { s with time := { t with slew := th * 10 } }
  else
    let g := if th.natAbs < 1000 then t.good + 1 else 0
    let t1 := { t.shift (th * 10) with good := g, aligned := decide (3 ≤ g) }
    let s1 := { s with time := t1 }
    if t1.aligned then (s1.setRouter (s1.router.adopt epoch tsw)).announceAll else s1

/-- TIME (spec/15 R515, R516): a child's request is answered on the port it came from; the parent's reply gives the offset. The root does not adjust its own SYSTIME. -/
def execTime (msg : TimeMsg) (s : State) : Host.Outcome State Fault Refusal :=
  match s.takePkt (fun p => p.typ == 9) with
  | none => .next s
  | some (a, s1) =>
    match msg with
    | .request _ => .next (if a.port < 12 && !s1.drained a.port then s1.sendOn 12 a.port (s1.timePkt a.port) false else s1)
    | .reply t1 t2 t3 t4 epoch tsw =>
      if s1.isRoot || some a.port != s1.parentPort then .next s1
      else .next (s1.exchange (thetaOf t1 t2 t3 t4) epoch tsw)

/-- A write of TIME_SET: the root's SYSTIME is set once, before any port is UP; any other write is ignored and counted (spec/15 R516, R529, spec/16 R541). -/
def State.writeTimeSet (s : State) (v : DWord) : State :=
  if s.isRoot && !s.time.everUp && !s.time.setDone then
    { s with time := { s.time with setDone := true, setVal := v, systime := v, frac := 0 } }
  else s.countErr s.lead 0xC2

/-- TIME_SET (spec/15 R516). -/
def execTimeSet (value : DWord) (s : State) : Host.Outcome State Fault Refusal := .next (s.writeTimeSet value)

/-- REFCLK_LOSS (spec/15 R514): the root PLL holds its last frequency, and a DEVICE error is raised. -/
def execRefclkLoss (s : State) : Host.Outcome State Fault Refusal :=
  if s.time.refLost then .next s
  else .next ({ s with time := { s.time with refLost := true } }.raise s.lead 0xC2 0)

/-- REFCLK_RELOCK (spec/15 R514): the PLL re-locks to a REFCLK that has been valid for 10 ms. -/
def execRefclkRelock (s : State) : Host.Outcome State Fault Refusal :=
  .next { s with time := { s.time with refLost := false } }

end Sys2Proof.Machine
end

