-- ==== Sys2Proof/Machine/Optics.lean ====
section
/-! DEFINITION. The optical chiplets: lane sets, steering plans, lasers, rings, shuttles, fibre service and the service-LED frame (spec/11). -/

namespace Sys2Proof.Machine

/-- Raise an OPT error flag of a chiplet. -/
def State.raiseOpt (s : State) (c bit : Nat) : State := s.raise (chipPage c).1 (chipPage c).2 bit

/-! ## Lane sets (spec/11 R367) -/

/-- Give a port's link a new lane set: where it changes, a CHANGE marker goes out on every lane old and new, LEAVING on those that leave; then what may start on the new lanes starts, and the OFF bits follow the new lane count (spec/11 R373). -/
def State.setLanes (s : State) (k : Nat) (m : DWord) : State :=
  let x := s.port k
  if x.lanes = m then s
  else
    let s1 := s.setPort k { (x.filled s.now) with lanes := m, laneSeq := x.laneSeq + 1 }
    match x.st with
    | .down | .uncabled => s1
    | .training | .keying | .up | .qCable | .qVersion | .qLoc | .qExpress =>
      ((s1.each (laneOrder (x.lanes ||| m)) (fun s i =>
        s.setRouter { s.router with sent := .marker k i (s.marker k i true (!m.getLsbD i)) :: s.router.sent })).drain k).fcChanged k

/-- The mesh ports of a chiplet; none on OED. -/
def chipPorts (c : Nat) : List Nat := if c < 3 then (List.range 4).map (fun d => 4 * c + d) else []
/-- Bring the links of a chiplet to the lanes that are lit. -/
def State.relane (s : State) (c : Nat) : State := s.each (chipPorts c) (fun s k => s.setLanes k (s.portLit k))
/-- The slots of wavelength w of a mesh chiplet; on OED the four lanes of laser position w (spec/11 R380, R392). -/
def wlMask (c w : Nat) : DWord := if c = 3 then BitVec.ofNat 64 (15 * 2 ^ (4 * w)) else BitVec.ofNat 64 (255 * 2 ^ (8 * w))

/-! ## Plan changes (spec/11 R370 to R373, spec/10 R355, R356) -/

/-- The verdict result that brings a plan is held: on each mesh chiplet the change waits for T_RES, and no packet starts on a lane that it moves (spec/11 Table 11-5 step 1). -/
def State.planHold (s : State) (tag : Nat) (plan : BitVec 4) (masks : List DWord) : State :=
  s.each [0, 1, 2] (fun s c =>
    let x := s.chip c
    s.setChip c { x with prep := x.prep.filter (fun e => e.tag != tag) ++ [{ tag := tag, mask := masks.getD c 0, plan := plan, install := false }] })
/-- Forget the changes that wait for T_RES and satisfy a test: their verdict failed, or their partition is gone (spec/10 R355). -/
def State.planDrop (s : State) (g : PlanChange → Bool) : State :=
  s.each [0, 1, 2] (fun s c =>
    let x := s.chip c
    (s.setChip c { x with prep := x.prep.filter (fun e => !g e) }).each (chipPorts c) (fun s k => s.drain k))
/-- A change begins on a chiplet: leaving lanes leave their links and the crossbars switch; joining slots send light and wait (spec/11 Table 11-5 steps 2 and 3). During another change it waits for that one's end. -/
def State.planBegin (s : State) (c : Nat) (e : PlanChange) : State :=
  let x := s.chip c
  if x.next.isSome then s.setChip c { x with after := x.after ++ [e] }
  else
    let s1 := s.setChip c { x with next := some e, switching := true }
    s1.each (chipPorts c) (fun s k => s.setLanes k ((s.port k).lanes &&& s.litOf c (s.changeMask c e)))
/-- The plan of a change is in force on a chiplet. -/
def Chip.inForce (x : Chip) (e : PlanChange) : Bool := x.next.isNone && (if e.install then x.install else !x.install && x.plan == e.plan && x.mask == e.mask)
/-- T_RES of a verdict: the change it brings begins, unless its plan is in force (spec/11 Table 11-5 step 2). -/
def State.planSwitch (s : State) (tag : Nat) : State :=
  s.each [0, 1, 2] (fun s c =>
    let x := s.chip c
    match x.prep.find? (fun e => e.tag == tag) with
    | none => s
    | some e =>
      let s1 := s.setChip c { x with prep := x.prep.filter (fun e => e.tag != tag) }
      if x.inForce e then s1 else s1.planBegin c e)
/-- T_RES + 2 microseconds: the plan is in force and the joining lanes are in their links; a change that waited begins (spec/11 Table 11-5 steps 4 and 5). -/
def State.planDone (s : State) : State :=
  s.each [0, 1, 2] (fun s c =>
    let x := s.chip c
    match x.next with
    | some e =>
      let s1 := (s.setChip c { x with switching := false, next := none, after := x.after.drop 1, plan := e.plan, install := e.install, mask := e.mask,
                                      steers := bump x.steers }).relane c
      match x.after with
      | [] => s1
      | e2 :: _ => s1.planBegin c e2
    | none => s)
/-- A plan change is between the arrival of its verdict result and T_RES + 2 microseconds (spec/11 R377). -/
def Chip.steering (x : Chip) : Bool := x.next.isSome || !x.prep.isEmpty
/-- Return to the installation plan when the grant holder is released (spec/11 R370). -/
def State.planRelease (s : State) : State :=
  (s.planDrop (fun _ => true)).each [0, 1, 2] (fun s c =>
    let x := s.chip c
    let e : PlanChange := { tag := 0x10000, mask := s.installMask c, plan := 0, install := true }
    if x.inForce e && x.after.isEmpty then s else s.planBegin c e)

/-! ## Lasers (spec/11 R374 to R380) -/

/-- The LASER event (spec/12 Table 12-13). -/
def State.laserEvent (s : State) (c w : Nat) : State :=
  let x := s.chip c
  s.eventMgmt 0x30 (chipPage c).1 (leBytes 1 c ++ leBytes 1 w ++ leBytes 1 (x.feeds w) ++ leBytes 1 (x.wl w))
/-- Put a wavelength in a state. -/
def Chip.setWl (x : Chip) (w st : Nat) : Chip := { x with wlState := x.wlState.put w st }
/-- Put a laser in a state. -/
def Chip.setLaser (x : Chip) (l st : Nat) : Chip := { x with laserState := x.laserState.put l st }
/-- Write the feeds, laser states and references of a chiplet to the service record; a spare that is being tuned is a spare (spec/11 R379). -/
def State.recordLasers (s : State) (c : Nat) : State :=
  let x := s.chip c
  let r : LaserRecord := { feeds := x.wlLaser, states := x.laserState.map (fun e => (e.1, if e.2 = 2 || e.2 = 3 then 1 else e.2)), refs := x.laserRef }
  s.setFlash { s.flash with lasers := s.flash.lasers.put c r }
/-- The reference of a laser: that of its last entry into service, else that of manufacture (spec/11 R374). -/
def State.laserRef (s : State) (c l : Nat) : Int := ((s.chip c).laserRef.find l).getD (Config.laserRef c l)
/-- Move a wavelength to a state and send its event (spec/11 R375). -/
def State.wlTo (s : State) (c w st : Nat) : State := (s.setChip c ((s.chip c).setWl w st)).laserEvent c w
/-- The spare tuned to a wavelength, in a given state. -/
def Chip.spare (x : Chip) (w st : Nat) : Option Nat :=
  (List.range 12).find? (fun l => x.laser l == st && x.spareFor.find l == some w)
/-- The lowest-numbered free spare. -/
def Chip.freeSpare (x : Chip) : Option Nat := (List.range 12).find? (fun l => x.laser l == 1)
/-- Tune a free spare to a wavelength unless one is already tuned (spec/11 R375 PREPARED). -/
def Chip.tune (x : Chip) (w : Nat) : Chip :=
  if (x.spare w 2).isSome || (x.spare w 3).isSome then x
  else match x.freeSpare with
    | some l => { x.setLaser l 2 with spareFor := x.spareFor.put l w }
    | none => x
/-- No spare is left for a wavelength. -/
def Chip.noSpare (x : Chip) (w : Nat) : Bool := (x.spare w 2).isNone && (x.spare w 3).isNone && x.freeSpare.isNone

/-- The average of a window of samples in 0.01 dB. -/
def averageOf (l : List Int) : Int := if l.isEmpty then 0 else l.foldl (· + ·) 0 / (l.length : Int)

/-- The OED port of a laser position, whose transmit side restarts: frames wait in its queue until its link is up (spec/11 R380). -/
def State.oedRestart (s : State) (w : Nat) : State :=
  let x := s.oedPort (w / 2)
  s.setOedPort (w / 2) { x with linkA := if x.mode = 1 && w % 2 = 1 then x.linkA else false, linkB := if x.mode = 1 && w % 2 = 0 then x.linkB else false }
/-- The lanes of a wavelength leave their links with LEAVING markers, or return to them; on OED the port restarts (spec/11 R367, R376, R380). -/
def State.relight (s : State) (c w : Nat) : State := if c = 3 then s.oedRestart w else s.relane c

/-- A wavelength's requests and what waits for it are given up. -/
def Chip.forget (x : Chip) (w : Nat) : Chip :=
  { x with waiting := x.waiting.filter (fun e => e.1 != w), swapReq := if x.swapReq = some w then none else x.swapReq,
           recalReq := if x.recalReq = some w then none else x.recalReq, busy := if x.busy.any (fun b => b.1 == w) then none else x.busy }

/-- Feed a wavelength from a spare, which enters service: its 1 ms average becomes its reference (spec/11 R374, R376, R378). -/
def Chip.feedFrom (x : Chip) (w l : Nat) : Chip :=
  let win := Tbl.get [] x.window l
  let x1 := x.setLaser l 0
  { x1 with wlLaser := x1.wlLaser.put w l, spareFor := x1.spareFor.del l, laserDb := x1.laserDb.put l 0,
            laserRef := if win.isEmpty then x1.laserRef else x1.laserRef.put l (averageOf win) }
/-- The lasers that are ACTIVE and feed no wavelength are powered down and RETIRED (spec/11 Table 11-7 step 6). -/
def Chip.retireIdle (x : Chip) : Chip :=
  ((List.range 12).filter (fun l => x.laser l == 0 && !(List.range 8).any (fun w => x.feeds w == l))).foldl (fun x l => x.setLaser l 4) x

/-- Begin a swap or a recalibration of a wavelength: its lanes leave their links, and for a swap the combiner takes the READY spare; one at a time, and none while a plan change runs or the sequencer is being replaced (spec/14 R477, spec/11 R376, R377, R385, Table 11-7 steps 1 to 3). -/
def State.beginWl (s : State) (c w : Nat) (swap : Bool) : State :=
  let x := s.chip c
  if x.busy.isSome || x.steering || s.suspended c then
    if x.waiting.contains (w, swap) then s else s.setChip c { x with waiting := x.waiting ++ [(w, swap)] }
  else
    let s1 := s.setChip c { x.setWl w (if swap then 3 else 4) with busy := some (w, swap) }
    let s2 := if swap then s1.laserEvent c w else s1
    let s3 := s2.relight c w
    match x.spare w 3 with
    | some l => if swap then s3.setChip c ((s3.chip c).feedFrom w l) else s3
    | none => s3

/-- A swap or recalibration that waits can still begin: its wavelength is not RETIRED, and for a swap a spare is READY. -/
def Chip.canBegin (x : Chip) (e : Nat × Bool) : Bool := x.wl e.1 < 3 && (!e.2 || (x.spare e.1 3).isSome)
/-- Begin the first waiting swap or recalibration that still can, when none is in progress (spec/11 R377). -/
def State.nextWl (s : State) (c : Nat) : State :=
  let x := s.chip c
  if x.busy.isSome || x.steering || s.suspended c then s
  else
    let out := x.waiting.takeWhile (fun e => !x.canBegin e)
    let y := { x with waiting := x.waiting.drop (out.length + 1), swapReq := if out.any (fun e => e.2 && x.swapReq == some e.1) then none else x.swapReq,
                      recalReq := if out.any (fun e => !e.2 && x.recalReq == some e.1) then none else x.recalReq }
    match x.waiting.drop out.length with
    | [] => s.setChip c y
    | e :: _ => (s.setChip c y).beginWl c e.1 e.2

/-- When a plan change ends or is given up, what waited for it begins (spec/11 R377). -/
def State.wakeWl (s : State) : State := s.each [0, 1, 2] (fun s c => s.nextWl c)

/-- The wavelength is RETIRED: its lanes leave their links and never return; on OED the port runs degraded (spec/11 R375, R379, R380). -/
def State.retireWl (s : State) (c w : Nat) : State :=
  let x := (s.chip c).forget w
  let s1 := (s.setChip c { x.setWl w 5 with wlLaser := x.wlLaser.put w 15 }).laserEvent c w
  let s2 := s1.setChip c (s1.chip c).retireIdle
  let s3 := (s2.recordLasers c).relight c w
  let s4 := if c = 3 then s3.setOedPort (w / 2) { s3.oedPort (w / 2) with degraded := true } else s3
  s4.nextWl c

/-- A wavelength whose laser has failed is fed from a READY spare, or waits for a spare that is tuned, or is RETIRED (spec/11 R378). -/
def State.refeed (s : State) (c w : Nat) : State :=
  let x := s.chip c
  match x.spare w 3 with
  | some l => (((s.setChip c ((x.feedFrom w l).setWl w 0)).laserEvent c w).recordLasers c).relane c
  | none => if x.noSpare w then s.retireWl c w else ((s.setChip c (x.tune w)).laserEvent c w).recordLasers c

/-- A laser fails: marked FAILED (spec/11 R378). One that feeds a wavelength leaves its lanes dark without LEAVING, a swap or recalibration of it ends, and the wavelength is fed anew; for a spare that was tuned to a wavelength another is tuned. -/
def State.failLaser (s : State) (c l : Nat) : State :=
  let x := s.chip c
  if x.laser l = 4 || x.laser l = 5 then s
  else
    let s1 := (s.setChip c { x.setLaser l 5 with spareFor := x.spareFor.del l }).raiseOpt c 0
    match (List.range 8).find? (fun w => x.feeds w == l) with
    | none =>
      match x.spareFor.find l with
      | none => s1.recordLasers c
      | some w =>
        if x.laser (x.feeds w) = 5 then s1.refeed c w
        else if x.wl w = 2 then (s1.setChip c ((s1.chip c).tune w)).recordLasers c
        else s1.recordLasers c
    | some w =>
      let s2 := s1.each (chipPorts c) (fun s k => s.setPort k { s.port k with lanes := (s.port k).lanes &&& ~~~ wlMask c w })
      let s3 := if c = 3 then s2.oedRestart w else s2
      let y := s3.chip c
      let z := if y.busy.any (fun b => b.1 == w) then ((y.forget w).setWl w 0).retireIdle else y
      ((s3.setChip c z).refeed c w).nextWl c

/-- Move a wavelength by its laser's average (spec/11 R374, R375): WARN at -1.0 dB, PREPARED at -1.5 dB, a swap or retirement at -2.0 dB; a state is left 0.25 dB above the threshold that entered it. `crossed` says that the average has just come to -2.0 dB. -/
def State.moveWl (s : State) (c w : Nat) (d : Int) (crossed : Bool) : State :=
  let s1 := if (s.chip c).wl w = 0 && d ≤ -100 then s.wlTo c w 1 else s
  let s2 := if (s1.chip c).wl w = 1 && d ≤ -150 then (s1.setChip c ((s1.chip c).tune w)).wlTo c w 2 else s1
  let x := s2.chip c
  if x.wl w = 2 && d ≤ -200 then
    if x.noSpare w then s2.retireWl c w
    else if (x.spare w 3).isSome && x.autoSwap then s2.beginWl c w true
    else if !x.autoSwap && crossed then s2.laserEvent c w
    else s2
  else if x.wl w = 2 && -125 ≤ d then
    let s3 := s2.wlTo c w 1
    if -75 ≤ d then s3.setChip c ((s3.chip c).setWl w 0) else s3
  else if x.wl w = 1 && -75 ≤ d then s2.setChip c (x.setWl w 0)
  else s2

/-- LASER_SAMPLE (spec/11 R374, R375, R378): a laser's output in 0.01 dB, every 10 microseconds; its average over the last hundred is read against its reference. While the chiplet's sequencer is being replaced only the failure response goes on (spec/14 R477). -/
def execLaserSample (chip laser : Nat) (power : Int) (s : State) : Host.Outcome State Fault Refusal :=
  let x := s.chip chip
  if 4 ≤ chip || 12 ≤ laser || x.laser laser == 4 || x.laser laser == 5 then .next s
  else
    let win := (power :: Tbl.get [] x.window laser).take 100
    let d := averageOf win - s.laserRef chip laser
    let was := Tbl.get 0 x.laserDb laser
    let s1 := s.setChip chip { x with window := x.window.put laser win, laserDb := x.laserDb.put laser d }
    if x.laser laser = 1 then .next s1
    else if power - s.laserRef chip laser ≤ -600 then .next (s1.failLaser chip laser)
    else if x.laser laser ≠ 0 || s.suspended chip then .next s1
    else match (List.range 8).find? (fun w => x.feeds w == laser) with
      | some w => .next (s1.moveWl chip w d (decide (-200 < was)))
      | none => .next s1

/-- LASER_LOCK_LOSS (spec/11 R378): the lock loop reports loss of lock, and the laser fails. -/
def execLaserLockLoss (chip laser : Nat) (s : State) : Host.Outcome State Fault Refusal :=
  if chip < 4 && laser < 12 then .next (s.failLaser chip laser) else .next s

/-- SPARE_READY (spec/11 R375, R378, spec/14 R477): a tuned spare shows READY, or is fed to a wavelength whose laser has failed. -/
def execSpareReady (chip laser : Nat) (s : State) : Host.Outcome State Fault Refusal :=
  let x := s.chip chip
  if x.laser laser ≠ 2 then .next s
  else match x.spareFor.find laser with
    | none => .next s
    | some w =>
      if x.laser (x.feeds w) = 5 then
        .next ((((s.setChip chip ((x.feedFrom w laser).setWl w 0)).laserEvent chip w).recordLasers chip).relane chip)
      else if s.suspended chip then .next s
      else
        let s1 := s.setChip chip (x.setLaser laser 3)
        .next (s1.moveWl chip w (Tbl.get 0 x.laserDb (x.feeds w)) false)

/-- LASER_SWAP_COMPLETE (spec/11 R376, R379, Table 11-7 steps 6 to 8): the old laser is RETIRED, the lanes rejoin, and LASER_SWAPPED is sent. -/
def execLaserSwapComplete (chip : Nat) (s : State) : Host.Outcome State Fault Refusal :=
  let x := s.chip chip
  if s.suspended chip then .next s
  else match x.busy with
  | some (w, true) =>
    let y := ((x.forget w).setWl w 0).retireIdle
    let s1 := (s.setChip chip { y with swaps := bump y.swaps }).recordLasers chip
    .next ((((s1.relane chip).laserEvent chip w).rasReport 0).nextWl chip)
  | some (_, false) | none => .next s

/-- Request a planned swap: refused, with an event and a count, for a wavelength that is not NORMAL, WARN or PREPARED or has no READY spare (spec/11 R392). -/
def State.requestSwap (s : State) (c w : Nat) : State :=
  let x := s.chip c
  if x.wl w < 3 && (x.spare w 3).isSome then
    (s.setChip c { x with cmdWl := BitVec.ofNat 3 w, swapReq := some w }).beginWl c w true
  else ((s.setChip c { x with cmdWl := BitVec.ofNat 3 w }).laserEvent c w).countErr (chipPage c).1 (chipPage c).2
/-- Request a recalibration (spec/11 R385, R392): none of a RETIRED wavelength, and none while the wavelength is already draining. -/
def State.requestRecal (s : State) (c w : Nat) : State :=
  let x := s.chip c
  let s1 := s.setChip c { x with cmdWl := BitVec.ofNat 3 w }
  if x.wl w < 3 then (s1.setChip c { s1.chip c with recalReq := some w }).beginWl c w false else s1

/-- OPT_LASER_CMD_SWAP (spec/11 R392). -/
def execOptLaserCmdSwap (chip wl : Nat) (s : State) : Host.Outcome State Fault Refusal :=
  if chip < 4 && wl < 8 then .next (s.requestSwap chip wl) else .next s
/-- OPT_LASER_CMD_RECAL (spec/11 R392). -/
def execOptLaserCmdRecal (chip wl : Nat) (s : State) : Host.Outcome State Fault Refusal :=
  if chip < 4 && wl < 8 then .next (s.requestRecal chip wl) else .next s
/-- WAVELENGTH_RECAL (spec/11 R385): the periodic recalibration begins by draining the wavelength. -/
def execWavelengthRecal (chip wl : Nat) (s : State) : Host.Outcome State Fault Refusal :=
  if chip < 4 && wl < 8 && (s.chip chip).wl wl < 3 then .next (s.beginWl chip wl false) else .next s
/-- WAVELENGTH_RECAL_COMPLETE (spec/11 R384, R385): the wavelength returns and is NORMAL; a faulted ring of it whose retry failed stays dark. -/
def execWavelengthRecalComplete (chip : Nat) (stillFaulted stillRx : DWord) (s : State) : Host.Outcome State Fault Refusal :=
  let x := s.chip chip
  if s.suspended chip then .next s
  else match x.busy with
  | some (w, false) =>
    let m := wlMask chip w
    let f := x.slotFault &&& (~~~ m ||| stillFaulted)
    let g := x.rxFault &&& (~~~ m ||| stillRx)
    let s1 := s.setChip chip { (x.forget w).setWl w 0 with slotFault := f, rxFault := g, recals := bump x.recals }
    let s2 := s1.setFlash { s1.flash with slotFaults := s1.flash.slotFaults.put chip f, rxFaults := s1.flash.rxFaults.put chip g }
    .next ((s2.relane chip).nextWl chip)
  | some (_, true) | none => .next s

/-! ## Rings, temperature, shuttles, drain (spec/11 R383, R384, R388, R389) -/

/-- RING_FAULT (spec/11 R384): the bit of the slot sets and an event is sent. A modulator ring's slot goes dark, and its lane leaves with a LEAVING marker when the loop reports the loss first; a drop ring's receive slot goes out of lock. OED has modulators alone (spec/11 Table 11-1). -/
def execRingFault (chip slot : Nat) (rx loopFirst : Bool) (s : State) : Host.Outcome State Fault Refusal :=
  if 4 ≤ chip || 64 ≤ slot || (rx && chip = 3) then .next s
  else
    let x := s.chip chip
    let bit := BitVec.ofNat 64 (2 ^ slot)
    let k := 4 * chip + slot % 8 / 2
    let y := if rx then { x with rxFault := x.rxFault ||| bit } else { x with slotFault := x.slotFault ||| bit }
    let s1 := s.setChip chip y
    let s2 := s1.setFlash { s1.flash with slotFaults := s1.flash.slotFaults.put chip y.slotFault, rxFaults := s1.flash.rxFaults.put chip y.rxFault }
    let s3 := if chip = 3 then s2
      else if rx then s2.loseLanes k bit
      else if loopFirst then s2.setLanes k ((s2.port k).lanes &&& ~~~ bit)
      else s2.setPort k { s2.port k with lanes := (s2.port k).lanes &&& ~~~ bit }
    .next ((s3.raiseOpt chip 1).eventMgmt 0x31 (chipPage chip).1 (leBytes 1 chip ++ zeros 3 ++ leBytes 8 (y.slotFault ||| y.rxFault).toNat))

/-- SUBSTRATE_TEMP_CHECK (spec/11 R383): each second the substrate's temperature, in 1/16 degrees; above 80 degrees OPT_HOT is sent. -/
def execSubstrateTempCheck (chip : Nat) (temp : Int) (s : State) : Host.Outcome State Fault Refusal :=
  if 4 ≤ chip then .next s
  else
    let t := ofInt16 temp
    let s1 := s.setChip chip { s.chip chip with temp := t }
    if 1280 < temp then
      .next ((s1.raiseOpt chip 2).eventMgmt 0x32 (chipPage chip).1 (leBytes 1 chip ++ zeros 1 ++ leBytes 2 t.toNat))
    else .next s1

/-- The SHUTTLE event (spec/12 Table 12-13). -/
def State.shuttleEvent (s : State) (k : Nat) (seated : Bool) : State :=
  s.eventMgmt 0x33 (chipPage k).1 (leBytes 1 k ++ leBytes 1 (b2n seated) ++ zeros 2)

/-- SHUTTLE_REMOVED (spec/11 R388): the light goes to the dump port, the ports of the chiplet lose lock, and an event is sent. -/
def execShuttleRemoved (k : Nat) (s : State) : Host.Outcome State Fault Refusal :=
  if 4 ≤ k || !(s.chip k).shuttle then .next s
  else
    let s1 := s.setChip k { s.chip k with shuttle := false, dump := true }
    let s2 := s1.each (chipPorts k) (fun s p => if (s.port p).st == .down || (s.port p).st == .uncabled then s else s.unlock p (s.port p).rxPos.length)
    let s3 := if k = 3 then s2.each (List.range 4) (fun s p => s.setOedPort p { s.oedPort p with linkA := false, linkB := false }) else s2
    .next ((s3.raiseOpt k 3).shuttleEvent k false)

/-- SHUTTLE_SEATED (spec/11 R388): after 100 ms the light returns; the ports come up under spec/09 Table 9-10. -/
def execShuttleSeated (k : Nat) (s : State) : Host.Outcome State Fault Refusal :=
  if 4 ≤ k || (s.chip k).shuttle then .next s
  else .next ((s.setChip k { s.chip k with shuttle := true, dump := false }).shuttleEvent k true)

/-- The USABLE bit of a port in the bank that sources use. -/
def Router.active (r : Router) : RBank := if r.use0 = .active then r.bank0 else r.bank1

/-- Write OPT_SERVICE.DRAIN (spec/11 R389): a set bit takes the mesh port out by a DOWN notice, a cleared bit floods an UP notice. A port that no bank names is SAFE at once. On OED a set bit stops new frames. -/
def State.writeDrain (s : State) (c : Nat) (mask : BitVec 4) : State :=
  let x := s.chip c
  let s1 := s.setChip c { x with drain := mask, safe := x.safe &&& mask }
  if c = 3 then s1
  else s1.each (List.range 4) (fun s d =>
    let k := 4 * c + d
    if mask.getLsbD d && !x.drain.getLsbD d then
      if (s.port k).announced then s.notice k false
      else if !s.router.bank0.usable.getLsbD k && !s.router.bank1.usable.getLsbD k then
        s.setChip c { s.chip c with safe := setBit (s.chip c).safe d true }
      else s
    else if !mask.getLsbD d && x.drain.getLsbD d && (s.port k).st == .up && s.time.aligned then s.notice k true
    else s)

/-- OPT_SERVICE_DRAIN (spec/11 R389). -/
def execOptServiceDrain (chip : Nat) (mask : BitVec 4) (s : State) : Host.Outcome State Fault Refusal :=
  if chip < 4 then .next (s.writeDrain chip mask) else .next s

/-! ## Service LEDs (spec/11 R390, R391) -/

/-- A quarantined port. -/
def PortSt.quarantined : PortSt → Bool
  | .qCable | .qVersion | .qLoc | .qExpress => true
  | .down | .training | .keying | .up | .uncabled => false
/-- The code of a fibre of a mesh chiplet: 0 OFF, 1 ACTIVE, 2 SAFE, 3 FAULT; `fault` are the faulted slots of its direction, `lanes` the lanes it carries. -/
def State.fibreCode (s : State) (c j : Nat) (fault lanes : DWord) : Nat :=
  let x := s.chip c
  let k := 4 * c + j / 2
  let on := fun (m : DWord) => (List.range 8).any (fun w => m.getLsbD (8 * w + j))
  if on fault || (s.port k).st.quarantined then 3
  else if x.safe.getLsbD (j / 2) then 2
  else if s.cabled k && on lanes then 1
  else 0
/-- The lanes of OED that carry a link: lane l of port p is bit 8 p + l (spec/11 R392); dark where the laser position that feeds it is out (spec/11 R380). -/
def State.oedLit (s : State) : Nat :=
  let x := s.chip 3
  packBits 64 (fun i => i < 32 && !x.dump && !x.slotFault.getLsbD i && !x.wlDark (i / 4)
    && (if i / 4 % 2 = 1 && (s.oedPort (i / 8)).mode = 1 then (s.oedPort (i / 8)).linkB else (s.oedPort (i / 8)).linkA))
/-- The code of lane l of OED port p. -/
def State.oedCode (s : State) (p l : Nat) : Nat :=
  let x := s.chip 3
  if x.slotFault.getLsbD (8 * p + l) then 3
  else if x.safe.getLsbD p then 2
  else if bitOf s.oedLit (8 * p + l) then 1
  else 0

/-- The codes of a chiplet's fibres in the order sent (spec/11 Table 11-9). -/
def State.chipCodes (s : State) (c : Nat) : List Nat :=
  if c < 3 then (List.range 8).map (fun j => s.fibreCode c j (s.chip c).slotFault (s.lit c)) ++ (List.range 8).map (fun j => s.fibreCode c j (s.chip c).rxFault (s.chip c).rxLocked)
  else (List.range 4).flatMap (fun p => (List.range 8).map (s.oedCode p) ++ (List.range 8).map (s.oedCode p))
/-- The code of a shuttle (spec/11 R391). -/
def State.shuttleCode (s : State) (c : Nat) : Nat :=
  let l := s.chipCodes c
  if !(s.chip c).shuttle then 0 else if l.contains 3 then 3 else if l.contains 1 then 1 else if l.contains 2 then 2 else 0
/-- A 2-bit code, its first bit first. -/
def codeBits (n : Nat) : List Bool := [bitOf n 1, bitOf n 0]
/-- The 256 bits of the service-LED frame (spec/11 Table 11-9). -/
def State.ledFrame (s : State) : List Bool :=
  ([0, 1, 2, 3].flatMap (fun c => (s.chipCodes c).flatMap codeBits))
    ++ [0, 1, 2, 3].flatMap (fun c => codeBits (s.shuttleCode c) ++ List.replicate 6 false)
/-- SLED_FRAME (spec/11 R390, spec/15 R505): the frame goes out while the device is ready; the pins are low until then and hold their levels through a warm reset. -/
def execSledFrame (s : State) : Host.Outcome State Fault Refusal :=
  match s.rst.phase with
  | .ready => .next { s with sled := s.ledFrame }
  | .cold | .warm | .halted | .tripped => .next s

end Sys2Proof.Machine
end

