-- ==== Sys2Proof/Machine/Oed.lean ====
section
/-! DEFINITION. The OED ports: Ethernet frames, flow control, neighbour discovery, link state and drain (spec/11 R386, R387, R393, spec/13 R454). -/

namespace Sys2Proof.Machine

/-- Discard an OED frame and count it (spec/11 R387). -/
def State.oedDiscard (s : State) : State := { s with oed := { s.oed with discards := bump s.oed.discards } }

/-- The UDP checksum of an IPv6 frame is right (spec/09 R271; RFC 768 over the IPv6 pseudo-header, PRESUMED, notes/assumptions/19.md). -/
def udpSumOk (l : List Byte) : Bool :=
  beAt l 64 2 != 0 && udpSum l == 0xFFFF

/-- The frame's bytes as a mesh packet holds them: checksum 0, padded to units of 32. -/
def oedAsMesh (l : List Byte) : List Byte :=
  l.take 64 ++ zeros 2 ++ l.drop 66 ++ zeros ((l.length + 31) / 32 * 32 - l.length)

/-- An OED frame's header passes: an Oxenambe packet for an OED endpoint of this device on CH0, CH4, CH5 or CH6 (spec/11 R387, spec/09 R297). -/
def State.oedHeaderOk (s : State) (l : List Byte) : Bool :=
  let m := oedAsMesh l
  let p := readPkt m
  s.headerOk m && 64 ≤ l.length && l.length ≤ 9216 && l.length == 98 + beAt l 83 2 && udpSumOk l
    && (p.ch == 0 || p.ch == 4 || p.ch == 5 || p.ch == 6) && 1 < p.hop && !s.tooOld p
    && (!s.time.aligned || s.router.use p.epoch != .free)
    && prefixOf p.dst == s.oed.pfx.toNat && p.part == idPart (idOf p.dst) && idCoord (idOf p.dst) == s.coord

/-- A counter above the highest accepted, or one of the 64 below it not yet seen (spec/13 R454). -/
def Replay.accepts (r : Replay) (c : Nat) : Bool :=
  if !r.any then true else if r.high < c then true else c < r.high && r.high ≤ c + 64 && !r.got.contains c
/-- Record an accepted counter. -/
def Replay.take (r : Replay) (c : Nat) : Replay :=
  if !r.any then { r with high := c, any := true, got := [] }
  else if r.high < c then { r with high := c, got := (r.high :: r.got).filter (fun g => c ≤ g + 64) }
  else { r with got := c :: r.got }
/-- The session with a peer, by its coordinate. -/
def Oed.session (o : Oed) (peer : Nat) : Option OedSession := o.sessions.find? (fun e => e.peer == peer)
/-- A traffic key with its replay window, if the device has derived it. -/
def Oed.window (o : Oed) (k : Nat × Nat × Nat) : Option Replay := (o.replay.find? (fun e => e.1 == k)).map (fun e => e.2)
/-- The traffic key from a peer's partition endpoint to one of this device's: the one derived already, or a new one; the peer's claim nonce, which its session packets carry, is a free value (spec/13 R454; notes/assumptions/126.md). -/
def State.oedKey (s : State) (z : BitVec 528) (p : MeshPkt) (k : Nat × Nat × Nat) : Replay :=
  (s.oed.window k).getD
    (let t := oedTrafficKey z p.src p.dst (Config.peerNonce s.fresh) (claimNonce (s.part p.part).claimNo)
     { key := t.1, salt := t.2 })
/-- A frame received on an OED port that is up (spec/11 R387, spec/13 R454): one that passes is checked against the session, the replay window and its tag, and delivered; management packets form sessions and carry no trailer. Every other frame is discarded and counted. -/
def State.oedFrame (s : State) (port : Nat) (bytes : List Byte) (counter : DWord) (tagOk : Bool) : State :=
  let p := readPkt (oedAsMesh bytes)
  if !s.oedHeaderOk bytes then s.oedDiscard
  else if idMgmt (idOf p.dst) then
    if p.typ == 8 && s.rst.phase != .warm then s.arrive (13 + port) p false else s.oedDiscard
  else
    let st := (s.part p.part).st
    let peer := packCoord (idCoord (idOf p.src))
    let key := (peer, idPart (idOf p.src), p.part)
    match s.oed.session peer with
    | none => s.oedDiscard
    | some e =>
      let w := s.oedKey e.z p key
      if !(st == .running || st == .paused) || !(s.part p.part).keys || p.payload.length < 24 || !w.accepts counter.toNat || !tagOk then s.oedDiscard
      else
        let s1 := { s with oed := { s.oed with replay := (key, w.take counter.toNat) :: s.oed.replay.filter (fun e => e.1 != key) }, fresh := s.fresh + 1 }
        s1.arrive (13 + port) { p with payload := p.payload.take (p.payload.length - 24) } false
/-- OED_FRAME (spec/11 R387, R393, spec/13 R454): the FEC codewords that the receive side has corrected and could not correct since the last frame are counted, and the frame is handled. -/
def execOedFrame (port : Nat) (bytes : List Byte) (counter : DWord) (tagOk : Bool) (fecCorr fecBad : Nat) (s : State) : Host.Outcome State Fault Refusal :=
  let y := s.oedPort port
  if 4 ≤ port || !(y.linkA || y.linkB) then .next s
  else .next ((s.setOedPort port { y with fecCorr := y.fecCorr + BitVec.ofNat 64 fecCorr, fecUncorr := y.fecUncorr + BitVec.ofNat 64 fecBad }).oedFrame port bytes counter tagOk)

/-- LLDP (spec/11 R386): the frame is delivered to device management, which sends its own. -/
def execLldp (port : Nat) (bytes : List Byte) (s : State) : Host.Outcome State Fault Refusal :=
  let y := s.oedPort port
  if port < 4 && (y.linkA || y.linkB) then
    .next (({ s with oed := { s.oed with lldpRx := (port, bytes) :: s.oed.lldpRx } }).oedSend port (oedPlain port .lldp))
  else .next s

/-- PFC_FRAME (spec/11 R386): the priorities enabled in PFC_EN pause; an IEEE 802.3 PAUSE frame is discarded and counted. -/
def execPfcFrame (port : Nat) (pause : Bool) (prios : Byte) (s : State) : Host.Outcome State Fault Refusal :=
  let y := s.oedPort port
  if 4 ≤ port || !(y.linkA || y.linkB) then .next s
  else if pause then .next s.oedDiscard
  else .next ((s.setOedPort port { y with paused := prios &&& y.pfcEn }).oedFlush port)

/-- ICMPV6 (spec/11 R386): Neighbor Discovery and Echo for an OED endpoint address are answered; anything else is discarded and counted. -/
def execIcmpv6 (port : Nat) (forUs : Bool) (msg : IcmpMsg) (s : State) : Host.Outcome State Fault Refusal :=
  let y := s.oedPort port
  if 4 ≤ port || !(y.linkA || y.linkB) then .next s
  else if !forUs then .next s.oedDiscard
  else match msg with
    | .neighborSolicitation => .next (s.oedSend port (oedPlain port .neighborAdvertisement))
    | .echoRequest => .next (s.oedSend port (oedPlain port .echoReply))
    | .other => .next s.oedDiscard

/-- Write OED_PORT_CFG.MODE: a change retrains the port (spec/11 R393). -/
def State.writeOedMode (s : State) (k : Nat) (m : BitVec 2) : State :=
  let y := s.oedPort k
  if y.mode = m then s else s.setOedPort k { y with mode := m, linkA := false, linkB := false }

/-- OED_PORT_CFG (spec/11 R392, R393): a reserved MODE is refused and counted. -/
def execOedPortCfg (port : Nat) (mode : BitVec 2) (s : State) : Host.Outcome State Fault Refusal :=
  if 4 ≤ port then .next s
  else if 2 ≤ mode.toNat then .next (s.countErr (chipPage 3).1 (chipPage 3).2)
  else .next (s.writeOedMode port mode)

/-- A laser position of an OED port is out of service for good (spec/11 R380). -/
def State.oedHalfOut (s : State) (port half : Nat) : Bool := (s.chip 3).wl (2 * port + half) == 5
/-- OED_LINK_STATE (spec/11 R380, R393): the port, or sub-port A or B, comes up or loses its link. No link comes up while the light is at the dump port, nor one whose lanes a retired laser fed: in MODE 0 the port then runs on its other half. What waited for the link leaves. -/
def execOedLinkState (port sub : Nat) (up : Bool) (s : State) : Host.Outcome State Fault Refusal :=
  let y := s.oedPort port
  let out := if y.mode = 1 then s.oedHalfOut port sub else s.oedHalfOut port 0 && s.oedHalfOut port 1
  if 4 ≤ port || (up && ((s.chip 3).dump || out || !s.linksStart)) then .next s
  else if sub = 0 then .next ((s.setOedPort port { y with linkA := up }).oedFlush port)
  else if sub = 1 && y.mode = 1 then .next ((s.setOedPort port { y with linkB := up }).oedFlush port)
  else .next s

/-- OED_DRAIN_SAFE (spec/11 R389): 1 ms after it was drained an OED port shows SAFE, once its queue is empty. -/
def execOedDrainSafe (port : Nat) (s : State) : Host.Outcome State Fault Refusal :=
  let x := s.chip 3
  if port < 4 && x.drain.getLsbD port && (s.oedPort port).queue.isEmpty then .next (s.setChip 3 { x with safe := setBit x.safe port true }) else .next s

end Sys2Proof.Machine
end

