-- ==== Sys2Proof/Machine/Memory.lean ====
section
/-! DEFINITION. The three memory tiers: which addresses are mapped and granted, reads and writes with their uncorrectable granules and lines, the frame table and the CXL windows (spec/01 R21 to R24, spec/08). -/

namespace Sys2Proof.Machine

/-! ## Ranges -/

/-- An address lies in one of some ranges. -/
def inRange (l : List (Nat × Nat)) (a : Nat) : Bool := l.any (fun r => r.1 ≤ a && a < r.2)
/-- Ranges without [lo, hi). -/
def subRange (l : List (Nat × Nat)) (lo hi : Nat) : List (Nat × Nat) :=
  l.flatMap (fun r => (if r.1 < min r.2 lo then [(r.1, min r.2 lo)] else []) ++ (if max r.1 hi < r.2 then [(max r.1 hi, r.2)] else []))
/-- Ranges with [lo, hi). -/
def addRange (l : List (Nat × Nat)) (lo hi : Nat) : List (Nat × Nat) := (lo, hi) :: subRange l lo hi
/-- Two byte ranges meet. -/
def meets (a n b m : Nat) : Bool := a < b + m && b < a + n

/-! ## Near memory: interfaces and frames (spec/08 R240 to R242) -/

/-- Interface i is fitted (spec/00 R2, spec/08 R240). -/
def State.ifFitted (s : State) (i : Nat) : Bool := i < 48 && s.variant.nmcFitted (i / 4)
/-- The state of an interface: 0 ACTIVE, 1 RETIRING, 2 RETIRED, 3 ABSENT (spec/08 Table 8-8). -/
def State.ifState (s : State) (i : Nat) : Nat :=
  if !s.ifFitted i then 3 else if s.nm.retired.getLsbD i then 2 else Tbl.get 0 s.nm.ifs i
/-- The list L of spec/08 R241: the fitted interfaces that the fuses do not retire. The retirements of the service record are applied to the table afterwards, in recorded order (notes/assumptions/104.md). -/
def State.baseIfs (s : State) : List Nat := (List.range 48).filter (fun i => s.ifFitted i && !s.nm.base.getLsbD i)
/-- Frames of the populated range: 1,280 an interface (spec/08 R242). -/
def State.frames (s : State) : Nat := 1280 * (s.baseIfs.length - s.nm.withdrawn)
/-- The populated capacity P in GiB (spec/08 R242). -/
def State.populated (s : State) : Nat := 20 * (s.baseIfs.length - s.nm.withdrawn)
/-- The interface and slot of a frame (spec/08 R241, R250). -/
def State.place (s : State) (fr : Nat) : Nat × Nat :=
  match Tbl.find s.nm.moved fr with
  | some p => p
  | none =>
    let l := s.baseIfs
    (l.getD (fr % l.length) 0, fr / l.length)
/-- The interface that holds a near-memory address. -/
def State.ifOf (s : State) (a : Nat) : Nat := (s.place (a / 2 ^ 24)).1
/-- The controller page of a memory device: device d is controller d mod 6 of die d div 6 (spec/16 Table 16-1). -/
def nmcPage (d : Nat) : Nat × Nat := (d / 6, 0x80 + d % 6)

/-! ## CXL windows (spec/08 R254) -/

/-- A window that holds an address. -/
def CxlWin.covers (w : CxlWin) (a : Nat) : Bool := w.base ≤ a && a < w.base + 2 ^ 30 * w.gib
/-- The port whose range an address lies in (spec/08 R254). -/
def cxlPort (a : Nat) : Nat := if a < 0x50000000000 then 0 else 1
/-- The window that covers a CXL address, if any. -/
def State.window (s : State) (a : Nat) : Option CxlWin :=
  ((s.cxl (cxlPort a)).wins.find? (fun w => w.2.covers a)).map (fun w => w.2)
/-- A CXL address has no working device behind it (spec/08 R255). -/
def State.lostAt (s : State) (a : Nat) : Bool :=
  cxlBase ≤ a && a < 0x90000000000 && (match s.window a with | some w => w.lost | none => true)
/-- CXL unit u lies in a window whose device works, and can be granted (spec/08 R254). -/
def State.cxlUnit (s : State) (u : Nat) : Bool := !s.lostAt (cxlBase + 2 ^ 30 * u)
/-- A lost window that no partition holds a unit of is unmapped (spec/08 R254). -/
def State.unmapLost (s : State) : State :=
  let held := fun (w : CxlWin) => (List.range 8).any (fun p => (s.part p).held && (s.part p).cxl.any (fun u => w.covers (cxlBase + 2 ^ 30 * u)))
  s.each [0, 1] (fun s k =>
    let c := s.cxl k
    if c.wins.any (fun w => w.2.lost && !held w.2) then s.setCxl k { c with wins := c.wins.filter (fun w => !w.2.lost || held w.2) } else s)
/-- What a finished thaw leaves to do (spec/08 R254). -/
def State.afterThaw (s : State) : State := s.unmapLost

/-! ## The address map and the grants (spec/01 R21 to R24) -/

/-- An address is mapped (spec/01 R21, spec/00 R3, spec/08 R254). -/
def State.mapped (s : State) (a : Nat) : Bool :=
  if a < 80 * 2 ^ 30 * s.variant.devices then true
  else if a < cxlBase then false
  else if a < 0x90000000000 then (s.window a).isSome
  else (isSp a && spFloe a < s.variant.floes) || (csrBase 0 ≤ a && a < csrBase 2)
/-- An address lies in partition p's grants (spec/01 R22, R23, spec/08 R242). -/
def State.granted (s : State) (p a : Nat) : Bool :=
  let x := s.part p
  if a < cxlBase then a < 2 ^ 30 * s.populated && x.near.contains (a / 2 ^ 30)
  else if a < 0x90000000000 then (s.window a).isSome && x.cxl.contains (above a cxlBase / 2 ^ 30)
  else isSp a && s.floePart (spFloe a) == some p && above a spBase % spStride < spSize
/-- A byte of each 2 MiB piece that n bytes from a touch; regions, units and windows begin and end at such pieces. -/
def pieces (a n : Nat) : List Nat :=
  if n = 0 then [] else a :: (List.range ((a + n - 1) / 2 ^ 21 - a / 2 ^ 21)).map (fun i => 2 ^ 21 * (a / 2 ^ 21 + 1 + i))
/-- The fault of a floe access of partition p: ADDR_UNMAPPED 0x08, ADDR_DENIED 0x09 (spec/01 R23, spec/06 R190). -/
def State.accessFault (s : State) (p a n : Nat) : Option Nat :=
  let l := pieces a n
  if l.any (fun b => !s.mapped b) then some 0x08 else if l.any (fun b => !s.granted p b) then some 0x09 else none
/-- n bytes from a touch the code region of a floe that satisfies a test (spec/06 R160, R161). -/
def State.hitsCode (s : State) (a n : Nat) (g : Nat → Bool) : Bool :=
  n != 0 && isSp a && (List.range (spFloe (a + n - 1) - spFloe a + 1)).any (fun i =>
    let f := spFloe a + i
    let x := s.floe f
    g f && meets a n (spAddr f x.codeBase.toNat) x.codeSize.toNat)
/-- A stream is neither IDLE nor HALTED (spec/06 R161). -/
def StreamSt.busy (x : StreamSt) : Bool := x.st != .idle && x.st != .halted
/-- MEM_READ and MEM_WRITE may touch n bytes from a (spec/01 R24, spec/06 R161, spec/00 R3). -/
def State.hostMay (s : State) (p a n : Nat) (write : Bool) : Bool :=
  (s.accessFault p a n).isNone
    && !(write && s.hitsCode a n (fun f => (s.floe f).fwd.busy || (s.floe f).bwd.busy || (s.floe f).upd.busy))

/-- Writes of floe f to some ranges would touch a code region of its partition (spec/06 R161). -/
def State.codeWrite (s : State) (f : Nat) (l : List (Nat × Nat)) : Bool :=
  l.any (fun r => s.hitsCode r.1 r.2 (fun g => (s.floePart g).isSome && s.floePart g == s.floePart f))
/-- The first fault of floe f's accesses to some ranges (spec/01 R23, spec/06 R190). -/
def State.rangeFault (s : State) (f : Nat) (l : List (Nat × Nat)) : Option Nat :=
  match s.floePart f with
  | none => some 0x09
  | some p =>
    let r := l.map (fun e => s.accessFault p e.1 e.2)
    if r.contains (some 0x08) then some 0x08 else if r.contains (some 0x09) then some 0x09 else none
/-- Some source byte is a destination byte. -/
def rangesMeet (l m : List (Nat × Nat)) : Bool := l.any (fun p => m.any (fun q => meets p.1 p.2 q.1 q.2))
/-- The lowest fault of floe f's accesses: CODE_WRITE 0x05, ADDR_UNMAPPED 0x08, ADDR_DENIED 0x09 (spec/01 R23, spec/06 R161, R190). An instruction that also breaks a rule of its own unit is checked for the bytes its fields address all the same (notes/assumptions/109.md). -/
def State.touchFault (s : State) (f : Nat) (reads writes : List (Nat × Nat)) : Option Nat :=
  if s.codeWrite f writes then some 0x05 else s.rangeFault f (reads ++ writes)

/-- The page of the controller or port that serves an address outside the scratchpads. -/
def State.memPage (s : State) (b : Nat) : Option (Nat × Nat) :=
  if isSp b || 0x90000000000 ≤ b then none else some (if b < cxlBase then nmcPage (s.ifOf b / 4) else (cxlPort b, 0x88))
/-- Requests to an address outside the scratchpads wait: its controller's or port's page holds them, is being reset, or is being changed by a live update (spec/14 R478, spec/15 R507, spec/16 R534). -/
def State.memHeld (s : State) (a n : Nat) : Bool :=
  (pieces a n).any (fun b => (s.memPage b).any (fun g => (s.hdr g.1 g.2).hold || (s.hdr g.1 g.2).resetState != 0 || (s.hdr g.1 g.2).liveActive))

/-! ## Uncorrectable granules and lines (spec/08 R238, R244, R245, R255) -/

/-- Send an event about partition p to its owner and to every management endpoint, one copy to each (spec/12 Table 12-13). -/
def State.eventBoth (s : State) (p code die : Nat) (pl : List Byte) : State :=
  s.each (List.range 8) (fun s e => if (s.part p).owner == some e || (s.ep e).mgmt then s.event e p code die pl else s)
/-- An event about an address: to the owner of the partition that holds it, if any, and to management. -/
def State.eventAt (s : State) (p : Option Nat) (code die : Nat) (pl : List Byte) : State :=
  match p with
  | some q => s.eventBoth q code die pl
  | none => s.eventMgmt code die pl

/-- A partition is running a step: RUNNING or PAUSED (spec/08 R238). -/
def State.inStep (s : State) (p : Nat) : Bool := (s.part p).st == .running || (s.part p).st == .paused
/-- Set a bit of a floe's record byte (spec/10 Table 10-8). -/
def State.setRecord (s : State) (f bit : Nat) : State :=
  let x := s.floe f
  s.setFloe f { x with record := setBit x.record bit true }
/-- Record a non-finite value on floe f if its partition is running a step (spec/01 R27, spec/08 R238). -/
def State.recordNf (s : State) (f : Nat) : State :=
  match s.floePart f with
  | some p => if s.inStep p then s.setRecord f 0 else s
  | none => s
/-- Record a non-finite value for the partition that holds a line: on the requesting floe, else on its lowest floe (notes/assumptions/25.md). -/
def State.recordLine (s : State) (who : Option Nat) (a : Nat) : State :=
  match who with
  | some f => s.recordNf f
  | none => match s.unitHolder a with
    | some p => match s.partFloes p with
      | f :: _ => s.recordNf f
      | [] => s
    | none => s

/-- Bytes protected together: a granule of 32 or a line of 64 (spec/08 R235, R243). -/
def unitSize (a : Nat) : Nat := if isSp a then 32 else 64
/-- The first bytes of the granules or lines that n bytes from a touch. -/
def unitBases (a n : Nat) : List Nat :=
  let z := unitSize a
  if n = 0 then [] else (List.range ((a + n - 1) / z - a / z + 1)).map (fun i => (a / z + i) * z)
/-- Address x lies in the granule or line that begins at b. -/
def inUnit (b x : Nat) : Bool := x / unitSize b == b / unitSize b
/-- An error that leaves the granule or line at b uncorrectable: more than one wrong bit of a granule (spec/08 R238); more than three wrong bytes of a near-memory line, a line from the wrong address, a fifth failed transfer (R243, R244); poison of a CXL line (R255). The codes promise detection up to two bits and five bytes; the model detects more as well (notes/assumptions/105.md). -/
def errFatal (b : Nat) (e : ReadErr) : Bool :=
  match e with
  | .wrong n => if isSp b then 2 ≤ n else b < cxlBase && 4 ≤ n
  | .misplaced => b < cxlBase
  | .edc n => b < cxlBase && 5 ≤ n
  | .poisoned => cxlBase ≤ b && !isSp b
/-- An error that the code of the granule or line at b corrects. -/
def errMends (b : Nat) (e : ReadErr) : Bool :=
  match e with
  | .wrong n => 1 ≤ n && (if isSp b then n == 1 else b < cxlBase && n ≤ 3)
  | .misplaced | .edc _ | .poisoned => false
/-- A near-memory write of the line at b that EDC fails for good (spec/08 R244). -/
def errFailsWrite (b : Nat) (e : ReadErr) : Bool :=
  match e with
  | .edc n => b < cxlBase && 5 ≤ n
  | .wrong _ | .misplaced | .poisoned => false
/-- Retries of a transfer of the line at b: at most four (spec/08 R244). -/
def errRetries (b : Nat) (e : ReadErr) : Nat :=
  match e with
  | .edc n => if b < cxlBase then min n 4 else 0
  | .wrong _ | .misplaced | .poisoned => 0
/-- The errors that the accesses of a step met in the granule or line at b. -/
def errsAt (errs : Errs) (b : Nat) : List ReadErr := (errs.filter (fun e => inUnit b e.1)).map (fun e => e.2)
/-- A request to the CXL line at b has stayed unanswered and its requester still waits (spec/08 R255). -/
def State.lateAt (s : State) (b : Nat) : Bool := cxlBase ≤ b && !isSp b && (s.cxl (cxlPort b)).late.contains b
/-- The line at b lies on an interface whose forced retirement has not completed its remap (spec/08 R251). -/
def State.dueAt (s : State) (b : Nat) : Bool := b < cxlBase && !s.nm.due.isEmpty && s.nm.due.contains (s.ifOf b)
/-- The granule or line that begins at b reads as uncorrectable. -/
def State.unitBad (s : State) (errs : Errs) (b : Nat) : Bool :=
  (errsAt errs b).any (fun e => errFatal b e)
    || (if isSp b then s.spBad.contains b else inRange s.poison b || s.lostAt b || s.lateAt b || s.dueAt b)
/-- A write of the line at b fails. -/
def State.writeFails (s : State) (errs : Errs) (b : Nat) : Bool := (errsAt errs b).any (fun e => errFailsWrite b e) || s.dueAt b
/-- No granule or line is uncorrectable at all, and no access met an error. -/
def State.allGood (s : State) (errs : Errs) (a : Nat) : Bool :=
  errs.isEmpty && (if isSp a then s.spBad.isEmpty
    else s.poison.isEmpty && s.nm.due.isEmpty && (a < cxlBase || !(s.cxls.any (fun c => !c.2.late.isEmpty || c.2.wins.any (fun w => w.2.lost)))))

/-- The MEM_ERROR event of a granule or line (spec/12 Table 12-13). -/
def State.memError (s : State) (b : Nat) : State :=
  if isSp b then
    let pg := s.floePage (spFloe b)
    s.eventAt (s.floePart (spFloe b)) 0x10 pg.1 (leBytes 4 (blockAddr pg.1 pg.2) ++ leBytes 8 (above b spBase % spStride))
  else
    let pg := if b < cxlBase then nmcPage (s.ifOf b / 4) else (cxlPort b, 0x88)
    s.eventAt (s.unitHolder b) 0x10 pg.1 (leBytes 4 (blockAddr pg.1 pg.2) ++ leBytes 8 b)

/-- The MEM_RETIRE event (spec/12 Table 12-13). -/
def State.retireEvent (s : State) (i phase : Nat) : State :=
  s.eventMgmt 0x11 (nmcPage (i / 4)).1 (leBytes 1 i ++ leBytes 1 phase ++ leBytes 2 s.populated)
/-- A planned retirement is triggered: it takes its place in the order (spec/08 R249, R252). -/
def State.planRetire (s : State) (i : Nat) : State :=
  if s.ifState i ≠ 0 || s.nm.queue.contains i then s else { s with nm := { s.nm with queue := s.nm.queue ++ [i] } }
/-- A corrected line of interface i: above NMC_CE_THRESH in the patrol period it triggers a planned retirement or, with AUTO_RETIRE at 0, one event (spec/08 R244, R249; notes/assumptions/35.md). -/
def State.corrected (s : State) (i : Nat) : State :=
  let x := s.nmc (i / 4)
  let n := min 65535 (Tbl.get 0 x.ifCe i + 1)
  let y := { x with ecc := bump x.ecc, ifCe := x.ifCe.put i n }
  let s1 := (s.setNmc (i / 4) y).rasReport 0
  if n ≤ x.thresh.toNat then s1
  else if s1.nm.autoRetire then s1.planRetire i
  else if y.told.contains i then s1
  else (s1.setNmc (i / 4) { y with told := i :: y.told }).retireEvent i 1
/-- A granule or line was corrected (spec/08 R238, R244). -/
def State.noteCe (s : State) (b : Nat) : State :=
  if isSp b then
    let x := s.floe (spFloe b)
    (s.setFloe (spFloe b) { x with spCe := bump x.spCe }).rasReport 0
  else if b < cxlBase then s.corrected (s.ifOf b)
  else s
/-- The retries of the transfers of the line at b (spec/08 R244). -/
def State.noteRetries (s : State) (errs : Errs) (b : Nat) : State :=
  let n := (errsAt errs b).foldl (fun n e => n + errRetries b e) 0
  if n = 0 then s
  else
    let d := s.ifOf b / 4
    let x := s.nmc d
    s.setNmc d { x with edcRetry := x.edcRetry + BitVec.ofNat 64 n }

/-- Count an uncorrectable read or failed write of a near-memory line; the sixteenth uncorrectable read of a patrol period forces the interface's retirement, whose remap the next retirement step carries out (spec/08 R244, R249, R251). -/
def State.countUe (s : State) (b : Nat) (read : Bool) : State :=
  let i := s.ifOf b
  let x := s.nmc (i / 4)
  let n := Tbl.get 0 x.ifUe i + b2n read
  let s1 := s.setNmc (i / 4) { x with ue := bump x.ue, ifUe := x.ifUe.put i n }
  if read && n = 16 then { s1 with nm := { s1.nm with due := s1.nm.due ++ [i] } } else s1

/-- An uncorrectable read of the granule or line at b (spec/08 R238, R244, R255): counted, flagged, recorded and reported. A patrol read records nothing (spec/08, "Does an uncorrectable read discard a step"). A CXL request that stayed unanswered was counted and reported when its time ran out. -/
def State.noteUe (s : State) (who : Option Nat) (patrol : Bool) (b : Nat) : State :=
  if isSp b then
    let f := spFloe b
    let x := s.floe f
    let s1 := s.setFloe f { x with spUe := bump x.spUe }
    let s2 := { s1 with spBad := if s1.spBad.contains b then s1.spBad else b :: s1.spBad }
    (((s2.raise (s2.floePage f).1 (s2.floePage f).2 1).recordNf f)).memError b
  else if b < cxlBase then
    let s1 := s.countUe b true
    let pg := nmcPage (s.ifOf b / 4)
    let s2 := s1.raise pg.1 pg.2 0
    (if patrol then s2 else s2.recordLine who b).memError b
  else
    let k := cxlPort b
    let c := s.cxl k
    if s.lateAt b then (s.setCxl k { c with late := c.late.erase b }).recordLine who b
    else
      let s1 := if s.lostAt b then s else (s.setCxl k { c with poison := bump c.poison }).raise k 0x88 0
      (s1.recordLine who b).memError b

/-- What a read of the granule or line at b leaves: its retries and a correction counted, an uncorrectable one noted. -/
def State.noteUnit (s : State) (who : Option Nat) (errs : Errs) (b : Nat) : State :=
  let s1 := s.noteRetries errs b
  if s.unitBad errs b then s1.noteUe who false b
  else if (errsAt errs b).any (fun e => errMends b e) then s1.noteCe b else s1
/-- What a read of n bytes from a leaves. -/
def State.noteRange (s : State) (who : Option Nat) (errs : Errs) (a n : Nat) : State :=
  if s.allGood errs a then s else s.each (unitBases a n) (fun s b => s.noteUnit who errs b)
/-- n bytes from a as a reader gets them: 0xFF from an uncorrectable granule or line (spec/08 R238). -/
def State.fill (s : State) (errs : Errs) (a n : Nat) : List Byte :=
  if s.allGood errs a then s.bytes a n
  else (s.bytes a n).mapIdx (fun i v => if s.unitBad errs (unitSize a * ((a + i) / unitSize a)) then 0xFF else v)

/-- A read of n bytes from a: the bytes, and whether none was uncorrectable. -/
def State.readMem (s : State) (who : Option Nat) (errs : Errs) (a n : Nat) : State × List Byte × Bool :=
  (s.noteRange who errs a n, s.fill errs a n, s.allGood errs a || !(unitBases a n).any (fun b => s.unitBad errs b))
/-- A read by the host (spec/12 R431). -/
def State.devRead (s : State) (a n : Nat) (errs : Errs) : State × List Byte × Bool := s.readMem none errs a n

/-! ### Copies whose requests an isolation wrapper has ended (spec/15 R508) -/

/-- An address is served by one of some pages. -/
def State.served (s : State) (l : List (Nat × Nat)) (b : Nat) : Bool := (s.memPage b).any (fun g => l.contains g)
/-- n bytes from a as a copy reads them whose requests to some pages have ended: 0xFF from those. -/
def State.fillEnded (s : State) (ended : List (Nat × Nat)) (errs : Errs) (a n : Nat) : List Byte :=
  if ended.isEmpty then s.fill errs a n else (s.fill errs a n).mapIdx (fun i v => if s.served ended (a + i) then 0xFF else v)
/-- What a copy's read of n bytes from a leaves. -/
def State.noteEnded (s : State) (who : Option Nat) (ended : List (Nat × Nat)) (errs : Errs) (a n : Nat) : State :=
  if ended.isEmpty then s.noteRange who errs a n
  else s.each ((unitBases a n).filter (fun b => !s.served ended b)) (fun s b => s.noteUnit who errs b)

/-- A failed write of the line at b: it holds the poison code (spec/08 R244, R245, R256). -/
def State.failWrite (s : State) (who : Option Nat) (b : Nat) : State :=
  if b < cxlBase then
    let s1 := { s.countUe b false with poison := addRange s.poison b (b + 64) }
    let pg := nmcPage (s.ifOf b / 4)
    (s1.raise pg.1 pg.2 1).recordLine who b
  else { s.recordLine who b with poison := addRange s.poison b (b + 64) }

/-- The granules that turn out uncorrectable in a step are so in storage, for every read of the step. -/
def State.strike (s : State) (errs : Errs) : State :=
  { s with spBad := (((errs.filter (fun e => isSp e.1 && errFatal e.1 e.2)).map (fun e => e.1 / 32 * 32)).filter (fun b => !s.spBad.contains b)).eraseDups ++ s.spBad }

/-- Prepare the granule or line at b for a write of n bytes from a: whole, it becomes good unless its write fails; in part, what an uncorrectable read leaves is 0xFF in a granule and poison in a line, the read and the failed write each noted (spec/08 R238, R244, R245, R256). The second part says that a read of the merge was uncorrectable or the storage is unavailable. -/
def State.openUnit (s : State) (who : Option Nat) (errs : Errs) (a n b : Nat) : State × Bool :=
  let z := unitSize b
  let whole := decide (a ≤ b) && decide (b + z ≤ a + n)
  if isSp b then
    if whole || !s.unitBad errs b then
      let s1 := if whole then s else s.noteUnit (some (spFloe b)) errs b
      ({ s1 with spBad := s1.spBad.filter (fun x => x ≠ b) }, false)
    else
      let s1 := s.noteUe (some (spFloe b)) false b
      ({ s1.poke b (List.replicate 32 0xFF) with spBad := s1.spBad.filter (fun x => x ≠ b) }, true)
  else if s.lostAt b then (s.recordLine who b, true)
  else if whole then
    let s1 := s.noteRetries errs b
    (if s.lateAt b then ({ s1.setCxl (cxlPort b) { s1.cxl (cxlPort b) with late := (s1.cxl (cxlPort b)).late.erase b } with poison := addRange s1.poison b (b + 64) }).recordLine who b
     else if s.writeFails errs b then s1.failWrite who b
     else { s1 with poison := subRange s1.poison b (b + 64) }, false)
  else if s.unitBad errs b then (((s.noteRetries errs b).noteUe who false b).failWrite who b, true)
  else if s.writeFails errs b then ((s.noteRetries errs b).failWrite who b, false)
  else (s.noteUnit who errs b, false)
/-- Prepare granules and lines in order. -/
def State.openUnits (s : State) (who : Option Nat) (errs : Errs) (a n : Nat) : List Nat → State × Bool
  | [] => (s, false)
  | b :: r =>
    let (s1, x) := s.openUnit who errs a n b
    let (s2, y) := State.openUnits s1 who errs a n r
    (s2, x || y)
/-- A write of bytes at a, with the errors its transfers and merges meet. The second part: every merge read was good and the storage is there. -/
def State.writeMem (s : State) (who : Option Nat) (errs : Errs) (a : Nat) (l : List Byte) : State × Bool :=
  if s.allGood errs a && !s.lostAt a then (s.poke a l, true)
  else
    let (s1, hit) := s.openUnits who errs a l.length (unitBases a l.length)
    (if s.lostAt a then s1 else s1.poke a l, !hit)
/-- A copy's write of bytes at a: what would go to a page that has ended its requests is dropped (spec/15 R508). -/
def State.writeEnded (s : State) (who : Option Nat) (ended : List (Nat × Nat)) (errs : Errs) (a : Nat) (l : List Byte) : State :=
  if ended.isEmpty then (s.writeMem who errs a l).1
  else s.each ((unitBases a l.length).filter (fun b => !s.served ended b)) (fun s b =>
    let lo := max a b
    (s.writeMem who errs lo (sliceB l (lo - a) (min (a + l.length) (b + unitSize b) - lo))).1)
/-- A write by the host (spec/12 R431). -/
def State.devWrite (s : State) (a : Nat) (l : List Byte) (errs : Errs) : State × Bool := s.writeMem none errs a l
/-- A floe's own write into memory. -/
def State.put (s : State) (f : Nat) (a : Nat) (l : List Byte) : State := (s.writeMem (some f) [] a l).1

end Sys2Proof.Machine
end

