-- ==== Sys2Proof/Machine/Operands.lean ====
section
/-! DEFINITION. Instruction fields, scalar registers, tensor descriptors, the places of a tensor's elements, scales, occupancy and metadata, and the scoreboard (spec/06, spec/03 R74, R75, spec/04 R94 to R101). -/

namespace Sys2Proof.Machine

/-! ## Instruction fields and scalar registers -/

/-- Bits [hi:lo] of an instruction word. -/
def fld (w : IWord) (hi lo : Nat) : Nat := bitsOf w.toNat lo (hi - lo + 1)
/-- Bit i of an instruction word. -/
def flag (w : IWord) (i : Nat) : Bool := w.toNat.testBit i
/-- The opcode (spec/06 R158). -/
def opOf (w : IWord) : Nat := fld w 127 120
/-- A signed 32-bit field. -/
def sfld32 (w : IWord) (lo : Nat) : Int := (BitVec.ofNat 32 (bitsOf w.toNat lo 32)).toInt

/-- Read a scalar register; S0 reads 0 (spec/06 R157). -/
def StreamSt.reg (x : StreamSt) (r : Nat) : DWord := if r = 0 then 0 else Tbl.get 0 x.regs r
/-- Write a scalar register; a write to S0 is discarded (spec/06 R157). -/
def StreamSt.setReg (x : StreamSt) (r : Nat) (v : DWord) : StreamSt := if r = 0 then x else { x with regs := x.regs.put r v }
/-- Bits [31:0] of a scalar register. -/
def StreamSt.reg32 (x : StreamSt) (r : Nat) : F32 := BitVec.truncate 32 (x.reg r)
/-- Bits [n-1:0] of a scalar register as a number. -/
def StreamSt.regLow (x : StreamSt) (n r : Nat) : Nat := bitsOf (x.reg r).toNat 0 n
/-- A pending write of register r begins; S0 never has one (spec/06 R169). -/
def StreamSt.addPend (x : StreamSt) (r : Nat) : StreamSt := if r = 0 then x else { x with pend := r :: x.pend }
/-- A pending write of register r ends. -/
def StreamSt.endPend (x : StreamSt) (r : Nat) : StreamSt := { x with pend := x.pend.erase r }

/-! ## Descriptors (spec/06 R172 to R175) -/

/-- The formats with a scale plane (spec/06 Table 6-9). -/
def scaled (fmt : Nat) : Bool := fmtMx fmt || fmt == 10
/-- The alignment of BASE (spec/06 Table 6-9). -/
def baseAlign (fmt : Nat) : Nat := if fmt = 0 then 32 else if fmt4 fmt then 512 else if fmt = 6 then 2048 else if fmt = 7 then 4 else 1024
/-- Bytes of a storage block (spec/03 Table 3-3, spec/06 Table 6-9). -/
def blockBytes (fmt : Nat) : Nat := if fmt4 fmt then 512 else if fmt = 6 then 2048 else if fmt = 7 then 2176 else 1024
/-- The fields of a descriptor's 32 bytes (spec/06 Table 6-8). -/
def descOf (l : List Byte) : Desc :=
  let q := leAt l 0 8
  let g := leAt l 24 8
  { base := bitsOf q 0 52, fmt := bitsOf q 52 4, shape := bitsOf q 56 2, occ := q.testBit 58, isMeta := q.testBit 59,
    dim0b := leAt l 8 2, dim1b := leAt l 10 2, scaleOff := bitsOf (leAt l 12 4) 0 28, tid := leAt l 16 4,
    occOff := leAt l 20 3, org0b := bitsOf g 0 20, org1b := bitsOf g 20 16, gdim1b := bitsOf g 36 16 }
/-- The element index c of a local element (spec/06 R174). -/
def Desc.index (d : Desc) (r col : Nat) : Nat := (32 * d.org0b + r) * 32 * d.gdim1b + 32 * d.org1b + col
/-- The occupancy base (spec/06 R173). -/
def Desc.occBase (d : Desc) : Nat := d.base + 8 * d.occOff
/-- The scale base (spec/06 R173). -/
def Desc.scaleBase (d : Desc) : Nat := d.base + 32 * d.scaleOff
/-- The descriptor is valid (spec/06 R175). "Formats without scales" is read as those without a scale plane, so that BS16, whose scales lie in each block (Table 6-9), takes SHAPE 0b00 only: DESIGN CHOICE (notes/assumptions/114.md). -/
def descOk (l : List Byte) : Bool :=
  let q := leAt l 0 8
  let d := descOf l
  bitsOf q 60 4 == 0 && bitsOf (leAt l 12 4) 28 4 == 0 && leAt l 23 1 == 0 && bitsOf (leAt l 24 8) 52 12 == 0
    && (d.fmt ≤ 7 || d.fmt == 9 || d.fmt == 10) && d.shape != 3 && (scaled d.fmt || d.shape == 0)
    && d.dim0b != 0 && d.dim1b != 0 && d.base % baseAlign d.fmt == 0 && (!d.occ || d.occBase % 8 == 0)
    && d.org1b + d.dim1b ≤ d.gdim1b
    && (!d.isMeta || (d.dim1b % 2 == 0 && d.org1b % 2 == 0 && d.gdim1b % 2 == 0))
    && d.index (32 * d.dim0b - 1) (32 * d.dim1b - 1) < 2 ^ 48
/-- The address of the descriptor of a tag (spec/06, "Tensor descriptors"). -/
def State.descAddr (s : State) (f t : Nat) : Nat := spAddr f ((s.floe f).descBase.toNat + 32 * t)
/-- The descriptor bytes of a tag (spec/06 R171). -/
def State.descBytes (s : State) (f t : Nat) : List Byte := s.fill [] (s.descAddr f t) 32
/-- The descriptor of a tag, none where it is invalid. -/
def State.desc (s : State) (f t : Nat) : Option Desc := let l := s.descBytes f t; if descOk l then some (descOf l) else none

/-! ## Planes (spec/03 R74, R75, spec/04 R94 to R99, spec/06 R173) -/

/-- Storage blocks of the element plane: compressed ones of a 2:4 operand. -/
def Desc.nBlocks (d : Desc) : Nat := if d.isMeta then d.dim0b * d.dim1b / 2 else d.dim0b * d.dim1b
/-- Bytes of the element plane. -/
def Desc.elemBytes (d : Desc) : Nat := d.nBlocks * blockBytes d.fmt
/-- Scale bytes of one logical block. -/
def Desc.scaleUnit (d : Desc) : Nat := if !scaled d.fmt then 0 else if d.shape = 0 then 1 else 32
/-- Bytes of the scale plane. -/
def Desc.scaleBytes (d : Desc) : Nat := d.dim0b * d.dim1b * d.scaleUnit
/-- Bytes of the occupancy plane. -/
def Desc.occBytes (d : Desc) : Nat := if d.occ then (d.nBlocks + 7) / 8 else 0
/-- Round up to a multiple. -/
def roundUp (n m : Nat) : Nat := (n + m - 1) / m * m
/-- The metadata base of a 2:4 operand (spec/06 R173). The rule places the plane for formats with scales and for BF16; for RAW and BS16 with META = 1 it says nothing, and the model puts it after the element plane, as for BF16: DESIGN CHOICE (notes/assumptions/114.md). -/
def Desc.metaBase (d : Desc) : Nat := if scaled d.fmt then roundUp (d.scaleBase + d.scaleBytes) 256 else d.base + d.elemBytes
/-- Bytes of the metadata plane. -/
def Desc.metaBytes (d : Desc) : Nat := if d.isMeta then d.nBlocks * 256 else 0
/-- The planes present, in the order elements, scales, metadata, occupancy (spec/10 R330): (address, bytes). -/
def Desc.planes (d : Desc) : List (Nat × Nat) :=
  [(d.base, d.elemBytes), (d.scaleBase, d.scaleBytes), (d.metaBase, d.metaBytes), (d.occBase, d.occBytes)].filter (fun p => p.2 != 0)
/-- Requests to some byte of the tensor wait at a controller or port. -/
def State.planesHeld (s : State) (d : Desc) : Bool := d.planes.any (fun p => s.memHeld p.1 p.2)
/-- The footprint: each plane padded to 64 bytes, the sum to 256 (spec/07 R196). -/
def Desc.footprint (d : Desc) : Nat := roundUp ((d.planes.map (fun p => roundUp p.2 64)).foldl (fun a b => a + b) 0) 256
/-- Every byte of the tensor's planes lies in floe f's backed scratchpad. -/
def Desc.inScratch (d : Desc) (f : Nat) : Bool := d.planes.all (fun p => spAddr f 0 ≤ p.1 && p.1 + p.2 ≤ spAddr f spSize)
/-- The index of a storage block (spec/03 R74). -/
def Desc.blk (d : Desc) (br bc : Nat) : Nat := br * d.dim1b + bc
/-- The address of row r of block (br, bc) and its length in bytes, for every format but BS16 and 2:4 operands. -/
def Desc.rowAt (d : Desc) (br bc r : Nat) : Nat × Nat :=
  let z := blockBytes d.fmt / 32
  (d.base + d.blk br bc * blockBytes d.fmt + r * z, z)
/-- The address of the scale of element (r, c) of block (br, bc) (spec/03 R75). -/
def Desc.scaleAt (d : Desc) (br bc r c : Nat) : Nat :=
  if d.shape = 0 then d.scaleBase + d.blk br bc else d.scaleBase + 32 * d.blk br bc + (if d.shape = 1 then r else c)
/-- The address of the BS16 block of row r and block column bc (spec/05 R147). -/
def Desc.bsAt (d : Desc) (r bc : Nat) : Nat := d.base + 68 * (r * d.dim1b + bc)
/-- The bytes of a block row range that a pass over blocks reads or writes: elements and scales of block (br, bc). -/
def Desc.blockRanges (d : Desc) (br bc : Nat) : List (Nat × Nat) :=
  if d.fmt = 7 then (List.range 32).map (fun r => (d.bsAt (32 * br + r) bc, 68))
  else if d.isMeta then
    let b := br * (d.dim1b / 2) + bc / 2
    [(d.base + b * blockBytes d.fmt, blockBytes d.fmt), (d.scaleBase + d.blk br bc * d.scaleUnit, d.scaleUnit), (d.metaBase + 256 * b, 256)].filter (fun p => p.2 != 0)
  else [(d.base + d.blk br bc * blockBytes d.fmt, blockBytes d.fmt), (d.scaleBase + d.blk br bc * d.scaleUnit, d.scaleUnit)].filter (fun p => p.2 != 0)
/-- The blocks of a rectangle, row-major. -/
def blocksIn (m0 n0 mb nb : Nat) : List (Nat × Nat) :=
  (List.range mb).flatMap (fun i => (List.range nb).map (fun j => (m0 + i, n0 + j)))
/-- The rectangle lies inside the tensor. -/
def Desc.contains (d : Desc) (m0 n0 mb nb : Nat) : Bool := m0 + mb ≤ d.dim0b && n0 + nb ≤ d.dim1b
/-- The bytes that the blocks of a rectangle occupy. -/
def Desc.rectRanges (d : Desc) (m0 n0 mb nb : Nat) : List (Nat × Nat) := (blocksIn m0 n0 mb nb).flatMap (fun b => d.blockRanges b.1 b.2)

/-- The four-bit or eight-bit codes of a row's bytes (spec/02 R34). -/
def rowCodes (fmt : Nat) (l : List Byte) : List Nat :=
  if fmt4 fmt then l.flatMap (fun b => [b.toNat % 16, b.toNat / 16]) else l.map (fun b => b.toNat)
/-- The BF16 patterns of a row's bytes. -/
def rowHalves : List Byte → List Half
  | lo :: hi :: r => (hi ++ lo) :: rowHalves r
  | _ => []
/-- The scale bytes of the 32 elements of row r of block (br, bc). -/
def State.rowScales (s : State) (errs : Errs) (d : Desc) (br bc r : Nat) : List Nat :=
  if d.shape = 2 then (s.fill errs (d.scaleAt br bc r 0) 32).map (fun b => b.toNat)
  else List.replicate 32 (((s.fill errs (d.scaleAt br bc r 0) 1).map (fun b => b.toNat)).headD 0)
/-- Row r of block (br, bc) as 32 FP32 values: MX, BF16 or BS16 (spec/05 R132, spec/02 R41, R50, R53); the count of malformed BS16 blocks met. -/
def State.rowVals (s : State) (errs : Errs) (d : Desc) (br bc r : Nat) : List F32 × Nat :=
  if d.fmt = 7 then
    let (b, m) := bsParse (s.fill errs (d.bsAt (32 * br + r) bc) 68)
    ((List.range 32).map (fun i => f32Of (b.val i)), b2n m)
  else
    let (a, n) := d.rowAt br bc r
    let l := s.fill errs a n
    if d.fmt = 6 then ((rowHalves l).map (fun h => f32Of (valBf16 h)), 0)
    else (List.zipWith (fun c x => mxVal32 d.fmt c x) (rowCodes d.fmt l) (s.rowScales errs d br bc r), 0)

/-- The occupancy bit of a storage block (spec/04 R99). -/
def State.occBit (s : State) (d : Desc) (b : Nat) : Bool := ((s.fill [] (d.occBase + b / 8) 1).headD 0).getLsbD (b % 8)
/-- Write the occupancy bit of a storage block (spec/04 R100). -/
def State.putOcc (s : State) (f : Nat) (d : Desc) (b : Nat) (v : Bool) : State :=
  let a := d.occBase + b / 8
  s.put f a [setBit ((s.fill [] a 1).headD 0) (b % 8) v]

/-! ## The scoreboard (spec/06 R176 to R178) -/

/-- The counts of a tag. -/
def Floe.tag (x : Floe) (t : Nat) : TagCount := Tbl.get {} x.tags t
/-- Replace the counts of a tag. -/
def Floe.setTag (x : Floe) (t : Nat) (c : TagCount) : Floe := { x with tags := x.tags.put t c }
/-- A tag may be read: WR = 0 and RD below 15. -/
def Floe.canRead (x : Floe) (t : Nat) : Bool := (x.tag t).wr == 0 && (x.tag t).rd < 15
/-- A tag may be written: WR = 0 and RD = 0. -/
def Floe.canWrite (x : Floe) (t : Nat) : Bool := (x.tag t).wr == 0 && (x.tag t).rd == 0
/-- The tags read and written by an instruction, one count each; a tag both read and written is written (spec/06 R177). -/
def readersOf (reads writes : List Nat) : List Nat := (reads.filter (fun t => !writes.contains t)).eraseDups
/-- All tags are ready (spec/06 R177). -/
def Floe.ready (x : Floe) (reads writes : List Nat) : Bool := (readersOf reads writes).all x.canRead && writes.all x.canWrite
/-- Readers of tags begin or end. -/
def Floe.addReaders (x : Floe) (l : List Nat) : Floe := l.foldl (fun x t => x.setTag t { x.tag t with rd := (x.tag t).rd + 1 }) x
def Floe.endReaders (x : Floe) (l : List Nat) : Floe := l.foldl (fun x t => x.setTag t { x.tag t with rd := (x.tag t).rd - 1 }) x
/-- Writers of tags begin or end. -/
def Floe.addWriters (x : Floe) (l : List Nat) : Floe := l.foldl (fun x t => x.setTag t { x.tag t with wr := (x.tag t).wr + 1 }) x
def Floe.endWriters (x : Floe) (l : List Nat) : Floe := l.foldl (fun x t => x.setTag t { x.tag t with wr := (x.tag t).wr - 1 }) x
/-- An accepted instruction counts as a reader and a writer of its tags (spec/06 R177). -/
def Floe.take (x : Floe) (reads writes : List Nat) : Floe := (x.addReaders (readersOf reads writes)).addWriters writes.eraseDups

/-- The current and alternate tags of a floe: PP_BASE to PP_BASE + 2N - 1 (spec/07 R212). -/
def Floe.isPp (x : Floe) (t : Nat) : Bool := x.ppBase.toNat ≤ t && t < x.ppBase.toNat + 2 * x.ppCount.toNat
/-- A current tag (spec/07 R212). -/
def Floe.isCur (x : Floe) (t : Nat) : Bool := x.ppBase.toNat ≤ t && t < x.ppBase.toNat + x.ppCount.toNat

end Sys2Proof.Machine
end

