-- ==== Sys2Proof/Machine/Streams.lean ====
section
/-! DEFINITION. The control core: fetch and reserved encodings, issue, stream faults, arbitration, and the core's own instructions (spec/06). -/

namespace Sys2Proof.Machine

/-! ## Reserved encodings (spec/06 R158 to R164, R180, R184; spec/03 R81, R82; spec/04 R105, R111; spec/05 R128, R135; spec/07 R202, R214; spec/10 R320) -/

/-- Bits [hi:lo] are 0. -/
def zb (w : IWord) (hi lo : Nat) : Bool := fld w hi lo == 0
/-- The stage operations of spec/05 Table 5-3. -/
def stageOpOk (op : Nat) : Bool := op ≤ 0x19 || (0x20 ≤ op && op ≤ 0x25) || (0x30 ≤ op && op ≤ 0x3B)
/-- The lowest bits of the four stage fields. -/
def stageLows : List Nat := [58, 42, 26, 10]
/-- The encoding of a vector pass (spec/05 Table 5-1). -/
def vecEncOk (w : IWord) : Bool :=
  (flag w 119 || !flag w 118) && fld w 9 7 ≤ 5 && fld w 4 3 != 3 && zb w 0 0
    && stageLows.all (fun b => stageOpOk (bitsOf w.toNat (b + 10) 6)) && (opOf w != 0x21 || zb w 103 102)
/-- The encoding of a matrix instruction (spec/03 R81, R82). -/
def mmaEncOk (w : IWord) : Bool :=
  let op := opOf w
  zb w 5 0 && !zb w 44 31 && (op == 0x12 || zb w 94 87) && (flag w 116 || zb w 30 23) && (flag w 6 || zb w 21 7)
    && (if op = 0x10 then zb w 119 118 else if op = 0x11 then !zb w 119 118 else !flag w 119)
/-- The encoding of PACK.CAP (spec/04 R111). -/
def packEncOk (w : IWord) : Bool :=
  let m := fld w 119 118
  m != 3 && fld w 81 74 != 0 && fld w 81 74 != 255 && zb w 31 0 && (flag w 32 || zb w 37 33)
    && (if m = 0 then zb w 97 82 && zb w 39 38 else zb w 117 114)
/-- The encoding of a collective instruction (spec/10 Table 10-2). -/
def collEncOk (w : IWord) : Bool :=
  let op := opOf w
  let k := fld w 76 74
  zb w 40 0
    && (if op = 0x40 then k ≤ 1 && (k == 1 || zb w 73 56) else if op = 0x41 then k ≤ 1 && zb w 73 56
        else if op = 0x44 then k ≤ 2 && zb w 73 56 && zb w 119 104
        else if op = 0x43 then k == 0 && zb w 73 56 && zb w 119 100 else k == 0 && zb w 73 56)
    && (op == 0x44 || zb w 55 41)
/-- An instruction word has a defined opcode and no reserved encoding (spec/06 R158). -/
def encOk (w : IWord) : Bool :=
  match opOf w with
  | 0x01 => zb w 95 64 && (fld w 103 96 ≤ 0x0C || (0x10 ≤ fld w 103 96 && fld w 103 96 ≤ 0x19))
  | 0x04 => zb w 106 64
  | 0x05 => zb w 107 64
  | 0x08 => fld w 119 116 ≤ 6 && zb w 104 96
  | 0x09 => zb w 109 64
  | 0x0A | 0x0B => zb w 119 0
  | 0x10 | 0x11 | 0x12 => mmaEncOk w
  | 0x18 => zb w 7 0
  | 0x20 | 0x21 | 0x22 => vecEncOk w
  | 0x28 => zb w 84 0 && (flag w 107 || zb w 106 102)
  | 0x29 => zb w 52 0 && (flag w 107 || zb w 106 102) && (!flag w 101 || zb w 119 112)
  | 0x30 => zb w 26 0 && !flag w 28
  | 0x31 => zb w 26 0 && !flag w 30
  | 0x38 => zb w 60 0 && fld w 103 96 != 0 && fld w 103 96 != 255 && fld w 92 91 != 3 && (flag w 61 || zb w 66 62)
  | 0x39 => packEncOk w
  | 0x40 | 0x41 | 0x42 | 0x43 | 0x44 => collEncOk w
  | 0x50 => zb w 103 0 && !zb w 111 109
  | 0x51 => zb w 109 104 && zb w 79 0 && !zb w 95 80 && (flag w 111 || zb w 103 96)
  | _ => false

/-! ## The head of a stream -/

/-- The stream holds a bank OPEN (spec/03 R88). -/
def Floe.holdsBank (x : Floe) (st : Stream) : Bool :=
  (x.bank0.st == .opened && x.bank0.owner == st) || (x.bank1.st == .opened && x.bank1.owner == st)
/-- The stream is at an instruction it may issue: RUNNING, in no HALT and no TAG.WAIT, and not held by the device at a boundary without an OPEN bank (spec/06 R155, R170, R181, spec/14 R476). -/
def Floe.atHead (x : Floe) (st : Stream) : Bool :=
  let y := x.stream st
  y.st == .running && !y.halting && y.wait.isNone && (!x.held || x.holdsBank st)
/-- The PC names an instruction of the code region (spec/06 R160). -/
def Floe.pcOk (x : Floe) (st : Stream) : Bool :=
  let pc := (x.stream st).pc.toNat
  pc % 16 == 0 && x.codeBase.toNat ≤ pc && pc + 16 ≤ x.codeBase.toNat + x.codeSize.toNat && pc + 16 ≤ spSize
/-- The address of the head instruction. -/
def State.headAddr (s : State) (f : Nat) (st : Stream) : Nat := spAddr f (s.stream f st).pc.toNat
/-- The 16 bytes that a fetch at the PC brings, if it can be made (spec/06 R154, R160, spec/08 R238). -/
def State.fetchWord (s : State) (f : Nat) (st : Stream) : Option IWord :=
  if (s.floe f).pcOk st then some (BitVec.ofNat 128 (ofLe (s.fill [] (s.headAddr f st) 16))) else none
/-- The instruction at the head of a stream, if there is one that it may issue. -/
def State.headWord (s : State) (f : Nat) (st : Stream) : Option IWord := if (s.floe f).atHead st then s.fetchWord f st else none

/-- A stream's stop at another's fault: RUNNING or PAUSED becomes STOPPED (spec/06 R189; notes/assumptions/26.md). -/
def StreamSt.stop (x : StreamSt) : StreamSt :=
  match x.st with
  | .running | .paused => { x with st := .stopped, wait := none }
  | .idle | .halted | .faulted | .stopped => x
/-- Every stream of a floe stops. -/
def Floe.stopAll (x : Floe) : Floe := { x with fwd := x.fwd.stop, bwd := x.bwd.stop, upd := x.upd.stop }
/-- A stream that a fault in the same cycle may still join: one that was RUNNING when another stream's fault stopped it (spec/06 R189). -/
def StreamSt.cutOff (x : StreamSt) (now : DWord) : StreamSt := if x.st = .running then { x.stop with cut := some now } else x.stop
/-- Every stream of a partition stops at another's fault. -/
def State.cutStreams (s : State) (p : Nat) : State :=
  s.each (s.partFloes p) (fun s f =>
    let x := s.floe f
    s.setFloe f { x with fwd := x.fwd.cutOff s.now, bwd := x.bwd.cutOff s.now, upd := x.upd.cutOff s.now })
/-- Every stream of a partition stops (spec/06 R189, spec/12 R440). -/
def State.stopStreams (s : State) (p : Nat) : State := s.each (s.partFloes p) (fun s f => s.setFloe f (s.floe f).stopAll)

/-- A stream faults (spec/06 R189, R190): FAULTED with its PC kept, the partition's other streams STOPPED, a RUNNING partition FAULTED, the flag raised, STREAM_FAULT sent. -/
def State.faultStream (s : State) (f : Nat) (st : Stream) (code : Nat) : State :=
  let y := s.stream f st
  let s1 := s.setStream f st { y with st := .faulted, fault := BitVec.ofNat 8 code, wait := none, fetch := s.fetchWord f st }
  let pg := s1.floePage f
  match s1.floePart f with
  | none => s1.raise pg.1 pg.2 2
  | some p =>
    let s2 := s1.cutStreams p
    let s3 := if (s2.part p).st = .running then s2.setPart p { s2.part p with st := .faulted } else s2
    (s3.raise pg.1 pg.2 2).eventOwner p 0x02 pg.1
      (leBytes 1 (s3.siteOf f) ++ leBytes 1 f ++ leBytes 1 st.num ++ leBytes 1 code ++ leBytes 4 y.pc.toNat)

/-- The stream moves on to a PC, one instruction issued from its fetch buffer (spec/06 R154, R162, R193). -/
def State.issueTo (s : State) (f : Nat) (st : Stream) (pc : DWord) : State :=
  let y := s.stream f st
  s.setStream f st { y with pc := pc, issued := bump y.issued, fetch := s.fetchWord f st }
/-- The stream moves on to the next instruction. -/
def State.issue (s : State) (f : Nat) (st : Stream) : State := s.issueTo f st ((s.stream f st).pc + 16)

/-- A step at a stream's head in the cycle of another's fault (spec/06 R189): a stream which that fault stopped at this SYSTIME may still fault itself, and does nothing else (notes/assumptions/107.md). -/
def State.inCycle (s : State) (f : Nat) (st : Stream) (g : State → State) : State :=
  let y := s.stream f st
  if y.st == .stopped && y.cut == some s.now then
    let r := g (s.setStream f st { y with st := .running, cut := none })
    if (r.stream f st).st = .faulted then r else s
  else g s
/-- A step on the head of a stream: nothing where the head is no instruction of the opcode, ILLEGAL_OP where its encoding is reserved; an uncorrectable granule met by the fetch is noted (spec/06 R158, spec/08 R238). -/
def State.onHead (s : State) (f : Nat) (st : Stream) (ok : IWord → Bool) (g : IWord → State) : State :=
  match s.headWord f st with
  | none => s
  | some w => if !ok w then s else if encOk w then g w else s.faultStream f st 0x01
/-- An instruction of an opcode. -/
def isIns (op : Nat) (w : IWord) : Bool := opOf w == op
/-- A register that the instruction reads or writes has a pending write: it waits (spec/06 R169). -/
def StreamSt.waitsFor (y : StreamSt) (l : List Nat) : Bool := l.any (fun r => y.pend.contains r)
/-- A commit holds every instruction that names a current or alternate tag (spec/07 R226 item 1). -/
def State.commitHolds (s : State) (f : Nat) (tags : List Nat) : Bool :=
  (s.floePart f).any (fun p => (s.part p).committing) && tags.any (fun t => (s.floe f).isPp t)

/-! ## What a stream still has in flight (spec/06 R170, R182) -/

/-- The vector engine works for a stream. -/
def VecUnit.isOf (v : VecUnit) (st : Stream) : Bool :=
  match v with
  | .idle => false
  | .pass o => o.stream == st
  | .cond o => o.stream == st
  | .upd o => o.stream == st
/-- The floe's units hold nothing of a stream. -/
def Floe.unitsDone (x : Floe) (st : Stream) : Bool :=
  !x.mmas.any (fun o => o.stream == st) && !x.drains.any (fun o => o.stream == st) && !x.vu.isOf st
    && !x.xfers.any (fun o => o.stream == st) && !x.push.any (fun o => o.stream == st) && !x.pop.any (fun o => o.stream == st)
    && !x.slds.any (fun o => o.stream == st)
/-- Every instruction that a stream has issued has completed and released its counts. -/
def State.streamDone (s : State) (f : Nat) (st : Stream) : Bool :=
  (s.floe f).unitsDone st
    && (match s.floePart f with
        | none => true
        | some p => !(s.part p).steps.any (fun t => (t.floe == f && t.stream == st) || t.issues.any (fun i => i.floe == f && i.stream == st))
                    && !(s.part p).steers.any (fun t => t.floe == f && t.stream == st))

/-! ## Scalar instructions (spec/06 R163 to R170) -/

/-- A boolean as a 64-bit value. -/
def ofBool64 (b : Bool) : DWord := if b then 1 else 0
/-- An FP32 result, zero-extended (spec/06 R164). -/
def ext32 (x : F32) : DWord := BitVec.zeroExtend 64 x
/-- FN(a, b) of SALU (spec/06 Table 6-6). -/
def saluFn (fn : Nat) (a b : DWord) : DWord :=
  let x : F32 := BitVec.truncate 32 a
  let y : F32 := BitVec.truncate 32 b
  let n := bitsOf b.toNat 0 6
  match fn with
  | 0x00 => a + b
  | 0x01 => a - b
  | 0x02 => a * b
  | 0x03 => a &&& b
  | 0x04 => a ||| b
  | 0x05 => a ^^^ b
  | 0x06 => a <<< n
  | 0x07 => a >>> n
  | 0x08 => a.sshiftRight n
  | 0x09 => ofBool64 (a.slt b)
  | 0x0A => ofBool64 (a.ult b)
  | 0x0B => if a.slt b then a else b
  | 0x0C => if a.slt b then b else a
  | 0x10 => ext32 (fAdd x y)
  | 0x11 => ext32 (fSub x y)
  | 0x12 => ext32 (fMul x y)
  | 0x13 => ext32 (fDiv x y)
  | 0x14 => ext32 (fSqrt x)
  | 0x15 => ext32 (fMin x y)
  | 0x16 => ext32 (fMax x y)
  | 0x17 => ext32 (fOfInt a.toInt)
  | 0x18 => BitVec.ofInt 64 (fToInt 64 x).1
  | _ => ofBool64 ((val32 x).lt (val32 y))

/-- SALU (spec/06 R164). -/
def execSalu (f : Nat) (st : Stream) (s : State) : Host.Outcome State Fault Refusal :=
  .next (s.inCycle f st fun s => s.onHead f st (isIns 0x01) (fun w =>
    let y := s.stream f st
    let rd := fld w 119 115
    let ra := fld w 114 110
    let rb := fld w 109 105
    let imm := flag w 104
    if y.waitsFor ([rd, ra] ++ if imm then [] else [rb]) then s
    else
      let b := if imm then BitVec.ofNat 64 (fld w 63 0) else y.reg rb
      (s.setStream f st (y.setReg rd (saluFn (fld w 103 96) (y.reg ra) b))).issue f st))

/-- The address of SLD and SST (spec/06 R165). -/
def ldstAddr (y : StreamSt) (w : IWord) : Nat := (y.reg (fld w 114 110) + BitVec.ofNat 64 (fld w 63 0)).toNat
/-- The fault of a scalar access of n bytes at a: SCALAR_ALIGN, CODE_WRITE, ADDR_UNMAPPED, ADDR_DENIED, the lowest code first (spec/06 R161, R165, R190). -/
def State.scalarFault (s : State) (f a n : Nat) (write : Bool) : Option Nat :=
  match s.floePart f with
  | none => some 0x09
  | some p =>
    if a % n ≠ 0 then some 0x04
    else if write && s.hitsCode a n (fun g => s.floePart g == some p) then some 0x05
    else if 2 ^ 52 ≤ a then some 0x08
    else s.accessFault p a n

/-- SLD (spec/06 R165, R166): the value is read at issue and delivered at SLD_RETURN. -/
def execSld (f : Nat) (st : Stream) (errs : Errs) (s : State) : Host.Outcome State Fault Refusal :=
  .next (s.inCycle f st fun s => s.onHead f st (isIns 0x04) (fun w =>
    let y := s.stream f st
    let rd := fld w 119 115
    if y.waitsFor [rd, fld w 114 110] then s
    else
      let a := ldstAddr y w
      let n := 2 ^ fld w 109 108
      match s.scalarFault f a n false with
      | some c => s.faultStream f st c
      | none =>
        if s.memHeld a n then s else
        let (s1, l, _) := s.readMem (some f) errs a n
        let v := ofLe l
        let x := if flag w 107 then BitVec.ofInt 64 ((BitVec.ofNat (8 * n) v).toInt) else BitVec.ofNat 64 v
        let z := s1.floe f
        ((s1.setFloe f { z with slds := z.slds ++ [{ stream := st, rd := rd, value := x }] }).setStream f st ((z.stream st).addPend rd)).issue f st))

/-- SLD_RETURN (spec/06 R166, R169): the value arrives and the pending write ends. -/
def execSldReturn (f : Nat) (st : Stream) (rd : Nat) (s : State) : Host.Outcome State Fault Refusal :=
  let x := s.floe f
  match takeFirst (fun o => o.stream == st && o.rd == rd) x.slds with
  | none => .next s
  | some (o, r) => .next ((s.setFloe f { x with slds := r }).setStream f st (((x.stream st).setReg rd o.value).endPend rd))

/-- SST (spec/06 R165): the low bytes of RS are stored. -/
def execSst (f : Nat) (st : Stream) (errs : Errs) (s : State) : Host.Outcome State Fault Refusal :=
  .next (s.inCycle f st fun s => s.onHead f st (isIns 0x05) (fun w =>
    let y := s.stream f st
    let rs := fld w 119 115
    if y.waitsFor [rs, fld w 114 110] then s
    else
      let a := ldstAddr y w
      let n := 2 ^ fld w 109 108
      match s.scalarFault f a n true with
      | some c => s.faultStream f st c
      | none => if s.memHeld a n then s else (s.writeMem (some f) errs a (leBytes n (y.reg rs).toNat)).1.issue f st))

/-- The conditions of BR (spec/06 Table 6-7). -/
def brTaken (cond : Nat) (a b : DWord) : Bool :=
  match cond with
  | 0 => true
  | 1 => a == b
  | 2 => a != b
  | 3 => a.slt b
  | 4 => !a.slt b
  | 5 => a.ult b
  | _ => !a.ult b

/-- BR (spec/06 R167). -/
def execBr (f : Nat) (st : Stream) (s : State) : Host.Outcome State Fault Refusal :=
  .next (s.inCycle f st fun s => s.onHead f st (isIns 0x08) (fun w =>
    let y := s.stream f st
    let ra := fld w 114 110
    let rb := fld w 109 105
    let imm := flag w 115
    if y.waitsFor ([ra] ++ if imm then [] else [rb]) then s
    else
      let b := if imm then BitVec.ofNat 64 (fld w 63 0) else y.reg rb
      if brTaken (fld w 119 116) (y.reg ra) b then s.issueTo f st (y.pc + BitVec.ofInt 64 (16 * sfld32 w 64)) else s.issue f st))

/-- JUMP (spec/06 R168): S[RA] is read before the link is written. -/
def execJump (f : Nat) (st : Stream) (s : State) : Host.Outcome State Fault Refusal :=
  .next (s.inCycle f st fun s => s.onHead f st (isIns 0x09) (fun w =>
    let y := s.stream f st
    let rd := fld w 119 115
    let ra := fld w 114 110
    if y.waitsFor [rd, ra] then s
    else (s.setStream f st (y.setReg rd (y.pc + 16))).issueTo f st (y.reg ra + BitVec.ofNat 64 (fld w 63 0))))

/-- HALT (spec/06 R170): it issues and waits for the stream's earlier instructions. -/
def execHalt (f : Nat) (st : Stream) (s : State) : Host.Outcome State Fault Refusal :=
  .next (s.inCycle f st fun s => s.onHead f st (isIns 0x0A) (fun _ =>
    let y := s.stream f st
    s.setStream f st { y with halting := true, issued := bump y.issued, fetch := s.fetchWord f st }))

/-- Every stream of a partition's floes is HALTED (spec/06 R170, spec/12 R430). -/
def State.allHalted (s : State) (p : Nat) : Bool :=
  (s.partFloes p).all (fun f => allStreams.all (fun t => (s.stream f t).st == .halted))
/-- PROGRAM_END: a RUNNING partition whose streams are all HALTED becomes LOADED (spec/12 R430). -/
def State.programEnd (s : State) (p : Nat) : State :=
  if (s.part p).st = .running && s.allHalted p then (s.setPart p { s.part p with st := .loaded }).eventOwner p 0x01 0xFF [] else s

/-- HALT_COMPLETE (spec/06 R170, spec/12 R430). -/
def execHaltComplete (f : Nat) (st : Stream) (s : State) : Host.Outcome State Fault Refusal :=
  let y := s.stream f st
  if y.st == .running && y.halting && s.streamDone f st then
    let s1 := s.setStream f st { y with st := .halted, halting := false }
    .next (match s1.floePart f with
      | some p => s1.programEnd p
      | none => s1)
  else .next s

/-- NOP (spec/06 R170). -/
def execNop (f : Nat) (st : Stream) (s : State) : Host.Outcome State Fault Refusal :=
  .next (s.inCycle f st fun s => s.onHead f st (isIns 0x0B) (fun _ => s.issue f st))

/-! ## Tags (spec/06 R180 to R183) -/

/-- TAG.WAIT starts (spec/06 R181), unless a commit holds its tag (spec/07 R226 item 1): the target count is read; the stream does not issue until the wait completes. -/
def execTagWait (f : Nat) (st : Stream) (s : State) : Host.Outcome State Fault Refusal :=
  .next (s.inCycle f st fun s => s.onHead f st (isIns 0x50) (fun w =>
    let y := s.stream f st
    let r := fld w 108 104
    if (flag w 109 && y.waitsFor [r]) || s.commitHolds f [fld w 119 112] then s
    else s.setStream f st { y with wait := some { tag := fld w 119 112, ww := flag w 111, wr := flag w 110, ws := flag w 109,
                                                   target := BitVec.ofNat 16 (y.regLow 16 r) } }))

/-- Every selected condition of a wait holds (spec/06 R181). -/
def waitHolds (v : Waiting) (c : TagCount) : Bool :=
  (!v.ww || c.wr == 0) && (!v.wr || c.rd == 0) && (!v.ws || (c.seq - v.target).toNat < 2 ^ 15)

/-- TAG_WAIT_COMPLETE (spec/06 R181). -/
def execTagWaitComplete (f : Nat) (st : Stream) (s : State) : Host.Outcome State Fault Refusal :=
  let y := s.stream f st
  match y.wait with
  | none => .next s
  | some v =>
    if y.st == .running && (!(s.floe f).held || (s.floe f).holdsBank st) && waitHolds v ((s.floe f).tag v.tag)
    then .next ((s.setStream f st { y with wait := none }).issue f st) else .next s

/-- Add to SEQ of a tag (spec/06 R182). -/
def State.signal (s : State) (f t : Nat) (n : Half) : State :=
  let x := s.floe f
  s.setFloe f (x.setTag t { x.tag t with seq := (x.tag t).seq + n })

/-- TAG.SIGNAL (spec/06 R182): fenced, it waits for the stream's earlier instructions, and it waits while a commit holds the tag of its target floe (spec/07 R226 item 1); a remote target outside the partition faults with ADDR_DENIED. -/
def execTagSignal (f : Nat) (st : Stream) (s : State) : Host.Outcome State Fault Refusal :=
  .next (s.inCycle f st fun s => s.onHead f st (isIns 0x51) (fun w =>
    let t := fld w 119 112
    let n : Half := BitVec.ofNat 16 (fld w 95 80)
    let d := fld w 103 96
    if (flag w 110 && !s.streamDone f st) || s.commitHolds (if flag w 111 then d else f) [t] then s
    else if !flag w 111 then (s.signal f t n).issue f st
    else if (s.floePart d).isNone || s.floePart d != s.floePart f then s.faultStream f st 0x09
    else ({ s with signals := s.signals ++ [{ src := f, stream := st, dst := d, tag := t, amount := n }] } : State).issue f st))

/-- REMOTE_SIGNAL (spec/06 R183): the oldest signal of a stream to a target takes effect. -/
def execRemoteSignal (src : Nat) (st : Stream) (dst : Nat) (s : State) : Host.Outcome State Fault Refusal :=
  match takeFirst (fun g => g.src == src && g.stream == st && g.dst == dst) s.signals with
  | none => .next s
  | some (g, r) => .next (({ s with signals := r } : State).signal dst g.tag g.amount)

/-! ## Faults of the core (spec/06 R158, R160, R192) -/

/-- STREAM_STALL (spec/06 R192): a RUNNING stream whose head has not issued for too long faults; an issued HALT and a STALL_LOG2 of 0 never do. -/
def execStreamStall (f : Nat) (st : Stream) (s : State) : Host.Outcome State Fault Refusal :=
  .next (s.inCycle f st fun s =>
    let y := s.stream f st
    if y.st == .running && !y.halting && bitsOf (s.floe f).streamCtl.toNat 24 6 != 0 then s.faultStream f st 0x06 else s)

/-- ILLEGAL_OP (spec/06 R158, spec/00 R11): a reserved opcode or a reserved encoding faults; a fetch of 0xFF bytes does too (spec/08 R238). -/
def execIllegalOp (f : Nat) (st : Stream) (errs : Errs) (s : State) : Host.Outcome State Fault Refusal :=
  .next (s.inCycle f st fun s =>
    match (s.strike errs).headWord f st with
    | none => s
    | some w => if encOk w then s else ((s.strike errs).noteRange (some f) errs (s.headAddr f st) 16).faultStream f st 0x01)

/-- PC_RANGE (spec/06 R160): a fetch outside the code region or from a PC that is no multiple of 16 faults. -/
def execPcRange (f : Nat) (st : Stream) (s : State) : Host.Outcome State Fault Refusal :=
  .next (s.inCycle f st fun s =>
    let x := s.floe f
    if x.atHead st && !x.pcOk st then s.faultStream f st 0x02 else s)

end Sys2Proof.Machine
end

