-- ==== Sys2Proof/Machine/Heads.lean ====
section
/-! DEFINITION. The instructions at the heads of the streams as the units see them: the fields that say what an instruction reads and writes, when its unit could accept it, and which stream a unit's grant goes to (spec/06 R159, R177, R187 to R190). -/

namespace Sys2Proof.Machine

/-! ## The array's instructions (spec/03 Table 3-7) -/

/-- TA, TB, INIT, DRAIN of an MMA word, and whether it is MMA.SP (spec/03 Table 3-7). -/
def mmaTa (w : IWord) : Bool := flag w 119
def mmaTb (w : IWord) : Bool := flag w 118
def mmaInit (w : IWord) : Bool := flag w 117
def mmaDrain (w : IWord) : Bool := flag w 116
def mmaSp (w : IWord) : Bool := opOf w == 0x12
/-- The bank, the block rows and columns, the k-units of an MMA. -/
def mmaBank (w : IWord) : Nat := fld w 115 115
def mmaMb (w : IWord) : Nat := fld w 114 113 + 1
def mmaNb (w : IWord) : Nat := fld w 112 111 + 1
def mmaKn (w : IWord) : Nat := fld w 44 31
/-- The tags an MMA reads and writes (spec/03 R87, spec/05 R125). -/
def mmaReads (w : IWord) : List Nat := [fld w 110 103, fld w 102 95] ++ if mmaSp w then [fld w 94 87] else []
def mmaWrites (w : IWord) : List Nat := if mmaDrain w then [fld w 30 23] else []
/-- A bank of a floe. -/
def Floe.bank (x : Floe) (b : Nat) : Bank := if b = 0 then x.bank0 else x.bank1
/-- Replace a bank of a floe. -/
def Floe.setBank (x : Floe) (b : Nat) (y : Bank) : Floe := if b = 0 then { x with bank0 := y } else { x with bank1 := y }
/-- The bank is OPEN for a stream. -/
def Bank.openFor (b : Bank) (st : Stream) : Bool := b.st == .opened && b.owner == st
/-- The tile of a tag, if it is in the queue. -/
def Floe.tile (x : Floe) (tag : Nat) : Option Tile := x.tq.find? (fun t => t.tag == tag)
/-- An MMA waits: another is still fetching, a tag or a register is not ready, a commit holds a tag, or its bank is OPEN for another stream and its own stream holds no other bank OPEN, which would be a fault (spec/03 R80, R87, R88, spec/06 R169, R177). -/
def State.mmaWaits (s : State) (f : Nat) (st : Stream) (w : IWord) : Bool :=
  let x := s.floe f
  let b := x.bank (mmaBank w)
  x.mmas.any (fun o => !o.readDone) || !x.ready (mmaReads w) (mmaWrites w) || s.commitHolds f (mmaReads w ++ mmaWrites w)
    || (flag w 6 && (x.stream st).waitsFor [fld w 21 17, fld w 16 12, fld w 11 7])
    || (!mmaInit w && b.st == .opened && b.owner != st && !(x.bank (1 - mmaBank w)).openFor st)

/-! ## Vector passes (spec/05 Table 5-1) -/

/-- SRCQ, POP, TOSCALAR, USE_S and RND of a pass word. -/
def passQueue (w : IWord) : Bool := flag w 119
def passPop (w : IWord) : Bool := flag w 118
def passIsRed (w : IWord) : Bool := opOf w == 0x21
def passToScalar (w : IWord) : Bool := passIsRed w && flag w 109
def passUseS (w : IWord) : Bool := flag w 1
def passRnd (w : IWord) : Bool := flag w 2
/-- The scalar register of a RED with TOSCALAR. -/
def passReg (w : IWord) : Nat := fld w 108 104
/-- The tags of the source and the destination. -/
def passSrc (w : IWord) : Nat := fld w 117 110
def passDst (w : IWord) : Nat := fld w 109 102
/-- The block rows and columns of a pass. -/
def passMb (w : IWord) : Nat := fld w 77 76 + 1
def passNb (w : IWord) : Nat := fld w 75 74 + 1
/-- OP, BK and BREF of stage k. -/
def stageOp (w : IWord) (k : Nat) : Nat := bitsOf w.toNat (68 - 16 * k) 6
def stageBk (w : IWord) (k : Nat) : Nat := bitsOf w.toNat (66 - 16 * k) 2
def stageRef (w : IWord) (k : Nat) : Nat := bitsOf w.toNat (58 - 16 * k) 8
/-- RDOP, RA, RACC and MSRC. -/
def passRdop (w : IWord) : Nat := fld w 9 7
def passRa (w : IWord) : Nat := fld w 6 6
def passRacc (w : IWord) : Bool := flag w 5
def passMsrc (w : IWord) : Nat := fld w 4 3
/-- The four stages. -/
def stageNums : List Nat := [0, 1, 2, 3]
/-- The tensor operands' tags, by stage (spec/05 Table 5-2). -/
def passOpTags (w : IWord) : List (Nat × Nat) :=
  (stageNums.filter (fun k => stageBk w k == 1 || stageBk w k == 2)).map (fun k => (k, stageRef w k))
/-- The tensor tags a pass reads, and those it writes. -/
def passReads (w : IWord) : List Nat := (if passQueue w then [] else [passSrc w]) ++ (passOpTags w).map (fun e => e.2)
def passWrites (w : IWord) : List Nat := if passIsRed w then [] else [passDst w]
/-- The scalar registers a pass uses (spec/05 R133, R145). -/
def passRegs (w : IWord) : List Nat :=
  (stageNums.filter (fun k => stageBk w k == 3 && stageRef w k < 128)).map (fun k => stageRef w k % 32)
    ++ (if stageNums.any (fun k => stageOp w k == 0x14 || stageOp w k == 0x21) then [25] else [])
    ++ (if passUseS w then [26, 27] else []) ++ (if passMsrc w = 2 then [29] else if passMsrc w = 1 then [30, 31] else [])
    ++ (if passToScalar w then [passReg w] else [])
/-- The engine is free. -/
def VecUnit.free (v : VecUnit) : Bool :=
  match v with
  | .idle => true
  | .pass _ | .cond _ | .upd _ => false
/-- A pass waits (spec/05 R125, R149, spec/06 R169, R177). -/
def State.passWaits (s : State) (f : Nat) (st : Stream) (w : IWord) : Bool :=
  let x := s.floe f
  !x.vu.free || (passQueue w && !(x.tile (passSrc w)).any (fun t => t.entered != 0)) || !x.ready (passReads w) (passWrites w)
    || (x.stream st).waitsFor (passRegs w) || s.commitHolds f (passReads w ++ passWrites w ++ if passQueue w then [passSrc w] else [])

/-! ## Gating and packing (spec/04 Tables 4-2 and 4-4) -/

/-- Fields of PACK.CAP: MODE, INIT, J, experts, capacity, count, GW, SR. -/
def packMode (w : IWord) : Nat := fld w 119 118
/-- The tags a conditional instruction reads and writes. -/
def condReads (w : IWord) : List Nat :=
  if opOf w = 0x38 then [fld w 119 112] else if packMode w = 0 then [] else [fld w 113 106, fld w 105 98, fld w 97 90]
def condWrites (w : IWord) : List Nat :=
  if opOf w = 0x38 then [fld w 111 104] else if packMode w = 0 then [fld w 113 106, fld w 105 98] else [fld w 89 82]
/-- The scalar register of the offset, where USE_S is 1. -/
def condReg (w : IWord) : List Nat :=
  if opOf w = 0x38 then (if flag w 61 then [fld w 66 62] else []) else if flag w 32 then [fld w 37 33] else []
/-- GATE.TOPK or PACK.CAP waits (spec/04 R118, spec/06 R169, R177). -/
def State.condWaits (s : State) (f : Nat) (st : Stream) (w : IWord) : Bool :=
  let x := s.floe f
  !x.vu.free || !x.ready (condReads w) (condWrites w) || (x.stream st).waitsFor (condReg w) || s.commitHolds f (condReads w ++ condWrites w)

/-! ## Updates (spec/07 Table 7-5) -/

def updG (w : IWord) : Nat := fld w 119 112
def updS (w : IWord) : Nat := fld w 111 104
def updHp (w : IWord) : Nat := fld w 75 71
def updNreg (w : IWord) : Nat := fld w 70 66
def updUseS (w : IWord) : Bool := flag w 27
/-- The instruction is UPD.ADAMW. -/
def updAdam (w : IWord) : Bool := opOf w == 0x30
/-- The members of the state set that take part: 0 W, 1 f, 2 m, 3 v, 4 F; SGDM leaves v out (spec/07 R213). -/
def updSet (w : IWord) : List Nat := if updAdam w then [0, 1, 2, 3, 4] else [0, 1, 2, 4]
/-- The current tags named, and their alternates. -/
def updCur (w : IWord) : List Nat := (updSet w).map (fun i => updS w + i)
def updAlt (w : IWord) (n : Nat) : List Nat := (updCur w).map (fun t => t + n)
/-- The scalar registers an UPD reads (spec/07 R214, R215, R219). -/
def updRegs (w : IWord) : List Nat :=
  (List.range 4).map (fun i => updHp w + i) ++ (if updNreg w = 0 then [] else [updNreg w]) ++ if updUseS w then [26, 27] else []
/-- An UPD waits (spec/06 R169, R177, spec/07 R226 item 1). -/
def State.updWaits (s : State) (f : Nat) (st : Stream) (w : IWord) : Bool :=
  let x := s.floe f
  let reads := updG w :: updCur w
  let writes := updAlt w x.ppCount.toNat
  !x.vu.free || (x.stream st).waitsFor (updRegs w) || !x.ready reads writes || s.commitHolds f (reads ++ writes)

/-! ## Copies (spec/06 Table 6-11) -/

/-- The tags of source and destination. -/
def xferSrc (w : IWord) : Nat := fld w 119 112
def xferDst (w : IWord) : Nat := fld w 111 104
/-- An XFER waits: four are in flight, a tag is not ready, a commit holds a tag (spec/06 R159, R177). -/
def State.xferWaits (s : State) (f : Nat) (w : IWord) : Bool :=
  let x := s.floe f
  4 ≤ x.xfers.length || !x.ready [xferSrc w] [xferDst w] || s.commitHolds f [xferSrc w, xferDst w]

/-! ## The stash (spec/07 Table 7-2) -/

/-- The stack a stash instruction addresses (spec/07 R202). -/
def stashStack (y : StreamSt) (w : IWord) : Nat :=
  if flag w 107 then (fld w 111 108 + y.regLow 4 (fld w 106 102)) % 16 else fld w 111 108
/-- The register of the stack offset, where USE_S is 1. -/
def stashRegs (w : IWord) : List Nat := if flag w 107 then [fld w 106 102] else []
/-- TAG, OPT or DISCARD, EID and ROFF. -/
def stashTag (w : IWord) : Nat := fld w 119 112
def stashBit (w : IWord) : Bool := flag w 101
/-- A stack of a floe, top first. -/
def Floe.stack (x : Floe) (k : Nat) : List StashEntry := Tbl.get [] x.stashed k
/-- The tag a pop writes: none for a discard. -/
def popTags (w : IWord) : List Nat := if stashBit w then [] else [stashTag w]
/-- A pop would take its recompute branch, which writes S28. -/
def Floe.popBranches (x : Floe) (w : IWord) (k : Nat) : Bool := !stashBit w && (x.stack k).head?.any (fun e => e.hole)
/-- A STASH.PUSH waits for the unit, for a pop of its stack, for its tag and register (spec/06 R159, R177, spec/07 R203). -/
def State.pushWaits (s : State) (f : Nat) (st : Stream) (w : IWord) : Bool :=
  let x := s.floe f
  let k := stashStack (x.stream st) w
  x.push.isSome || x.pop.any (fun o => o.stack == k) || !x.ready [stashTag w] [] || (x.stream st).waitsFor (stashRegs w)
    || s.commitHolds f [stashTag w]
/-- A STASH.POP waits for the unit, for a push to its stack, for its tag and registers. One that takes its recompute branch holds no count of TAG_DST (spec/07 R208), and whether it still waits for the tag to be free the spec does not say: it waits, DESIGN CHOICE (notes/assumptions/106.md). -/
def State.popWaits (s : State) (f : Nat) (st : Stream) (w : IWord) : Bool :=
  let x := s.floe f
  let k := stashStack (x.stream st) w
  x.pop.isSome || x.push.any (fun o => o.stack == k) || !x.ready [] (popTags w) || s.commitHolds f (popTags w)
    || (x.stream st).waitsFor (stashRegs w ++ if x.popBranches w k then [28] else [])

/-! ## Collectives (spec/10 Table 10-2) -/

/-- A VERDICT step (spec/10 R316). -/
def StepKind.isTree : StepKind → Bool
  | .commit | .norm | .barrier => true
  | .allgather | .rotate | .reduceScatter | .allreduce | .permute => false
/-- A step is open until it closes or fails; a tree step closes when its result arrives (spec/10 R318, R327). -/
def Step.isOpen (t : Step) : Bool := t.result.isNone
/-- The open steps of a partition. -/
def Part.openSteps (x : Part) : List Step := x.steps.filter (fun t => t.isOpen)
/-- The step of a tag. -/
def State.stepOf (s : State) (p tag : Nat) : Option Step := (s.part p).steps.find? (fun t => t.tag == tag)
/-- The floes of a step: the floe of a ring step, every floe that issued a verdict. -/
def Step.floes (t : Step) : List Nat := if t.kind.isTree then t.issues.map (fun i => i.floe) else [t.floe]
/-- The fields of a collective instruction. -/
def collSrc (w : IWord) : Nat := fld w 119 112
def collDst (w : IWord) : Nat := fld w 111 104
def collGroup (w : IWord) : Nat := fld w 103 96
def collTag (w : IWord) : Nat := fld w 95 80
def collCh (w : IWord) : Nat := fld w 79 77
def collKind (w : IWord) : Nat := fld w 76 74
def collDist (w : IWord) : Nat := fld w 73 56
/-- The steps in flight on a floe; a steer is none (spec/10 R318, R359). -/
def Part.stepsOn (x : Part) (f : Nat) : Nat := (x.openSteps.filter (fun t => t.floes.contains f)).length
/-- Steps and steers of a floe in flight (spec/06 R159). -/
def Part.inFlight (x : Part) (f : Nat) : Nat :=
  x.stepsOn f + (x.steers.filter (fun z => z.floe == f)).length
/-- One more step fits on a channel of the partition and on a floe (spec/10 R318). -/
def Part.room (x : Part) (f ch : Nat) : Bool := x.inFlight f < 32 && (x.openSteps.filter (fun t => t.ch == ch)).length < 64
/-- The registers of a COLL.VERDICT. -/
def verdictRreg (w : IWord) : Nat := fld w 55 51
def verdictCreg (w : IWord) : Nat := fld w 50 46
def verdictNreg (w : IWord) : Nat := fld w 45 41
/-- A ring instruction waits: a tag is not ready, a commit holds a tag, the port or the channel is full (spec/06 R159, R177, spec/10 R318). -/
def State.ringWaits (s : State) (f : Nat) (w : IWord) : Bool :=
  !(s.floe f).ready [collSrc w] [collDst w] || s.commitHolds f [collSrc w, collDst w]
    || !(match s.floePart f with | some p => (s.part p).room f (collCh w) | none => true)
/-- A COLL.VERDICT waits: for a register, for a verdict of its tag whose result is held and not applied, or for room (spec/06 R169, spec/10 R318). -/
def State.verdictWaits (s : State) (f : Nat) (st : Stream) (w : IWord) : Bool :=
  (s.stream f st).waitsFor [verdictRreg w, verdictCreg w, verdictNreg w]
    || (match s.floePart f with
        | some p =>
          let old := s.stepOf p (collTag w)
          old.any (fun t => !t.isOpen) || 32 ≤ (s.part p).inFlight f || (old.isNone && !(s.part p).room f 1)
        | none => false)
/-- A COLL.STEER waits while the port is full (spec/06 R159). -/
def State.steerWaits (s : State) (f : Nat) : Bool :=
  match s.floePart f with
  | some p => decide (32 ≤ (s.part p).inFlight f)
  | none => false

/-! ## Grants (spec/06 Table 6-4, R187, R188) -/

/-- The unit of an opcode: 0 array, 1 vector engine, 2 transfer engine, 3 stash unit, 4 collective port; none for the core. -/
def unitOf (op : Nat) : Option Nat :=
  match op with
  | 0x10 | 0x11 | 0x12 => some 0
  | 0x20 | 0x21 | 0x22 | 0x30 | 0x31 | 0x38 | 0x39 => some 1
  | 0x18 => some 2
  | 0x28 | 0x29 => some 3
  | 0x40 | 0x41 | 0x42 | 0x43 | 0x44 => some 4
  | _ => none
/-- An instruction waits at its stream's head for its unit. -/
def State.unitWaits (s : State) (f : Nat) (st : Stream) (w : IWord) : Bool :=
  match opOf w with
  | 0x10 | 0x11 | 0x12 => s.mmaWaits f st w
  | 0x20 | 0x21 | 0x22 => s.passWaits f st w
  | 0x30 | 0x31 => s.updWaits f st w
  | 0x38 | 0x39 => s.condWaits f st w
  | 0x18 => s.xferWaits f w
  | 0x28 => s.pushWaits f st w
  | 0x29 => s.popWaits f st w
  | 0x43 => s.steerWaits f
  | 0x44 => s.verdictWaits f st w
  | _ => s.ringWaits f w
/-- A stream is eligible for a unit: its head is an instruction that the unit could accept now (spec/06 R187). -/
def State.eligible (s : State) (f unit : Nat) (st : Stream) : Bool :=
  match s.headWord f st with
  | some w => encOk w && unitOf (opOf w) == some unit && !s.unitWaits f st w
  | none => false
/-- A stream's weight in FLOE_STREAM_CTL (spec/06 Table 6-15). -/
def Floe.weightOf (x : Floe) (st : Stream) : Nat := bitsOf x.streamCtl.toNat (4 + 4 * st.num) 4
/-- The first stream of some in priority order. -/
def firstStream (l : List Stream) : Option Stream := allStreams.find? (fun t => l.contains t)
/-- How long a stream has been refused. -/
def arbWaited (a : Arb) (st : Stream) : Nat := ((a.refused.find? (fun e => e.1 == st)).map (fun e => e.2)).getD 0
/-- The winner of STRICT mode among eligible streams: the one refused longest of the aged ones, else the highest priority (spec/06 R187). -/
def Floe.strictWinner (x : Floe) (l : List Stream) (a : Arb) : Option Stream :=
  let g := bitsOf x.streamCtl.toNat 16 5
  let aged := if g = 0 then [] else l.filter (fun t => 2 ^ g < arbWaited a t)
  if aged.isEmpty then firstStream l
  else
    let m := aged.foldl (fun m t => max m (arbWaited a t)) 0
    firstStream (aged.filter (fun t => arbWaited a t == m))
/-- The streams of some that are eligible in WEIGHTED mode: one of weight 0 only beside no other (spec/06 R188). -/
def Floe.weighted (x : Floe) (l : List Stream) : List Stream :=
  if l.any (fun t => x.weightOf t != 0) then l.filter (fun t => x.weightOf t != 0) else l
/-- The counter of a unit for a stream in a grant: its weight is added. -/
def Floe.raised (x : Floe) (unit : Nat) (t : Stream) : Int := Tbl.get 0 x.weights (4 * unit + t.num) + (x.weightOf t : Int)
/-- The winner of WEIGHTED mode among streams of `weighted`: the largest counter, ties in stream order. -/
def Floe.weightedWinner (x : Floe) (unit : Nat) (l : List Stream) : Option Stream :=
  match l with
  | [] => none
  | t :: r => l.find? (fun u => x.raised unit u == r.foldl (fun m v => max m (x.raised unit v)) (x.raised unit t))
/-- The counters after a contested grant: every stream adds its weight, the winner subtracts the sum of the weights. -/
def Floe.reweigh (x : Floe) (unit : Nat) (l : List Stream) (st : Stream) : Tbl Int :=
  if l.length ≤ 1 then x.weights
  else
    let sum : Int := l.foldl (fun n t => n + (x.weightOf t : Int)) 0
    l.foldl (fun w t => w.put (4 * unit + t.num) (if t = st then x.raised unit t - sum else x.raised unit t)) x.weights
/-- The streams that contend with a stream for a unit in the cycle of its grant. -/
def State.contenders (s : State) (f unit : Nat) (st : Stream) : List Stream := allStreams.filter (fun t => t == st || s.eligible f unit t)
/-- A grant of a unit to a stream: the unit's counters after it, none where another stream wins (spec/06 R187, R188). -/
def State.arbitrate (s : State) (f unit : Nat) (st : Stream) (a : Arb) : Option (Tbl Int) :=
  let x := s.floe f
  let l := s.contenders f unit st
  if x.streamCtl.getLsbD 0 then
    let e := x.weighted l
    if x.weightedWinner unit e = some st then some (x.reweigh unit e st) else none
  else if x.strictWinner l a = some st then some x.weights else none
/-- The reads of some tags' descriptors at acceptance (spec/06 R171, spec/08 R238). -/
def State.readDescs (s : State) (f : Nat) (errs : Errs) (tags : List Nat) : State :=
  if errs.isEmpty && s.spBad.isEmpty then s
  else (s.strike errs).each ((tags.filter (fun t => t < 256)).eraseDups) (fun s t => s.noteRange (some f) errs (s.descAddr f t) 32)
/-- A unit grants a stream's head (spec/06 R171, R187 to R190): the descriptors it names are read, and it faults, or it is accepted. -/
def State.grant (s : State) (f unit : Nat) (st : Stream) (a : Arb) (tags : List Nat) (fault : State → Option Nat) (accept : State → State) : State :=
  match s.arbitrate f unit st a with
  | none => s
  | some w =>
    let s1 := s.readDescs f a.errs tags
    match fault s1 with
    | some c => s1.faultStream f st c
    | none => accept (s1.setFloe f { s1.floe f with weights := w })

end Sys2Proof.Machine
end

