-- ==== Sys2Proof/Machine/Array.lean ====
section
/-! DEFINITION. The matrix array: the MMA instructions, the exact k-block sums, the banks, the tile queue (spec/03, spec/04 R93 to R104, spec/05 R123 to R125). -/

namespace Sys2Proof.Machine

/-! ## Fields and checks -/

/-- Both operands are of the 4-bit class (spec/03 R68). -/
def class4 (a b : Nat) : Bool := fmt4 a && fmt4 b
/-- The pair is one that the array multiplies (spec/03 R67, R68, R70). -/
def mmaPair (a b : Nat) : Bool := (fmtMx a && fmtMx b) || (a == 6 && b == 6)
/-- A LINE operand is read along its line axis only (spec/03 Table 3-4). -/
def lineOk (d : Desc) (kIsDim1 : Bool) : Bool := !scaled d.fmt || d.shape == 0 || d.shape == (if kIsDim1 then 1 else 2)
/-- The layout rule of spec/03 R76. -/
def mmaLayoutOk (w : IWord) (a b : Desc) : Bool :=
  lineOk a (!mmaTa w) && lineOk b (mmaTb w) && a.isMeta == mmaSp w && !b.isMeta
/-- Extents in blocks: of m, of n, of k in A and in B, and the global k origins of A and B (spec/03 Table 3-4, spec/06 R173). -/
def mmaExtents (w : IWord) (a b : Desc) : Nat × Nat × Nat × Nat × Nat × Nat :=
  let (m, ka, oa) := if mmaTa w then (a.dim1b, a.dim0b, a.org0b) else (a.dim0b, a.dim1b, a.org1b)
  let (n, kb, ob) := if mmaTb w then (b.dim0b, b.dim1b, b.org1b) else (b.dim1b, b.dim0b, b.org0b)
  (m, n, ka, kb, oa, ob)
/-- The geometry rule of spec/03 R85 and spec/04 R98. -/
def mmaGeometryOk (w : IWord) (m0 n0 k0 : Nat) (a b : Desc) : Bool :=
  let (m, n, ka, kb, oa, ob) := mmaExtents w a b
  let kn := mmaKn w
  m0 + mmaMb w ≤ m && n0 + mmaNb w ≤ n && k0 + kn ≤ ka && ka == kb && oa == ob
    && (!class4 a.fmt b.fmt || (k0 % 2 == 0 && (kn % 2 == 0 || k0 + kn == ka)))
    && (!mmaSp w || (k0 % 2 == 0 && kn % 2 == 0))
/-- An operand's elements, scales, metadata and, under SKIP, occupancy lie in floe f's backed scratchpad (spec/03 R86). -/
def mmaPlaced (w : IWord) (f : Nat) (d : Desc) : Bool := (if flag w 22 then d else { d with occ := false }).inScratch f
/-- The bank rule of spec/03 R88 for an instruction that does not wait. -/
def mmaBankOk (x : Floe) (st : Stream) (w : IWord) (m0 n0 : Nat) : Bool :=
  let b := x.bank (mmaBank w)
  let o := x.bank (1 - mmaBank w)
  if mmaInit w then b.openFor st && b.m0 == m0 && b.n0 == n0 && b.mb == mmaMb w && b.nb == mmaNb w
  else !b.openFor st && !o.openFor st

/-! ## Operand values -/

/-- The metadata nibble of group g of row r of a compressed block at an address (spec/04 R96). -/
def State.nibble (s : State) (errs : Errs) (a r g : Nat) : Nat :=
  let b := (s.fill errs (a + 8 * r + g / 2) 1).headD 0
  if g % 2 = 0 then b.toNat % 16 else b.toNat / 16
/-- A nibble is valid (spec/04 R96). -/
def nibbleOk (n : Nat) : Bool := n % 4 < n / 4
/-- Every metadata nibble that an MMA.SP covers is valid (spec/04 R97). -/
def State.metaOk (s : State) (w : IWord) (m0 k0 : Nat) (a : Desc) : Bool :=
  !mmaSp w || (blocksIn m0 (k0 / 2) (mmaMb w) (mmaKn w / 2)).all (fun p =>
    let addr := a.metaBase + 256 * (p.1 * (a.dim1b / 2) + p.2)
    (s.fill [] addr 256).all (fun v => nibbleOk (v.toNat % 16) && nibbleOk (v.toNat / 16)))

/-- An element with its scale, exactly (spec/02 R39, spec/03 R67). -/
def scaledVal (fmt c scale : Nat) : FVal := if scale = 255 then .nan else (elemVal fmt c).scale ((scale : Int) - 127)
/-- The exact values of row r of a dense block. -/
def State.exactRow (s : State) (errs : Errs) (d : Desc) (br bc r : Nat) : List FVal :=
  let (a, n) := d.rowAt br bc r
  let l := s.fill errs a n
  if d.fmt = 6 then (rowHalves l).map valBf16
  else List.zipWith (fun c x => scaledVal d.fmt c x) (rowCodes d.fmt l) (s.rowScales errs d br bc r)
/-- Place the two kept elements of each group of a 2:4 row of 32 logical positions (spec/04 R94, R96). -/
def expandGroups (nib : Nat → Nat) : Nat → List FVal → List FVal
  | g, x :: y :: r =>
    (List.range 4).map (fun i => if i = nib g % 4 then x else if i = nib g / 4 then y else fzero) ++ expandGroups nib (g + 1) r
  | _, _ => []
/-- The exact values of row r of logical block (br, q) of a 2:4 operand (spec/04 R94 to R96). -/
def State.sparseRow (s : State) (errs : Errs) (d : Desc) (br q r : Nat) : List FVal :=
  let b := br * (d.dim1b / 2) + q / 2
  let z := blockBytes d.fmt / 32
  let l := s.fill errs (d.base + b * blockBytes d.fmt + r * z) z
  let codes := if d.fmt = 6 then (rowHalves l).map valBf16 else (rowCodes d.fmt l).map (fun c => elemVal d.fmt c)
  let kept := (codes.drop (16 * (q % 2))).take 16
  let e := expandGroups (fun g => s.nibble errs (d.metaBase + 256 * b) r g) (8 * (q % 2)) kept
  if d.fmt = 6 then e else List.zipWith (fun v x => if x = 255 then FVal.nan else v.scale ((x : Int) - 127)) e (s.rowScales errs d br q r)
/-- A block as 32 rows of 32 values. -/
def State.exactBlock (s : State) (errs : Errs) (d : Desc) (br bc : Nat) : List (List FVal) :=
  (List.range 32).map (fun r => if d.isMeta then s.sparseRow errs d br bc r else s.exactRow errs d br bc r)
/-- Rows become columns. -/
def transpose32 (l : List (List FVal)) : List (List FVal) :=
  l.foldr (fun row acc => List.zipWith (fun x r => x :: r) row acc) (List.replicate 32 [])
/-- A block of zeros. -/
def zeroBlock : List (List FVal) := List.replicate 32 (List.replicate 32 fzero)

/-- A block is occupied as SKIP reads it (spec/04 R101, R102). -/
def State.occupied? (s : State) (w : IWord) (d : Desc) (br bc : Nat) : Bool :=
  !(flag w 22 && d.occ) || s.occBit d (if d.isMeta then br * (d.dim1b / 2) + bc / 2 else d.blk br bc)
/-- The block coordinates of operand A at m-block m and k-unit q, and of B at k-unit q and n-block n (spec/03 Table 3-4). -/
def aBlock (w : IWord) (m q : Nat) : Nat × Nat := if mmaTa w then (q, m) else (m, q)
def bBlock (w : IWord) (q n : Nat) : Nat × Nat := if mmaTb w then (n, q) else (q, n)

/-- k-unit q is skipped (spec/04 R102). -/
def State.skips (s : State) (o : MmaOp) (q : Nat) : Bool :=
  let w := o.w
  !(List.range (mmaMb w)).any (fun i => s.occupied? w o.dA (aBlock w (o.m0 + i) q).1 (aBlock w (o.m0 + i) q).2)
    || !(List.range (mmaNb w)).any (fun j => s.occupied? w o.dB (bBlock w q (o.n0 + j)).1 (bBlock w q (o.n0 + j)).2)
/-- The k-units of an MMA. -/
def mmaUnits (o : MmaOp) : List Nat := (List.range (mmaKn o.w)).map (fun i => o.k0 + i)
/-- The rows of A at k-unit q: 32 values of k for each m. -/
def State.aRows (s : State) (errs : Errs) (o : MmaOp) (q : Nat) : List (List FVal) :=
  (List.range (mmaMb o.w)).flatMap (fun i =>
    let b := aBlock o.w (o.m0 + i) q
    if !s.occupied? o.w o.dA b.1 b.2 then zeroBlock
    else if mmaTa o.w then transpose32 (s.exactBlock errs o.dA b.1 b.2) else s.exactBlock errs o.dA b.1 b.2)
/-- The columns of B at k-unit q: 32 values of k for each n. -/
def State.bCols (s : State) (errs : Errs) (o : MmaOp) (q : Nat) : List (List FVal) :=
  (List.range (mmaNb o.w)).flatMap (fun j =>
    let b := bBlock o.w q (o.n0 + j)
    if !s.occupied? o.w o.dB b.1 b.2 then zeroBlock
    else if mmaTb o.w then s.exactBlock errs o.dB b.1 b.2 else transpose32 (s.exactBlock errs o.dB b.1 b.2))
/-- A product: exactly zero where a factor is (spec/03 R71). -/
def prod (a b : FVal) : FVal := if a.zero || b.zero then fzero else a.mul b
/-- The exact sum of the products of two vectors. -/
def dot (a b : List FVal) : FVal := (List.zipWith prod a b).foldl FVal.add fzero
/-- Add matrices of sums. -/
def addMat (x y : List (List FVal)) : List (List FVal) := List.zipWith (fun r t => List.zipWith FVal.add r t) x y
/-- The exact sums of one k-unit, row by row. -/
def State.unitSums (s : State) (errs : Errs) (o : MmaOp) (q : Nat) : List (List FVal) :=
  let b := s.bCols errs o q
  (s.aRows errs o q).map (fun r => b.map (fun c => dot r c))
/-- The empty lists of a tile's cells. -/
def noContrib (o : MmaOp) : List (List (List FVal)) := List.replicate (32 * mmaMb o.w) (List.replicate (32 * mmaNb o.w) [])
/-- The exact sums of the units of a k-block: what P_b rounds once (spec/03 R67, R68). -/
def State.blockSums (s : State) (errs : Errs) (o : MmaOp) : List Nat → Option (List (List FVal))
  | [] => none
  | q :: r =>
    let m := s.unitSums errs o q
    match State.blockSums s errs o r with
    | none => some m
    | some t => some (addMat m t)
/-- What each cell adds for a BF16 k-unit: 32 products, one at a time (spec/03 R70). -/
def State.pushProducts (s : State) (errs : Errs) (o : MmaOp) (q : Nat) (acc : List (List (List FVal))) : List (List (List FVal)) :=
  let b := s.bCols errs o q
  List.zipWith (fun r row => List.zipWith (fun l c => (List.zipWith prod row c).foldl (fun l v => v :: l) l) r b) acc (s.aRows errs o q)
/-- The global k origin of an MMA's operand A in units (spec/03 Table 3-4). -/
def MmaOp.kOrg (o : MmaOp) : Nat := if mmaTa o.w then o.dA.org0b else o.dA.org1b
/-- Both operands are of the 4-bit class. -/
def MmaOp.is4 (o : MmaOp) : Bool := class4 o.dA.fmt o.dB.fmt
/-- The first global k-unit of the k-block of local unit q: a k-block of the 4-bit class holds two units (spec/03 R67, R68). -/
def MmaOp.blockOf (o : MmaOp) (q : Nat) : Nat := let g := o.kOrg + q; if o.is4 then g / 2 * 2 else g
/-- The k-units of an MMA that run. -/
def State.runUnits (s : State) (o : MmaOp) : List Nat := (mmaUnits o).filter (fun q => !s.skips o q)
/-- The exact sums of the k-blocks of an MMA over the k-units that run, ascending (spec/03 R67, R68). -/
def State.exactBlocks (s : State) (errs : Errs) (o : MmaOp) : List (Nat × List (List FVal)) :=
  let run := s.runUnits o
  ((run.map o.blockOf).eraseDups).filterMap (fun b => (s.blockSums errs o (run.filter (fun q => o.blockOf q == b))).map (fun m => (b, m)))
/-- The products that the cells add one at a time, newest first (spec/03 R70). -/
def State.contribs (s : State) (errs : Errs) (o : MmaOp) : List (List (List FVal)) :=
  (s.runUnits o).foldl (fun acc q => s.pushProducts errs o q acc) (noContrib o)
/-- The storage blocks whose fetch occupancy avoided (spec/04 R104): a compressed block of A serves two k-units. -/
def State.blocksSkipped (s : State) (o : MmaOp) : Nat :=
  let w := o.w
  let u := mmaUnits o
  let nb := u.foldl (fun n q => n + ((List.range (mmaNb w)).filter (fun j =>
    s.skips o q || !s.occupied? w o.dB (bBlock w q (o.n0 + j)).1 (bBlock w q (o.n0 + j)).2)).length) 0
  let ua := if mmaSp w then u.filter (fun q => q % 2 == 0) else u
  let na := ua.foldl (fun n q => n + ((List.range (mmaMb w)).filter (fun i =>
    (s.skips o q && (!mmaSp w || s.skips o (q + 1))) || !s.occupied? w o.dA (aBlock w (o.m0 + i) q).1 (aBlock w (o.m0 + i) q).2)).length) 0
  if flag w 22 then na + nb else 0
/-- The bytes an MMA fetches: the occupied blocks of the k-units that run (spec/04 R101, R102). -/
def State.mmaRanges (s : State) (o : MmaOp) : List (Nat × Nat) :=
  (s.runUnits o).flatMap (fun q =>
    let a := (List.range (mmaMb o.w)).map (fun i => aBlock o.w (o.m0 + i) q)
    let b := (List.range (mmaNb o.w)).map (fun j => bBlock o.w q (o.n0 + j))
    (a.filter (fun e => s.occupied? o.w o.dA e.1 e.2)).flatMap (fun e => o.dA.blockRanges e.1 e.2)
      ++ (b.filter (fun e => s.occupied? o.w o.dB e.1 e.2)).flatMap (fun e => o.dB.blockRanges e.1 e.2))
/-- The operands of an accepted MMA are read: its sums are formed, its readers end (spec/03 R87), and the array is done with it, so that its bank is DRAINING if it drains (R88; notes/assumptions/108.md). -/
def State.mmaRead (s : State) (f : Nat) (errs : Errs) (o : MmaOp) : State × MmaOp :=
  let run := s.runUnits o
  let bf := o.dA.fmt == 6
  let o1 := { o with readDone := true, blocks := if bf then [] else s.exactBlocks errs o, contrib := if bf then s.contribs errs o else [],
                     kRun := run.length, kSkipped := mmaKn o.w - run.length, bSkipped := s.blocksSkipped o }
  let s1 := s.each (s.mmaRanges o) (fun s r => s.noteRange (some f) errs r.1 r.2)
  let x := (s1.floe f).endReaders (readersOf (mmaReads o.w) (mmaWrites o.w))
  let k := x.bank (mmaBank o.w)
  (s1.setFloe f (if mmaDrain o.w then x.setBank (mmaBank o.w) { k with st := .draining } else x), o1)

/-! ## The instructions -/

/-- An operand descriptor that the MMA names twice or more is read once; a descriptor of TAG_META is checked too (spec/03 R87). -/
def State.mmaDescs (s : State) (f : Nat) (w : IWord) : Option (Desc × Desc) :=
  match s.desc f (fld w 110 103), s.desc f (fld w 102 95) with
  | some a, some b => if mmaSp w && (s.desc f (fld w 94 87)).isNone then none else some (a, b)
  | _, _ => none
/-- The bytes of the operand blocks that an MMA's fields address. -/
def mmaTouches (w : IWord) (m0 n0 k0 : Nat) (a b : Desc) : List (Nat × Nat) :=
  ((List.range (mmaKn w)).map (fun i => k0 + i)).flatMap (fun q =>
    ((List.range (mmaMb w)).map (fun i => aBlock w (m0 + i) q)).flatMap (fun e => a.blockRanges e.1 e.2)
      ++ ((List.range (mmaNb w)).map (fun j => bBlock w q (n0 + j))).flatMap (fun e => b.blockRanges e.1 e.2))
/-- The lowest fault of an MMA (spec/03 Table 3-8, spec/06 R190); none where it is accepted. -/
def State.mmaFault (s : State) (f : Nat) (st : Stream) (w : IWord) (m0 n0 k0 : Nat) : Option Nat :=
  let x := s.floe f
  match s.mmaDescs f w with
  | none => some 0x03
  | some (a, b) =>
    let acc := s.touchFault f (mmaTouches w m0 n0 k0 a b) []
    if acc.isSome then acc
    else if !mmaPair a.fmt b.fmt then some 0x10
    else if !mmaLayoutOk w a b then some 0x11
    else if !mmaGeometryOk w m0 n0 k0 a b then some 0x12
    else if mmaInit w && (x.bank (mmaBank w)).openFor st && k0 < (x.bank (mmaBank w)).kEnd then some 0x13
    else if !mmaBankOk x st w m0 n0 then some 0x14
    else if !mmaPlaced w f a || !mmaPlaced w f b then some 0x15
    else if !s.metaOk w m0 k0 a then some 0x16
    else none
/-- The array accepts an MMA (spec/03 R87, R88): its counts are taken and its bank is OPEN for its stream until its end; one whose k-units are all skipped is read at once. -/
def State.mmaAccept (s : State) (f : Nat) (st : Stream) (w : IWord) (m0 n0 k0 : Nat) (a b : Desc) : State :=
  let x := s.floe f
  let o : MmaOp := { stream := st, w := w, m0 := m0, n0 := n0, k0 := k0, dA := a, dB := b }
  let old := x.bank (mmaBank w)
  let y : Bank := { old with st := .opened, owner := st, m0 := m0, n0 := n0, mb := mmaMb w, nb := mmaNb w, kEnd := k0 + mmaKn w }
  let s1 := (s.setFloe f ((x.take (mmaReads w) (mmaWrites w)).setBank (mmaBank w) y)).issue f st
  let (s2, o2) := if (mmaUnits o).all (fun q => s1.skips o q) then s1.mmaRead f [] o else (s1, o)
  let z := s2.floe f
  s2.setFloe f { z with mmas := z.mmas ++ [o2] }
/-- The effective M0, N0 and K0 of an MMA (spec/03 R83). -/
def mmaPlace (y : StreamSt) (w : IWord) : Nat × Nat × Nat :=
  let add := fun (base r : Nat) => if flag w 6 then base + y.regLow 14 r else base
  (add (fld w 86 73) (fld w 21 17), add (fld w 72 59) (fld w 16 12), add (fld w 58 45) (fld w 11 7))
/-- An MMA at the head of its stream. -/
def State.mmaHead (s : State) (f : Nat) (st : Stream) (arb : Arb) (w : IWord) : State :=
  let (m0, n0, k0) := mmaPlace (s.stream f st) w
  if s.mmaWaits f st w then s
  else s.grant f 0 st arb (mmaReads w) (fun s => s.mmaFault f st w m0 n0 k0) (fun s =>
    match s.mmaDescs f w with
    | none => s
    | some (a, b) => s.mmaAccept f st w m0 n0 k0 a b)

/-- MMA (spec/03 R84). -/
def execMma (f : Nat) (st : Stream) (arb : Arb) (s : State) : Host.Outcome State Fault Refusal :=
  .next (s.inCycle f st fun s => s.onHead f st (isIns 0x10) (fun w => s.mmaHead f st arb w))
/-- MMA.T (spec/03 R82). -/
def execMmaT (f : Nat) (st : Stream) (arb : Arb) (s : State) : Host.Outcome State Fault Refusal :=
  .next (s.inCycle f st fun s => s.onHead f st (isIns 0x11) (fun w => s.mmaHead f st arb w))
/-- MMA.SP (spec/04 R98). -/
def execMmaSp (f : Nat) (st : Stream) (arb : Arb) (s : State) : Host.Outcome State Fault Refusal :=
  .next (s.inCycle f st fun s => s.onHead f st (isIns 0x12) (fun w => s.mmaHead f st arb w))

/-! ## Sums, drains and completion -/

/-- The running sum takes a value (spec/03 R69, R70): zero leaves it; it is never -0 (notes/assumptions/27.md). -/
def addRun (r : F32) (v : FVal) : F32 :=
  if v.zero then r
  else
    let x := f32Of ((val32 r).add v)
    if x = 0x80000000#32 then 0 else x
/-- The k-blocks of an MMA after those a bank holds in progress: the block accumulators of one k-block go on where the MMA continues it (spec/03 R66, R73). -/
def joinBlocks (held : Option (Nat × List (List FVal))) (same : Bool) (l : List (Nat × List (List FVal))) : List (Nat × List (List FVal)) :=
  match held, l with
  | none, l => l
  | some h, [] => [h]
  | some h, b :: r => if same && h.1 == b.1 then (b.1, addMat h.2 b.2) :: r else h :: b :: r
/-- The first global k-unit of the k-block that an MMA which keeps its bank leaves in progress: a k-block of the 4-bit class of which it has run the first unit only. -/
def MmaOp.openBlock (o : MmaOp) : Option Nat :=
  let e := o.kOrg + o.k0 + mmaKn o.w
  if !mmaDrain o.w && o.is4 && e % 2 == 1 then some (e - 1) else none
/-- The running sums of rows take the P_b of a k-block (spec/03 R67 to R69). -/
def addBlock (rows : List (List F32)) (m : List (List FVal)) : List (List F32) :=
  List.zipWith (fun r t => List.zipWith (fun v x => addRun v (val32 (f32Of x))) r t) rows m
/-- The rows of a tile and the k-block left in progress: the running sums over the contributions in ascending k order, from +0 or from the bank's values (spec/03 R69, R70). -/
def tileRows (o : MmaOp) (k : Bank) : List (List F32) × Option (Nat × List (List FVal)) :=
  let z := List.replicate (32 * mmaMb o.w) (List.replicate (32 * mmaNb o.w) (0 : F32))
  let from0 := if !mmaInit o.w || k.vals.isEmpty then z else k.vals
  let l := joinBlocks (if mmaInit o.w then k.block else none) o.is4 o.blocks
  let stay := fun (b : Nat × List (List FVal)) => o.openBlock == some b.1
  let rows := ((l.filter (fun b => !stay b)).map (fun b => b.2)).foldl addBlock from0
  (if o.contrib.isEmpty then rows
   else List.zipWith (fun r c => List.zipWith (fun v l => l.reverse.foldl addRun v) r c) rows o.contrib, l.find? stay)
/-- ACLK cycles in which an MMA issues products (spec/03 R78, R79, spec/04 R103). -/
def mmaCycles (o : MmaOp) : Nat :=
  let c := if o.dA.fmt = 6 then 64 else if class4 o.dA.fmt o.dB.fmt then 16 else 32
  o.kRun * c / (if mmaSp o.w then 2 else 1)
/-- A drain of a bank whose rows have all entered the queue. -/
def drained (b : Nat) (d : Drain) : Bool := d.bank == b && d.entered == d.rows.length
/-- A drain of a bank with rows still to come. -/
def draining (b : Nat) (d : Drain) : Bool := d.bank == b && d.entered < d.rows.length
/-- The oldest MMA of a bank that has read its operands reaches its last product: its tile stays in the bank, or begins to drain. While an earlier tile of the bank still drains, no cell of its rows has begun (spec/03 R80). -/
def Floe.lastProduct (x : Floe) (b : Nat) : Option (MmaOp × Floe) :=
  match takeFirst (fun o => mmaBank o.w == b) x.mmas with
  | none => none
  | some (o, r) =>
    if !o.readDone || x.drains.any (draining b) then none
    else
      let k := x.bank b
      let (rows, blk) := tileRows o k
      let x1 := { x with mmas := r, arrayBusy := x.arrayBusy + BitVec.ofNat 64 (mmaCycles o), arraySkip := x.arraySkip + BitVec.ofNat 64 o.bSkipped,
                         skipKunits := x.skipKunits + BitVec.ofNat 64 o.kSkipped }
      if mmaDrain o.w then
        let d : Drain := { sp := mmaSp o.w, bank := b, stream := o.stream, tag := fld o.w 30 23, mb := mmaMb o.w, nb := mmaNb o.w, rows := rows }
        some (o, { x1.setBank b { k with vals := [], block := none } with drains := x1.drains ++ [d] })
      else some (o, x1.setBank b { k with vals := rows, block := blk })
/-- An MMA completes (spec/03 Table 3-9, spec/04 Table 4-11). -/
def Floe.countMma (x : Floe) (sp : Bool) : Floe :=
  { x with mmaCount := bump x.mmaCount, spMmaCount := if sp then bump x.spMmaCount else x.spMmaCount }
/-- MMA_COMPLETE (spec/03 R79, R88): a drained tile's MMA ends and its bank is FREE unless a new tile was accepted on it; otherwise the oldest MMA of the bank reaches its last product, which ends one with DRAIN = 0. -/
def execMmaComplete (f bank : Nat) (s : State) : Host.Outcome State Fault Refusal :=
  let x := s.floe f
  match takeFirst (drained bank) x.drains with
  | some (d, r) =>
    let x1 := ({ x with drains := r }).countMma d.sp
    let k := x1.bank bank
    let newer := r.any (fun e => e.bank == bank) || x1.mmas.any (fun o => mmaBank o.w == bank)
    .next (s.setFloe f (if newer || k.st != .draining then x1 else x1.setBank bank { k with st := .free }))
  | none =>
    match x.lastProduct bank with
    | none => .next s
    | some (o, x1) => .next (s.setFloe f (if mmaDrain o.w then x1 else x1.countMma (mmaSp o.w)))

/-- Rows of the queue in use: all rows of a tile from when its row 0 has entered, those still to enter included (spec/05 R123, R124; DESIGN CHOICE, notes/assumptions/135.md). -/
def Floe.tqUsed (x : Floe) : Nat := x.tq.foldl (fun n t => n + (32 * t.mb - t.released)) 0
/-- Update the tile of a tag. -/
def Floe.mapTile (x : Floe) (tag : Nat) (g : Tile → Tile) : Floe := { x with tq := x.tq.map (fun t => if t.tag = tag then g t else t) }
/-- The next row of the oldest draining tile of a bank enters the queue; a tile's first row waits for room for all its rows (spec/05 R124, R125). The row is NaN after a parity error. -/
def Floe.drainRow (x : Floe) (b : Nat) (parity : Bool) : Option Floe :=
  match x.drains.find? (draining b) with
  | none => none
  | some d =>
    if d.entered = 0 && 512 < x.tqUsed + 32 * d.mb then none
    else
      let row := d.rows.getD d.entered []
      let row1 := if parity then row.map (fun _ => nan32) else row
      let x1 := if d.entered = 0 then { x with tq := x.tq ++ [{ tag := d.tag, owner := d.stream, mb := d.mb, nb := d.nb }] } else x
      let x2 := x1.mapTile d.tag (fun t => { t with rows := t.rows.put d.entered row1, entered := t.entered + 1 })
      let done := x2.drains.takeWhile (fun e => !draining b e)
      let rest := x2.drains.dropWhile (fun e => !draining b e)
      some { x2 with drains := done ++ { d with entered := d.entered + 1 } :: rest.drop 1 }

/-- TILE_ROW_DRAIN (spec/05 R124, spec/03 R79, R91). -/
def execTileRowDrain (f bank : Nat) (parityError : Bool) (s : State) : Host.Outcome State Fault Refusal :=
  let x := s.floe f
  let x1 := if x.drains.any (draining bank) then x
    else match x.lastProduct bank with
      | some (o, y) => if mmaDrain o.w then y else x
      | none => x
  match x1.drainRow bank parityError with
  | none => .next s
  | some y =>
    let s1 := s.setFloe f y
    .next (if parityError then (s1.raise (s1.floePage f).1 (s1.floePage f).2 0).recordNf f else s1)

end Sys2Proof.Machine
end

