-- ==== Sys2Proof/Machine/Vector.lean ====
section
/-! DEFINITION. The vector engine's passes VEC, RED and CVT.BS16: operands and their checks, the stages, masks and flags, reductions, conversions, and the tile rows a pass releases (spec/05, spec/02 R37 to R55). -/

namespace Sys2Proof.Machine

/-! ## The pass word (spec/05 Table 5-1) -/

/-- An operation takes no second operand (spec/05 Table 5-3). -/
def unaryOp (op : Nat) : Bool :=
  op == 0 || (0x08 ≤ op && op ≤ 0x14) || op == 0x18 || op == 0x19 || (0x39 ≤ op && op ≤ 0x3B)
/-- The units of an operation (spec/05 Table 5-3). -/
def opUnits (op : Nat) : Nat :=
  if op = 0 then 0 else if op = 0x05 || (0x0A ≤ op && op ≤ 0x12) || op = 0x24 then 4 else if op = 0x22 || op = 0x23 then 2 else 1
/-- Cycles per row: c of spec/05 R149. -/
def passCycles (w : IWord) : Nat := max 1 ((stageNums.foldl (fun n k => n + opUnits (stageOp w k)) 0 + 1) / 2)
/-! ## Stage operations (spec/05 Table 5-3, Table 5-6, R136, R137) -/

/-- 1.0 and +0. -/
def f32One : F32 := 0x3F800000#32
def f32Zero : F32 := 0#32
/-- Clamp to int32; SAT where it clamps. -/
def sat32 (i : Int) : F32 × Flg :=
  if i < -2147483648 then (0x80000000#32, { sat := true })
  else if 2147483647 < i then (0x7FFFFFFF#32, { sat := true })
  else (BitVec.ofInt 32 i, {})
/-- A floating-point result of two operands. -/
def op2 (x b : F32) (v : FVal) : F32 × Flg := opFlg ((val32 x).isNan || (val32 b).isNan) false v
/-- A floating-point result of one operand; DZ where asked. -/
def op1 (x : F32) (dz : Bool) (v : FVal) : F32 × Flg := opFlg (val32 x).isNan dz v
/-- The value is not zero and finite. -/
def finNz (v : FVal) : Bool := !v.nonfinite && !v.zero
/-- d = f'(y) of spec/05 Table 5-6, rounded once, with the flags of its rounding. -/
def derivOf (op : Nat) (y alpha : F32) : F32 × Flg :=
  let v := val32 y
  let pos := FVal.lt fzero v
  let plus := fun (d : F32 × Flg) => if (val32 d.1).zero then (f32Zero, d.2) else d
  match op with
  | 0x20 => (if pos then f32One else f32Zero, {})
  | 0x21 => (if pos then f32One else alpha, {})
  | 0x22 => plus (roundFlg (v.sub (v.mul v)) {})
  | 0x23 => plus (roundFlg (FVal.sub (.fin false 1 0) (v.mul v)) {})
  | _ => plus (roundFlg v.oneMinusExp {})
/-- x times d, of a NaN y NaN (spec/05 R150). -/
def derivative (op : Nat) (x y alpha : F32) : F32 × Flg :=
  if (val32 y).isNan then (nan32, {})
  else
    let (d, f) := derivOf op y alpha
    let (r, g) := opFlg ((val32 x).isNan || (val32 y).isNan) false ((val32 x).mul (val32 d))
    (r, orFlg f g)
/-- A stage's result and flags from x, b, S25, the column and the destination row. -/
def stageRun (op : Nat) (x b alpha : F32) (col row : Nat) : F32 × Flg :=
  let u := val32 x
  let v := val32 b
  let n := b.toNat % 256
  match op with
  | 0x00 => (x, {})
  | 0x01 => op2 x b (u.add v)
  | 0x02 => op2 x b (u.sub v)
  | 0x03 => op2 x b (v.sub u)
  | 0x04 => op2 x b (u.mul v)
  | 0x05 => opFlg (u.isNan || v.isNan) (finNz u && v.zero) (u.div v)
  | 0x06 => (fMax x b, {})
  | 0x07 => (fMin x b, {})
  | 0x08 => op1 x false u.mag
  | 0x09 => op1 x false u.neg
  | 0x0A => op1 x u.zero (FVal.div (.fin false 1 0) u)
  | 0x0B => op1 x false u.sqrt
  | 0x0C => op1 x u.zero u.rsqrt
  | 0x0D => op1 x false u.exp
  | 0x0E => op1 x false u.exp2
  | 0x0F => op1 x u.zero u.ln
  | 0x10 => op1 x false u.tanh
  | 0x11 => op1 x false u.sigmoid
  | 0x12 => op1 x false u.softplus
  | 0x13 => (fMax x f32Zero, {})
  | 0x14 => if FVal.lt fzero u then (x, {}) else op2 x alpha ((val32 alpha).mul u)
  | 0x15 => (if u.isNan || v.isNan then nan32 else if v.zero then f32Zero else x, {})
  | 0x16 => (if v.lt u then f32One else f32Zero, {})
  | 0x17 => (if u.eqv v then f32One else f32Zero, {})
  | 0x18 => (fOfInt (col : Int), {})
  | 0x19 => (fOfInt (row : Int), {})
  | 0x20 | 0x21 | 0x22 | 0x23 | 0x24 => derivative op x b alpha
  | 0x25 => op2 x b (u.mul v)
  | 0x30 => sat32 (x.toInt + b.toInt)
  | 0x31 => sat32 (x.toInt - b.toInt)
  | 0x32 => sat32 (x.toInt * b.toInt)
  | 0x33 => sat32 (x.toInt * ((2 ^ n : Nat) : Int))
  | 0x34 => (x >>> n, {})
  | 0x35 => (x.sshiftRight n, {})
  | 0x36 => (x &&& b, {})
  | 0x37 => (x ||| b, {})
  | 0x38 => (x ^^^ b, {})
  | 0x39 => (~~~ x, {})
  | 0x3A => (fOfInt x.toInt, {})
  | _ => let (i, s, m) := fToInt 32 x
         (BitVec.ofInt 32 i, { sat := s, nv := m })

/-! ## Running the rows (spec/05 R129 to R140) -/

/-- The scalar value a pass read at acceptance (spec/05 R133). -/
def PassOp.sreg (o : PassOp) (r : Nat) : DWord := Tbl.get 0 o.scal r
def PassOp.sreg32 (o : PassOp) (r : Nat) : F32 := BitVec.truncate 32 (o.sreg r)
/-- Lane l of row i is enabled (spec/05 R138). -/
def PassOp.enabled (o : PassOp) (i l : Nat) : Bool :=
  match passMsrc o.w with
  | 1 => if l < 64 then (o.sreg 30).getLsbD l else (o.sreg 31).getLsbD (l - 64)
  | 2 => decide (((32 * o.n0 + l : Nat) : Int) ≤ ((32 * o.m0 + i : Nat) : Int) + (o.sreg32 29).toInt)
  | _ => true
/-- The second operand of stage k at row i, lane l (spec/05 Table 5-2, R134). -/
def PassOp.operand (o : PassOp) (k i l : Nat) : F32 :=
  let r := stageRef o.w k
  match stageBk o.w k with
  | 1 => ((Tbl.get [] o.ops k).getD i []).getD l 0
  | 2 => ((Tbl.get [] o.ops k).headD []).getD l 0
  | 3 => if r < 128 then o.sreg32 (r % 32) else Tbl.get 0 (if r % 2 = 0 then o.ra0 else o.ra1) i
  | _ => 0
/-- One stage on a lane: NF where a tensor operand it reads is not finite (spec/05 Table 5-4). -/
def PassOp.stage (o : PassOp) (i l : Nat) (a : F32 × Flg) (k : Nat) : F32 × Flg :=
  let b := o.operand k i l
  let (x, f) := stageRun (stageOp o.w k) a.1 b (o.sreg32 25) (32 * o.n0 + l) (32 * o.m0 + i)
  let g : Flg := { nf := (stageBk o.w k == 1 || stageBk o.w k == 2) && nonfinite32 b }
  (x, orFlg (orFlg a.2 f) g)
/-- A lane's value at the sink and its flags; none where it is masked (spec/05 R139, R140). -/
def PassOp.lane (o : PassOp) (i l : Nat) (x : F32) : Option F32 × Flg :=
  if !o.enabled i l then (none, {})
  else
    let (y, f) := stageNums.foldl (o.stage i l) (x, { nf := nonfinite32 x })
    (some y, { f with nf := f.nf || nonfinite32 y })
/-- The lanes of a row. -/
def PassOp.row (o : PassOp) (i : Nat) (src : List F32) : List (Option F32 × Flg) :=
  (List.range (32 * passNb o.w)).map (fun l => o.lane i l (src.getD l 0))

/-! ## Reductions (spec/05 R143 to R145) -/

/-- The identity of a reduction: +0 for SUM, SUMSQ and AMAX. -/
def redIdentity (rdop : Nat) : F32 := if rdop = 3 then 0xFF800000#32 else if rdop = 4 then 0x7F800000#32 else 0
/-- The leaf value of a lane; a masked or inactive lane takes the identity. -/
def redLeaf (rdop : Nat) (x : Option F32) : F32 :=
  match x with
  | none => redIdentity rdop
  | some y => if rdop = 2 then fMul y y else if rdop = 5 then f32Of (val32 y).mag else y
/-- The combine of a reduction. -/
def redCombine (rdop : Nat) (a b : F32) : F32 := if rdop = 1 || rdop = 2 then fAdd a b else if rdop = 4 then fMin a b else fMax a b
/-- One level of the tree: neighbours combine in pairs. -/
def treeLevel (rdop : Nat) : List F32 → List F32
  | a :: b :: r => redCombine rdop a b :: treeLevel rdop r
  | l => l
/-- Levels of the tree. -/
def treeUp (rdop : Nat) : Nat → List F32 → List F32
  | 0, l => l
  | n + 1, l => treeUp rdop n (treeLevel rdop l)
/-- The row result over 128 leaves. -/
def rowResult (rdop : Nat) (l : List (Option F32)) : F32 :=
  (treeUp rdop 7 ((List.range 128).map (fun i => redLeaf rdop (l.getD i none)))).headD 0

/-! ## Conversion sinks (spec/05 R146, R147, spec/04 R100, spec/02 R37 to R39) -/

/-- The scale bytes of a block of rows (spec/02 R35, R37). -/
def blockScales (fmt shape : Nat) (rows : List (List FVal)) : List Nat :=
  if shape = 0 then [mxScale fmt rows.flatten] else if shape = 1 then rows.map (mxScale fmt) else (transpose32 rows).map (mxScale fmt)
/-- The element codes of a block under its scales. -/
def blockCodes (fmt shape : Nat) (sc : List Nat) (draw : Nat → Nat → Option Nat) (rows : List (List FVal)) : List Nat :=
  (rows.mapIdx (fun r row => row.mapIdx (fun c v =>
    mxCode fmt (if shape = 0 then sc.headD 0 else sc.getD (if shape = 1 then r else c) 0) (draw r c) v))).flatten
/-- Two 4-bit codes to a byte, the first in the low half (spec/02 R34). -/
def pairCodes : List Nat → List Byte
  | a :: b :: r => BitVec.ofNat 8 (a + 16 * b) :: pairCodes r
  | [a] => [BitVec.ofNat 8 a]
  | [] => []
/-- The element bytes of codes. -/
def codeBytes (fmt : Nat) (l : List Nat) : List Byte := if fmt4 fmt then pairCodes l else l.map (fun c => BitVec.ofNat 8 c)
/-- The draws of a block under a tensor's id, or none for RNE (spec/02 R44 to R46). -/
def State.draws (s : State) (f : Nat) (d : Desc) (sr : Bool) (br bc r c : Nat) : Option Nat :=
  if !sr then none
  else match s.floePart f with
    | none => none
    | some p => some (srDraw (((s.part p).image.getD {}).seed) (s.part p).stepCount.toNat d.tid (d.index (32 * br + r) (32 * bc + c)))
/-- The occupancy bit of a written block, where the tensor has a plane (spec/04 R100). -/
def State.markOcc (s : State) (f : Nat) (d : Desc) (br bc : Nat) (v : Bool) : State := if d.occ then s.putOcc f d (d.blk br bc) v else s
/-- Write a finished block in MX or BF16; the second part says that a non-finite value was stored (spec/02 R39, R41). -/
def State.writeBlock (s : State) (f : Nat) (d : Desc) (sr : Bool) (br bc : Nat) (rows : List (List FVal)) : State × Bool :=
  let a := d.base + d.blk br bc * blockBytes d.fmt
  if d.fmt = 6 then
    let h := (rows.mapIdx (fun r row => row.mapIdx (fun c v => bf16Of (s.draws f d sr br bc r c) v))).flatten
    ((s.put f a (h.flatMap (fun x => leBytes 2 x.toNat))).markOcc f d br bc (h.any (fun x => x.toNat % 32768 != 0)),
     h.any (fun x => (valBf16 x).nonfinite))
  else
    let sc := blockScales d.fmt d.shape rows
    let codes := blockCodes d.fmt d.shape sc (fun r c => s.draws f d sr br bc r c) rows
    let bad := sc.contains 255
    (((s.put f a (codeBytes d.fmt codes)).put f (d.scaleAt br bc 0 0) (sc.map (fun x => BitVec.ofNat 8 x))).markOcc f d br bc
      (bad || codes.any (fun c => c != 0)), bad)
/-- Write 32 rows of BS16 blocks; whether one set SAT, whether one is poisoned (spec/05 R147). -/
def State.writeBsBlock (s : State) (f : Nat) (d : Desc) (br bc : Nat) (rows : List (List FVal)) : State × Bool × Bool :=
  let b := rows.map bsConvert
  let s1 := s.each (b.mapIdx (fun r x => (r, x))) (fun s e => s.put f (d.bsAt (32 * br + e.1) bc) e.2.bytes)
  (s1.markOcc f d br bc (b.any (fun x => x.pois || x.m.any (fun m => m != 0))), b.any (fun x => x.sat), b.any (fun x => x.pois))
/-- The 32 by 32 values of a block of a pass. -/
def passBlock (rows : List (List (Option F32))) (i j : Nat) : List (List FVal) :=
  ((rows.drop (32 * i)).take 32).map (fun r => ((r.drop (32 * j)).take 32).map (fun x => val32 (x.getD 0)))
/-- Write a pass's values into its destination: SAT raised, a non-finite value stored (spec/05 R146, R147). -/
def State.sink (s : State) (f : Nat) (o : PassOp) (rows : List (List (Option F32))) : State × Bool × Bool :=
  (blocksIn 0 0 (passMb o.w) (passNb o.w)).foldl (fun acc p =>
    let v := passBlock rows p.1 p.2
    if opOf o.w = 0x22 then
      let (s1, sat, pois) := acc.1.writeBsBlock f o.dDst (o.m0 + p.1) (o.n0 + p.2) v
      (s1, acc.2.1 || sat, acc.2.2 || pois)
    else
      let (s1, nf) := acc.1.writeBlock f o.dDst (passRnd o.w) (o.m0 + p.1) (o.n0 + p.2) v
      (s1, acc.2.1, acc.2.2 || nf)) (s, false, false)

/-! ## Acceptance (spec/05 R135, R148, R151, Table 5-8) -/

/-- The formats that sources and operands may have (spec/05 R132); a compressed 2:4 operand is none of them (notes/assumptions/28.md). -/
def passReadable (d : Desc) : Bool := 1 ≤ d.fmt && d.fmt ≤ 7 && !d.isMeta
/-- The formats a destination may have (spec/05 R146, R147). -/
def passWritable (op : Nat) (d : Desc) : Bool := !d.isMeta && (if op = 0x22 then d.fmt == 7 else 1 ≤ d.fmt && d.fmt ≤ 6)
/-- A stage's operand rule (spec/05 R135, Table 5-2, Table 5-6). -/
def stageOk (w : IWord) (alpha : F32) (k : Nat) : Bool :=
  let r := stageRef w k
  let bk := stageBk w k
  (unaryOp (stageOp w k) == (bk == 0)) && (bk != 0 || r == 0)
    && (bk != 3 || (if r < 128 then r < 32 else r % 128 < 2))
    && (stageOp w k != 0x21 || (let a := val32 alpha
                                !a.isNan && FVal.lt fzero a && !FVal.lt (.fin false 1 0) a))
/-- The rules of spec/05 R130 and R146 on RDOP and RND. -/
def sinkOk (w : IWord) : Bool :=
  if opOf w = 0x21 then passRdop w != 0 && !passRnd w else if opOf w = 0x22 then passRdop w == 0 && !passRnd w else true
/-- The source, destination and operand descriptors of a pass; none where one is invalid. -/
def State.passDescs (s : State) (f : Nat) (w : IWord) : Option (Option Desc × Option Desc × Tbl Desc) :=
  let src := if passQueue w then some none else (s.desc f (passSrc w)).map some
  let dst := if passIsRed w then some none else (s.desc f (passDst w)).map some
  let ops := (passOpTags w).map (fun e => (e.1, s.desc f e.2))
  match src, dst with
  | some a, some b => if ops.any (fun e => e.2.isNone) then none else some (a, b, ops.map (fun e => (e.1, e.2.getD {})))
  | _, _ => none
/-- The bytes that blocks of a rectangle and their occupancy bits take. -/
def Desc.writeRanges (d : Desc) (m0 n0 mb nb : Nat) : List (Nat × Nat) :=
  d.rectRanges m0 n0 mb nb ++ if d.occ then (blocksIn m0 n0 mb nb).map (fun b => (d.occBase + d.blk b.1 b.2 / 8, 1)) else []
/-- The geometry of a pass (spec/05 R129, R131, R148). -/
def passGeometryOk (w : IWord) (m0 n0 : Nat) (t : Option Tile) (a b : Option Desc) (ops : Tbl Desc) : Bool :=
  let mb := passMb w
  let nb := passNb w
  (match t with | some x => x.mb == mb && x.nb == nb | none => true)
    && (match a with | some d => d.contains m0 n0 mb nb | none => true)
    && (match b with | some d => d.contains m0 n0 mb nb | none => true)
    && ops.all (fun e => if stageBk w e.1 = 1 then e.2.contains m0 n0 mb nb else n0 + nb ≤ e.2.dim1b)
/-- Another tile than this is kept by the stream (spec/05 R126). -/
def Floe.keepsOther (x : Floe) (st : Stream) (tag : Nat) : Bool := x.tq.any (fun t => t.kept && t.owner == st && t.tag != tag)
/-- The bytes a pass reads: its source rectangle and its operands', or row 0 of an operand of BK 0b10 at the pass's block columns. Table 5-2 says "row 0, column l" for that one and not "at the pass's block coordinates"; that its columns begin at the pass's first block column is the model's reading, DESIGN CHOICE (notes/assumptions/110.md). -/
def passTouches (w : IWord) (m0 n0 : Nat) (src : Option Desc) (ops : Tbl Desc) : List (Nat × Nat) :=
  src.toList.flatMap (fun d => d.rectRanges m0 n0 (passMb w) (passNb w))
    ++ ops.flatMap (fun e => if stageBk w e.1 = 1 then e.2.rectRanges m0 n0 (passMb w) (passNb w) else e.2.rectRanges 0 n0 1 (passNb w))
/-- The lowest fault of a pass; none where it is accepted. -/
def State.passFault (s : State) (f : Nat) (st : Stream) (w : IWord) (m0 n0 : Nat) : Option Nat :=
  let x := s.floe f
  match s.passDescs f w with
  | none => some 0x03
  | some (a, b, ops) =>
    let t := if passQueue w then x.tile (passSrc w) else none
    let place := ((a.toList ++ b.toList) ++ ops.map (fun e => e.2)).all (fun d => d.inScratch f)
    let geo := passGeometryOk w m0 n0 t a b ops
    let acc := s.touchFault f (passTouches w m0 n0 a ops) (b.toList.flatMap (fun d => d.writeRanges m0 n0 (passMb w) (passNb w)))
    if acc.isSome then acc
    else if !stageNums.all (stageOk w ((x.stream st).reg32 25)) || !sinkOk w then some 0x20
    else if !(a.toList ++ ops.map (fun e => e.2)).all passReadable || !b.toList.all (passWritable (opOf w)) then some 0x21
    else if !geo then some 0x22
    else if !place then some 0x23
    else if t.any (fun y => y.owner != st) then some 0x24
    else if passQueue w && !passPop w && x.keepsOther st (passSrc w) then some 0x25
    else none
/-- The engine accepts a pass (spec/05 R133, R134, spec/06 R169, R177). -/
def State.passAccept (s : State) (f : Nat) (st : Stream) (w : IWord) (m0 n0 : Nat) (a b : Option Desc) (ops : Tbl Desc) : State :=
  let x := s.floe f
  let y := x.stream st
  let o : PassOp := { stream := st, w := w, m0 := m0, n0 := n0, dSrc := a.getD {}, dDst := b.getD {}, dOps := ops,
                      scal := (passRegs w).eraseDups.map (fun r => (r, y.reg r)), ra0 := y.ra0, ra1 := y.ra1,
                      readDone := (passReads w).isEmpty }
  let x1 := ({ x.take (passReads w) (passWrites w) with vu := .pass o })
  let x2 := if passQueue w then x1.mapTile (passSrc w) (fun t => { t with kept := !passPop w }) else x1
  let x3 := if passToScalar w then x2.setStream st ((x2.stream st).addPend (passReg w)) else x2
  (s.setFloe f x3).issue f st
/-- A pass at the head of its stream. -/
def State.passHead (s : State) (f : Nat) (st : Stream) (arb : Arb) (w : IWord) : State :=
  let y := s.stream f st
  let m0 := fld w 101 90 + if passUseS w then y.regLow 12 26 else 0
  let n0 := fld w 89 78 + if passUseS w then y.regLow 12 27 else 0
  if s.passWaits f st w then s
  else s.grant f 1 st arb (passReads w ++ passWrites w) (fun s => s.passFault f st w m0 n0) (fun s =>
    match s.passDescs f w with
    | none => s
    | some (a, b, ops) => s.passAccept f st w m0 n0 a b ops)

/-- VEC (spec/05 R128). -/
def execVec (f : Nat) (st : Stream) (arb : Arb) (s : State) : Host.Outcome State Fault Refusal :=
  .next (s.inCycle f st fun s => s.onHead f st (isIns 0x20) (fun w => s.passHead f st arb w))
/-- RED (spec/05 R128, R130). -/
def execRed (f : Nat) (st : Stream) (arb : Arb) (s : State) : Host.Outcome State Fault Refusal :=
  .next (s.inCycle f st fun s => s.onHead f st (isIns 0x21) (fun w => s.passHead f st arb w))
/-- CVT.BS16 (spec/05 R128, R147). -/
def execCvtBs16 (f : Nat) (st : Stream) (arb : Arb) (s : State) : Host.Outcome State Fault Refusal :=
  .next (s.inCycle f st fun s => s.onHead f st (isIns 0x22) (fun w => s.passHead f st arb w))

/-! ## Reading, releasing, completing -/

/-- Rows of a tensor under a pass, and the malformed BS16 blocks met (spec/05 R129, R132). -/
def State.tensorRows (s : State) (errs : Errs) (d : Desc) (m0 n0 nb : Nat) (rows : List Nat) : List (List F32) × Nat :=
  let l := rows.map (fun i => (List.range nb).map (fun j => s.rowVals errs d (m0 + i / 32) (n0 + j) (i % 32)))
  (l.map (fun r => r.flatMap (fun e => e.1)), l.foldl (fun n r => r.foldl (fun n e => n + e.2) n) 0)
/-- Malformed BS16 blocks count in the page's ERR_COUNT (spec/02 R50). -/
def State.countMalformed (s : State) (f n : Nat) : State := s.each (List.range n) (fun s _ => s.countErr (s.floePage f).1 (s.floePage f).2)
/-- The last row of a pass enters the chain: its tensors have been read and their readers end (spec/05 R149, spec/06 Table 6-10). -/
def State.passRead (s : State) (f : Nat) (errs : Errs) (o : PassOp) : State :=
  let mb := passMb o.w
  let nb := passNb o.w
  let all := List.range (32 * mb)
  let src := if passQueue o.w then ([], 0) else s.tensorRows errs o.dSrc o.m0 o.n0 nb all
  let ops := o.dOps.map (fun e => (e.1, if stageBk o.w e.1 = 1 then s.tensorRows errs e.2 o.m0 o.n0 nb all else s.tensorRows errs e.2 0 o.n0 nb [0]))
  let ranges := passTouches o.w o.m0 o.n0 (if passQueue o.w then none else some o.dSrc) o.dOps
  let s1 := (s.each ranges (fun s r => s.noteRange (some f) errs r.1 r.2)).countMalformed f (src.2 + ops.foldl (fun n e => n + e.2.2) 0)
  let x := s1.floe f
  let o1 := { o with readDone := true, src := if passQueue o.w then o.src else src.1.mapIdx (fun i r => (i, r)), ops := ops.map (fun e => (e.1, e.2.1)) }
  s1.setFloe f { x.endReaders (readersOf (passReads o.w) (passWrites o.w)) with vu := .pass o1 }
/-- Every row of a pass's queue tile has entered the queue. -/
def Floe.tileWhole (x : Floe) (w : IWord) : Bool :=
  !passQueue w || (x.tile (passSrc w)).any (fun t => t.entered == 32 * passMb w)

/-- TILE_ROW_RELEASE (spec/05 R125): the next row of a POP pass's tile leaves the chain; after the last the tag is free. -/
def execTileRowRelease (f : Nat) (s : State) : Host.Outcome State Fault Refusal :=
  let x := s.floe f
  match x.vu with
  | .idle | .cond _ | .upd _ => .next s
  | .pass o =>
    if !passQueue o.w || !passPop o.w then .next s
    else match x.tile (passSrc o.w) with
      | none => .next s
      | some t =>
        let i := t.released
        let last := i + 1 == 32 * t.mb
        if t.entered ≤ i || (last && !o.readDone) then .next s
        else
          let x1 := { x with vu := .pass { o with src := o.src.put i (Tbl.get [] t.rows i) } }
          .next (s.setFloe f (if last then ({ x1 with tq := x1.tq.filter (fun u => u.tag != t.tag) }).endWriters [t.tag]
                              else x1.mapTile t.tag (fun u => { u with released := i + 1 })))

/-- The rows a pass takes from its source: the released rows of a POP pass, the kept tile's, or the tensor's. -/
def Floe.passSource (x : Floe) (o : PassOp) : Tbl (List F32) :=
  if passQueue o.w && !passPop o.w then (match x.tile (passSrc o.w) with | some t => t.rows | none => []) else o.src
/-- A pass has all it needs to complete: its reads are done and its rows have left the chain. -/
def Floe.passReady (x : Floe) (o : PassOp) : Bool :=
  o.readDone && (if passQueue o.w then (if passPop o.w then o.src.length == 32 * passMb o.w else x.tileWhole o.w) else true)
/-- The row results of a pass into the accumulator it names (spec/05 R144). -/
def PassOp.accumulate (o : PassOp) (old : Tbl F32) (res : List F32) : Tbl F32 :=
  (res.mapIdx (fun i r => (i, r))).foldl (fun t e => t.put e.1 (if passRacc o.w then redCombine (passRdop o.w) (Tbl.get 0 old e.1) e.2 else e.2)) old
/-- The reduction of a completed pass: its accumulator, or its scalar register (spec/05 R144, R145). -/
def PassOp.reduce (o : PassOp) (y : StreamSt) (res : List F32) : StreamSt :=
  if passRdop o.w = 0 then y
  else if passToScalar o.w then
    let r0 := if passRacc o.w then o.sreg32 (passReg o.w) else redIdentity (passRdop o.w)
    (y.setReg (passReg o.w) (ext32 (res.foldl (redCombine (passRdop o.w)) r0))).endPend (passReg o.w)
  else if passRa o.w = 0 then { y with ra0 := o.accumulate y.ra0 res } else { y with ra1 := o.accumulate y.ra1 res }
/-- A pass completes (spec/05 R140, R141, R149, Table 5-9): values stored, reduction delivered, flags ORed, counters advanced, the writer ended. -/
def State.passComplete (s : State) (f : Nat) (o : PassOp) : State :=
  let n := 32 * passMb o.w
  let src := (s.floe f).passSource o
  let lanes := (List.range n).map (fun i => o.row i (Tbl.get [] src i))
  let vals := lanes.map (fun r => r.map (fun e => e.1))
  let fl := lanes.foldl (fun a r => r.foldl (fun a e => orFlg a e.2) a) {}
  let (s1, sat, stored) := if passIsRed o.w then (s, false, false) else s.sink f o vals
  let g : Flg := { fl with sat := fl.sat || sat }
  let x := s1.floe f
  let y := o.reduce (x.stream o.stream) (vals.map (rowResult (passRdop o.w)))
  let x1 := { (x.setStream o.stream y).endWriters (passWrites o.w) with
                vu := .idle, vflags := orVflags x.vflags o.stream g, vecCount := bump x.vecCount,
                vecBusy := x.vecBusy + BitVec.ofNat 64 ((n - 1) * passCycles o.w + 12),
                vecNf := if g.nf then bump x.vecNf else x.vecNf, vecSat := if g.sat then bump x.vecSat else x.vecSat }
  let s2 := s1.setFloe f x1
  if !passIsRed o.w && (g.nf || stored) then s2.recordNf f else s2

/-- VEC_PASS_COMPLETE (spec/05 R149). -/
def execVecPassComplete (f : Nat) (s : State) : Host.Outcome State Fault Refusal :=
  let x := s.floe f
  match x.vu with
  | .idle | .cond _ | .upd _ => .next s
  | .pass o => if x.passReady o then .next (s.passComplete f o) else .next s

end Sys2Proof.Machine
end

