-- ==== Sys2Proof/Machine/Cond.lean ====
section
/-! DEFINITION. GATE.TOPK and PACK.CAP: route records, pack tables, gathering and combining (spec/04 R105 to R121). -/

namespace Sys2Proof.Machine

/-! ## The words (spec/04 Tables 4-2 and 4-4) -/

/-- Fields of GATE.TOPK: experts, choices, NORM, tokens. -/
def gateE (w : IWord) : Nat := fld w 103 96 + 1
def gateK (w : IWord) : Nat := fld w 95 93 + 1
def gateNorm (w : IWord) : Nat := fld w 92 91
def gateN (w : IWord) : Nat := fld w 74 67 + 1
def packInit (w : IWord) : Bool := flag w 117
def packJ (w : IWord) : Nat := fld w 116 114
def packE (w : IWord) : Nat := fld w 81 74 + 1
def packC (w : IWord) : Nat := 32 * (fld w 73 64 + 1)
def packN (w : IWord) : Nat := fld w 47 40 + 1
def packGw (w : IWord) : Bool := flag w 39
def packSr (w : IWord) : Bool := flag w 38
/-- The first index after the scalar offset. -/
def condFirst (y : StreamSt) (w : IWord) : Nat :=
  (if opOf w = 0x38 then fld w 90 75 else fld w 63 48) + (match condReg w with | r :: _ => y.regLow 16 r | [] => 0)

/-! ## Records and tables (spec/04 Tables 4-3 and 4-5) -/

/-- The address of the route record of token t. -/
def recAt (d : Desc) (t : Nat) : Nat := d.base + 64 * t
/-- The address of the pack-table word of expert e, and of the slot entry of dispatch row r. -/
def fillAt (d : Desc) (e : Nat) : Nat := d.base + 4 * e
def slotAt (d : Desc) (r : Nat) : Nat := d.base + 1024 + 4 * r
/-- The bytes of a route record. -/
def State.routeRec (s : State) (errs : Errs) (d : Desc) (t : Nat) : List Byte := s.fill errs (recAt d t) 64
/-- EXPERT_j, GATE_j, SLOT_j, K and the DROP bit j of a record. -/
def recExpert (l : List Byte) (j : Nat) : Nat := leAt l j 1
def recGate (l : List Byte) (j : Nat) : F32 := f32Of (valBf16 (BitVec.ofNat 16 (leAt l (8 + 2 * j) 2)))
def recSlot (l : List Byte) (j : Nat) : Nat := leAt l (24 + 2 * j) 2
def recK (l : List Byte) : Nat := leAt l 40 1
def recDrop (l : List Byte) (j : Nat) : Bool := (leAt l 41 1).testBit j
/-- A record's experts and K are in range (spec/04 Table 4-6). -/
def recOk (e : Nat) (l : List Byte) : Bool :=
  (List.range 8).all (fun j => recExpert l j < e || recExpert l j == 255) && 1 ≤ recK l && recK l ≤ 8
/-- A record is ready for ASSIGN of rank j. -/
def recFresh (j : Nat) (l : List Byte) : Bool := recSlot l j == 0xFFFF && !recDrop l j
/-- The slot entry of a dispatch row. -/
def State.slotOf (s : State) (errs : Errs) (d : Desc) (r : Nat) : Nat := leAt (s.fill errs (slotAt d r) 4) 0 4
/-- Token and rank of a slot entry; none where it is empty. -/
def slotTok (v : Nat) : Option (Nat × Nat) := if v = 0xFFFFFFFF then none else some (v % 2 ^ 24, bitsOf v 24 3)
/-- A row of a tensor in FP32. -/
def State.tensorRow (s : State) (errs : Errs) (d : Desc) (r : Nat) : List F32 :=
  (List.range d.dim1b).flatMap (fun bc => (s.rowVals errs d (r / 32) bc (r % 32)).1)
/-- The bytes of a row of a tensor: elements and scales. -/
def Desc.rowRanges (d : Desc) (r : Nat) : List (Nat × Nat) :=
  (List.range d.dim1b).flatMap (fun bc => [d.rowAt (r / 32) bc (r % 32), (d.scaleAt (r / 32) bc (r % 32) 0, d.scaleUnit)].filter (fun p => p.2 != 0))

/-! ## GATE.TOPK (spec/04 R106 to R110) -/

/-- A logit ranks above another (spec/04 R107): a NaN ranks below everything. -/
def ranksAbove (a b : F32) : Bool := !(val32 a).isNan && ((val32 b).isNan || (val32 b).lt (val32 a))
/-- The best expert that is not yet chosen. -/
def bestExpert (l : List F32) (chosen : List Nat) : Nat :=
  let c := (List.range l.length).filter (fun e => !chosen.contains e)
  c.foldl (fun m e => if ranksAbove (l.getD e 0) (l.getD m 0) then e else m) (c.headD 0)
/-- The k experts in order of choice. -/
def topExperts (l : List F32) : Nat → List Nat
  | 0 => []
  | k + 1 => let c := topExperts l k; c ++ [bestExpert l c]
/-- The largest of some logits. -/
def largest (l : List F32) : F32 := l.foldl (fun m x => if ranksAbove x m then x else m) (l.headD 0)
/-- EXP (l - mu) in FP32. -/
def expDiff (mu x : F32) : F32 := f32Of (val32 (fSub x mu)).exp
/-- A token's gate values in BF16 and whether it is non-finite (spec/04 R108, R109). -/
def gateValues (norm : Nat) (l : List F32) (chosen : List Nat) : List Half × Bool :=
  let sel := chosen.map (fun e => l.getD e 0)
  let bad := l.any (fun x => (val32 x).isNan || x == 0x7F800000#32)
  if norm = 0 then (sel.map (fun x => bf16Of none (val32 x)), bad || sel.any (fun x => x == 0xFF800000#32))
  else
    let pool := if norm = 1 then l else sel
    let mu := largest pool
    let sum := pool.foldl (fun a x => fAdd a (expDiff mu x)) 0
    (sel.map (fun x => bf16Of none (val32 (fDiv (expDiff mu x) sum))), bad || (val32 sum).zero || nonfinite32 sum)
/-- The 64 bytes of a new route record (spec/04 Table 4-3). -/
def routeRecord (chosen : List Nat) (gates : List Half) (nf : Bool) : List Byte :=
  (List.range 8).map (fun j => BitVec.ofNat 8 (chosen.getD j 255))
    ++ (List.range 8).flatMap (fun j => leBytes 2 (if j < chosen.length then (if nf then 0x7FC0 else (gates.getD j 0).toNat) else 0))
    ++ List.replicate 16 (255 : Byte) ++ [BitVec.ofNat 8 chosen.length, 0, if nf then 1 else 0] ++ zeros 21
/-- The logits of a token: its E candidates. -/
def State.logits (s : State) (errs : Errs) (d : Desc) (e t : Nat) : List F32 := (s.tensorRow errs d t).take e
/-- The record of a token and whether it is non-finite. -/
def State.gateToken (s : State) (errs : Errs) (o : CondOp) (t : Nat) : List Byte × Bool :=
  let l := s.logits errs o.dA (gateE o.w) t
  let c := topExperts l (gateK o.w)
  let (g, nf) := gateValues (gateNorm o.w) l c
  (routeRecord c g nf, nf)
/-- The tokens of a GATE.TOPK. -/
def CondOp.tokens (o : CondOp) (n : Nat) : List Nat := (List.range n).map (fun i => o.first + i)
/-- GATE.TOPK completes: records written, tokens counted, non-finite ones recorded (spec/04 R109, R110, Table 4-11). -/
def State.gateRun (s : State) (f : Nat) (errs : Errs) (o : CondOp) : State :=
  let n := gateN o.w
  let recs := (o.tokens n).map (fun t => s.gateToken errs o t)
  let s1 := s.each ((o.tokens n).flatMap (fun t => o.dA.rowRanges t)) (fun s r => s.noteRange (some f) errs r.1 r.2)
  let s2 := s1.put f (recAt o.dB o.first) (recs.flatMap (fun r => r.1))
  let k := (recs.filter (fun r => r.2)).length
  let x := s2.floe f
  let s3 := s2.setFloe f { x with gateTokens := x.gateTokens + BitVec.ofNat 64 n, gateNonfinite := x.gateNonfinite + BitVec.ofNat 64 k }
  if k = 0 then s3 else s3.recordNf f

/-! ## PACK.CAP (spec/04 R113 to R116) -/

/-- What ASSIGN works on: FILL and DROPS by expert, the records touched, the slot entries, choices assigned and dropped. -/
structure AssignSt where
  fill  : Tbl (Nat × Nat) := []
  recs  : List (Nat × List Byte) := []
  slots : List (Nat × Nat) := []
  given : Nat := 0
  drops : Nat := 0
  deriving DecidableEq, Repr

/-- FILL and DROPS of an expert: as ASSIGN has left them, or as the table holds them. -/
def State.fillOf (s : State) (errs : Errs) (o : CondOp) (a : AssignSt) (e : Nat) : Nat × Nat :=
  match Tbl.find a.fill e with
  | some p => p
  | none => if packInit o.w then (let l := s.fill errs (fillAt o.dB e) 4; (leAt l 0 2, leAt l 2 2)) else (0, 0)
/-- ASSIGN of one token (spec/04 R113). -/
def State.assignToken (s : State) (errs : Errs) (o : CondOp) (a : AssignSt) (t : Nat) : AssignSt :=
  let l := s.routeRec errs o.dA t
  let j := packJ o.w
  let e := recExpert l j
  if e = 255 then a
  else
    let (n, d) := s.fillOf errs o a e
    if n < packC o.w then
      { a with fill := a.fill.put e (n + 1, d), recs := (recAt o.dA t + 24 + 2 * j, leBytes 2 n) :: a.recs,
               slots := (slotAt o.dB (e * packC o.w + n), t + j * 2 ^ 24) :: a.slots, given := a.given + 1 }
    else
      { a with fill := a.fill.put e (n, min (d + 1) 65535), recs := (recAt o.dA t + 41, [setBit (BitVec.ofNat 8 (leAt l 41 1)) j true]) :: a.recs,
               drops := a.drops + 1 }
/-- ASSIGN over its tokens. -/
def State.assign (s : State) (errs : Errs) (o : CondOp) : AssignSt := (o.tokens (packN o.w)).foldl (fun a t => s.assignToken errs o a t) {}
/-- The bytes ASSIGN writes: (address, bytes), in order. -/
def assignWrites (o : CondOp) (a : AssignSt) : List (Nat × List Byte) :=
  (if packInit o.w then [] else [(fillAt o.dB 0, zeros (4 * packE o.w)), (slotAt o.dB 0, List.replicate (4 * packE o.w * packC o.w) 255)])
    ++ a.fill.map (fun e => (fillAt o.dB e.1, leBytes 2 e.2.1 ++ leBytes 2 e.2.2))
    ++ a.slots.reverse.map (fun e => (e.1, leBytes 4 e.2)) ++ a.recs.reverse
/-- PACK.CAP ASSIGN completes. -/
def State.assignRun (s : State) (f : Nat) (errs : Errs) (o : CondOp) : State :=
  let a := s.assign errs o
  let s1 := s.noteRange (some f) errs (recAt o.dA o.first) (64 * packN o.w)
  let s2 := s1.each (assignWrites o a) (fun s e => s.put f e.1 e.2)
  let x := s2.floe f
  s2.setFloe f { x with packAssigned := x.packAssigned + BitVec.ofNat 64 a.given, packDropped := x.packDropped + BitVec.ofNat 64 a.drops }

/-- The weight of a choice: its gate value, or 1.0. -/
def State.weightOf (s : State) (errs : Errs) (o : CondOp) (t j : Nat) : F32 := if packGw o.w then recGate (s.routeRec errs o.dA t) j else f32One
/-- A row of a tensor, each element exactly decoded (spec/04 R114). -/
def State.exactTensorRow (s : State) (errs : Errs) (d : Desc) (r : Nat) : List FVal :=
  (List.range d.dim1b).flatMap (fun bc => s.exactRow errs d (r / 32) bc (r % 32))
/-- RNE_FP32 (w times x) of an exactly decoded x (spec/04 R114). -/
def weighted (w : F32) (x : FVal) : F32 := f32Of ((val32 w).mul x)
/-- A row of the dispatch buffer (spec/04 R114). -/
def State.gatherRow (s : State) (errs : Errs) (o : CondOp) (r : Nat) : List F32 :=
  match slotTok (s.slotOf errs o.dB r) with
  | none => List.replicate (32 * o.dDst.dim1b) 0
  | some (t, j) => let w := s.weightOf errs o t j
                   (s.exactTensorRow errs o.dSrc t).map (weighted w)
/-- The choices of a token that contribute to COMBINE: rank and expert-result row (spec/04 R115). -/
def State.combineRows (s : State) (errs : Errs) (o : CondOp) (t : Nat) : List (Nat × Nat) :=
  let l := s.routeRec errs o.dA t
  ((List.range (min (recK l) 8)).filter (fun j => recExpert l j != 255 && !recDrop l j)).map (fun j => (j, recExpert l j * packC o.w + recSlot l j))
/-- A running sum of COMBINE takes a contribution; an exact zero leaves it (spec/04 R115). -/
def addContribution (a c : F32) : F32 := if (val32 c).zero then a else fAdd a c
/-- A row of the token-order output (spec/04 R115). An element of the expert-result buffer enters its product exactly decoded, as R114 says of GATHER's; R115 does not say whether one above the FP32 range enters as its value or as an infinity: DESIGN CHOICE (notes/assumptions/111.md). -/
def State.combineRow (s : State) (errs : Errs) (o : CondOp) (t : Nat) : List F32 :=
  (s.combineRows errs o t).foldl (fun acc p =>
    let w := s.weightOf errs o t p.1
    List.zipWith (fun a x => addContribution a (weighted w x)) acc (s.exactTensorRow errs o.dSrc p.2)) (List.replicate (32 * o.dDst.dim1b) 0)
/-- The block rows a data mode writes. -/
def CondOp.blockRows (o : CondOp) : List Nat :=
  if packMode o.w = 1 then o.tokens (packN o.w) else (List.range (packN o.w / 32)).map (fun i => o.first / 32 + i)
/-- The bytes a data mode reads. -/
def State.packRanges (s : State) (o : CondOp) : List (Nat × Nat) :=
  o.blockRows.flatMap (fun q => (List.range 32).flatMap (fun r =>
    let i := 32 * q + r
    if packMode o.w = 1 then
      (slotAt o.dB i, 4) :: (match slotTok (s.slotOf [] o.dB i) with
        | none => []
        | some (t, _) => (if packGw o.w then [(recAt o.dA t, 64)] else []) ++ o.dSrc.rowRanges t)
    else (recAt o.dA i, 64) :: (s.combineRows [] o i).flatMap (fun p => o.dSrc.rowRanges p.2)))
/-- GATHER or COMBINE completes: blocks written, non-finite ones recorded (spec/04 R114 to R116). -/
def State.packRun (s : State) (f : Nat) (errs : Errs) (o : CondOp) : State :=
  let rows := o.blockRows.map (fun q => (q, (List.range 32).map (fun r =>
    ((if packMode o.w = 1 then s.gatherRow errs o (32 * q + r) else s.combineRow errs o (32 * q + r))).map val32)))
  let s1 := s.each (s.packRanges o) (fun s r => s.noteRange (some f) errs r.1 r.2)
  let (s2, nf) := rows.foldl (fun acc e => (List.range o.dDst.dim1b).foldl (fun acc bc =>
    let (t, b) := State.writeBlock acc.1 f o.dDst (packSr o.w) e.1 bc (e.2.map (fun l => (l.drop (32 * bc)).take 32))
    (t, acc.2 || b)) acc) (s1, false)
  if nf then s2.recordNf f else s2

/-! ## Acceptance (spec/04 R117, Table 4-6) -/

/-- An accepted instruction with its descriptors; none where one is invalid. Logits or records first, then records or table, source, destination. -/
def State.condOp (s : State) (f : Nat) (st : Stream) (w : IWord) : Option CondOp :=
  let y := s.stream f st
  let mk := fun (a b : Desc) => ({ stream := st, w := w, first := condFirst y w, dA := a, dB := b } : CondOp)
  if opOf w = 0x38 then
    match s.desc f (fld w 119 112), s.desc f (fld w 111 104) with
    | some a, some b => some (mk a b)
    | _, _ => none
  else
    match s.desc f (fld w 113 106), s.desc f (fld w 105 98) with
    | some a, some b =>
      if packMode w = 0 then some (mk a b)
      else match s.desc f (fld w 97 90), s.desc f (fld w 89 82) with
        | some c, some d => some { mk a b with dSrc := c, dDst := d }
        | _, _ => none
    | _, _ => none
/-- The descriptors an instruction names. -/
def CondOp.descs (o : CondOp) : List Desc := if opOf o.w = 0x38 || packMode o.w = 0 then [o.dA, o.dB] else [o.dA, o.dB, o.dSrc, o.dDst]
/-- The geometry of GATE.TOPK (spec/04 R106, Table 4-6). A BF16 logits tensor whose META bit is 1 is not refused and is read as a dense tensor: R106 and Table 4-6 say nothing of META, DESIGN CHOICE (notes/assumptions/28.md). -/
def gateGeometryOk (o : CondOp) : Bool :=
  let e := gateE o.w
  gateK o.w ≤ e && o.dA.fmt == 6 && o.dA.dim1b == (e + 31) / 32 && o.first + gateN o.w ≤ 32 * o.dA.dim0b && 64 * (o.first + gateN o.w) ≤ o.dB.elemBytes
/-- The geometry of PACK.CAP that its fields and descriptors show (spec/04 R115, R116, Table 4-6). -/
def packGeometryOk (o : CondOp) : Bool :=
  let last := o.first + packN o.w
  let table := 1024 + 4 * packE o.w * packC o.w ≤ o.dB.elemBytes
  let same := o.dSrc.dim1b == o.dDst.dim1b
  match packMode o.w with
  | 0 => 64 * last ≤ o.dA.elemBytes && table
  | 1 => last ≤ o.dDst.dim0b && 32 * last ≤ packE o.w * packC o.w && table && same
  | _ => o.first % 32 == 0 && packN o.w % 32 == 0 && last ≤ 32 * o.dDst.dim0b && 64 * last ≤ o.dA.elemBytes && same
/-- The rows that the entries and the well-formed records lead to lie inside their tensors (spec/04 Table 4-6). -/
def State.packRowsOk (s : State) (o : CondOp) : Bool :=
  match packMode o.w with
  | 0 => true
  | 1 => !packGw o.w || o.blockRows.all (fun q => (List.range 32).all (fun r =>
      match slotTok (s.slotOf [] o.dB (32 * q + r)) with
      | none => true
      | some (t, _) => 64 * (t + 1) ≤ o.dA.elemBytes))
  | _ => (o.tokens (packN o.w)).all (fun t =>
      !recOk (packE o.w) (s.routeRec [] o.dA t) || (s.combineRows [] o t).all (fun p => p.2 < 32 * o.dSrc.dim0b))
/-- A data tensor of PACK.CAP (spec/04 R116). -/
def packTensorOk (d : Desc) : Bool := fmt8 d.fmt && d.shape ≤ 1 && !d.isMeta
/-- The formats of PACK.CAP (spec/04 R116). -/
def packFormatOk (o : CondOp) : Bool :=
  let buf := if packMode o.w = 1 then o.dDst else o.dSrc
  packMode o.w == 0 || (packTensorOk o.dSrc && packTensorOk o.dDst && 32 * buf.dim0b == packE o.w * packC o.w)
/-- The records and entries of PACK.CAP (spec/04 Table 4-6). -/
def State.packRecordsOk (s : State) (o : CondOp) : Bool :=
  let e := packE o.w
  match packMode o.w with
  | 0 => (o.tokens (packN o.w)).all (fun t => let l := s.routeRec [] o.dA t; recOk e l && recFresh (packJ o.w) l)
  | 1 => o.blockRows.all (fun q => (List.range 32).all (fun r =>
      match slotTok (s.slotOf [] o.dB (32 * q + r)) with
      | none => true
      | some (t, _) => t < 32 * o.dSrc.dim0b && (!packGw o.w || recOk e (s.routeRec [] o.dA t))))
  | _ => (o.tokens (packN o.w)).all (fun t => recOk e (s.routeRec [] o.dA t))
/-- The bytes a conditional instruction writes. -/
def State.condRanges (s : State) (o : CondOp) : List (Nat × Nat) :=
  if opOf o.w = 0x38 then [(recAt o.dB o.first, 64 * gateN o.w)]
  else if packMode o.w = 0 then (assignWrites o (s.assign [] o)).map (fun e => (e.1, e.2.length))
  else o.blockRows.flatMap (fun q => o.dDst.writeRanges q 0 1 o.dDst.dim1b)
/-- The lowest fault of GATE.TOPK or PACK.CAP; none where it is accepted. -/
def State.condFault (s : State) (f : Nat) (st : Stream) (w : IWord) : Option Nat :=
  match s.condOp f st w with
  | none => some 0x03
  | some o =>
    let place := o.descs.all (fun d => d.inScratch f)
    let geo := if opOf w = 0x38 then gateGeometryOk o else packGeometryOk o
    let acc := s.touchFault f (o.descs.flatMap (fun d => d.planes)) (s.condRanges o)
    if acc.isSome then acc
    else if opOf w = 0x38 then (if !geo then some 0x38 else if !place then some 0x3C else none)
    else if !geo || !s.packRowsOk o then some 0x39
    else if !packFormatOk o then some 0x3A
    else if !s.packRecordsOk o then some 0x3B
    else if !place then some 0x3C
    else none
/-- GATE.TOPK or PACK.CAP at the head of its stream. -/
def State.condHead (s : State) (f : Nat) (st : Stream) (arb : Arb) (w : IWord) : State :=
  if s.condWaits f st w then s
  else s.grant f 1 st arb (condReads w ++ condWrites w) (fun s => s.condFault f st w) (fun s =>
    match s.condOp f st w with
    | none => s
    | some o => (s.setFloe f { (s.floe f).take (condReads w) (condWrites w) with vu := .cond o }).issue f st)

/-- A PACK.CAP of a mode. -/
def isPack (mode : Nat) (w : IWord) : Bool := opOf w == 0x39 && packMode w == mode
/-- GATE.TOPK (spec/04 R105). -/
def execGateTopk (f : Nat) (st : Stream) (arb : Arb) (s : State) : Host.Outcome State Fault Refusal :=
  .next (s.inCycle f st fun s => s.onHead f st (isIns 0x38) (fun w => s.condHead f st arb w))
/-- PACK.CAP ASSIGN (spec/04 R113). -/
def execPackAssign (f : Nat) (st : Stream) (arb : Arb) (s : State) : Host.Outcome State Fault Refusal :=
  .next (s.inCycle f st fun s => s.onHead f st (isPack 0) (fun w => s.condHead f st arb w))
/-- PACK.CAP GATHER (spec/04 R114). -/
def execPackGather (f : Nat) (st : Stream) (arb : Arb) (s : State) : Host.Outcome State Fault Refusal :=
  .next (s.inCycle f st fun s => s.onHead f st (isPack 1) (fun w => s.condHead f st arb w))
/-- PACK.CAP COMBINE (spec/04 R115). -/
def execPackCombine (f : Nat) (st : Stream) (arb : Arb) (s : State) : Host.Outcome State Fault Refusal :=
  .next (s.inCycle f st fun s => s.onHead f st (isPack 2) (fun w => s.condHead f st arb w))

/-- What GATE.TOPK or PACK.CAP writes. -/
def State.condRun (s : State) (f : Nat) (errs : Errs) (o : CondOp) : State :=
  if opOf o.w = 0x38 then s.gateRun f errs o else if packMode o.w = 0 then s.assignRun f errs o else s.packRun f errs o
/-- GATE_PACK_COMPLETE (spec/04 R118, spec/06 Table 6-10): outputs written, readers and writers ended. -/
def execGatePackComplete (f : Nat) (errs : Errs) (s : State) : Host.Outcome State Fault Refusal :=
  match (s.floe f).vu with
  | .idle | .pass _ | .upd _ => .next s
  | .cond o =>
    let s1 := s.condRun f errs o
    .next (s1.setFloe f { ((s1.floe f).endReaders (readersOf (condReads o.w) (condWrites o.w))).endWriters (condWrites o.w) with vu := .idle })

end Sys2Proof.Machine
end

