-- ==== Sys2Proof/Machine/Xfer.lean ====
section
/-! DEFINITION. XFER: block copies between tensors of one format through the transfer engine (spec/06 R184 to R186). -/

namespace Sys2Proof.Machine

/-- The block rows and columns of an XFER. -/
def xferBr (w : IWord) : Nat := fld w 39 24 + 1
def xferBc (w : IWord) : Nat := fld w 23 8 + 1
/-- The source and destination blocks of an XFER, row-major. -/
def xferBlocks (w : IWord) : List ((Nat × Nat) × (Nat × Nat)) :=
  (blocksIn 0 0 (xferBr w) (xferBc w)).map (fun b => ((fld w 103 88 + b.1, fld w 87 72 + b.2), (fld w 71 56 + b.1, fld w 55 40 + b.2)))
/-- The storage block of a block, whose occupancy bit it has. -/
def Desc.occIndex (d : Desc) (br bc : Nat) : Nat := if d.isMeta then br * (d.dim1b / 2) + bc / 2 else d.blk br bc
/-- The bytes read, and those written without and with the occupancy bits. -/
def xferReads (w : IWord) (a : Desc) : List (Nat × Nat) := (xferBlocks w).flatMap (fun b => a.blockRanges b.1.1 b.1.2)
def xferData (w : IWord) (b : Desc) : List (Nat × Nat) := (xferBlocks w).flatMap (fun p => b.blockRanges p.2.1 p.2.2)
def xferOcc (d : Desc) (l : List (Nat × Nat)) : List (Nat × Nat) := if d.occ then l.map (fun b => (d.occBase + d.occIndex b.1 b.2 / 8, 1)) else []
/-- Both block ranges lie inside their tensors (spec/06 R185). -/
def xferInside (w : IWord) (a b : Desc) : Bool :=
  a.contains (fld w 103 88) (fld w 87 72) (xferBr w) (xferBc w) && b.contains (fld w 71 56) (fld w 55 40) (xferBr w) (xferBc w)
/-- The source and destination bytes of an XFER overlap: elements, scales and metadata of one with any byte of the other, or one occupancy bit with itself (spec/06 R185; notes/assumptions/112.md). -/
def xferOverlaps (w : IWord) (a b : Desc) : Bool :=
  let bits := fun (d : Desc) (l : List (Nat × Nat)) => if d.occ then l.map (fun e => 8 * d.occBase + d.occIndex e.1 e.2) else []
  let src := (xferBlocks w).map (fun p => p.1)
  let dst := (xferBlocks w).map (fun p => p.2)
  rangesMeet (xferReads w a) (xferData w b ++ xferOcc b dst) || rangesMeet (xferOcc a src) (xferData w b)
    || (bits a src).any (fun i => (bits b dst).contains i)
/-- The lowest fault of an XFER; none where it is accepted. -/
def State.xferFault (s : State) (f : Nat) (w : IWord) : Option Nat :=
  match s.desc f (xferSrc w), s.desc f (xferDst w) with
  | some a, some b =>
    let dst := xferData w b ++ xferOcc b ((xferBlocks w).map (fun p => p.2))
    let src := xferReads w a ++ xferOcc a ((xferBlocks w).map (fun p => p.1))
    let odd := (a.isMeta && b.isMeta) && (fld w 87 72 % 2 != 0 || fld w 55 40 % 2 != 0 || xferBc w % 2 != 0)
    let acc := s.touchFault f src dst
    if acc.isSome then acc
    else if !xferInside w a b || odd || xferOverlaps w a b then some 0x28
    else if a.fmt != b.fmt || a.shape != b.shape || a.occ != b.occ || a.isMeta != b.isMeta then some 0x29
    else none
  | _, _ => some 0x03

/-- XFER (spec/06 R185): at most four in flight (R159). -/
def execXfer (f : Nat) (st : Stream) (arb : Arb) (s : State) : Host.Outcome State Fault Refusal :=
  .next (s.inCycle f st fun s => s.onHead f st (isIns 0x18) (fun w =>
    if s.xferWaits f w then s
    else s.grant f 2 st arb [xferSrc w, xferDst w] (fun s => s.xferFault f w) (fun s =>
      let x := s.floe f
      let o : XferOp := { stream := st, w := w, dSrc := (s.desc f (xferSrc w)).getD {}, dDst := (s.desc f (xferDst w)).getD {} }
      (s.setFloe f { x.take [xferSrc w] [xferDst w] with xfers := x.xfers ++ [o] }).issue f st)))

/-- The bytes an XFER copies: (destination, bytes). -/
def State.xferBytes (s : State) (errs : Errs) (o : XferOp) : List (Nat × List Byte) :=
  List.zipWith (fun a b => (b.1, s.fillEnded o.ended errs a.1 a.2)) (xferReads o.w o.dSrc) (xferData o.w o.dDst)
/-- The occupancy bits it copies: (destination block, bit). -/
def State.xferOccBits (s : State) (o : XferOp) : List (Nat × Bool) :=
  if o.dSrc.occ then (xferBlocks o.w).map (fun p => (o.dDst.occIndex p.2.1 p.2.2, s.occBit o.dSrc (o.dSrc.occIndex p.1.1 p.1.2))) else []
/-- The last byte of an XFER has been read: its reader ends (spec/06 Table 6-10). -/
def State.xferRead (s : State) (f : Nat) (errs : Errs) (o : XferOp) : State × XferOp :=
  let o1 := { o with readDone := true, data := s.xferBytes errs o, occBits := s.xferOccBits o }
  let s1 := s.each (xferReads o.w o.dSrc) (fun s r => s.noteEnded (some f) o.ended errs r.1 r.2)
  (s1.setFloe f ((s1.floe f).endReaders (readersOf [xferSrc o.w] [xferDst o.w])), o1)

/-- XFER_COMPLETE (spec/06 R186, Table 6-10): the blocks are written in ascending order and the writer ends. -/
def execXferComplete (f tagDst : Nat) (errs : Errs) (s : State) : Host.Outcome State Fault Refusal :=
  let x := s.floe f
  match takeFirst (fun o => xferDst o.w == tagDst && o.readDone) x.xfers with
  | none => .next s
  | some (o, r) =>
    if s.planesHeld o.dDst then .next s else
    let s1 := s.each o.data (fun s e => s.writeEnded (some f) o.ended errs e.1 e.2)
    let s2 := s1.each o.occBits (fun s e => s.putOcc f o.dDst e.1 e.2)
    .next (s2.setFloe f { (s2.floe f).endWriters [tagDst] with xfers := r })

end Sys2Proof.Machine
end

