-- ==== Sys2Proof/Machine/Stash.lean ====
section
/-! DEFINITION. The moraine stash: stacks, tiers, pushes and pops, entries lost with their storage, and the unit that releases its readers (spec/07 R194 to R208). -/

namespace Sys2Proof.Machine

/-! ## Words and stacks (spec/07 R194, R202) -/

def stashEid (w : IWord) : Nat := fld w 100 85
def stashRoff (w : IWord) : Int := sfld32 w 53
/-- Replace a stack. -/
def Floe.setStack (x : Floe) (k : Nat) (l : List StashEntry) : Floe := { x with stashed := x.stashed.put k l }

/-! ## Tiers and placement (spec/07 R195, R197 to R199) -/

/-- Round down to a multiple of 256. -/
def down256 (n : Nat) : Nat := n / 256 * 256
/-- The share of each enabled stack in a tier: 0 front, 1 near memory, 2 CXL (spec/07 Table 7-1). -/
def Floe.share (x : Floe) (tier : Nat) : Nat :=
  if x.nstk = 0 then 0
  else down256 ((if tier = 0 then x.frontSize.toNat else if tier = 1 then x.nmSize.toNat else x.cxlSize.toNat) / x.nstk.toNat)
/-- The device address of an offset in a stack's share of a tier (spec/07 R195). -/
def Floe.stashAddr (x : Floe) (f tier k off : Nat) : Nat :=
  (if tier = 0 then spAddr f x.frontBase.toNat else if tier = 1 then x.nmBase.toNat else x.cxlBase.toNat) + k * x.share tier + off
/-- Place footprints in list order: (tier, offset) of each, none for one that fits no tier (spec/07 R197). -/
def placeDeclared (share : Nat → Nat) : List Nat → Nat → Nat → Nat → List (Option (Nat × Nat))
  | [], _, _, _ => []
  | fp :: r, a, b, c =>
    if a + fp ≤ share 0 then some (0, a) :: placeDeclared share r (a + fp) b c
    else if b + fp ≤ share 1 then some (1, b) :: placeDeclared share r a (b + fp) c
    else if c + fp ≤ share 2 then some (2, c) :: placeDeclared share r a b (c + fp)
    else none :: placeDeclared share r a b c
/-- The places of a floe's declared list. -/
def Floe.places (x : Floe) : List (Option (Nat × Nat)) := placeDeclared x.share (x.declared.map (fun e => e.2)) 0 0 0
/-- A tier's high-water mark (spec/07 R197). -/
def Floe.highWater (x : Floe) (tier : Nat) : Nat :=
  (List.zipWith (fun p e => (p, e.2)) x.places x.declared).foldl (fun n e => match e.1 with
    | some (t, _) => if t = tier then n + e.2 else n
    | none => n) 0
/-- Where the next optional entry of a stack would begin in a tier (spec/07 R199). -/
def Floe.optionalOff (x : Floe) (k tier : Nat) : Nat :=
  ((x.stack k).filter (fun e => !e.hole && !e.declared && e.tier == tier)).foldl (fun n e => max n (e.off + e.fp)) (x.highWater tier)
/-- The first tier with room for an optional entry. -/
def Floe.optionalPlace (x : Floe) (k fp : Nat) : Option (Nat × Nat) :=
  ([0, 1, 2].find? (fun t => x.optionalOff k t + fp ≤ x.share t)).map (fun t => (t, x.optionalOff k t))
/-- Storage is unavailable to a partition: a lost CXL window, or no grant (spec/07 R198). -/
def State.stashGone (s : State) (p tier a n : Nat) : Bool :=
  tier != 0 && ((s.accessFault p a n).isSome || (tier == 2 && (pieces a n).any s.lostAt))
/-- The partition of a floe, or none of them. -/
def State.partOf (s : State) (f : Nat) : Nat := (s.floePart f).getD 8

/-! ## STASH.PUSH (spec/07 R198 to R203) -/

/-- The entry a push would make: stored, or a hole. -/
def State.pushEntry (s : State) (f : Nat) (w : IWord) (k : Nat) (d : Desc) : StashEntry :=
  let x := s.floe f
  let n := ((x.stack k).filter (fun e => e.declared)).length
  let place := if stashBit w then x.optionalPlace k d.footprint else (x.places.getD n none)
  let e : StashEntry := { hole := true, declared := !stashBit w, eid := stashEid w, d := d, tier := 0, off := 0, fp := d.footprint }
  match place with
  | none => e
  | some (t, o) => if s.stashGone (s.partOf f) t (x.stashAddr f t k o) d.footprint then e else { e with hole := false, tier := t, off := o }
/-- A declared push does not match the declared list (spec/07 R198). -/
def Floe.offBudget (x : Floe) (k eid fp : Nat) : Bool :=
  let n := ((x.stack k).filter (fun e => e.declared)).length
  x.declared[n]? != some (eid, fp)
/-- The planes of an entry in the order of spec/07 R196, padded: (offset in the entry, address, bytes); notes/assumptions/29.md. -/
def stashPlanes (d : Desc) : List (Nat × Nat × Nat) :=
  let l := [(d.base, d.elemBytes), (d.scaleBase, d.scaleBytes), (d.occBase, d.occBytes), (d.metaBase, d.metaBytes)].filter (fun p => p.2 != 0)
  (l.foldl (fun acc p => (acc.1 + roundUp p.2 64, acc.2 ++ [(acc.1, p.1, p.2)])) (0, [])).2
/-- The lowest fault of a push; none where it is accepted. -/
def State.pushFault (s : State) (f : Nat) (w : IWord) (k : Nat) : Option Nat :=
  let x := s.floe f
  match s.desc f (stashTag w) with
  | none => some 0x03
  | some d =>
    let e := s.pushEntry f w k d
    let acc := s.touchFault f d.planes (if e.hole then [] else [(x.stashAddr f e.tier k e.off, e.fp)])
    if acc.isSome then acc
    else if 256 ≤ (x.stack k).length then some 0x64
    else if !stashBit w && x.offBudget k (stashEid w) d.footprint then some 0x65
    else if x.nstk.toNat ≤ k then some 0x66
    else none
/-- A push is accepted: the entry joins its stack; a hole copies nothing (spec/07 R203, Table 7-11). -/
def State.pushAccept (s : State) (f : Nat) (st : Stream) (w : IWord) (k : Nat) (d : Desc) : State :=
  let x := s.floe f
  let e := s.pushEntry f w k d
  let x1 := x.setStack k (e :: x.stack k)
  let x2 := if e.hole then { x1 with pushCount := bump x1.pushCount, holeCount := bump x1.holeCount }
    else { x1.take [stashTag w] [] with push := some { stream := st, stack := k, entry := e, d := d, tag := stashTag w },
                                        spillCount := if e.tier = 0 then x1.spillCount else bump x1.spillCount }
  (s.setFloe f x2).issue f st

/-- STASH.PUSH (spec/07 R203). -/
def execStashPush (f : Nat) (st : Stream) (arb : Arb) (s : State) : Host.Outcome State Fault Refusal :=
  .next (s.inCycle f st fun s => s.onHead f st (isIns 0x28) (fun w =>
    let k := stashStack (s.stream f st) w
    if s.pushWaits f st w then s
    else s.grant f 3 st arb [stashTag w] (fun s => s.pushFault f w k) (fun s => s.pushAccept f st w k ((s.desc f (stashTag w)).getD {}))))

/-- The last source byte of a push has been read: its reader ends (spec/07 R203). -/
def State.pushRead (s : State) (f : Nat) (errs : Errs) (o : StashOp) : State :=
  let l := stashPlanes o.d
  let s1 := s.each l (fun s p => s.noteEnded (some f) o.ended errs p.2.1 p.2.2)
  s1.setFloe f { (s1.floe f).endReaders [o.tag] with push := some { o with readDone := true, data := l.map (fun p => s.fillEnded o.ended errs p.2.1 p.2.2) } }

/-! ## STASH.POP (spec/07 R204 to R208) -/

/-- A descriptor matches what an entry recorded (spec/07 R204). -/
def recordedAs (e d : Desc) : Bool :=
  e.fmt == d.fmt && e.shape == d.shape && e.occ == d.occ && e.isMeta == d.isMeta && e.dim0b == d.dim0b && e.dim1b == d.dim1b
/-- The lowest fault of a pop; none where it is accepted (spec/07 R204 Tables 7-3 and 7-9, spec/06 R190). It writes TAG_DST only where it would copy a stored entry there. -/
def State.popFault (s : State) (f : Nat) (w : IWord) (k : Nat) : Option Nat :=
  let x := s.floe f
  let d := s.desc f (stashTag w)
  let top := (x.stack k).head?
  let acc := if !stashBit w && top.any (fun e => !e.hole) then s.touchFault f [] (d.getD {}).planes else none
  if !stashBit w && d.isNone then some 0x03
  else if acc.isSome then acc
  else if !stashBit w && stashRoff w = 0 && top.any (fun e => e.hole) then some 0x60
  else if top.any (fun e => e.eid != stashEid w) then some 0x61
  else if top.isNone then some 0x62
  else if !stashBit w && top.any (fun e => !e.hole && !recordedAs e.d (d.getD {})) then some 0x63
  else if x.nstk.toNat ≤ k then some 0x66
  else none
/-- A pop is accepted: the entry leaves its stack; it is copied, discarded, or recomputed (spec/07 Table 7-3, R208). -/
def State.popAccept (s : State) (f : Nat) (st : Stream) (w : IWord) (k : Nat) : State :=
  let x := s.floe f
  match x.stack k with
  | [] => s
  | e :: r =>
    let x1 := x.setStack k r
    if stashBit w then (s.setFloe f x1).issue f st
    else if e.hole then
      let y := x1.stream st
      (s.setFloe f ({ x1 with recompCount := bump x1.recompCount }.setStream st (y.setReg 28 (y.pc + 16)))).issueTo f st
        (y.pc + BitVec.ofInt 64 (16 * stashRoff w))
    else
      (s.setFloe f { x1.take [] [stashTag w] with
        pop := some { stream := st, stack := k, entry := e, d := (s.desc f (stashTag w)).getD {}, tag := stashTag w } }).issue f st
/-- STASH.POP (spec/07 R204). -/
def execStashPop (f : Nat) (st : Stream) (arb : Arb) (s : State) : Host.Outcome State Fault Refusal :=
  .next (s.inCycle f st fun s => s.onHead f st (isIns 0x29) (fun w =>
    let k := stashStack (s.stream f st) w
    if s.popWaits f st w then s
    else s.grant f 3 st arb (popTags w) (fun s => s.popFault f w k) (fun s => s.popAccept f st w k)))

/-- The stored bytes of an entry's planes: 0xFF from storage that is gone. -/
def State.stashBytes (s : State) (f : Nat) (errs : Errs) (o : StashOp) : List (List Byte) :=
  let x := s.floe f
  let a := x.stashAddr f o.entry.tier o.stack o.entry.off
  if s.stashGone (s.partOf f) o.entry.tier a o.entry.fp then (stashPlanes o.entry.d).map (fun p => List.replicate p.2.2 0xFF)
  else (stashPlanes o.entry.d).map (fun p => s.fillEnded o.ended errs (a + p.1) p.2.2)
/-- A pop completes: the planes are written to TAG_DST and its writer ends (spec/07 R204). -/
def State.popDone (s : State) (f : Nat) (errs : Errs) (o : StashOp) : State :=
  let x := s.floe f
  let a := x.stashAddr f o.entry.tier o.stack o.entry.off
  let gone := s.stashGone (s.partOf f) o.entry.tier a o.entry.fp
  let s1 := if gone then s.recordNf f else s.each (stashPlanes o.entry.d) (fun s p => s.noteEnded (some f) o.ended errs (a + p.1) p.2.2)
  let s2 := s1.each (List.zipWith (fun p l => (p.2.1, l)) (stashPlanes o.d) (s.stashBytes f errs o)) (fun s e => s.writeEnded (some f) o.ended [] e.1 e.2)
  s2.setFloe f { (s2.floe f).endWriters [o.tag] with pop := none }
/-- A push completes: its planes are in storage, unless that is gone (spec/07 R203, Table 7-11). -/
def State.pushDone (s : State) (f : Nat) (errs : Errs) (o : StashOp) : State :=
  let x := s.floe f
  let a := x.stashAddr f o.entry.tier o.stack o.entry.off
  let s1 := if s.stashGone (s.partOf f) o.entry.tier a o.entry.fp then s
    else s.each (List.zipWith (fun p l => (a + p.1, l)) (stashPlanes o.d) o.data) (fun s e => s.writeEnded (some f) o.ended errs e.1 e.2)
  let z := s1.floe f
  s1.setFloe f { z with push := none, pushCount := bump z.pushCount }

/-- STASH_COPY_COMPLETE (spec/07 R207, R208). -/
def execStashCopyComplete (f : Nat) (pop : Bool) (errs : Errs) (s : State) : Host.Outcome State Fault Refusal :=
  let x := s.floe f
  match pop, x.push, x.pop with
  | true, _, some o => if s.memHeld (x.stashAddr f o.entry.tier o.stack o.entry.off) o.entry.fp then .next s else .next (s.popDone f errs o)
  | false, some o, _ => if o.readDone && !s.memHeld (x.stashAddr f o.entry.tier o.stack o.entry.off) o.entry.fp then .next (s.pushDone f errs o) else .next s
  | _, _, _ => .next s

/-! ## The isolation wrapper (spec/15 R508) -/

/-- The bytes an XFER has still to read, and those it has still to write. -/
def XferOp.reads (o : XferOp) : List (Nat × Nat) := if o.readDone then [] else xferReads o.w o.dSrc
def XferOp.writes (o : XferOp) : List (Nat × Nat) := xferData o.w o.dDst
/-- The bytes a stash copy's entry has in storage. -/
def Floe.entryRange (x : Floe) (f : Nat) (o : StashOp) : List (Nat × Nat) := [(x.stashAddr f o.entry.tier o.stack o.entry.off, o.entry.fp)]
/-- The lines of some ranges that a page serves. -/
def State.linesOn (s : State) (g : Nat × Nat) (l : List (Nat × Nat)) : List Nat := l.flatMap (fun r => (unitBases r.1 r.2).filter (s.served [g]))
/-- The lines that a floe's copies in flight have still to read from a page, and those they have still to write there. -/
def State.copyLines (s : State) (f : Nat) (g : Nat × Nat) : List Nat × List Nat :=
  let x := s.floe f
  let xs := x.xfers.filter (fun o => !o.ended.contains g)
  let push := x.push.toList.filter (fun o => !o.ended.contains g)
  let pop := x.pop.toList.filter (fun o => !o.ended.contains g)
  (s.linesOn g (xs.flatMap (fun o => o.reads) ++ (push.filter (fun o => !o.readDone)).flatMap (fun o => o.d.planes) ++ pop.flatMap (x.entryRange f)),
   s.linesOn g (xs.flatMap (fun o => o.writes) ++ push.flatMap (x.entryRange f) ++ pop.flatMap (fun o => o.d.planes)))
/-- Every copy in flight on a floe has its requests to a page ended. -/
def Floe.endCopies (x : Floe) (g : Nat × Nat) : Floe :=
  { x with xfers := x.xfers.map (fun o => { o with ended := g :: o.ended }), push := x.push.map (fun o => { o with ended := g :: o.ended }),
           pop := x.pop.map (fun o => { o with ended := g :: o.ended }) }
/-- A floe write to a page's line is dropped and recorded as a failed write (spec/08 R244, spec/15 R508). -/
def State.dropWrite (s : State) (f : Nat) (g : Nat × Nat) (b : Nat) : State :=
  (if b < cxlBase then (s.countUe b false).raise g.1 g.2 1 else s).recordNf f
/-- A floe has a copy in flight. -/
def Floe.copies (x : Floe) : Bool := !x.xfers.isEmpty || x.push.isSome || x.pop.isSome
/-- The isolation wrapper of a controller or port ends the requests of a floe's copies in flight: what they have still to read there is 0xFF and a non-finite value is recorded, what they have still to write is dropped (notes/assumptions/148.md). -/
def State.isolateFloe (s : State) (f : Nat) (g : Nat × Nat) : State :=
  let l := s.copyLines f g
  let s1 := s.setFloe f ((s.floe f).endCopies g)
  (if l.1.isEmpty then s1 else s1.recordNf f).each l.2 (fun s b => s.dropWrite f g b)

/-! ## Lost storage (spec/07 R201) -/

/-- An entry becomes a hole where its storage is lost. -/
def Floe.loseEntry (x : Floe) (f k : Nat) (lost : Nat → Nat → Bool) (e : StashEntry) : StashEntry :=
  if !e.hole && e.tier != 0 && lost (x.stashAddr f e.tier k e.off) e.fp then { e with hole := true } else e
/-- The stacks of a floe that lose an entry of a tier. -/
def Floe.losing (x : Floe) (f tier : Nat) (lost : Nat → Nat → Bool) : List Nat :=
  (List.range 16).filter (fun k => (x.stack k).any (fun e => e.tier == tier && (x.loseEntry f k lost e).hole != e.hole))
/-- Entries in lost storage become holes; one STASH_LOST event for each floe and tier affected (spec/07 R201, spec/12 Table 12-13). -/
def State.loseStash (s : State) (p : Nat) (lost : Nat → Nat → Bool) : State :=
  s.each (s.partFloes p) (fun s f =>
    let x := s.floe f
    let n : Nat := x.stashed.foldl (fun n e => n + (e.2.filter (fun v => (x.loseEntry f e.1 lost v).hole != v.hole)).length) 0
    if n = 0 then s
    else
      let x1 := { x with stashed := x.stashed.map (fun e => (e.1, e.2.map (x.loseEntry f e.1 lost))), holeCount := x.holeCount + BitVec.ofNat 64 n }
      [1, 2].foldl (fun s t =>
        let l := x.losing f t lost
        if l.isEmpty then s else s.eventOwner p 0x06 (s.floePage f).1 (leBytes 1 f ++ leBytes 1 t ++ leBytes 2 (packBits 16 (fun k => l.contains k))))
        (s.setFloe f x1))

/-! ## READERS_RELEASED (spec/06 Table 6-10) -/

/-- READERS_RELEASED: the unit's oldest accepted instruction that is still reading has read its last source byte (spec/03 R87, spec/05 R149, spec/06 R186, spec/07 R203). -/
def execReadersReleased (f : Nat) (r : Reader) (errs : Errs) (s : State) : Host.Outcome State Fault Refusal :=
  let x := s.floe f
  match r with
  | .array bank =>
    match takeFirst (fun o => mmaBank o.w == bank && !o.readDone) x.mmas with
    | none => .next s
    | some (o, _) =>
      let (s1, o1) := s.mmaRead f errs o
      let z := s1.floe f
      let old := z.mmas.takeWhile (fun o => !(mmaBank o.w == bank && !o.readDone))
      .next (s1.setFloe f { z with mmas := old ++ o1 :: z.mmas.drop (old.length + 1) })
  | .vector =>
    match x.vu with
    | .idle | .cond _ | .upd _ => .next s
    | .pass o => if o.readDone || !x.tileWhole o.w then .next s else .next (s.passRead f errs o)
  | .transfer tagDst =>
    match takeFirst (fun o => xferDst o.w == tagDst && !o.readDone) x.xfers with
    | none => .next s
    | some (o, rest) =>
      if s.planesHeld o.dSrc then .next s else
      let (s1, o1) := s.xferRead f errs o
      let z := s1.floe f
      .next (s1.setFloe f { z with xfers := rest ++ [o1] })
  | .push =>
    match x.push with
    | none => .next s
    | some o => if o.readDone then .next s else .next (s.pushRead f errs o)

end Sys2Proof.Machine
end

