-- ==== Sys2Proof/Machine/Coll.lean ====
section
/-! DEFINITION. The collectives' shared operations: endpoints, pieces of tensors, steps and their packets, add units, attempts, failures and closing, the verdict's result and its commit (spec/10, spec/07 R223 to R231). -/

namespace Sys2Proof.Machine

/-! ## Endpoints and addresses (spec/10 R315) -/

/-- The value that names no endpoint. -/
def noEp : Nat := 0xFFFFFFFF
/-- An endpoint's coordinate and partition. -/
def epCoord (e : Nat) : Nat × Nat × Nat := (bitsOf e 23 6, bitsOf e 17 6, bitsOf e 11 6)
def epPart (e : Nat) : Nat := bitsOf e 8 3
/-- The endpoint of a coordinate, a partition and a logical floe. -/
def epOf (c : Nat × Nat × Nat) (p f : Nat) : Nat := 2 ^ 23 * c.1 + 2 ^ 17 * c.2.1 + 2 ^ 11 * c.2.2 + p * 256 + f
/-- The coordinate and partition of a source address, as an endpoint without a floe. -/
def epOfAddr (a : BitVec 128) : Nat := epOf (idCoord (idOf a)) (idPart (idOf a)) 0
/-- Two endpoints name one partition of one device. -/
def sameMember (a b : Nat) : Bool := a / 256 == b / 256

/-- What a bucket tag maps to (spec/10 R317): a logical floe of the partition, or the partition for a verdict tag. -/
inductive TagUse where
  | ring (f : Nat)
  | tree
  deriving DecidableEq, Repr
/-- The tag table of a partition. -/
def State.tagUse (s : State) (p tag : Nat) : Option TagUse :=
  match (s.part p).image with
  | none => none
  | some im =>
    match Tbl.find im.tagTable tag with
    | none => none
    | some i => if i = 0xFFFF then some .tree else ((s.partFloes p)[i]?).map TagUse.ring

/-! ## Steps -/

/-- OPCODE and KIND of a step (spec/10 Table 10-2). -/
def StepKind.code : StepKind → Nat × Nat
  | .allgather => (0x40, 0) | .rotate => (0x40, 1) | .reduceScatter => (0x41, 0) | .allreduce => (0x41, 1) | .permute => (0x42, 0)
  | .commit => (0x44, 0) | .norm => (0x44, 1) | .barrier => (0x44, 2)
/-- The packet type of a step's data (spec/09 Table 9-4). -/
def StepKind.typ : StepKind → Nat
  | .allgather | .rotate => 1
  | .reduceScatter | .allreduce => 2
  | .permute => 3
  | .commit | .norm | .barrier => 4
/-- A step adds: SHIFTADD. -/
def StepKind.adds (k : StepKind) : Bool := k.typ == 2

/-- Replace the step of a tag. -/
def State.putStep (s : State) (p : Nat) (t : Step) : State :=
  s.setPart p { s.part p with steps := (s.part p).steps.map (fun u => if u.tag == t.tag then t else u) }
/-- Remove the step of a tag. -/
def State.dropStep (s : State) (p tag : Nat) : State :=
  s.setPart p { s.part p with steps := (s.part p).steps.filter (fun u => u.tag != tag) }
/-- Apply a change to a step's floes. -/
def State.eachFloe (s : State) (t : Step) (g : Floe → Floe) : State := s.each t.floes (fun s f => s.setFloe f (g (s.floe f)))

/-- The deadline of an attempt that begins now (spec/10 R345). -/
def State.stepDeadline (s : State) (g : Group) : DWord := s.now + BitVec.ofNat 64 (1000 * g.timeout)

/-! ## Pieces: whole block rows of a tensor (spec/10 R329, R330, R341) -/

/-- Storage blocks of some block rows. -/
def Desc.rowBlocks (d : Desc) (rows : Nat) : Nat := if d.isMeta then rows * d.dim1b / 2 else rows * d.dim1b
/-- The byte planes of block rows br to br + rows - 1, in the order elements, scales, metadata. -/
def Desc.pieceRanges (d : Desc) (br rows : Nat) : List (Nat × Nat) :=
  [(d.base + d.rowBlocks br * blockBytes d.fmt, d.rowBlocks rows * blockBytes d.fmt),
   (d.scaleBase + br * d.dim1b * d.scaleUnit, rows * d.dim1b * d.scaleUnit),
   (d.metaBase + d.rowBlocks br * 256, if d.isMeta then d.rowBlocks rows * 256 else 0)].filter (fun r => r.2 != 0)
/-- Bytes of a piece's occupancy bits. -/
def Desc.pieceOcc (d : Desc) (rows : Nat) : Nat := if d.occ then (d.rowBlocks rows + 7) / 8 else 0
/-- Bytes of a piece. -/
def Desc.pieceSize (d : Desc) (rows : Nat) : Nat := (d.pieceRanges 0 rows).foldl (fun a r => a + r.2) (d.pieceOcc rows)
/-- The bytes of a piece: its planes in order, its occupancy bits packed last. -/
def State.readPiece (s : State) (d : Desc) (br rows : Nat) : List Byte :=
  (d.pieceRanges br rows).flatMap (fun r => s.fill [] r.1 r.2)
    ++ (List.range (d.pieceOcc rows)).map (fun i => BitVec.ofNat 8 (packBits 8 (fun b =>
        decide (8 * i + b < d.rowBlocks rows) && s.occBit d (d.rowBlocks br + 8 * i + b))))
/-- Write the part of a plane that n bytes at `off` of a piece fall into; `lo` is where the plane begins in the piece. -/
def State.writePlane (s : State) (f lo : Nat) (r : Nat × Nat) (off : Nat) (l : List Byte) : State :=
  let a := max lo off
  let b := min (lo + r.2) (off + l.length)
  if a < b then s.put f (r.1 + (a - lo)) (sliceB l (a - off) (b - a)) else s
/-- Write bytes at an offset of a piece. -/
def State.writePiece (s : State) (f : Nat) (d : Desc) (br rows off : Nat) (l : List Byte) : State :=
  let (s1, lo) := (d.pieceRanges br rows).foldl (fun acc r => (State.writePlane acc.1 f acc.2 r off l, acc.2 + r.2)) (s, 0)
  s1.each (List.range l.length) (fun s i =>
    if lo ≤ off + i && d.occ then
      s.each (List.range 8) (fun s b =>
        let n := 8 * (off + i - lo) + b
        if n < d.rowBlocks rows then s.putOcc f d (d.rowBlocks br + n) ((l.getD i 0).getLsbD b) else s)
    else s)

/-! ## What a step moves (spec/10 R329 to R342) -/

/-- Bytes of a slice of a SHIFTADD (spec/10 R332). -/
def Step.slice (t : Step) : Nat := t.dSrc.elemBytes / t.group.n
/-- Block rows of a segment of a PERMUTE, and its bytes (spec/10 R341). -/
def Step.segRows (t : Step) : Nat := t.exch.c / 32
def Step.seg (t : Step) : Nat := t.dSrc.pieceSize t.segRows
/-- Bytes of a piece of a SHIFT. -/
def Step.piece (t : Step) : Nat := t.dSrc.pieceSize t.dSrc.dim0b
/-- The successor and predecessor of a member index. -/
def Step.up (t : Step) : Nat := (t.group.self + 1) % t.group.n
def Step.down (t : Step) : Nat := (t.group.self + t.group.n - 1) % t.group.n
/-- The member whose data a ROTATE brings here (spec/10 R331). -/
def Step.rotateFrom (t : Step) : Nat := (t.group.self + t.group.n - t.dist % t.group.n) % t.group.n
/-- The bytes a member expects: by origin for SHIFT, by slice for SHIFTADD, by slot for PERMUTE (spec/10 R326, R330, R331, R334, R342). -/
def Step.expect (t : Step) : List (Nat × Nat) :=
  match t.kind with
  | .allgather => ((List.range t.group.n).filter (fun m => m != t.group.self)).map (fun m => (m, t.piece))
  | .rotate => [(t.rotateFrom, t.piece)]
  | .reduceScatter => [(t.group.self, t.slice)]
  | .allreduce => (List.range t.group.n).map (fun k => (k, t.slice))
  | .permute => (List.range t.exch.inn.length).map (fun k => (k, t.seg))
  | .commit | .norm | .barrier => []
/-- Every expected byte of the current attempt has been counted (spec/10 R326). -/
def Step.counted (t : Step) : Bool := t.expect.all (fun e => Tbl.get 0 t.counts e.1 == e.2)
/-- Count bytes under a key. -/
def Step.count (t : Step) (k n : Nat) : Step := { t with counts := t.counts.put k (Tbl.get 0 t.counts k + n) }
/-- The origins whose bytes are incomplete: members for SHIFT, the reduce origin or the owner for SHIFTADD, source members for PERMUTE; children without a report for a tree; none for a member that was complete before a replay (spec/10 R347, R348). -/
def Step.missing (t : Step) : List Nat :=
  if t.kind.isTree then (List.range t.group.childs.length).filter (fun i => (Tbl.find t.reports i).isNone)
  else if t.complete then []
  else
    let l := (t.expect.filter (fun e => Tbl.get 0 t.counts e.1 != e.2)).map (fun e =>
      match t.kind with
      | .reduceScatter => t.up
      | .allreduce => if e.1 = t.group.self then t.up else e.1
      | .permute => (t.exch.inn.getD e.1 (0, 0)).1
      | .allgather | .rotate | .commit | .norm | .barrier => e.1)
    (sortUp l).eraseDups

/-- The element count of the descriptor hash (spec/10 Table 10-7). -/
def Step.elements (t : Step) : Nat :=
  match t.kind with
  | .allgather | .rotate | .reduceScatter | .allreduce => 1024 * t.dSrc.dim0b * t.dSrc.dim1b
  | .permute => t.exch.c * 32 * t.dSrc.dim1b
  | .commit | .norm | .barrier => 0
/-- DHASH (spec/10 R343). -/
def Step.hash (t : Step) : Word :=
  let k := t.kind.code
  crc32c (beBytes 2 t.group.gid ++ beBytes 2 t.group.gepoch ++ beBytes 1 k.1 ++ beBytes 1 k.2
    ++ beBytes 1 (if t.kind.isTree then 0 else t.dSrc.fmt) ++ beBytes 1 0 ++ beBytes 6 t.elements ++ beBytes 2 t.tag)

/-! ## Sending (spec/10 R322, R328) -/

/-- A packet of a step (spec/10 R322). -/
def State.stepPkt (s : State) (p : Nat) (t : Step) (typ member off : Nat) (last poison : Bool) (l : List Byte) : MeshPkt :=
  { src := s.addr s.coord false p, ch := t.ch, typ := typ, tag := t.tag, member := member, attempt := t.attempt, last := last,
    poison := poison, dhash := t.dhash, offset := off, step := t.serial, payload := l }
/-- Send a packet to an endpoint's partition (spec/10 R315). -/
def State.sendTo (s : State) (e : Nat) (q : MeshPkt) (stomp : Bool) : State :=
  s.inject { q with dst := s.addr (epCoord e) false (epPart e), part := epPart e } stomp
/-- Some block of these BS16 bytes carries a flag of its FLAGS byte. -/
def anyFlag (mask : Nat) (l : List Byte) : Bool := (List.range (l.length / 68)).any (fun i => (l.getD (68 * i + 65) 0).toNat &&& mask != 0)
/-- Send bytes from an offset of the step's data space, at most 4,352 a packet (spec/09 R270); `final` says that no run of this origin follows, so that its last packet carries LAST (spec/10 R326). -/
def State.sendRun (s : State) (p : Nat) (t : Step) (e member off : Nat) (final : Bool) (l : List Byte) : State :=
  s.each (List.range ((l.length + 4351) / 4352)) (fun s i =>
    let b := sliceB l (4352 * i) 4352
    s.sendTo e (s.stepPkt p t t.kind.typ member (off + 4352 * i) (final && 4352 * i + 4352 ≥ l.length) (t.kind.adds && anyFlag 1 b) b) false)

/-- The payload of a notice (spec/10 Table 10-4). -/
def noticePayload (kind att reason origin : Nat) : List Byte :=
  beBytes 1 kind ++ beBytes 1 att ++ beBytes 1 reason ++ beBytes 1 0 ++ beBytes 4 origin ++ zeros 24
/-- Send a notice of a step to an endpoint. -/
def State.sendNotice (s : State) (p : Nat) (t : Step) (e kind att reason origin : Nat) : State :=
  s.sendTo e (s.stepPkt p t 5 origin 0 false false (noticePayload kind att reason origin)) false
/-- The endpoints a member's notices go to: its successor; in a tree its parent and children (notes/assumptions/31.md). -/
def Step.outs (t : Step) : List Nat :=
  if t.kind.isTree then (t.group.parent :: t.group.childs).filter (fun e => e != noEp)
  else if t.group.n ≤ 1 then [] else [t.group.succ]
/-- Send a notice of this member around the ring or the tree. -/
def State.around (s : State) (p : Nat) (t : Step) (kind att reason : Nat) : State :=
  s.each t.outs (fun s e => s.sendNotice p t e kind att reason t.group.self)

/-- Own data of a SHIFTADD at an offset. -/
def State.ownSlice (s : State) (t : Step) (off n : Nat) : List Byte := s.fill [] (t.dSrc.base + off) n
/-- The address of slice byte `off` in the destination of a SHIFTADD (spec/10 R334). -/
def Step.addDst (t : Step) (off : Nat) : Nat :=
  t.dDst.base + (match t.kind with
    | .reduceScatter => off - t.group.self * t.slice
    | .allreduce | .allgather | .rotate | .permute | .commit | .norm | .barrier => off)

/-- Remove the waiting PAUSE of a partition and answer it (spec/12 R428, R441). -/
def State.answerPause (s : State) (p st det arg : Nat) : State :=
  let hit := fun (c : GwyPkt) => c.busy && c.opcode == 0x07 && c.part == p
  let s1 := s.setPart p { s.part p with pausing := false }
  match s1.cmdq.find? hit with
  | some c => { s1 with cmdq := s1.cmdq.filter (fun c => !hit c) }.respond c st det arg 0 []
  | none => s1
/-- The last open step of a pausing partition is gone: PAUSE is answered (spec/10 R349, spec/12 R428). -/
def State.pauseCheck (s : State) (p : Nat) : State :=
  if (s.part p).pausing && (s.part p).openSteps.isEmpty then s.answerPause p 0 0 0 else s

/-! ## The verdict completes (spec/10 R352, spec/07 R223 to R227, R231) -/

/-- Every current and alternate tag of a partition is free (spec/07 R226 item 1). -/
def State.ppIdle (s : State) (p : Nat) : Bool :=
  (s.partFloes p).all (fun f => (List.range 256).all (fun t => !(s.floe f).isPp t || (((s.floe f).tag t).wr == 0 && ((s.floe f).tag t).rd == 0)))
/-- Exchange the descriptors of tags t and t + N of a floe (spec/07 R226 item 2). -/
def State.swapDescs (s : State) (f : Nat) : State :=
  let x := s.floe f
  s.each (List.range x.ppCount.toNat) (fun s i =>
    let t := x.ppBase.toNat + i
    let u := t + x.ppCount.toNat
    let a := s.descBytes f t
    let b := s.descBytes f u
    (s.put f (s.descAddr f t) b).put f (s.descAddr f u) a)
/-- What every commit verdict's end leaves: norms invalid, records and transfers cleared, the serial advanced (spec/10 R322, R350, spec/07 R223). -/
def State.stepEnd (s : State) (p : Nat) : State :=
  let n := (s.part p).serial + 1
  let s1 := s.each (s.partFloes p) (fun s f =>
    let x := s.floe f
    s.setFloe f { x with curValid := false, record := 0, mirTx := {}, tagAttempt := x.tagAttempt.filter (fun e => e.1 / 65536 == n.toNat) })
  let x := s1.part p
  let keep := fun (l : Tbl Nat) => l.filter (fun e => e.1 / 2 ^ 34 == n.toNat)
  s1.setPart p { x with serial := n, steerPlan := [], verdictDone := [], gone := [], committing := false, mirGot := keep x.mirGot, mirWant := keep x.mirWant }
/-- A commit (spec/07 R226). -/
def State.commitStep (s : State) (p : Nat) : State :=
  let s1 := s.each (s.partFloes p) (fun s f =>
    let s1 := s.swapDescs f
    let x := s1.floe f
    s1.setFloe f { x with gnCommit := if x.curValid then x.gnCur else x.gnCommit, mirHalf := !x.mirHalf })
  let x := s1.part p
  s1.setPart p { x with stepCount := x.stepCount + 1, commits := x.commits + 1, mirHalf := !x.mirHalf }
/-- T_RES of a verdict that a COLL.STEER names: the chiplets switch to its plan, and its steers complete 2 microseconds later (spec/10 R355, R356). -/
def State.steerNow (s : State) (p tag : Nat) : State :=
  if (Tbl.find (s.part p).steerPlan tag).isNone then s
  else (s.setPart p { s.part p with steers := (s.part p).steers.map (fun z => if z.rtag == tag then { z with due := true } else z) }).planSwitch tag
/-- The verdict completes (spec/10 R352, Table 10-8, spec/07 R224, R226, R227); a commit waits for the current and alternate tags to be free, a plan does not wait. -/
def State.endVerdict (s : State) (p : Nat) (t : Step) : State :=
  match t.result with
  | none => s
  | some (v, tres) =>
    let s0 := s.steerNow p t.tag
    if t.kind == .commit && v.byte == 0 && !s0.ppIdle p then s0.setPart p { s0.part p with committing := true }
    else
      let s1 := s0.each t.issues (fun s i =>
        s.setStream i.floe i.stream (((s.stream i.floe i.stream).setReg i.rreg (BitVec.ofNat 64 (v.byte.toNat + v.key.toNat * 2 ^ 32))).endPend i.rreg))
      let s2 := match t.kind with
        | .commit | .norm => s1.each (s1.partFloes p) (fun s f =>
            let x : Floe := s.floe f
            s.setFloe f { x with gnCur := fSqrt v.q, curValid := true, record := if t.kind == StepKind.norm && v.byte != 0 then setBit x.record 4 true else x.record })
        | .barrier | .allgather | .rotate | .reduceScatter | .allreduce | .permute => s1
      let s3 := s2.eventOwner p 0x03 0xFF (leBytes 4 t.serial.toNat ++ leBytes 1 v.byte.toNat ++ leBytes 1 t.kind.code.2 ++ zeros 2
        ++ leBytes 4 v.key.toNat ++ leBytes 4 v.q.toNat ++ leBytes 8 tres.toNat)
      let x : Part := s3.part p
      let s6 := (s3.setPart p { x with lastKey := v.key, verdictDone := t.tag :: x.verdictDone }).dropStep p t.tag
      match t.kind with
      | .commit =>
        if v.byte = 0 then (s6.commitStep p).stepEnd p
        else (s6.setPart p { s6.part p with discards := (s6.part p).discards + 1 }).stepEnd p
      | .norm | .barrier | .allgather | .rotate | .reduceScatter | .allreduce | .permute => s6

/-! ## The verdict's way up and down (spec/10 R351) -/

/-- A VERDICT payload. -/
def verdictPayload (k : StepKind) (v : VVal) (tres : Nat) : List Byte :=
  beBytes 1 v.byte.toNat ++ beBytes 1 k.code.2 ++ zeros 2 ++ beBytes 4 v.key.toNat ++ beBytes 4 v.q.toNat ++ beBytes 8 tres ++ zeros 12
/-- The value of a VERDICT payload. -/
def readVerdict (l : List Byte) : VVal :=
  { byte := l.getD 0 0, key := BitVec.ofNat 32 (beAt l 4 4), q := BitVec.ofNat 32 (beAt l 8 4) }
/-- Combine two values: OR, maximum, RNE sum. -/
def VVal.combine (a b : VVal) : VVal := { byte := a.byte ||| b.byte, key := if a.key.toNat < b.key.toNat then b.key else a.key, q := fAdd a.q b.q }
/-- The children's reports in CHILD order, none while one is missing. -/
def Step.childReports (t : Step) : Option (List VVal) := (List.range t.group.childs.length).mapM (fun i => Tbl.find t.reports i)
/-- The plan of a steering image is in force (spec/10 R355). -/
def State.planInForce (s : State) (plan : Nat) : Bool :=
  [0, 1, 2].all (fun c => !(s.chip c).install && (s.chip c).plan.toNat == plan && !(s.chip c).switching && (s.chip c).next.isNone)
/-- A verdict result reaches the member: kept, passed to the children as a copy whose MEMBER stays the root's, the step closed, a plan change prepared; one that comes after its T_RES is counted as late and applies at once (spec/10 R322, R327, R351, R352, R355). -/
def State.gotResult (s : State) (p : Nat) (t : Step) (v : VVal) (tres : DWord) (origin : Nat) : State :=
  let late := decide (tres.toNat < s.now.toNat)
  let t1 := { t with result := some (v, tres) }
  let s1 := s.putStep p t1
  let s2 := s1.eachFloe t (fun x => { x with collSteps := bump x.collSteps, verdictLate := if late then bump x.verdictLate else x.verdictLate })
  let s3 := s2.each t.group.childs (fun s e => s.sendTo e (s.stepPkt p t 4 origin 0 true false (verdictPayload t.kind v tres.toNat)) false)
  let s4 := match Tbl.find (s3.part p).steerPlan t.tag with
    | some plan => s3.planHold t.tag (BitVec.ofNat 4 plan) (Tbl.get [] (((s3.part p).image.getD {}).plans) plan)
    | none => s3
  (if late then s4.endVerdict p t1 else s4).pauseCheck p
/-- Report to the parent once the contribution and every child's report are there; the root's combine ends 60 ns later, where it sets T_RES, and sends the result down (spec/10 R351, Table 10-5; notes/assumptions/47.md). -/
def State.report (s : State) (p : Nat) (t : Step) : State :=
  match t.mine, t.childReports with
  | some m, some l =>
    let v := l.foldl VVal.combine m
    if t.group.parent = noEp then s.gotResult p t v (s.now + BitVec.ofNat 64 (60 + 1000 * t.group.guard)) t.group.self
    else s.sendTo t.group.parent (s.stepPkt p t 4 t.group.self 0 true false (verdictPayload t.kind v 0)) false
  | _, _ => s

/-! ## Attempts (spec/10 R345 to R349) -/

/-- The floe that keeps what the device remembers of a tag: the tag's floe, the partition's lowest for a verdict tag (notes/assumptions/30.md). -/
def State.tagKeeper (s : State) (p tag : Nat) : Nat :=
  match s.tagUse p tag with
  | some (.ring f) => f
  | some .tree | none => (s.partFloes p).headD 0
/-- Where the attempts seen of a tag are kept for one step (spec/10 R324). -/
def stepKey (tag : Nat) (step : Word) : Nat := tag + 65536 * step.toNat
/-- The highest attempt seen of a tag in a step (spec/10 R324, R349). -/
def State.tagHigh (s : State) (p tag : Nat) (step : Word) : Nat := Tbl.get 0 (s.floe (s.tagKeeper p tag)).tagAttempt (stepKey tag step)
/-- An attempt of a tag is seen in a step. -/
def State.sawAttempt (s : State) (p tag : Nat) (step : Word) (a : Nat) : State :=
  let f := s.tagKeeper p tag
  let x := s.floe f
  if Tbl.get 0 x.tagAttempt (stepKey tag step) < a then s.setFloe f { x with tagAttempt := x.tagAttempt.put (stepKey tag step) a } else s

/-- The bytes a member brings itself: its own segments of a PERMUTE, the whole sum of a ring of one (spec/10 R333, R342). -/
def State.ownCounts (s : State) (t : Step) : Tbl Nat :=
  match t.kind with
  | .reduceScatter | .allreduce => if t.group.n ≤ 1 then [(0, t.slice)] else []
  | .permute => (t.exch.out.filter (fun o => o.1 == epOf s.coord (((s.floePart t.floe).getD 0)) t.floe)).map (fun o => (o.2, t.seg))
  | .allgather | .rotate | .commit | .norm | .barrier => []
/-- The copies a member makes into its own destination at arming; the whole sum of a ring of one is a delivered slice, whose POISON and SAT are recorded (spec/10 R330, R333, R335, R342): that it counts as the second case of spec/01 R27, though nothing arrives, is a DESIGN CHOICE (notes/assumptions/134.md). -/
def State.ownCopies (s : State) (p : Nat) (t : Step) : State :=
  match t.kind with
  | .allgather => s.writePiece t.floe t.dDst (t.group.self * t.dSrc.dim0b) t.dSrc.dim0b 0 (s.readPiece t.dSrc 0 t.dSrc.dim0b)
  | .reduceScatter | .allreduce =>
    if t.group.n ≤ 1 then
      let l := s.ownSlice t 0 t.slice
      let s1 := s.put t.floe t.dDst.base l
      if anyFlag 3 l then s1.setRecord t.floe 1 else s1
    else s
  | .permute =>
    s.each (t.exch.out.mapIdx (fun i o => (i, o))) (fun s e =>
      if e.2.1 = epOf s.coord p t.floe then
        s.writePiece t.floe t.dDst (e.2.2 * t.segRows) t.segRows 0 (s.readPiece t.dSrc (e.1 * t.segRows) t.segRows)
      else s)
  | .rotate | .commit | .norm | .barrier => s
/-- Send every packet this member originates in the current attempt (spec/10 R330, R331, R333, R342, R351). -/
def State.originate (s : State) (p : Nat) (t : Step) : State :=
  let g := t.group
  match t.kind with
  | .allgather => if g.n ≤ 1 then s else s.sendRun p t g.succ g.self (g.self * t.piece) true (s.readPiece t.dSrc 0 t.dSrc.dim0b)
  | .rotate => s.sendRun p t g.succ g.self 0 true (s.readPiece t.dSrc 0 t.dSrc.dim0b)
  | .reduceScatter | .allreduce =>
    if g.n ≤ 1 then s else s.sendRun p t g.succ g.self (t.down * t.slice) true (s.ownSlice t (t.down * t.slice) t.slice)
  | .permute =>
    let away := (t.exch.out.mapIdx (fun i o => (i, o))).filter (fun e => e.2.1 != epOf s.coord p t.floe)
    s.each away (fun s e =>
      s.sendRun p t e.2.1 g.self (e.2.2 * t.seg) (away.getLast?.any (fun z => z.1 == e.1)) (s.readPiece t.dSrc (e.1 * t.segRows) t.segRows))
  | .commit | .norm | .barrier => s.report p t

/-- A complete step's release token: member 0 sends DONE, the others forward a DONE they hold (spec/10 R327). -/
def State.passDone (s : State) (p : Nat) (t : Step) : State :=
  if t.group.n ≤ 1 then s
  else if t.group.self = 0 || t.doneHeld then s.sendNotice p t t.group.succ 5 t.attempt 0 0 else s
/-- A step moves to an attempt: counts and DONE state cleared, its packets sent again (spec/10 R347). -/
def State.moveTo (s : State) (p : Nat) (t : Step) (a : Nat) : State :=
  let t1 := { t with attempt := a, counts := s.ownCounts t, doneHeld := false, reports := [], abandoned := false, begun := s.now, deadline := s.stepDeadline t.group }
  let s1 := ((s.sawAttempt p t.tag t.serial a).putStep p t1).eachFloe t (fun x => { x with collReplays := bump x.collReplays })
  let s2 := s1.originate p t1
  if t1.complete && t1.group.self = 0 && !t1.kind.isTree then s2.passDone p t1 else s2
/-- SLOW extends a step's deadline (spec/10 R345). -/
def State.slowStep (s : State) (p : Nat) (t : Step) : State :=
  let ext := s.now.toNat + min (8000 * t.group.timeout) 100000000
  let d := min (max t.deadline.toNat ext) (t.begun.toNat + 100000000)
  s.putStep p { t with deadline := BitVec.ofNat 64 d }

/-! ## Add units (spec/10 R337 to R340) -/

/-- The die of an add unit. -/
def addDie (u : Nat) : Nat := if u ≤ 2 || u = 6 then 0 else 1
/-- The in-service unit of a die with the fewest bytes bound, the lowest number of equals. -/
def Router.leastAdd (r : Router) (die : Nat) : Option Nat :=
  leastBy (fun u => Tbl.get 0 r.addBound u) ((List.range 7).filter (fun u => r.addIn.getLsbD u && addDie u == die))
/-- The unit a stream is bound to: of its input port's die, else of the other; a stream of a failed unit takes the free spare first (spec/10 R337, R339). -/
def Router.pickAdd (r : Router) (die : Nat) (spare : Bool) : Option Nat :=
  if spare && r.addIn.getLsbD 6 && Tbl.get 0 r.addBound 6 == 0 then some 6
  else match r.leastAdd die with
    | some u => some u
    | none => r.leastAdd (1 - die)
/-- The die of the port on which a ring's predecessor arrives: that of the last axis it travels (spec/09 R285). -/
def State.inDie (s : State) (t : Step) : Nat :=
  match ([2, 1, 0] : List Nat).find? (fun a => coordAt (epCoord t.group.pred) a != coordAt s.coord a) with
  | some a => axisDie a
  | none => s.floeDie t.floe
/-- Bytes bound to a unit, more or fewer. -/
def State.boundAdd (s : State) (u : Nat) (g : Nat → Nat) : State :=
  s.setRouter { s.router with addBound := s.router.addBound.put u (g (Tbl.get 0 s.router.addBound u)) }
/-- Bind a SHIFTADD step to an add unit. -/
def State.bindAdd (s : State) (t : Step) (spare : Bool) : State × Step :=
  match s.router.pickAdd (s.inDie t) spare with
  | some u => (s.boundAdd u (fun n => n + t.dSrc.elemBytes), { t with addUnit := some u })
  | none => (s, { t with addUnit := none })
/-- A step gives its add unit back. -/
def State.unbindAdd (s : State) (t : Step) : State :=
  match t.addUnit with
  | some u => s.boundAdd u (fun n => n - t.dSrc.elemBytes)
  | none => s
/-- A unit leaves service: the spare comes in if it is fit, and the unit's streams are bound again (spec/10 R337, R339). -/
def State.dropAdd (s : State) (u : Nat) : State :=
  let r := s.router
  let off := setBit r.addIn u false
  let spare := u != 6 && !r.addFailed.getLsbD 6 && !s.flash.addRetired.getLsbD 6
  let s1 := s.setRouter { r with addIn := if spare then setBit off 6 true else off }
  s1.each (List.range 8) (fun s p => s.each ((s.part p).steps.filter (fun t => t.addUnit == some u)) (fun s t =>
    let (s2, t1) := (s.unbindAdd t).bindAdd t true
    s2.putStep p t1))
/-- A rime check fails in a unit (spec/10 R339); a second failure retires it, and the loss of the last unit is a DEVICE error (spec/14 R485, Table 14-3). -/
def State.rimeFailed (s : State) (u : Nat) : State :=
  let s0 := if s.router.addFailed.getLsbD u then s.setFlash { s.flash with addRetired := setBit s.flash.addRetired u true } else s
  let s1 := s0.setRouter { s.router with rime := bump s.router.rime, addFailed := setBit s.router.addFailed u true }
  let s2 := s1.dropAdd u
  ((if s2.router.addIn = 0 && s.router.addIn ≠ 0 then s2.rasReport 3 else s2).raiseRouter 2).eventMgmt 0x21 (addDie u) (leBytes 1 u ++ zeros 3)

/-! ## Closing and failing (spec/10 R327, R344, R348, R353) -/

/-- The tags of a ring step. -/
def Step.reads (t : Step) : List Nat := readersOf [t.tagSrc] [t.tagDst]
/-- A ring step closes: its sources are released (spec/10 R327). -/
def State.closeStep (s : State) (p : Nat) (t : Step) : State :=
  let s1 := s.eachFloe t (fun x => { x.endReaders t.reads with collSteps := bump x.collSteps })
  ((s1.unbindAdd t).dropStep p t.tag).pauseCheck p
/-- FLOE_COLL_LAST_FAIL (spec/10 Table 10-12). -/
def Step.lastFail (t : Step) (reason : Nat) : DWord :=
  BitVec.ofNat 64 (t.tag + reason * 65536 + t.attempt * 2 ^ 20 + t.missing.length * 2 ^ 32)
/-- The COLL_FAIL event's payload (spec/12 Table 12-13). -/
def Step.failEvent (t : Step) (reason : Nat) : List Byte :=
  leBytes 2 t.group.gid ++ leBytes 2 t.tag ++ leBytes 4 t.serial.toNat ++ leBytes 1 t.attempt ++ leBytes 1 reason ++ zeros 2
    ++ leBytes 4 t.missing.length ++ (List.range 16).flatMap (fun i => leBytes 4 (t.missing.getD i 0xFFFFFFFF))
/-- A verdict's register comes free: it takes no value when the step fails (spec/06 R169). -/
def State.freeRreg (s : State) (t : Step) : State :=
  s.each t.issues (fun s i => s.setStream i.floe i.stream ((s.stream i.floe i.stream).endPend i.rreg))
/-- The steers that name a verdict end at its failure, and the plan stays (spec/10 R355). -/
def State.endSteers (s : State) (p tag : Nat) : State :=
  if (Tbl.find (s.part p).steerPlan tag).isSome then
    ((s.setPart p { s.part p with steers := (s.part p).steers.filter (fun z => z.rtag != tag) }).planDrop (fun e => e.tag == tag)).wakeWl
  else s
/-- The partition enters FAULTED with VERDICT_LOST (spec/10 R353, spec/12 R440). -/
def State.verdictLost (s : State) (p : Nat) (t : Step) : State :=
  let s1 := if s.inStep p then
      let s0 := s.stopStreams p
      (s0.setPart p { s0.part p with st := .faulted }).answerPause p 0x0E 3 0
    else s
  (s1.rasReport 2).eventOwner p 0x04 0xFF (leBytes 4 t.serial.toNat ++ leBytes 2 t.group.gid ++ leBytes 2 t.tag)
/-- A step fails (spec/10 R348, R353): counted and recorded on its floes, its tags released, reported unless an ABORT of the partition itself failed it. -/
def State.failStep (s : State) (p : Nat) (t : Step) (reason : Nat) (quiet : Bool) : State :=
  let s1 := s.eachFloe t (fun x =>
    let y := { x with record := setBit x.record 2 true, collFails := bump x.collFails, collLastFail := t.lastFail reason }
    if t.kind.isTree then y else let z := y.endReaders t.reads; if t.complete then z else z.endWriters [t.tagDst])
  let s2 := ((s1.unbindAdd t).freeRreg t).dropStep p t.tag
  let s3 := s2.setPart p { s2.part p with gone := t :: (s2.part p).gone }
  let s4 := if t.kind.isTree then s3.endSteers p t.tag else s3
  if quiet then s4
  else
    let s5 := s4.eventOwner p 0x05 0xFF (t.failEvent reason)
    match t.kind with
    | .commit => s5.verdictLost p t
    | .allgather | .rotate | .reduceScatter | .allreduce | .permute | .norm | .barrier => s5

/-! ## Whole partitions (spec/10 R346, R349, spec/12 R427 to R429, R440) -/

/-- Fail every open step with a FAIL notice; on an ABORT a commit whose result is held is applied first (spec/12 R429, R440). -/
def State.failOpen (s : State) (p reason : Nat) (quiet : Bool) : State :=
  let s1 := s.each (((s.part p).steps).filter (fun t => !t.isOpen)) (fun s t => if quiet then s.endVerdict p t else s)
  s1.each ((s1.part p).steps.filter (fun t => t.isOpen)) (fun s t => (s.around p t 3 t.attempt reason).failStep p t reason quiet)
/-- A partition's steps end with its release: their add units come free, and no plan of it comes in any more (spec/12 R422). -/
def State.abandonOpen (s : State) (p : Nat) : State :=
  let s1 := s.each (s.part p).steps (fun s t => s.unbindAdd t)
  if s1.steer = some p then (s1.planDrop (fun _ => true)).wakeWl else s1
/-- RESUME: each abandoned step goes one attempt above the highest it has seen, or fails with TIMEOUT (spec/10 R349). -/
def State.replayOpen (s : State) (p : Nat) : State :=
  s.each ((s.part p).steps.filter (fun t => t.abandoned)) (fun s t =>
    let a := max t.attempt (s.tagHigh p t.tag t.serial) + 1
    if 3 < a then (s.around p t 3 t.attempt 1).failStep p t 1 false
    else (s.around p { t with attempt := a } 2 a 0).moveTo p t a)
/-- The die's ACLK is below three quarters of the grade's nominal value (spec/10 R346, spec/15 Table 15-7b). -/
def State.slowed (s : State) (die : Nat) : Bool := (if s.variant.isM then 3 else 4) ≤ (s.therm die).dvfs
/-- A step's member is slowed. -/
def State.stepSlowed (s : State) (p : Nat) (t : Step) : Bool :=
  if t.kind.isTree then (s.partFloes p).any (fun f => s.slowed (s.floeDie f)) else s.slowed (s.floeDie t.floe)
/-- Send SLOW for some open steps of every partition (spec/10 R346). -/
def State.slowWhere (s : State) (g : Nat → Step → Bool) : State :=
  s.each (List.range 8) (fun s p => s.each ((s.part p).openSteps.filter (g p)) (fun s t => s.around p t 1 t.attempt 0))
/-- A die has been slowed: the members it holds send SLOW. -/
def State.slowDie (s : State) (die : Nat) : State :=
  s.slowWhere (fun p t => if t.kind.isTree then (s.partFloes p).any (fun f => s.floeDie f == die) else s.floeDie t.floe == die)
/-- A partition has been paused with open steps: they send SLOW. -/
def State.slowPart (s : State) (q : Nat) : State := s.slowWhere (fun p _ => p == q)
/-- Every instruction that the partition's streams have issued has completed. -/
def State.floesIdle (s : State) (p : Nat) : Bool := (s.partFloes p).all (fun f => allStreams.all (fun st => s.streamDone f st))
/-- The state of spec/12 R427 in every floe of a partition, and no step in flight. -/
def State.startFloes (s : State) (p : Nat) : State :=
  let s1 := s.each (s.partFloes p) (fun s f =>
    let x := s.floe f
    let clear := fun (y : StreamSt) => { y with ra0 := [], ra1 := [], pend := [], halting := false, wait := none }
    s.setFloe f { x with fwd := clear x.fwd, bwd := clear x.bwd, upd := clear x.upd, tags := [], bank0 := {}, bank1 := {}, mmas := [], drains := [], tq := [],
                         vu := .idle, xfers := [], push := none, pop := none, slds := [], stashed := [], early := [], tagAttempt := [],
                         record := 0, curValid := false, mirTx := {} })
  s1.setPart p { s1.part p with steps := [], steers := [], steerPlan := [], verdictDone := [], committing := false, gone := [],
                                mirGot := [], mirWant := [] }

end Sys2Proof.Machine
end

