-- ==== Sys2Proof/Machine/Collectives.lean ====
section
/-! DEFINITION. Collectives: COLL.SHIFT, SHIFTADD, PERMUTE, VERDICT and STEER, their packets and notices, their timers, mirror transfers (spec/10). -/

namespace Sys2Proof.Machine

/-! ## The early region (spec/10 R324) -/

/-- Bytes a held packet occupies. -/
def MeshPkt.heldSize (q : MeshPkt) : Nat := roundUp (32 + q.payload.length) 32
/-- Hold a packet for a step that is not armed, or discard it: EJECT where the early region is full or the floe is being copied (spec/14 R482), STALE for another STEP or a lower ATTEMPT. A verdict packet has no limit (notes/assumptions/30.md). -/
def State.holdEarly (s : State) (p : Nat) (limit : Bool) (q : MeshPkt) : State :=
  let f := s.tagKeeper p q.tag
  let x := s.floe f
  let n := (s.part p).serial
  if (q.step == n || q.step == n + 1) && Tbl.get 0 x.tagAttempt (stepKey q.tag q.step) ≤ q.attempt then
    if limit && x.copying then s.discard 13
    else if limit && x.earlySize.toNat < x.early.foldl (fun a e => a + e.heldSize) q.heldSize then s.discard 13
    else (s.setFloe f { x with early := x.early ++ [q] }).sawAttempt p q.tag q.step q.attempt
  else s.discard 14

/-! ## Data packets of a ring step (spec/10 R330 to R335, R342 to R344, R566) -/

/-- DHASH differs, or a PERMUTE slot belongs to another source member (spec/10 R344). -/
def Step.mismatch (t : Step) (q : MeshPkt) : Bool :=
  q.dhash != t.dhash || (t.kind == .permute && (match t.exch.inn[q.offset / t.seg]? with
    | some e => e.1 != q.member
    | none => false))
/-- A SHIFTADD packet of a gather chain: its MEMBER owns the slice (spec/10 R334). -/
def Step.gathers (t : Step) (q : MeshPkt) : Bool := t.kind == .allreduce && q.member == q.offset / t.slice
/-- OFFSET and LENGTH lie within the bytes expected from the origin (spec/10 R566). -/
def Step.within (t : Step) (q : MeshPkt) : Bool :=
  let n := q.payload.length
  let k := q.offset / t.slice
  q.typ == t.kind.typ && q.member < t.group.n && q.member != t.group.self && (match t.kind with
    | .allgather => q.member * t.piece ≤ q.offset && q.offset + n ≤ (q.member + 1) * t.piece
    | .rotate => q.offset + n ≤ t.piece && (t.group.self + t.group.n - q.member) % t.group.n ≤ t.dist
    | .reduceScatter | .allreduce =>
      k < t.group.n && q.offset % t.slice % 68 == 0 && n % 68 == 0 && q.offset % t.slice + n ≤ t.slice
        && (t.gathers q || q.member == (k + 1) % t.group.n)
    | .permute => q.offset / t.seg < t.exch.inn.length && q.offset % t.seg + n ≤ t.seg
    | .commit | .norm | .barrier => false)

/-- Forward a packet to the successor (spec/10 R330, R335). -/
def State.passOn (s : State) (t : Step) (q : MeshPkt) (stomp : Bool) : State := s.sendTo t.group.succ q stomp
/-- Deliver a packet's bytes to the floe and count them; a member that is complete keeps its destination (spec/10 R326, R347). -/
def State.deliver (s : State) (p : Nat) (t : Step) (key n : Nat) (w : State → State) : State :=
  if t.complete then s else (w s).putStep p (t.count key n)
/-- A packet copied in passing (spec/10 R330, R334, Table 10-13). -/
def State.copyOn (s : State) (t : Step) (q : MeshPkt) (stomp : Bool) : State :=
  (s.setRouter { s.router with copyBytes := s.router.copyBytes + BitVec.ofNat 64 q.payload.length }).passOn t q stomp

/-- The BS16 blocks of some bytes. -/
def bsBlocks (l : List Byte) : List (Bs × Bool) := (List.range (l.length / 68)).map (fun i => bsParse (sliceB l (68 * i) 68))
/-- The sum of a passing packet and own data, block by block (spec/02 R54), and the malformed blocks met (spec/02 R50). -/
def addBlocks (a b : List Byte) : List Byte × Nat :=
  let x := bsBlocks a
  let y := bsBlocks b
  ((List.zipWith (fun u v => (bsAdd u.1 v.1).bytes) x y).flatten, ((x ++ y).filter (fun e => e.2)).length)
/-- Add a packet in passing or, at the slice's owner, last (spec/10 R333 to R335, R337 to R340). `rime` says that the unit's rime check fails. -/
def State.addPkt (s : State) (p : Nat) (t : Step) (q : MeshPkt) (stomp rime : Bool) : State :=
  let (s0, t0) := match t.addUnit with
    | some _ => (s, t)
    | none => let (s1, t1) := s.bindAdd t false
              (s1.putStep p t1, t1)
  match t0.addUnit with
  | none => s0.discard 10
  | some u =>
    let n := q.payload.length
    let own := s0.ownSlice t0 q.offset n
    let (sum, bad) := addBlocks q.payload own
    let s1 := s0.noteRange (some t0.floe) [] (t0.dSrc.base + q.offset) n
    let s2 := (s1.each (List.range bad) (fun s _ => s.countErr s.lead 0xA0)).setRouter { s1.router with addBytes := s1.router.addBytes + BitVec.ofNat 64 n }
    let s3 := if rime then s2.rimeFailed u else s2
    let t1 := (s3.stepOf p t0.tag).getD t0
    let out := { q with payload := sum, poison := q.poison || anyFlag 1 own || anyFlag 1 sum }
    let k := q.offset / t1.slice
    let lost := stomp || rime
    if k ≠ t1.group.self then s3.passOn t1 out lost
    else
      let s4 := if t1.kind == .allreduce then s3.passOn t1 { out with member := t1.group.self } lost else s3
      if lost then s4.discard 6
      else
        let s5 := if anyFlag 3 sum && !t1.complete then s4.setRecord t1.floe 1 else s4
        s5.deliver p t1 k n (fun s => s.put t1.floe (t1.addDst q.offset) sum)

/-- Use a checked packet of an armed step (spec/10 R330, R331, R334, R342). -/
def State.usePkt (s : State) (p : Nat) (t : Step) (q : MeshPkt) (stomp rime : Bool) : State :=
  let n := q.payload.length
  match t.kind with
  | .allgather =>
    let s1 := if t.up = q.member then s else s.copyOn t q stomp
    if stomp then s1.discard 6
    else s1.deliver p t q.member n (fun s =>
      s.writePiece t.floe t.dDst (q.member * t.dSrc.dim0b) t.dSrc.dim0b (q.offset - q.member * t.piece) q.payload)
  | .rotate =>
    if (q.member + t.dist) % t.group.n ≠ t.group.self then s.passOn t q stomp
    else if stomp then s.discard 6
    else s.deliver p t q.member n (fun s => s.writePiece t.floe t.dDst 0 t.dSrc.dim0b q.offset q.payload)
  | .reduceScatter | .allreduce =>
    if t.gathers q then
      let s1 := if t.up = q.member then s else s.copyOn t q stomp
      if stomp then s1.discard 6
      else s1.deliver p t (q.offset / t.slice) n (fun s => s.put t.floe (t.dDst.base + q.offset) q.payload)
    else s.addPkt p t q stomp rime
  | .permute =>
    let k := q.offset / t.seg
    if stomp then s.discard 6
    else s.deliver p t k n (fun s => s.writePiece t.floe t.dDst (k * t.segRows) t.segRows (q.offset - k * t.seg) q.payload)
  | .commit | .norm | .barrier => s

/-- A mismatch: refused, MISMATCH to the last sender, the step failed with DESC_MISMATCH, FAIL sent around (spec/10 R344). -/
def State.mismatched (s : State) (p : Nat) (t : Step) (q : MeshPkt) : State :=
  let tgt := if t.kind == .permute || t.kind.isTree then epOfAddr q.src else t.group.pred
  ((((s.discard 15).sendNotice p t tgt 4 t.attempt 0 t.group.self).around p t 3 t.attempt 2).failStep p t 2 false).pauseCheck p
/-- A data packet of an armed ring step (spec/10 R298, R344, R347, R349, R566). -/
def State.armedPkt (s : State) (p : Nat) (t : Step) (q : MeshPkt) (stomp rime : Bool) : State :=
  if stomp then
    if !t.abandoned && q.attempt = t.attempt && !t.mismatch q && t.within q then s.usePkt p t q true rime else s.discard 6
  else
    let s0 := s.sawAttempt p t.tag t.serial q.attempt
    if t.abandoned || q.attempt < t.attempt then s0.discard 14
    else if t.mismatch q then s0.mismatched p t q
    else
      let s1 := if t.attempt < q.attempt then s0.moveTo p t q.attempt else s0
      let s2 := if q.slow then s1.slowStep p ((s1.stepOf p t.tag).getD t) else s1
      let t2 := (s2.stepOf p t.tag).getD t
      if !t2.within q then s2.discard 15 else s2.usePkt p t2 q false rime

/-! ## Notices (spec/10 R327, R328, R344 to R348) -/

/-- The fields of a notice. -/
def noticeKind (q : MeshPkt) : Nat := beAt q.payload 0 1
def noticeAtt (q : MeshPkt) : Nat := beAt q.payload 1 1
def noticeOrigin (q : MeshPkt) : Nat := bitsOf (beAt q.payload 4 4) 0 18
/-- Forward a notice the first time it is seen for its attempt and origin, never past its origin (spec/10 R328); in a tree to every neighbour but the sender (notes/assumptions/31.md). Answers the step with the notice noted. -/
def State.forwardNotice (s : State) (t : Step) (q : MeshPkt) : State × Step :=
  let key := (noticeKind q, noticeAtt q, noticeOrigin q)
  if t.seen.contains key then (s, t)
  else
    let tgts := if t.kind.isTree then t.outs.filter (fun e => !sameMember e (epOfAddr q.src))
      else if t.up = noticeOrigin q then [] else t.outs
    let r := if t.kind.isTree then { q with src := s.addr s.coord false ((s.floePart t.floe).getD 0) } else q
    (s.each tgts (fun s e => s.sendTo e r false), { t with seen := key :: t.seen })
/-- SLOW, REPLAY, FAIL and MISMATCH at an armed step, ring or tree. -/
def State.stepNotice (s : State) (p : Nat) (t : Step) (q : MeshPkt) : State :=
  let (s1, t1) := s.forwardNotice t q
  let s2 := s1.putStep p t1
  match noticeKind q with
  | 1 => s2.slowStep p t1
  | 2 => if t1.attempt < noticeAtt q then s2.moveTo p t1 (noticeAtt q) else s2
  | 3 => (s2.failStep p t1 3 false).pauseCheck p
  | _ => (s.failStep p t 2 false).pauseCheck p
/-- DONE and CLOSE at an armed ring step (spec/10 R327); one of a newer attempt moves the member as a data packet does (notes/assumptions/31.md). -/
def State.tokenNotice (s : State) (p : Nat) (t : Step) (q : MeshPkt) : State :=
  if noticeAtt q < t.attempt then s.discard 14
  else
    let s1 := if t.attempt < noticeAtt q then s.moveTo p t (noticeAtt q) else s
    let t1 := (s1.stepOf p t.tag).getD t
    if noticeKind q = 5 then
      if t1.group.self = 0 then
        if t1.complete then (s1.sendNotice p t1 t1.group.succ 6 t1.attempt 0 0).closeStep p t1 else s1.discard 14
      else
        let t2 := { t1 with doneHeld := true }
        let s2 := s1.putStep p t2
        if t2.complete then s2.passDone p t2 else s2
    else
      let s2 := if t1.group.self + 1 = t1.group.n then s1 else s1.sendNotice p t1 t1.group.succ 6 t1.attempt 0 0
      s2.closeStep p t1
/-- A notice at an armed step. -/
def State.armedNotice (s : State) (p : Nat) (t : Step) (q : MeshPkt) : State :=
  let s1 := s.sawAttempt p t.tag t.serial q.attempt
  if t.abandoned then s1.discard 14
  else if noticeKind q ≤ 4 then s1.stepNotice p t q
  else if t.kind.isTree then s1.discard 0
  else s1.tokenNotice p t q

/-! ## Verdict packets (spec/10 R351) -/

/-- A VERDICT packet of an armed verdict: a child's report (T_RES 0) is combined, the parent's result (another T_RES) taken, any other refused. -/
def State.verdictPkt (s : State) (p : Nat) (t : Step) (q : MeshPkt) : State :=
  let s0 := s.sawAttempt p t.tag t.serial q.attempt
  if t.abandoned || q.attempt < t.attempt then s0.discard 14
  else if q.dhash != t.dhash then s0.mismatched p t q
  else
    let s1 := if t.attempt < q.attempt then s0.moveTo p t q.attempt else s0
    let s2 := if q.slow then s1.slowStep p ((s1.stepOf p t.tag).getD t) else s1
    let t1 := (s2.stepOf p t.tag).getD t
    let sender := epOfAddr q.src
    let tres := beAt q.payload 12 8
    if tres ≠ 0 then
      (if t1.group.parent != noEp && sameMember t1.group.parent sender then s2.gotResult p t1 (readVerdict q.payload) (BitVec.ofNat 64 tres) q.member else s2.discard 15)
    else match (List.range t1.group.childs.length).find? (fun i => sameMember (t1.group.childs.getD i noEp) sender) with
      | some i =>
        let t2 := { t1 with reports := t1.reports.put i (readVerdict q.payload) }
        (s2.putStep p t2).report p t2
      | none => s2.discard 15

/-! ## Mirror transfers at both ends (spec/10 R357, spec/07 R228 to R231) -/

/-- The key under which a sender's mirror bytes are counted: its endpoint, its step and attempt. -/
def mirKey (q : MeshPkt) : Nat :=
  2 ^ 32 * (q.step.toNat * 4 + q.attempt) + (epOfAddr q.src + q.member % 256)
/-- The payload of a mirror notice: a DONE or FAIL with a byte total; an answer's origin is 0xFF (notes/assumptions/32.md). -/
def mirrorPayload (kind att reason origin total : Nat) : List Byte :=
  (noticePayload kind att reason origin).take 8 ++ beBytes 8 total ++ zeros 16
/-- A notice that concerns a mirror transfer: bytes 8-15 hold a total. -/
def isMirrorNotice (q : MeshPkt) : Bool := q.typ == 5 && beAt q.payload 8 8 != 0
/-- A packet of partition p's mirror transfers to an endpoint. -/
def State.mirrorPkt (s : State) (p typ ch f tag att off : Nat) (l : List Byte) : MeshPkt :=
  { src := s.addr s.coord false p, ch := ch, typ := typ, tag := tag, member := f, attempt := att, offset := off, step := (s.part p).serial, payload := l }
/-- The buddy of a partition. -/
def State.buddy (s : State) (p : Nat) : Nat := ((s.part p).image.getD {}).buddy
/-- Send one run of mirrored bytes of a floe: (pair index, offset, address, length). -/
def State.sendMirror (s : State) (p f : Nat) (r : Nat × Nat × Nat × Nat) : State :=
  let l := s.fill [] r.2.2.1 r.2.2.2
  s.each (List.range ((l.length + 4351) / 4352)) (fun s i =>
    s.sendTo (s.buddy p) (s.mirrorPkt p 6 6 f r.1 (s.floe f).mirTx.attempt (r.2.1 + 4352 * i) (sliceB l (4352 * i) 4352)) false)
/-- Announce a floe's total to the buddy, once its UPDs have completed; its timer of 200 us runs from there (spec/10 R357). -/
def State.tellMirror (s : State) (p f : Nat) : State :=
  let x := s.floe f
  if x.mirTx.sent = 0 || x.mirTx.told then s
  else
    (s.setFloe f { x with mirTx := { x.mirTx with told := true, deadline := s.now + 200000#64 } }).sendTo (s.buddy p)
      (s.mirrorPkt p 5 1 f 0 x.mirTx.attempt 0 (mirrorPayload 5 x.mirTx.attempt 0 f x.mirTx.sent)) false
/-- A mirror transfer has failed: the floe's record says so (spec/10 Table 10-8). -/
def State.failMirror (s : State) (f : Nat) : State :=
  let x := s.floe f
  s.setFloe f { x with mirTx := { x.mirTx with failed := true }, record := setBit x.record 3 true }
/-- Answer a sender. -/
def State.answerMirror (s : State) (p : Nat) (q : MeshPkt) (kind reason total : Nat) : State :=
  s.sendTo (epOfAddr q.src) (s.mirrorPkt p 5 1 q.member 0 q.attempt 0 (mirrorPayload kind q.attempt reason 0xFF total)) false
/-- The buddy has counted a floe's whole total: the transfer is confirmed and its bytes have completed (spec/07 R231, Table 7-11). -/
def Floe.mirrorDone (x : Floe) : Floe :=
  { x with mirTx := { x.mirTx with confirmed := true, done := x.mirTx.sent },
           mirBytes := x.mirBytes + BitVec.ofNat 64 (x.mirTx.sent - x.mirTx.done) }
/-- A mirror notice of the current step: the buddy's answer, a sender's total, or its REPLAY, whose attempt counts its bytes anew. An answer to an earlier total changes nothing. -/
def State.mirrorNotice (s : State) (p : Nat) (q : MeshPkt) : State :=
  let total := beAt q.payload 8 8
  if q.step != (s.part p).serial then s.discard 14
  else if noticeOrigin q = 0xFF then
    let f := q.member
    let x := s.floe f
    if s.floePart f != some p || q.attempt != x.mirTx.attempt then s.discard 14
    else if noticeKind q = 5 then (if x.mirTx.told && !x.mirTx.confirmed && total = x.mirTx.sent then s.setFloe f x.mirrorDone else s)
    else s.failMirror f
  else if noticeKind q != 5 then s
  else
    let k := mirKey q
    if Tbl.get 0 (s.part p).mirGot k = total then s.answerMirror p q 5 0 total
    else s.setPart p { s.part p with mirWant := (s.part p).mirWant.put k total }
/-- A MIRROR packet at the buddy: written into the non-current half and counted; without a map entry, or outside the grant, refused (spec/07 R230, spec/10 R357). -/
def State.mirrorIn (s : State) (p : Nat) (q : MeshPkt) : State :=
  let x := s.part p
  let n := q.payload.length
  if q.step != x.serial then s.discard 14
  else match ((x.image.getD {}).mirMap).find? (fun e => e.1 == q.member && e.2.1 == q.tag) with
    | none => (s.discard 15).answerMirror p q 3 2 n
    | some e =>
      let a := (if x.mirHalf then e.2.2.1 else e.2.2.2) + q.offset
      if (s.accessFault p a n).isSome then (s.discard 15).answerMirror p q 3 2 n
      else
        let s1 := (s.writeMem none [] a q.payload).1
        let k := mirKey q
        let got := Tbl.get 0 x.mirGot k + n
        let y := s1.part p
        let s2 := s1.setPart p { y with mirGot := y.mirGot.put k got }
        if Tbl.find y.mirWant k = some got then (s2.setPart p { s2.part p with mirWant := y.mirWant.del k }).answerMirror p q 5 0 got else s2
/-- A mirror transfer's timer expires: REPLAY is sent and the bytes again, up to three times, then it has failed (spec/10 R347, R348, R357). -/
def State.mirrorTimeout (s : State) (p f : Nat) : State :=
  let x := s.floe f
  let m := x.mirTx
  if m.sent = 0 || !m.told || m.confirmed || m.failed then s
  else if 3 ≤ m.attempt then s.failMirror f
  else
    let a := m.attempt + 1
    let s1 := s.setFloe f { x with mirTx := { m with attempt := a, told := false } }
    let s2 := s1.sendTo (s1.buddy p) (s1.mirrorPkt p 5 1 f 0 a 0 (mirrorPayload 2 a 0 f m.sent)) false
    (s2.each m.runs (fun s r => s.sendMirror p f r)).tellMirror p f

/-! ## Arrival -/

/-- The armed step a packet belongs to (spec/10 R323, R324). -/
def State.armedFor (s : State) (p : Nat) (q : MeshPkt) : Option Step :=
  match s.stepOf p q.tag with
  | some t => if t.isOpen && t.serial == q.step then some t else none
  | none => none
/-- A collective packet at its partition (spec/09 R300, spec/10 R317, R324). -/
def State.collPkt (s : State) (q : MeshPkt) (stomp rime : Bool) : State :=
  let p := q.part
  if !s.inStep p then s.discard 9
  else if isMirrorNotice q then s.mirrorNotice p q
  else match s.tagUse p q.tag with
    | none => s.discard 15
    | some u =>
      let tree := u == TagUse.tree
      if q.typ != 5 && tree != (q.typ == 4) then s.discard 15
      else match s.armedFor p q with
        | some t =>
          if q.typ = 5 then s.armedNotice p t q else if tree then s.verdictPkt p t q else s.armedPkt p t q stomp rime
        | none =>
          if stomp then s.discard 6
          else match (s.part p).gone.find? (fun t => t.tag == q.tag && t.serial == q.step) with
            | some t =>
              if q.typ = 5 && noticeKind q = 3 then
                let (s1, t1) := s.forwardNotice t q
                s1.setPart p { s1.part p with gone := (s1.part p).gone.map (fun u => if u.tag == t.tag && u.serial == t.serial then t1 else u) }
              else s.holdEarly p (!tree) q
            | none => s.holdEarly p (!tree) q
/-- Arming processes the packets held for the tag in their order of arrival (spec/10 R324). -/
def State.wakeEarly (s : State) (p tag : Nat) : State :=
  let f := s.tagKeeper p tag
  let x := s.floe f
  (s.setFloe f { x with early := x.early.filter (fun q => q.tag != tag || q.part != p) }).each
    (x.early.filter (fun q => q.tag == tag && q.part == p)) (fun s q => s.collPkt q false false)

/-- Take the first waiting packet of a kind and handle it (spec/09 R299). -/
def State.onPkt (s : State) (g : MeshPkt → Bool) (h : State → Arrived → State) : State :=
  match s.takePkt g with
  | none => s
  | some (a, s1) => h s1 a
/-- The first waiting notice of a kind. A mirror notice of the sender's next step waits, as its MIRROR packets do, until this device's own verdict completes. -/
def State.onNotice (s : State) (kind : Nat) : State :=
  s.onPkt (fun q => q.typ == 5 && noticeKind q == kind && !(isMirrorNotice q && q.step == (s.part q.part).serial + 1)) (fun s a => s.collPkt a.p a.stomp false)

/-- SHIFT (spec/10 R330, R331). -/
def execShift (s : State) : Host.Outcome State Fault Refusal :=
  .next (s.onPkt (fun q => q.typ == 1) (fun s a => s.collPkt a.p a.stomp false))
/-- SHIFTADD (spec/10 R333, R334). -/
def execShiftAdd (rimeFail : Bool) (s : State) : Host.Outcome State Fault Refusal :=
  .next (s.onPkt (fun q => q.typ == 2) (fun s a => s.collPkt a.p a.stomp rimeFail))
/-- PERMUTE (spec/10 R342). -/
def execPermute (s : State) : Host.Outcome State Fault Refusal :=
  .next (s.onPkt (fun q => q.typ == 3) (fun s a => s.collPkt a.p a.stomp false))
/-- VERDICT (spec/10 R351). -/
def execVerdict (s : State) : Host.Outcome State Fault Refusal :=
  .next (s.onPkt (fun q => q.typ == 4) (fun s a => s.collPkt a.p a.stomp false))
/-- NOTICE_SLOW (spec/10 R345). -/
def execNoticeSlow (s : State) : Host.Outcome State Fault Refusal := .next (s.onNotice 1)
/-- NOTICE_REPLAY (spec/10 R347). -/
def execNoticeReplay (s : State) : Host.Outcome State Fault Refusal := .next (s.onNotice 2)
/-- NOTICE_FAIL (spec/10 R344, R348). -/
def execNoticeFail (s : State) : Host.Outcome State Fault Refusal := .next (s.onNotice 3)
/-- NOTICE_MISMATCH (spec/10 R344). -/
def execNoticeMismatch (s : State) : Host.Outcome State Fault Refusal := .next (s.onNotice 4)
/-- NOTICE_DONE (spec/10 R327). -/
def execNoticeDone (s : State) : Host.Outcome State Fault Refusal := .next (s.onNotice 5)
/-- NOTICE_CLOSE (spec/10 R327). -/
def execNoticeClose (s : State) : Host.Outcome State Fault Refusal := .next (s.onNotice 6)
/-- MIRROR (spec/07 R230): a packet of the sender's next step waits until this device's own verdict completes. -/
def execMirror (s : State) : Host.Outcome State Fault Refusal :=
  .next (s.onPkt (fun q => q.typ == 6 && q.step != (s.part q.part).serial + 1) (fun s a =>
    if s.inStep a.p.part then s.mirrorIn a.p.part a.p else s.discard 9))
/-- BULK (spec/09 R299, R300): held whole, then delivered; what its bytes mean to their endpoint is the program's (notes/assumptions/33.md). -/
def execBulk (s : State) : Host.Outcome State Fault Refusal :=
  .next (s.onPkt (fun q => q.typ == 7) (fun s a =>
    if idMgmt (idOf a.p.dst) || s.inStep a.p.part then s else s.discard 9))

/-! ## Acceptance (spec/10 R318 to R323, Tables 10-2, 10-3) -/

/-- A collective instruction of an opcode and kind. -/
def isColl (k : StepKind) (w : IWord) : Bool := opOf w == k.code.1 && collKind w == k.code.2

/-- The formats of a ring step (spec/10 R329, R331, R332, R341). -/
def ringFormatOk (k : StepKind) (a b : Desc) : Bool :=
  match k with
  | .allgather | .rotate => a.fmt == b.fmt && a.shape == b.shape && a.occ == b.occ && a.isMeta == b.isMeta
  | .reduceScatter | .allreduce => a.fmt == 7 && b.fmt == 7 && !a.isMeta && !b.isMeta
  | .permute => packTensorOk a && packTensorOk b && a.fmt == b.fmt && a.shape == b.shape && a.occ == b.occ
  | .commit | .norm | .barrier => false
/-- The sizes of a ring step. -/
def ringGeometryOk (k : StepKind) (a b : Desc) (n : Nat) (x : Exchange) : Bool :=
  match k with
  | .allgather => b.dim0b == n * a.dim0b && a.dim1b == b.dim1b && (!a.occ || a.dim0b * a.dim1b % 8 == 0)
  | .rotate => a.dim0b == b.dim0b && a.dim1b == b.dim1b
  | .reduceScatter => 1024 * a.dim0b * a.dim1b % (32 * n) == 0 && b.dim0b * b.dim1b * n == a.dim0b * a.dim1b
  | .allreduce => 1024 * a.dim0b * a.dim1b % (32 * n) == 0 && b.dim0b * b.dim1b == a.dim0b * a.dim1b
  | .permute => a.dim1b == b.dim1b && 32 * a.dim0b == x.e * x.c && 32 * b.dim0b == x.inn.length * x.c
  | .commit | .norm | .barrier => false
/-- The lowest fault of a ring instruction; none where it is accepted (spec/10 Table 10-3). -/
def State.ringFault (s : State) (p f : Nat) (k : StepKind) (w : IWord) : Option Nat :=
  match s.desc f (collSrc w), s.desc f (collDst w) with
  | some a, some b =>
    let z := s.floe f
    let g := (Tbl.find z.groups (collGroup w)).getD {}
    let n := g.n
    let acc := s.touchFault f a.planes b.planes
    if acc.isSome then acc
    else if (Tbl.find z.groups (collGroup w)).isNone || g.tree || (k == .rotate && (collDist w == 0 || n ≤ collDist w))
        || (k == .permute && (Tbl.find z.exchs (collGroup w)).isNone) then some 0x70
    else if !ringFormatOk k a b then some 0x71
    else if !ringGeometryOk k a b n ((Tbl.find z.exchs (collGroup w)).getD {}) then some 0x72
    else if s.tagUse p (collTag w) != some (.ring f) || (s.stepOf p (collTag w)).isSome then some 0x73
    else if (if k == .permute then collCh w != 3 else collCh w != 1 && collCh w != 2) then some 0x74
    else if !a.inScratch f || !b.inScratch f then some 0x75
    else none
  | _, _ => some 0x03
/-- Arm a ring step: own copies made, an add unit bound, its packets sent, the held packets processed (spec/10 R323, R324, R330, R337). -/
def State.arm (s : State) (p : Nat) (t : Step) : State :=
  let t1 := { t with dhash := t.hash, counts := s.ownCounts t, begun := s.now, deadline := s.stepDeadline t.group }
  let (s1, t2) := if t.kind.adds then s.bindAdd t1 false else (s, t1)
  let s2 := s1.setPart p { s1.part p with steps := (s1.part p).steps ++ [t2] }
  ((s2.ownCopies p t2).originate p t2).wakeEarly p t2.tag
/-- Accept a ring instruction (spec/10 R318, R321). -/
def State.ringAccept (s : State) (f : Nat) (st : Stream) (arb : Arb) (k : StepKind) (w : IWord) : State :=
  match s.floePart f with
  | none => s
  | some p =>
    if s.ringWaits f w then s
    else s.grant f 4 st arb [collSrc w, collDst w] (fun s => s.ringFault p f k w) (fun s =>
      let x := s.floe f
      let a := (s.desc f (collSrc w)).getD {}
      let t : Step := { floe := f, stream := st, tag := collTag w, kind := k, ch := collCh w, gidx := collGroup w,
                        group := (Tbl.find x.groups (collGroup w)).getD {}, exch := (Tbl.find x.exchs (collGroup w)).getD {},
                        dist := collDist w, serial := (s.part p).serial, dSrc := a, dDst := (s.desc f (collDst w)).getD {},
                        tagSrc := collSrc w, tagDst := collDst w }
      let s1 := (s.setFloe f (x.take [collSrc w] [collDst w])).issue f st
      (s1.each a.planes (fun s r => s.noteRange (some f) arb.errs r.1 r.2)).arm p t)
/-- COLL.SHIFT ALLGATHER (spec/10 R329, R330). -/
def execCollShiftAllgather (f : Nat) (st : Stream) (arb : Arb) (s : State) : Host.Outcome State Fault Refusal :=
  .next (s.inCycle f st fun s => s.onHead f st (isColl .allgather) (fun w => s.ringAccept f st arb .allgather w))
/-- COLL.SHIFT ROTATE (spec/10 R331). -/
def execCollShiftRotate (f : Nat) (st : Stream) (arb : Arb) (s : State) : Host.Outcome State Fault Refusal :=
  .next (s.inCycle f st fun s => s.onHead f st (isColl .rotate) (fun w => s.ringAccept f st arb .rotate w))
/-- COLL.SHIFTADD REDUCESCATTER (spec/10 R332, R333). -/
def execCollReduceScatter (f : Nat) (st : Stream) (arb : Arb) (s : State) : Host.Outcome State Fault Refusal :=
  .next (s.inCycle f st fun s => s.onHead f st (isColl .reduceScatter) (fun w => s.ringAccept f st arb .reduceScatter w))
/-- COLL.SHIFTADD ALLREDUCE (spec/10 R334). -/
def execCollAllreduce (f : Nat) (st : Stream) (arb : Arb) (s : State) : Host.Outcome State Fault Refusal :=
  .next (s.inCycle f st fun s => s.onHead f st (isColl .allreduce) (fun w => s.ringAccept f st arb .allreduce w))
/-- COLL.PERMUTE (spec/10 R341, R342). -/
def execCollPermute (f : Nat) (st : Stream) (arb : Arb) (s : State) : Host.Outcome State Fault Refusal :=
  .next (s.inCycle f st fun s => s.onHead f st (isColl .permute) (fun w => s.ringAccept f st arb .permute w))

/-- The lowest fault of a COLL.VERDICT (spec/10 Table 10-3). -/
def State.verdictFault (s : State) (p f : Nat) (w : IWord) : Option Nat :=
  match Tbl.find (s.floe f).groups (collGroup w) with
  | none => some 0x70
  | some g =>
    if !g.tree then some 0x70
    else if s.tagUse p (collTag w) != some .tree || (s.stepOf p (collTag w)).any (fun t => t.issues.any (fun i => i.floe == f)) then some 0x73
    else if collCh w ≠ 1 then some 0x74
    else none
/-- The vector engine runs an UPD. -/
def VecUnit.isUpd : VecUnit → Bool
  | .upd _ => true
  | .idle | .pass _ | .cond _ => false
/-- Accept a COLL.VERDICT (spec/10 R318, R321, R350): the first floe arms the partition's step, each floe adds its own values. -/
def State.verdictAccept (s : State) (f : Nat) (st : Stream) (arb : Arb) (k : StepKind) (w : IWord) : State :=
  match s.floePart f with
  | none => s
  | some p =>
    if s.verdictWaits f st w then s
    else s.grant f 4 st arb [] (fun s => s.verdictFault p f w) (fun s =>
      let x := s.floe f
      let y := x.stream st
      let i : Issue := { floe := f, stream := st, rreg := verdictRreg w, creg := BitVec.ofNat 8 (y.regLow 8 (verdictCreg w)),
                         nreg := y.reg32 (verdictNreg w), upd := x.vu.isUpd }
      let s1 := (s.setStream f st (y.addPend (verdictRreg w))).issue f st
      let s2 := if k == .commit && !i.upd then s1.tellMirror p f else s1
      match s.stepOf p (collTag w) with
      | some t => s2.putStep p { t with issues := t.issues ++ [i] }
      | none =>
        let t : Step := { floe := f, stream := st, tag := collTag w, kind := k, ch := 1, gidx := collGroup w,
                          group := (Tbl.find x.groups (collGroup w)).getD {}, serial := (s.part p).serial, issues := [i] }
        let t1 := { t with dhash := t.hash, begun := s.now, deadline := s.stepDeadline t.group }
        (s2.setPart p { s2.part p with steps := (s2.part p).steps ++ [t1] }).wakeEarly p t1.tag)
/-- COLL.VERDICT COMMIT (spec/10 R350). -/
def execCollVerdictCommit (f : Nat) (st : Stream) (arb : Arb) (s : State) : Host.Outcome State Fault Refusal :=
  .next (s.inCycle f st fun s => s.onHead f st (isColl .commit) (fun w => s.verdictAccept f st arb .commit w))
/-- COLL.VERDICT NORM (spec/07 R227). -/
def execCollVerdictNorm (f : Nat) (st : Stream) (arb : Arb) (s : State) : Host.Outcome State Fault Refusal :=
  .next (s.inCycle f st fun s => s.onHead f st (isColl .norm) (fun w => s.verdictAccept f st arb .norm w))
/-- COLL.VERDICT BARRIER (spec/10 R352). -/
def execCollVerdictBarrier (f : Nat) (st : Stream) (arb : Arb) (s : State) : Host.Outcome State Fault Refusal :=
  .next (s.inCycle f st fun s => s.onHead f st (isColl .barrier) (fun w => s.verdictAccept f st arb .barrier w))

/-- The lowest fault of a COLL.STEER (spec/10 Table 10-3); an RTAG that is no verdict tag counts as COLL_TAG (notes/assumptions/34.md). -/
def State.steerFault (s : State) (p : Nat) (w : IWord) : Option Nat :=
  let x := s.part p
  let plan := fld w 99 96
  if s.tagUse p (collTag w) != some .tree then some 0x73
  else if collCh w ≠ 0 then some 0x74
  else if x.verdictDone.contains (collTag w) then some 0x76
  else if s.steer ≠ some p || (Tbl.find ((x.image.getD {}).plans) plan).isNone then some 0x77
  else match Tbl.find x.steerPlan (collTag w) with
    | some q => if q ≠ plan then some 0x78 else none
    | none => none
/-- Accept a COLL.STEER (spec/10 R354 to R356). -/
def State.steerAccept (s : State) (p f : Nat) (st : Stream) (w : IWord) : State :=
  let plan := fld w 99 96
  let s1 := s.issue f st
  let y := s1.part p
  let s2 := s1.setPart p { y with steerPlan := y.steerPlan.put (collTag w) plan }
  if s2.planInForce plan then s2
  else
    let z : Steer := { floe := f, stream := st, rtag := collTag w, plan := plan }
    let s3 := s2.setPart p { s2.part p with steers := (s2.part p).steers ++ [z] }
    if (s3.stepOf p (collTag w)).any (fun t => !t.isOpen) then
      s3.planHold (collTag w) (BitVec.ofNat 4 plan) (Tbl.get [] ((s3.part p).image.getD {}).plans plan)
    else s3
/-- COLL.STEER (spec/10 R354 to R356): a steer for the plan in force completes at acceptance. -/
def execCollSteer (f : Nat) (st : Stream) (arb : Arb) (s : State) : Host.Outcome State Fault Refusal :=
  .next (s.inCycle f st fun s => s.onHead f st (isIns 0x43) (fun w =>
    match s.floePart f with
    | none => s
    | some p =>
      if s.steerWaits f then s
      else s.grant f 4 st arb [] (fun s => s.steerFault p w) (fun s => s.steerAccept p f st w)))

/-! ## What a step goes through -/

/-- The occupancy bits of a SHIFTADD's destination (spec/04 R100): 0 only where all 32 rows of a block decode to zero. -/
def State.markSums (s : State) (t : Step) : State :=
  let d := t.dDst
  if t.kind.adds && d.occ then
    s.each (blocksIn 0 0 d.dim0b d.dim1b) (fun s b =>
      let l := (List.range 32).map (fun r => (bsParse (s.fill [] (d.bsAt (32 * b.1 + r) b.2) 68)).1)
      s.markOcc t.floe d b.1 b.2 (l.any (fun x => x.pois || x.m.any (fun m => m != 0))))
  else s
/-- COLL_STEP_COMPLETE (spec/10 R326, R327): every expected byte is counted; the writer is released and the release token moves. -/
def execCollStepComplete (p tag : Nat) (s : State) : Host.Outcome State Fault Refusal :=
  match s.stepOf p tag with
  | none => .next s
  | some t =>
    if t.kind.isTree || t.complete || t.abandoned || !t.counted then .next s
    else
      let t1 := { t with complete := true }
      let s1 := s.markSums t
      let s2 := (s1.setFloe t.floe ((s1.floe t.floe).endWriters [t.tagDst])).putStep p t1
      .next (if t1.group.n ≤ 1 then s2.closeStep p t1 else s2.passDone p t1)

/-- A floe's key (spec/10 Table 10-9). -/
def State.verdictKey (s : State) (p f : Nat) (c : Byte) : Nat :=
  if c = 0 then 0
  else b2n ((s.floe f).record.getLsbD 0) * 2 ^ 31 + 2 ^ 30 + 2 ^ 24 * s.coord.1 + 2 ^ 18 * s.coord.2.1 + 2 ^ 12 * s.coord.2.2 + p * 2 ^ 9 + f * 2
/-- The partition's own contribution (spec/10 R350). -/
def State.contribution (s : State) (p : Nat) (t : Step) : VVal :=
  (s.partFloes p).foldl (fun v f =>
    match t.issues.find? (fun i => i.floe == f) with
    | none => v
    | some i =>
      let c := (s.floe f).record ||| i.creg
      { byte := v.byte ||| c, key := BitVec.ofNat 32 (max v.key.toNat (s.verdictKey p f c)), q := fAdd v.q i.nreg }) {}
/-- A floe's mirror transfer is settled (spec/07 R231). -/
def Floe.mirrorSettled (x : Floe) : Bool := x.mirTx.sent == 0 || x.mirTx.confirmed || x.mirTx.failed
/-- VERDICT_CONTRIBUTION (spec/10 R350): once every floe has issued the verdict, its UPDs have completed and, for a commit, its mirror transfers are settled. -/
def execVerdictContribution (p tag : Nat) (s : State) : Host.Outcome State Fault Refusal :=
  match s.stepOf p tag with
  | none => .next s
  | some t =>
    if !t.kind.isTree || !t.isOpen || t.mine.isSome || t.abandoned || t.issues.any (fun i => i.upd)
        || !(s.partFloes p).all (fun f => t.issues.any (fun i => i.floe == f))
        || (t.kind == .commit && !(s.partFloes p).all (fun f => (s.floe f).mirrorSettled)) then .next s
    else
      let t1 := { t with mine := some (s.contribution p t) }
      .next ((s.putStep p t1).report p t1)

/-- VERDICT_COMPLETE (spec/10 R352, spec/07 R226): the moment T_RES of a result that is held. -/
def execVerdictComplete (p tag : Nat) (s : State) : Host.Outcome State Fault Refusal :=
  match s.stepOf p tag with
  | none => .next s
  | some t => .next (s.endVerdict p t)

/-- STEER_COMPLETE (spec/10 R355): at T_RES + 2 microseconds the plan is in force and its steers complete; those of a change that waited for it do not yet. -/
def execSteerComplete (s : State) : Host.Outcome State Fault Refusal :=
  let s1 := s.planDone
  let x := s1.chip 0
  let later := (x.next.toList ++ x.after).map (fun e => e.tag)
  .next (s1.wakeWl.each (List.range 8) (fun s p => s.setPart p { s.part p with steers := (s.part p).steers.filter (fun z => !z.due || later.contains z.rtag) }))

/-- STEP_TIMEOUT (spec/10 R347, R348, R357): replay, or failure at attempt 3. A tag of 0x10000 + f names the mirror transfer of floe f (notes/assumptions/32.md). -/
def execStepTimeout (p tag : Nat) (s : State) : Host.Outcome State Fault Refusal :=
  if 0x10000 ≤ tag then
    (if s.floePart (tag - 0x10000) = some p then .next (s.mirrorTimeout p (tag - 0x10000)) else .next s)
  else match s.stepOf p tag with
  | none => .next s
  | some t =>
    if !t.isOpen || t.abandoned then .next s
    else if t.attempt < 3 then .next ((s.around p { t with attempt := t.attempt + 1 } 2 (t.attempt + 1) 0).moveTo p t (t.attempt + 1))
    else .next (((s.around p t 3 t.attempt 1).failStep p t 1 false).pauseCheck p)

/-- SLOW_RESEND (spec/10 R346): while the member's die is slowed or its partition PAUSED, SLOW goes out again. -/
def execSlowResend (p tag : Nat) (s : State) : Host.Outcome State Fault Refusal :=
  match s.stepOf p tag with
  | none => .next s
  | some t => if t.isOpen && (s.stepSlowed p t || t.floes.any (fun f => (s.floe f).held) || (s.part p).st == .paused) then .next (s.around p t 1 t.attempt 0) else .next s

end Sys2Proof.Machine
end

