-- ==== Sys2Proof/Machine/Update.lean ====
section
/-! DEFINITION. UPD.ADAMW and UPD.SGDM: the fused optimiser update from the current half to the alternate half (spec/07 R212 to R222, R228, R229). -/

namespace Sys2Proof.Machine

/-! ## Fields (spec/07 Table 7-5) -/

def updMb (w : IWord) : Nat := fld w 79 78 + 1
def updNb (w : IWord) : Nat := fld w 77 76 + 1
def updTau (w : IWord) : F32 := BitVec.ofNat 32 (fld w 63 32)
/-! ## Acceptance (spec/07 R213, R215, R216, R221) -/

/-- TAU satisfies Table 7-5: finite and positive with CLIP, otherwise 0. -/
def updTauOk (w : IWord) : Bool :=
  let t := updTau w
  if flag w 64 then !nonfinite32 t && !t.getLsbD 31 && t != 0 else t == 0
/-- The descriptor of member i of a state set has its format (spec/07 R213). -/
def updFmtOk (i : Nat) (d : Desc) : Bool :=
  !d.isMeta && (match i with
    | 0 => d.fmt == 6
    | 1 => d.fmt == 9
    | 2 => d.fmt == 4 && d.shape == 1
    | 3 => d.fmt == 10 && d.shape == 1
    | _ => d.fmt == 1 && d.shape == 0)
/-- The ranges an UPD touches: read, and written. -/
def updReadRanges (m0 n0 mb nb : Nat) (g : Desc) (cur : List Desc) : List (Nat × Nat) :=
  g.rectRanges m0 n0 mb nb ++ cur.flatMap (fun d => d.rectRanges m0 n0 mb nb)
def updWriteRanges (m0 n0 mb nb : Nat) (alt : List Desc) : List (Nat × Nat) := alt.flatMap (fun d => d.writeRanges m0 n0 mb nb)
/-- The lowest fault of an UPD; none where it is accepted (spec/07 Table 7-9, spec/06 R190). Where TAG_S to TAG_S + 4 are not all current tags, R212 names no alternates for them; the model still takes TAG_S + i + N for the descriptors it waits for and checks before it comes to UPD_TAG: DESIGN CHOICE (notes/assumptions/113.md). -/
def State.updFault (s : State) (f : Nat) (w : IWord) (m0 n0 : Nat) : Option Nat :=
  let x := s.floe f
  let n := x.ppCount.toNat
  let tags := (updG w :: updCur w ++ updAlt w n).filter (fun t => t < 256)
  if tags.any (fun t => (s.desc f t).isNone) then some 0x03
  else
    let get := fun (t : Nat) => (s.desc f t).getD {}
    let g := get (updG w)
    let own := fun (k : Nat) => (updSet w).filterMap (fun i => if updS w + i + k < 256 then some (i, get (updS w + i + k)) else none)
    let set := own 0 ++ own n
    let mb := updMb w
    let nb := updNb w
    let d0 := get (updS w)
    let geo := g.contains m0 n0 mb nb && set.all (fun e => e.2.contains m0 n0 mb nb && e.2.dim0b == d0.dim0b && e.2.dim1b == d0.dim1b)
    let wr := updWriteRanges m0 n0 mb nb ((own n).map (fun e => e.2))
    let acc := s.touchFault f (updReadRanges m0 n0 mb nb g ((own 0).map (fun e => e.2))) wr
    if acc.isSome then acc
    else if !geo then some 0x68
    else if g.fmt != 7 || g.isMeta || !set.all (fun e => updFmtOk e.1 e.2) then some 0x69
    else if !(List.range 5).all (fun i => x.isCur (updS w + i)) then some 0x6A
    else if flag w 65 && !x.curValid then some 0x6B
    else if flag w 29 && !x.mirrorOn then some 0x6C
    else if updHp w < 1 || 28 < updHp w || !updTauOk w then some 0x6D
    else none
/-- The clipping factor (spec/07 R216). -/
def Floe.kappa (x : Floe) (w : IWord) : F32 :=
  let g := if flag w 65 then x.gnCur else x.gnCommit
  let a := val32 g
  let t := val32 (updTau w)
  if !flag w 64 then 0x3F800000#32
  else match a with
    | .nan => nan32
    | .inf _ | .fin _ _ _ => if a.zero || a.lt t || a.eqv t then 0x3F800000#32 else if t.lt a then fDiv (updTau w) g else nan32
/-- An UPD at the head of its stream (spec/07 R214, R221). -/
def State.updHead (s : State) (f : Nat) (st : Stream) (arb : Arb) (w : IWord) : State :=
  let z := s.floe f
  let y := s.stream f st
  let m0 := fld w 103 92 + if updUseS w then y.regLow 12 26 else 0
  let n0 := fld w 91 80 + if updUseS w then y.regLow 12 27 else 0
  let reads := updG w :: updCur w
  let writes := updAlt w z.ppCount.toNat
  if s.updWaits f st w then s
  else s.grant f 1 st arb (reads ++ writes) (fun s => s.updFault f w m0 n0) (fun s =>
    let x := s.floe f
    let n := x.ppCount.toNat
    let get := fun (t : Nat) => (s.desc f t).getD {}
    let o : UpdOp := { stream := st, w := w, m0 := m0, n0 := n0, dG := get (updG w),
                       cur := (updSet w).map (fun i => (i, get (updS w + i))), alt := (updSet w).map (fun i => (i, get (updS w + i + n))),
                       hp := (updRegs w).eraseDups.map (fun r => (r, y.reg r)), kappa := x.kappa w }
    let x1 := { x.take reads writes with vu := .upd o }
    (s.setFloe f (x1.setStream st (if updNreg w = 0 then x1.stream st else (x1.stream st).addPend (updNreg w)))).issue f st)
/-- UPD.ADAMW (spec/07 R217). -/
def execUpdAdamw (f : Nat) (st : Stream) (arb : Arb) (s : State) : Host.Outcome State Fault Refusal :=
  .next (s.inCycle f st fun s => s.onHead f st (isIns 0x30) (fun w => s.updHead f st arb w))
/-- UPD.SGDM (spec/07 R218). -/
def execUpdSgdm (f : Nat) (st : Stream) (arb : Arb) (s : State) : Host.Outcome State Fault Refusal :=
  .next (s.inCycle f st fun s => s.onHead f st (isIns 0x31) (fun w => s.updHead f st arb w))

/-! ## The arithmetic (spec/07 R217, R218) -/

/-- What an UPD computes for one element: gs, m', v', s', W', f', and whether a non-finite value was met. -/
structure UpdEl where
  gs : F32
  m  : F32
  v  : F32
  s  : F32
  w  : Half
  f  : Byte
  nf : Bool
/-- The low and high FP32 of a hyperparameter register. -/
def UpdOp.lo (o : UpdOp) (i : Nat) : F32 := BitVec.truncate 32 (Tbl.get 0 o.hp (updHp o.w + i))
def UpdOp.hi (o : UpdOp) (i : Nat) : F32 := BitVec.truncate 32 (Tbl.get 0 o.hp (updHp o.w + i) >>> 32)
/-- The negative of an FP32 value. -/
def fNeg (x : F32) : F32 := f32Of (val32 x).neg
/-- One element of UPD.ADAMW; m and s are decoded moments, w the weight, fr its firn (spec/07 R217). -/
def UpdOp.adam (o : UpdOp) (g m sq : F32) (w : Half) (fr : Byte) : UpdEl :=
  let one : F32 := 0x3F800000#32
  let b1 := o.lo 1
  let b2 := o.hi 1
  let gs := fMul (o.hi 2) g
  let gk := fMul o.kappa gs
  let p1 := fMul b1 m
  let p2 := fMul (fSub one b1) gk
  let m1 := fAdd p1 p2
  let ss := fMul sq sq
  let q1 := fMul b2 ss
  let gg := fMul gk gk
  let q2 := fMul (fSub one b2) gg
  let v1 := fAdd q1 q2
  let s1 := fSqrt v1
  let num := fMul (o.lo 3) m1
  let cs := fMul (o.hi 3) s1
  let den := fAdd cs (o.lo 2)
  let u := fDiv num den
  let w32 := f32Of (valBf16 w)
  let lw := fMul (o.hi 0) w32
  let sum := fAdd u lw
  let d := fNeg (fMul (o.lo 0) sum)
  let r := firnUpdate w fr d
  { gs := gs, m := m1, v := v1, s := s1, w := r.1, f := r.2.1,
    nf := r.2.2 || [g, gs, gk, m, sq, p1, p2, m1, ss, q1, gg, q2, v1, s1, num, cs, den, u, w32, lw, sum, d, o.kappa].any nonfinite32 }
/-- One element of UPD.SGDM (spec/07 R218). -/
def UpdOp.sgdm (o : UpdOp) (g m : F32) (w : Half) (fr : Byte) : UpdEl :=
  let mu := o.lo 1
  let gs := fMul (o.hi 2) g
  let gk := fMul o.kappa gs
  let w32 := f32Of (valBf16 w)
  let lw := fMul (o.hi 0) w32
  let d := fAdd gk lw
  let p := fMul mu m
  let m1 := fAdd p d
  let pm := fMul mu m1
  let u := if flag o.w 28 then fAdd d pm else m1
  let dl := fNeg (fMul (o.lo 0) u)
  let r := firnUpdate w fr dl
  { gs := gs, m := m1, v := 0, s := 0, w := r.1, f := r.2.1,
    nf := r.2.2 || ([g, gs, gk, w32, lw, d, m, p, m1, u, dl, o.kappa] ++ if flag o.w 28 then [pm] else []).any nonfinite32 }

/-- A member's descriptor. -/
def UpdOp.curD (o : UpdOp) (i : Nat) : Desc := Tbl.get {} o.cur i
def UpdOp.altD (o : UpdOp) (i : Nat) : Desc := Tbl.get {} o.alt i
/-- Row r of block (br, bc) of the update: its 32 elements, whether G was saturated there, whether it was malformed. -/
def State.updRow (s : State) (errs : Errs) (o : UpdOp) (br bc r : Nat) : List UpdEl × Bool × Bool :=
  let (b, mal) := bsParse (s.fill errs (o.dG.bsAt (32 * br + r) bc) 68)
  let row := fun (i : Nat) => let a := (o.curD i).rowAt br bc r; s.fill errs a.1 a.2
  let ws := rowHalves (row 0)
  let fs := row 1
  let ms := (s.rowVals errs (o.curD 2) br bc r).1
  let sc := ((s.fill errs ((o.curD 3).scaleAt br bc r 0) 1).headD 0).toNat
  let qs := if updAdam o.w then (row 3).map (fun c => f32Of (momVal sc c.toNat)) else []
  ((List.range 32).map (fun i =>
    let g := f32Of (b.val i)
    if updAdam o.w then o.adam g (ms.getD i 0) (qs.getD i 0) (ws.getD i 0) (fs.getD i 0)
    else o.sgdm g (ms.getD i 0) (ws.getD i 0) (fs.getD i 0)), b.sat, mal)

/-- Write block (br, bc) of the alternate set; whether a stored value is non-finite (spec/07 R217, R218, R220). -/
def State.updWrite (s : State) (f : Nat) (o : UpdOp) (br bc : Nat) (rows : List (List UpdEl)) : State × Bool :=
  let ws := rows.map (fun r => r.map (fun e => valBf16 e.w))
  let (s1, n0) := s.writeBlock f (o.altD 0) false br bc ws
  let d1 := o.altD 1
  let fl := (rows.flatten).map (fun e => e.f)
  let s2 := (s1.put f (d1.base + d1.blk br bc * 1024) fl).markOcc f d1 br bc (fl.any (fun b => b != 0))
  let (s3, n2) := s2.writeBlock f (o.altD 2) (flag o.w 31) br bc (rows.map (fun r => r.map (fun e => val32 e.m)))
  let (s4, n3) := if updAdam o.w then
      let d := o.altD 3
      let sc := rows.map (fun r => momScale (r.map (fun e => val32 e.v)) (r.map (fun e => val32 e.s)))
      let codes := (rows.mapIdx (fun r row => row.mapIdx (fun c e =>
        momCode (sc.getD r 0) (s3.draws f d (flag o.w 30) br bc r c) (val32 e.s)))).flatten
      let bad := sc.contains 255
      (((s3.put f (d.base + d.blk br bc * 1024) (codes.map (fun c => BitVec.ofNat 8 c))).put f (d.scaleAt br bc 0 0) (sc.map (fun x => BitVec.ofNat 8 x))).markOcc
        f d br bc (bad || codes.any (fun c => c != 0)), bad)
    else (s3, false)
  let (s5, n4) := s4.writeBlock f (o.altD 4) false br bc ws
  (s5, n0 || n2 || n3 || n4)

/-- The runs of bytes of block (br, bc) that go to the buddy: (pair index, offset in the tensor, address, length); scales follow the elements (spec/07 R229, notes/assumptions/32.md). -/
def UpdOp.mirrorRuns (o : UpdOp) (x : Floe) (br bc : Nat) : List (Nat × Nat × Nat × Nat) :=
  let pair := fun (i : Nat) => updS o.w + i - x.ppBase.toNat
  let el := fun (i z : Nat) => let d := o.altD i; [(pair i, d.blk br bc * z, d.base + d.blk br bc * z, z)]
  let sc := fun (i : Nat) => let d := o.altD i; [(pair i, d.elemBytes + 32 * d.blk br bc, d.scaleAt br bc 0 0, 32)]
  el 0 2048 ++ el 1 1024 ++ el 2 1024 ++ sc 2 ++ if updAdam o.w then el 3 1024 ++ sc 3 else []
/-- The occupancy bytes that an update of some blocks writes, as runs that go to the buddy: after the scales (spec/07 R229, notes/assumptions/32.md). -/
def UpdOp.mirrorOcc (o : UpdOp) (x : Floe) (blocks : List (Nat × Nat)) : List (Nat × Nat × Nat × Nat) :=
  ((updSet o.w).filter (fun i => i < 4 && (o.altD i).occ)).flatMap (fun i =>
    let d := o.altD i
    ((blocks.map (fun b => d.blk b.1 b.2 / 8)).eraseDups).map (fun j =>
      (updS o.w + i - x.ppBase.toNat, d.elemBytes + d.scaleBytes + j, d.occBase + j, 1)))
/-- Mirror runs of a floe's update (spec/07 R229, spec/10 R357): the total that the buddy is to confirm grows, even after an earlier one was confirmed (spec/07 R231). -/
def State.mirrorOut (s : State) (p f : Nat) (l : List (Nat × Nat × Nat × Nat)) : State :=
  s.each l (fun s r =>
    let x := s.floe f
    (s.setFloe f { x with mirTx := { x.mirTx with sent := x.mirTx.sent + r.2.2.2, runs := x.mirTx.runs ++ [r], told := false, confirmed := false } }).sendMirror p f r)
/-- An UPD no longer holds back the verdicts its floe has issued (spec/07 R225). -/
def State.updSettled (s : State) (p f : Nat) : State :=
  let x := s.part p
  let s1 := s.setPart p { x with steps := x.steps.map (fun t => { t with issues := t.issues.map (fun i => if i.floe == f then { i with upd := false } else i) }) }
  if x.steps.any (fun t => t.kind == StepKind.commit && t.issues.any (fun i => i.floe == f)) then s1.tellMirror p f else s1
/-- An UPD completes (spec/07 R217 to R222). -/
def State.updRun (s : State) (f : Nat) (errs : Errs) (o : UpdOp) : State :=
  let mb := updMb o.w
  let nb := updNb o.w
  let blocks := blocksIn o.m0 o.n0 mb nb
  let rows := blocks.map (fun b => (b, (List.range 32).map (fun r => s.updRow errs o b.1 b.2 r)))
  let s1 := s.each (updReadRanges o.m0 o.n0 mb nb o.dG (o.cur.map (fun e => e.2))) (fun s r => s.noteRange (some f) errs r.1 r.2)
  let s2 := s1.countMalformed f (rows.foldl (fun n b => b.2.foldl (fun n r => n + b2n r.2.2) n) 0)
  let (s3, nf0) := rows.foldl (fun acc b => let (t, n) := State.updWrite acc.1 f o b.1.1 b.1.2 (b.2.map (fun r => r.1)); (t, acc.2 || n)) (s2, false)
  let nf := nf0 || rows.any (fun b => b.2.any (fun r => r.2.1 || r.1.any (fun e => e.nf)))
  let lane := fun (i : Nat) => (rows.filter (fun b => b.1.1 == o.m0 + i / 32)).flatMap (fun b => ((b.2.getD (i % 32) ([], false, false)).1).map (fun e => some e.gs))
  let res := (List.range (32 * mb)).map (fun i => rowResult 2 (lane i))
  let x := s3.floe f
  let y := x.stream o.stream
  let y1 := if updNreg o.w = 0 then y
    else (y.setReg (updNreg o.w) (ext32 (res.foldl fAdd (BitVec.truncate 32 (Tbl.get 0 o.hp (updNreg o.w)))))).endPend (updNreg o.w)
  let g := updG o.w :: updCur o.w
  let alt := updAlt o.w x.ppCount.toNat
  let x1 := (((x.setStream o.stream y1).endReaders (readersOf g alt)).endWriters alt)
  let s4 := s3.setFloe f { x1 with vu := .idle, updElements := x1.updElements + BitVec.ofNat 64 (1024 * mb * nb),
                                   vflags := if nf then orVflags x1.vflags .upd { nf := true } else x1.vflags,
                                   vecNf := if nf then bump x1.vecNf else x1.vecNf }
  let s5 := if nf then s4.recordNf f else s4
  match s5.floePart f with
  | none => s5
  | some p =>
    let s6 := if flag o.w 29 then s5.mirrorOut p f (blocks.flatMap (fun b => o.mirrorRuns (s5.floe f) b.1 b.2) ++ o.mirrorOcc (s5.floe f) blocks) else s5
    s6.updSettled p f
/-- UPD_COMPLETE (spec/07 R222). -/
def execUpdComplete (f : Nat) (errs : Errs) (s : State) : Host.Outcome State Fault Refusal :=
  match (s.floe f).vu with
  | .idle | .pass _ | .cond _ => .next s
  | .upd o =>
    if s.planesHeld o.dG || o.cur.any (fun e => s.planesHeld e.2) || o.alt.any (fun e => s.planesHeld e.2) then .next s
    else .next (s.updRun f errs o)

end Sys2Proof.Machine
end

