-- ==== Sys2Proof/Machine/Part.lean ====
section
/-! DEFINITION. Partitions: their streams stopped, their floes reset, degradation, keys and thaw, and what waits for the last reset to end (spec/12 R422, R438 to R441, spec/13 R446 to R457, R471). -/

namespace Sys2Proof.Machine

/-- Move a partition to DEGRADED (spec/12 R440): its streams stop, its open steps fail, a waiting PAUSE is answered FAULT, and PART_DEGRADED is sent. -/
def State.degrade (s : State) (p cause : Nat) : State :=
  match (s.part p).st with
  | .free | .thawing | .degraded => s
  | .claimed | .loaded | .running | .paused | .faulted =>
    let s1 := (s.stopStreams p).failOpen p 3 false
    let s2 := s1.setPart p { s1.part p with st := .degraded, load := none }
    (((s2.answerPause p 0x0E 3 0).rasReport 2)).eventBoth p 0x07 0xFF (leBytes 1 cause ++ zeros 3)

/-- Latches and staged halves of the registers of a page are discarded by a reset that reaches it (spec/16 R537). -/
def State.dropLatches (s : State) (die page : Nat) : State :=
  let inPage := fun (l : HalfLatch) => l.addr / 0x1000 == (csrBase die + 0x1000 * page) / 0x1000
  { s with latches := s.latches.filter (fun l => !inPage l), staged := s.staged.filter (fun l => !inPage l) }
/-- A page header after a reset that reaches its block; ESCALATED and RESETS survive all but cold reset (spec/16 R535). -/
def Header.afterReset (h : Header) : Header := { escalated := h.escalated, resets := h.resets }
/-- Reset a page's header. -/
def State.resetPage (s : State) (die page : Nat) : State := (s.setHdr die page (s.hdr die page).afterReset).dropLatches die page

/-- The bytes that the accepted instructions of a floe are still to write (spec/04 R118, spec/05 R151, spec/06 R159, spec/07 R207, R222). -/
def State.openWrites (s : State) (f : Nat) : List (Nat × Nat) :=
  let x := s.floe f
  let unit := match x.vu with
    | .idle => []
    | .pass o => if passIsRed o.w then [] else o.dDst.writeRanges o.m0 o.n0 (passMb o.w) (passNb o.w)
    | .cond o => s.condRanges o
    | .upd o => updWriteRanges o.m0 o.n0 (updMb o.w) (updNb o.w) (o.alt.map (fun e => e.2))
  let push := x.push.toList.map (fun o => (x.stashAddr f o.entry.tier o.stack o.entry.off, o.entry.fp))
  let pop := x.pop.toList.flatMap (fun o => (stashPlanes o.d).map (fun e => (e.2.1, e.2.2)))
  unit ++ push ++ pop ++ x.xfers.flatMap (fun o => xferData o.w o.dDst ++ xferOcc o.dDst ((xferBlocks o.w).map (fun b => b.2)))
/-- Outputs that a reset abandons are unspecified: free values (spec/04 R118, spec/05 R151, spec/07 R222). -/
def State.spoil (s : State) (l : List (Nat × Nat)) : State :=
  match l with
  | [] => s
  | _ => { s.each l (fun t r => t.poke r.1 ((List.range r.2).map (fun i => Config.abandonedByte s.fresh (r.1 + i)))) with fresh := s.fresh + 1 }
/-- A floe's accepted instructions are abandoned. -/
def State.abandonFloe (s : State) (f : Nat) : State := s.spoil (s.openWrites f)

/-- Reset one floe: its state and registers at their reset values, its scratchpad zero (spec/12 R438, spec/15 R498). The zeros take in the stash front: R438 zeroes the scratchpads, and what R207 says stays in place until thaw is read as the near-memory and CXL regions, DESIGN CHOICE (notes/assumptions/115.md). -/
def State.resetFloe (s : State) (f : Nat) : State :=
  let s1 := s.setFloe f {}
  let lo := spAddr f 0
  let s2 := { s1 with mem := dropBytes s1.mem lo spStride, spBad := s1.spBad.filter (fun a => a < lo || lo + spStride ≤ a),
                      signals := s1.signals.filter (fun g => g.src ≠ f && g.dst ≠ f) }
  s2.resetPage (s2.floePage f).1 (s2.floePage f).2

/-- A partition's running state after its floes are reset: no steps, no plan choice, no image, no load. -/
def Part.cleared (x : Part) : Part :=
  { x with load := none, image := none, stepCount := 0, serial := 0, commits := 0, discards := 0, lastKey := 0, steps := [], steers := [],
           steerPlan := [], verdictDone := [], committing := false, mirHalf := false, mirGot := [], mirWant := [], gone := [], pausing := false }

/-- Reset a partition's floes and discard its image (spec/12 R438). -/
def State.resetPart (s : State) (p : Nat) : State :=
  let s1 := (s.each (s.partFloes p) (fun s f => s.abandonFloe f)).each (s.partFloes p) (fun s f => s.resetFloe f)
  s1.setPart p (s1.part p).cleared

/-- Device addresses of a granted unit (spec/12 R420): near units, then CXL units. -/
def Part.unitBases (x : Part) : List Nat := x.near.map (fun u => 2 ^ 30 * u) ++ x.cxl.map (fun u => cxlBase + 2 ^ 30 * u)
/-- A unit is scrubbed: none of its bytes is listed and none of its lines is poisoned or still awaited (spec/13 R471). -/
def State.scrubUnit (s : State) (a : Nat) : State :=
  let s1 := { s with mem := dropBytes s.mem a (2 ^ 30), poison := subRange s.poison a (a + 2 ^ 30) }
  if a < cxlBase then s1
  else
    let c := s1.cxl (cxlPort a)
    s1.setCxl (cxlPort a) { c with late := c.late.filter (fun b => !(a ≤ b && b < a + 2 ^ 30)) }

/-- A partition's keys are destroyed; OED windows under them end (spec/13 R449, R450). -/
def State.destroyKeys (s : State) (p : Nat) : State :=
  let s1 := s.setPart p { s.part p with keys := false }
  { s1 with oed := { s1.oed with replay := s1.oed.replay.filter (fun e => e.1.2.2 ≠ p) } }
/-- A fresh scrub key replaces the previous one (spec/13 R471). -/
def State.newScrub (s : State) : State := s.setSec { s.sec with scrub := s.sec.scrub + 1 }

/-- The release of a partition's resources begins: floes reset, steps abandoned, steering returned, keys destroyed, scrub begun (spec/12 R422, spec/13 R471). -/
def State.beginThaw (s : State) (p : Nat) : State :=
  let s1 := (s.abandonOpen p).resetPart p
  let s2 := if s1.steer = some p then { s1 with steer := none }.planRelease else s1
  let s3 := (s2.destroyKeys p).newScrub
  s3.setPart p { s3.part p with st := .thawing, thawWeight := bitsOf s3.nm.weight.toNat (4 * p) 4 }

/-- Set a 4-bit field of a word. -/
def setNibble (w : Word) (i v : Nat) : Word := (w &&& ~~~ (BitVec.ofNat 32 (15 * 16 ^ i))) ||| BitVec.ofNat 32 ((v % 16) * 16 ^ i)

/-- Evidence would mix states: a firmware activation, a block reset or a thaw is in progress (spec/12 R433, spec/13 R457). -/
def State.busyAttest (s : State) : Bool :=
  s.sec.fwAct.isSome || s.hdrs.any (fun e => e.2.resetState != 0) || (List.range 8).any (fun p => (s.part p).st == .thawing)
/-- When the last of these ends, the endpoints that were refused get ATTEST_READY (spec/12 R433). -/
def State.attestReady (s : State) : State :=
  if s.busyAttest then s
  else s.each (List.range 8) (fun s e =>
    if (s.ep e).busyAttest then (s.setEp e { s.ep e with busyAttest := false }).event e 15 0x09 0xFF [] else s)
/-- The measurement epoch increments (spec/13 R457). -/
def State.newEpoch (s : State) : State := s.setSec { s.sec with epoch := s.sec.epoch + 1 }

/-- Every expected sequence number of a PARTITION value returns to 0 (spec/12 R413). -/
def State.clearSeq (s : State) (p : Nat) : State :=
  s.each (List.range 8) (fun s e => s.setEp e { s.ep e with expSeq := (s.ep e).expSeq.del p })

/-- A thaw has finished: units scrubbed, grants, weights and binding cleared, THAW_DONE sent, the partition FREE (spec/12 R422, spec/13 R471, R457). The weights return to their reset value (notes/assumptions/21.md). -/
def State.endThaw (s : State) (p : Nat) : State :=
  let x := s.part p
  let s1 := s.each x.unitBases (fun s a => s.scrubUnit a)
  let s2 := { s1 with nm := { s1.nm with weight := setNibble s1.nm.weight p 4 } }
  let s3 := s2.setRouter { s2.router with partWeight := setNibble s2.router.partWeight p 4 }
  let s4 := (s3.newEpoch).setPart p { claimNo := x.claimNo }
  let s5 := match x.owner with
    | some e => s4.event e p 0x08 0xFF []
    | none => s4
  ((s5.clearSeq p).afterThaw).attestReady

/-- THAW_DONE (spec/13 R471). -/
def execThawDone (p : Nat) (s : State) : Host.Outcome State Fault Refusal :=
  match (s.part p).st with
  | .thawing => .next (s.endThaw p)
  | .free | .claimed | .loaded | .running | .paused | .degraded | .faulted => .next s

end Sys2Proof.Machine
end

