-- ==== Sys2Proof/Machine/Retire.lean ====
section
/-! DEFINITION. Retirement of near-memory interfaces, patrol and recalibration, and the coming and going of CXL devices (spec/08 R241 to R246, R249 to R256). -/

namespace Sys2Proof.Machine

/-! ## Frames (spec/08 R241, R250) -/

/-- Frames that every interface holds: 1,280 slots. -/
def slotsPer : Nat := 1280
/-- The populated frames on an interface, ascending. -/
def State.framesOn (s : State) (i : Nat) : List Nat :=
  let l := s.baseIfs
  let k := l.idxOf i
  let own := if k < l.length then (List.range slotsPer).map (fun j => k + l.length * j) else []
  let kept := own.filter (fun fr => (Tbl.find s.nm.moved fr).isNone)
  let came := (s.nm.moved.filter (fun e => e.2.1 == i)).map (fun e => e.1)
  sortUp ((kept ++ came).filter (fun fr => fr < s.frames))
/-- An interface takes frames: it is ACTIVE, or RETIRING and still in service because its retirement is blocked (spec/08 R250 step 1). -/
def State.takesFrames (s : State) (i : Nat) : Bool :=
  s.ifState i == 0 || (s.ifState i == 1 && s.nm.cur.any (fun c => c.iface == i && c.blocked))
/-- The slots that withdrawn frames have left on interfaces still in service, in ascending order of frame (spec/08 R250 step 3). -/
def State.freeSlots (s : State) : List (Nat × Nat) :=
  let gone := (List.range (slotsPer * s.baseIfs.length - s.frames)).map (fun j => s.frames + j)
  let used := (s.nm.moved.filter (fun e => e.1 < s.frames)).map (fun e => e.2)
  ((gone.map s.place).filter (fun q => s.takesFrames q.1 && !used.contains q)).eraseDups
/-- The 1 GiB units that hold the top 1,280 populated frames: the last 20. -/
def State.topUnits (s : State) : List Nat := (List.range 20).map (fun j => s.populated - 20 + j)
/-- A partition holds a near-memory unit. -/
def State.unitHeld (s : State) (u : Nat) : Bool := (List.range 8).any (fun p => (s.part p).held && (s.part p).near.contains u)

/-- Put an interface in a state. -/
def State.setIf (s : State) (i st : Nat) : State := { s with nm := { s.nm with ifs := s.nm.ifs.put i st } }
/-- An interface is RETIRED, its request bit clear (spec/08 R250 step 5, Table 8-9). -/
def State.markRetired (s : State) (i : Nat) : State :=
  { s with nm := { s.nm with ifs := s.nm.ifs.del i, retired := setBit s.nm.retired i true, req := setBit s.nm.req i false } }
/-- An interface is RETIRED, and the service record lists it after those before it (spec/08 R241, R250 step 5). -/
def State.recordRetired (s : State) (i : Nat) : State :=
  let s1 := s.markRetired i
  s1.setFlash { s1.flash with retiredIfs := s1.flash.retiredIfs ++ [i] }
/-- The top units are withdrawn: P falls by 20 GiB (spec/08 R250 step 2). -/
def State.withdraw (s : State) : State := { s with nm := { s.nm with withdrawn := s.nm.withdrawn + 1 } }
/-- The moves of an interface's frames to free slots, frame by frame. -/
def State.plannedMoves (s : State) (i : Nat) : List (Nat × Nat × Nat) :=
  List.zipWith (fun fr q => (fr, q)) (s.framesOn i) s.freeSlots

/-- The current retirement goes on from its withdrawal (spec/08 R250 steps 2 and 3). -/
def State.startMoves (s : State) (i : Nat) : State :=
  let s1 := s.withdraw
  let s2 : State := { s1 with nm := { s1.nm with cur := some { iface := i, blocked := false, moves := [] } } }
  ({ s2 with nm := { s2.nm with cur := some { iface := i, blocked := false, moves := s2.plannedMoves i } } } : State).retireEvent i 2
/-- A planned retirement begins (spec/08 R250 step 1). -/
def State.beginRetire (s : State) (i : Nat) : State :=
  let s1 := s.setIf i 1
  if s1.topUnits.any (fun u => s1.unitHeld u) then
    (({ s1 with nm := { s1.nm with cur := some { iface := i, blocked := true, moves := [] } } }).raise s.lead 0xC5 1).retireEvent i 1
  else s1.startMoves i
/-- A retirement ends (spec/08 R250 step 5). -/
def State.endRetire (s : State) (i : Nat) : State :=
  let s1 := s.recordRetired i
  (({ s1 with nm := { s1.nm with cur := none } }).rasReport 0).retireEvent i 3
/-- One step of the queue of retirements: one whose frames have all moved ends, and with none in progress the next one begins (spec/08 R252). -/
def State.retireStep (s : State) : State :=
  match s.nm.cur with
  | some c => if !c.blocked && c.moves.isEmpty then s.endRetire c.iface else s
  | none =>
    match s.nm.queue with
    | [] => s
    | j :: r => ({ s with nm := { s.nm with queue := r } }).beginRetire j
/-- The queue of retirements goes on until one has frames to move, one is blocked or none is left; each of the 48 interfaces begins and ends at most once (spec/08 R252). -/
def State.retireOn (s : State) : State :=
  match s.nm.cur, s.nm.queue with
  | none, [] => s
  | _, _ => s.each (List.range 97) (fun s _ => s.retireStep)
/-- A planned retirement is triggered: at once, or after those before it (spec/08 R249, R252). -/
def State.requestRetire (s : State) (i : Nat) : State := (s.planRetire i).retireOn

/-! ## Forced retirement (spec/08 R251) -/

/-- A partition lost some of what it held: DEGRADED, its stash entries there holes (spec/08 R251, R255, spec/12 R440). -/
def State.lostMemory (s : State) (p cause : Nat) (lost : Nat → Nat → Bool) : State := (s.degrade p cause).loseStash p lost
/-- Near-memory bytes lie in a frame of a list or in one of the given units. -/
def lostNear (frames units : List Nat) (a n : Nat) : Bool :=
  a < cxlBase && (frames.any (fun fr => meets a n (2 ^ 24 * fr) (2 ^ 24)) || units.any (fun u => meets a n (2 ^ 30 * u) (2 ^ 30)))
/-- Forget the bytes of some frames and poison them, and forget the bytes of withdrawn units. -/
def State.losePlaces (s : State) (frames units : List Nat) : State :=
  let s1 := s.each frames (fun s fr => { s with mem := dropBytes s.mem (2 ^ 24 * fr) (2 ^ 24), poison := addRange s.poison (2 ^ 24 * fr) (2 ^ 24 * fr + 2 ^ 24) })
  s1.each units (fun s u => { s with mem := dropBytes s.mem (2 ^ 30 * u) (2 ^ 30), poison := subRange s.poison (2 ^ 30 * u) (2 ^ 30 * u + 2 ^ 30) })
/-- The frames of an interface that leaves at once take new slots (spec/08 R251); the moves are returned. -/
def State.remapAway (s : State) (i : Nat) : State × List (Nat × Nat × Nat) :=
  let s1 : State := { s.setIf i 1 with nm := { (s.setIf i 1).nm with cur := if s.nm.cur.any (fun (c : Retire) => c.iface == i) then none else s.nm.cur
                                                                     queue := s.nm.queue.filter (fun j => j != i) } }
  let moves := s1.plannedMoves i
  ({ s1 with nm := { s1.nm with moved := moves.foldl (fun t (m : Nat × Nat × Nat) => t.put m.1 m.2) s1.nm.moved } }, moves)
/-- A recorded retirement is applied to the frame table when a cold reset builds it: nothing is copied and no one holds anything (spec/08 R241). -/
def State.reapplyRetired (s : State) (i : Nat) : State := ((s.withdraw.remapAway i).1).markRetired i
/-- The moves still to come of a retirement in progress are planned again. -/
def State.replanMoves (s : State) : State :=
  match s.nm.cur with
  | some c => if c.blocked then s else { s with nm := { s.nm with cur := some { c with moves := s.plannedMoves c.iface } } }
  | none => s
/-- Forced retirement of interface i: capacity withdrawn, frames remapped at once with poisoned lines, partitions that lose something DEGRADED, withdrawn units out of their grants. Moves still to come of another retirement are planned again. -/
def State.forceRetire (s : State) (i : Nat) : State :=
  if 2 ≤ s.ifState i then s
  else
    let begun := s.nm.cur.any (fun c => c.iface == i && !c.blocked)
    let d := s.framesOn i
    let units := if begun then [] else s.topUnits
    let hit := fun (p : Nat) => (s.part p).held && ((s.part p).near.any (fun u => units.contains u || d.any (fun fr => fr / 64 == u)))
    let who := (List.range 8).filter hit
    let (s1, moves) := (if begun then s else s.withdraw).remapAway i
    let s2 := ((s1.losePlaces (moves.map (fun (m : Nat × Nat × Nat) => m.1)) units).recordRetired i).raise s.lead 0xC5 0
    let s3 := s2.replanMoves.each who (fun s p => s.lostMemory p 2 (lostNear d units))
    let s4 := s3.each who (fun s p => s.setPart p { s.part p with near := (s.part p).near.filter (fun u => !units.contains u) })
    s4.retireEvent i 4
/-- Carry out the forced retirements that have come due, then let the planned ones go on (spec/08 R249, R251, R252). -/
def State.settle (s : State) : State :=
  (({ s with nm := { s.nm with due := [] } }).each s.nm.due (fun s i => s.forceRetire i)).retireOn

/-- NMMAP_RETIRE (spec/08 R249, Table 8-9): a request bit is set and the planned retirement triggered; a bit of an interface that is retired or absent clears at once. -/
def execNmmapRetire (iface : Nat) (s : State) : Host.Outcome State Fault Refusal :=
  if 2 ≤ s.ifState iface then .next s
  else .next (({ s with nm := { s.nm with req := setBit s.nm.req iface true } }).requestRetire iface)
/-- RETIREMENT_UNBLOCKED (spec/08 R250 step 1): no unit of the top frames is granted any more. -/
def execRetirementUnblocked (s : State) : Host.Outcome State Fault Refusal :=
  match s.nm.cur with
  | some c => if c.blocked && !s.topUnits.any (fun u => s.unitHeld u) then .next ((s.startMoves c.iface).retireOn) else .next s
  | none => .next s
/-- FRAME_MOVE_COMPLETE (spec/08 R250 steps 4 and 5): the next frame switches to its new slot. -/
def execFrameMoveComplete (s : State) : Host.Outcome State Fault Refusal :=
  match s.nm.cur with
  | some c =>
    match c.moves with
    | [] => .next s
    | m :: r => .next ({ s with nm := { s.nm with moved := s.nm.moved.put m.1 m.2, cur := some { c with moves := r } } } : State).retireOn
  | none => .next s

/-! ## Patrol and recalibration (spec/08 R244, R246, R249) -/

/-- A new patrol period of interface i begins: its counts of the period return to 0 (spec/08 R249, Table 8-8; notes/assumptions/36.md). -/
def State.newPeriod (s : State) (i : Nat) : State :=
  let x := s.nmc (i / 4)
  s.setNmc (i / 4) { x with ifCe := x.ifCe.put i 0, ifUe := x.ifUe.put i 0, told := x.told.erase i }
/-- PATROL_READ (spec/08 R244, R246): a line of populated near memory is read and corrected; an uncorrectable one is left with the poison code. -/
def execPatrolRead (addr : Nat) (errs : Errs) (s : State) : Host.Outcome State Fault Refusal :=
  if 2 ^ 30 * s.populated ≤ addr then .next s
  else
    let b := addr / 64 * 64
    let q := s.place (addr / 2 ^ 24)
    let s1 := (if q.2 = 0 && b % 2 ^ 24 = 0 then s.newPeriod q.1 else s).noteRetries errs b
    if s.unitBad errs b then .next (({ s1 with poison := addRange s1.poison b (b + 64) }).noteUe none true b).settle
    else if (errsAt errs b).any (fun e => errMends b e) then .next (s1.noteCe b).settle
    else .next s1
/-- RECAL_WINDOW (spec/08 R246, R249): an interface is retrained and takes the rate of NMC_CFG; three failed windows in a row force its retirement. -/
def execRecalWindow (iface : Nat) (trained : Bool) (s : State) : Host.Outcome State Fault Refusal :=
  if 2 ≤ s.ifState iface then .next s
  else
    let d := iface / 4
    let x := s.nmc d
    let n := if trained then 0 else Tbl.get 0 x.trainFails iface + 1
    let s1 := s.setNmc d { x with trainFails := x.trainFails.put iface n, rateNow := x.rate }
    if trained then .next s1
    else
      let s2 := s1.raise (nmcPage d).1 (nmcPage d).2 2
      .next (if n = 3 then (s2.forceRetire iface).retireOn else s2)

/-! ## CXL devices (spec/08 R253 to R255) -/

/-- The range of a CXL port. -/
def cxlLow (port : Nat) : Nat := if port = 0 then cxlBase else 0x50000000000
def cxlHigh (port : Nat) : Nat := if port = 0 then 0x50000000000 else 0x90000000000
/-- The bytes free from a base to the next window or the end of the range; 0 inside a window. -/
def Cxl.freeFrom (c : Cxl) (port b : Nat) : Nat :=
  if c.wins.any (fun w => w.2.covers b) then 0
  else (c.wins.foldl (fun e w => if b ≤ w.2.base then min e w.2.base else e) (cxlHigh port)) - b
/-- The base and size in GiB of a new device's window: the lowest base where it fits whole, else what fits up to the end of the range (notes/assumptions/37.md). -/
def Cxl.fit (c : Cxl) (port gib : Nat) : Option (Nat × Nat) :=
  let bases := sortUp (cxlLow port :: c.wins.map (fun w => w.2.base + 2 ^ 30 * w.2.gib))
  match bases.find? (fun b => b < cxlHigh port && 2 ^ 30 * gib ≤ c.freeFrom port b) with
  | some b => some (b, gib)
  | none =>
    match bases.find? (fun b => b < cxlHigh port && c.freeFrom port b != 0 && b + c.freeFrom port b == cxlHigh port) with
    | some b => some (b, c.freeFrom port b / 2 ^ 30)
    | none => none
/-- Drive CXLn_PERST_N low or high; driven low it leaves no request of the port waiting (spec/17 R548). -/
def State.setPerst (s : State) (port : Nat) (low : Bool) : State :=
  let c := s.cxl port
  s.setCxl port { c with perst := low, late := if low then [] else c.late }
/-- The rate and width of a sublink of a port: A, or the second ×8 sublink B (spec/08 Table 8-10). -/
def Cxl.rate (c : Cxl) (sub : Bool) : Nat := bitsOf c.link.toNat (if sub then 2 else 0) 2
def Cxl.width (c : Cxl) (sub : Bool) : Nat := bitsOf c.link.toNat (if sub then 9 else 4) 5
/-- CXL_LINK_STATUS with a sublink at a rate and width. -/
def Cxl.setLink (c : Cxl) (sub : Bool) (rate width : Nat) : Cxl :=
  let ra := if sub then c.rate false else rate
  let rb := if sub then rate else c.rate true
  let wa := if sub then c.width false else width
  let wb := if sub then width else c.width true
  { c with link := BitVec.ofNat 32 (ra + 4 * rb + 16 * wa + 512 * wb) }
/-- The port is split into two ×8 sublinks: as its links trained, or with none up as BIFURCATE says, which takes effect at the next training (spec/08 Table 8-10). -/
def Cxl.split (c : Cxl) : Bool := if c.rate false = 0 && c.rate true = 0 then c.bifurcate else c.width false != 16
/-- The sublink that a device lies behind: a port at ×16 has one. -/
def Cxl.subOf (c : Cxl) (dev : CxlDev) : Bool := c.split && dev.sub
/-- A link that is down trains when a device is found: at 32 or 64 GT/s, ×16, or ×8 where the port is bifurcated; a lower rate leaves it down (spec/08 Table 8-4). -/
def Cxl.train (c : Cxl) (dev : CxlDev) : Cxl :=
  let b := c.subOf dev
  if c.rate b ≠ 0 || !(dev.rate = 1 || dev.rate = 2) then c
  else c.setLink b dev.rate.toNat (if c.split then 8 else 16)
/-- The CXL_CHANGE event (spec/12 Table 12-13): cause 1 capacity left unused, 2 a loss. -/
def State.cxlEvent (s : State) (port window cause : Nat) : State :=
  s.eventMgmt 0x12 port (leBytes 1 port ++ leBytes 1 window ++ leBytes 1 cause ++ leBytes 1 0)
/-- A device is found on a port: where its link trains it is enumerated, its window placed, unused capacity reported (spec/08 R253, R254). DESIGN CHOICE (notes/assumptions/37.md): a lost window that is still mapped keeps its window registers, so a device hot-added meanwhile counts it among the four of the port. -/
def State.addCxl (s : State) (dev : CxlDev) : State :=
  let k := dev.port
  let c := (s.cxl k).train dev
  let gib := dev.cap / 2 ^ 30
  let slot := [0, 1, 2, 3].find? (fun i => (Tbl.find c.wins i).isNone)
  if c.rate ((s.cxl k).subOf dev) = 0 then s
  else match slot, (if gib = 0 then none else c.fit k gib) with
    | some i, some (b, g) =>
      let s1 := s.setCxl k { c with wins := c.wins.put i { base := b, gib := g, sub := (s.cxl k).subOf dev } }
      if g < gib then s1.cxlEvent k i 1 else s1
    | _, _ => (s.setCxl k { c with unplaced := c.unplaced + 1 }).cxlEvent k 0xFF 1
/-- CXL_HOT_ADD (spec/08 R254). -/
def execCxlHotAdd (dev : CxlDev) (s : State) : Host.Outcome State Fault Refusal :=
  if dev.port < 2 then .next (s.addCxl dev) else .next s
/-- A window's device is lost; its holders become DEGRADED, stash entries there holes (spec/08 R255). A sublink with no working window left is down. -/
def State.loseWindow (s : State) (port window : Nat) : State :=
  let c := s.cxl port
  match Tbl.find c.wins window with
  | none => s
  | some w =>
    if w.lost || 2 ≤ port then s
    else
      let wins := c.wins.put window { w with lost := true }
      let c1 := { c with wins := wins, late := c.late.filter (fun b => !w.covers b) }
      let s1 := s.setCxl port (if wins.all (fun v => v.2.lost || v.2.sub != w.sub) then c1.setLink w.sub 0 0 else c1)
      let s2 := (s1.raise port 0x88 2).cxlEvent port window 2
      let who := (List.range 8).filter (fun p => (s2.part p).held && (s2.part p).cxl.any (fun u => w.covers (cxlBase + 2 ^ 30 * u)))
      (s2.each who (fun s p => s.lostMemory p 3 (fun a n => meets a n w.base (2 ^ 30 * w.gib)))).unmapLost
/-- The links of a port retrain: those that are up take the widths that BIFURCATE says, at their rates; without bifurcation what lay behind the second sublink is lost (spec/08 Table 8-10, spec/15 Table 15-5 step 5; notes/assumptions/37.md). -/
def State.retrainCxl (s : State) (port : Nat) : State :=
  let c := s.cxl port
  let a := c.rate false
  let b := c.rate true
  if a = 0 && b = 0 then s
  else if c.bifurcate then s.setCxl port ((c.setLink false a (if a = 0 then 0 else 8)).setLink true b (if b = 0 then 0 else 8))
  else
    let s1 := s.each ((c.wins.filter (fun w => w.2.sub && !w.2.lost)).map (fun w => w.1)) (fun s k => s.loseWindow port k)
    s1.setCxl port (((s1.cxl port).setLink false a (if a = 0 then 0 else 16)).setLink true 0 0)
/-- CXL_LINK_DOWN (spec/08 R255). -/
def execCxlLinkDown (port window : Nat) (s : State) : Host.Outcome State Fault Refusal := .next (s.loseWindow port window)
/-- The orphan's memory is lost with the bridge data lanes: its interfaces retired by force, its CXL port removed (spec/14 R490). -/
def State.loseOrphanMemory (s : State) (die : Nat) : State :=
  let s1 := s.each ((List.range 24).map (fun i => 24 * die + i)) (fun s i => s.forceRetire i)
  s1.each [0, 1, 2, 3] (fun s k => s.loseWindow die k)
/-- CXL_TIMEOUT (spec/08 R255): a request unanswered for 10 ms is an uncorrectable read or a failed write. It is counted and reported here, and its requester gets the outcome in the row that ends its access. -/
def execCxlTimeout (addr : Nat) (write : Bool) (s : State) : Host.Outcome State Fault Refusal :=
  if (s.window addr).isNone || addr < cxlBase then .next s
  else
    let k := cxlPort addr
    let c := s.cxl k
    let b := addr / 64 * 64
    let s1 := (s.setCxl k { c with timeout := bump c.timeout, late := if c.late.contains b then c.late else b :: c.late }).raise k 0x88 1
    .next (if write then { s1 with poison := addRange s1.poison b (b + 64) } else s1.memError b)

end Sys2Proof.Machine
end

