-- ==== Sys2Proof/Machine/Gwyntik.lean ====
section
/-! DEFINITION. Gwyntik: endpoints, framing, the checks on arrival and before execution, and the commands that claim, release, load, run and inspect partitions (spec/12). -/

namespace Sys2Proof.Machine

/-! ## Framing and arrival (spec/12 R406 to R418) -/

/-- The commands of spec/12 Table 12-6. -/
def opcodes : List Nat := [0x01, 0x02, 0x03, 0x04, 0x05, 0x06, 0x07, 0x08, 0x09, 0x10, 0x11, 0x12, 0x13, 0x20, 0x21, 0x30, 0x31, 0x32, 0x40, 0x41, 0x50, 0x70]

/-- A packet's fields (spec/12 Table 12-4). -/
def readCmd (src : Nat) (l : List Byte) : GwyPkt :=
  { src := src, opcode := beAt l 0 1, part := bitsOf (beAt l 1 1) 4 4,
    zero := bitsOf (beAt l 1 1) 0 4 == 0 && beAt l 12 4 == 0, seq := BitVec.ofNat 32 (beAt l 4 4), tag := BitVec.ofNat 32 (beAt l 8 4),
    arg0 := BitVec.ofNat 64 (beAt l 16 8), arg1 := BitVec.ofNat 32 (beAt l 24 4), payload := l.drop 32 }
/-- The packet's CRC holds (spec/12 R412). -/
def crcOk (l : List Byte) : Bool := BitVec.ofNat 32 (beAt l 28 4) == crc32c (l.take 28 ++ l.drop 32)
/-- Two commands are of one stream: one PARTITION value, and for 0xF one endpoint (spec/12 R413, R414; notes/assumptions/22.md). -/
def sameStream (c d : GwyPkt) : Bool := c.part == d.part && (c.part != 15 || c.src == d.src)
/-- Credit in use in a command's window: by the commands that wait and by the responses that are held (spec/12 R417). -/
def State.creditUsed (s : State) (c : GwyPkt) : Nat :=
  let held := (List.range 8).flatMap (fun e => if c.part = 15 && e ≠ c.src then [] else ((s.ep e).heldRx.filterMap (fun i => i.credit)).filter (fun k => k.1 == c.part))
  held.foldl (fun a k => a + k.2) ((s.cmdq.filter (fun d => sameStream c d)).foldl (fun a d => a + d.cost) 0)

/-- The die and page of a UCIe module (spec/16 Table 16-1). -/
def modPage (m : Nat) : Nat × Nat := (m / 2, 0x90 + m % 2)
/-- A module's packets are answered by the orphan's security agent (spec/12 R405). -/
def State.orphanModule (s : State) (m : Nat) : Bool := s.ras.orphan && m / 2 != s.lead
/-- A module is up and takes packets: its page does not hold them and it is not being reset (spec/16 R534). -/
def State.modOpen (s : State) (m : Nat) : Bool :=
  let h := s.hdr (modPage m).1 (modPage m).2
  (s.mod m).up && !h.hold && h.resetState == 0
/-- The module that a packet takes: any that is up, as the processor die chooses (spec/12 R404); where no choice is given, the lowest-numbered one that takes packets, else the lowest-numbered one that is up. -/
def State.upModule (s : State) (want : Option Nat) : Nat :=
  match want.filter (fun m => decide (m < 4) && (s.mod m).up) with
  | some m => m
  | none => (((List.range 4).find? (fun m => s.modOpen m)).orElse (fun _ => (List.range 4).find? (fun m => (s.mod m).up))).getD 0

/-- The device TELEM record; `only` keeps the fields of one die (spec/12 Table 12-11, R405). -/
def State.telemDevice (s : State) (only : Option Nat) : List Byte :=
  let mine := fun d => only.all (fun o => o == d)
  let hot := fun d => leBytes 2 (if mine d then (s.therm d).hot.toNat else 0)
  let floes := ((List.range s.variant.floes).filter (fun f => mine (s.floeDie f) && !s.ras.lost.contains (f / 8))).length
  leBytes 8 s.now.toNat ++ hot 0 ++ hot 1 ++ leBytes 4 (if only.isSome then 0 else s.power.now.toNat)
    ++ leBytes 4 (if only.isSome then 0 else s.populated) ++ leBytes 2 floes ++ leBytes 1 s.lead ++ leBytes 1 (b2n s.ras.orphan)
    ++ leBytes 4 (if only.isSome then 0 else packNibbles 8 (fun p => (s.part p).st.code)) ++ zeros 36

/-- A packet arrives from an endpoint on a module: credit, CRC and sequence are checked, the number advances, and the command waits its turn (spec/12 R413, R416, R418). A reserved PARTITION value is answered here, since no command of it runs. -/
def State.arriveCmd (s : State) (src m : Nat) (l : List Byte) : State :=
  let c := readCmd src l
  let x := s.ep src
  let s1 := s.setMod m { s.mod m with packets := bump (s.mod m).packets }
  if s1.orphanModule m then
    if c.opcode = 0x40 && c.arg0 = 0 then s1.respond c 0 0 0 0 (s1.telemDevice (some (1 - s1.lead))) else s1.respond c 0x0E 4 0 0 []
  else if 262144 < s1.creditUsed c + c.cost then s1.respond c 0x07 0 0 0 []
  else if !crcOk l then
    let s2 := s1.setMod m { s1.mod m with crcFail := bump (s1.mod m).crcFail }
    (s2.respond c 0x04 0 0 0 []).raise (modPage m).1 (modPage m).2 0
  else if c.seq ≠ Tbl.get 0 x.expSeq c.part then s1.respond c 0x06 1 0 0 []
  else
    let s2 := s1.setEp src { x with expSeq := x.expSeq.put c.part (c.seq + 1) }
    if 8 ≤ c.part && c.part < 15 then s2.respond c (if opcodes.contains c.opcode then 0x06 else 0x05) (if opcodes.contains c.opcode then 4 else 0) 0 0 []
    else { s2 with cmdq := s2.cmdq ++ [c] }

/-- The packet on its way from an endpoint that the device takes next: on an open module, one whose SEQUENCE is the next of its pair, else one of whose PARTITION value none is still on a module that takes no packets. So packets on different modules come in the order of their sequence numbers (spec/12 R404, R413). -/
def State.nextArrival (s : State) (e : Nat) : Option (Nat × List Byte) :=
  let x := s.ep e
  let part := fun (q : Nat × List Byte) => (readCmd e q.2).part
  let here := x.transit.filter (fun q => s.modOpen q.1)
  match here.find? (fun q => (readCmd e q.2).seq == Tbl.get 0 x.expSeq (part q)) with
  | some q => some q
  | none => here.find? (fun q => !x.transit.any (fun r => !s.modOpen r.1 && part r == part q))
/-- Packets of an endpoint arrive, at most the given number. -/
def State.arrivals (s : State) (e : Nat) : Nat → State
  | 0 => s
  | n + 1 =>
    match s.nextArrival e with
    | none => s
    | some q => State.arrivals ((s.setEp e { s.ep e with transit := (s.ep e).transit.erase q }).arriveCmd e q.1 q.2) e n

/-- Stalled stores join the outbound buffer in order while there is room for them (spec/12 R406). -/
def takeStalled : List Byte → List (List Byte) → List Byte × List (List Byte)
  | tx, [] => (tx, [])
  | tx, b :: r => if tx.length + b.length ≤ 524288 then takeStalled (tx ++ b) r else (tx, b :: r)
/-- The adapter frames an endpoint's outbound stream: whole packets leave in order while the endpoint is enabled and the link is up; a LENGTH above 16,384 stops it and later stores are discarded (spec/12 R407). `route` gives the modules that the packets take; the number bounds the packets framed. -/
def State.frameTx (s : State) (e : Nat) : List Nat → Nat → State
  | _, 0 => s
  | route, n + 1 =>
    let x := s.ep e
    if x.txError || !x.enable || !s.linkUp || x.tx.length < 32 then s
    else
      let len := beAt x.tx 2 2
      if 16384 < len then s.setEp e { x with txError := true, tx := [], stalled := [] }
      else
        let size := 32 + 4 * len
        if x.tx.length < padded8 size then s
        else
          let q := takeStalled (x.tx.drop (padded8 size)) x.stalled
          let s1 := s.setEp e { x with tx := q.1, stalled := q.2, transit := x.transit ++ [(s.upModule route.head?, x.tx.take size)] }
          State.frameTx (s1.arrivals e (x.transit.length + 1)) e route.tail n
/-- At most how many packets an endpoint's stored bytes hold. -/
def Endpoint.stored (x : Endpoint) : Nat := x.tx.length / 32 + x.stalled.length + 1

/-- Packets on their way and in the outbound buffers go on now that a module takes them. -/
def State.frameAll (s : State) : State :=
  s.each (List.range 8) (fun s e => (s.arrivals e (s.ep e).transit.length).frameTx e [] (s.ep e).stored)

/-- GWY_TX_STORE (spec/12 R406, R407): the bytes join the outbound stream, and the packets they complete go out on the modules that the processor die chooses (R404). Another width or alignment is an access fault in the host; a store that finds no room stalls; after a framing error stores are discarded until RESYNC. -/
def execGwyTxStore (ep offset : Nat) (bytes : List Byte) (route : List Nat) (s : State) : Host.Outcome State Fault Refusal :=
  let n := bytes.length
  if !((n == 8 && offset % 8 == 0) || (n == 64 && offset % 64 == 0)) then .fault .hostAccess
  else
    let x := s.ep ep
    if 8 ≤ ep || x.txError then .next s
    else
      let q := takeStalled x.tx (x.stalled ++ [bytes])
      let y := { x with tx := q.1, stalled := q.2 }
      .next ((s.setEp ep y).frameTx ep route y.stored)

/-- Move held responses and events into the inbound buffer while there is room (spec/12 R408). -/
def State.refillRx (s : State) (e : Nat) : Nat → State
  | 0 => s
  | n + 1 =>
    let x := s.ep e
    match x.heldRx with
    | [] => s
    | i :: r =>
      if x.avail + i.bytes.length ≤ 262144 then State.refillRx (s.setEp e { x with rx := x.rx ++ [i], heldRx := r }) e n
      else s

/-- GWY_RX_LOAD (spec/12 R408): the next 8 bytes of the inbound stream are taken; with nothing waiting the load returns 0 and takes nothing. -/
def execGwyRxLoad (ep : Nat) (s : State) : Host.Outcome State Fault Refusal :=
  let x := s.ep ep
  match x.rx with
  | [] => .next (if ep < 8 then s.setEp ep { x with lastLoad := zeros 8 } else s)
  | i :: r =>
    let rest := i.bytes.drop 8
    let s1 := s.setEp ep { x with lastLoad := i.bytes.take 8, rx := if rest.isEmpty then r else { i with bytes := rest } :: r }
    .next (s1.refillRx ep (x.heldRx.length))

/-- RESYNC (spec/12 R407, R410): TX_ERROR clears and framing restarts. -/
def execResync (ep : Nat) (s : State) : Host.Outcome State Fault Refusal :=
  if ep < 8 then .next (s.setEp ep { s.ep ep with txError := false, tx := [], stalled := [] }) else .next s

/-! ## Execution (spec/12 R414 to R416) -/

/-- Take the first command that may run: of PARTITION value pv, first of its stream, not begun, its endpoint's inbound buffer not full (spec/12 R408, R414), and of the kind asked for. -/
def State.pickCmd (s : State) (pv : Nat) (g : GwyPkt → Bool) : List GwyPkt → List GwyPkt → Option (GwyPkt × List GwyPkt)
  | _, [] => none
  | seen, c :: r =>
    if c.part == pv && !c.busy && (c.src == 8 || (s.ep c.src).heldRx.isEmpty) && g c && !seen.any (fun d => sameStream c d)
    then some (c, seen ++ r) else State.pickCmd s pv g (seen ++ [c]) r
/-- Take the next command of a PARTITION value if it is of the kind asked for; the state then waits for no answer of it. -/
def State.takeCmd (s : State) (pv : Nat) (g : GwyPkt → Bool) : Option (GwyPkt × State) :=
  (s.pickCmd pv g [] s.cmdq).map (fun x => (x.1, { s with cmdq := x.2 }))
/-- Take the next command of the kind asked for, whatever its PARTITION value: the device's own first. -/
def State.takeOp (s : State) (g : GwyPkt → Bool) : Option (GwyPkt × State) := (15 :: List.range 8).findSome? (fun pv => s.takeCmd pv g)
/-- A command of an opcode. -/
def isOp (op : Nat) (c : GwyPkt) : Bool := c.opcode == op

/-- Refuse with STATE_ERROR: no side effect but the count (spec/12 R416). -/
def State.stateError (s : State) (c : GwyPkt) : State :=
  { s with rejects := s.rejects.put c.part (bump (Tbl.get 0 s.rejects c.part)) }.respond c 0x02 0 0 0 []

/-- The commands the I3C management target accepts (spec/17 R556). -/
def i3cAccepts (c : GwyPkt) : Bool :=
  c.part == 15 && ((c.opcode == 0x40 && c.arg0 == 0) || c.opcode == 0x21 || c.opcode == 0x30 || c.opcode == 0x31 || c.opcode == 0x32
    || (c.opcode == 0x50 && bitsOf c.arg0.toNat 0 2 == 2))

/-- Checks 5 and 6 of spec/12 R416: reserved fields, the PARTITION value, the binding, the partition's state. Answers the refusal, or none where the command goes on. `onPart` and `onDev` say which PARTITION values the command takes (spec/12 Table 12-6). -/
def State.acceptCmd (s : State) (c : GwyPkt) (fields onPart onDev : Bool) (ok : PState → Bool) : Option State :=
  let dev := c.part == 15
  let open15 := c.opcode == 0x21 || (c.opcode == 0x40 && c.arg0 == 0)
  if c.src == 8 && !i3cAccepts c then some (s.respond c 0x06 2 0 0 [])
  else if dev && c.src < 8 && !(s.ep c.src).mgmt && !open15 then some (s.respond c 0x06 2 0 0 [])
  else if !(c.zero && fields) || (dev && !onDev) || (!dev && !onPart) then some (s.respond c 0x06 4 0 0 [])
  else if !dev && c.opcode != 0x01 && (s.part c.part).owner.any (fun e => e != c.src) then some (s.respond c 0x06 2 0 0 [])
  else if !dev && !ok (s.part c.part).st then some (s.stateError c)
  else none

/-- The states in which MEM_*, CSR_* and ATTEST are legal (spec/12 Table 12-12). -/
def legalMem : PState → Bool
  | .claimed | .loaded | .running | .paused | .degraded | .faulted => true
  | .free | .thawing => false

/-- A command that names a reserved operation: PRIV outside spec/13 Table 13-7, RESET with scope 0b11 (spec/12 R438). -/
def reservedOp (c : GwyPkt) : Bool :=
  (c.opcode == 0x70 && !(1 ≤ bitsOf c.arg0.toNat 0 8 && bitsOf c.arg0.toNat 0 8 ≤ 7)) || (c.opcode == 0x50 && bitsOf c.arg0.toNat 0 2 == 3)
/-- BAD_OPCODE (spec/12 R416): a reserved opcode is answered and does nothing else; a reserved operation of PRIV or RESET is a reserved value, answered BAD_ARG. -/
def execBadOpcode (pv : Nat) (s : State) : Host.Outcome State Fault Refusal :=
  match s.takeCmd pv (fun c => !opcodes.contains c.opcode || reservedOp c) with
  | none => .next s
  | some (c, s1) =>
    if !opcodes.contains c.opcode then .next (s1.respond c 0x05 0 0 0 [])
    else match s1.acceptCmd c false true true (fun _ => true) with
      | some t => .next t
      | none => .next (s1.respond c 0x06 4 0 0 [])

/-! ## CLAIM and RELEASE (spec/12 R420 to R422) -/

/-- The ranges of a claim record: (first unit, count). -/
def readRanges : Nat → List Byte → List (Nat × Nat)
  | 0, _ => []
  | n + 1, l => (leAt l 0 4, leAt l 4 4) :: readRanges n (l.drop 8)
/-- No two ranges overlap. -/
def disjoint : List (Nat × Nat) → Bool
  | [] => true
  | a :: r => r.all (fun b => a.1 + a.2 ≤ b.1 || b.1 + b.2 ≤ a.1 || a.2 == 0 || b.2 == 0) && disjoint r
/-- The units of ranges that all lie below a bound. -/
def unitsOf (l : List (Nat × Nat)) : List Nat := l.flatMap (fun a => (List.range a.2).map (fun i => a.1 + i))
/-- Some partition holds near-memory unit u, or CXL unit u. -/
def State.nearHeld (s : State) (u : Nat) : Bool := (List.range 8).any (fun p => (s.part p).held && (s.part p).near.contains u)
def State.cxlHeld (s : State) (u : Nat) : Bool := (List.range 8).any (fun p => (s.part p).held && (s.part p).cxl.contains u)

/-- The values of a claim record that are answered BAD_ARG (spec/12 R420). -/
def claimOk (l : List Byte) : Bool :=
  let nn := leAt l 8 2
  let nc := leAt l 10 2
  16 ≤ l.length && l.length == 16 + 8 * (nn + nc) && nn ≤ 16 && nc ≤ 8
    && 1 ≤ leAt l 5 1 && leAt l 5 1 ≤ 15 && 1 ≤ leAt l 6 1 && leAt l 6 1 ≤ 15
    && disjoint (readRanges nn (l.drop 16)) && disjoint (readRanges nc (l.drop (16 + 8 * nn)))
/-- The reserved fields of a claim record are 0. -/
def claimZeros (l : List Byte) : Bool := leAt l 4 1 < 2 && leAt l 7 1 == 0 && leAt l 12 4 == 0

/-- The code with which a claim does not fit; none where it fits (spec/12 R420). -/
def State.claimMisfit (s : State) (l : List Byte) : Option Nat :=
  let mask := leAt l 0 4
  let nn := leAt l 8 2
  let near := readRanges nn (l.drop 16)
  let cxl := readRanges (leAt l 10 2) (l.drop (16 + 8 * nn))
  let badGroup := fun g => bitOf mask g && (s.variant.groups ≤ g || (s.groupHolder g).isSome || s.ras.lost.contains g || (s.ras.orphan && s.floeDie (8 * g) != s.lead))
  if mask = 0 || (List.range 32).any badGroup then some 0x30
  else if near.any (fun a => s.populated < a.1 + a.2) || (unitsOf near).any (fun u => s.nearHeld u) then some 0x31
  else if cxl.any (fun a => 8192 < a.1 + a.2) || (unitsOf cxl).any (fun u => s.cxlHeld u || !s.cxlUnit u) then some 0x32
  else if leAt l 4 1 = 1 && s.steer.isSome then some 0x33
  else none

/-- A claim takes effect (spec/12 R421): the grant, both weights, the steering grant, the keys, the binding. -/
def State.claimGrant (s : State) (p e : Nat) (l : List Byte) : State :=
  let nn := leAt l 8 2
  let n := s.sec.claims + 1
  let x : Part := { st := .claimed, owner := some e, groups := BitVec.ofNat 26 (leAt l 0 4), near := unitsOf (readRanges nn (l.drop 16)),
                    cxl := unitsOf (readRanges (leAt l 10 2) (l.drop (16 + 8 * nn))), claimNo := n, keys := true }
  let s1 := (s.setPart p x).setSec { s.sec with claims := n }
  let s2 := s1.setRouter { s1.router with partWeight := setNibble s1.router.partWeight p (leAt l 5 1) }
  { s2 with nm := { s2.nm with weight := setNibble s2.nm.weight p (leAt l 6 1) }, steer := if leAt l 4 1 = 1 then some p else s2.steer }

/-- CLAIM (spec/12 R420, R421, spec/13 R467): answered once the device is ready; refused in manufacturing mode. -/
def execClaim (pv : Nat) (s : State) : Host.Outcome State Fault Refusal :=
  if s.rst.phase ≠ .ready then .next s
  else match s.takeCmd pv (isOp 0x01) with
  | none => .next s
  | some (c, s1) =>
    match s1.acceptCmd c (c.arg0 == 0 && c.arg1 == 0 && claimZeros c.payload) true false (fun st => st == .free) with
    | some t => .next t
    | none =>
      if !claimOk c.payload then .next (s1.respond c 0x06 4 0 0 [])
      else if s1.sec.mfg then .next (s1.respond c 0x0B 0 0 0 [])
      else match s1.claimMisfit c.payload with
        | some code => .next (s1.respond c 0x03 code 0 0 [])
        | none => .next ((s1.claimGrant pv c.src c.payload).respond c 0 0 0 0 [])

/-- A planned calving is moving a floe of the partition, or holds it (spec/14 R484). -/
def State.calving (s : State) (p : Nat) : Bool :=
  match s.ras.calve with
  | some j => !j.waiting && j.floe.any (fun f => (s.partFloes p).contains f)
  | none => false

/-- RELEASE (spec/12 R422): waits for a planned calving (spec/14 R484), answers ACCEPTED and begins the thaw. -/
def execRelease (pv : Nat) (s : State) : Host.Outcome State Fault Refusal :=
  if s.calving pv then .next s
  else match s.takeCmd pv (isOp 0x02) with
  | none => .next s
  | some (c, s1) =>
    match s1.acceptCmd c (c.arg0 == 0 && c.arg1 == 0 && c.payload.isEmpty) true false (fun st => st != .free && st != .thawing) with
    | some t => .next t
    | none => .next ((s1.respond c 0x01 0 0 0 []).beginThaw pv)

/-! ## Loading (spec/12 R423, R424) -/

/-- LOAD_BEGIN (spec/12 R424). -/
def execLoadBegin (pv : Nat) (s : State) : Host.Outcome State Fault Refusal :=
  if s.calving pv then .next s
  else match s.takeCmd pv (isOp 0x03) with
  | none => .next s
  | some (c, s1) =>
    let n := c.arg0.toNat
    match s1.acceptCmd c (c.arg1 == 0 && c.payload.isEmpty) true false (fun st => st == .claimed || st == .loaded || st == .degraded) with
    | some t => .next t
    | none =>
      if n < 4096 || 2 ^ 32 < n then .next (s1.respond c 0x06 4 0 0 [])
      else
        let s2 := if (s1.part pv).st = .claimed then s1 else s1.resetPart pv
        .next ((s2.setPart pv { s2.part pv with st := .claimed, image := none, load := some { len := n } }).respond c 0 0 0 0 [])

/-- The section count of an image header. -/
def imgCount (l : List Byte) : Nat := leAt l 12 4
/-- A section entry: type, floe index, image offset, length, target. -/
structure Section where
  typ  : Nat
  floe : Nat
  off  : Nat
  len  : Nat
  tgt  : Nat
/-- Entry i of the section table (spec/12 R423). -/
def imgEntry (l : List Byte) (i : Nat) : Section :=
  let o := 64 + 32 * i
  { typ := leAt l o 2, floe := leAt l (o + 2) 2, off := leAt l (o + 8) 8, len := leAt l (o + 16) 8, tgt := leAt l (o + 24) 8 }
/-- The image header is well formed for an image of length n (spec/12 Table 12-8). -/
def imgHeaderOk (l : List Byte) (n : Nat) : Bool :=
  l.take 8 == [0x4C#8, 0x45#8, 0x41#8, 0x4E#8, 0x49#8, 0x4E#8, 0x45#8, 0x01#8] && leAt l 8 2 == 1
    && 1 ≤ imgCount l && imgCount l ≤ 4096 && leAt l 16 8 == n
    && 1 ≤ leAt l 24 1 && leAt l 24 1 ≤ 3 && 1 ≤ leAt l 25 1 && leAt l 25 1 ≤ 26 && leAt l 26 1 < 8
    && (sliceB l 27 5).all (fun b => b == 0) && (sliceB l 52 12).all (fun b => b == 0)
    && 64 + 32 * imgCount l ≤ n - 256
/-- Entry i is well formed: its type, zeros, place, target and floe; a section of a floe's tables with floe index 0xFFFF is for every floe (spec/12 R423, Table 12-9, notes/assumptions/40.md). -/
def imgEntryOk (l : List Byte) (n floes i : Nat) : Bool :=
  let e := imgEntry l i
  let lo := if i = 0 then 64 + 32 * imgCount l else (imgEntry l (i - 1)).off + (imgEntry l (i - 1)).len
  1 ≤ e.typ && e.typ ≤ 11 && leAt l (64 + 32 * i + 4) 4 == 0 && lo ≤ e.off && e.off + e.len ≤ n - 256
    && (e.floe < floes || e.floe == 0xFFFF)
    && (e.typ != 1 || e.floe < floes)
    && (if e.typ ≤ 2 then true else if e.typ = 8 then e.tgt < 256 else if e.typ = 9 then e.tgt < 16 else e.tgt == 0)
/-- The entries of the table that have wholly arrived. -/
def imgArrived (l : List Byte) : Nat := min (imgCount l) ((l.length - 64) / 32)

/-- The device address an image byte is written to; none for a byte of another section. -/
def secTarget (floes : List Nat) (e : Section) (i : Nat) : Option Nat :=
  if e.typ = 1 then some (spAddr (floes.getD e.floe 0) (e.tgt + (i - e.off)))
  else if e.typ = 2 then some (e.tgt + (i - e.off)) else none
/-- The runs of bytes that a chunk [lo, hi) brings to FLOE_BYTES and DEVICE_BYTES sections: (section, first image offset, count). -/
def chunkRuns (l : List Byte) (lo hi : Nat) : List (Section × Nat × Nat) :=
  ((List.range (imgArrived l)).map (fun i => imgEntry l i)).filterMap (fun e =>
    let a := max lo e.off
    let b := min hi (e.off + e.len)
    if (e.typ = 1 || e.typ = 2) && a < b then some (e, a, b - a) else none)
/-- A run's target lies inside the backed scratchpad or the partition's grants, its own scratchpad windows among them (spec/12 R424, spec/00 R3, spec/01 R22). -/
def State.runOk (s : State) (p : Nat) (r : Section × Nat × Nat) : Bool :=
  let e := r.1
  if e.typ = 1 then e.tgt + (r.2.1 - e.off) + r.2.2 ≤ spSize
  else s.hostMay p (e.tgt + (r.2.1 - e.off)) r.2.2 false
/-- Write a chunk's runs to their targets; the second part says that none met unavailable storage or an uncorrectable line. -/
def State.writeRuns (s : State) (p : Nat) (l : List Byte) : List (Section × Nat × Nat) → State × Bool
  | [] => (s, true)
  | r :: rs =>
    match secTarget (s.partFloes p) r.1 r.2.1 with
    | some a =>
      let (s1, ok) := s.devWrite a (sliceB l r.2.1 r.2.2) []
      let (s2, all) := State.writeRuns s1 p l rs
      (s2, ok && all)
    | none => State.writeRuns s p l rs

/-- The load closes with a refusal. -/
def State.closeLoad (s : State) (c : GwyPkt) (st det : Nat) : State :=
  (s.setPart c.part { s.part c.part with load := none }).respond c st det 0 0 []

/-- LOAD_CHUNK (spec/12 R423, R424). One that meets a lost window is answered FAULT (spec/08 R255); the load stays open and the chunk does not count as received (notes/assumptions/118.md). -/
def execLoadChunk (pv : Nat) (s : State) : Host.Outcome State Fault Refusal :=
  match s.takeCmd pv (isOp 0x04) with
  | none => .next s
  | some (c, s1) =>
    match s1.acceptCmd c (c.arg1 == 0) true false (fun st => st == .claimed && (s1.part pv).load.isSome) with
    | some t => .next t
    | none =>
      match (s1.part pv).load with
      | none => .next (s1.stateError c)
      | some ld =>
        let got := ld.bytes.length
        let all := ld.bytes ++ c.payload
        let floes := (s1.partFloes pv).length
        if c.arg0.toNat ≠ got || ld.len < all.length then .next (s1.respond c 0x06 5 0 0 [])
        else if (got = 0 && all.length < 64) || !imgHeaderOk all ld.len
            || !(List.range (imgArrived all)).all (fun i => imgEntryOk all ld.len floes i) then .next (s1.closeLoad c 0x06 4)
        else
          let rs := chunkRuns all got all.length
          if !rs.all (fun r => s1.runOk pv r) then .next (s1.closeLoad c 0x06 3)
          else if rs.any (fun r => ((secTarget (s1.partFloes pv) r.1 r.2.1).map (fun a => s1.memHeld a r.2.2)).getD false) then .next s
          else
            if (s1.writeRuns pv all rs).2 then
              .next (((s1.setPart pv { s1.part pv with load := some { ld with bytes := all } }).respond c 0 0 0 0 []).writeRuns pv all rs).1
            else .next ((s1.respond c 0x0E 1 0 0 []).writeRuns pv all rs).1.settle

/-! ## Running (spec/12 R428, R429) -/

/-- A RUNNING stream becomes PAUSED, a TAG.WAIT in progress being abandoned; a PAUSED one RUNNING (spec/06 R191). -/
def StreamSt.pause (x : StreamSt) : StreamSt := if x.st = .running then { x with st := .paused, wait := none } else x
def StreamSt.resume (x : StreamSt) : StreamSt := if x.st = .paused then { x with st := .running } else x
/-- Apply a change to every stream of a partition. -/
def State.mapStreams (s : State) (p : Nat) (g : StreamSt → StreamSt) : State :=
  s.each (s.partFloes p) (fun s f =>
    let x := s.floe f
    s.setFloe f { x with fwd := g x.fwd, bwd := g x.bwd, upd := g x.upd })

/-- PAUSE (spec/12 R428, spec/10 R349): the streams stop at their boundaries; with no step open it is answered at once, else it waits for the steps to close or for PAUSE_WAIT_EXPIRY. -/
def execPause (pv : Nat) (s : State) : Host.Outcome State Fault Refusal :=
  if s.calving pv then .next s
  else match s.takeCmd pv (isOp 0x07) with
  | none => .next s
  | some (c, s1) =>
    match s1.acceptCmd c (c.arg0 == 0 && c.arg1 == 0 && c.payload.isEmpty) true false (fun st => st == .running) with
    | some t => .next t
    | none =>
      let s2 := s1.mapStreams pv StreamSt.pause
      let x := s2.part pv
      let s3 := s2.setPart pv { x with st := .paused }
      if x.openSteps.isEmpty then .next (s3.respond c 0 0 0 0 [])
      else
        let s4 := (s3.setPart pv { s3.part pv with pausing := true }).slowPart pv
        .next { s4 with cmdq := { c with busy := true } :: s4.cmdq }

/-- PAUSE_WAIT_EXPIRY (spec/10 R349, spec/12 R428): 2 ms after a PAUSE the steps still open are abandoned, and PAUSE is answered with their number. -/
def execPauseWaitExpiry (p : Nat) (s : State) : Host.Outcome State Fault Refusal :=
  let x := s.part p
  if x.pausing then
    let n := x.openSteps.length
    let s1 := s.setPart p { x with steps := x.steps.map (fun t => if t.isOpen then { t with abandoned := true } else t) }
    .next (s1.answerPause p 0 0 n)
  else .next s

/-- RESUME (spec/12 R428, spec/10 R349): the streams run again and the abandoned steps are replayed. -/
def execResume (pv : Nat) (s : State) : Host.Outcome State Fault Refusal :=
  match s.takeCmd pv (isOp 0x08) with
  | none => .next s
  | some (c, s1) =>
    match s1.acceptCmd c (c.arg0 == 0 && c.arg1 == 0 && c.payload.isEmpty) true false (fun st => st == .paused) with
    | some t => .next t
    | none =>
      let s2 := s1.mapStreams pv StreamSt.resume
      let s3 := s2.setPart pv { s2.part pv with st := .running }
      .next ((s3.respond c 0 0 0 0 []).replayOpen pv)

/-- A stream as a partition reset leaves it, its counter kept (spec/06 Table 6-1, spec/12 R429). -/
def StreamSt.idled (y : StreamSt) : StreamSt := { issued := y.issued }
/-- A floe's streams and flags as a partition reset leaves them (spec/12 R429, spec/05 R151). -/
def Floe.idled (x : Floe) : Floe := { x with fwd := x.fwd.idled, bwd := x.bwd.idled, upd := x.upd.idled, vflags := 0 }
/-- ABORT (spec/12 R429): the streams stop and the open steps fail with ABORTED; once the accepted instructions have completed the floes are left as a partition reset leaves them, but for scratchpad, RWL fields and counters. Until then it waits, and the next ABORT step goes on with it. -/
def execAbort (pv : Nat) (s : State) : Host.Outcome State Fault Refusal :=
  if s.calving pv then .next s
  else match s.takeCmd pv (isOp 0x09) with
  | none => .next s
  | some (c, s1) =>
    match s1.acceptCmd c (c.arg0 == 0 && c.arg1 == 0 && c.payload.isEmpty) true false
        (fun st => st == .running || st == .paused || st == .degraded || st == .faulted) with
    | some t => .next t
    | none =>
      let s2 := (s1.stopStreams pv).failOpen pv 4 true
      if s2.floesIdle pv then
        let s3 := s2.startFloes pv
        let s3 := s3.each (s3.partFloes pv) (fun s f => s.setFloe f (s.floe f).idled)
        let x := s3.part pv
        .next ((s3.setPart pv { x with st := if x.st = .degraded then .degraded else .loaded }).respond c 0 0 0 0 [])
      else .next { s2 with cmdq := c :: s2.cmdq }

/-! ## Memory, telemetry, snapshot (spec/12 R431, R436, R437) -/

/-- The bytes that a MEM_WRITE or MEM_READ which the device would carry out reaches: address and length; none for a command it would refuse. -/
def State.memReach (s : State) (c : GwyPkt) : Option (Nat × Nat) :=
  let a := c.arg0.toNat
  let wr := c.opcode == 0x10
  let n := if wr then c.payload.length else c.arg1.toNat
  if !wr && c.opcode != 0x11 then none
  else if (s.acceptCmd c (if wr then c.arg1 == 0 else c.payload.isEmpty) true false legalMem).isSome || (!wr && (n < 4 || 65536 < n || n % 4 ≠ 0))
    || a % 4 ≠ 0 || !s.hostMay c.part a n wr then none
  else some (a, n)
/-- The isolation wrapper of a controller or port answers ISOLATED to the MEM_WRITE and MEM_READ commands whose turn it is and that reach it, unless they are held before it (spec/12 R438, spec/15 R508; notes/assumptions/148.md). -/
def State.isolateCmds (s : State) (g : Nat × Nat) : State :=
  s.each (List.range 8) (fun s p =>
    match s.takeCmd p (fun c => (s.memReach c).any (fun r => (unitBases r.1 r.2).any (s.served [g]) && !s.memHeld r.1 r.2)) with
    | some (c, s1) => s1.respond c 0x0D 0 0 0 []
    | none => s)

/-- The answer of a command that reaches memory, by whether its access ends well. It is sent before the access's own events, since an event that a command causes follows the command's response (spec/12 R431, R443). -/
def State.memAnswer (s : State) (c : GwyPkt) (ok : Bool) (n : Nat) (l : List Byte) : State :=
  if ok then s.respond c 0 0 n 0 l else s.respond c 0x0E 1 0 0 []

/-- MEM_WRITE (spec/12 R431). -/
def execMemWrite (pv : Nat) (errs : Errs) (s : State) : Host.Outcome State Fault Refusal :=
  match s.takeCmd pv (isOp 0x10) with
  | none => .next s
  | some (c, s1) =>
    match s1.acceptCmd c (c.arg1 == 0) true false legalMem with
    | some t => .next t
    | none =>
      let a := c.arg0.toNat
      if a % 4 ≠ 0 || !s1.hostMay pv a c.payload.length true then .next (s1.respond c 0x06 3 0 0 [])
      else if s1.memHeld a c.payload.length then .next s
      else
        .next ((s1.memAnswer c (s1.devWrite a c.payload errs).2 0 []).devWrite a c.payload errs).1.settle

/-- MEM_READ (spec/12 R431): an uncorrectable byte is answered FAULT, and no data is returned. -/
def execMemRead (pv : Nat) (errs : Errs) (s : State) : Host.Outcome State Fault Refusal :=
  match s.takeCmd pv (isOp 0x11) with
  | none => .next s
  | some (c, s1) =>
    match s1.acceptCmd c c.payload.isEmpty true false legalMem with
    | some t => .next t
    | none =>
      let a := c.arg0.toNat
      let n := c.arg1.toNat
      if n < 4 || 65536 < n || n % 4 ≠ 0 then .next (s1.respond c 0x06 4 0 0 [])
      else if a % 4 ≠ 0 || !s1.hostMay pv a n false then .next (s1.respond c 0x06 3 0 0 [])
      else if s1.memHeld a n then .next s
      else
        let r := s1.devRead a n errs
        .next ((s1.memAnswer c r.2.2 0 r.2.1).devRead a n errs).1.settle

/-- The partition TELEM record (spec/12 Table 12-11). -/
def State.telemPart (s : State) (p : Nat) : List Byte :=
  let x := s.part p
  leBytes 8 s.now.toNat ++ leBytes 1 x.st.code ++ leBytes 1 (x.owner.getD 0xFF) ++ zeros 2 ++ leBytes 4 x.serial.toNat
    ++ leBytes 4 x.stepCount.toNat ++ leBytes 4 x.commits.toNat ++ leBytes 4 x.discards.toNat ++ leBytes 4 x.groups.toNat
    ++ leBytes 4 x.lastKey.toNat ++ zeros 28

/-- TELEM (spec/12 R436): record 0x00 needs PARTITION 0xF, record 0x01 partition p; any other record is refused. -/
def execTelem (pv : Nat) (s : State) : Host.Outcome State Fault Refusal :=
  match s.takeCmd pv (isOp 0x40) with
  | none => .next s
  | some (c, s1) =>
    match s1.acceptCmd c (c.arg1 == 0 && c.payload.isEmpty && c.arg0 == (if pv = 15 then 0 else 1)) true true (fun st => st != .free) with
    | some t => .next t
    | none => .next (s1.respond c 0 0 0 0 (if pv = 15 then s1.telemDevice none else s1.telemPart pv))

end Sys2Proof.Machine
end

