-- ==== Sys2Proof/Machine/Service.lean ====
section
/-! DEFINITION. Service while the device runs: calving of floe sites, spare sites, add units, the orphan and the bridge (spec/14 R475 to R491). -/

namespace Sys2Proof.Machine

/-! ## Quiet points and holds (spec/14, "Live firmware") -/

/-- A floe is at a quiet point: nothing accepted is incomplete, no bank is OPEN or DRAINING, the tile queue is empty, no step is armed on it. -/
def State.quiet (s : State) (f : Nat) : Bool :=
  let x := s.floe f
  allStreams.all (fun st => s.streamDone f st) && x.bank0.st == .free && x.bank1.st == .free && x.tq.isEmpty
    && (match s.floePart f with
        | some p => !(s.part p).steps.any (fun t => t.floes.contains f)
        | none => true)
/-- Hold a floe: its streams stop at their next boundary without an OPEN bank, and its open steps send SLOW. -/
def State.holdFloe (s : State) (f : Nat) : State :=
  (s.setFloe f { s.floe f with held := true }).slowWhere (fun _ t => t.floes.contains f)
/-- Release a floe. -/
def State.freeFloe (s : State) (f : Nat) : State := s.setFloe f { s.floe f with held := false, copying := false }
/-- A CONTROL activation holds a floe and goes first: it was requested before the calving (spec/14 R479). -/
def State.fwFirst (s : State) (f : Nat) : Bool := s.sec.fwAct.any (fun a => a.todo.contains f && !a.released.contains f)
/-- A calving holds a floe. -/
def State.calveHolds (s : State) (f : Nat) : Bool := s.ras.calve.any (fun j => !j.waiting && j.floe == some f)

/-! ## The remap records (spec/14 R480, R481) -/

/-- Write a remap record: a fused one, else one in the volatile table and the service record. -/
def State.writeRecord (s : State) (site dst : Nat) : State :=
  let s1 := s.setRas { s.ras with failed := s.ras.failed ++ [site] }
  if site / 112 = 0 then
    if s.fuses.rec0.length < 32 then { s1 with fuses := { s1.fuses with rec0 := s1.fuses.rec0 ++ [(site, dst)] } }
    else s1.setFlash { s1.flash with remap := s1.flash.remap ++ [(site, dst)] }
  else if s.fuses.rec1.length < 32 then { s1 with fuses := { s1.fuses with rec1 := s1.fuses.rec1 ++ [(site, dst)] } }
  else s1.setFlash { s1.flash with remap := s1.flash.remap ++ [(site, dst)] }
/-- The FLOE_CALVED event (spec/12 Table 12-13); logical floe 0xFF reports a refused calving (notes/assumptions/38.md). -/
def State.calvedEvent (s : State) (site f : Nat) : State :=
  s.eventMgmt 0x42 (site / 112) (leBytes 1 site ++ leBytes 1 f ++ zeros 2)

/-! ## Planned calving (spec/14 R482, Table 14-2) -/

/-- A planned calving of a site that carries a floe begins, or is refused where no working spare is left. -/
def State.beginCalve (s : State) (site f : Nat) : State :=
  match s.spares (site / 112) with
  | [] => s.calvedEvent site 0xFF
  | d :: _ => (s.setRas { s.ras with calve := some { site := site, dst := d, floe := some f }, deferred := false }).holdFloe f
/-- A write of RAS_CALVE with GO: ignored and counted while a calving is in progress or for a spare or a failed site (spec/14 R494). -/
def State.calveGo (s : State) (site : Nat) : State :=
  match s.floeAt site with
  | some f => if s.ras.calve.isSome || s.ras.failed.contains site then s.countErr s.lead 0xC0 else s.beginCalve site f
  | none => s.countErr s.lead 0xC0
/-- RAS_CALVE_GO (spec/14 R482). -/
def execRasCalveGo (site : Byte) (s : State) : Host.Outcome State Fault Refusal :=
  .next ((s.setRas { s.ras with site := site }).calveGo site.toNat)
/-- Calvings that are due because a site's ERR_COUNT rose by 64 within an hour: one at a time (spec/14 R479, R482). -/
def State.calveDue (s : State) : State :=
  if s.ras.calve.isSome then s
  else match s.ras.siteErrs.find? (fun e => 64 ≤ e.2.length && (s.floeAt e.1).isSome && !s.ras.failed.contains e.1) with
    | none => s
    | some (site, _) => (s.setRas { s.ras with siteErrs := s.ras.siteErrs.del site }).beginCalve site ((s.floeAt site).getD 0)

/-- CALVE_QUIET_POINT: the copy begins, and inbound packets for the floe are ejected (spec/14 Table 14-2 step 3). -/
def execCalveQuietPoint (s : State) : Host.Outcome State Fault Refusal :=
  match s.ras.calve with
  | some j =>
    match j.floe with
    | some f =>
      if j.copying || j.waiting || s.fwFirst f || !s.quiet f then .next s
      else .next ((s.setFloe f { s.floe f with copying := true }).setRas { s.ras with calve := some { j with copying := true } })
    | none => .next s
  | none => .next s
/-- CALVE_HOLD_TIMEOUT: no quiet point within 2 ms; the floe is released and DEFERRED sets (spec/14 Table 14-2 step 2). -/
def execCalveHoldTimeout (s : State) : Host.Outcome State Fault Refusal :=
  match s.ras.calve with
  | some j =>
    if j.copying || j.waiting || j.floe.any (fun f => s.fwFirst f) then .next s
    else .next ((s.each j.floe.toList (fun s f => s.freeFloe f)).setRas { s.ras with calve := some { j with waiting := true }, deferred := true })
  | none => .next s
/-- CALVE_RETRY: 100 ms later the floe is held again (spec/14 Table 14-2 step 2). -/
def execCalveRetry (s : State) : Host.Outcome State Fault Refusal :=
  match s.ras.calve with
  | some j =>
    if j.waiting then .next ((s.setRas { s.ras with calve := some { j with waiting := false } }).each j.floe.toList (fun s f => s.holdFloe f))
    else .next s
  | none => .next s
/-- CALVE_COPY_COMPLETE: the maps name the new site, the record is written, FLOE_CALVED is sent and GO clears (spec/14 Table 14-2 steps 5 and 6). -/
def execCalveCopyComplete (s : State) : Host.Outcome State Fault Refusal :=
  match s.ras.calve with
  | some j =>
    match j.floe with
    | some f =>
      if j.copying then
        let s1 := s.setRas { s.ras with calve := none, moved := s.ras.moved.put f j.dst }
        .next ((((s1.freeFloe f).writeRecord j.site j.dst).rasReport 0).calvedEvent j.site f)
      else .next s
    | none => .next s
  | none => .next s

/-! ## Sites that fail (spec/14 R482, R483) -/

/-- A floe group is lost: it leaves its partition's grant. -/
def State.loseGroup (s : State) (g : Nat) : State :=
  let s1 := s.setRas { s.ras with lost := g :: s.ras.lost }
  match s1.groupHolder g with
  | some p => s1.setPart p { s1.part p with groups := setBit (s1.part p).groups g false }
  | none => s1
/-- A site that carries no floe fails: it is recorded with 0xFF. -/
def State.failSpare (s : State) (site : Nat) : State := if s.ras.failed.contains site then s else s.writeRecord site 0xFF
/-- A planned calving that a failure of its site or of its target overtakes ends. -/
def State.dropCalve (s : State) (site : Nat) : State :=
  match s.ras.calve with
  | some j => if j.site = site || j.dst = site then (s.each j.floe.toList (fun s f => s.freeFloe f)).setRas { s.ras with calve := none } else s
  | none => s
/-- SITE_HARD_FAILURE (spec/14 R483): the holder becomes DEGRADED; the floe moves to the lowest spare with no copy, or its group is lost. -/
def execSiteHardFailure (site : Nat) (s : State) : Host.Outcome State Fault Refusal :=
  let s0 := s.dropCalve site
  if s0.ras.failed.contains site then .next s0
  else match s0.floeAt site with
    | none => .next (s0.failSpare site)
    | some f =>
      let s1 := match s0.floePart f with
        | some p => s0.degrade p 1
        | none => s0
      match s1.spares (site / 112) with
      | d :: _ =>
        let s2 := (s1.setRas { s1.ras with moved := s1.ras.moved.put f d }).writeRecord site d
        .next (((s2.abandonFloe f).resetFloe f).calvedEvent site f)
      | [] => .next ((s1.writeRecord site 0xFF).loseGroup (f / 8))
/-- SPARE_SELF_TEST (spec/14 R475, R482): a spare site that fails is recorded with 0xFF, and nothing moves. -/
def execSpareSelfTest (site : Nat) (pass : Bool) (s : State) : Host.Outcome State Fault Refusal :=
  if pass || (s.floeAt site).isSome then .next s else .next ((s.dropCalve site).failSpare site)

/-! ## Add units (spec/14 R485) -/

/-- ADD_UNIT_TEST (spec/14 R485): a failed unit that passes returns to service, FAILED staying set; one that fails its test, or had failed before, is retired into the service record. -/
def execAddUnitTest (unit : Nat) (pass : Bool) (s : State) : Host.Outcome State Fault Refusal :=
  let r := s.router
  if 7 ≤ unit || !r.addFailed.getLsbD unit || r.addIn.getLsbD unit || s.flash.addRetired.getLsbD unit then .next s
  else if pass then .next (s.setRouter { r with addIn := setBit r.addIn unit true })
  else
    .next (s.setFlash { s.flash with addRetired := setBit s.flash.addRetired unit true })

/-! ## The orphan and the bridge (spec/14 R475, R488 to R491, spec/12 R405) -/

/-- The die that does not lead. -/
def State.otherDie (s : State) : Nat := 1 - s.lead
/-- The floe groups of a die. -/
def State.dieGroups (s : State) (die : Nat) : List Nat := (List.range s.variant.groups).filter (fun g => s.floeDie (8 * g) == die)
/-- HEARTBEAT_LOSS (spec/14 R489): the other die is an orphan; its floes stop, their partitions become DEGRADED with cause 4, and its groups leave their grants. It sends LINK_STATE of its mesh ports (spec/14 R489 step 5; which ports, DEDUCED, notes/assumptions/147.md). -/
def execHeartbeatLoss (s : State) : Host.Outcome State Fault Refusal :=
  if s.ras.orphan then .next s
  else
    let d := s.otherDie
    let gs := s.dieGroups d
    let who := (List.range 8).filter (fun p => (s.part p).held && gs.any (fun g => (s.part p).groups.getLsbD g))
    let s1 := (s.setRas { s.ras with orphan := true, ctrlUp := false, beatSince := none, orphans := bump s.ras.orphans }).rasReport 3
    let s2 := (s1.each who (fun s p => s.degrade p 4)).each ((List.range 12).filter (fun k => axisDie (k / 4) == d)) (fun s k => s.linkEvent k)
    .next (s2.each who (fun s p =>
      let x := s.part p
      if x.st = .thawing then s else s.setPart p { x with groups := gs.foldl (fun m g => setBit m g false) x.groups }))
/-- CONTROL_LANE_RETRAIN (spec/14 R491): every 100 ms the control lane is retrained; it carries heartbeats, or it does not. -/
def execControlLaneRetrain (up : Bool) (s : State) : Host.Outcome State Fault Refusal :=
  if s.ras.orphan then
    .next (s.setRas { s.ras with ctrlUp := up, beatSince := if up then some (s.ras.beatSince.getD s.now) else none })
  else .next s
/-- ORPHAN_REJOIN (spec/14 R491): after 10 ms of heartbeats a new bridge key is agreed, the orphan's groups are free again and its ports return by UP notices. -/
def execOrphanRejoin (s : State) : Host.Outcome State Fault Refusal :=
  if s.ras.orphan && s.ras.beatSince.isSome then
    let s1 := (s.setRas { s.ras with orphan := false, ctrlUp := true, beatSince := none }).setSec { s.sec with bridgeKey := true }
    .next (s1.each (List.range 12) (fun s k =>
      if axisDie (k / 4) = s.otherDie && (s.port k).st = .up && s.time.aligned && !s.drained k then s.notice k true else s))
  else .next s
/-- BRIDGE_DATA_LANE_LOSS (spec/14 R490): the orphan's memory is lost with the data lanes. -/
def execBridgeDataLaneLoss (s : State) : Host.Outcome State Fault Refusal :=
  if s.ras.orphan then .next (s.loseOrphanMemory s.otherDie) else .next s
/-- BRIDGE_LANE_RETRAIN (spec/14 R475, R486): a lane group is retrained with some of its lanes lost; two are spared, and a third is a DEVICE error. -/
def execBridgeLaneRetrain (group lanesLost : Nat) (s : State) : Host.Outcome State Fault Refusal :=
  let s1 := s.setRas { s.ras with lanesLost := s.ras.lanesLost.put group lanesLost, dataSpares := setBit s.ras.dataSpares group (decide (lanesLost < 2)) }
  .next (if 2 < lanesLost && Tbl.get 0 s.ras.lanesLost group ≤ 2 then s1.rasReport 3 else s1)

/-! ## What has come due -/

/-- The BLOCK_ERROR about the FATAL error behind the last cold reset goes out once a management endpoint can take it (spec/14 R487). -/
def State.fatalReport (s : State) : State :=
  if s.rst.fatalDue && s.linkUp && (List.range 8).any (fun e => (s.ep e).mgmt && (s.ep e).enable) then
    let c := s.flash.fatal.getD (0, 0, 0)
    (s.setRst { s.rst with fatalDue := false }).eventMgmt 0x40 c.1 (leBytes 4 (blockAddr c.1 c.2.1) ++ leBytes 4 (2 ^ c.2.2))
  else s
/-- A commit that waited for the current and alternate tags goes on once they are free (spec/07 R226 item 1). -/
def State.commitDue (s : State) : State :=
  s.each (List.range 8) (fun s p => if (s.part p).committing then s.each ((s.part p).steps.filter (fun t => t.result.isSome)) (fun s t => s.endVerdict p t) else s)
/-- What waits at the mesh ports leaves as its token buckets fill (spec/09 R282). -/
def State.portsDue (s : State) : State := s.each (List.range 12) (fun s k => if (s.port k).queue.isEmpty then s else s.drain k)
/-- What has come due while no command waited: forced retirements, calvings, commits, waiting packets, the report of a FATAL error (spec/07 R226, spec/08 R249, spec/09 R282, spec/14 R482, R487). -/
def State.duties (s : State) : State := s.settle.calveDue.commitDue.portsDue.fatalReport

end Sys2Proof.Machine
end

