-- ==== Sys2Proof/Machine/Csr.lean ====
section
/-! DEFINITION. Register pages: the directory and the common header, every block register as it reads and as a write changes it, halves of 64-bit registers, FREEZE, block reset requests, the CSR commands and SNAPSHOT (spec/16, spec/12 R432, R437). -/

namespace Sys2Proof.Machine

/-! ## Pages (spec/16 R531 to R533, R545, Table 16-1) -/

/-- The page indices that Table 16-1 assigns, ascending. -/
def pageList : List Nat :=
  List.range 113 ++ [0x80, 0x81, 0x82, 0x83, 0x84, 0x85, 0x88, 0x90, 0x91, 0xA0, 0xA8, 0xA9, 0xB0, 0xC0, 0xC1, 0xC2, 0xC3, 0xC4, 0xC5]
/-- A page is marked lead-only. -/
def leadOnly (page : Nat) : Bool := 9 ≤ pageType page && pageType page ≤ 14
/-- The INSTANCE of a page. -/
def pageInstance (die page : Nat) : Nat :=
  match pageType page with
  | 1 | 4 | 6 | 8 => die
  | 2 => die * 112 + (page - 1)
  | 3 => 6 * die + (page - 0x80)
  | 5 => 2 * die + (page - 0x90)
  | 7 => 2 * die + (page - 0xA8)
  | _ => 0
/-- The firmware component whose live activation changes the block, or 0. -/
def liveComp (page : Nat) : Nat :=
  match pageType page with
  | 2 => 3
  | 3 | 14 => 5
  | 4 => 6
  | 6 | 7 | 11 => 4
  | 9 | 10 | 12 | 13 => 1
  | _ => 0
/-- CAPS.PRESENT: the block is fitted and enabled (spec/16 R545). -/
def State.present (s : State) (die page : Nat) : Bool :=
  match pageType page with
  | 0 => false
  | 3 => s.variant.nmcFitted (pageInstance die page)
  | 9 | 10 | 11 | 12 | 13 | 14 => die == s.lead
  | _ => true
/-- CAPS.RESETTABLE: spec/15 Table 15-7 allows a block reset. -/
def resettable (page : Nat) : Bool := 2 ≤ pageType page && pageType page ≤ 5
/-- HOLD, GO and ISOLATE take effect on a page (spec/16 R536). -/
def State.resetOk (s : State) (die page : Nat) : Bool :=
  resettable page && s.present die page && (pageType page != 2 || ((s.floeAt (die * 112 + (page - 1))).bind s.floePart).isNone)
/-- The key of the floe state behind a site's page: its logical floe, or one of the site's own for a site that carries none. -/
def State.siteKey (s : State) (site : Nat) : Nat := (s.floeAt site).getD (256 + site)
/-- A directory entry (spec/16 Table 16-2). -/
def State.dirEntry (s : State) (die i : Nat) : Nat :=
  match pageList[i]? with
  | none => 0
  | some page =>
    let v := (Config.layoutVersion (pageType page)).toNat
    page + pageType page * 2 ^ 16 + pageInstance die page * 2 ^ 32 + (v / 256) * 2 ^ 40 + (v % 256) * 2 ^ 48 + b2n (s.present die page) * 2 ^ 63

/-! ## What registers read -/

/-- The offset is the low half of a 64-bit register of a page type. -/
def wide (ty off : Nat) : Bool :=
  off % 8 == 0 && (match ty with
  | 1 => 0x80 ≤ off && off < 0x80 + 8 * pageList.length
  | 2 => (0x50 ≤ off && off ≤ 0x98) || (0xA8 ≤ off && off ≤ 0xC0) || (0x128 ≤ off && off ≤ 0x138) || (0x150 ≤ off && off ≤ 0x168)
         || (0x178 ≤ off && off ≤ 0x190) || off == 0x1A8 || off == 0x1B0 || off == 0x1C0 || off == 0x1C8 || (0x210 ≤ off && off ≤ 0x230)
  | 3 => 0x50 ≤ off && off ≤ 0x68
  | 4 => 0x50 ≤ off && off ≤ 0x98
  | 5 => 0x48 ≤ off && off ≤ 0x58
  | 6 => off == 0x48 || off == 0x58 || off == 0x68 || (0x80 ≤ off && off < 0x1C0) || off == 0x1F0 || (0x208 ≤ off && off ≤ 0x218)
  | 7 => (0x48 ≤ off && off ≤ 0x60) || off == 0x70 || (0x80 ≤ off && off ≤ 0x90) || (0xA0 ≤ off && off ≤ 0xB8) || (0x120 ≤ off && off ≤ 0x168)
  | 8 => 0x48 ≤ off && off ≤ 0x58
  | 9 => (0x50 ≤ off && off ≤ 0x70) || off == 0x88
  | 10 => off == 0x50 || off == 0x58
  | 11 => off == 0x40 || off == 0x50
  | 12 => (0x50 ≤ off && off ≤ 0x88) || (0xB0 ≤ off && off ≤ 0xE8)
  | 13 => 0x50 ≤ off && off ≤ 0x60
  | 14 => off == 0x48 || off == 0x50
  | _ => false)
/-- The register that begins at an offset is a counter, which FREEZE freezes (spec/16 R534). -/
def counter (ty off : Nat) : Bool :=
  wide ty off && (match ty with
  | 2 => !(0x150 ≤ off && off ≤ 0x168) && off != 0x228
  | 3 | 5 => true
  | 4 => 0x90 ≤ off
  | 6 => (0x80 ≤ off && off < 0x100) || 0x1F0 ≤ off
  | 7 => 0xA0 ≤ off && off != 0x160
  | 8 => 0x50 ≤ off
  | 9 | 12 => true
  | 10 => off == 0x58
  | _ => false)

/-- A stream state's code (spec/06 Table 6-1). -/
def SState.code : SState → Nat
  | .idle => 0 | .running => 1 | .paused => 2 | .halted => 3 | .faulted => 4 | .stopped => 5
/-- A bank state's code. -/
def BankSt.code : BankSt → Nat
  | .free => 0 | .opened => 1 | .draining => 2
/-- FLOE_MMA_STATUS (spec/03 Table 3-9). -/
def Floe.mmaStatus (x : Floe) : Nat :=
  b2n (!x.mmas.isEmpty || !x.drains.isEmpty) + x.bank0.st.code * 2 + x.bank1.st.code * 8
    + (if x.bank0.st = .opened then x.bank0.owner.num else 0) * 32 + (if x.bank1.st = .opened then x.bank1.owner.num else 0) * 128
/-- FLOE_TQ_STATUS (spec/05 Table 5-9). ROWS counts all rows of a tile from when its row 0 has entered, those still to enter included: the table says "queue rows in use" alone, DESIGN CHOICE (notes/assumptions/135.md). -/
def Floe.tqStatus (x : Floe) : Nat :=
  let keeps := fun (st : Stream) => b2n (x.tq.any (fun t => t.kept && t.owner == st))
  x.tqUsed + keeps .fwd * 2 ^ 10 + keeps .bwd * 2 ^ 11 + keeps .upd * 2 ^ 12
/-- FLOE_STASH_STATUS (spec/07 Table 7-11). -/
def Floe.stashStatus (x : Floe) : Nat :=
  packBits 16 (fun k => !(x.stack k).isEmpty) + 2 ^ 16 * packBits 16 (fun k => (x.stack k).any (fun e => e.hole))
/-- The registers of a floe that its own state holds (spec/03 Table 3-9, spec/04 Table 4-11, spec/05 Table 5-9, spec/06 Table 6-15, spec/07 Table 7-11, spec/08 Table 8-7, spec/10 Table 10-12). -/
def Floe.reg (x : Floe) (off : Nat) : Nat :=
  match off with
  | 0x048 => x.mmaStatus
  | 0x050 => x.mmaCount.toNat
  | 0x058 => x.arrayBusy.toNat
  | 0x060 => x.arrayStall.toNat
  | 0x068 => x.arraySkip.toNat
  | 0x070 => x.spMmaCount.toNat
  | 0x078 => x.skipKunits.toNat
  | 0x080 => x.gateTokens.toNat
  | 0x088 => x.gateNonfinite.toNat
  | 0x090 => x.packAssigned.toNat
  | 0x098 => x.packDropped.toNat
  | 0x0A0 => x.vflags.toNat
  | 0x0A4 => x.tqStatus
  | 0x0A8 => x.vecCount.toNat
  | 0x0B0 => x.vecBusy.toNat
  | 0x0B8 => x.vecNf.toNat
  | 0x0C0 => x.vecSat.toNat
  | 0x100 => x.streamCtl.toNat
  | 0x104 => x.fwd.st.code + x.bwd.st.code * 16 + x.upd.st.code * 256
  | 0x108 => x.codeBase.toNat
  | 0x10C => x.codeSize.toNat
  | 0x110 => x.descBase.toNat
  | 0x118 => bitsOf x.fwd.pc.toNat 0 23
  | 0x11C => bitsOf x.bwd.pc.toNat 0 23
  | 0x120 => bitsOf x.upd.pc.toNat 0 23
  | 0x124 => x.fwd.fault.toNat + x.bwd.fault.toNat * 256 + x.upd.fault.toNat * 65536
  | 0x128 => x.fwd.issued.toNat
  | 0x130 => x.bwd.issued.toNat
  | 0x138 => x.upd.issued.toNat
  | 0x140 => x.nstk.toNat
  | 0x144 => x.frontBase.toNat
  | 0x148 => x.frontSize.toNat
  | 0x150 => x.nmBase.toNat
  | 0x158 => x.nmSize.toNat
  | 0x160 => x.cxlBase.toNat
  | 0x168 => x.cxlSize.toNat
  | 0x170 => x.stashStatus
  | 0x178 => x.pushCount.toNat
  | 0x180 => x.spillCount.toNat
  | 0x188 => x.holeCount.toNat
  | 0x190 => x.recompCount.toNat
  | 0x198 => x.ppBase.toNat + x.ppCount.toNat * 256
  | 0x19C => x.gnCommit.toNat
  | 0x1A0 => x.gnCur.toNat
  | 0x1A4 => b2n x.curValid + b2n x.holdMode * 2 + b2n x.mirrorOn * 4 + b2n x.mirHalf * 8
  | 0x1A8 => x.updElements.toNat
  | 0x1B0 => x.mirBytes.toNat
  | 0x1C0 => x.spCe.toNat
  | 0x1C8 => x.spUe.toNat
  | 0x204 => x.earlyBase.toNat
  | 0x208 => x.earlySize.toNat
  | 0x210 => x.collSteps.toNat
  | 0x218 => x.collReplays.toNat
  | 0x220 => x.collFails.toNat
  | 0x228 => x.collLastFail.toNat
  | 0x230 => x.verdictLate.toNat
  | _ => 0
/-- A register of a site's page. -/
def State.floeReg (s : State) (site off : Nat) : Nat :=
  match off with
  | 0x040 => site + (site % 112 / 14) * 2 ^ 8 + (site % 14) * 2 ^ 12 + (site / 112) * 2 ^ 16
  | 0x044 =>
    match s.floeAt site with
    | none => 0xFF + 0x1F * 256
    | some f => f + (f / 8) * 256 + (match s.floePart f with | some p => p * 2 ^ 13 + 2 ^ 16 | none => 0)
  | 0x200 =>
    match (s.floeAt site).bind (fun f => (s.floePart f).map (fun p => (s.part p).stepsOn f)) with
    | some n => n
    | none => 0
  | _ => (s.floe (s.siteKey site)).reg off
/-- A register of a near-memory controller's page (spec/08 Table 8-8). -/
def State.nmcReg (s : State) (d off : Nat) : Nat :=
  let x := s.nmc d
  match off with
  | 0x040 => x.rate.toNat + x.recal.toNat * 256 + x.patrol.toNat * 65536
  | 0x044 => (List.range 4).foldl (fun a i => a + s.ifState (4 * d + i) * 4 ^ i) 0
  | 0x048 => x.thresh.toNat
  | 0x050 => x.ecc.toNat
  | 0x058 => x.ue.toNat
  | 0x060 => x.edcRetry.toNat
  | 0x068 => (List.range 4).foldl (fun a i => a + Tbl.get 0 x.ifCe (4 * d + i) * 65536 ^ i) 0
  | _ => 0
/-- A register of a CXL page (spec/08 Table 8-10). -/
def State.cxlReg (s : State) (k off : Nat) : Nat :=
  let x := s.cxl k
  if 0x50 ≤ off && off < 0x90 then
    match Tbl.find x.wins ((off - 0x50) / 16) with
    | none => 0
    | some w => if off % 16 = 0 then w.base else w.gib * 2 ^ 30
  else match off with
  | 0x040 => b2n x.bifurcate
  | 0x044 => x.link.toNat
  | 0x048 => x.wins.length
  | 0x090 => x.poison.toNat
  | 0x098 => x.timeout.toNat
  | _ => 0
/-- A register of a UCIE page (spec/12 Table 12-16). -/
def Ucie.reg (x : Ucie) (off : Nat) : Nat :=
  match off with
  | 0x040 => b2n x.rate
  | 0x044 => b2n x.up + x.speed.toNat * 2 + b2n x.half * 8 + x.repaired.toNat * 16
  | 0x048 => x.retry.toNat
  | 0x050 => x.packets.toNat
  | 0x058 => x.crcFail.toNat
  | _ => 0
/-- A bank use's code. -/
def BankUse.code : BankUse → Nat
  | .active => 0 | .draining => 1 | .free => 2
/-- A routing bank as it reads. -/
def RBank.code (b : RBank) : Nat := b.usable.toNat + b.adapt.toNat * 2 ^ 12
/-- The device has not come up since its last cold reset: its ports and its time are as reset left them (spec/15 Table 15-4). -/
def State.unborn (s : State) : Bool :=
  match s.rst.phase with
  | .cold | .halted | .tripped => true
  | .ready | .warm => false
/-- A port's state as ROUTER_PORT_STATUS shows it: its reset value until the device has come up (spec/09 Table 9-12, R269). -/
def State.portShown (s : State) (k : Nat) : PortSt := if s.unborn || s.cabled k then (s.port k).st else .uncabled
/-- A register of a ROUTER page (spec/09 Table 9-12, spec/10 Table 10-13). -/
def State.routerReg (s : State) (off : Nat) : Nat :=
  let r := s.router
  if 0x80 ≤ off && off < 0x100 then (Tbl.get 0 r.discards ((off - 0x80) / 8)).toNat
  else if 0x100 ≤ off && off < 0x160 then
    let x := s.port ((off - 0x100) / 8)
    x.peerCoord.toNat + x.peerPort.toNat * 2 ^ 24 + x.peerProto.toNat * 2 ^ 32
  else if 0x160 ≤ off && off < 0x1C0 then (s.port ((off - 0x160) / 8)).feat.toNat
  else if 0x1C0 ≤ off && off < 0x1F0 then (s.port ((off - 0x1C0) / 4)).rtt.toNat
  else match off with
  | 0x040 => s.straps.x.toNat + s.straps.y.toNat * 2 ^ 8 + s.straps.z.toNat * 2 ^ 16 + b2n s.locValid * 2 ^ 24 + s.straps.expr.toNat * 2 ^ 25
  | 0x044 => r.udpPort.toNat
  | 0x048 => r.pfx.toNat
  | 0x050 => b2n r.srcEpoch + r.use0.code * 2 + r.use1.code * 8
  | 0x058 => r.tsw.toNat
  | 0x060 => r.bank0.code
  | 0x064 => r.bank1.code
  | 0x068 => packNibbles 12 (fun k => (s.portShown k).code)
  | 0x070 => r.chWeight.toNat
  | 0x074 => r.partWeight.toNat
  | 0x1F0 => r.linkDown.toNat
  | 0x200 => r.addIn.toNat + r.addFailed.toNat * 2 ^ 7
  | 0x208 => r.addBytes.toNat
  | 0x210 => r.rime.toNat
  | 0x218 => r.copyBytes.toNat
  | _ => 0
/-- OPT_LIT: the slots lit by the plan in force (spec/11 Table 11-10). -/
def State.optLit (s : State) (c : Nat) : Nat := if c = 3 then 0xFFFFFFFF else packBits 64 (fun i => (s.crossbar c (i / 8)).contains (i % 8))
/-- OPT_LOCKED: lit slots whose modulator ring is locked and carrying light: those of a port whose lanes have locked (spec/09 Table 9-10). -/
def State.optLocked (s : State) (c : Nat) : Nat :=
  if c = 3 then s.oedLit
  else ([0, 1, 2, 3].foldl (fun m d =>
    let k := 4 * c + d
    if (s.port k).st = .down || (s.port k).st = .uncabled then m else m ||| ((s.port k).lanes &&& s.lit c)) (0 : DWord)).toNat
/-- A register of an OPT page (spec/11 Tables 11-10 and 11-11). -/
def State.optReg (s : State) (c off : Nat) : Nat :=
  let x := s.chip c
  if 0x100 ≤ off then
    if c ≠ 3 then 0
    else if off < 0x110 then (s.oedPort ((off - 0x100) / 4)).mode.toNat + (s.oedPort ((off - 0x100) / 4)).pfcEn.toNat * 256
    else if off < 0x120 then
      let y := s.oedPort ((off - 0x110) / 4)
      b2n y.linkA + b2n y.linkB * 2 + b2n y.degraded * 4
    else if off < 0x140 then (s.oedPort ((off - 0x120) / 8)).fecCorr.toNat
    else if off < 0x160 then (s.oedPort ((off - 0x140) / 8)).fecUncorr.toNat
    else if off = 0x160 then s.oed.pfx.toNat
    else if off = 0x168 then s.oed.discards.toNat
    else 0
  else match off with
  | 0x040 => b2n x.autoSwap + x.recalH.toNat * 256
  | 0x044 => x.plan.toNat + b2n x.install * 16 + b2n x.switching * 32 + b2n x.shuttle * 64 + (s.steer.getD 0) * 128 + b2n s.steer.isSome * 1024
  | 0x048 => s.optLit c
  | 0x050 => s.optLocked c
  | 0x058 => if c = 3 then s.oedLit else x.rxLocked.toNat
  | 0x060 => (x.slotFault ||| x.rxFault).toNat
  | 0x068 => packNibbles 8 x.wl
  | 0x06C => packNibbles 8 x.feeds
  | 0x070 => packNibbles 12 x.laser
  | 0x078 => x.cmdWl.toNat + b2n x.swapReq.isSome * 256 + b2n x.recalReq.isSome * 512
  | 0x080 | 0x088 | 0x090 => (List.range 4).foldl (fun a i => a + (ofInt16 (Tbl.get 0 x.laserDb (4 * ((off - 0x80) / 8) + i))).toNat * 65536 ^ i) 0
  | 0x098 => x.temp.toNat
  | 0x09C => x.drain.toNat + x.safe.toNat * 16
  | 0x0A0 => x.swaps.toNat
  | 0x0A8 => x.steers.toNat
  | 0x0B0 => x.relocks.toNat
  | 0x0B8 => x.recals.toNat
  | _ => 0
/-- PWR_CAP as it stands: its reset value follows the grade (spec/15 Table 15-13). -/
def State.powerCap (s : State) : Nat := s.power.cap.toNat
/-- A register of a THERM page (spec/15 Table 15-13). -/
def State.thermReg (s : State) (die off : Nat) : Nat :=
  let x := s.therm die
  match off with
  | 0x040 => x.hot.toNat + x.sensor.toNat * 65536
  | 0x044 => x.level.toNat + x.dvfs * 4
  | 0x048 => x.excluded.toNat
  | 0x050 => x.stretches.toNat
  | 0x058 => x.throttleNs.toNat + (if x.dvfs = 0 then 0 else (s.now - x.since).toNat)
  | 0x060 => if die = s.lead then s.powerCap else 0
  | 0x064 => if die = s.lead then s.power.now.toNat else 0
  | _ => 0
/-- The level of a status pin (true: low): not driven from T0 of a cold reset to ready, but for ERR_N after a FATAL; the last level held through a warm reset (spec/14 R487, spec/15 Table 15-6). -/
def State.pinLow (s : State) (cold held live : Bool) : Bool :=
  match s.rst.phase with
  | .cold | .halted | .tripped => cold
  | .warm => held
  | .ready => live
/-- ALERT_N is driven low. -/
def State.alertLow (s : State) : Bool := s.pinLow false s.ras.heldAlert (s.ras.pending &&& s.ras.alert != 0)
/-- ERR_N is driven low. -/
def State.errLow (s : State) : Bool := s.pinLow (s.ras.pending &&& 0b10000#5 != 0) s.ras.heldErr (s.ras.pending &&& s.ras.err != 0)
/-- A register of the RAS page (spec/14 Table 14-6). -/
def State.rasReg (s : State) (off : Nat) : Nat :=
  let x := s.ras
  if 0x50 ≤ off && off < 0x78 then (Tbl.get 0 x.counts ((off - 0x50) / 8)).toNat
  else match off with
  | 0x040 => x.pending.toNat
  | 0x044 => x.alert.toNat + x.err.toNat * 256
  | 0x048 => b2n s.alertLow + b2n s.errLow * 2 + b2n s.rst.trip * 4
  | 0x078 => x.site.toNat + b2n x.calve.isSome * 256 + b2n x.deferred * 512
  | 0x07C => s.fuses.rec0.length + s.fuses.rec1.length * 2 ^ 6 + (s.spares 0).length * 2 ^ 12 + (s.spares 1).length * 2 ^ 17
      + b2n (s.flash.remap.any (fun e => e.1 < 112)) * 2 ^ 22 + b2n (s.flash.remap.any (fun e => 112 ≤ e.1)) * 2 ^ 23
  | 0x080 => b2n x.ctrlUp + b2n x.orphan * 2 + x.dataSpares.toNat * 4
  | 0x088 => x.orphans.toNat
  | _ => 0
/-- A register of the RST page (spec/15 Table 15-11). -/
def State.rstReg (s : State) (off : Nat) : Nat :=
  match off with
  | 0x040 => s.rst.cause.toNat
  | 0x044 => s.rst.wdt.toNat
  | 0x050 => s.rst.readyTime.toNat
  | 0x058 => s.rst.warms.toNat
  | _ => 0
/-- A register of the TIME page (spec/15 Table 15-12). -/
def State.timeReg (s : State) (off : Nat) : Nat :=
  match off with
  | 0x040 => s.now.toNat
  | 0x048 => s.time.root.toNat
  | 0x04C => b2n s.time.aligned + b2n (s.isRoot && !s.unborn) * 2 + s.time.parent.toNat * 4 + s.time.hops.toNat * 256
  | 0x050 => s.time.setVal.toNat
  | 0x058 => s.time.offset.toNat
  | _ => 0
/-- A register of the PART page (spec/12 Table 12-15). -/
def State.partReg (s : State) (off : Nat) : Nat :=
  if 0x50 ≤ off && off < 0x90 then (Tbl.get 0 s.rejects ((off - 0x50) / 8)).toNat
  else if 0x90 ≤ off && off < 0xB0 then (s.part ((off - 0x90) / 4)).groups.toNat
  else if 0xB0 ≤ off && off < 0xF0 then (s.ep ((off - 0xB0) / 8)).lostCount.toNat
  else match off with
  | 0x040 => packNibbles 8 (fun p => (s.part p).st.code)
  | 0x044 => packNibbles 8 (fun p => (s.part p).owner.getD 15)
  | 0x048 => match s.steer with
    | some p => p + 8
    | none => 0
  | _ => 0
/-- A register of the SEC page (spec/13 Table 13-10). -/
def State.secReg (s : State) (off : Nat) : Nat :=
  match off with
  | 0x040 => b2n s.sec.presence + b2n s.sec.intact * 2 + b2n s.sec.debugOn * 4 + b2n s.fuses.debugLocked * 8 + b2n s.sec.mfg * 16
      + b2n s.flash.owner.isSome * 32 + b2n s.busyAttest * 64
  | 0x044 => s.fuses.ownerUsed
  | 0x048 => s.fuses.fwKeyValid.toNat
  | 0x04C => s.sec.epoch.toNat
  | 0x050 => (List.range 6).foldl (fun a i => a + Tbl.get 0 s.fuses.rollback (i + 1) * 256 ^ i) 0
  | 0x058 => s.flash.auditCount.toNat
  | 0x060 => s.sec.presenceTime.toNat
  | 0x068 => s.flash.sealCount.toNat
  | 0x06C => packBits 8 (fun p => (s.part p).st == .thawing)
  | _ => 0
/-- A register of the NMMAP page (spec/08 Table 8-9). -/
def State.nmmapReg (s : State) (off : Nat) : Nat :=
  match off with
  | 0x040 => s.populated
  | 0x044 => b2n s.nm.autoRetire + s.nm.migWeight.toNat * 16
  | 0x048 => s.nm.req.toNat
  | 0x050 => s.nm.retired.toNat
  | 0x058 => match s.nm.cur with
    | some c => c.moves.length + c.iface * 65536 + 2 ^ 31
    | none => 0
  | 0x060 => s.nm.weight.toNat
  | _ => 0
/-- The block register that begins at an offset of a page, whole. -/
def State.blockReg (s : State) (die page off : Nat) : Nat :=
  match pageType page with
  | 1 => if off = 0x40 then pageList.length else if wide 1 off then s.dirEntry die ((off - 0x80) / 8) else 0
  | 2 => s.floeReg (die * 112 + (page - 1)) off
  | 3 => s.nmcReg (pageInstance die page) off
  | 4 => s.cxlReg die off
  | 5 => (s.mod (pageInstance die page)).reg off
  | 6 => s.routerReg off
  | 7 => s.optReg (pageInstance die page) off
  | 8 => s.thermReg die off
  | 9 => s.rasReg off
  | 10 => s.rstReg off
  | 11 => s.timeReg off
  | 12 => s.partReg off
  | 13 => s.secReg off
  | 14 => s.nmmapReg off
  | _ => 0

/-- STATUS.IDLE: no accepted request of the block is incomplete. -/
def State.pageIdle (s : State) (die page : Nat) : Bool :=
  match pageType page with
  | 2 => match s.floeAt (die * 112 + (page - 1)) with
    | some f => allStreams.all (fun st => s.streamDone f st)
    | none => true
  | 6 => (List.range 12).all (fun k => (s.port k).queue.isEmpty) && s.router.inbox.isEmpty
  | 7 => (s.chip (pageInstance die page)).busy.isNone
  | 14 => s.nm.cur.isNone
  | _ => true
/-- A 32-bit word of the common header (spec/16 Table 16-3). -/
def State.headerWord (s : State) (die page off : Nat) : Nat :=
  let h := s.hdr die page
  let ok := s.resetOk die page
  match off with
  | 0x000 => pageType page + pageInstance die page * 2 ^ 16 + die * 2 ^ 24
  | 0x004 => (Config.layoutVersion (pageType page)).toNat
  | 0x008 => b2n (s.present die page) + b2n (resettable page) * 2 + b2n (liveComp page != 0) * 4 + b2n (leadOnly page) * 8
  | 0x010 => b2n (h.hold && ok) + b2n h.freeze * 2
  | 0x014 => b2n (s.pageIdle die page) + b2n (h.hold || h.resetState != 0) * 2 + b2n (h.resetState != 0) * 4 + b2n h.liveActive * 8
  | 0x018 => h.errStatus.toNat
  | 0x01C => h.errMask.toNat
  | 0x020 => h.errCount.toNat
  | 0x024 => h.intStatus.toNat
  | 0x028 => h.intEnable.toNat
  | 0x030 => if ok then b2n (h.resetState != 0) + b2n h.isolate * 2 else 0
  | 0x034 => h.resetState.toNat + b2n h.escalated * 4 + h.resets.toNat * 65536
  | 0x038 => liveComp page + b2n h.livePending * 256 + b2n h.liveActive * 512 + h.deferrals.toNat * 65536
  | _ => 0
/-- The block registers of a page read 0 and take no write: it is absent or in reset (spec/16 R544, R545). -/
def State.dark (s : State) (die page : Nat) : Bool := !s.present die page || (s.hdr die page).resetState != 0
/-- A 32-bit word of a page as it stands. -/
def State.liveWord (s : State) (die page off : Nat) : Nat :=
  let ty := pageType page
  if off < 0x40 then s.headerWord die page off
  else if s.dark die page then 0
  else if 4 ≤ off && wide ty (off - 4) then bitsOf (s.blockReg die page (off - 4)) 32 32
  else bitsOf (s.blockReg die page off) 0 32
/-- The word belongs to a counter. -/
def counterWord (ty off : Nat) : Bool := off == 0x20 || counter ty off || (4 ≤ off && counter ty (off - 4))
/-- A 32-bit word of a page as a read returns it: a frozen counter as it was when FREEZE was set (spec/16 R534). -/
def State.shownWord (s : State) (die page off : Nat) : Nat :=
  let h := s.hdr die page
  if h.freeze && counterWord (pageType page) off && !(0x40 ≤ off && s.dark die page) then
    (Tbl.get (BitVec.ofNat 32 (s.liveWord die page off)) h.frozen off).toNat
  else s.liveWord die page off
/-- What FREEZE keeps of a page. -/
def State.freezeTable (s : State) (die page : Nat) : Tbl Word :=
  (((List.range 256).map (fun i => 4 * i)).filter (counterWord (pageType page))).map (fun o => (o, BitVec.ofNat 32 (s.liveWord die page o)))

/-! ## Reading with the high-half latch (spec/16 R537) -/

/-- Die, page and offset of a CSR address. -/
def csrDie (a : Nat) : Nat := above a (csrBase 0) / 0x4000000
def csrPage (a : Nat) : Nat := above a (csrBase 0) % 0x4000000 / 0x1000
def csrOff (a : Nat) : Nat := a % 0x1000
/-- The address is the low half of a 64-bit register. -/
def wideLow (a : Nat) : Bool := wide (pageType (csrPage a)) (csrOff a)
/-- The address is the high half of a 64-bit register. -/
def wideHigh (a : Nat) : Bool := 4 ≤ csrOff a && wide (pageType (csrPage a)) (csrOff a - 4)
/-- A half kept for a requester and a register. -/
def halfOf (l : List HalfLatch) (req a : Nat) : Option Word := (l.find? (fun h => h.req == req && h.addr == a)).map (fun h => h.half)
/-- The kept halves without one. -/
def dropHalf (l : List HalfLatch) (req a : Nat) : List HalfLatch := l.filter (fun h => !(h.req == req && h.addr == a))
/-- The word at an address. -/
def State.csrWord (s : State) (a : Nat) : Nat := s.shownWord (csrDie a) (csrPage a) (csrOff a)
/-- n words from an address for a requester, ascending; `whole` says that the word before belongs to the same read. -/
def State.readWords (s : State) (req : Nat) : Nat → Nat → Bool → State × List Nat
  | 0, _, _ => (s, [])
  | n + 1, a, whole =>
    let v := s.csrWord a
    let (s1, x) :=
      if wideLow a && n = 0 then
        ({ s with latches := { req := req, addr := a, half := BitVec.ofNat 32 (s.csrWord (a + 4)) } :: dropHalf s.latches req a }, v)
      else if wideHigh a && !whole then
        match halfOf s.latches req (a - 4) with
        | some h => ({ s with latches := dropHalf s.latches req (a - 4) }, h.toNat)
        | none => (s, v)
      else (s, v)
    let (s2, r) := State.readWords s1 req n (a + 4) true
    (s2, x :: r)

/-! ## What a write asks for (spec/16 R538) -/

/-- Every 4-bit field of the first n is 1 to 15. -/
def nibblesSet (n v : Nat) : Bool := (List.range n).all (fun i => bitsOf v (4 * i) 4 != 0)
/-- A value places no reserved value and none outside a field's legal range in an RWL or RW field of a floe page. -/
def floeLegal (off v : Nat) : Bool :=
  match off with
  | 0x100 =>
    let a := bitsOf v 16 5
    let t := bitsOf v 24 6
    (a == 0 || (8 ≤ a && a ≤ 24)) && (t == 0 || (20 ≤ t && t ≤ 40))
  | 0x108 | 0x10C => bitsOf v 0 23 % 16 == 0
  | 0x110 => bitsOf v 0 23 % 32 == 0 && bitsOf v 0 23 ≤ 6283264
  | 0x140 => bitsOf v 0 5 ≤ 16
  | 0x144 => bitsOf v 0 23 % 256 == 0
  | 0x148 => bitsOf v 0 23 % 4096 == 0 && bitsOf v 0 23 ≤ 0x400000
  | 0x150 | 0x158 | 0x160 | 0x168 => v % 65536 == 0
  | 0x198 => bitsOf v 8 8 ≤ 128
  | 0x204 => bitsOf v 0 23 % 4096 == 0
  | 0x208 => bitsOf v 0 23 ≤ 0x100000
  | _ => true
/-- A value for the register that begins at an offset of a page is legal. -/
def State.legalReg (s : State) (page off v : Nat) : Bool :=
  match pageType page, off with
  | 2, _ => floeLegal off v
  | 3, 0x040 => bitsOf v 0 3 ≤ 4 && bitsOf v 8 8 != 0 && bitsOf v 16 8 != 0
  | 6, 0x070 => nibblesSet 6 v
  | 6, 0x074 => nibblesSet 8 v
  | 7, 0x040 => bitsOf v 8 8 != 0
  | 7, 0x100 | 7, 0x104 | 7, 0x108 | 7, 0x10C => bitsOf v 0 2 < 2
  | 8, 0x060 => 1000 ≤ bitsOf v 0 16 && bitsOf v 0 16 ≤ s.variant.maxWatts
  | 9, 0x078 => bitsOf v 0 8 < 224
  | 14, 0x044 => bitsOf v 4 4 != 0
  | 14, 0x060 => nibblesSet 8 v
  | _, _ => true

/-! ## Header writes and block resets (spec/16 R534, R536, spec/15 R507) -/

/-- The isolation wrapper ends every request that a controller or a CXL port has accepted (spec/15 R508). -/
def State.isolateBlock (s : State) (die page : Nat) : State :=
  if pageType page = 3 || pageType page = 4 then
    (s.each ((List.range s.variant.floes).filter (fun f => (s.floe f).copies)) (fun s f => s.isolateFloe f (die, page))).isolateCmds (die, page)
  else s
/-- A block reset of a page begins: idle handshake or isolation wrapper (spec/15 R507). A CXL port's CXLn_PERST_N goes low (spec/17 R548). -/
def State.beginBlock (s : State) (die page : Nat) (iso : Bool) : State :=
  let s0 := if iso then s.isolateBlock die page else s
  let s1 := s0.setHdr die page { s0.hdr die page with resetState := if iso then 2 else 1, escalated := false }
  if pageType page = 4 then s1.setPerst die true else s1
/-- A write of HOLD (spec/16 R536). -/
def State.writeHold (s : State) (die page : Nat) (v : Bool) : State :=
  if s.resetOk die page then
    let s1 := s.setHdr die page { s.hdr die page with hold := v }
    if v then s1 else s1.frameAll
  else if v then s.countErr die page else s
/-- A write of FREEZE: the counters are kept as they are when it sets (spec/16 R534). -/
def State.writeFreeze (s : State) (die page : Nat) (v : Bool) : State :=
  let h := s.hdr die page
  if v && h.freeze then s
  else s.setHdr die page { h with freeze := v, frozen := if v then s.freezeTable die page else [] }
/-- A write of RESET_CTRL (spec/16 R536): GO and ISOLATE where they take effect; else a 1 in either is counted once. -/
def State.writeResetCtrl (s : State) (die page : Nat) (go iso : Bool) : State :=
  if s.resetOk die page then
    let s1 := s.setHdr die page { s.hdr die page with isolate := iso }
    if !go then s1 else if (s.hdr die page).resetState != 0 then s1.countErr die page else s1.beginBlock die page iso
  else if go || iso then s.countErr die page else s
/-- The error flags that Table 16-5 defines for a page type. -/
def errBits (ty : Nat) : Nat :=
  match ty with
  | 2 | 3 | 4 | 5 => 7
  | 6 | 7 => 15
  | 8 | 10 | 11 | 13 | 14 => 3
  | 12 => 1
  | _ => 0
/-- Hardware sets ERR_STATUS bits in the cycle of a write (spec/16 R540). -/
def State.raiseBits (s : State) (die page hw : Nat) : State :=
  s.each (List.range 32) (fun s n => if bitOf hw n && bitOf (errBits (pageType page)) n then s.raise die page n else s)
/-- A write of a header word; `hw` are the bits hardware sets in the same cycle. -/
def State.writeHeader (s : State) (die page off : Nat) (v hw : Word) : State :=
  let h := s.hdr die page
  match off with
  | 0x010 => (s.writeHold die page (v.getLsbD 0)).writeFreeze die page (v.getLsbD 1)
  | 0x018 => (s.setHdr die page { h with errStatus := h.errStatus &&& ~~~ v }).raiseBits die page hw.toNat
  | 0x01C => s.setHdr die page { h with errMask := v }
  | 0x024 => (s.setHdr die page { h with intStatus := h.intStatus &&& ~~~ v }).raiseBits die page (hw &&& h.intEnable).toNat
  | 0x028 => s.setHdr die page { h with intEnable := v }
  | 0x030 => s.writeResetCtrl die page (v.getLsbD 0) (v.getLsbD 1)
  | _ => s

/-! ## Block register writes -/

/-- An RWL field's value for a floe register; none for a register without one. -/
def Floe.writeRwl (x : Floe) (off v : Nat) : Option Floe :=
  match off with
  | 0x108 => some { x with codeBase := BitVec.ofNat 23 v }
  | 0x10C => some { x with codeSize := BitVec.ofNat 23 v }
  | 0x110 => some { x with descBase := BitVec.ofNat 23 v }
  | 0x140 => some { x with nstk := BitVec.ofNat 5 v }
  | 0x144 => some { x with frontBase := BitVec.ofNat 23 v }
  | 0x148 => some { x with frontSize := BitVec.ofNat 23 v }
  | 0x150 => some { x with nmBase := BitVec.ofNat 52 v }
  | 0x158 => some { x with nmSize := BitVec.ofNat 40 v }
  | 0x160 => some { x with cxlBase := BitVec.ofNat 52 v }
  | 0x168 => some { x with cxlSize := BitVec.ofNat 44 v }
  | 0x198 => some { x with ppBase := BitVec.ofNat 8 v, ppCount := BitVec.ofNat 8 (v / 256) }
  | 0x204 => some { x with earlyBase := BitVec.ofNat 23 v }
  | 0x208 => some { x with earlySize := BitVec.ofNat 23 v }
  | _ => none
/-- FLOE_STREAM_CTL: its fields; the arbitration counters reset when the mode or a weight changes (spec/06 R188, R193). -/
def Floe.writeCtl (x : Floe) (v : Word) : Floe :=
  let w := v &&& 0x3F1FFFF1#32
  { x with streamCtl := w, weights := if (w ^^^ x.streamCtl) &&& 0xFFF1#32 = 0 then x.weights else [] }
/-- The flags that passes set in the cycle of a write of FLOE_VFLAGS, with their event counters (spec/16 R540, Table 16-4). -/
def Floe.hwFlags (x : Floe) (hw : Word) : Floe :=
  let m := hw &&& 0x1F1F1F#32
  { x with vflags := x.vflags ||| m, vecNf := x.vecNf + BitVec.ofNat 64 (ones 32 (m &&& 0x80808#32).toNat),
           vecSat := x.vecSat + BitVec.ofNat 64 (ones 32 (m &&& 0x101010#32).toNat) }
/-- A write of a register of a site's page. -/
def State.writeFloe (s : State) (die page off v : Nat) (hw : Word) : State :=
  let k := s.siteKey (die * 112 + (page - 1))
  let x := s.floe k
  match off with
  | 0x0A0 => s.setFloe k ({ x with vflags := x.vflags &&& ~~~ BitVec.ofNat 32 v }.hwFlags hw)
  | 0x100 => s.setFloe k (x.writeCtl (BitVec.ofNat 32 v))
  | _ =>
    match x.writeRwl off v with
    | none => s
    | some y => if x.locked then s.countErr die page else s.setFloe k y
/-- A write of a routing bank: only while it is FREE; else ignored and counted (spec/09 R314). A port being drained does not become usable (spec/11 R389). -/
def State.writeBank (s : State) (die bank : Nat) (v : Word) : State :=
  let r := s.router
  let old := if bank = 0 then r.bank0 else r.bank1
  let b : RBank := { usable := BitVec.ofNat 12 (packBits 12 (fun k => v.getLsbD k && (old.usable.getLsbD k || !s.drained k))), adapt := BitVec.ofNat 3 (v.toNat / 4096) }
  if (if bank = 0 then r.use0 else r.use1) ≠ .free then s.countErr die 0xA0
  else s.setRouter (if bank = 0 then { r with bank0 := b } else { r with bank1 := b })
/-- A write of PWR_CAP on the lead die (spec/15 R521, R530). -/
def State.writeCap (s : State) (w : Nat) : State := { s with power := { s.power with cap := BitVec.ofNat 16 w } }
/-- A write of RST_WDT_KICK.KICK (spec/15 R506). -/
def State.kick (s : State) : State := s.setRst { s.rst with kicked := s.now }
/-- A write of OPT_LASER_CMD: WL, then the requests (spec/11 R392). -/
def State.writeLaserCmd (s : State) (c : Nat) (v : Word) : State :=
  let w := bitsOf v.toNat 0 3
  let s1 := s.setChip c { s.chip c with cmdWl := BitVec.ofNat 3 w }
  let s2 := if v.getLsbD 8 then s1.requestSwap c w else s1
  if v.getLsbD 9 then s2.requestRecal c w else s2
/-- A write of NMMAP_RETIRE bits (spec/08 R249). -/
def State.writeRetire (s : State) (v : Nat) : State :=
  s.each ((List.range 48).filter (bitOf v)) (fun s i =>
    if 2 ≤ s.ifState i then s else ({ s with nm := { s.nm with req := setBit s.nm.req i true } } : State).requestRetire i)
/-- A write of the register that begins at an offset, whole; `hw` are the W1C bits hardware sets in the same cycle (spec/16 R540). RO registers and offsets without one ignore it (spec/16 R538). -/
def State.writeBlk (s : State) (die page off v : Nat) (hw : Word) : State :=
  let w := BitVec.ofNat 32 v
  let inst := pageInstance die page
  match pageType page, off with
  | 2, _ => s.writeFloe die page off v hw
  | 3, 0x040 => s.setNmc inst { s.nmc inst with rate := BitVec.ofNat 3 v, recal := BitVec.ofNat 8 (v / 256), patrol := BitVec.ofNat 8 (v / 65536) }
  | 3, 0x048 => s.setNmc inst { s.nmc inst with thresh := BitVec.ofNat 16 v }
  | 4, 0x040 => s.setCxl die { s.cxl die with bifurcate := w.getLsbD 0 }
  | 5, 0x040 => s.setMod inst { s.mod inst with rate := w.getLsbD 0 }
  | 6, 0x044 => s.setRouter { s.router with udpPort := BitVec.ofNat 16 v }
  | 6, 0x048 => s.setRouter { s.router with pfx := BitVec.ofNat 64 v }
  | 6, 0x060 => s.writeBank die 0 w
  | 6, 0x064 => s.writeBank die 1 w
  | 6, 0x070 => s.setRouter { s.router with chWeight := BitVec.ofNat 24 v }
  | 6, 0x074 => s.setRouter { s.router with partWeight := w }
  | 7, 0x040 => s.setChip inst { s.chip inst with autoSwap := w.getLsbD 0, recalH := BitVec.ofNat 8 (v / 256) }
  | 7, 0x078 => s.writeLaserCmd inst w
  | 7, 0x09C => s.writeDrain inst (BitVec.ofNat 4 v)
  | 7, 0x100 | 7, 0x104 | 7, 0x108 | 7, 0x10C =>
    if inst ≠ 3 then s
    else
      let k := (off - 0x100) / 4
      let s1 := s.setOedPort k { s.oedPort k with pfcEn := BitVec.ofNat 8 (v / 256) }
      s1.writeOedMode k (BitVec.ofNat 2 v)
  | 7, 0x160 => if inst = 3 then { s with oed := { s.oed with pfx := BitVec.ofNat 64 v } } else s
  | 8, 0x060 => if die = s.lead then s.writeCap (bitsOf v 0 16) else s
  | 9, 0x040 =>
    let s1 := s.setRas { s.ras with pending := s.ras.pending &&& ~~~ BitVec.ofNat 5 v }
    s1.each (List.range 5) (fun s c => if hw.getLsbD c then s.rasReport c else s)
  | 9, 0x044 => s.setRas { s.ras with alert := BitVec.ofNat 5 v, err := BitVec.ofNat 5 (v / 256) ||| 0b10000 }
  | 9, 0x078 =>
    let s1 := s.setRas { s.ras with site := BitVec.ofNat 8 v }
    if w.getLsbD 8 then s1.calveGo (bitsOf v 0 8) else s1
  | 10, 0x044 => s.setRst { s.rst with wdt := BitVec.ofNat 16 v, kicked := s.now }
  | 10, 0x048 => if w.getLsbD 0 then s.kick else s
  | 11, 0x048 => { s with time := { s.time with root := BitVec.ofNat 24 v } }
  | 11, 0x050 => s.writeTimeSet (BitVec.ofNat 64 v)
  | 14, 0x044 => { s with nm := { s.nm with autoRetire := w.getLsbD 0, migWeight := BitVec.ofNat 4 (v / 16) } }
  | 14, 0x048 => s.writeRetire v
  | 14, 0x060 => { s with nm := { s.nm with weight := w } }
  | _, _ => s
/-- A 64-bit register whose halves are staged: it stores what is written (spec/16 R537). -/
def stored (page off : Nat) : Bool :=
  match pageType page, off with
  | 2, 0x150 | 2, 0x158 | 2, 0x160 | 2, 0x168 | 6, 0x048 | 7, 0x160 | 11, 0x050 => true
  | _, _ => false
/-- The value that a lone write of a half gives a 64-bit register: the other half as it stands, or the staged low half. -/
def State.withHalf (s : State) (req a : Nat) (v : Word) : Nat :=
  if wideLow a then
    let o := s.blockReg (csrDie a) (csrPage a) (csrOff a)
    v.toNat + bitsOf o 32 32 * 2 ^ 32
  else
    let o := s.blockReg (csrDie a) (csrPage a) (csrOff a - 4)
    ((halfOf s.staged req (a - 4)).map (fun h => h.toNat)).getD (bitsOf o 0 32) + v.toNat * 2 ^ 32
/-- A write of one word by a requester. -/
def State.writeWord (s : State) (req a : Nat) (v hw : Word) : State :=
  let die := csrDie a
  let page := csrPage a
  let off := csrOff a
  if off < 0x40 then s.writeHeader die page off v hw
  else if (s.hdr die page).resetState != 0 then s.countErr die page
  else if wideLow a then
    if stored page off then { s with staged := { req := req, addr := a, half := v } :: dropHalf s.staged req a }
    else s.writeBlk die page off v.toNat hw
  else if wideHigh a then
    if stored page (off - 4) then
      ({ s with staged := dropHalf s.staged req (a - 4) } : State).writeBlk die page (off - 4) (s.withHalf req a v) hw
    else s.writeBlk die page (off - 4) (v.toNat * 2 ^ 32) hw
  else s.writeBlk die page off v.toNat hw
/-- A write of both halves of a 64-bit register, as one value. -/
def State.writePair (s : State) (req a : Nat) (lo hi : Word) : State :=
  if (s.hdr (csrDie a) (csrPage a)).resetState != 0 then (s.countErr (csrDie a) (csrPage a)).countErr (csrDie a) (csrPage a)
  else ({ s with staged := dropHalf s.staged req a } : State).writeBlk (csrDie a) (csrPage a) (csrOff a) (lo.toNat + hi.toNat * 2 ^ 32) 0
/-- Consecutive words are written in ascending order (spec/16 R539). -/
def State.writeWords (s : State) (req : Nat) : Nat → List Word → State
  | _, [] => s
  | a, [v] => s.writeWord req a v 0
  | a, v :: w :: r =>
    if wideLow a && 0x40 ≤ csrOff a then State.writeWords (s.writePair req a v w) req (a + 8) r
    else State.writeWords (s.writeWord req a v 0) req (a + 4) (w :: r)

/-- The value a word's write would give its register is legal. -/
def State.legalWord (s : State) (req a : Nat) (v : Word) : Bool :=
  let page := csrPage a
  let off := csrOff a
  if off < 0x40 then true
  else if wideLow a then !stored page off || s.legalReg page off (s.withHalf req a v)
  else if wideHigh a then !stored page (off - 4) || s.legalReg page (off - 4) (s.withHalf req a v)
  else s.legalReg page off v.toNat
/-- The first address of a run of words whose write is not legal (spec/16 R538). -/
def State.badWord (s : State) (req : Nat) : Nat → List Word → Option Nat
  | _, [] => none
  | a, [v] => if s.legalWord req a v then none else some a
  | a, v :: w :: r =>
    if wideLow a && 0x40 ≤ csrOff a then
      if s.legalReg (csrPage a) (csrOff a) (v.toNat + w.toNat * 2 ^ 32) then State.badWord s req (a + 8) r else some a
    else if s.legalWord req a v then State.badWord s req (a + 4) (w :: r) else some a

/-! ## CSR_WRITE, CSR_READ, SNAPSHOT (spec/12 R432, R437) -/

/-- The page at an address is the page of a floe of partition p. -/
def State.ownPage (s : State) (p a : Nat) : Bool :=
  pageType (csrPage a) == 2 && (match s.floeAt (csrDie a * 112 + (csrPage a - 1)) with
    | some f => s.floePart f == some p
    | none => false)
/-- The addresses of n words. -/
def csrAddrs (a n : Nat) : List Nat := (List.range n).map (fun i => a + 4 * i)
/-- A CSR command may reach its registers (spec/12 R432, spec/16 R531). -/
def State.csrReach (s : State) (c : GwyPkt) (a n : Nat) : Bool :=
  a % 4 == 0 && csrBase 0 ≤ a && a + 4 * n ≤ csrBase 2
    && (csrAddrs a n).all (fun b => pageType (csrPage b) != 0 && ((s.ep c.src).mgmt || s.ownPage c.part b))
/-- A partition endpoint may write the register at an address. -/
def partWritable (b : Nat) : Bool := csrOff b == 0x100 || csrOff b == 0x0A0
/-- A write waits while a live update holds a page's block registers (spec/16 R539). -/
def State.csrWaits (s : State) (l : List Nat) : Bool := l.any (fun b => 0x40 ≤ csrOff b && (s.hdr (csrDie b) (csrPage b)).liveActive)

/-- CSR_WRITE (spec/12 R432, spec/16 R537 to R539, R545): every register is checked before any is written. -/
def execCsrWrite (pv : Nat) (s : State) : Host.Outcome State Fault Refusal :=
  match s.takeCmd pv (isOp 0x12) with
  | none => .next s
  | some (c, s1) =>
    match s1.acceptCmd c true true true legalMem with
    | some t => .next t
    | none =>
      let a := c.arg0.toNat
      let n := c.arg1.toNat
      let l := csrAddrs a n
      if n = 0 || 16 < n || c.payload.length ≠ 4 * n then .next (s1.respond c 0x06 4 0 0 [])
      else if !s1.csrReach c a n || !l.all (fun b => s1.present (csrDie b) (csrPage b)) || (!(s1.ep c.src).mgmt && !l.all partWritable) then
        .next (s1.respond c 0x06 3 0 0 [])
      else if s1.csrWaits l then .next s
      else
        let ws := (List.range n).map (fun i => BitVec.ofNat 32 (leAt c.payload (4 * i) 4))
        match s1.badWord c.src a ws with
        | some b => .next ((s1.countErr (csrDie b) (csrPage b)).respond c 0x06 4 0 0 [])
        | none => .next ((s1.respond c 0 0 0 0 []).writeWords c.src a ws)

/-- CSR_READ (spec/12 R432, spec/16 R537, R544, R545). -/
def execCsrRead (pv : Nat) (s : State) : Host.Outcome State Fault Refusal :=
  match s.takeCmd pv (isOp 0x13) with
  | none => .next s
  | some (c, s1) =>
    match s1.acceptCmd c c.payload.isEmpty true true legalMem with
    | some t => .next t
    | none =>
      let a := c.arg0.toNat
      let n := c.arg1.toNat
      if n = 0 || 16 < n then .next (s1.respond c 0x06 4 0 0 [])
      else if !s1.csrReach c a n then .next (s1.respond c 0x06 3 0 0 [])
      else
        let (s2, l) := s1.readWords c.src n a false
        .next (s2.respond c 0 0 0 0 (l.flatMap (leBytes 4)))

/-- The 1,024 bytes of a floe page that SNAPSHOT writes (spec/12 R437). -/
def State.pageImage (s : State) (die page : Nat) : List Byte := (List.range 256).flatMap (fun i => leBytes 4 (s.shownWord die page (0x40 + 4 * i)))
/-- SNAPSHOT (spec/12 R437): the floe pages of the partition into its near memory. -/
def execSnapshot (pv : Nat) (s : State) : Host.Outcome State Fault Refusal :=
  match s.takeCmd pv (isOp 0x41) with
  | none => .next s
  | some (c, s1) =>
    match s1.acceptCmd c (c.arg1 == 0 && c.payload.isEmpty) true false (fun st => st == .loaded || st == .paused || st == .degraded || st == .faulted) with
    | some t => .next t
    | none =>
      let a := c.arg0.toNat
      let fs := s1.partFloes pv
      let n := 1024 * fs.length
      if cxlBase ≤ a + n || !s1.hostMay pv a n true then .next (s1.respond c 0x06 3 0 0 [])
      else if s1.memHeld a n then .next s
      else
        let bytes := fs.flatMap (fun f => s1.pageImage (s1.floePage f).1 (s1.floePage f).2)
        .next ((s1.memAnswer c (s1.devWrite a bytes []).2 n []).devWrite a bytes []).1.settle

/-! ## Register writes with rows of their own -/

/-- RESET_CTRL_GO (spec/16 R536): GO is written with ISOLATE as it stands. -/
def execResetCtrlGo (die page : Nat) (s : State) : Host.Outcome State Fault Refusal :=
  if s.present die page then .next (s.writeResetCtrl die page true (s.hdr die page).isolate) else .next s
/-- CTRL_HOLD (spec/16 R534, R536). -/
def execCtrlHold (die page : Nat) (value : Bool) (s : State) : Host.Outcome State Fault Refusal :=
  if s.present die page then .next (s.writeHold die page value) else .next s
/-- CTRL_FREEZE (spec/16 R534). -/
def execCtrlFreeze (die page : Nat) (value : Bool) (s : State) : Host.Outcome State Fault Refusal :=
  if s.present die page then .next (s.writeFreeze die page value) else .next s
/-- RST_WDT_KICK (spec/15 R506). -/
def execRstWdtKick (s : State) : Host.Outcome State Fault Refusal := .next s.kick
/-- ROUTER_BANK (spec/09 R314). -/
def execRouterBank (bank : Nat) (value : Word) (s : State) : Host.Outcome State Fault Refusal :=
  if bank < 2 then .next (s.writeBank s.lead bank value) else .next s
/-- PWR_CAP (spec/15 R521): a value outside the legal range is refused and counted. -/
def execPwrCap (watts : Word) (s : State) : Host.Outcome State Fault Refusal :=
  if s.legalReg 0xB0 0x060 watts.toNat then .next (s.writeCap (bitsOf watts.toNat 0 16)) else .next (s.countErr s.lead 0xB0)

/-- The endpoint whose registers an address of the processor die's map names, and the offset (spec/12 Table 12-1). -/
def epReg (a : Nat) : Option (Nat × Nat) :=
  if 0x1000000000 ≤ a && a < 0x1000800000 && 0xFF000 ≤ a % 0x100000 then some (above a 0x1000000000 / 0x100000, a % 0x100000 - 0xFF000) else none
/-- A word of an endpoint's registers as a read returns it (spec/12 Table 12-3). -/
def State.epWord (s : State) (e off : Nat) : Nat :=
  let x := s.ep e
  match off with
  | 0x000 => b2n x.enable + 2 * b2n x.mgmt + 2 ^ 31 * b2n x.lock
  | 0x008 => b2n s.linkUp + 2 * b2n x.linkReset + 4 * b2n x.txError
  | 0x010 => x.avail
  | 0x014 => 524288 - x.tx.length
  | 0x018 => b2n x.intRx + 2 * b2n x.intLink
  | 0x020 => bitsOf x.msiAddr.toNat 0 32
  | 0x024 => bitsOf x.msiAddr.toNat 32 32
  | 0x028 => x.msiData.toNat
  | _ => 0
/-- A write of an endpoint register (spec/12 Table 12-3): LOCK takes its first write after processor-die reset only (spec/00 R15). -/
def State.writeEp (s : State) (e off : Nat) (v hw : Word) : State :=
  let x := s.ep e
  match off with
  | 0x000 =>
    let y := if x.lock then x else { x with enable := v.getLsbD 0, mgmt := v.getLsbD 1 }
    let z := if x.cfgDone then y else { y with lock := v.getLsbD 31, cfgDone := true }
    (s.setEp e z).frameTx e [] x.stored
  | 0x008 =>
    let s1 := s.setEp e { x with linkReset := x.linkReset && !v.getLsbD 1 }
    if hw.getLsbD 1 then s1.linkReset e else s1
  | 0x00C => if v.getLsbD 0 then s.setEp e { x with txError := false, tx := [], stalled := [] } else s
  | 0x018 => s.setEp e { x with intRx := v.getLsbD 0, intLink := v.getLsbD 1 }
  | 0x020 => s.setEp e { x with msiAddr := BitVec.ofNat 64 (v.toNat + bitsOf x.msiAddr.toNat 32 32 * 2 ^ 32) }
  | 0x024 => s.setEp e { x with msiAddr := BitVec.ofNat 64 (bitsOf x.msiAddr.toNat 0 32 + v.toNat * 2 ^ 32) }
  | 0x028 => s.setEp e { x with msiData := v }
  | _ => s
/-- REGISTER_WRITE (spec/16 R538, R540 to R543, spec/12 R410): the device's own firmware writes a register of a CSR page, or the host one of an endpoint; `hwSet` are the W1C bits that hardware sets in the same cycle. A value that is not legal is refused and counted; an absent or unassigned page takes no write. A 32-bit store of the host reaches its memory and its interrupt files too; one into a TX window, or outside the processor die's address map, is an access fault there (spec/12 R396, R406). -/
def execRegisterWrite (addr : Nat) (value hwSet : Word) (s : State) : Host.Outcome State Fault Refusal :=
  match epReg addr with
  | some (e, off) => .next (s.writeEp e off value hwSet)
  | none =>
    if isHostMem addr || isImsic addr then .next { s with proc := s.proc.store addr value.toNat }
    else if 0x1000000000 ≤ addr && addr < 0x1000800000 then (if addr % 0x100000 < 0x80000 then .fault .hostAccess else .next s)
    else if addr < csrBase 0 || csrBase 2 ≤ addr then .fault .hostAccess
    else
    if csrBase 0 ≤ addr && addr < csrBase 2 && addr % 4 = 0 && s.present (csrDie addr) (csrPage addr) then
      if s.legalWord 9 addr value then .next (s.writeWord 9 addr value hwSet)
      else .next (s.countErr (csrDie addr) (csrPage addr))
    else .next s

end Sys2Proof.Machine
end

