-- ==== Sys2Proof/Machine/Audit.lean ====
section
/-! DEFINITION. The device's signatures and the audit log (spec/13 R448, R452, R469, R470). -/

namespace Sys2Proof.Machine

/-- The device signs: ECDSA's random part makes the 132 bytes a free value (spec/13 R448, R452). -/
def State.sign (s : State) : State × List Byte :=
  ({ s with fresh := s.fresh + 1 }, beBytes 132 (Config.signature s.fresh).toNat)

/-! ## The audit log (spec/13 R469, R470) -/

/-- Write an audit record into slot (counter mod 256), and advance the counter; integers little-endian (notes/assumptions/39.md). -/
def State.audit (s : State) (kind res part ep : Nat) (mHash key arg : List Byte) : State :=
  let n := s.flash.auditCount
  let b := leBytes 8 n.toNat ++ leBytes 8 s.now.toNat ++ leBytes 1 kind ++ leBytes 1 res ++ leBytes 1 part ++ leBytes 1 ep ++ zeros 4
    ++ padTo 64 mHash ++ padTo 16 key ++ padTo 20 arg
  let (s1, sig) := s.sign
  s1.setFlash { s1.flash with auditCount := n + 1, audit := s1.flash.audit.put (n.toNat % 256) (b ++ sig) }
/-- The endpoint byte of a command's record. -/
def GwyPkt.epByte (c : GwyPkt) : Nat := if c.src < 8 then c.src else 0xFF

/-- Set an ERR_STATUS bit whose BLOCK_ERROR is sent whatever INT_ENABLE holds (spec/16 R542). -/
def State.raiseSure (s : State) (die page bit : Nat) : State :=
  let h := s.hdr die page
  let t := s.raise die page bit
  if h.intEnable.getLsbD bit && !h.intStatus.getLsbD bit then t else t.blockError die page
/-- SEC.ERR_STATUS[1] AUTH_FAIL: a signature or an authority was refused (spec/16 Table 16-5). -/
def State.authFail (s : State) : State := s.raise s.lead 0xC4 1

end Sys2Proof.Machine
end

