-- ==== Sys2Proof/Machine/Load.lean ====
section
/-! DEFINITION. LOAD_END and START: an image's signature, tables and fit checks, their installation, and the start of a partition's streams (spec/12 R423 to R427, Tables 12-8 to 12-10, spec/10 R358, spec/08 R257). -/

namespace Sys2Proof.Machine

/-! ## Sections (spec/12 R423; layouts the tables leave open: notes/assumptions/40.md) -/

/-- The entries of an image's section table. -/
def imgSections (l : List Byte) : List Section := (List.range (imgCount l)).map (fun i => imgEntry l i)
/-- The bytes of a section. -/
def secBytes (l : List Byte) (e : Section) : List Byte := sliceB l e.off e.len
/-- A section is for partition floe index i. -/
def Section.covers (e : Section) (i : Nat) : Bool := e.floe == i || e.floe == 0xFFFF
/-- Cut bytes into k records of n bytes. -/
def chop (n : Nat) : Nat → List Byte → List (List Byte)
  | 0, _ => []
  | k + 1, l => l.take n :: chop n k (l.drop n)
/-- The records of n bytes of a section. -/
def recordsOf (n : Nat) (l : List Byte) : List (List Byte) := chop n (l.length / n) l
/-- The sections of a type. -/
def ofType (l : List Byte) (ty : Nat) : List Section := (imgSections l).filter (fun e => e.typ == ty)
/-- The records of the sections of a type for partition floe index i. -/
def floeRecords (l : List Byte) (ty n i : Nat) : List (List Byte) :=
  ((ofType l ty).filter (fun e => e.covers i)).flatMap (fun e => recordsOf n (secBytes l e))
/-- The records of every section of a type. -/
def allRecords (l : List Byte) (ty n : Nat) : List (List Byte) := (ofType l ty).flatMap (fun e => recordsOf n (secBytes l e))

/-- A group table entry: each field of spec/10 Table 10-1 in whole bytes, 51 in all. -/
def readGroup (b : List Byte) : Group :=
  { gid := leAt b 0 2, gepoch := leAt b 2 2, n := leAt b 4 3 + 1, self := leAt b 7 3, tree := leAt b 10 1 == 1, pred := leAt b 11 4, succ := leAt b 15 4,
    parent := leAt b 19 4, childs := ((List.range 6).map (fun i => leAt b (23 + 4 * i) 4)).filter (fun e => e != noEp), timeout := leAt b 47 3, guard := leAt b 50 1 }
/-- An exchange table: E, C, the destination endpoint and slot of each expert, IN, the source member and expert of each slot, 4 bytes each (spec/10 R341). -/
def readExchange (b : List Byte) : Exchange :=
  let e := leAt b 0 4
  let o := 8 + 8 * e
  { e := e, c := leAt b 4 4, out := (recordsOf 8 (sliceB b 8 (8 * e))).map (fun r => (leAt r 0 4, leAt r 4 4)),
    inn := (recordsOf 8 (sliceB b (o + 4) (8 * leAt b o 4))).map (fun r => (leAt r 0 4, leAt r 4 4)) }

/-- A table section's content is well formed. -/
def secOk (l : List Byte) (e : Section) : Bool :=
  let b := secBytes l e
  let n := b.length
  match e.typ with
  | 3 => n % 16 == 0 && (recordsOf 16 b).all (fun r => leAt r 4 4 == 0)
  | 4 => n == 12
  | 5 => n % 8 == 0 && (recordsOf 8 b).all (fun r => leAt r 2 2 == 0)
  | 6 => n % 51 == 0 && (recordsOf 51 b).all (fun r => leAt r 4 3 < 2 ^ 18 && leAt r 7 3 < 2 ^ 18 && leAt r 10 1 < 2)
  | 7 => n % 4 == 0
  | 8 =>
    let o := 8 + 8 * leAt b 0 4
    decide (12 ≤ n) && decide (o + 4 ≤ n) && n == o + 4 + 8 * leAt b o 4
  | 9 => n == 24
  | 10 => decide (4 ≤ n) && (n - 4) % 24 == 0
  | 11 => n % 48 == 0
  | _ => true
/-- The table sections are well formed: at most 256 declared entries for a floe besides. -/
def tablesOk (l : List Byte) (floes : Nat) : Bool :=
  (imgSections l).all (fun e => secOk l e) && (List.range floes).all (fun i => (floeRecords l 5 8 i).length ≤ 256)

/-! ## The floe that an image makes -/

/-- The FLOE_CONFIG records of partition floe index i: offset and value. -/
def configOf (l : List Byte) (i : Nat) : List (Nat × Nat) := (floeRecords l 3 16 i).map (fun r => (leAt r 0 4, leAt r 8 8))
/-- Apply a FLOE_CONFIG record; one that names no RWL field changes nothing. -/
def Floe.configure (x : Floe) (r : Nat × Nat) : Floe := (x.writeRwl r.1 r.2).getD x
/-- The exchange tables of partition floe index i, by group. -/
def exchOf (l : List Byte) (i : Nat) : Tbl Exchange :=
  ((ofType l 8).filter (fun e => e.covers i)).foldl (fun t e => Tbl.put t e.tgt (readExchange (secBytes l e))) []
/-- Number a list's elements from k. -/
def numbered {α : Type} : Nat → List α → Tbl α
  | _, [] => []
  | k, a :: r => (k, a) :: numbered (k + 1) r
/-- The image's settings in a floe (spec/12 R425 step 5). -/
def Floe.install (x : Floe) (l : List Byte) (i : Nat) : Floe :=
  let y := (configOf l i).foldl Floe.configure x
  { y with declared := (floeRecords l 5 8 i).map (fun r => (leAt r 0 2, leAt r 4 4)), groups := numbered 0 ((floeRecords l 6 51 i).map readGroup),
           exchs := exchOf l i, holdMode := bitOf (leAt l 26 1) 0, mirrorOn := bitOf (leAt l 26 1) 1 }
/-- The floes an image makes: partition floe index, logical floe, floe. -/
def State.imageFloes (s : State) (p : Nat) (l : List Byte) : List (Nat × Nat × Floe) :=
  (numbered 0 (s.partFloes p)).map (fun e => (e.1, e.2, (s.floe e.2).install l e.1))
/-- The entry points of partition floe index i: FWD, BWD, UPD; none without an ENTRY section (spec/06 R156, notes/assumptions/40.md). -/
def entryOf (l : List Byte) (i : Nat) : Option (List Word) :=
  ((floeRecords l 4 12 i).getLast?).map (fun r => [BitVec.ofNat 32 (leAt r 0 4), BitVec.ofNat 32 (leAt r 4 4), BitVec.ofNat 32 (leAt r 8 4)])

/-! ## Image load checks (spec/12 Table 12-10) -/

/-- An entry point lies in the floe's code region, or there is none. -/
def Floe.entryOk (x : Floe) (pc : Word) : Bool :=
  pc == 0xFFFFFFFF#32 || (x.codeBase.toNat ≤ pc.toNat && pc.toNat < x.codeBase.toNat + x.codeSize.toNat)
/-- The grade is the device's. -/
def State.gradeOk (s : State) (l : List Byte) : Bool := leAt l 24 1 == 3 || leAt l 24 1 == (if s.variant.isM then 2 else 1)
/-- The first of the checks of Table 12-10 that fails. -/
def State.imageMisfit (s : State) (p : Nat) (l : List Byte) : Option Nat :=
  let fl := s.imageFloes p l
  let groups := ((List.range 26).filter (fun g => (s.part p).groups.getLsbD g)).length
  if !s.gradeOk l then some 0x01
  else if leAt l 25 1 ≠ groups then some 0x02
  else if !fl.all (fun e => ((entryOf l e.1).getD []).all (fun pc => e.2.2.entryOk pc)) then some 0x03
  else if (bitOf (leAt l 26 1) 2 || !(ofType l 9).isEmpty) && s.steer ≠ some p then some 0x04
  else if !fl.all (fun e => (configOf l e.1).all (fun r => (Floe.writeRwl {} r.1 r.2).isSome && floeLegal r.1 r.2)
      && e.2.2.ppBase.toNat + 2 * e.2.2.ppCount.toNat ≤ 256) then some 0x05
  else none

/-! ## Collective load checks (spec/10 Table 10-11) -/

/-- No value twice. -/
def distinct : List Nat → Bool
  | [] => true
  | a :: r => !r.contains a && distinct r
/-- The tag table's entries: bucket tag and partition floe index. -/
def tagsOf (l : List Byte) : List (Nat × Nat) := (allRecords l 7 4).map (fun r => (leAt r 0 2, leAt r 2 2))
/-- A group's fields are in range; GUARD is a tree's (notes/assumptions/40.md). -/
def Group.ok (g : Group) : Bool :=
  g.self < g.n && 1 ≤ g.timeout && g.timeout ≤ 100000
    && (if g.tree then 1 ≤ g.guard && g.guard ≤ 255 && (g.parent :: g.childs).all (fun e => e == noEp || e % 256 == 0xFF)
        else g.pred != noEp && g.succ != noEp)
/-- An exchange table is consistent with itself: C in whole block rows, experts and members in range, no slot assigned twice. -/
def Exchange.ok (x : Exchange) (g : Group) : Bool :=
  !g.tree && x.c % 32 == 0 && x.inn.all (fun i => i.1 < g.n && i.2 < x.e) && distinct (x.out.map (fun o => o.1 * 2 ^ 32 + o.2))
    && distinct (x.inn.map (fun i => i.1 * 2 ^ 32 + i.2))
/-- The instruction words of the code region that an image gives a floe, as the loaded bytes stand. -/
def State.codeWords (s : State) (f : Nat) (x : Floe) : List IWord :=
  (List.range (x.codeSize.toNat / 16)).map (fun i => BitVec.ofNat 128 (ofLe (s.fill [] (spAddr f (x.codeBase.toNat + 16 * i)) 16)))
/-- A collective instruction uses a channel that its opcode may use (spec/10 Table 10-2). -/
def collChOk (w : IWord) : Bool :=
  match opOf w with
  | 0x40 | 0x41 => collCh w == 1 || collCh w == 2
  | 0x42 => collCh w == 3
  | 0x44 => collCh w == 1
  | _ => true
/-- The descriptor that an image gives a tag of a floe; none where its bytes are no valid descriptor. -/
def State.imageDesc (s : State) (f : Nat) (x : Floe) (t : Nat) : Option Desc :=
  let l := s.fill [] (spAddr f (x.descBase.toNat + 32 * t)) 32
  if descOk l then some (descOf l) else none
/-- A PERMUTE of the image agrees with the exchange table of its group in E, C, IN and the segment's size, as far as the image describes its tensors (spec/10 R341). -/
def State.exchangeFits (s : State) (f : Nat) (x : Floe) (w : IWord) : Bool :=
  match Tbl.find x.exchs (collGroup w), Tbl.find x.groups (collGroup w), s.imageDesc f x (collSrc w), s.imageDesc f x (collDst w) with
  | some e, some g, some a, some b => ringFormatOk .permute a b && ringGeometryOk .permute a b g.n e
  | _, _, _, _ => true
/-- A steering plan leaves at least 8 lanes on each cabled NEG and POS port (spec/09 R284). -/
def State.planOk (s : State) (masks : List DWord) : Bool :=
  (List.range 3).all (fun a => [false, true].all (fun pos =>
    let k := nearPort a pos
    !s.cabled k || 8 ≤ ones 64 (masks.getD a 0 &&& portSlots k).toNat))
/-- A PLAN section's masks. -/
def readPlan (b : List Byte) : List DWord := [BitVec.ofNat 64 (leAt b 0 8), BitVec.ofNat 64 (leAt b 8 8), BitVec.ofNat 64 (leAt b 16 8)]
/-- The first of the checks of Table 10-11 that fails. What binds a group to a channel, and an exchange table to tensors, are the collective instructions of the code region, with the descriptors that the image gives their tags (notes/assumptions/116.md). -/
def State.collMisfit (s : State) (p : Nat) (l : List Byte) : Option Nat :=
  let fl := s.imageFloes p l
  let tags := tagsOf l
  if !distinct (tags.map (fun t => t.1)) || tags.any (fun t => t.2 != 0xFFFF && fl.length ≤ t.2) || 16384 < tags.length then some 0x20
  else if fl.any (fun e => 256 < e.2.2.groups.length || !e.2.2.groups.all (fun g => g.2.ok)) then some 0x21
  else if fl.any (fun e => (s.codeWords e.2.1 e.2.2).any (fun w => !collChOk w)) then some 0x22
  else if fl.any (fun e => !e.2.2.exchs.all (fun x => (Tbl.find e.2.2.groups x.1).any (fun g => x.2.ok g))
      || (s.codeWords e.2.1 e.2.2).any (fun w => opOf w == 0x42 && !s.exchangeFits e.2.1 e.2.2 w)) then some 0x23
  else if fl.any (fun e => 0x100000 < e.2.2.earlySize.toNat || e.2.2.earlySize.toNat % 4096 != 0) then some 0x24
  else if (ofType l 9).any (fun e => !s.planOk (readPlan (secBytes l e))) then some 0x25
  else none

/-! ## Memory fit checks (spec/08 Table 8-5) -/

/-- A region of the REGIONS section: partition floe index (0xFFFF outside the scratchpads), alias group (0 none), code or descriptor table, HOLD region, place, size. -/
structure Region where
  floe  : Nat
  grp   : Nat
  alone : Bool
  hold  : Bool
  addr  : Nat
  size  : Nat
/-- Round up to a multiple of 256 the planes of a region, each rounded up to 64 (spec/08 R257). -/
def regionSize (planes : List Nat) : Nat := roundUp (planes.foldl (fun n p => n + roundUp p 64) 0) 256
/-- An entry of the REGIONS section, 48 bytes (notes/assumptions/40.md): floe index 2, alias group 2, flags 4 ([0] code region, [1] descriptor table, [2] HOLD region), address 8, the sizes of its planes, 8 each: elements or plain bytes, scales, occupancy, metadata, 0 for one that is absent. -/
def readRegion (b : List Byte) : Region :=
  let w := leAt b 4 4
  { floe := leAt b 0 2, grp := leAt b 2 2, alone := bitOf w 0 || bitOf w 1, hold := bitOf w 2, addr := leAt b 8 8
    size := regionSize ((List.range 4).map (fun i => leAt b (16 + 8 * i) 8)) }
/-- The regions an image declares. -/
def regionsOf (l : List Byte) : List Region := (allRecords l 11 48).map readRegion
/-- A region that FLOE_CONFIG places: of one plane, in no alias group. -/
def configRegion (i a n : Nat) (alone : Bool) : Region := { floe := i, grp := 0, alone := alone, hold := false, addr := a, size := regionSize [n] }
/-- Placed regions with the declared ones: one declared again with its address, size and kind counts once. -/
def withDeclared (placed declared : List Region) : List Region :=
  placed ++ declared.filter (fun r => !placed.any (fun q => q.addr == r.addr && q.size == r.size && q.alone == r.alone))
/-- The scratchpad regions of partition floe index i: those that FLOE_CONFIG places (code, descriptor table, stash front, early region) and those declared. -/
def spRegions (l : List Byte) (i : Nat) (x : Floe) : List Region :=
  withDeclared
    (([(x.codeBase.toNat, x.codeSize.toNat, true), (x.frontBase.toNat, x.frontSize.toNat, false), (x.earlyBase.toNat, x.earlySize.toNat, false)]
        ++ (if (configOf l i).any (fun r => r.1 == 0x110) then [(x.descBase.toNat, 8192, true)] else [])).filterMap
      (fun (r : Nat × Nat × Bool) => if r.2.1 = 0 then none else some (configRegion i r.1 r.2.1 r.2.2)))
    ((regionsOf l).filter (fun r => r.floe == i))
/-- The near-memory and the CXL regions of an image. -/
def nmRegions (l : List Byte) (fl : List (Nat × Nat × Floe)) : List Region :=
  withDeclared (fl.map (fun e => configRegion 0xFFFF e.2.2.nmBase.toNat e.2.2.nmSize.toNat false)) ((regionsOf l).filter (fun r => r.floe == 0xFFFF && r.addr < cxlBase))
def cxlRegions (l : List Byte) (fl : List (Nat × Nat × Floe)) : List Region :=
  withDeclared (fl.map (fun e => configRegion 0xFFFF e.2.2.cxlBase.toNat e.2.2.cxlSize.toNat false)) ((regionsOf l).filter (fun r => r.floe == 0xFFFF && cxlBase ≤ r.addr))
/-- The sum of sizes, an alias group counting once at its largest member. -/
def sumRegions : List Region → Nat
  | [] => 0
  | r :: t => (if r.grp != 0 && t.any (fun q => q.grp == r.grp && r.size ≤ q.size) then 0
               else if r.grp = 0 then r.size
               else r.size - (t.filter (fun q => q.grp == r.grp)).foldl (fun (n : Nat) q => max n q.size) 0) + sumRegions t
/-- Two regions may not overlap: unless both are of one alias group and neither is a code region or a descriptor table. -/
def clash (a b : Region) : Bool :=
  a.addr < b.addr + b.size && b.addr < a.addr + a.size && 0 < a.size && 0 < b.size && (a.grp == 0 || a.grp != b.grp || a.alone || b.alone)
/-- Some pair of a list clashes. -/
def clashes : List Region → Bool
  | [] => false
  | r :: t => t.any (fun q => clash r q) || clashes t
/-- A region lies in the partition's granted units; an empty one lies anywhere. -/
def Part.covers (x : Part) (r : Region) : Bool :=
  r.size == 0 || (r.size ≤ 2 ^ 30 * (x.near.length + x.cxl.length)
    && (List.range ((r.addr % 2 ^ 30 + r.size + 2 ^ 30 - 1) / 2 ^ 30)).all (fun i => x.holds (2 ^ 30 * (r.addr / 2 ^ 30 + i))))
/-- The declared entries of a floe all find a tier (spec/07 R197). -/
def Floe.placesOk (x : Floe) : Bool := x.places.all (fun o => o.isSome)
/-- A CXL region lies in one window. -/
def State.inWindow (s : State) (r : Region) : Bool :=
  r.size == 0 || (List.range 2).any (fun k => (s.cxl k).wins.any (fun w => !w.2.lost && w.2.base ≤ r.addr && r.addr + r.size ≤ w.2.base + 2 ^ 30 * w.2.gib))
/-- The mirror map of an image: sending floe, pair index, two bases; 24 bytes an entry (spec/07 R230, notes/assumptions/40.md). -/
def mirrorMap (l : List Byte) : List (Nat × Nat × Nat × Nat) :=
  (ofType l 10).flatMap (fun e => (recordsOf 24 ((secBytes l e).drop 4)).map (fun r => (leAt r 0 2, leAt r 2 2, leAt r 8 8, leAt r 16 8)))
/-- The near-memory stash of an image. -/
def stashNm (fl : List (Nat × Nat × Floe)) : Nat := fl.foldl (fun (n : Nat) e => n + e.2.2.nmSize.toNat) 0
/-- A near-memory region reaches into the unpopulated range of the part (spec/00 R3). -/
def State.unpopulated (s : State) (r : Region) : Bool := r.size != 0 && r.addr < cxlBase && 80 * 2 ^ 30 * s.variant.devices < r.addr + r.size
/-- The first of the checks of Table 8-5 that fails. A HOLD region outside the grant fails under 0x17, one in the unpopulated range under 0x15 (spec/00 R3; notes/assumptions/40.md). -/
def State.memMisfit (s : State) (p : Nat) (l : List Byte) : Option Nat :=
  let x := s.part p
  let fl := s.imageFloes p l
  let nm := nmRegions l fl
  let cx := cxlRegions l fl
  let held := (List.range 8).foldl (fun (n : Nat) q => n + (s.part q).nmShare) 0
  if fl.any (fun e => spSize < sumRegions (spRegions l e.1 e.2.2)) then some 0x10
  else if fl.any (fun e => (spRegions l e.1 e.2.2).any (fun r => spSize < r.addr + r.size) || clashes (spRegions l e.1 e.2.2)) then some 0x11
  else if fl.any (fun e => e.2.2.frontSize.toNat % 4096 != 0 || 0x400000 < e.2.2.frontSize.toNat) then some 0x12
  else if fl.any (fun e => !e.2.2.placesOk) then some 0x13
  else if 2 ^ 30 * x.near.length < sumRegions nm then some 0x14
  else if nm.any (fun r => s.unpopulated r || (!r.hold && !x.covers r)) || clashes (nm.filter (fun r => !r.hold)) then some 0x15
  else if 512 * 2 ^ 30 < stashNm fl + held then some 0x16
  else if nm.any (fun r => r.hold && !x.covers r) || clashes nm || cx.any (fun r => r.hold && (!x.covers r || !s.inWindow r)) then some 0x17
  else if (mirrorMap l).any (fun m => !x.near.contains (m.2.2.1 / 2 ^ 30) || !x.near.contains (m.2.2.2 / 2 ^ 30)) then some 0x18
  else if 2 ^ 30 * x.cxl.length < sumRegions cx then some 0x19
  else if cx.any (fun r => !x.covers r || !s.inWindow r) || clashes cx then some 0x1A
  else none

/-! ## The signature (spec/13 R458, R459) -/

/-- The key field that an image's block names, with its slot (8 for the owner key). -/
def State.imageKey (s : State) (b : List Byte) : Option (Nat × List Byte) :=
  if blockKind b = 1 then (s.flash.owner.filter (fun k => keyId k == blockKey b)).map (fun k => (8, k))
  else if blockKind b = 2 then s.flash.imageKeys.find? (fun e => keyId e.2 == blockKey b)
  else none
/-- The slot of the key under which an image is signed; none where the signature is refused. -/
def State.imageSigner (s : State) (l : List Byte) : Option Nat :=
  let b := l.drop (l.length - 256)
  ((s.imageKey b).filter (fun e => blockSigns b (l.take (l.length - 256)) e.2)).map (fun e => e.1)

/-! ## LOAD_END and START -/

/-- The image that a partition keeps. -/
def readImage (l : List Byte) (floes : Nat) : Image :=
  let b := l.drop (l.length - 256)
  { seed := BitVec.ofNat 64 (leAt l 32 8), step := BitVec.ofNat 32 (leAt l 40 4), gn := BitVec.ofNat 32 (leAt l 44 4), hold := bitOf (leAt l 26 1) 0,
    mirror := bitOf (leAt l 26 1) 1, secver := BitVec.ofNat 32 (leAt l 48 4), digest := blockDigest b, keyId := BitVec.ofNat 128 (ofBe (blockKey b)),
    entries := (List.range floes).filterMap (fun i => (entryOf l i).map (fun e => (i, e))),
    tagTable := (tagsOf l).foldl (fun (t : Tbl Nat) e => t.put e.1 e.2) [],
    plans := (ofType l 9).foldl (fun (t : Tbl (List DWord)) e => t.put e.tgt (readPlan (secBytes l e))) [],
    buddy := ((ofType l 10).map (fun e => leAt (secBytes l e) 0 4)).getD 0 noEp, mirMap := mirrorMap l }
/-- The image is installed and the partition becomes LOADED (spec/12 R425 steps 5 and 6). Its share of the near-memory stash is held until release, beside those of earlier images of the partition (spec/08 R258; notes/assumptions/117.md). -/
def State.installImage (s : State) (p : Nat) (l : List Byte) : State :=
  let fl := s.imageFloes p l
  let s1 := s.each fl (fun s e => s.setFloe e.2.1 e.2.2)
  s1.setPart p { s1.part p with st := .loaded, load := none, image := some (readImage l fl.length), nmShare := (s1.part p).nmShare + stashNm fl }

/-- The LOAD_END that the loader takes next: the first to have arrived of those that may run (spec/08 R258). -/
def State.loaderNext (s : State) : Option GwyPkt :=
  s.cmdq.find? (fun d => isOp 0x05 d && (s.takeCmd d.part (isOp 0x05)).any (fun x => x.1 == d))
/-- LOAD_END (spec/12 R425, spec/08 R258). -/
def execLoadEnd (pv : Nat) (s : State) : Host.Outcome State Fault Refusal :=
  if s.loaderNext.any (fun d => d.part != pv) then .next s else
  match s.takeCmd pv (isOp 0x05) with
  | none => .next s
  | some (c, s1) =>
    match s1.acceptCmd c (c.arg0 == 0 && c.arg1 == 0 && c.payload.isEmpty) true false (fun st => st == .claimed && (s1.part pv).load.isSome) with
    | some t => .next t
    | none =>
      match (s1.part pv).load with
      | none => .next (s1.stateError c)
      | some ld =>
        let l := ld.bytes
        if l.length < ld.len then .next (s1.respond c 0x06 5 0 0 [])
        else match s1.imageSigner l with
          | none => .next (s1.closeLoad c 0x09 1).authFail
          | some slot =>
            if leAt l 48 4 < (Tbl.get 0 s1.flash.mins slot).toNat then
              .next ((s1.audit 4 0x09 pv c.epByte [] (blockKey (l.drop (l.length - 256))) []).closeLoad c 0x09 2).authFail
            else if !tablesOk l (s1.partFloes pv).length then .next (s1.closeLoad c 0x06 4)
            else match (s1.imageMisfit pv l).orElse (fun _ => (s1.collMisfit pv l).orElse (fun _ => s1.memMisfit pv l)) with
              | some code => .next (s1.closeLoad c 0x03 code)
              | none => .next ((s1.installImage pv l).respond c 0 0 0 0 [])

/-- A stream at START: its entry point or HALTED, and the scalar registers of spec/06 Table 6-2. -/
def StreamSt.start (x : StreamSt) (pc : Word) (regs : Tbl DWord) : StreamSt :=
  if pc = 0xFFFFFFFF#32 then { x with st := .halted, fault := 0, regs := regs }
  else { x with st := .running, pc := pc.setWidth 64, fault := 0, regs := regs }
/-- Start every stream of a partition (spec/06 R156, R157, spec/07 R223). -/
def State.startStreams (s : State) (p : Nat) (im : Image) : State :=
  let fl := s.partFloes p
  s.each (numbered 0 fl) (fun s e =>
    let x := s.floe e.2
    let pcs := Tbl.get [] im.entries e.1
    let regs : Tbl DWord := [(1, BitVec.ofNat 64 e.2), (2, BitVec.ofNat 64 e.1), (3, BitVec.ofNat 64 fl.length), (4, im.step.setWidth 64)]
    s.setFloe e.2 { x with fwd := x.fwd.start (pcs.getD 0 0xFFFFFFFF) regs, bwd := x.bwd.start (pcs.getD 1 0xFFFFFFFF) regs,
                           upd := x.upd.start (pcs.getD 2 0xFFFFFFFF) regs, gnCommit := im.gn, curValid := false, locked := true })

/-- START (spec/12 R426, R427, spec/02 R46, spec/10 R322): PROGRAM_END follows at once where no stream has an entry point (R430). -/
def execStart (pv : Nat) (s : State) : Host.Outcome State Fault Refusal :=
  match s.takeCmd pv (isOp 0x06) with
  | none => .next s
  | some (c, s1) =>
    match s1.acceptCmd c (c.arg0 == 0 && c.arg1 == 0 && c.payload.isEmpty) true false (fun st => st == .loaded) with
    | some t => .next t
    | none =>
      let im := (s1.part pv).image.getD {}
      let s2 := (s1.startFloes pv).startStreams pv im
      let s3 := s2.setPart pv { s2.part pv with st := .running, stepCount := im.step, serial := 0 }
      .next ((s3.respond c 0 0 0 0 []).programEnd pv)

end Sys2Proof.Machine
end

