-- ==== Sys2Proof/Machine/Security.lean ====
section
/-! DEFINITION. Attestation, firmware, presence, the seal and the privileged operations (spec/13, spec/12 R433 to R435, spec/14 R476). Multi-byte integers of evidence, of firmware headers and of authorisations are little-endian (notes/assumptions/39.md). -/

namespace Sys2Proof.Machine

/-- An endpoint is told BUSY_ATTEST, and hears ATTEST_READY later (spec/12 R433). -/
def State.tellBusy (s : State) (c : GwyPkt) : State :=
  let s1 := if c.src < 8 then s.setEp c.src { s.ep c.src with busyAttest := true } else s
  s1.respond c 0x0C 0 0 0 []

/-- CERT_GET (spec/13 R455, R457). -/
def execCertGet (s : State) : Host.Outcome State Fault Refusal :=
  match s.takeOp (isOp 0x21) with
  | none => .next s
  | some (c, s1) =>
    match s1.acceptCmd c (c.arg1 == 0 && c.payload.isEmpty) false true (fun _ => true) with
    | some t => .next t
    | none =>
      if c.arg0 = 1 && s1.busyAttest then .next (s1.tellBusy c)
      else match s1.certificate c.arg0.toNat with
        | none => .next (s1.respond c 0x06 4 0 0 [])
        | some b => .next (s1.respond c 0 0 0 0 b)

/-- The session public key of a claim (spec/13 Table 13-2). -/
def sessionField (n : Nat) : List Byte := pubField (((Config.random (3 * n)).toNat * 2 ^ 512 + (Config.random (3 * n + 1)).toNat) % (n521 - 1) + 1)
/-- Evidence about a partition's image and grant, bytes 568 to 799 (spec/13 Table 13-4, R457). -/
def State.evidencePart (s : State) (p : Nat) : List Byte :=
  let x := s.part p
  let im := match x.image with
    | some i => i.digest ++ beBytes 16 i.keyId.toNat ++ leBytes 4 i.secver.toNat
    | none => zeros 84
  im ++ leBytes 4 x.groups.toNat ++ leBytes 4 x.near.length ++ leBytes 4 x.cxl.length ++ sessionField x.claimNo
/-- Evidence, bytes 0 to 799 (spec/13 Table 13-4). -/
def State.evidence (s : State) (pv : Nat) (nonce : List Byte) : List Byte :=
  let f := b2n s.sec.debugOn + 2 * b2n s.fuses.debugLocked + 4 * b2n s.sec.mfg + 8 * b2n s.sec.intact + 16 * b2n s.ras.orphan + 32 * s.lead
  [0x41#8, 0x5A#8, 0x45#8, 0x56#8] ++ leBytes 4 1 ++ nonce ++ beBytes 16 s.fuses.serial.toNat ++ leBytes 8 s.now.toNat ++ leBytes 4 s.sec.epoch.toNat
    ++ leBytes 1 pv ++ leBytes 1 f ++ leBytes 2 s.flash.sealCount.toNat ++ leBytes 4 s.fuses.ownerUsed ++ zeros 4
    ++ (match s.flash.owner with | some k => sha512 k | none => zeros 64)
    ++ [1, 2, 3, 4, 5, 6].flatMap (fun c => s.measure c) ++ [1, 2, 3, 4, 5, 6].flatMap (fun c => leBytes 1 (Tbl.get 0 s.fuses.rollback c)) ++ zeros 2
    ++ (if pv = 15 then zeros 232 else s.evidencePart pv)

/-- ATTEST (spec/13 R456, spec/12 R433). -/
def execAttest (pv : Nat) (s : State) : Host.Outcome State Fault Refusal :=
  match s.takeCmd pv (isOp 0x20) with
  | none => .next s
  | some (c, s1) =>
    match s1.acceptCmd c (c.arg0 == 0 && c.arg1 == 0 && c.payload.length == 64) true true legalMem with
    | some t => .next t
    | none =>
      if s1.busyAttest then .next (s1.tellBusy c)
      else
        let e := s1.evidence pv c.payload
        let (s2, sig) := s1.sign
        .next (s2.respond c 0 0 0 0 (e ++ sig ++ zeros 4))

/-! ## Firmware (spec/13 R460 to R463) -/

/-- What is left of a chunk below an offset, and from an offset on. -/
def chunkBelow (a : Nat) (c : Nat × List Byte) : List (Nat × List Byte) := if c.1 < a then [(c.1, c.2.take (a - c.1))] else []
def chunkFrom (a : Nat) (c : Nat × List Byte) : List (Nat × List Byte) := if a < c.1 + c.2.length then [(max a c.1, c.2.drop (a - c.1))] else []
/-- Stage bytes: chunks stay apart and in ascending order. -/
def stageChunk (l : List (Nat × List Byte)) (a : Nat) (b : List Byte) : List (Nat × List Byte) :=
  l.flatMap (chunkBelow a) ++ (if b.isEmpty then [] else [(a, b)]) ++ l.flatMap (chunkFrom (a + b.length))
/-- The bytes staged from offset 0 without a gap. -/
def stagedRun : Nat → List (Nat × List Byte) → List Byte
  | _, [] => []
  | n, c :: r => if c.1 = n then c.2 ++ stagedRun (n + c.2.length) r else []
/-- The bytes of a slot from offset 0 on, and whether every byte has been staged. -/
def Slot.bytes (x : Slot) : List Byte := stagedRun 0 x.chunks
def Slot.whole (x : Slot) : Bool := x.factory || (x.total != 0 && x.bytes.length == x.total)
/-- A component of spec/13 Table 13-6. -/
def isComp (c : Nat) : Bool := 1 ≤ c && c ≤ 6

/-- FW_STAGE (spec/13 R461): another total length, or a package that has been active, begins the package anew; an offset or a length beyond the total is refused. -/
def execFwStage (s : State) : Host.Outcome State Fault Refusal :=
  match s.takeOp (isOp 0x30) with
  | none => .next s
  | some (c, s1) =>
    let comp := bitsOf c.arg0.toNat 0 8
    let off := bitsOf c.arg0.toNat 32 32
    let n := c.arg1.toNat
    match s1.acceptCmd c (bitsOf c.arg0.toNat 8 24 == 0 && isComp comp) false true (fun _ => true) with
    | some t => .next t
    | none =>
      if s1.sec.fwAct.any (fun a => a.comp == comp) then .next (s1.respond c 0x0B 0 0 0 [])
      else if n = 0 || n < off + c.payload.length then .next (s1.respond c 0x06 4 0 0 [])
      else
        let x := s1.comp comp
        let y : Slot := if x.staged.total = n && !x.staged.used then x.staged else { total := n }
        .next ((s1.setComp comp (x.setStaged { y with chunks := stageChunk y.chunks off c.payload })).respond c 0 0 0 0 [])

/-- A package's header is well formed for a component (spec/13 R460). -/
def fwHeaderOk (l : List Byte) (comp : Nat) : Bool :=
  decide (320 ≤ l.length) && l.take 4 == [0x41#8, 0x5A#8, 0x46#8, 0x57#8] && leAt l 4 1 == comp && leAt l 5 3 == 0 && leAt l 16 4 + 320 == l.length
    && (sliceB l 20 44).all (fun b => b == 0)
/-- A valid firmware-key slot signed a package. -/
def State.fwSigned (s : State) (l : List Byte) : Bool :=
  let b := l.drop (l.length - 256)
  blockKind b == 3 && (List.range 4).any (fun k => s.fuses.fwKeyValid.getLsbD k && blockSigns b (l.take (l.length - 256)) (Tbl.get [] s.fuses.fwKeys k))
/-- The result of steps 1 to 3 of an activation: status and detail; none where they pass (spec/13 R461, R462). A malformed header fails as an unstaged byte does (notes/assumptions/42.md). -/
def State.fwCheck (s : State) (comp : Nat) (x : Slot) : Option (Nat × Nat) :=
  let l := x.bytes
  let v := leAt l 12 4
  if x.factory then (if Tbl.get 0 s.fuses.rollback comp = 0 then none else some (0x09, 2))
  else if !x.whole || !fwHeaderOk l comp then some (0x06, 5)
  else if !s.fwSigned l then some (0x09, 1)
  else if v < Tbl.get 0 s.fuses.rollback comp then some (0x09, 2)
  else if 64 < v then some (0x0A, 0)
  else none
/-- The FW_ACTIVATED event (spec/12 Table 12-13). -/
def State.fwEvent (s : State) (comp res ver : Nat) : State := s.eventMgmt 0x50 0xFF (leBytes 1 comp ++ leBytes 1 res ++ zeros 2 ++ leBytes 4 ver)
/-- The pages of present blocks that a component changes, in ascending order (spec/16 Table 16-1). -/
def State.fwPages (s : State) (comp : Nat) : List (Nat × Nat) :=
  [0, 1].flatMap (fun d => (pageList.filter (fun p => liveComp p == comp && s.present d p)).map (fun p => (d, p)))
/-- Set LIVE_UPDATE.PENDING and ACTIVE of a page. -/
def State.setLive (s : State) (pg : Nat × Nat) (wait now : Bool) : State := s.setHdr pg.1 pg.2 { s.hdr pg.1 pg.2 with livePending := wait, liveActive := now }
/-- What a chiplet's sequencer did not do while it was being replaced is done: a port change is treated as detected now, and what waited begins (spec/14 R477). -/
def State.resume (s : State) (c : Nat) : State :=
  (s.each (chipPorts c) (fun s k =>
    let up := (s.port k).st == .up && s.time.aligned && !s.drained k
    if (s.port k).announced == up then s else s.notice k up)).nextWl c
/-- The update of a page ends: the block goes on. -/
def State.endLive (s : State) (pg : Nat × Nat) : State :=
  let s1 := s.setLive pg false false
  s1.each ((List.range 4).filter (fun c => chipPage c == pg)) (fun s c => s.resume c)
/-- A live update goes on to its next block, one at a time: what was being changed is released, and the first block still PENDING is changed (spec/14 R477, R478; notes/assumptions/99.md). -/
def State.liveStep (s : State) : State :=
  match s.sec.fwAct with
  | none => s
  | some a =>
    if a.comp = 3 then s
    else
      let l := s.fwPages a.comp
      let s1 := s.each (l.filter (fun g => (s.hdr g.1 g.2).liveActive)) (fun s g => s.endLive g)
      match l.find? (fun g => (s1.hdr g.1 g.2).livePending) with
      | none => s1
      | some g => s1.setLive g false true
/-- The floes that hold a running or paused program (spec/14 R476). -/
def State.busyFloes (s : State) : List Nat :=
  (List.range s.variant.floes).filter (fun f => (s.floePart f).any (fun p => (s.part p).st == .running || (s.part p).st == .paused))
/-- Steps 4 and 5 begin: the counter is raised, the staged slot becomes active, CONTROL holds the running floes, another component's first block is changed; a floe that a calving holds takes its turn later (spec/13 R461, spec/14 R476, R479). -/
def State.fwBegin (s : State) (comp : Nat) : State :=
  let x := s.comp comp
  let l := x.staged.bytes
  let v := leAt l 12 4
  let y : Slot := { x.staged with version := BitVec.ofNat 32 (leAt l 8 4), secver := v, body := sliceB l 64 (leAt l 16 4), used := true }
  let z : Comp := if x.activeB then { x with activeB := false, a := y } else { x with activeB := true, b := y }
  let s1 := (s.setComp comp z)
  let s2 := { s1 with fuses := { s1.fuses with rollback := s1.fuses.rollback.put comp (max v (Tbl.get 0 s1.fuses.rollback comp)) } }
  let todo := if comp = 3 then s2.busyFloes else []
  let later := todo.filter (fun f => s2.calveHolds f)
  let s3 := s2.setSec { s2.sec with fwAct := some { comp := comp, todo := todo, released := later } }
  let wait := if comp = 3 then todo.map (fun f => s3.floePage f) else s3.fwPages comp
  ((s3.each wait (fun s g => s.setLive g true false)).each (todo.filter (fun f => !later.contains f)) (fun s f => s.holdFloe f)).liveStep

/-- FW_ACTIVATE (spec/13 R461, R470, spec/12 R434): refused at steps 1 to 3 it changes nothing but the audit log, and FW_ACTIVATED says so. -/
def execFwActivate (s : State) : Host.Outcome State Fault Refusal :=
  match s.takeOp (isOp 0x31) with
  | none => .next s
  | some (c, s1) =>
    let comp := c.arg0.toNat
    match s1.acceptCmd c (isComp comp && c.arg1 == 0 && c.payload.isEmpty) false true (fun _ => true) with
    | some t => .next t
    | none =>
      if s1.sec.fwAct.isSome || s1.rst.devPending then .next (s1.respond c 0x0B 0 0 0 [])
      else
        let x := (s1.comp comp).staged
        let b := x.bytes.drop (x.bytes.length - 256)
        let s2 := s1.respond c 0x01 0 0 0 []
        match s2.fwCheck comp x with
        | some (res, det) =>
          let dig := if res = 0x06 then [] else blockDigest b
          let key := if res = 0x06 then [] else blockKey b
          let s3 := s2.audit 2 res 15 c.epByte dig key []
          let s4 := if res = 0x09 && det = 2 then s3.audit 4 res 15 c.epByte dig key [] else s3
          let s5 := if res = 0x09 then s4.authFail else s4
          .next (s5.fwEvent comp res (s5.comp comp).active.version.toNat).attestReady
        | none => .next ((s2.audit 2 0 15 c.epByte (blockDigest b) (blockKey b) []).fwBegin comp)

/-- FW_ACTIVATED (spec/13 R461 step 5, R457): the application ends once no floe is left to change, the blocks still to change with it; SECURITY firmware re-issues the alias certificate (R455). -/
def execFwActivated (s : State) : Host.Outcome State Fault Refusal :=
  match s.sec.fwAct with
  | none => .next s
  | some a =>
    if !a.todo.isEmpty then .next s
    else
      let s1 := (s.setSec { s.sec with fwAct := none }).newEpoch
      let s2 := s1.each ((s1.fwPages a.comp).filter (fun g => (s1.hdr g.1 g.2).livePending || (s1.hdr g.1 g.2).liveActive)) (fun s g => s.endLive g)
      let s3 := if a.comp = 1 then s2.setFlash { s2.flash with aliasOwner := s2.fuses.ownerUsed } else s2
      let s4 := if s3.straps.boot = 2 && s3.rst.phase = .cold then s3.setRst { s3.rst with recovered := a.comp :: s3.rst.recovered } else s3
      .next (s4.fwEvent a.comp 0 (s4.comp a.comp).active.version.toNat).attestReady

/-- CONTROL firmware's part in a hold ends; a calving that holds the floe goes on. -/
def State.fwRelease (s : State) (f : Nat) : State := s.setFloe f { s.floe f with held := s.calveHolds f }
/-- FW_QUIET_POINT (spec/14 R476): the floe's microcode is replaced and its streams are released. -/
def execFwQuietPoint (f : Nat) (s : State) : Host.Outcome State Fault Refusal :=
  match s.sec.fwAct with
  | none => .next s
  | some a =>
    if a.todo.contains f && !a.released.contains f && s.quiet f then
      let s1 := s.setSec { s.sec with fwAct := some { a with todo := a.todo.filter (fun g => g != f) } }
      .next ((s1.fwRelease f).setLive (s1.floePage f) false false)
    else .next s
/-- FW_HOLD_TIMEOUT (spec/14 R476): released, to be held again; the page counts the deferral (spec/16 R534). -/
def execFwHoldTimeout (f : Nat) (s : State) : Host.Outcome State Fault Refusal :=
  match s.sec.fwAct with
  | none => .next s
  | some a =>
    if a.todo.contains f && !a.released.contains f then
      let s1 := (s.setSec { s.sec with fwAct := some { a with released := f :: a.released } }).fwRelease f
      let g := s1.floePage f
      let h := s1.hdr g.1 g.2
      .next (s1.setHdr g.1 g.2 { h with deferrals := satInc h.deferrals })
    else .next s
/-- FW_REHOLD (spec/14 R476, R479): held again, unless a calving holds the floe. -/
def execFwRehold (f : Nat) (s : State) : Host.Outcome State Fault Refusal :=
  match s.sec.fwAct with
  | none => .next s
  | some a =>
    if a.todo.contains f && a.released.contains f && !s.calveHolds f then
      .next ((s.setSec { s.sec with fwAct := some { a with released := a.released.filter (fun g => g != f) } }).holdFloe f)
    else .next s

/-- The FW_STATUS record of a component (spec/13 R463). -/
def State.fwRecord (s : State) (c : Nat) : List Byte :=
  let x := s.comp c
  let y := x.staged
  leBytes 1 c ++ leBytes 1 (b2n x.activeB) ++ leBytes 1 (if y.whole then 2 else if y.total = 0 then 0 else 1) ++ leBytes 1 (Tbl.get 0 s.fuses.rollback c)
    ++ leBytes 4 x.active.version.toNat ++ leBytes 4 (if 12 ≤ y.bytes.length then leAt y.bytes 8 4 else 0) ++ leBytes 1 x.active.secver ++ zeros 3
/-- FW_STATUS (spec/13 R463). -/
def execFwStatus (s : State) : Host.Outcome State Fault Refusal :=
  match s.takeOp (isOp 0x32) with
  | none => .next s
  | some (c, s1) =>
    match s1.acceptCmd c (c.arg0 == 0 && c.arg1 == 0 && c.payload.isEmpty) false true (fun _ => true) with
    | some t => .next t
    | none => .next (s1.respond c 0 0 0 0 ([1, 2, 3, 4, 5, 6].flatMap (fun k => s1.fwRecord k)))

/-! ## Presence and the seal (spec/13 R464, R465) -/

/-- PRESENCE_ASSERTION. -/
def execPresenceAssertion (s : State) : Host.Outcome State Fault Refusal :=
  .next (s.setSec { s.sec with presence := true, presenceTime := s.now })
/-- PRESENCE_EXPIRY. -/
def execPresenceExpiry (s : State) : Host.Outcome State Fault Refusal := .next (s.setSec { s.sec with presence := false })
/-- The security controller runs (spec/15 R499 step 4, R502, R504). -/
def State.secRuns (s : State) : Bool :=
  match s.rst.phase with
  | .ready => true
  | .cold => 4 ≤ s.rst.step.toNat
  | .warm | .halted | .tripped => false
/-- SEAL_PATTERN_CHANGE (spec/13 R465, spec/15 R504): SEAL_A takes the next bit of the pattern; a mismatch opens an intact loop, and 1 s of matches makes it intact again. -/
def execSealPatternChange (returned : Bool) (s : State) : Host.Outcome State Fault Refusal :=
  if !s.secRuns then .next s
  else
    let x : Sec := { s.sec with sealA := Config.sealPattern s.sec.sealBit, sealBit := s.sec.sealBit + 1 }
    if returned then
      let t := x.sealSince.getD s.now
      .next (s.setSec { x with sealSince := some t, intact := x.intact || 1000000000 ≤ s.now.toNat - t.toNat })
    else
      let s1 := s.setSec { x with sealSince := none, intact := false }
      if x.intact then
        let s2 := s1.setFlash { s1.flash with sealCount := satInc s1.flash.sealCount }
        .next ((s2.audit 3 0 15 0xFF [] [] []).raiseSure s2.lead 0xC4 0)
      else .next s1

/-! ## Privileged operations (spec/13 R466 to R468, spec/12 R434, R435) -/

/-- A PRIV command of an operation. -/
def isPriv (op : Nat) (c : GwyPkt) : Bool := c.opcode == 0x70 && bitsOf c.arg0.toNat 0 8 == op
/-- The argument of an authorisation. -/
def privArg (l : List Byte) : List Byte := sliceB l 32 (leAt l 4 4)
/-- The authorisation is laid out for an operation with an argument of n bytes and k signature blocks. -/
def privOk (op n k : Nat) (l : List Byte) : Bool :=
  l.length == 32 + n + 256 * k && leAt l 0 1 == op && leAt l 1 3 == 0 && leAt l 4 4 == n
/-- The message and the k-th block of an authorisation. -/
def privMsg (l : List Byte) : List Byte := l.take (32 + leAt l 4 4)
def privBlock (l : List Byte) (k : Nat) : List Byte := sliceB l (32 + leAt l 4 4 + 256 * k) 256
/-- The owner signed: the current owner, or the key given where none is set. -/
def State.ownerSigned (s : State) (l : List Byte) (other : Option (List Byte)) : Bool :=
  blockKind (privBlock l 0) == 1 && ((s.flash.owner.orElse (fun _ => other)).map (fun k => blockSigns (privBlock l 0) (privMsg l) k)).getD false
/-- Presence is recent and the seal is intact (spec/12 R435). -/
def State.presenceOk (s : State) : Bool := s.sec.presence && s.sec.intact
/-- Every partition is FREE. -/
def State.allFree (s : State) : Bool := (List.range 8).all (fun p => (s.part p).st == .free)
/-- Answer a PRIV that passed the serial and counter checks, with its audit record; a success carries the new counter (spec/13 R466, R470). -/
def State.privEnd (s : State) (c : GwyPkt) (st det : Nat) : State :=
  let l := c.payload
  let s1 := s.audit 1 st 15 c.epByte (sha512 (privMsg l ++ (privBlock l 0).take 24)) (blockKey (privBlock l 0)) (privArg l)
  let s2 := s1.respond c st det (if st = 0 then s1.flash.auditCount.toNat else 0) 0 []
  if st = 0x09 then s2.authFail else s2
/-- A PRIV: what every operation checks in common, then its own limits and conditions (status and detail), then its effect (spec/13 R466, R468; order of the checks notes/assumptions/43.md). -/
def State.runPriv (s : State) (c : GwyPkt) (op n k : Nat) (needs : Bool) (signed : Bool) (limits : Option (Nat × Nat)) (effect : State → State) : State :=
  let l := c.payload
  match s.acceptCmd c (bitsOf c.arg0.toNat 8 56 == 0 && c.arg1 == 0 && privOk op n k l) false true (fun _ => true) with
  | some t => t
  | none =>
    if s.sec.fwAct.isSome || s.rst.devPending then s.respond c 0x0B 0 0 0 []
    else if needs && !s.presenceOk then s.respond c 0x08 0 0 0 []
    else if sliceB l 8 16 != beBytes 16 s.fuses.serial.toNat || leAt l 24 8 ≠ s.flash.auditCount.toNat then (s.respond c 0x09 1 0 0 []).authFail
    else if !signed then s.privEnd c 0x09 1
    else match limits with
      | some (st, det) => s.privEnd c st det
      | none => effect (s.privEnd c 0 0)

/-- OWNER_CHANGE (spec/13 Table 13-7). -/
def execOwnerChange (s : State) : Host.Outcome State Fault Refusal :=
  match s.takeOp (isPriv 1) with
  | none => .next s
  | some (c, s1) =>
    let key := privArg c.payload
    let limits := if 16 ≤ s1.fuses.ownerUsed then some (0x0A, 0) else if !keyOk key then some (0x06, 4) else if !s1.allFree then some (0x0B, 0) else none
    .next (s1.runPriv c 1 136 1 true (s1.ownerSigned c.payload (some key)) limits (fun s =>
      { (s.setFlash { s.flash with owner := some key, imageKeys := [], mins := [] }) with fuses := { s.fuses with ownerUsed := s.fuses.ownerUsed + 1 } }))
/-- DEBUG_ENABLE (spec/13 Table 13-7): every partition key is destroyed first, which thaws every partition. -/
def execDebugEnable (s : State) : Host.Outcome State Fault Refusal :=
  match s.takeOp (isPriv 2) with
  | none => .next s
  | some (c, s1) =>
    let what := leAt (privArg c.payload) 0 4
    let limits := if s1.fuses.debugLocked then some (0x0A, 0) else if 4 ≤ what then some (0x06, 4) else none
    .next (s1.runPriv c 2 4 1 true (s1.ownerSigned c.payload none) limits (fun s =>
      let s2 := s.each (List.range 8) (fun s p => if (s.part p).st = .free || (s.part p).st = .thawing then s else s.beginThaw p)
      s2.setSec { s2.sec with debugOn := true, debugWhat := s2.sec.debugWhat ||| BitVec.ofNat 2 what }))
/-- DEBUG_LOCK (spec/13 Table 13-7). -/
def execDebugLock (s : State) : Host.Outcome State Fault Refusal :=
  match s.takeOp (isPriv 3) with
  | none => .next s
  | some (c, s1) =>
    let limits := if s1.fuses.debugLocked then some (0x0A, 0) else none
    .next (s1.runPriv c 3 0 1 true (s1.ownerSigned c.payload none) limits (fun s => { s with fuses := { s.fuses with debugLocked := true } }))
/-- KEY_REVOKE (spec/13 Table 13-7). -/
def execKeyRevoke (s : State) : Host.Outcome State Fault Refusal :=
  match s.takeOp (isPriv 4) with
  | none => .next s
  | some (c, s1) =>
    let a := leAt (privArg c.payload) 0 4
    let kind := a % 256
    let slot := a / 256
    let limits :=
      if kind = 1 then (if slot < 8 then none else some (0x06, 4))
      else if kind = 2 then
        (if 4 ≤ slot || !s1.fuses.fwKeyValid.getLsbD slot then some (0x06, 4) else if ones 4 s1.fuses.fwKeyValid.toNat ≤ 1 then some (0x0A, 0) else none)
      else some (0x06, 4)
    .next (s1.runPriv c 4 4 1 true (s1.ownerSigned c.payload none) limits (fun s =>
      if kind = 1 then s.setFlash { s.flash with imageKeys := s.flash.imageKeys.del slot }
      else { s with fuses := { s.fuses with fwKeyValid := setBit s.fuses.fwKeyValid slot false } }))
/-- MFG_MODE (spec/13 Table 13-7): the owner's block first, then the manufacturing key's. -/
def execMfgMode (s : State) : Host.Outcome State Fault Refusal :=
  match s.takeOp (isPriv 5) with
  | none => .next s
  | some (c, s1) =>
    let l := c.payload
    let signed := s1.ownerSigned l none && blockKind (privBlock l 1) == 4 && blockSigns (privBlock l 1) (privMsg l) s1.fuses.mfgKey
    let limits := if s1.allFree then none else some (0x0B, 0)
    .next (s1.runPriv c 5 0 2 true signed limits (fun s => s.setSec { s.sec with mfg := true }))
/-- IMAGE_KEY_ENROLL (spec/13 Table 13-7). -/
def execImageKeyEnroll (s : State) : Host.Outcome State Fault Refusal :=
  match s.takeOp (isPriv 6) with
  | none => .next s
  | some (c, s1) =>
    let slot := leAt (privArg c.payload) 0 4
    let key := (privArg c.payload).drop 4
    let limits := if slot < 8 && keyOk key then none else some (0x06, 4)
    .next (s1.runPriv c 6 140 1 false (s1.ownerSigned c.payload none) limits (fun s => s.setFlash { s.flash with imageKeys := s.flash.imageKeys.put slot key }))
/-- IMAGE_MIN_VERSION (spec/13 Table 13-7): a lower value than the current minimum is refused. -/
def execImageMinVersion (s : State) : Host.Outcome State Fault Refusal :=
  match s.takeOp (isPriv 7) with
  | none => .next s
  | some (c, s1) =>
    let slot := leAt (privArg c.payload) 0 4
    let v := leAt (privArg c.payload) 4 4
    let limits := if slot < 8 && (Tbl.get 0 s1.flash.mins slot).toNat ≤ v then none else some (0x06, 4)
    .next (s1.runPriv c 7 8 1 false (s1.ownerSigned c.payload none) limits (fun s => s.setFlash { s.flash with mins := s.flash.mins.put slot (BitVec.ofNat 32 v) }))

end Sys2Proof.Machine
end

