-- ==== Sys2Proof/Machine/Clock.lean ====
section
/-! DEFINITION. The passing of time on an empty queue (spec/15 R510, R516). -/

namespace Sys2Proof.Machine

/-- The correction of one nanosecond of slewing: at most 100 ppm, a tenth of a ps (spec/15 R516). -/
def slewStep (slew : Int) : Int := if 0 < slew then 1 else if slew < 0 then -1 else 0

/-- One nanosecond of the time base: SYSTIME advances by 1, faster or slower by at most 100 ppm while an offset is slewed (spec/15 R510, R516). -/
def TimeSt.tick (t : TimeSt) : TimeSt :=
  let d := slewStep t.slew
  let u := ((t.frac : Int) + 10000 + d).toNat
  { t with systime := t.systime + BitVec.ofNat 64 (u / 10000), frac := u % 10000, slew := t.slew - d }

/-- Time passes on an empty queue: what has come due while the device is ready happens, a live update goes on to its next block, and SYSTIME advances by 1; it stands still once the thermal trip has stopped every clock (spec/14 R477, R478, spec/15 R510, R525; notes/assumptions/10.md). -/
def idle (s : State) : State :=
  match s.rst.phase with
  | .tripped => s
  | .ready => let t := s.duties.liveStep; { t with time := t.time.tick }
  | .cold | .warm | .halted => { s with time := s.time.tick }

end Sys2Proof.Machine
end

