-- ==== Sys2Proof/Machine/Pins.lean ====
section
/-! DEFINITION. The UCIe modules' links, the I3C targets and the JTAG port (spec/12 R402 to R409, spec/17 R554 to R558). -/

namespace Sys2Proof.Machine

/-! ## UCIe links (spec/12 R403, R409, R413, R442) -/

/-- After link-up every expected sequence and every event sequence is 0. -/
def State.freshLink (s : State) : State := s.each (List.range 8) (fun s e => s.setEp e { s.ep e with expSeq := [], evSeq := 0 })
/-- UCIE_LINK_UP: a module trains at the rate UCIE_CFG names, possibly degraded to half its width; none before step 5 of a cold reset in RECOVERY (spec/15 R501). -/
def execUcieLinkUp (module : Nat) (half : Bool) (s : State) : Host.Outcome State Fault Refusal :=
  if (s.mod module).up || 4 ≤ module || !s.linksStart then .next s
  else
    let s1 := if s.linkUp then s else s.freshLink
    let x := s1.mod module
    let s2 := s1.setMod module { x with up := true, speed := if x.rate then 1 else 2, half := half }
    .next (if half then s2.raise (modPage module).1 (modPage module).2 1 else s2).frameAll
/-- Every module goes down: commands without a response are lost, with the bytes on their way (spec/12 Table 12-3, notes/assumptions/45.md). -/
def State.linkDown (s : State) : State :=
  let s1 := s.each (List.range 4) (fun s m => s.setMod m { s.mod m with up := false, speed := 0, half := false })
  let s2 := s1.each (List.range 8) (fun s e => s.setEp e { s.ep e with tx := [], stalled := [], transit := [], heldRx := [] })
  { s2 with cmdq := s2.cmdq.filter (fun c => c.src == 8) }
/-- UCIE_LINK_DOWN. -/
def execUcieLinkDown (s : State) : Host.Outcome State Fault Refusal :=
  if s.linkUp then .next (s.linkDown.each (List.range 8) (fun s e => s.linkReset e)) else .next s
/-- UCIE_LANE_REPAIR: a redundant lane takes over, or the module degrades to half its width; the flits that the adapter has retried since it was last told are counted (spec/12 R403, R445; the row carries their number, DESIGN CHOICE, notes/assumptions/13.md). -/
def execUcieLaneRepair (module : Nat) (spareLane : Bool) (retries : Nat) (s : State) : Host.Outcome State Fault Refusal :=
  let x := { s.mod module with retry := (s.mod module).retry + BitVec.ofNat 64 retries }
  if !x.up then .next s
  else if spareLane then .next ((s.setMod module { x with repaired := satInc x.repaired }).rasReport 0)
  else .next ((s.setMod module { x with half := true }).raise (modPage module).1 (modPage module).2 1)

/-! ## I3C (spec/17 R554 to R556, spec/15 R505) -/

/-- The 8 bytes of boot status (spec/17 Table 17-5). -/
def State.bootStatus (s : State) : List Byte :=
  [s.rst.step, s.rst.fail] ++ leBytes 1 (s.straps.boot.toNat + 4 * b2n s.straps.lead + 8 * s.straps.expr.toNat) ++ zeros 1 ++ leBytes 4 s.rst.stepTime.toNat
/-- I3C_BOOT_READ: the boot target acknowledges from step 2 of a cold reset on. -/
def execI3cBootRead (s : State) : Host.Outcome State Fault Refusal :=
  match s.rst.phase with
  | .tripped => .next s
  | .cold | .ready | .warm | .halted => .next { s with i3c := { s.i3c with lastRead := s.bootStatus } }
/-- A command packet over I3C is checked: one outstanding, CRC, sequence (spec/17 R556, spec/12 R412, R413, R416). -/
def State.i3cArrive (s : State) (l : List Byte) : State :=
  let c := readCmd 8 l
  let refuse := fun (s : State) st det => let t := s.respond c st det 0 0 []; { t with i3c := { t.i3c with outstanding := s.i3c.outstanding } }
  if s.i3c.outstanding then refuse s 0x07 0
  else if l.length ≠ 32 + 4 * beAt l 2 2 || !crcOk l then refuse s 0x04 0
  else if c.seq ≠ s.i3c.expSeq then refuse s 0x06 1
  else
    let s1 := { s with i3c := { s.i3c with expSeq := c.seq + 1 } }
    if !opcodes.contains c.opcode then refuse s1 0x05 0
    else if c.part ≠ 15 then refuse s1 0x06 2
    else if 1024 < beAt l 2 2 then refuse s1 0x06 4
    else { s1 with cmdq := s1.cmdq ++ [c], i3c := { s1.i3c with outstanding := true } }
/-- I3C_COMMAND: the management target acknowledges while the security controller runs. -/
def execI3cCommand (bytes : List Byte) (s : State) : Host.Outcome State Fault Refusal :=
  if s.secRuns && 32 ≤ bytes.length then .next (s.i3cArrive bytes) else .next s
/-- I3C_RESPONSE_READ: the response is taken and the in-band interrupt ends. -/
def execI3cResponseRead (s : State) : Host.Outcome State Fault Refusal :=
  match s.i3c.response with
  | some b => if s.secRuns then .next { s with i3c := { s.i3c with lastRead := b, response := none, ibi := false } } else .next s
  | none => .next s
/-- The provisioned ID of the management target: built from the low 48 bits of the serial number (spec/17 R554). -/
def State.provisionedId (s : State) : BitVec 48 := s.fuses.serial.setWidth 48
/-- I3C_DYNAMIC_ADDRESS: SETDASA or ENTDAA gives the management target its address. -/
def execI3cDynamicAddress (addr : BitVec 7) (s : State) : Host.Outcome State Fault Refusal :=
  if s.secRuns then .next { s with i3c := { s.i3c with dyn := some addr } } else .next s

/-! ## JTAG (spec/17 R558, spec/12 R395) -/

/-- Some partition is RUNNING or PAUSED. -/
def State.anyRuns (s : State) : Bool := (List.range 8).any (fun p => (s.part p).st == .running || (s.part p).st == .paused)
/-- JTAG_BOUNDARY_SCAN: ignored while a partition is RUNNING or PAUSED. -/
def execJtagBoundaryScan (instruction : Nat) (s : State) : Host.Outcome State Fault Refusal :=
  if s.anyRuns then .next s else .next { s with jtag := some instruction }
/-- TRST_N low resets the TAP only. -/
def execTrstN (s : State) : Host.Outcome State Fault Refusal := .next { s with jtag := none }
/-- JTAG_DEBUG_ACCESS to the processor die (target 0) or a compute die (1 and 2, die 0 and die 1): closed until DEBUG_ENABLE has opened it, and then ignored; what an open access does the spec does not say (spec/17 R558, spec/13 R467). -/
def execJtagDebugAccess (target : Nat) (s : State) : Host.Outcome State Fault Refusal :=
  if s.sec.debugOn && s.sec.debugWhat.getLsbD (if target = 0 then 0 else 1) then .refused .debugUnit else .next s

end Sys2Proof.Machine
end

