-- ==== Sys2Proof/Machine/Reset.lean ====
section
/-! DEFINITION. Resets: cold, warm, partition and block, their sources and their sequences, and what survives each (spec/15 R496 to R509, spec/12 R438, spec/14 R475, R481, R487). -/

namespace Sys2Proof.Machine

/-! ## Cold reset (spec/15 R496 to R501) -/

/-- RST_CAUSE bits (spec/15 Table 15-11). -/
def causePor : BitVec 7 := 1
def causePin : BitVec 7 := 2
def causeTrip : BitVec 7 := 4
def causeFatal : BitVec 7 := 8
def causeWarmPin : BitVec 7 := 16
def causeWatchdog : BitVec 7 := 32
def causeHost : BitVec 7 := 64

/-- The floe that the records applied so far place on a site. -/
def State.applyRecord (s : State) (e : Nat × Nat) : State :=
  let s1 := s.setRas { s.ras with failed := s.ras.failed ++ [e.1] }
  if e.2 = 0xFF then s1
  else match s.floeAt e.1 with
    | some f => s1.setRas { s1.ras with moved := s1.ras.moved.put f e.2 }
    | none => s1
/-- The remap tables from the fused records and the volatile entries (spec/14 R480, R481 steps 1 and 2). -/
def State.remap (s : State) : State := s.each (s.fuses.rec0 ++ s.fuses.rec1 ++ s.flash.remap) (fun s e => s.applyRecord e)
/-- The add units that are fit for service: the spare comes in for a retired one (spec/10 R337, spec/14 R485). -/
def addFit (retired : BitVec 7) : BitVec 7 :=
  let five := 0b0111111#7 &&& ~~~ retired
  if five = 0b0111111#7 then five else five ||| (0b1000000#7 &&& ~~~ retired)
/-- A chiplet's lasers, feeds, references and slot faults as the service record has them; for a wavelength whose laser has failed a spare is tuned again (spec/11 R378, R379, R384). -/
def State.recordedChip (s : State) (c : Nat) : Chip :=
  let x : Chip := { slotFault := Tbl.get 0 s.flash.slotFaults c, rxFault := Tbl.get 0 s.flash.rxFaults c, shuttle := (s.chip c).shuttle, dump := !(s.chip c).shuttle }
  match Tbl.find s.flash.lasers c with
  | none => x
  | some r =>
    let y := { x with laserState := r.states, wlLaser := r.feeds, laserRef := r.refs, wlState := (r.feeds.filter (fun e => 12 ≤ e.2)).map (fun e => (e.1, 5)) }
    ((List.range 8).filter (fun w => y.feeds w < 12 && y.laser (y.feeds w) == 5)).foldl (fun y w => y.tune w) y
/-- An OED port after a cold reset: it runs degraded where a laser of its is retired (spec/11 R380). -/
def State.recordedOed (s : State) (n : Nat) : OedPort :=
  { degraded := (s.recordedChip 3).wl (2 * n) == 5 || (s.recordedChip 3).wl (2 * n + 1) == 5 }

/-- What a cold reset leaves of the device, at step 3 of its sequence: every register at its reset value; fuses, flash and the service record's contents stay, as do what the world has observed and the model's own counters (spec/15 R498, R499). -/
def State.coldClear (s : State) (straps : Straps) : State :=
  let r : State := { State.reset with
    variant := s.variant, straps := straps, fuses := s.fuses, flash := s.flash, fresh := s.fresh, pending := s.pending, msis := s.msis
    sec := { claims := s.sec.claims, scrub := s.sec.scrub, sealBit := s.sec.sealBit }
    router := { sent := s.router.sent, addIn := addFit s.flash.addRetired }
    oed := { sent := s.oed.sent }
    power := { cap := BitVec.ofNat 16 s.variant.maxWatts }
    ras := { phases := s.ras.phases }
    nm := { base := s.fuses.ifsOut, retired := s.fuses.ifsOut } }
  (((r.each (List.range 4) (fun t c => t.setChip c (s.recordedChip c))).each (List.range 4) (fun t n => t.setOedPort n (s.recordedOed n))).each s.flash.retiredIfs (fun t i => t.reapplyRetired i)).remap
/-- A cold reset begins (spec/15 R497, R499, R501, R525): its sources are recorded; with the trip latched it stays at step 1; a fuse-shadow error stops it at step 2, BOOT_MODE 0b11 after step 2; else it has reached step 3. After a FATAL error PRIOR_FATAL sets. -/
def State.coldReset (s : State) (cause : BitVec 7) (straps : Straps) (trip : Bool) : State :=
  let all := match s.rst.phase with
    | .cold | .halted | .tripped => s.rst.cause ||| cause
    | .ready | .warm => cause
  let s1 := s.coldClear straps
  let fatal := all &&& 0b0001100#7 != 0
  let base : Rst := { cause := all, trip := trip, fatalDue := fatal && s1.flash.fatal.isSome }
  if trip then s1.setRst { base with phase := .tripped, step := 1, fail := 0 }
  else if straps.fuseBad then s1.setRst { base with phase := .halted, step := 1, fail := 1 }
  else if straps.boot = 3 then s1.setRst { base with phase := .halted, step := 2, fail := 2 }
  else
    let s2 := s1.setRst { base with phase := .cold, step := 3, fail := if s1.locValid then 0 else 6 }
    if fatal then s2.raise s2.lead 0xC1 0 else s2

/-- POR (spec/15 R496, R520, R525): the latch of THERM_TRIP_N survives it while VIO18 stays. -/
def execPor (straps : Straps) (vio18 : Bool) (s : State) : Host.Outcome State Fault Refusal := .next (s.coldReset causePor straps (s.rst.trip && vio18))
/-- RESET_N (spec/15 R496, R525): it clears the latch of THERM_TRIP_N. -/
def execResetN (straps : Straps) (s : State) : Host.Outcome State Fault Refusal := .next (s.coldReset causePin straps false)
/-- A FATAL error: its cause goes into the service record, and a cold reset begins, which samples the straps as every one does (spec/14 R487, spec/15 Table 15-4 step 2, spec/17 R551). -/
def State.fatalReset (s : State) (die page bit : Nat) (straps : Straps) : State :=
  (s.setFlash { s.flash with fatal := some (die, page, bit) }).coldReset causeFatal straps false
/-- FATAL (spec/14 R487): no error is found once the clocks have stopped. -/
def execFatal (die page bit : Nat) (straps : Straps) (s : State) : Host.Outcome State Fault Refusal :=
  match s.rst.phase with
  | .halted | .tripped => .next s
  | .cold | .ready | .warm => .next (s.fatalReset die page bit straps)
/-- REGULATOR_PHASE_LOSS (spec/14 R475, Table 14-3): the spare phase is used, a DEVICE error; a second loss on the rail is FATAL. It names the RST page (notes/assumptions/44.md). -/
def execRegulatorPhaseLoss (rail : Nat) (straps : Straps) (s : State) : Host.Outcome State Fault Refusal :=
  match s.rst.phase with
  | .tripped => .next s
  | .cold | .ready | .warm | .halted =>
    if s.ras.phases.contains rail then .next (s.fatalReset s.lead 0xC1 32 straps)
    else .next ((s.setRas { s.ras with phases := rail :: s.ras.phases }).rasReport 3)

/-- A package in a slot verifies and passes the anti-rollback check (spec/15 R501). -/
def State.slotOk (s : State) (comp : Nat) (x : Slot) : Bool := x.whole && (s.fwCheck comp x).isNone
/-- The package a component has booted from verifies (spec/12 R399, spec/15 R499 step 4). -/
def State.bootOk (s : State) (comp : Nat) : Bool := (s.comp comp).active.factory || s.slotOk comp (s.comp comp).active
/-- FALLBACK: a component boots from its other slot when that holds a fit package (spec/15 R501). -/
def State.fallback (s : State) (comp : Nat) : State :=
  let x := s.comp comp
  let y := x.staged
  if s.slotOk comp y then
    let z : Slot := if y.factory then y else { y with version := BitVec.ofNat 32 (leAt y.bytes 8 4), secver := leAt y.bytes 12 4,
                                                       body := sliceB y.bytes 64 (leAt y.bytes 16 4), used := true }
    s.setComp comp (if x.activeB then { x with activeB := false, a := z } else { x with activeB := true, b := z })
  else s
/-- The boot status' step changes (spec/17 Table 17-5). -/
def State.atStep (s : State) (n : Nat) : State := s.setRst { s.rst with step := BitVec.ofNat 8 n, stepTime := s.now.setWidth 32 }
/-- Built-in self-test found a site bad: it is listed; a floe mapped to it is calved to the lowest working spare, or its group is lost (spec/14 R481 step 3, R483). -/
def State.selfTestFail (s : State) (site : Nat) : State :=
  let spare := (s.spares (site / 112)).filter (fun d => d != site)
  match s.floeAt site with
  | none => s.failSpare site
  | some f =>
    match spare with
    | d :: _ => (s.setRas { s.ras with moved := s.ras.moved.put f d }).writeRecord site d
    | [] => (if s.ras.failed.contains site then s else s.writeRecord site 0xFF).loseGroup (f / 8)
/-- Steps 5 to 10 of a cold reset: optics and memory come up, CXL windows are placed, the processor die starts, self-test has run, the device answers CLAIM (spec/15 Table 15-4). -/
def State.coldSteps (s : State) (bad : List Nat) (cxl : List CxlDev) : State :=
  let s1 := (s.each (s.ras.failed.filter (fun x => (s.floeAt x).isSome) ++ bad) (fun s site => s.selfTestFail site)).each (cxl.filter (fun d => decide (d.port < 2))) (fun s d => s.addCxl d)
  let s2 := s1.each [0, 1] (fun s k => s.setPerst k false)
  let ok := s2.bootOk 2
  let s3 := { s2 with proc := { sram := if ok then s2.fwBody 2 else [], released := ok } }
  let s4 := (s3.setRas { s3.ras with ctrlUp := true }).setSec { s3.sec with bridgeKey := true, scrub := s3.sec.scrub + 1 }
  let s5 := (s4.each (List.range 4) (fun s c => s.relane c)).atStep 10
  let s6 := s5.setRst { s5.rst with phase := .ready, readyTime := s5.now, kicked := s5.now, fail := if ok then (if s5.locValid then 0 else 6) else 5 }
  if s6.locValid then s6 else s6.raiseRouter 3
/-- COLD_RESET_READY (spec/15 R499, R501, spec/17 R557): a boot flash that does not answer, and SECURITY firmware that fails verification, stop the sequence at step 4; in RECOVERY it waits after step 4 for a SECURITY and a PLATFORM package. -/
def execColdResetReady (failedSites : List Nat) (cxl : List CxlDev) (flashOk : Bool) (s : State) : Host.Outcome State Fault Refusal :=
  match s.rst.phase with
  | .ready | .warm | .halted | .tripped => .next s
  | .cold =>
    if !flashOk && s.rst.step = 3 then .next (s.setRst { s.rst with phase := .halted, fail := 3 })
    else
    let s1 := if s.straps.boot = 1 && s.rst.step = 3 then s.each [1, 2, 3, 4, 5, 6] (fun s c => s.fallback c) else s
    if !s1.bootOk 1 then .next (s1.setRst { s1.rst with phase := .halted, fail := 4 })
    else if s1.recovering then
      let s2 := if s1.rst.step = 4 then s1 else s1.atStep 4
      .next (s2.setRst { s2.rst with fail := 7 })
    else .next (s1.coldSteps failedSites cxl)

/-! ## Warm reset (spec/15 R502 to R506) -/

/-- The pages whose headers a warm reset returns to reset: floes, controllers, CXL ports, UCIe modules, the security controller (spec/16 R535, spec/15 Table 15-3). -/
def warmPages : List (Nat × Nat) := [0, 1].flatMap (fun d => (pageList.filter (fun p => [2, 3, 4, 5, 13].contains (pageType p))).map (fun p => (d, p)))
/-- The units that partitions hold, as device addresses. -/
def State.heldBases (s : State) : List Nat := (List.range 8).flatMap (fun p => if (s.part p).held then (s.part p).unitBases else [])
/-- Steps 1 to 3 of a warm reset (spec/15 Table 15-5, R503, R504). -/
def State.warmSteps (s : State) : State :=
  let units := s.heldBases
  let who := (List.range 8).filter (fun p => (s.part p).held)
  let s1 := s.linkDown.each who (fun s p => (s.abandonOpen p).destroyKeys p)
  let s2 := if s1.steer.isSome then ({ s1 with steer := none }).planRelease else s1
  let s3 := s2.newScrub
  let lo := spAddr 0 0
  let s4 := { s3 with floes := [], parts := [], signals := [], cmdq := [], ucie := [], i3c := { lastRead := s3.i3c.lastRead }
                      mem := dropBytes s3.mem lo (208 * spStride), spBad := [] }
  let s5 := s4.each warmPages (fun s g => s.resetPage g.1 g.2)
  let s6 := s5.setSec { s5.sec with intact := false, sealSince := none
                                    fwAct := s5.sec.fwAct.map (fun a => { a with todo := [], released := [] }) }
  let s7 := (s6.setRas { s6.ras with calve := none, heldAlert := s.alertLow, heldErr := s.errLow }).each [0, 1] (fun s k => s.setPerst k true)
  s7.setRst { s7.rst with heldUnits := units, devPending := false }
/-- A warm source is recognised (spec/15 R497): ignored before the device is ready, joining a warm reset in progress, else starting one. -/
def State.warmReset (s : State) (cause : BitVec 7) : State :=
  match s.rst.phase with
  | .cold | .halted | .tripped => s
  | .warm => s.setRst { s.rst with cause := s.rst.cause ||| cause }
  | .ready =>
    let s1 := s.warmSteps.atStep 0x83
    s1.setRst { s1.rst with phase := .warm, cause := cause, warms := bump s1.rst.warms }
/-- WARM_RESET_N (spec/15 R496). -/
def execWarmResetN (s : State) : Host.Outcome State Fault Refusal := .next (s.warmReset causeWarmPin)
/-- WATCHDOG (spec/15 R506): a disabled watchdog never expires. -/
def execWatchdog (s : State) : Host.Outcome State Fault Refusal :=
  if s.rst.wdt = 0 || s.rst.phase = .cold || s.rst.phase = .halted || s.rst.phase = .tripped then .next s
  else .next ((s.warmReset causeWatchdog).raise s.lead 0xC1 1)
/-- WARM_RESET_START (spec/12 R438): 10 microseconds after RESET DEVICE. -/
def execWarmResetStart (s : State) : Host.Outcome State Fault Refusal :=
  if s.rst.devPending then .next ((s.setRst { s.rst with devPending := false }).warmReset causeHost) else .next s
/-- The RESET_DONE event (spec/12 Table 12-13). -/
def State.resetDone (s : State) (scope block : Nat) : State := s.eventMgmt 0x51 0xFF (leBytes 1 scope ++ zeros 3 ++ leBytes 4 block)
/-- WARM_RESET_READY (spec/15 Table 15-5 steps 4 to 9): held units are thawed, LINK_RESET sets on every endpoint, the watchdog period restarts. -/
def execWarmResetReady (s : State) : Host.Outcome State Fault Refusal :=
  match s.rst.phase with
  | .cold | .ready | .halted | .tripped => .next s
  | .warm =>
    let s1 := s.each s.rst.heldUnits (fun s a => s.scrubUnit a)
    let s2 := ((s1.each (List.range 12) (fun s d => s.setNmc d { s.nmc d with rateNow := (s.nmc d).rate })).each [0, 1] (fun s k => (s.setPerst k false).retrainCxl k)).unmapLost
    let s3 := (s2.setSec { s2.sec with bridgeKey := true }).newEpoch.atStep 10
    let s4 := s3.setRst { s3.rst with phase := .ready, readyTime := s3.now, kicked := s3.now, heldUnits := [] }
    .next ((s4.each (List.range 8) (fun s e => s.linkReset e)).resetDone 2 0).attestReady

/-! ## Partition, block and device reset by command (spec/12 R438, spec/15 R507 to R509) -/

/-- A RESET command of a scope. -/
def isReset (scope : Nat) (c : GwyPkt) : Bool := c.opcode == 0x50 && bitsOf c.arg0.toNat 0 2 == scope
/-- RESET_PARTITION (spec/12 R438, R439, spec/13 R457): waits for a planned calving (spec/14 R484). -/
def execResetPartition (pv : Nat) (s : State) : Host.Outcome State Fault Refusal :=
  if s.calving pv then .next s
  else match s.takeCmd pv (isReset 0) with
  | none => .next s
  | some (c, s1) =>
    match s1.acceptCmd c (c.arg0 == 0 && c.arg1 == 0 && c.payload.isEmpty) true false (fun st => st != .free && st != .thawing) with
    | some t => .next t
    | none =>
      let s2 := ((s1.respond c 0 0 0 0 []).abandonOpen pv).resetPart pv
      .next ((s2.setPart pv { s2.part pv with st := .claimed }).newEpoch).attestReady
/-- RESET_BLOCK (spec/12 R438, spec/15 R497, R507, R509): the reset begins, and the answer waits for its end. -/
def execResetBlock (s : State) : Host.Outcome State Fault Refusal :=
  match s.takeOp (isReset 1) with
  | none => .next s
  | some (c, s1) =>
    let a := c.arg1.toNat
    let die := a / 0x4000000
    let page := a % 0x4000000 / 0x1000
    match s1.acceptCmd c (c.arg0.toNat < 8 && c.payload.isEmpty) false true (fun _ => true) with
    | some t => .next t
    | none =>
      if a % 0x1000 ≠ 0 || 2 ≤ die || !s1.resetOk die page then .next (s1.respond c 0x06 4 0 0 [])
      else if (s1.hdr die page).resetState ≠ 0 then .next (s1.respond c 0x0B 0 0 0 [])
      else
        let s2 := s1.beginBlock die page (c.arg0.getLsbD 2)
        .next { s2 with cmdq := { c with busy := true } :: s2.cmdq }
/-- RESET_DEVICE (spec/12 R434, R438). -/
def execResetDevice (s : State) : Host.Outcome State Fault Refusal :=
  match s.takeOp (isReset 2) with
  | none => .next s
  | some (c, s1) =>
    match s1.acceptCmd c (c.arg0 == 2 && c.arg1 == 0 && c.payload.isEmpty) false true (fun _ => true) with
    | some t => .next t
    | none =>
      if s1.sec.fwAct.isSome || s1.rst.devPending then .next (s1.respond c 0x0B 0 0 0 [])
      else .next ((s1.setRst { s1.rst with devPending := true }).respond c 0 0 0 0 [])
/-- BLOCK_RESET_ESCALATION (spec/15 R507, R508): a CONTAINED error, with its BLOCK_ERROR. -/
def execBlockResetEscalation (die page : Nat) (s : State) : Host.Outcome State Fault Refusal :=
  let h := s.hdr die page
  if h.resetState = 1 then
    let s1 := s.isolateBlock die page
    .next (((s1.setHdr die page { s1.hdr die page with resetState := 2, escalated := true }).rasReport 1).blockError die page)
  else .next s
/-- What the reset of a block does beyond its header (spec/15 Table 15-7). -/
def State.resetBlockBody (s : State) (die page : Nat) : State :=
  match pageType page with
  | 2 =>
    let site := die * 112 + (page - 1)
    match s.floeAt site with
    | some f => (s.abandonFloe f).resetFloe f
    | none => s.setFloe (s.siteKey site) {}
  | 3 => let d := pageInstance die page; s.setNmc d { s.nmc d with rateNow := (s.nmc d).rate }
  | 4 => (s.setPerst die false).retrainCxl die
  | 5 => let m := pageInstance die page; if (s.mod m).up then s.setMod m { s.mod m with speed := if (s.mod m).rate then 1 else 2 } else s
  | _ => s
/-- The RESET command that a block reset answers. -/
def blockCmd (die page : Nat) (c : GwyPkt) : Bool := c.busy && c.opcode == 0x50 && c.arg1.toNat == blockAddr die page
/-- BLOCK_RESET_COMPLETE (spec/15 R508, R509, spec/16 R534 to R537, spec/13 R457): the header is reset but for its record of resets, the command is answered, RESET_DONE is sent and held requests go on. -/
def execBlockResetComplete (die page : Nat) (s : State) : Host.Outcome State Fault Refusal :=
  let h := s.hdr die page
  if h.resetState = 0 then .next s
  else
    let s1 := (s.resetBlockBody die page).resetPage die page
    let s2 := s1.setHdr die page { (s1.hdr die page) with escalated := h.escalated, resets := satInc h.resets }
    let hit := s2.cmdq.find? (blockCmd die page)
    let s3 := { s2 with cmdq := s2.cmdq.filter (fun c => !blockCmd die page c) }
    let s4 := match hit with
      | some c => if h.escalated then s3.respond c 0x0E 2 0 0 [] else s3.respond c 0 0 0 0 []
      | none => s3
    .next (((s4.resetDone 1 (blockAddr die page)).newEpoch).attestReady).frameAll

end Sys2Proof.Machine
end

