-- ==== Sys2Proof/Machine/Thermal.lean ====
section
/-! DEFINITION. Heat and power: sensor samples, throttling, the trip, the power cap and the DVFS levels (spec/15 R511 to R513, R521 to R525, spec/14 R475). -/

namespace Sys2Proof.Machine

/-- The clocks run: sensors, detectors and the power meter work from step 3 of a cold reset on. -/
def State.clocksRun (s : State) : Bool :=
  match s.rst.phase with
  | .cold | .ready | .warm => true
  | .halted | .tripped => false
/-- The slowest DVFS level of the grade (spec/15 Table 15-7b). -/
def State.maxLevel (s : State) : Nat := if s.variant.isM then 4 else 5
/-- The level a die is to take: the more restrictive of spec/15 R521 and R524. -/
def State.retarget (s : State) (die : Nat) : State :=
  s.setTherm die { s.therm die with target := max (s.therm die).hotLevel s.power.level }

/-- The readings in service: sensor and value in 1/16 degrees (spec/15 R522). -/
def inService (ex : DWord) (temps : List Int) : List (Nat × Int) := (numbered 0 (temps.take 64)).filter (fun e => !ex.getLsbD e.1)
/-- The hottest of the readings, the lowest-numbered sensor first. -/
def hottest : List (Nat × Int) → Option (Nat × Int)
  | [] => none
  | e :: r => match hottest r with
    | none => some e
    | some h => if h.2 ≤ e.2 then some e else some h
/-- The THERMAL event (spec/12 Table 12-13). -/
def State.thermalEvent (s : State) (level die sensor : Nat) : State :=
  s.eventMgmt 0x41 die (leBytes 1 level ++ leBytes 1 die ++ leBytes 1 sensor ++ zeros 1)
/-- THERM_TRIP: the pin is latched low, every clock and regulator is off (spec/15 R525). -/
def State.thermTrip (s : State) (die : Nat) : State :=
  (s.setFlash { s.flash with fatal := some (die, 0xB0, 32) }).coldReset causeTrip s.straps true
/-- Warning at 95.0 degrees, armed again below 93.0 (spec/15 R523). -/
def State.warn (s : State) (die sensor : Nat) (t : Int) : State :=
  let x := s.therm die
  if 95 * 16 ≤ t && !x.warned then (s.setTherm die { x with warned := true }).thermalEvent 1 die sensor
  else if t < 93 * 16 then s.setTherm die { x with warned := false } else s
/-- Throttling (spec/15 R524): one level down every 100 microseconds at 100.0 degrees or above, that is on entry and every tenth sample; one level up for every 1 ms of samples at 97.0 or below. -/
def State.throttle (s : State) (die sensor : Nat) (t : Int) : State :=
  let x := s.therm die
  if 100 * 16 ≤ t then
    let y := if x.hotRun % 10 = 0 then { x with hotLevel := min s.maxLevel (x.hotLevel + 1) } else x
    let s1 := s.setTherm die { y with throttling := true, hotRun := x.hotRun + 1, coolRun := 0 }
    if x.throttling then s1 else (s1.thermalEvent 2 die sensor).raise die 0xB0 1
  else if t ≤ 97 * 16 && x.throttling then
    let n := x.coolRun + 1
    let up := if n % 100 = 0 then x.hotLevel - 1 else x.hotLevel
    s.setTherm die { x with hotRun := 0, coolRun := n, hotLevel := up, throttling := up != 0 }
  else s.setTherm die { x with hotRun := 0, coolRun := 0 }
/-- THERM_STATE.LEVEL (spec/15 Table 15-13). -/
def Therm.stage (x : Therm) : BitVec 2 := if x.throttling then 2 else if x.warned then 1 else 0
/-- THERMAL_SAMPLE (spec/15 R522 to R525): the trip needs two consecutive samples at 110.0 degrees, or, at step 3 of a cold reset that a trip began, one at 105.0. -/
def execThermalSample (die : Nat) (temps : List Int) (s : State) : Host.Outcome State Fault Refusal :=
  if !s.clocksRun then .next s
  else
    let x := s.therm die
    let l := inService x.excluded temps
    let hotSet := (l.filter (fun e => 110 * 16 ≤ e.2)).map (fun e => e.1)
    let again := x.first && s.rst.cause &&& causeTrip != 0 && l.any (fun e => 105 * 16 ≤ e.2)
    if hotSet.any (fun k => x.hotSet.contains k) || again then .next (s.thermTrip die)
    else match hottest l with
      | none => .next (s.setTherm die { x with hotSet := hotSet, first := false })
      | some (k, t) =>
        let s1 := s.setTherm die { x with hotSet := hotSet, first := false, hot := ofInt16 t, sensor := BitVec.ofNat 6 k }
        let s2 := (s1.warn die k t).throttle die k t
        .next ((s2.setTherm die { s2.therm die with level := (s2.therm die).stage }).retarget die)

/-- The average of measurements in 0.1 W. -/
def averageNat (l : List Nat) : Nat := l.foldl (fun (a : Nat) b => a + b) 0 / l.length
/-- POWER_SAMPLE (spec/15 R521): above PWR_CAP both dies step down a level; a level up for every 1 ms below 97 % of it. -/
def execPowerSample (deciwatts : Nat) (s : State) : Host.Outcome State Fault Refusal :=
  if !s.clocksRun then .next s
  else
    let p := s.power
    let w := (deciwatts :: p.window).take 10
    let a := averageNat w
    let cap := 10 * p.cap.toNat
    let n := if 100 * a < 97 * cap then p.lowRun + 1 else 0
    let q : Power :=
      if cap < a then { p with level := min s.maxLevel (p.level + 1), lowRun := 0 }
      else { p with level := if n != 0 && n % 10 = 0 then p.level - 1 else p.level, lowRun := n }
    let s1 := { s with power := { q with now := BitVec.ofNat 32 a, window := w } }
    .next ((s1.retarget 0).retarget 1)

/-- DVFS_LEVEL_CHANGE (spec/15 R511, R512): the level decided is in force; time below level 0 is counted, and a die below three quarters of its nominal clock makes its open steps send SLOW (spec/10 R346). -/
def execDvfsLevelChange (die : Nat) (s : State) : Host.Outcome State Fault Refusal :=
  if !s.clocksRun then .next s
  else
    let x := s.therm die
    let ns := if x.dvfs = 0 then x.throttleNs else x.throttleNs + (s.now - x.since)
    let was := s.slowed die
    let s1 := s.setTherm die { x with dvfs := x.target, throttleNs := ns, since := s.now }
    .next (if s1.slowed die && !was then s1.slowDie die else s1)
/-- VOLTAGE_DROOP (spec/15 R513). -/
def execVoltageDroop (die : Nat) (s : State) : Host.Outcome State Fault Refusal :=
  if s.clocksRun then .next (s.setTherm die { s.therm die with stretches := bump (s.therm die).stretches }) else .next s
/-- SENSOR_CROSS_CHECK (spec/14 R475): a sensor that disagrees is excluded, a DEVICE error each; an excluded one stays out (notes/assumptions/46.md). -/
def execSensorCrossCheck (die : Nat) (disagree : DWord) (s : State) : Host.Outcome State Fault Refusal :=
  if !s.clocksRun then .next s
  else
    let x := s.therm die
    let fresh := disagree &&& ~~~ x.excluded
    let s1 := s.setTherm die { x with excluded := x.excluded ||| disagree }
    .next (s1.each (List.range 64) (fun s k => if fresh.getLsbD k then s.raise die 0xB0 0 else s))

end Sys2Proof.Machine
end

