-- ==== Sys2Proof/Machine/Dispatch.lean ====
section
/-! DEFINITION. One arm per command: its meaning, or rejected by name while it has none. -/

namespace Sys2Proof.Machine

/-- The effect of a command on everything but the queue (spec/95, the table of operations and events). -/
def exec (i : Instr) (s : State) : Host.Outcome State Fault Refusal :=
  match i with
  | .salu f st => Sys2Proof.Machine.execSalu f st s
  | .sld f st errs => Sys2Proof.Machine.execSld f st errs s
  | .sst f st errs => Sys2Proof.Machine.execSst f st errs s
  | .br f st => Sys2Proof.Machine.execBr f st s
  | .jump f st => Sys2Proof.Machine.execJump f st s
  | .halt f st => Sys2Proof.Machine.execHalt f st s
  | .nop f st => Sys2Proof.Machine.execNop f st s
  | .mma f st arb => Sys2Proof.Machine.execMma f st arb s
  | .mmaT f st arb => Sys2Proof.Machine.execMmaT f st arb s
  | .mmaSp f st arb => Sys2Proof.Machine.execMmaSp f st arb s
  | .xfer f st arb => Sys2Proof.Machine.execXfer f st arb s
  | .vec f st arb => Sys2Proof.Machine.execVec f st arb s
  | .red f st arb => Sys2Proof.Machine.execRed f st arb s
  | .cvtBs16 f st arb => Sys2Proof.Machine.execCvtBs16 f st arb s
  | .stashPush f st arb => Sys2Proof.Machine.execStashPush f st arb s
  | .stashPop f st arb => Sys2Proof.Machine.execStashPop f st arb s
  | .updAdamw f st arb => Sys2Proof.Machine.execUpdAdamw f st arb s
  | .updSgdm f st arb => Sys2Proof.Machine.execUpdSgdm f st arb s
  | .gateTopk f st arb => Sys2Proof.Machine.execGateTopk f st arb s
  | .packAssign f st arb => Sys2Proof.Machine.execPackAssign f st arb s
  | .packGather f st arb => Sys2Proof.Machine.execPackGather f st arb s
  | .packCombine f st arb => Sys2Proof.Machine.execPackCombine f st arb s
  | .collShiftAllgather f st arb => Sys2Proof.Machine.execCollShiftAllgather f st arb s
  | .collShiftRotate f st arb => Sys2Proof.Machine.execCollShiftRotate f st arb s
  | .collReduceScatter f st arb => Sys2Proof.Machine.execCollReduceScatter f st arb s
  | .collAllreduce f st arb => Sys2Proof.Machine.execCollAllreduce f st arb s
  | .collPermute f st arb => Sys2Proof.Machine.execCollPermute f st arb s
  | .collSteer f st arb => Sys2Proof.Machine.execCollSteer f st arb s
  | .collVerdictCommit f st arb => Sys2Proof.Machine.execCollVerdictCommit f st arb s
  | .collVerdictNorm f st arb => Sys2Proof.Machine.execCollVerdictNorm f st arb s
  | .collVerdictBarrier f st arb => Sys2Proof.Machine.execCollVerdictBarrier f st arb s
  | .tagWait f st => Sys2Proof.Machine.execTagWait f st s
  | .tagSignal f st => Sys2Proof.Machine.execTagSignal f st s
  | .tagWaitComplete f st => Sys2Proof.Machine.execTagWaitComplete f st s
  | .remoteSignal src st dst => Sys2Proof.Machine.execRemoteSignal src st dst s
  | .sldReturn f st rd => Sys2Proof.Machine.execSldReturn f st rd s
  | .tileRowDrain f bank parityError => Sys2Proof.Machine.execTileRowDrain f bank parityError s
  | .mmaComplete f bank => Sys2Proof.Machine.execMmaComplete f bank s
  | .vecPassComplete f => Sys2Proof.Machine.execVecPassComplete f s
  | .gatePackComplete f errs => Sys2Proof.Machine.execGatePackComplete f errs s
  | .updComplete f errs => Sys2Proof.Machine.execUpdComplete f errs s
  | .xferComplete f tagDst errs => Sys2Proof.Machine.execXferComplete f tagDst errs s
  | .stashCopyComplete f pop errs => Sys2Proof.Machine.execStashCopyComplete f pop errs s
  | .haltComplete f st => Sys2Proof.Machine.execHaltComplete f st s
  | .streamStall f st => Sys2Proof.Machine.execStreamStall f st s
  | .collStepComplete p tag => Sys2Proof.Machine.execCollStepComplete p tag s
  | .verdictContribution p tag => Sys2Proof.Machine.execVerdictContribution p tag s
  | .verdictComplete p tag => Sys2Proof.Machine.execVerdictComplete p tag s
  | .steerComplete => Sys2Proof.Machine.execSteerComplete s
  | .stepTimeout p tag => Sys2Proof.Machine.execStepTimeout p tag s
  | .slowResend p tag => Sys2Proof.Machine.execSlowResend p tag s
  | .pauseWaitExpiry p => Sys2Proof.Machine.execPauseWaitExpiry p s
  | .meshPacket port bytes => Sys2Proof.Machine.execMeshPacket port bytes s
  | .shift => Sys2Proof.Machine.execShift s
  | .shiftAdd rimeFail => Sys2Proof.Machine.execShiftAdd rimeFail s
  | .permute => Sys2Proof.Machine.execPermute s
  | .verdict => Sys2Proof.Machine.execVerdict s
  | .noticeSlow => Sys2Proof.Machine.execNoticeSlow s
  | .noticeReplay => Sys2Proof.Machine.execNoticeReplay s
  | .noticeFail => Sys2Proof.Machine.execNoticeFail s
  | .noticeMismatch => Sys2Proof.Machine.execNoticeMismatch s
  | .noticeDone => Sys2Proof.Machine.execNoticeDone s
  | .noticeClose => Sys2Proof.Machine.execNoticeClose s
  | .mirror => Sys2Proof.Machine.execMirror s
  | .bulk => Sys2Proof.Machine.execBulk s
  | .mgmt msg => Sys2Proof.Machine.execMgmt msg s
  | .time msg => Sys2Proof.Machine.execTime msg s
  | .hello => Sys2Proof.Machine.execHello s
  | .epoch => Sys2Proof.Machine.execEpoch s
  | .fc port block => Sys2Proof.Machine.execFc port block s
  | .alignmentMarker port marks => Sys2Proof.Machine.execAlignmentMarker port marks s
  | .tail port block tagOk => Sys2Proof.Machine.execTail port block tagOk s
  | .alignmentMarkerSend port slot => Sys2Proof.Machine.execAlignmentMarkerSend port slot s
  | .helloSend port => Sys2Proof.Machine.execHelloSend port s
  | .fcRefresh port => Sys2Proof.Machine.execFcRefresh port s
  | .fcTimeout port => Sys2Proof.Machine.execFcTimeout port s
  | .escapeTimeout port => Sys2Proof.Machine.execEscapeTimeout port s
  | .lifetime => Sys2Proof.Machine.execLifetime s
  | .eject => Sys2Proof.Machine.execEject s
  | .epochSwitch => Sys2Proof.Machine.execEpochSwitch s
  | .epochBankFree => Sys2Proof.Machine.execEpochBankFree s
  | .keyingRetry port => Sys2Proof.Machine.execKeyingRetry port s
  | .laneLock port => Sys2Proof.Machine.execLaneLock port s
  | .portLossOfLock port lost => Sys2Proof.Machine.execPortLossOfLock port lost s
  | .oedFrame port bytes counter tagOk fecCorr fecBad => Sys2Proof.Machine.execOedFrame port bytes counter tagOk fecCorr fecBad s
  | .lldp port bytes => Sys2Proof.Machine.execLldp port bytes s
  | .pfcFrame port pause prios => Sys2Proof.Machine.execPfcFrame port pause prios s
  | .icmpv6 port forUs msg => Sys2Proof.Machine.execIcmpv6 port forUs msg s
  | .laserSample chip laser power => Sys2Proof.Machine.execLaserSample chip laser power s
  | .laserLockLoss chip laser => Sys2Proof.Machine.execLaserLockLoss chip laser s
  | .spareReady chip laser => Sys2Proof.Machine.execSpareReady chip laser s
  | .laserSwapComplete chip => Sys2Proof.Machine.execLaserSwapComplete chip s
  | .ringFault chip slot rx loopFirst => Sys2Proof.Machine.execRingFault chip slot rx loopFirst s
  | .wavelengthRecal chip wl => Sys2Proof.Machine.execWavelengthRecal chip wl s
  | .wavelengthRecalComplete chip stillFaulted stillRx => Sys2Proof.Machine.execWavelengthRecalComplete chip stillFaulted stillRx s
  | .shuttleRemoved k => Sys2Proof.Machine.execShuttleRemoved k s
  | .shuttleSeated k => Sys2Proof.Machine.execShuttleSeated k s
  | .sledFrame => Sys2Proof.Machine.execSledFrame s
  | .oedDrainSafe port => Sys2Proof.Machine.execOedDrainSafe port s
  | .optLaserCmdSwap chip wl => Sys2Proof.Machine.execOptLaserCmdSwap chip wl s
  | .optLaserCmdRecal chip wl => Sys2Proof.Machine.execOptLaserCmdRecal chip wl s
  | .optServiceDrain chip mask => Sys2Proof.Machine.execOptServiceDrain chip mask s
  | .oedPortCfg port mode => Sys2Proof.Machine.execOedPortCfg port mode s
  | .nmmapRetire iface => Sys2Proof.Machine.execNmmapRetire iface s
  | .rasCalveGo site => Sys2Proof.Machine.execRasCalveGo site s
  | .resetCtrlGo die page => Sys2Proof.Machine.execResetCtrlGo die page s
  | .ctrlHold die page value => Sys2Proof.Machine.execCtrlHold die page value s
  | .ctrlFreeze die page value => Sys2Proof.Machine.execCtrlFreeze die page value s
  | .rstWdtKick => Sys2Proof.Machine.execRstWdtKick s
  | .timeSet value => Sys2Proof.Machine.execTimeSet value s
  | .routerBank bank value => Sys2Proof.Machine.execRouterBank bank value s
  | .pwrCap watts => Sys2Proof.Machine.execPwrCap watts s
  | .registerWrite addr value hwSet => Sys2Proof.Machine.execRegisterWrite addr value hwSet s
  | .gwyTxStore ep offset bytes route => Sys2Proof.Machine.execGwyTxStore ep offset bytes route s
  | .gwyRxLoad ep => Sys2Proof.Machine.execGwyRxLoad ep s
  | .resync ep => Sys2Proof.Machine.execResync ep s
  | .claim pv => Sys2Proof.Machine.execClaim pv s
  | .release pv => Sys2Proof.Machine.execRelease pv s
  | .loadBegin pv => Sys2Proof.Machine.execLoadBegin pv s
  | .loadChunk pv => Sys2Proof.Machine.execLoadChunk pv s
  | .loadEnd pv => Sys2Proof.Machine.execLoadEnd pv s
  | .start pv => Sys2Proof.Machine.execStart pv s
  | .pause pv => Sys2Proof.Machine.execPause pv s
  | .resume pv => Sys2Proof.Machine.execResume pv s
  | .abort pv => Sys2Proof.Machine.execAbort pv s
  | .memWrite pv errs => Sys2Proof.Machine.execMemWrite pv errs s
  | .memRead pv errs => Sys2Proof.Machine.execMemRead pv errs s
  | .csrWrite pv => Sys2Proof.Machine.execCsrWrite pv s
  | .csrRead pv => Sys2Proof.Machine.execCsrRead pv s
  | .attest pv => Sys2Proof.Machine.execAttest pv s
  | .certGet => Sys2Proof.Machine.execCertGet s
  | .fwStage => Sys2Proof.Machine.execFwStage s
  | .fwActivate => Sys2Proof.Machine.execFwActivate s
  | .fwStatus => Sys2Proof.Machine.execFwStatus s
  | .telem pv => Sys2Proof.Machine.execTelem pv s
  | .snapshot pv => Sys2Proof.Machine.execSnapshot pv s
  | .resetPartition pv => Sys2Proof.Machine.execResetPartition pv s
  | .resetBlock => Sys2Proof.Machine.execResetBlock s
  | .resetDevice => Sys2Proof.Machine.execResetDevice s
  | .ownerChange => Sys2Proof.Machine.execOwnerChange s
  | .debugEnable => Sys2Proof.Machine.execDebugEnable s
  | .debugLock => Sys2Proof.Machine.execDebugLock s
  | .keyRevoke => Sys2Proof.Machine.execKeyRevoke s
  | .mfgMode => Sys2Proof.Machine.execMfgMode s
  | .imageKeyEnroll => Sys2Proof.Machine.execImageKeyEnroll s
  | .imageMinVersion => Sys2Proof.Machine.execImageMinVersion s
  | .thawDone p => Sys2Proof.Machine.execThawDone p s
  | .fwActivated => Sys2Proof.Machine.execFwActivated s
  | .fwQuietPoint f => Sys2Proof.Machine.execFwQuietPoint f s
  | .fwHoldTimeout f => Sys2Proof.Machine.execFwHoldTimeout f s
  | .fwRehold f => Sys2Proof.Machine.execFwRehold f s
  | .por straps vio18 => Sys2Proof.Machine.execPor straps vio18 s
  | .resetN straps => Sys2Proof.Machine.execResetN straps s
  | .warmResetN => Sys2Proof.Machine.execWarmResetN s
  | .watchdog => Sys2Proof.Machine.execWatchdog s
  | .warmResetStart => Sys2Proof.Machine.execWarmResetStart s
  | .fatal die page bit straps => Sys2Proof.Machine.execFatal die page bit straps s
  | .regulatorPhaseLoss rail straps => Sys2Proof.Machine.execRegulatorPhaseLoss rail straps s
  | .coldResetReady failedSites cxl flashOk => Sys2Proof.Machine.execColdResetReady failedSites cxl flashOk s
  | .warmResetReady => Sys2Proof.Machine.execWarmResetReady s
  | .blockResetEscalation die page => Sys2Proof.Machine.execBlockResetEscalation die page s
  | .blockResetComplete die page => Sys2Proof.Machine.execBlockResetComplete die page s
  | .thermalSample die temps => Sys2Proof.Machine.execThermalSample die temps s
  | .powerSample deciwatts => Sys2Proof.Machine.execPowerSample deciwatts s
  | .dvfsLevelChange die => Sys2Proof.Machine.execDvfsLevelChange die s
  | .voltageDroop die => Sys2Proof.Machine.execVoltageDroop die s
  | .sensorCrossCheck die disagree => Sys2Proof.Machine.execSensorCrossCheck die disagree s
  | .refclkLoss => Sys2Proof.Machine.execRefclkLoss s
  | .refclkRelock => Sys2Proof.Machine.execRefclkRelock s
  | .timeExchange => Sys2Proof.Machine.execTimeExchange s
  | .presenceAssertion => Sys2Proof.Machine.execPresenceAssertion s
  | .sealPatternChange returned => Sys2Proof.Machine.execSealPatternChange returned s
  | .heartbeatLoss => Sys2Proof.Machine.execHeartbeatLoss s
  | .controlLaneRetrain up => Sys2Proof.Machine.execControlLaneRetrain up s
  | .orphanRejoin => Sys2Proof.Machine.execOrphanRejoin s
  | .bridgeDataLaneLoss => Sys2Proof.Machine.execBridgeDataLaneLoss s
  | .bridgeLaneRetrain group lanesLost => Sys2Proof.Machine.execBridgeLaneRetrain group lanesLost s
  | .patrolRead addr errs => Sys2Proof.Machine.execPatrolRead addr errs s
  | .recalWindow iface trained => Sys2Proof.Machine.execRecalWindow iface trained s
  | .retirementUnblocked => Sys2Proof.Machine.execRetirementUnblocked s
  | .frameMoveComplete => Sys2Proof.Machine.execFrameMoveComplete s
  | .cxlHotAdd dev => Sys2Proof.Machine.execCxlHotAdd dev s
  | .cxlLinkDown port window => Sys2Proof.Machine.execCxlLinkDown port window s
  | .cxlTimeout addr write => Sys2Proof.Machine.execCxlTimeout addr write s
  | .ucieLinkUp module half => Sys2Proof.Machine.execUcieLinkUp module half s
  | .ucieLinkDown => Sys2Proof.Machine.execUcieLinkDown s
  | .calveQuietPoint => Sys2Proof.Machine.execCalveQuietPoint s
  | .calveHoldTimeout => Sys2Proof.Machine.execCalveHoldTimeout s
  | .calveRetry => Sys2Proof.Machine.execCalveRetry s
  | .calveCopyComplete => Sys2Proof.Machine.execCalveCopyComplete s
  | .siteHardFailure site => Sys2Proof.Machine.execSiteHardFailure site s
  | .spareSelfTest site pass => Sys2Proof.Machine.execSpareSelfTest site pass s
  | .addUnitTest unit pass => Sys2Proof.Machine.execAddUnitTest unit pass s
  | .i3cBootRead => Sys2Proof.Machine.execI3cBootRead s
  | .i3cCommand bytes => Sys2Proof.Machine.execI3cCommand bytes s
  | .i3cResponseRead => Sys2Proof.Machine.execI3cResponseRead s
  | .jtagBoundaryScan instruction => Sys2Proof.Machine.execJtagBoundaryScan instruction s
  | .readersReleased f reader errs => Sys2Proof.Machine.execReadersReleased f reader errs s
  | .tileRowRelease f => Sys2Proof.Machine.execTileRowRelease f s
  | .illegalOp f st errs => Sys2Proof.Machine.execIllegalOp f st errs s
  | .pcRange f st => Sys2Proof.Machine.execPcRange f st s
  | .badOpcode pv => Sys2Proof.Machine.execBadOpcode pv s
  | .blockLock port slot sync => Sys2Proof.Machine.execBlockLock port slot sync s
  | .oedLinkState port sub up => Sys2Proof.Machine.execOedLinkState port sub up s
  | .ucieLaneRepair module spareLane retries => Sys2Proof.Machine.execUcieLaneRepair module spareLane retries s
  | .substrateTempCheck chip temp => Sys2Proof.Machine.execSubstrateTempCheck chip temp s
  | .presenceExpiry => Sys2Proof.Machine.execPresenceExpiry s
  | .i3cDynamicAddress addr => Sys2Proof.Machine.execI3cDynamicAddress addr s
  | .trstN => Sys2Proof.Machine.execTrstN s
  | .jtagDebugAccess target => Sys2Proof.Machine.execJtagDebugAccess target s

end Sys2Proof.Machine
end

