-- ==== Sys2Proof/Safety.lean ====
section
/-! DEFINITION. What a safe step is, and which parts of the device a command can change. -/

namespace Sys2Proof

/-- A step that neither faults nor is refused. -/
def Safe (s : Machine.State) : Prop := ∃ t, Machine.step s = .next t

/-- The parts of the device: one for each field of Machine.State. -/
inductive Field where
  | variant | straps | floes | signals | parts | rejects | steer | mem
  | spBad | poison | eps | cmdq | msis | i3c | ucie | nmcs
  | nm | cxls | router | chips | oed | sled | time | therms
  | power | rst | ras | sec | fuses | flash | proc | jtag
  | hdrs | latches | staged | fresh | pending
  deriving DecidableEq, Repr

/-- A part is the same in two states. -/
def Field.same (s t : Machine.State) : Field → Prop
  | .variant => t.variant = s.variant
  | .straps => t.straps = s.straps
  | .floes => t.floes = s.floes
  | .signals => t.signals = s.signals
  | .parts => t.parts = s.parts
  | .rejects => t.rejects = s.rejects
  | .steer => t.steer = s.steer
  | .mem => t.mem = s.mem
  | .spBad => t.spBad = s.spBad
  | .poison => t.poison = s.poison
  | .eps => t.eps = s.eps
  | .cmdq => t.cmdq = s.cmdq
  | .msis => t.msis = s.msis
  | .i3c => t.i3c = s.i3c
  | .ucie => t.ucie = s.ucie
  | .nmcs => t.nmcs = s.nmcs
  | .nm => t.nm = s.nm
  | .cxls => t.cxls = s.cxls
  | .router => t.router = s.router
  | .chips => t.chips = s.chips
  | .oed => t.oed = s.oed
  | .sled => t.sled = s.sled
  | .time => t.time = s.time
  | .therms => t.therms = s.therms
  | .power => t.power = s.power
  | .rst => t.rst = s.rst
  | .ras => t.ras = s.ras
  | .sec => t.sec = s.sec
  | .fuses => t.fuses = s.fuses
  | .flash => t.flash = s.flash
  | .proc => t.proc = s.proc
  | .jtag => t.jtag = s.jtag
  | .hdrs => t.hdrs = s.hdrs
  | .latches => t.latches = s.latches
  | .staged => t.staged = s.staged
  | .fresh => t.fresh = s.fresh
  | .pending => t.pending = s.pending

/-- The parts of the device that a command can change: those its own rules write, and those the errors, events and answers it causes write (spec/12 R411, R442, spec/14 R486, spec/16 R541, R542). No command changes the variant or the queue of waiting commands. -/
def touches : Instr → List Field
  | .jtagDebugAccess .. => []
  | .controlLaneRetrain .. | .bridgeLaneRetrain .. => [.ras]
  | .ctrlFreeze .. => [.hdrs]
  | .gwyRxLoad .. | .resync .. => [.eps]
  | .i3cBootRead | .i3cResponseRead | .i3cDynamicAddress .. => [.i3c]
  | .jtagBoundaryScan .. | .trstN => [.jtag]
  | .lldp .. | .pfcFrame .. | .icmpv6 .. | .oedLinkState .. => [.oed]
  | .oedDrainSafe .. => [.chips]
  | .presenceAssertion | .presenceExpiry => [.sec]
  | .refclkRelock => [.time]
  | .rstWdtKick => [.rst]
  | .sledFrame => [.sled]
  | .slowResend .. | .meshPacket .. | .bulk | .epoch | .fc .. | .alignmentMarkerSend .. | .helloSend .. | .fcRefresh .. | .fcTimeout ..
    | .escapeTimeout .. | .lifetime | .eject | .epochSwitch | .laneLock .. => [.router]
  | .tagWaitComplete .. | .sldReturn .. | .mmaComplete .. | .tileRowRelease .. => [.floes]
  | .voltageDroop .. => [.therms]
  | .addUnitTest .. => [.router, .flash]
  | .calveQuietPoint | .calveHoldTimeout => [.floes, .ras]
  | .dvfsLevelChange .. => [.router, .therms]
  | .epochBankFree | .optServiceDrain .. => [.router, .chips]
  | .keyingRetry .. => [.router, .fresh]
  | .powerSample .. => [.therms, .power]
  | .remoteSignal .. => [.floes, .signals]
  | .time .. | .timeExchange => [.router, .time]
  | .calveRetry => [.floes, .router, .ras]
  | .fwQuietPoint .. | .fwHoldTimeout .. => [.floes, .sec, .hdrs]
  | .fwRehold .. => [.floes, .router, .sec]
  | .oedFrame .. => [.router, .oed, .fresh]
  | .oedPortCfg .. => [.oed, .ras, .hdrs]
  | .orphanRejoin => [.router, .ras, .sec]
  | .pwrCap .. => [.power, .ras, .hdrs]
  | .routerBank .. => [.router, .ras, .hdrs]
  | .timeSet .. => [.time, .ras, .hdrs]
  | .spareSelfTest .. => [.floes, .ras, .fuses, .flash]
  | .i3cCommand .. => [.eps, .cmdq, .msis, .i3c, .proc]
  | .ucieLinkDown => [.eps, .cmdq, .msis, .ucie, .proc]
  | .certGet | .fwStatus | .telem .. | .badOpcode .. => [.rejects, .eps, .cmdq, .msis, .i3c, .proc]
  | .cxlHotAdd .. => [.eps, .msis, .cxls, .ras, .proc, .hdrs]
  | .pauseWaitExpiry .. => [.parts, .eps, .cmdq, .msis, .i3c, .proc]
  | .refclkLoss => [.eps, .msis, .time, .ras, .proc, .hdrs]
  | .sensorCrossCheck .. => [.eps, .msis, .therms, .ras, .proc, .hdrs]
  | .shuttleSeated .. | .substrateTempCheck .. => [.eps, .msis, .chips, .ras, .proc, .hdrs]
  | .tail .. => [.eps, .msis, .router, .ras, .proc, .hdrs]
  | .tileRowDrain .. => [.floes, .eps, .msis, .ras, .proc, .hdrs]
  | .ucieLaneRepair .. => [.eps, .msis, .ucie, .ras, .proc, .hdrs]
  | .alignmentMarker .. | .portLossOfLock .. | .blockLock .. => [.eps, .msis, .router, .chips, .ras, .proc, .hdrs]
  | .attest .. => [.rejects, .eps, .cmdq, .msis, .i3c, .proc, .fresh]
  | .csrRead .. => [.rejects, .eps, .cmdq, .msis, .i3c, .proc, .latches]
  | .cxlTimeout .. => [.poison, .eps, .msis, .cxls, .ras, .proc, .hdrs]
  | .fwStage => [.rejects, .eps, .cmdq, .msis, .i3c, .flash, .proc]
  | .hello => [.eps, .msis, .router, .ras, .proc, .hdrs, .fresh]
  | .nmmapRetire .. | .retirementUnblocked | .frameMoveComplete => [.eps, .msis, .nm, .ras, .flash, .proc, .hdrs]
  | .rasCalveGo .. => [.floes, .eps, .msis, .router, .ras, .proc, .hdrs]
  | .resetDevice => [.rejects, .eps, .cmdq, .msis, .i3c, .rst, .proc]
  | .salu .. | .br .. | .jump .. | .halt .. | .nop .. | .tagWait .. | .haltComplete .. | .streamStall .. | .pcRange .. => [.floes, .parts, .eps, .msis, .ras, .proc, .hdrs]
  | .calveCopyComplete => [.floes, .eps, .msis, .ras, .fuses, .flash, .proc, .hdrs]
  | .ctrlHold .. | .gwyTxStore .. | .ucieLinkUp .. => [.eps, .cmdq, .msis, .i3c, .ucie, .ras, .proc, .hdrs]
  | .ringFault .. => [.eps, .msis, .router, .chips, .ras, .flash, .proc, .hdrs]
  | .sealPatternChange .. => [.eps, .msis, .ras, .sec, .flash, .proc, .hdrs, .fresh]
  | .tagSignal .. => [.floes, .signals, .parts, .eps, .msis, .ras, .proc, .hdrs]
  | .wavelengthRecal .. | .shuttleRemoved .. | .optLaserCmdSwap .. | .optLaserCmdRecal .. => [.eps, .msis, .router, .chips, .oed, .ras, .proc, .hdrs]
  | .laserSample .. | .laserLockLoss .. | .spareReady .. | .laserSwapComplete .. | .wavelengthRecalComplete .. => [.eps, .msis, .router, .chips, .oed, .ras, .flash, .proc, .hdrs]
  | .mgmt .. => [.eps, .msis, .router, .oed, .time, .ras, .proc, .hdrs, .fresh]
  | .pause .. => [.floes, .parts, .rejects, .eps, .cmdq, .msis, .i3c, .router, .proc]
  | .steerComplete => [.parts, .eps, .msis, .router, .chips, .oed, .ras, .proc, .hdrs]
  | .blockResetEscalation .. => [.floes, .eps, .cmdq, .msis, .i3c, .nmcs, .nm, .ras, .proc, .hdrs]
  | .imageKeyEnroll | .imageMinVersion => [.rejects, .eps, .cmdq, .msis, .i3c, .ras, .flash, .proc, .hdrs, .fresh]
  | .readersReleased .. => [.floes, .spBad, .eps, .msis, .nmcs, .nm, .cxls, .ras, .proc, .hdrs]
  | .start .. => [.floes, .parts, .rejects, .eps, .cmdq, .msis, .i3c, .ras, .proc, .hdrs]
  | .claim .. => [.parts, .rejects, .steer, .eps, .cmdq, .msis, .i3c, .nm, .router, .sec, .proc]
  | .fwActivated => [.eps, .msis, .router, .chips, .oed, .rst, .ras, .sec, .flash, .proc, .hdrs]
  | .mfgMode => [.rejects, .eps, .cmdq, .msis, .i3c, .ras, .sec, .flash, .proc, .hdrs, .fresh]
  | .ownerChange | .debugLock | .keyRevoke => [.rejects, .eps, .cmdq, .msis, .i3c, .ras, .fuses, .flash, .proc, .hdrs, .fresh]
  | .resetCtrlGo .. => [.floes, .eps, .cmdq, .msis, .i3c, .nmcs, .nm, .cxls, .ras, .proc, .hdrs]
  | .sld .. | .mma .. | .mmaT .. | .mmaSp .. | .xfer .. | .vec .. | .red .. | .cvtBs16 .. | .stashPush .. | .stashPop .. | .updAdamw .. | .updSgdm ..
    | .gateTopk .. | .packAssign .. | .packGather .. | .packCombine .. | .illegalOp .. => [.floes, .parts, .spBad, .eps, .msis, .nmcs, .nm, .cxls, .ras, .proc, .hdrs]
  | .coldResetReady .. => [.parts, .eps, .msis, .cxls, .router, .rst, .ras, .sec, .fuses, .flash, .proc, .hdrs]
  | .collSteer .. => [.floes, .parts, .spBad, .eps, .msis, .nmcs, .nm, .cxls, .chips, .ras, .proc, .hdrs]
  | .loadEnd .. => [.floes, .parts, .rejects, .eps, .cmdq, .msis, .i3c, .ras, .flash, .proc, .hdrs, .fresh]
  | .resetBlock => [.floes, .rejects, .eps, .cmdq, .msis, .i3c, .nmcs, .nm, .cxls, .ras, .proc, .hdrs]
  | .thawDone .. => [.parts, .mem, .poison, .eps, .msis, .nm, .cxls, .router, .ras, .sec, .proc, .hdrs]
  | .vecPassComplete .. | .gatePackComplete .. | .xferComplete .. | .stashCopyComplete .. => [.floes, .mem, .spBad, .poison, .eps, .msis, .nmcs, .nm, .cxls, .ras, .proc, .hdrs]
  | .sst .. => [.floes, .parts, .mem, .spBad, .poison, .eps, .msis, .nmcs, .nm, .cxls, .ras, .proc, .hdrs]
  | .updComplete .. | .mirror => [.floes, .parts, .mem, .spBad, .poison, .eps, .msis, .nmcs, .nm, .cxls, .router, .ras, .proc, .hdrs]
  | .loadBegin .. => [.floes, .signals, .parts, .rejects, .mem, .spBad, .eps, .cmdq, .msis, .i3c, .proc, .hdrs, .latches, .staged, .fresh]
  | .verdictComplete .. => [.floes, .parts, .mem, .spBad, .poison, .eps, .msis, .nmcs, .nm, .cxls, .router, .chips, .ras, .proc, .hdrs]
  | .collStepComplete .. => [.floes, .parts, .mem, .spBad, .poison, .eps, .cmdq, .msis, .i3c, .nmcs, .nm, .cxls, .router, .ras, .proc, .hdrs]
  | .fwActivate => [.floes, .rejects, .eps, .cmdq, .msis, .i3c, .router, .chips, .oed, .ras, .sec, .fuses, .flash, .proc, .hdrs, .fresh]
  | .verdictContribution .. => [.floes, .parts, .mem, .spBad, .poison, .eps, .cmdq, .msis, .i3c, .nmcs, .nm, .cxls, .router, .chips, .ras, .proc, .hdrs]
  | .stepTimeout .. | .heartbeatLoss | .cxlLinkDown .. => [.floes, .parts, .mem, .spBad, .poison, .eps, .cmdq, .msis, .i3c, .nmcs, .nm, .cxls, .router, .chips, .oed, .ras, .proc, .hdrs]
  | .collShiftAllgather .. | .collShiftRotate .. | .collReduceScatter .. | .collAllreduce .. | .collPermute .. | .collVerdictCommit ..
    | .collVerdictNorm .. | .collVerdictBarrier .. | .shift | .shiftAdd .. | .permute | .verdict | .noticeSlow | .noticeReplay | .noticeFail
    | .noticeMismatch | .noticeDone | .noticeClose | .bridgeDataLaneLoss | .patrolRead .. | .recalWindow .. => [.floes, .parts, .mem, .spBad, .poison, .eps, .cmdq, .msis, .i3c, .nmcs, .nm, .cxls, .router, .chips, .oed, .ras, .flash, .proc, .hdrs]
  | .resume .. | .abort .. => [.floes, .parts, .rejects, .mem, .spBad, .poison, .eps, .cmdq, .msis, .i3c, .nmcs, .nm, .cxls, .router, .chips, .oed, .ras, .proc, .hdrs]
  | .loadChunk .. | .memWrite .. | .memRead .. | .snapshot .. => [.floes, .parts, .rejects, .mem, .spBad, .poison, .eps, .cmdq, .msis, .i3c, .nmcs, .nm, .cxls, .router, .chips, .oed, .ras, .flash, .proc, .hdrs]
  | .registerWrite .. => [.floes, .eps, .cmdq, .msis, .i3c, .ucie, .nmcs, .nm, .cxls, .router, .chips, .oed, .time, .power, .rst, .ras, .flash, .proc, .hdrs, .staged]
  | .resetPartition .. => [.floes, .signals, .parts, .rejects, .mem, .spBad, .eps, .cmdq, .msis, .i3c, .router, .chips, .oed, .ras, .sec, .proc, .hdrs, .latches, .staged, .fresh]
  | .warmResetReady => [.floes, .parts, .mem, .spBad, .poison, .eps, .cmdq, .msis, .i3c, .nmcs, .nm, .cxls, .router, .chips, .oed, .rst, .ras, .sec, .proc, .hdrs]
  | .csrWrite .. => [.floes, .rejects, .eps, .cmdq, .msis, .i3c, .ucie, .nmcs, .nm, .cxls, .router, .chips, .oed, .time, .power, .rst, .ras, .flash, .proc, .hdrs, .staged]
  | .release .. => [.floes, .signals, .parts, .rejects, .steer, .mem, .spBad, .eps, .cmdq, .msis, .i3c, .router, .chips, .oed, .ras, .sec, .proc, .hdrs, .latches, .staged, .fresh]
  | .debugEnable => [.floes, .signals, .parts, .rejects, .steer, .mem, .spBad, .eps, .cmdq, .msis, .i3c, .router, .chips, .oed, .ras, .sec, .flash, .proc, .hdrs, .latches, .staged, .fresh]
  | .warmResetN | .watchdog | .warmResetStart => [.floes, .signals, .parts, .steer, .mem, .spBad, .eps, .cmdq, .msis, .i3c, .ucie, .cxls, .router, .chips, .oed, .rst, .ras, .sec, .proc, .hdrs, .latches, .staged]
  | .blockResetComplete .. => [.floes, .signals, .parts, .mem, .spBad, .poison, .eps, .cmdq, .msis, .i3c, .ucie, .nmcs, .nm, .cxls, .router, .chips, .oed, .ras, .sec, .proc, .hdrs, .latches, .staged, .fresh]
  | .siteHardFailure .. => [.floes, .signals, .parts, .mem, .spBad, .poison, .eps, .cmdq, .msis, .i3c, .nmcs, .nm, .cxls, .router, .chips, .oed, .ras, .fuses, .flash, .proc, .hdrs, .latches, .staged, .fresh]
  | .por .. | .resetN .. => [.straps, .floes, .signals, .parts, .rejects, .steer, .mem, .spBad, .poison, .eps, .cmdq, .msis, .i3c, .ucie, .nmcs, .nm, .cxls, .router, .chips, .oed, .sled, .time, .therms, .power, .rst, .ras, .sec, .proc, .jtag, .hdrs, .latches, .staged]
  | .fatal .. | .regulatorPhaseLoss .. | .thermalSample .. => [.straps, .floes, .signals, .parts, .rejects, .steer, .mem, .spBad, .poison, .eps, .cmdq, .msis, .i3c, .ucie, .nmcs, .nm, .cxls, .router, .chips, .oed, .sled, .time, .therms, .power, .rst, .ras, .sec, .flash, .proc, .jtag, .hdrs, .latches, .staged]

/-! The terms the statements use. -/

/-- Only floe f differs. -/
def Claims.OnlyFloe (f : Nat) (s t : Machine.State) : Prop :=
  t = { s with floes := t.floes } ∧ ∀ g, g ≠ f → t.floe g = s.floe g
/-- Only stream st of floe f differs. -/
def Claims.OnlyStream (f : Nat) (st : Stream) (s t : Machine.State) : Prop :=
  Claims.OnlyFloe f s t ∧ t.floe f = (s.floe f).setStream st (t.stream f st)
/-- Word w, an instruction of opcode op with no reserved encoding, stands at the head of a stream that may issue. -/
def Claims.Head (op : Nat) (s : Machine.State) (f : Nat) (st : Stream) (w : IWord) : Prop :=
  s.headWord f st = some w ∧ Machine.opOf w = op ∧ Machine.encOk w = true
/-- The stream issues its head from its fetch buffer, which then holds the word: PC + 16, one more instruction issued, the rest of its state as given. -/
def Claims.issued (y : Machine.StreamSt) (word : Option IWord) : Machine.StreamSt := { y with pc := y.pc + 16, issued := y.issued + 1, fetch := word }
/-- The integer functions of SALU by their FN code, over the integers and narrowed to 64 bits (spec/06 Table 6-6, R164). -/
def Claims.saluInt (fn : Nat) (a b : DWord) : Option DWord :=
  match fn with
  | 0x00 => some (BitVec.ofInt 64 (a.toInt + b.toInt))
  | 0x01 => some (BitVec.ofInt 64 (a.toInt - b.toInt))
  | 0x02 => some (BitVec.ofInt 64 (a.toInt * b.toInt))
  | 0x03 => some (a &&& b)
  | 0x04 => some (a ||| b)
  | 0x05 => some (a ^^^ b)
  | 0x06 => some (BitVec.ofNat 64 (a.toNat * 2 ^ (b.toNat % 64)))
  | 0x07 => some (BitVec.ofNat 64 (a.toNat / 2 ^ (b.toNat % 64)))
  | 0x08 => some (BitVec.ofInt 64 (a.toInt / 2 ^ (b.toNat % 64)))
  | 0x09 => some (if a.toInt < b.toInt then 1 else 0)
  | 0x0A => some (if a.toNat < b.toNat then 1 else 0)
  | 0x0B => some (if a.toInt < b.toInt then a else b)
  | 0x0C => some (if a.toInt < b.toInt then b else a)
  | _ => none
/-- The conditions of BR by their COND code, over the integers (spec/06 Table 6-7). -/
def Claims.branches (cond : Nat) (a b : DWord) : Prop :=
  cond = 0 ∨ (cond = 1 ∧ a = b) ∨ (cond = 2 ∧ a ≠ b) ∨ (cond = 3 ∧ a.toInt < b.toInt) ∨ (cond = 4 ∧ b.toInt ≤ a.toInt)
    ∨ (cond = 5 ∧ a.toNat < b.toNat) ∨ (cond = 6 ∧ b.toNat ≤ a.toNat)
/-- A unit of floe f accepts the head of stream st: the floe becomes x with the head issued; nothing else differs. -/
def Claims.Accepts (f : Nat) (st : Stream) (s t : Machine.State) (x : Machine.Floe) : Prop :=
  Claims.OnlyFloe f s t ∧ t.floe f = x.setStream st (Claims.issued (x.stream st) (t.stream f st).fetch)
/-- A unit is granted to stream st of floe f: in s1 the descriptors of the tags its head names have been read, with the errors those reads met; x is the floe with the unit's counters after the grant. -/
def Claims.Granted (f unit : Nat) (st : Stream) (arb : Arb) (tags : List Nat) (s s1 : Machine.State) (x : Machine.Floe) : Prop :=
  s1 = s.readDescs f arb.errs tags ∧ ∃ weights, s.arbitrate f unit st arb = some weights ∧ x = { s1.floe f with weights := weights }
/-- All storage is good: nothing is uncorrectable, no retirement has come due, no CXL request is late, and no CXL window has lost its device. -/
def Claims.Good (s : Machine.State) : Prop :=
  s.spBad = [] ∧ s.poison = [] ∧ s.nm.due = [] ∧ ∀ c ∈ s.cxls, c.2.late = [] ∧ ∀ w ∈ c.2.wins, w.2.lost = false
/-- Every byte outside some ranges (first address, length) reads as before. -/
def Claims.KeepsOutside (l : List (Nat × Nat)) (s t : Machine.State) : Prop :=
  ∀ a, (∀ r ∈ l, a < r.1 ∨ r.1 + r.2 ≤ a) → t.byte a = s.byte a
/-- A collective packet q, good and first among those of its kind that wait, taken in state s1, for an armed step t of its partition and tag. -/
def Claims.Armed (g : Machine.MeshPkt → Bool) (s s1 : Machine.State) (q : Machine.MeshPkt) (t : Machine.Step) : Prop :=
  (∃ a, s.takePkt g = some (a, s1) ∧ a.p = q ∧ a.stomp = false) ∧ s1.inStep q.part = true ∧ Machine.isMirrorNotice q = false
    ∧ s1.tagUse q.part q.tag ≠ none ∧ s1.armedFor q.part q = some t ∧ t.abandoned = false
/-- A data packet of the step's attempt whose hash, sender and range agree with the step; the step still takes data. -/
def Claims.Fits (q : Machine.MeshPkt) (t : Machine.Step) : Prop :=
  q.attempt = t.attempt ∧ t.mismatch q = false ∧ q.slow = false ∧ t.within q = true ∧ t.complete = false
/-- The bytes of a piece of a tensor, occupancy bits included. -/
def Claims.pieceBytes (d : Machine.Desc) (br rows : Nat) : List (Nat × Nat) :=
  d.pieceRanges br rows ++ if d.occ then [(d.occBase + d.rowBlocks br / 8, (d.rowBlocks br + d.rowBlocks rows + 7) / 8 - d.rowBlocks br / 8)] else []
/-- The bytes l stand at a, and every other byte reads as before. -/
def Claims.Stored (a : Nat) (l : List Byte) (s t : Machine.State) : Prop :=
  (∀ i, i < l.length → some (t.byte (a + i)) = l[i]?) ∧ Claims.KeepsOutside [(a, l.length)] s t
/-- Command c of an opcode is the next of PARTITION value pv, taken in state s1, and passes the checks of fields, binding and state that its row makes. -/
def Claims.Runs (op pv : Nat) (fields : Machine.GwyPkt → Bool) (onPart onDev : Bool) (ok : Machine.PState → Bool) (s : Machine.State)
    (c : Machine.GwyPkt) (s1 : Machine.State) : Prop :=
  s.takeCmd pv (Machine.isOp op) = some (c, s1) ∧ s1.acceptCmd c (fields c) onPart onDev ok = none
/-- A command with neither arguments nor payload. -/
def Claims.bare (c : Machine.GwyPkt) : Bool := c.arg0 == 0 && c.arg1 == 0 && c.payload.isEmpty
/-- A privileged command of an operation is next, well laid out, for this device and its audit counter, with presence and seal where the operation needs them, and nothing in progress that it would wait for. -/
def Claims.Authorised (op n k : Nat) (needs : Bool) (s : Machine.State) (c : Machine.GwyPkt) (s1 : Machine.State) : Prop :=
  s.takeOp (Machine.isPriv op) = some (c, s1)
    ∧ s1.acceptCmd c (Machine.bitsOf c.arg0.toNat 8 56 == 0 && c.arg1 == 0 && Machine.privOk op n k c.payload) false true (fun _ => true) = none
    ∧ s.sec.fwAct = none ∧ s.rst.devPending = false ∧ (needs = true → s.presenceOk = true)
    ∧ Machine.sliceB c.payload 8 16 = Machine.beBytes 16 s.fuses.serial.toNat ∧ Machine.leAt c.payload 24 8 = s.flash.auditCount.toNat
/-- A command of an opcode for the device is next, and passes the checks of fields and binding that its row makes. -/
def Claims.RunsOp (op : Nat) (fields : Machine.GwyPkt → Bool) (s : Machine.State) (c : Machine.GwyPkt) (s1 : Machine.State) : Prop :=
  s.takeOp (Machine.isOp op) = some (c, s1) ∧ s1.acceptCmd c (fields c) false true (fun _ => true) = none
/-- A cold reset has begun in s by a cause, with these straps and the trip latch so: tripped, halted by a fuse-shadow error or a reserved BOOT_MODE, or at step 3; everything but fuses, flash and the model's own counters at its reset value. -/
def Claims.ColdBegun (cause : BitVec 7) (straps : Straps) (trip : Bool) (s t : Machine.State) : Prop :=
  t.rst.phase = (if trip then .tripped else if straps.fuseBad ∨ straps.boot = 3 then .halted else .cold)
    ∧ t.rst.step = (if trip ∨ straps.fuseBad then 1 else if straps.boot = 3 then 2 else 3)
    ∧ t.rst.fail = (if trip then 0 else if straps.fuseBad then 1 else if straps.boot = 3 then 2 else if t.locValid then 0 else 6)
    ∧ t.rst.cause = (if s.rst.phase = .ready ∨ s.rst.phase = .warm then cause else s.rst.cause ||| cause)
    ∧ t.rst.trip = trip ∧ t.rst.wdt = 0 ∧ t.rst.warms = 0 ∧ t.straps = straps ∧ t.fuses = s.fuses ∧ t.pending = s.pending
    ∧ t.floes = [] ∧ t.parts = [] ∧ t.cmdq = [] ∧ t.mem = [] ∧ t.spBad = [] ∧ t.poison = [] ∧ t.time = {} ∧ t.therms = [] ∧ t.power.level = 0
    ∧ t.ucie = [] ∧ t.latches = [] ∧ t.staged = [] ∧ t.router.inbox = [] ∧ t.sec.epoch = 0 ∧ t.sec.mfg = false ∧ t.sec.debugOn = false
    ∧ ∀ k, (t.cxl k).perst = true
/-- A warm reset has begun in s, a ready device, by a cause: floes, streams, partitions, commands and links are gone, every scratchpad byte is 0 and the CXL resets are driven; what the partitions held is to be thawed under a fresh scrub key. -/
def Claims.WarmBegun (cause : BitVec 7) (s t : Machine.State) : Prop :=
  t.rst.phase = .warm ∧ t.rst.step = 0x83 ∧ t.rst.cause = cause ∧ t.rst.warms = Machine.bump s.rst.warms ∧ t.rst.wdt = s.rst.wdt
    ∧ t.rst.devPending = false ∧ t.rst.heldUnits = s.heldBases
    ∧ t.floes = [] ∧ t.parts = [] ∧ t.signals = [] ∧ t.steer = none ∧ t.cmdq = [] ∧ t.ucie = [] ∧ t.spBad = []
    ∧ (Machine.Memory.wf s.mem = true → ∀ f off, f < 208 → off < Machine.spSize → t.byte (Machine.spAddr f off) = 0)
    ∧ t.sec.scrub = s.sec.scrub + 1 ∧ t.sec.intact = false ∧ t.ras.calve = none ∧ ∀ k < 2, (t.cxl k).perst = true
/-- A RESET command of a scope is the next that may run, and passes the checks that its row makes. -/
def Claims.RunsReset (scope : Nat) (fields : Machine.GwyPkt → Bool) (s : Machine.State) (c : Machine.GwyPkt) (s1 : Machine.State) : Prop :=
  s.takeOp (Machine.isReset scope) = some (c, s1) ∧ s1.acceptCmd c (fields c) false true (fun _ => true) = none
/-- A BS16 block as spec/02 R48 and R50 allow it: 32 mantissas of at most 32,767 in magnitude, an exponent below 255, all of them 0 under exponent 0. -/
def Claims.BlockOk (b : Machine.Bs) : Prop :=
  b.m.length = 32 ∧ (∀ x ∈ b.m, -32767 ≤ x ∧ x ≤ 32767) ∧ b.exp ≤ 254 ∧ (b.exp = 0 → ∀ x ∈ b.m, x = 0)
/-- A block in normal form: zero, or with a mantissa of 16,384 or more in magnitude, or with EXP 1, or with SAT (spec/02 R51). -/
def Claims.NormalForm (b : Machine.Bs) : Prop :=
  (∀ x ∈ b.m, x = 0) ∨ (∃ x ∈ b.m, 16384 ≤ x.natAbs) ∨ b.exp = 1 ∨ b.sat = true
/-- Logit x of expert d is chosen before logit y of expert e: it is larger, a NaN below everything and zeros equal, or they rank equal and d is the lower index (spec/04 R107). -/
def Claims.ChosenBefore (x : F32) (d : Nat) (y : F32) (e : Nat) : Prop :=
  Machine.ranksAbove x y = true ∨ (Machine.ranksAbove y x = false ∧ d < e)

end Sys2Proof
end

