-- ==== Sys2Proof/Certificates/Slice0/Obligations.lean ====
section
/-! DEFINITION. The statements for the provers: what every step keeps, and for every command the state it answers. -/

section

open Sys2Proof Sys2Proof.Machine

/-- The block's step: the command at the front of the queue is run on the state with the queue's rest. -/
def Obligations.StepRunsFrontCommand : Prop :=
  ∀ (c : Instr) (rest : List Instr) (s : State), s.pending = c :: rest → step s = exec c { s with pending := rest }

/-- On an empty queue one nanosecond passes (log 10): SYSTIME counts tenths of a picosecond, 10,000 to the nanosecond, faster or slower by at most one of them (100 ppm) while an offset is slewed; in the thermal trip nothing moves, and before the device is ready nothing but time does. -/
def Obligations.EmptyQueuePassesOneNanosecond : Prop :=
  ∀ s : State, s.pending = [] → ∃ t, step s = .next t ∧ t.pending = []
    ∧ (s.rst.phase = .tripped → t = s)
    ∧ (s.rst.phase = .cold ∨ s.rst.phase = .warm ∨ s.rst.phase = .halted → t = { s with time := t.time })
    ∧ (s.rst.phase ≠ .tripped →
        (t.time.slew = if 0 < s.time.slew then s.time.slew - 1 else if s.time.slew < 0 then s.time.slew + 1 else 0)
        ∧ (s.time.frac < 10000 → t.time.frac < 10000
            ∧ ∃ k : Nat, k ≤ 2 ∧ t.time.systime = s.time.systime + BitVec.ofNat 64 k
                ∧ (10000 * k + t.time.frac : Int) = s.time.frac + 10000 + (s.time.slew - t.time.slew)))

/-- Every command changes only the parts of the device that it may change. -/
def Obligations.CommandsChangeOnlyTheirParts : Prop :=
  ∀ (c : Instr) (s t : State), exec c s = .next t → ∀ φ : Field, φ ∉ touches c → φ.same s t

/-- Every step keeps the canonical form of memory: addresses strictly rising, no scratchpad byte listed as 0. -/
def Obligations.StepKeepsMemoryCanonical : Prop :=
  ∀ s t : State, Memory.wf s.mem = true → step s = .next t → Memory.wf t.mem = true

/-- Reset memory is canonical, and every byte of every scratchpad reads 0. -/
def Obligations.ResetMemoryCanonical : Prop :=
  Memory.wf State.reset.mem = true ∧ ∀ f off, f < 208 → off < spSize → State.reset.byte (spAddr f off) = 0

/-- Fuses are only ever blown, whatever the step: owner changes and anti-rollback counters never fall, DEBUG_LOCKED never clears, a revoked key never becomes valid again, and no remap record is lost or rewritten. -/
def Obligations.StepOnlyBlowsFuses : Prop :=
  ∀ s t : State, step s = .next t →
    s.fuses.ownerUsed ≤ t.fuses.ownerUsed
    ∧ (∀ c, Tbl.get 0 s.fuses.rollback c ≤ Tbl.get 0 t.fuses.rollback c)
    ∧ (s.fuses.debugLocked = true → t.fuses.debugLocked = true)
    ∧ (∀ n, t.fuses.fwKeyValid.getLsbD n = true → s.fuses.fwKeyValid.getLsbD n = true)
    ∧ (∃ l, t.fuses.rec0 = s.fuses.rec0 ++ l) ∧ (∃ l, t.fuses.rec1 = s.fuses.rec1 ++ l)

/-- SALU writes RD with FN of its operands and moves on; register 0 stays 0, and nothing else of the device changes. Integer results are stated over the integers, floating-point results by the operations of spec/05 R136. -/
def Obligations.SaluResult : Prop :=
  ∀ (f : Nat) (st : Stream) (w : IWord) (s : State), Claims.Head 0x01 s f st w →
    let y := s.stream f st
    let rd := fld w 119 115
    let b := if flag w 104 then BitVec.ofNat 64 (fld w 63 0) else y.reg (fld w 109 105)
    (∀ r, r ∈ y.pend → r ≠ rd ∧ r ≠ fld w 114 110 ∧ (flag w 104 = true ∨ r ≠ fld w 109 105)) →
    ∃ t v, exec (.salu f st) s = .next t ∧ Claims.OnlyStream f st s t
      ∧ t.stream f st = Claims.issued { y with regs := (t.stream f st).regs } (some w)
      ∧ (∀ r, (t.stream f st).reg r = if r ≠ 0 ∧ r = rd then v else y.reg r)
      ∧ (∀ x, Claims.saluInt (fld w 103 96) (y.reg (fld w 114 110)) b = some x → v = x)
      ∧ (Claims.saluInt (fld w 103 96) (y.reg (fld w 114 110)) b = none → v = saluFn (fld w 103 96) (y.reg (fld w 114 110)) b)

/-- BR goes to PC + 16 × OFF when its condition holds, else to PC + 16; it changes nothing but its stream's PC, count of instructions issued and fetch buffer. JUMP reads S[RA] before it writes the link PC + 16 to RD; NOP only moves on; a HALT issues and its stream waits with its PC kept. Nothing else of the device changes. -/
def Obligations.ControlFlowIssues : Prop :=
  (∀ (f : Nat) (st : Stream) (w : IWord) (s : State), Claims.Head 0x08 s f st w →
    let y := s.stream f st
    let a := y.reg (fld w 114 110)
    let b := if flag w 115 then BitVec.ofNat 64 (fld w 63 0) else y.reg (fld w 109 105)
    (∀ r, r ∈ y.pend → r ≠ fld w 114 110 ∧ (flag w 115 = true ∨ r ≠ fld w 109 105)) →
    ∃ t, exec (.br f st) s = .next t ∧ Claims.OnlyStream f st s t
      ∧ t.stream f st = { y with pc := (t.stream f st).pc, issued := y.issued + 1, fetch := some w }
      ∧ (Claims.branches (fld w 119 116) a b → (t.stream f st).pc = BitVec.ofInt 64 (y.pc.toInt + 16 * sfld32 w 64))
      ∧ (¬ Claims.branches (fld w 119 116) a b → (t.stream f st).pc = y.pc + 16))
  ∧ (∀ (f : Nat) (st : Stream) (w : IWord) (s : State),
    let y := s.stream f st
    (Claims.Head 0x09 s f st w → (∀ r, r ∈ y.pend → r ≠ fld w 119 115 ∧ r ≠ fld w 114 110) →
      ∃ t, exec (.jump f st) s = .next t ∧ Claims.OnlyStream f st s t
        ∧ t.stream f st = { y with
              regs := (t.stream f st).regs, pc := y.reg (fld w 114 110) + BitVec.ofNat 64 (fld w 63 0), issued := y.issued + 1, fetch := some w }
        ∧ ∀ r, (t.stream f st).reg r = if r ≠ 0 ∧ r = fld w 119 115 then y.pc + 16 else y.reg r)
    ∧ (Claims.Head 0x0B s f st w →
      ∃ t, exec (.nop f st) s = .next t ∧ Claims.OnlyStream f st s t ∧ t.stream f st = Claims.issued y (some w))
    ∧ (Claims.Head 0x0A s f st w →
      ∃ t, exec (.halt f st) s = .next t ∧ Claims.OnlyStream f st s t ∧ t.stream f st = { y with halting := true, issued := y.issued + 1, fetch := some w }))

/-- SLD reads memory at issue (corrected and uncorrectable granules and lines of what it reads are noted first), puts the value in flight, zero- or sign-extended, marks RD as waiting and moves on; SLD_RETURN delivers the oldest value in flight for RD to RD, register 0 discarding it, and ends the wait. Nothing else of the device changes. SST stores the low bytes of RS at S[RA] + IMM: with good storage there, those bytes read back, every other byte of memory reads as before, and the stream moves on; nothing else changes. With errors met, or over an uncorrectable granule or line, the store is the write that spec/08 R238 and R244 describe, and the stream moves on alike. -/
def Obligations.ScalarLoadsAndStores : Prop :=
  ((∀ (f : Nat) (st : Stream) (errs : Errs) (w : IWord) (s : State), Claims.Head 0x04 s f st w →
    let rd := fld w 119 115
    let a := ldstAddr (s.stream f st) w
    let n := 2 ^ fld w 109 108
    let v := ofLe (s.fill errs a n)
    let x := if flag w 107 then BitVec.signExtend 64 (BitVec.ofNat (8 * n) v) else BitVec.ofNat 64 v
    (∀ r, r ∈ (s.stream f st).pend → r ≠ rd ∧ r ≠ fld w 114 110) → s.scalarFault f a n false = none → s.memHeld a n = false →
    let s1 := s.noteRange (some f) errs a n
    ∃ t, exec (.sld f st errs) s = .next t ∧ Claims.OnlyFloe f s1 t
      ∧ t.floe f = ({ s1.floe f with slds := (s1.floe f).slds ++ [{ stream := st, rd := rd, value := x }] } : Floe).setStream st
                     (Claims.issued { s1.stream f st with pend := if rd = 0 then (s1.stream f st).pend else rd :: (s1.stream f st).pend }
                       (t.stream f st).fetch))
  ∧ ∀ (f : Nat) (st : Stream) (rd : Nat) (s : State) (before after : List SldOp) (o : SldOp),
      (s.floe f).slds = before ++ o :: after → o.stream = st → o.rd = rd → (∀ e ∈ before, ¬ (e.stream = st ∧ e.rd = rd)) →
      ∃ t, exec (.sldReturn f st rd) s = .next t ∧ Claims.OnlyFloe f s t
        ∧ t.floe f = ({ s.floe f with slds := before ++ after } : Floe).setStream st (t.stream f st)
        ∧ t.stream f st = { s.stream f st with regs := (t.stream f st).regs, pend := (s.stream f st).pend.erase rd }
        ∧ ∀ r, (t.stream f st).reg r = if r ≠ 0 ∧ r = rd then o.value else (s.stream f st).reg r)
  ∧ (∀ (f : Nat) (st : Stream) (errs : Errs) (w : IWord) (s : State), Claims.Head 0x05 s f st w →
    let y := s.stream f st
    let a := ldstAddr y w
    let n := 2 ^ fld w 109 108
    let l := leBytes n (y.reg (fld w 119 115)).toNat
    (∀ r, r ∈ y.pend → r ≠ fld w 119 115 ∧ r ≠ fld w 114 110) → s.scalarFault f a n true = none → s.memHeld a n = false →
    let s1 := (s.writeMem (some f) errs a l).1
    ∃ t, exec (.sst f st errs) s = .next t ∧ Claims.OnlyStream f st s1 t
      ∧ t.stream f st = Claims.issued (s1.stream f st) (t.stream f st).fetch
      ∧ (s.allGood errs a = true → s.lostAt a = false → Memory.wf s.mem = true →
          t = { s with mem := t.mem, floes := t.floes } ∧ t.stream f st = Claims.issued y (t.stream f st).fetch ∧ Claims.OnlyFloe f { s with mem := t.mem } t
          ∧ (∀ i, i < n → some (t.byte (a + i)) = l[i]?)
          ∧ ∀ b, b < a ∨ a + n ≤ b → t.byte b = s.byte b))

/-- The array accepts MMA, MMA.T and MMA.SP alike when nothing makes them wait, the array is granted and no fault is met: the tags are taken, the named bank is OPEN for the tile of the stream, the other bank stays, and the head is issued. An MMA whose k-units are all skipped is read at once: its readers end, and where it drains its bank is DRAINING. -/
def Obligations.MmaAccepted : Prop :=
  ∀ (f : Nat) (st : Stream) (arb : Arb) (w : IWord) (s s1 : State) (x : Floe) (c : Instr) (op : Nat),
    (op = 0x10 ∧ c = .mma f st arb) ∨ (op = 0x11 ∧ c = .mmaT f st arb) ∨ (op = 0x12 ∧ c = .mmaSp f st arb) →
    Claims.Head op s f st w → s.mmaWaits f st w = false → Claims.Granted f 0 st arb (mmaReads w) s s1 x →
    let at14 := fun (base r : Nat) => if flag w 6 then base + (s.stream f st).regLow 14 r else base
    let m0 := at14 (fld w 86 73) (fld w 21 17)
    let n0 := at14 (fld w 72 59) (fld w 16 12)
    let k0 := at14 (fld w 58 45) (fld w 11 7)
    s1.mmaFault f st w m0 n0 k0 = none →
    ∃ a b t o, s1.mmaDescs f w = some (a, b) ∧ exec c s = .next t
      ∧ Claims.OnlyFloe f s1 t ∧ t.stream f st = Claims.issued (s1.stream f st) (t.stream f st).fetch
      ∧ (t.floe f).mmas = x.mmas ++ [o] ∧ (t.floe f).weights = x.weights
      ∧ o.stream = st ∧ o.w = w ∧ o.m0 = m0 ∧ o.n0 = n0 ∧ o.k0 = k0 ∧ o.dA = a ∧ o.dB = b
      ∧ (t.floe f).bank (mmaBank w) = { x.bank (mmaBank w) with
            st := if mmaDrain w && o.readDone then .draining else .opened,
            owner := st, m0 := m0, n0 := n0, mb := mmaMb w, nb := mmaNb w, kEnd := k0 + mmaKn w }
      ∧ (t.floe f).bank (1 - mmaBank w) = x.bank (1 - mmaBank w)
      ∧ (t.floe f).drains = x.drains ∧ (t.floe f).tq = x.tq
      ∧ (o.readDone = false → (t.floe f).tags = (x.take (mmaReads w) (mmaWrites w)).tags)
      ∧ (o.readDone = true →
          (t.floe f).tags = ((x.take (mmaReads w) (mmaWrites w)).endReaders (readersOf (mmaReads w) (mmaWrites w))).tags
          ∧ o.kRun = 0 ∧ o.kSkipped = mmaKn w)

/-- The vector engine accepts VEC, RED, CVT.BS16, GATE.TOPK, the three PACK.CAP and the two UPD instructions when nothing makes them wait, the engine is granted and no fault is met: their tags are taken, what they read of registers is captured, a scalar result makes its register wait, and the head is issued. Nothing else of the device changes. -/
def Obligations.VectorEngineAccepts : Prop :=
  ∀ (f : Nat) (st : Stream) (arb : Arb) (w : IWord) (s s1 : State) (x : Floe),
    (∀ (c : Instr) (op : Nat), (op = 0x20 ∧ c = .vec f st arb) ∨ (op = 0x21 ∧ c = .red f st arb) ∨ (op = 0x22 ∧ c = .cvtBs16 f st arb) →
      Claims.Head op s f st w → s.passWaits f st w = false → Claims.Granted f 1 st arb (passReads w ++ passWrites w) s s1 x →
      let m0 := fld w 101 90 + if passUseS w then (s.stream f st).regLow 12 26 else 0
      let n0 := fld w 89 78 + if passUseS w then (s.stream f st).regLow 12 27 else 0
      s1.passFault f st w m0 n0 = none →
      ∃ a b ops t o, s1.passDescs f w = some (a, b, ops) ∧ exec c s = .next t
        ∧ o = { stream := st, w := w, m0 := m0, n0 := n0, dSrc := a.getD {}, dDst := b.getD {}, dOps := ops,
                scal := (passRegs w).eraseDups.map (fun r => (r, (s1.stream f st).reg r)), ra0 := (s1.stream f st).ra0,
                ra1 := (s1.stream f st).ra1, readDone := (passReads w).isEmpty }
        ∧ let x1 : Floe := { x.take (passReads w) (passWrites w) with
                vu := .pass o, tq := if passQueue w then x.tq.map (fun u => if u.tag = passSrc w then { u with kept := !passPop w } else u) else x.tq }
          Claims.Accepts f st s1 t (if passToScalar w then x1.setStream st ((s1.stream f st).addPend (passReg w)) else x1))
    ∧ (∀ (c : Instr), (opOf w = 0x38 ∧ c = .gateTopk f st arb) ∨ (opOf w = 0x39 ∧ packMode w = 0 ∧ c = .packAssign f st arb)
          ∨ (opOf w = 0x39 ∧ packMode w = 1 ∧ c = .packGather f st arb) ∨ (opOf w = 0x39 ∧ packMode w = 2 ∧ c = .packCombine f st arb) →
      Claims.Head (opOf w) s f st w → s.condWaits f st w = false → Claims.Granted f 1 st arb (condReads w ++ condWrites w) s s1 x →
      s1.condFault f st w = none →
      ∃ o t, s1.condOp f st w = some o ∧ exec c s = .next t
        ∧ Claims.Accepts f st s1 t { x.take (condReads w) (condWrites w) with vu := .cond o })
    ∧ ∀ (c : Instr) (op : Nat), (op = 0x30 ∧ c = .updAdamw f st arb) ∨ (op = 0x31 ∧ c = .updSgdm f st arb) →
      Claims.Head op s f st w →
      let y := s.stream f st
      let n := (s.floe f).ppCount.toNat
      let m0 := fld w 103 92 + if updUseS w then y.regLow 12 26 else 0
      let n0 := fld w 91 80 + if updUseS w then y.regLow 12 27 else 0
      let reads := updG w :: updCur w
      s.updWaits f st w = false → Claims.Granted f 1 st arb (reads ++ updAlt w n) s s1 x → s1.updFault f w m0 n0 = none →
      let get := fun (k : Nat) => (s1.desc f k).getD {}
      let o : UpdOp := { stream := st, w := w, m0 := m0, n0 := n0, dG := get (updG w),
                         cur := (updSet w).map (fun i => (i, get (updS w + i))), alt := (updSet w).map (fun i => (i, get (updS w + i + n))),
                         hp := (updRegs w).eraseDups.map (fun r => (r, y.reg r)), kappa := x.kappa w }
      ∃ t, exec c s = .next t
        ∧ let x1 : Floe := { x.take reads (updAlt w n) with vu := .upd o }
          Claims.Accepts f st s1 t (if updNreg w = 0 then x1 else x1.setStream st ((s1.stream f st).addPend (updNreg w)))

/-- The transfer engine takes an XFER while it holds fewer than four, and the stash unit a push or a pop: a push puts its entry on top of its stack and copies unless it makes a hole; a pop takes the top entry, and discards it, copies it to its tag, or, where it is a hole, branches to the recompute code with the return address in S28. Nothing else of the device changes. -/
def Obligations.TransferAndStashAccept : Prop :=
  ∀ (f : Nat) (st : Stream) (arb : Arb) (w : IWord) (s s1 : State) (x : Floe),
    let k := stashStack (s.stream f st) w
    let d := (s1.desc f (stashTag w)).getD {}
    (Claims.Head 0x18 s f st w → s.xferWaits f w = false → Claims.Granted f 2 st arb [xferSrc w, xferDst w] s s1 x → s1.xferFault f w = none →
      ∃ t, exec (.xfer f st arb) s = .next t
        ∧ Claims.Accepts f st s1 t { x.take [xferSrc w] [xferDst w] with
            xfers := x.xfers ++ [{ stream := st, w := w, dSrc := (s1.desc f (xferSrc w)).getD {}, dDst := (s1.desc f (xferDst w)).getD {} }] })
    ∧ (Claims.Head 0x28 s f st w → s.pushWaits f st w = false → Claims.Granted f 3 st arb [stashTag w] s s1 x → s1.pushFault f w k = none →
      let e := s1.pushEntry f w k d
      let x1 : Floe := { x with stashed := x.stashed.put k (e :: x.stack k) }
      ∃ t, exec (.stashPush f st arb) s = .next t
        ∧ Claims.Accepts f st s1 t (if e.hole then { x1 with pushCount := x.pushCount + 1, holeCount := x.holeCount + 1 }
            else { x1.take [stashTag w] [] with
                   push := some { stream := st, stack := k, entry := e, d := d, tag := stashTag w },
                   spillCount := if e.tier = 0 then x.spillCount else x.spillCount + 1 }))
    ∧ ∀ (e : StashEntry) (r : List StashEntry), Claims.Head 0x29 s f st w → s.popWaits f st w = false → Claims.Granted f 3 st arb (popTags w) s s1 x →
      s1.popFault f w k = none → x.stack k = e :: r →
      let x1 : Floe := { x with stashed := x.stashed.put k r }
      ∃ t, exec (.stashPop f st arb) s = .next t
        ∧ (stashBit w = true → Claims.Accepts f st s1 t x1)
        ∧ (stashBit w = false → e.hole = false → Claims.Accepts f st s1 t { x1.take [] [stashTag w] with
              pop := some { stream := st, stack := k, entry := e, d := d, tag := stashTag w } })
        ∧ (stashBit w = false → e.hole = true → Claims.OnlyFloe f s1 t
            ∧ (t.floe f).stack k = r ∧ (t.floe f).recompCount = x.recompCount + 1
            ∧ (t.stream f st).reg 28 = (s1.stream f st).pc + 16
            ∧ (t.stream f st).pc = (s1.stream f st).pc + BitVec.ofInt 64 (16 * stashRoff w)
            ∧ (t.stream f st).issued = (s1.stream f st).issued + 1
            ∧ ∀ i, i ≠ 28 → (t.stream f st).reg i = (s1.stream f st).reg i)

/-- TAG.WAIT reads its target and holds the stream; the wait ends when every selected condition holds, and only then does the stream issue it. TAG.SIGNAL adds to SEQ of a tag of its own floe modulo 2^16, or sends the addition to another floe of its partition, fenced only when the stream has nothing in flight; REMOTE_SIGNAL applies the oldest signal of a stream to a target. Both wait while a commit holds the tag. Nothing else of the device changes. -/
def Obligations.TagsWaitAndSignal : Prop :=
  (∀ (f : Nat) (st : Stream) (s : State),
    let y := s.stream f st
    (∀ w, Claims.Head 0x50 s f st w → (flag w 109 = true → fld w 108 104 ∉ y.pend) → s.commitHolds f [fld w 119 112] = false →
      ∃ t, exec (.tagWait f st) s = .next t ∧ Claims.OnlyStream f st s t
        ∧ t.stream f st = { y with wait := some { tag := fld w 119 112, ww := flag w 111, wr := flag w 110, ws := flag w 109,
                                                  target := BitVec.truncate 16 (y.reg (fld w 108 104)) } })
    ∧ ∀ v, y.wait = some v → y.st = .running → ((s.floe f).held = true → (s.floe f).holdsBank st = true) →
      let c := (s.floe f).tag v.tag
      ((v.ww = true → c.wr = 0) ∧ (v.wr = true → c.rd = 0) ∧ (v.ws = true → (c.seq - v.target).toNat < 2 ^ 15) →
        ∃ t, exec (.tagWaitComplete f st) s = .next t ∧ Claims.OnlyStream f st s t ∧ t.stream f st = Claims.issued { y with wait := none } (t.stream f st).fetch)
      ∧ ((v.ww = true ∧ c.wr ≠ 0) ∨ (v.wr = true ∧ c.rd ≠ 0) ∨ (v.ws = true ∧ 2 ^ 15 ≤ (c.seq - v.target).toNat) →
        exec (.tagWaitComplete f st) s = .next s))
  ∧ (∀ (f : Nat) (st : Stream) (s : State),
    (∀ w, Claims.Head 0x51 s f st w → (flag w 110 = true → s.streamDone f st = true) →
      s.commitHolds (if flag w 111 then fld w 103 96 else f) [fld w 119 112] = false →
      let tg := fld w 119 112
      let n := BitVec.ofNat 16 (fld w 95 80)
      let d := fld w 103 96
      (flag w 111 = false →
        ∃ t, exec (.tagSignal f st) s = .next t ∧ Claims.OnlyFloe f s t ∧ t.stream f st = Claims.issued (s.stream f st) (some w)
          ∧ t.floe f = ({ s.floe f with tags := (t.floe f).tags } : Floe).setStream st (t.stream f st)
          ∧ ∀ k, (t.floe f).tag k = if k = tg then { (s.floe f).tag k with seq := ((s.floe f).tag k).seq + n } else (s.floe f).tag k)
      ∧ (flag w 111 = true → (s.floePart d).isSome = true → s.floePart d = s.floePart f →
        ∃ t, exec (.tagSignal f st) s = .next t
          ∧ Claims.OnlyStream f st { s with signals := s.signals ++ [{ src := f, stream := st, dst := d, tag := tg, amount := n }] } t
          ∧ t.stream f st = Claims.issued (s.stream f st) (some w)))
    ∧ ∀ (dst : Nat) (before after : List Signal) (g : Signal), s.signals = before ++ g :: after → g.src = f → g.stream = st → g.dst = dst →
      (∀ e ∈ before, ¬ (e.src = f ∧ e.stream = st ∧ e.dst = dst)) →
      ∃ t, exec (.remoteSignal f st dst) s = .next t ∧ Claims.OnlyFloe dst { s with signals := before ++ after } t
        ∧ t.floe dst = { s.floe dst with tags := (t.floe dst).tags }
        ∧ ∀ k, (t.floe dst).tag k = if k = g.tag then { (s.floe dst).tag k with seq := ((s.floe dst).tag k).seq + g.amount } else (s.floe dst).tag k)

/-- A HALT completes when its stream has nothing in flight: the stream is HALTED, and a RUNNING partition whose last stream this was sends PROGRAM_END and becomes LOADED. No memory changes. A stream fault: a reserved encoding, 0xFF bytes of a bad granule among them (ILLEGAL_OP 0x01), a PC outside the code region or not a multiple of 16 (PC_RANGE 0x02), a head that has not issued for too long (STREAM_STALL 0x06). The stream is FAULTED with its PC kept; every other RUNNING or PAUSED stream of the partition is STOPPED, a RUNNING partition is FAULTED, and no memory changes. -/
def Obligations.StreamsHaltAndFault : Prop :=
  (∀ (f : Nat) (st : Stream) (s : State),
    let y := s.stream f st
    let s1 := s.setStream f st { y with st := .halted, halting := false }
    y.st = .running → y.halting = true → s.streamDone f st = true →
    ∃ t, exec (.haltComplete f st) s = .next t ∧ t.floes = s1.floes ∧ t.mem = s.mem
      ∧ (∀ g u, (g, u) ≠ (f, st) → t.stream g u = s.stream g u)
      ∧ ∀ p, s.floePart f = some p →
          (((s.part p).st = .running ∧ ∀ g ∈ s.partFloes p, ∀ u, (s1.stream g u).st = .halted) →
            (t.part p).st = .loaded ∧ t = (s1.setPart p { s.part p with st := .loaded }).eventOwner p 0x01 0xFF [])
          ∧ (¬ ((s.part p).st = .running ∧ ∀ g ∈ s.partFloes p, ∀ u, (s1.stream g u).st = .halted) → t = s1))
  ∧ (∀ (f : Nat) (st : Stream) (errs : Errs) (s : State) (c : Instr) (code : Byte),
    let y := s.stream f st
    (c = .illegalOp f st errs ∧ code = 0x01 ∧ ∃ w, (s.strike errs).headWord f st = some w ∧ encOk w = false)
      ∨ (c = .pcRange f st ∧ code = 0x02 ∧ (s.floe f).atHead st = true ∧ (s.floe f).pcOk st = false)
      ∨ (c = .streamStall f st ∧ code = 0x06 ∧ y.st = .running ∧ y.halting = false ∧ bitsOf (s.floe f).streamCtl.toNat 24 6 ≠ 0) →
    ∃ t, exec c s = .next t ∧ t.mem = s.mem
      ∧ (t.stream f st).st = .faulted ∧ (t.stream f st).fault = code ∧ (t.stream f st).pc = y.pc ∧ (t.stream f st).regs = y.regs
      ∧ ∀ p, s.floePart f = some p →
          (∀ g ∈ s.partFloes p, ∀ u, (g, u) ≠ (f, st) →
            (t.stream g u).st = if (s.stream g u).st = .running ∨ (s.stream g u).st = .paused then .stopped else (s.stream g u).st)
          ∧ (t.part p).st = if (s.part p).st = .running then .faulted else (s.part p).st)

/-- MMA_COMPLETE: a drained tile ends its MMA and leaves its bank FREE unless a newer tile holds it; otherwise, once no earlier tile of the bank still drains, the bank's oldest MMA, its operands read, reaches its last product, and its sums, with a k-block still in progress, stay in the bank (DRAIN 0, and the MMA ends) or begin to drain (DRAIN 1). Nothing but the floe changes. -/
def Obligations.MmaCompletes : Prop :=
  ∀ (f bank : Nat) (s : State), bank < 2 →
    let x := s.floe f
    (∀ (before after : List Drain) (d : Drain), x.drains = before ++ d :: after → d.bank = bank → d.entered = d.rows.length →
      (∀ e ∈ before, ¬ (e.bank = bank ∧ e.entered = e.rows.length)) →
      ∃ t, exec (.mmaComplete f bank) s = .next t ∧ Claims.OnlyFloe f s t
        ∧ (t.floe f).drains = before ++ after ∧ (t.floe f).mmaCount = x.mmaCount + 1
        ∧ (t.floe f).spMmaCount = (if d.sp then x.spMmaCount + 1 else x.spMmaCount)
        ∧ (t.floe f).bank (1 - bank) = x.bank (1 - bank)
        ∧ (((x.bank bank).st = .draining ∧ (∀ e ∈ before ++ after, e.bank ≠ bank) ∧ ∀ o ∈ x.mmas, mmaBank o.w ≠ bank) →
            (t.floe f).bank bank = { x.bank bank with st := .free })
        ∧ (¬ ((x.bank bank).st = .draining ∧ (∀ e ∈ before ++ after, e.bank ≠ bank) ∧ ∀ o ∈ x.mmas, mmaBank o.w ≠ bank) →
            (t.floe f).bank bank = x.bank bank))
    ∧ ∀ (before after : List MmaOp) (o : MmaOp), (∀ e ∈ x.drains, e.bank ≠ bank) →
      x.mmas = before ++ o :: after → mmaBank o.w = bank → (∀ e ∈ before, mmaBank e.w ≠ bank) → o.readDone = true →
      ∃ t, exec (.mmaComplete f bank) s = .next t ∧ Claims.OnlyFloe f s t
        ∧ (t.floe f).mmas = before ++ after
        ∧ (t.floe f).skipKunits = x.skipKunits + BitVec.ofNat 64 o.kSkipped
        ∧ (mmaDrain o.w = false → (t.floe f).bank bank = { x.bank bank with vals := (tileRows o (x.bank bank)).1, block := (tileRows o (x.bank bank)).2 }
            ∧ (t.floe f).drains = x.drains ∧ (t.floe f).mmaCount = x.mmaCount + 1)
        ∧ (mmaDrain o.w = true → (t.floe f).bank bank = { x.bank bank with vals := [], block := none } ∧ (t.floe f).mmaCount = x.mmaCount
            ∧ (t.floe f).drains = x.drains ++ [{ sp := mmaSp o.w, bank := bank, stream := o.stream, tag := fld o.w 30 23,
                                                 mb := mmaMb o.w, nb := mmaNb o.w, rows := (tileRows o (x.bank bank)).1 }])

/-- TILE_ROW_DRAIN: the next row of the oldest draining tile of a bank enters the tile queue under the tile's tag; its first row makes the tile's entry, once all its rows have room. After a parity error the row is NaN and the floe's page raises ARRAY_PARITY. No memory changes. TILE_ROW_RELEASE: the next row of a popping pass leaves the queue for the chain; after the last, which waits for the pass's reads, the tile leaves the queue and its tag's writer ends. Nothing but the floe changes. -/
def Obligations.TileRowsEnterAndRelease : Prop :=
  (∀ (f bank : Nat) (parity : Bool) (s : State) (before after : List Drain) (d : Drain),
    let x := s.floe f
    x.drains = before ++ d :: after → d.bank = bank → d.entered < d.rows.length →
    (∀ e ∈ before, ¬ (e.bank = bank ∧ e.entered < e.rows.length)) → (d.entered = 0 → x.tqUsed + 32 * d.mb ≤ 512) →
    let row := if parity then (d.rows.getD d.entered []).map (fun _ => (0x7FC00000#32 : F32)) else d.rows.getD d.entered []
    let tq := if d.entered = 0 then x.tq ++ [{ tag := d.tag, owner := d.stream, mb := d.mb, nb := d.nb }] else x.tq
    ∃ t, exec (.tileRowDrain f bank parity) s = .next t ∧ t.mem = s.mem
      ∧ (t.floe f).tq = tq.map (fun u => if u.tag = d.tag then { u with rows := u.rows.put d.entered row, entered := u.entered + 1 } else u)
      ∧ (t.floe f).drains = before ++ { d with entered := d.entered + 1 } :: after
      ∧ (parity = false → Claims.OnlyFloe f s t)
      ∧ (parity = true → (t.hdr (s.floePage f).1 (s.floePage f).2).errStatus.getLsbD 0 = true))
  ∧ (∀ (f : Nat) (s : State) (o : PassOp) (u : Tile),
    let x := s.floe f
    x.vu = .pass o → passQueue o.w = true → passPop o.w = true → x.tile (passSrc o.w) = some u → u.released < u.entered →
    (u.released + 1 = 32 * u.mb → o.readDone = true) →
    ∃ t, exec (.tileRowRelease f) s = .next t ∧ Claims.OnlyFloe f s t
      ∧ (t.floe f).vu = .pass { o with src := o.src.put u.released (Tbl.get [] u.rows u.released) }
      ∧ (u.released + 1 ≠ 32 * u.mb → (t.floe f).tags = x.tags
          ∧ (t.floe f).tq = x.tq.map (fun v => if v.tag = u.tag then { v with released := u.released + 1 } else v))
      ∧ (u.released + 1 = 32 * u.mb → (t.floe f).tq = x.tq.filter (fun v => v.tag != u.tag)
          ∧ ∀ k, (t.floe f).tag k = if k = u.tag then { x.tag k with wr := (x.tag k).wr - 1 } else x.tag k))

/-- READERS_RELEASED: a unit's oldest instruction that is still reading has read its sources: what it needs is captured, its readers end, a draining MMA's bank is DRAINING, and no memory changes. A unit's instruction completes: the vector engine is idle again and counts its pass or tokens or elements, the writers of its outputs end, an XFER or a stash copy leaves its unit, and an UPD's or a reduction's scalar result arrives. -/
def Obligations.ReadersReleaseAndUnitsComplete : Prop :=
  (∀ (f : Nat) (errs : Errs) (s : State),
    let x := s.floe f
    (∀ (bank : Nat) (before after : List MmaOp) (o : MmaOp), x.mmas = before ++ o :: after → mmaBank o.w = bank → o.readDone = false →
      (∀ e ∈ before, ¬ (mmaBank e.w = bank ∧ e.readDone = false)) →
      ∃ t o1, exec (.readersReleased f (.array bank) errs) s = .next t ∧ t.mem = s.mem
        ∧ o1.readDone = true ∧ o1.w = o.w ∧ o1.stream = o.stream
        ∧ (o.dA.fmt = 6 → o1.contrib = s.contribs errs o ∧ o1.blocks = []) ∧ (o.dA.fmt ≠ 6 → o1.blocks = s.exactBlocks errs o ∧ o1.contrib = [])
        ∧ (t.floe f).mmas = before ++ o1 :: after
        ∧ (mmaDrain o.w = true → ((t.floe f).bank bank).st = .draining)
        ∧ (t.floe f).tags = (x.endReaders (readersOf (mmaReads o.w) (mmaWrites o.w))).tags)
    ∧ (∀ o, x.vu = .pass o → o.readDone = false → x.tileWhole o.w = true →
      ∃ t o1, exec (.readersReleased f .vector errs) s = .next t ∧ t.mem = s.mem
        ∧ (t.floe f).vu = .pass o1 ∧ o1.readDone = true ∧ o1.w = o.w ∧ o1.dDst = o.dDst
        ∧ (t.floe f).tags = (x.endReaders (readersOf (passReads o.w) (passWrites o.w))).tags)
    ∧ (∀ (before after : List XferOp) (o : XferOp), x.xfers = before ++ o :: after → o.readDone = false → s.planesHeld o.dSrc = false →
      (∀ e ∈ before, ¬ (xferDst e.w = xferDst o.w ∧ e.readDone = false)) →
      ∃ t, exec (.readersReleased f (.transfer (xferDst o.w)) errs) s = .next t ∧ t.mem = s.mem
        ∧ (t.floe f).xfers = before ++ after ++ [{ o with readDone := true, data := s.xferBytes errs o, occBits := s.xferOccBits o }]
        ∧ (t.floe f).tags = (x.endReaders (readersOf [xferSrc o.w] [xferDst o.w])).tags)
    ∧ ∀ o, x.push = some o → o.readDone = false →
      ∃ t, exec (.readersReleased f .push errs) s = .next t ∧ t.mem = s.mem
        ∧ (t.floe f).push = some { o with readDone := true, data := (stashPlanes o.d).map (fun p => s.fillEnded o.ended errs p.2.1 p.2.2) }
        ∧ (t.floe f).tags = (x.endReaders [o.tag]).tags)
  ∧ (∀ (f : Nat) (errs : Errs) (s : State),
    let x := s.floe f
    (∀ o, x.vu = .pass o → x.passReady o = true →
      ∃ t, exec (.vecPassComplete f) s = .next t ∧ (t.floe f).vu = .idle ∧ (t.floe f).vecCount = x.vecCount + 1
        ∧ (t.floe f).tags = (x.endWriters (passWrites o.w)).tags
        ∧ (passIsRed o.w = true → t.mem = s.mem ∧ Claims.OnlyFloe f s t))
    ∧ (∀ o, x.vu = .cond o → ∃ t, exec (.gatePackComplete f errs) s = .next t ∧ (t.floe f).vu = .idle
        ∧ (t.floe f).tags = ((x.endReaders (readersOf (condReads o.w) (condWrites o.w))).endWriters (condWrites o.w)).tags
        ∧ (opOf o.w = 0x38 → (t.floe f).gateTokens = x.gateTokens + BitVec.ofNat 64 (gateN o.w)))
    ∧ (∀ o, x.vu = .upd o → s.planesHeld o.dG = false → (∀ e ∈ o.cur ++ o.alt, s.planesHeld e.2 = false) →
      ∃ t, exec (.updComplete f errs) s = .next t ∧ (t.floe f).vu = .idle
        ∧ (t.floe f).updElements = x.updElements + BitVec.ofNat 64 (1024 * updMb o.w * updNb o.w)
        ∧ (t.floe f).tags = ((x.endReaders (readersOf (updG o.w :: updCur o.w) (updAlt o.w x.ppCount.toNat))).endWriters (updAlt o.w x.ppCount.toNat)).tags
        ∧ (updNreg o.w ≠ 0 → (t.stream f o.stream).pend = (s.stream f o.stream).pend.erase (updNreg o.w)))
    ∧ (∀ (before after : List XferOp) (o : XferOp), x.xfers = before ++ o :: after → o.readDone = true → s.planesHeld o.dDst = false →
      (∀ e ∈ before, ¬ (xferDst e.w = xferDst o.w ∧ e.readDone = true)) →
      ∃ t, exec (.xferComplete f (xferDst o.w) errs) s = .next t ∧ (t.floe f).xfers = before ++ after
        ∧ (t.floe f).tags = (x.endWriters [xferDst o.w]).tags)
    ∧ (∀ o, x.push = some o → o.readDone = true → s.memHeld (x.stashAddr f o.entry.tier o.stack o.entry.off) o.entry.fp = false →
      ∃ t, exec (.stashCopyComplete f false errs) s = .next t ∧ (t.floe f).push = none ∧ (t.floe f).pushCount = x.pushCount + 1)
    ∧ ∀ o, x.pop = some o → s.memHeld (x.stashAddr f o.entry.tier o.stack o.entry.off) o.entry.fp = false →
      ∃ t, exec (.stashCopyComplete f true errs) s = .next t ∧ (t.floe f).pop = none ∧ (t.floe f).tags = (x.endWriters [o.tag]).tags)

/-- What a completing instruction stores lies in its own outputs: with all storage good, every byte of memory outside the ranges its operands name reads as before. -/
def Obligations.UnitStoresStayInOutputs : Prop :=
  ∀ (f : Nat) (s t : State), Claims.Good s → Memory.wf s.mem = true →
    let x := s.floe f
    (∀ o, x.vu = .pass o → (passIsRed o.w = true ∨ passWritable (opOf o.w) o.dDst = true) → exec (.vecPassComplete f) s = .next t →
      Claims.KeepsOutside (if passIsRed o.w then [] else o.dDst.writeRanges o.m0 o.n0 (passMb o.w) (passNb o.w)) s t)
    ∧ (∀ o, x.vu = .upd o → o.alt.map (fun e => e.1) = updSet o.w → (∀ e ∈ o.alt, updFmtOk e.1 e.2 = true) → exec (.updComplete f []) s = .next t →
      Claims.KeepsOutside (updWriteRanges o.m0 o.n0 (updMb o.w) (updNb o.w) (o.alt.map (fun e => e.2))) s t)
    ∧ (∀ o, x.vu = .cond o → (opOf o.w = 0x38 ∨ packFormatOk o = true) → exec (.gatePackComplete f []) s = .next t →
      Claims.KeepsOutside (s.condRanges o) s t)
    ∧ (∀ (tag : Nat) (o : XferOp) (r : List XferOp), takeFirst (fun e => xferDst e.w == tag && e.readDone) x.xfers = some (o, r) →
      exec (.xferComplete f tag []) s = .next t →
      Claims.KeepsOutside (o.data.map (fun e => (e.1, e.2.length)) ++ o.occBits.map (fun e => (o.dDst.occBase + e.1 / 8, 1))) s t)
    ∧ (∀ o, x.push = some o → exec (.stashCopyComplete f false []) s = .next t →
      Claims.KeepsOutside (List.zipWith (fun p l => (x.stashAddr f o.entry.tier o.stack o.entry.off + p.1, l.length)) (stashPlanes o.d) o.data) s t)
    ∧ ∀ o, x.pop = some o → exec (.stashCopyComplete f true []) s = .next t →
      Claims.KeepsOutside (List.zipWith (fun p l => (p.2.1, l.length)) (stashPlanes o.d) (s.stashBytes f [] o)) s t

/-- MESH_PACKET at a port that lets the packet in: a packet whose header fails a check is discarded with its reason; one that passes has its HOP field lowered by one and is kept for the device, or handed to the port the route names, where it is sent at once if no other waits there and it may start, and waits in the queue if it may not. Its TAIL then finds it in passage. TAIL: a packet for the device with a good tag and TAIL waits for its row unless it is too old, a NOTICE or VERDICT among them holds a reserved value, its partition neither runs nor pauses, or its TAIL says STOMP; an ADD or SHIFT packet waits with its STOMP. A packet with a bad tag is never delivered. A packet that went on simply ends. -/
def Obligations.PacketsAreRoutedAndDelivered : Prop :=
  (∀ (port : Nat) (bytes : List Byte) (s : State),
    let x : Port := { s.port port with blocks := bytes.length / 32 }
    let p := readPkt bytes
    let q : MeshPkt := { p with hop := p.hop - 1 }
    let way := s.route (axisDie (port / 4)) q
    port < 12 → x.passage = .none → s.admits port p = .ok () →
    (∀ c, s.headerDrop bytes = some c → exec (.meshPacket port bytes) s = .next ((s.discard c).setPort port { x with passage := .dropped }))
    ∧ (s.headerDrop bytes = none →
      (p.typ = 10 ∨ p.typ = 11 ∨ way = .deliver → exec (.meshPacket port bytes) s = .next (s.setPort port { x with passage := .here q }))
      ∧ (∀ c, p.typ ≠ 10 → p.typ ≠ 11 → way = .drop c →
          exec (.meshPacket port bytes) s = .next ((s.discard c).setPort port { x with passage := .dropped }))
      ∧ ∀ k r, p.typ ≠ 10 → p.typ ≠ 11 → way = .out k r → s.linkRefuses k r = false → (s.port k).st = .up →
        ∃ t, exec (.meshPacket port bytes) s = .next t ∧ (t.port port).passage = .forwarded k r
          ∧ ((s.port k).queue = [] → s.mayStart k r = true → (t.port k).queue = [] ∧ ∃ w, Sent.packet k r false w ∈ t.router.sent)
          ∧ (s.mayStart k r = false → ({ inp := port, p := r, stomp := false } : Queued) ∈ (t.port k).queue)))
  ∧ (∀ (port : Nat) (block : List Byte) (s : State) (p : MeshPkt),
    let x := s.port port
    let s1 := s.setPort port { x with passage := .none, blocks := 0, rxCount := if x.keyed then x.rxCount + 1 else x.rxCount }
    let stomp := tailStomp block
    let open9 := p.typ = 10 ∨ p.typ = 11 ∨ (idMgmt (idOf p.dst) = true ∧ s.rst.phase ≠ .warm)
      ∨ (idMgmt (idOf p.dst) = false ∧ ((s.part p.part).st = .running ∨ (s.part p.part).st = .paused))
    (x.passage = .here p →
      (tailOk x.blocks block = true → s.tooOld p = false → (p.typ = 5 → noticeOk p.payload = true) → (p.typ = 4 → verdictOk p.payload = true) →
        open9 → (stomp = false ∨ p.typ = 1 ∨ p.typ = 2) →
        ∃ t, exec (.tail port block true) s = .next t ∧ (t.port port).passage = .none
          ∧ t.router.inbox = s.router.inbox ++ [{ port := port, p := p, stomp := stomp }])
      ∧ (tailOk x.blocks block = true → stomp = true → p.typ ≠ 1 → p.typ ≠ 2 → exec (.tail port block true) s = .next (s1.discard 6))
      ∧ (tailOk x.blocks block = false → exec (.tail port block true) s = .next (s1.discard 0))
      ∧ ∃ t, exec (.tail port block false) s = .next t ∧ (t.port port).passage = .none ∧ t.router.inbox = s.router.inbox)
    ∧ ∀ k, x.passage = .forwarded k p → tailOk x.blocks block = true → stomp = false → exec (.tail port block true) s = .next s1)

/-- Bring-up of a port: LANE_LOCK makes a cabled DOWN port TRAINING with the slots that are lit, no lane supervised yet; BLOCK_LOCK puts a receive slot whose sync headers are all good in lock; legal markers of the peer on slots in lock place, free or end their lanes; the loss of supervised lanes takes the port DOWN and counts them as relocks, that of others leaves a port past training as it is. ALIGNMENT_MARKER_SEND sends the marker of a slot that sends light. HELLO and keying: HELLO_SEND sends the device's HELLO on a training port whose lanes are aligned and on an UP port that holds lanes; a HELLO that passes its checks keys a training port and refreshes an UP one, and one that fails puts the port in the state that the failed check names; a key exchange that holds on all three counts brings the port UP with the keys its shared secret gives, a failed one leaves it KEYING, reports, and is repeated; an OED session forms under the same three conditions. (A packet is sent at once where no other waits and it may start.) -/
def Obligations.PortsComeUp : Prop :=
  (∀ (k : Nat) (s : State), k < 12 →
    let x := s.port k
    let c := s.chip (k / 4)
    (x.st = .down → s.cabled k = true → c.dump = false → s.linksStart = true → s.portSuspended k = false →
      exec (.laneLock k) s = .next (s.setPort k { x with st := .training, lanes := s.portLit k, txLane := 0, rxPos := [], rxN := 0, syncErr := [] }))
    ∧ (∀ (slot : Nat) (sync : List (BitVec 2)), x.st ≠ .down → x.st ≠ .uncabled → (portSlots k &&& ~~~ c.rxFault).getLsbD slot = true →
      c.rxLocked.getLsbD slot = false → sync ≠ [] → (∀ h ∈ sync, h = 1 ∨ h = 2) →
      exec (.blockLock k slot sync) s = .next ((s.setChip (k / 4) { c with rxLocked := c.rxLocked ||| BitVec.ofNat 64 (2 ^ slot) }).setPort k
        { x with syncErr := x.syncErr.put slot 0 }))
    ∧ (∀ lost : DWord, x.st ≠ .down → x.st ≠ .uncabled →
      let n := (x.rxPos.filter (fun e => lost.getLsbD e.1)).length
      (0 < n → ∃ t, exec (.portLossOfLock k lost) s = .next t ∧ (t.port k).st = .down ∧ (t.port k).keyed = false
        ∧ (t.port k).rxPos = [] ∧ (t.port k).rxN = 0 ∧ (t.port k).queue = []
        ∧ (t.chip (k / 4)).rxLocked = c.rxLocked &&& ~~~ portSlots k ∧ (t.chip (k / 4)).relocks = c.relocks + BitVec.ofNat 64 n)
      ∧ (n = 0 → x.st ≠ .training →
        exec (.portLossOfLock k lost) s = .next (s.setChip (k / 4) { c with rxLocked := c.rxLocked &&& ~~~ (lost &&& portSlots k) })))
    ∧ (∀ marks : List (Nat × List Byte), x.st ≠ .down → x.st ≠ .uncabled →
      (∀ m ∈ marks, m.1 < 64 ∧ (portSlots k &&& c.rxLocked).getLsbD m.1 = true ∧ markerOk m.2 = true
        ∧ s.peer k = some (beAt m.2 1 1, beAt m.2 2 1, beAt m.2 3 1) ∧ beAt m.2 4 1 = opposite k) →
      ((∃ m ∈ marks, markChange m.2 = true) → x.announcedLanes marks ≤ (marks.filter (fun m => markChange m.2 && markPos m.2 < 16)).length) →
      let gone := BitVec.ofNat 64 (packBits 64 (fun i => marks.any (fun m => m.1 == i && markPos m.2 == 0xFE)))
      exec (.alignmentMarker k marks) s = .next ((s.setChip (k / 4) { c with rxLocked := c.rxLocked &&& ~~~ gone }).setPort k
        { x with rxPos := x.placed marks, rxN := x.announcedLanes marks }))
    ∧ ∀ slot, x.st ≠ .uncabled → (s.glow (k / 4) &&& portSlots k).getLsbD slot = true →
      exec (.alignmentMarkerSend k slot) s
        = .next (s.setRouter { s.router with sent := .marker k slot (s.marker k slot false false) :: s.router.sent }))
  ∧ ((∀ (k : Nat) (s : State), k < 12 → s.portSuspended k = false → (s.port k).queue = [] → s.mayStart k (s.helloPkt k) = true →
    ((s.port k).st = .training ∧ (s.port k).isAligned = true) ∨ ((s.port k).st = .up ∧ (s.port k).lanes ≠ 0) →
    ∃ t w, exec (.helloSend k) s = .next t ∧ t.router.sent = .packet k (s.helloPkt k) false w :: s.router.sent)
  ∧ (∀ (s s1 : State) (a : Arrived), s.takeArrived (fun a => a.p.typ == 10 && !s.portSuspended a.port) = some (a, s1) →
    let l := a.p.payload
    let x := s1.port a.port
    helloOk l = true → x.st ≠ .down → x.st ≠ .uncabled →
    (∀ q, s1.helloFails a.port l = some q → ∃ t, exec .hello s = .next t ∧ (t.port a.port).st = q)
    ∧ (s1.helloFails a.port l = none → (x.st = .training ∨ x.st = .up) →
        ∃ t, exec .hello s = .next t ∧ (t.port a.port).st = (if x.st = .training then .keying else .up)
          ∧ (t.port a.port).feat = s1.linkFeat (beAt l 24 8) ∧ (t.port a.port).lastHello = s1.now
          ∧ (t.port a.port).peerCoord = BitVec.ofNat 24 (packCoord (beAt l 4 1, beAt l 5 1, beAt l 6 1))))
  ∧ (∀ (s s1 : State) (a : Arrived),
    s.takeArrived (fun a => a.p.typ == 8 && !(s.portSuspended a.port && (s.port a.port).st == .keying)) = some (a, s1) →
    (∀ chain own sig, a.port < 12 → (s1.port a.port).st = .keying →
      let z := Config.sharedSecret s1.fresh
      let peer := (s1.port a.port).peerSerial
      (chain = true ∧ own = true ∧ sig = true →
        ∃ t, exec (.mgmt (.keyExchange chain own sig)) s = .next t ∧ (t.port a.port).st = .up ∧ (t.port a.port).keyed = true
          ∧ ((t.port a.port).txKey, (t.port a.port).txSalt) = linkKey z s1.fuses.serial peer
          ∧ ((t.port a.port).rxKey, (t.port a.port).rxSalt) = linkKey z peer s1.fuses.serial ∧ (t.port a.port).rxCount = 0)
      ∧ (¬ (chain = true ∧ own = true ∧ sig = true) → exec (.mgmt (.keyExchange chain own sig)) s = .next (s1.linkEvent a.port)))
    ∧ ∀ peer, 12 < a.port → (∀ e ∈ s1.oed.sessions, e.peer ≠ peer) →
      ∃ t, exec (.mgmt (.oedSession peer true true true)) s = .next t
        ∧ t.oed.sessions = { peer := peer, z := Config.sharedSecret s1.fresh } :: s1.oed.sessions)
  ∧ ∀ (k : Nat) (s : State), (s.port k).st = .keying → s.portSuspended k = false → (s.port k).queue = [] → s.mayStart k (s.keyPkt k) = true →
    ∃ t w, exec (.keyingRetry k) s = .next t ∧ t.router.sent = .packet k (s.keyPkt k) false w :: s.router.sent)

/-- Flow control: an FC block replaces the OFF bits of a port; packets of OFF classes stay in its queue, and one that waits alone and may now start leaves; FC_REFRESH sends a block with the OFF bits of the input buffer; after FC_TIMEOUT every class of the port is OFF until a block is heard. ESCAPE_TIMEOUT sends the oldest packet whose productive ports are all OFF by dimension order in the ESCAPE class, where no other waits and it may start. -/
def Obligations.FlowControlHoldsAndReleases : Prop :=
  ∀ (k : Nat) (s : State), (s.port k).st = .up →
    let x := s.port k
    (∀ (main esc refresh : Byte) (b : List Byte), b = fcBlock main esc refresh →
      let y : Port := { x with offMain := main, offEsc := esc, fcSilent := false }
      ∃ t, exec (.fc k b) s = .next t ∧ (t.port k).offMain = main ∧ (t.port k).offEsc = esc ∧ (t.port k).fcSilent = false
        ∧ (∀ q ∈ x.queue, y.off q.p.ch q.p.escClass = true → q ∈ (t.port k).queue)
        ∧ ∀ q, x.queue = [q] → q.p.ch < 8 → (s.setPort k y).mayStart k q.p = true → s.tooOld q.p = false → s.linkRefuses k q.p = false →
            (t.port k).queue = [] ∧ ∃ w, Sent.packet k q.p q.stomp w ∈ t.router.sent)
    ∧ (let m := s.offBits k false x.myMain
       let e := s.offBits k true x.myEsc
       let s1 := s.setPort k { x with myMain := m, myEsc := e, fcRefresh := x.fcRefresh + 1 }
       exec (.fcRefresh k) s = .next (s1.setRouter { s1.router with sent := .fc k (fcBlock m e x.fcRefresh) :: s.router.sent }))
    ∧ exec (.fcTimeout k) s = .next (s.setPort k { x with fcSilent := true })
    ∧ ∀ (before after : List Queued) (q : Queued) (j : Nat) (r : MeshPkt), x.queue = before ++ q :: after →
      let s1 := s.setPort k { x with queue := before ++ after }
      let half := if q.inp < 12 then axisDie (q.inp / 4) else s.localHalf
      let stuck := fun (e : Queued) =>
        s.adaptive e.p && (s.productive (axisDie (k / 4)) e.p).all (fun j => (s.port j).off e.p.ch e.p.escClass)
      (∀ e ∈ before, stuck e = false) → stuck q = true →
      s1.orphanGuard half { q.p with esc := true } (s1.dimOrder half { q.p with esc := true }) = .out j r →
      (s.port j).st = .up → q.p.ch < 8 → s.linkRefuses j r = false → s.tooOld q.p = false → (s1.port j).queue = [] → s1.mayStart j r = true →
      ∃ t w, exec (.escapeTimeout k) s = .next t ∧ (t.port j).queue = [] ∧ Sent.packet j r q.stomp w ∈ t.router.sent
        ∧ (j ≠ k → (t.port k).queue = before ++ after)

/-- What waits too long is discarded: LIFETIME drops the packets too old at the head of each queue and in the device, and EJECT discards a packet for a partition that could not be written in time. Epochs: a notice not seen before is noted, names the pending switch if there is none or it was detected in time for it, else the one after; one seen before has no effect. At T_SW the source epoch and the banks change over, the bank left draining for 51 microseconds, and the draining bank then becomes FREE. -/
def Obligations.OldPacketsDropAndEpochsSwitch : Prop :=
  ((∀ s : State, ∃ t, exec .lifetime s = .next t
    ∧ t.router.inbox = s.router.inbox.filter (fun a => !s.tooOld a.p)
    ∧ ∀ k < 12, (t.port k).queue = match (s.port k).queue with | [] => [] | q :: r => if s.tooOld q.p then r else q :: r)
  ∧ ∀ (s s1 : State) (a : Arrived), s.takePkt (fun p => !idMgmt (idOf p.dst) && p.typ != 10 && p.typ != 11) = some (a, s1) →
    exec .eject s = .next (s1.discard 13))
  ∧ ((∀ (s s1 : State) (a : Arrived), s.takePkt (fun p => p.typ == 11) = some (a, s1) → epochOk a.p.payload = true →
    let l := a.p.payload
    let key := (packCoord (beAt l 4 1, beAt l 5 1, beAt l 6 1), beAt l 8 4)
    let sw := beAt l 16 8
    let r := s1.router
    let later := max sw (r.tsw.toNat + 51000)
    (key ∈ r.seen → exec .epoch s = .next s1)
    ∧ (key ∉ r.seen → ∃ t, exec .epoch s = .next t ∧ t.router.seen = key :: r.seen
        ∧ t.router.tsw = (if r.tsw = 0 then BitVec.ofNat 64 sw else r.tsw)
        ∧ t.router.tswNext = (if r.tsw = 0 ∨ sw ≤ r.tsw.toNat + 15000 ∨ (r.tswNext ≠ 0 ∧ later ≤ r.tswNext.toNat + 15000) then r.tswNext
            else BitVec.ofNat 64 later)
        ∧ t.router.srcEpoch = r.srcEpoch))
  ∧ (∀ s : State, s.router.tsw ≠ 0 → (s.router.use0 = .active ∧ s.router.use1 = .free ∨ s.router.use0 = .free ∧ s.router.use1 = .active) →
    exec .epochSwitch s = .next (s.setRouter { s.router with
      srcEpoch := !s.router.srcEpoch,
      use0 := if s.router.use0 = .active then .draining else .active,
      use1 := if s.router.use0 = .active then .active else .draining,
      freeAt := s.router.tsw + 51000, tsw := s.router.tswNext, tswNext := 0, changes := s.router.changesNext, changesNext := [] }))
  ∧ ∀ s : State, (s.router.use0 = .draining ∨ s.router.use1 = .draining) →
    ∃ t, exec .epochBankFree s = .next t
      ∧ t.router.use0 = (if s.router.use0 = .draining then .free else s.router.use0)
      ∧ t.router.use1 = (if s.router.use1 = .draining then .free else s.router.use1)
      ∧ t.router.srcEpoch = s.router.srcEpoch ∧ t.router.tsw = s.router.tsw)

/-- The collective port accepts a ring instruction (COLL.SHIFT of both kinds, COLL.SHIFTADD of both kinds, COLL.PERMUTE) when nothing makes it wait, the port is granted and no fault is met: its tags are taken, the head is issued, and a step of its kind at attempt 0, begun now under the group's timeout, joins the partition's steps. (No packet of the step has come before: those held are processed at once, log 30.) -/
def Obligations.RingStepsAreArmed : Prop :=
  ∀ (f p : Nat) (st : Stream) (arb : Arb) (w : IWord) (s s1 : State) (x : Floe) (c : Instr) (k : StepKind),
    (k = .allgather ∧ c = .collShiftAllgather f st arb) ∨ (k = .rotate ∧ c = .collShiftRotate f st arb)
      ∨ (k = .reduceScatter ∧ c = .collReduceScatter f st arb) ∨ (k = .allreduce ∧ c = .collAllreduce f st arb)
      ∨ (k = .permute ∧ c = .collPermute f st arb) →
    Claims.Head k.code.1 s f st w → collKind w = k.code.2 → s.floePart f = some p →
    s.ringWaits f w = false → Claims.Granted f 4 st arb [collSrc w, collDst w] s s1 x → s1.ringFault p f k w = none →
    (∀ q ∈ (s1.floe (s1.tagKeeper p (collTag w))).early, ¬ (q.tag = collTag w ∧ q.part = p)) →
    ∃ u t, exec c s = .next u ∧ u.stream f st = Claims.issued (s1.stream f st) (u.stream f st).fetch
      ∧ (u.floe f).tags = (x.take [collSrc w] [collDst w]).tags ∧ (u.floe f).weights = x.weights
      ∧ (u.part p).steps = (s1.part p).steps ++ [t]
      ∧ t.floe = f ∧ t.stream = st ∧ t.kind = k ∧ t.tag = collTag w ∧ t.ch = collCh w ∧ t.dist = collDist w
      ∧ some t.dSrc = s1.desc f (collSrc w) ∧ some t.dDst = s1.desc f (collDst w) ∧ t.tagSrc = collSrc w ∧ t.tagDst = collDst w
      ∧ some t.group = Tbl.find (s1.floe f).groups (collGroup w) ∧ t.serial = (s1.part p).serial ∧ t.attempt = 0 ∧ t.complete = false
      ∧ t.begun = s1.now ∧ t.deadline = s1.stepDeadline t.group ∧ t.dhash = t.hash

/-- COLL.VERDICT COMMIT, NORM and BARRIER, where nothing makes them wait, the port is granted and no fault is met: the first floe of a partition arms the verdict's step with its own values, every further floe adds its values to the open step; the result register waits and the head is issued. COLL.STEER asks for a plan with a verdict tag: where the plan is in force it completes at once, else it waits for the verdict; STEER_COMPLETE ends the steers that are due, but for those of a change that still waits for the one that just ended. -/
def Obligations.VerdictsAndSteersAreIssued : Prop :=
  (∀ (f p : Nat) (st : Stream) (arb : Arb) (w : IWord) (s s1 : State) (x : Floe) (c : Instr) (k : StepKind),
    (k = .commit ∧ c = .collVerdictCommit f st arb) ∨ (k = .norm ∧ c = .collVerdictNorm f st arb)
      ∨ (k = .barrier ∧ c = .collVerdictBarrier f st arb) →
    Claims.Head 0x44 s f st w → collKind w = k.code.2 → s.floePart f = some p →
    s.verdictWaits f st w = false → Claims.Granted f 4 st arb [] s s1 x → s1.verdictFault p f w = none →
    let y := s1.stream f st
    let i : Issue := { floe := f, stream := st, rreg := verdictRreg w, creg := BitVec.ofNat 8 (y.regLow 8 (verdictCreg w)),
                       nreg := y.reg32 (verdictNreg w), upd := x.vu.isUpd }
    (∀ t, s1.stepOf p (collTag w) = some t →
      ∃ u, exec c s = .next u ∧ u.stream f st = Claims.issued (y.addPend (verdictRreg w)) (u.stream f st).fetch
        ∧ u.stepOf p (collTag w) = some { t with issues := t.issues ++ [i] })
    ∧ (s1.stepOf p (collTag w) = none →
      (∀ q ∈ (s1.floe (s1.tagKeeper p (collTag w))).early, ¬ (q.tag = collTag w ∧ q.part = p)) →
      ∃ u t, exec c s = .next u ∧ u.stream f st = Claims.issued (y.addPend (verdictRreg w)) (u.stream f st).fetch
        ∧ (u.part p).steps = (s1.part p).steps ++ [t]
        ∧ t.kind = k ∧ t.tag = collTag w ∧ t.issues = [i] ∧ some t.group = Tbl.find x.groups (collGroup w)
        ∧ t.serial = (s1.part p).serial ∧ t.attempt = 0 ∧ t.mine = none ∧ t.result = none
        ∧ t.begun = s1.now ∧ t.deadline = s1.stepDeadline t.group))
  ∧ ((∀ (f p : Nat) (st : Stream) (arb : Arb) (w : IWord) (s s1 : State) (x : Floe),
    Claims.Head 0x43 s f st w → s.floePart f = some p → s.steerWaits f = false → Claims.Granted f 4 st arb [] s s1 x → s1.steerFault p w = none →
    let plan := fld w 99 96
    ∃ u, exec (.collSteer f st arb) s = .next u ∧ u.stream f st = Claims.issued (s1.stream f st) (u.stream f st).fetch
      ∧ Tbl.find (u.part p).steerPlan (collTag w) = some plan
      ∧ (u.part p).steers = if s1.planInForce plan then (s1.part p).steers
          else (s1.part p).steers ++ [{ floe := f, stream := st, rtag := collTag w, plan := plan }])
  ∧ ∀ s : State,
      let c := s.planDone.chip 0
      ∃ u, exec .steerComplete s = .next u
        ∧ ∀ p < 8, (u.part p).steers = (s.part p).steers.filter (fun z => !z.due || (c.next.toList ++ c.after).any (fun e => e.tag == z.rtag)))

/-- COLL_STEP_COMPLETE: an armed ring step all of whose bytes are counted is complete and its writer ends; a ring of one closes at once. STEP_TIMEOUT: below attempt 3 the step begins again at the next attempt with nothing counted but its own copies, and stays complete if it was (a verdict without children may report at once, which is not said here); at attempt 3 it fails and is gone; the floe of a ring step records it with TIMEOUT, and a failed commit leaves its partition FAULTED. A mirror transfer is sent again with a new timer, or fails. SLOW_RESEND sends SLOW around for a step that is slowed or paused. -/
def Obligations.RingStepsCompleteOrReplay : Prop :=
  (∀ (p tag : Nat) (s : State) (t : Step), s.stepOf p tag = some t → t.kind.isTree = false → t.complete = false → t.abandoned = false →
    t.counted = true →
    let x := (s.floe t.floe).endWriters [t.tagDst]
    ∃ u, exec (.collStepComplete p tag) s = .next u
      ∧ (1 < t.group.n → u.stepOf p tag = some { t with complete := true } ∧ (u.floe t.floe).tags = x.tags)
      ∧ (t.group.n ≤ 1 → u.stepOf p tag = none ∧ (u.floe t.floe).tags = (x.endReaders t.reads).tags))
  ∧ (∀ (p : Nat) (s : State),
    (∀ (tag : Nat) (t : Step), tag < 0x10000 → s.stepOf p tag = some t → t.isOpen = true → t.abandoned = false →
      (t.attempt < 3 → (t.kind.isTree = false ∨ t.group.childs ≠ []) → ∃ u, exec (.stepTimeout p tag) s = .next u
        ∧ u.stepOf p tag = some { t with attempt := t.attempt + 1, counts := s.ownCounts t, doneHeld := false, reports := [],
                                         begun := s.now, deadline := s.stepDeadline t.group })
      ∧ (3 ≤ t.attempt → ∃ u, exec (.stepTimeout p tag) s = .next u ∧ u.stepOf p tag = none ∧ t ∈ (u.part p).gone
        ∧ (t.kind.isTree = false → (u.floe t.floe).record.getLsbD 2 = true ∧ (u.floe t.floe).collLastFail = t.lastFail 1)
        ∧ (t.kind = .commit → s.inStep p = true → (u.part p).st = .faulted)))
    ∧ (∀ f, s.floePart f = some p →
      let x := s.floe f
      x.mirTx.sent ≠ 0 → x.mirTx.told = true → x.mirTx.confirmed = false → x.mirTx.failed = false →
      ∃ u, exec (.stepTimeout p (0x10000 + f)) s = .next u
        ∧ (x.mirTx.attempt < 3 → (u.floe f).mirTx = { x.mirTx with attempt := x.mirTx.attempt + 1, deadline := s.now + 200000#64 })
        ∧ (3 ≤ x.mirTx.attempt → (u.floe f).mirTx.failed = true ∧ (u.floe f).record.getLsbD 3 = true))
    ∧ ∀ (tag : Nat) (t : Step), s.stepOf p tag = some t → t.isOpen = true →
      (s.stepSlowed p t = true ∨ (∃ f ∈ t.floes, (s.floe f).held = true) ∨ (s.part p).st = .paused) →
      exec (.slowResend p tag) s = .next (s.around p t 1 t.attempt 0))

/-- VERDICT_CONTRIBUTION: once every floe of the partition has issued the verdict, its updates have completed and a commit's mirror transfers are settled, the partition's own value is joined; with every child's report there, the root sets the result and its moment, which SYSTIME can still hold. VERDICT_COMPLETE, after the plan change of the verdict's steers: the result register of every floe that issued the verdict takes the step byte and key, the step is gone and the key is kept. A commit whose byte is 0 waits for the current and alternate tags to be free, then commits: the step and commit counts and the serial advance, the halves change over and the norm is kept. A commit whose byte is not 0 discards the step. A norm makes the current norm valid. -/
def Obligations.VerdictsContributeAndComplete : Prop :=
  (∀ (p tag : Nat) (s : State) (t : Step), s.stepOf p tag = some t → t.kind.isTree = true → t.isOpen = true → t.mine = none →
    t.abandoned = false → (∀ i ∈ t.issues, i.upd = false) → (∀ f ∈ s.partFloes p, ∃ i ∈ t.issues, i.floe = f) →
    (t.kind = .commit → ∀ f ∈ s.partFloes p, (s.floe f).mirrorSettled = true) →
    let own := s.contribution p t
    (t.childReports.isSome = true → t.group.parent = noEp → s.now.toNat + 60 + 1000 * t.group.guard < 2 ^ 64) →
    ∃ u t1, exec (.verdictContribution p tag) s = .next u ∧ u.stepOf p tag = some t1 ∧ t1.mine = some own ∧ t1.issues = t.issues
      ∧ (t.childReports = none → u = s.putStep p { t with mine := some own })
      ∧ ∀ l, t.childReports = some l →
          (t.group.parent = noEp →
            t1.result = some (l.foldl VVal.combine own, s.now + BitVec.ofNat 64 (60 + 1000 * t.group.guard)))
          ∧ (t.group.parent ≠ noEp → t1.result = none))
  ∧ (∀ (p tag : Nat) (s : State) (t : Step) (v : VVal) (tres : DWord), s.stepOf p tag = some t → t.result = some (v, tres) →
    let x := s.part p
    let s0 := s.steerNow p tag
    (t.kind = .commit → v.byte = 0 → s0.ppIdle p = false → exec (.verdictComplete p tag) s = .next (s0.setPart p { s0.part p with committing := true }))
    ∧ (¬ (t.kind = .commit ∧ v.byte = 0 ∧ s0.ppIdle p = false) →
      ∃ u, exec (.verdictComplete p tag) s = .next u ∧ u.stepOf p tag = none ∧ (u.part p).lastKey = v.key
        ∧ (∀ i ∈ t.issues, i.rreg ≠ 0 → (u.stream i.floe i.stream).reg i.rreg = BitVec.ofNat 64 (v.byte.toNat + v.key.toNat * 2 ^ 32))
        ∧ (t.kind = .norm → ∀ f ∈ s.partFloes p, (u.floe f).gnCur = fSqrt v.q ∧ (u.floe f).curValid = true)
        ∧ (t.kind = .norm ∨ t.kind = .barrier → (u.part p).serial = x.serial ∧ (u.part p).commits = x.commits ∧ (u.part p).discards = x.discards)
        ∧ (t.kind = .commit → v.byte = 0 →
            (u.part p).stepCount = x.stepCount + 1 ∧ (u.part p).commits = x.commits + 1 ∧ (u.part p).discards = x.discards
            ∧ (u.part p).serial = x.serial + 1 ∧ (u.part p).committing = false
            ∧ ∀ f ∈ s.partFloes p, (u.floe f).gnCommit = fSqrt v.q ∧ (u.floe f).mirHalf = !(s.floe f).mirHalf
                ∧ (u.floe f).record = 0 ∧ (u.floe f).curValid = false)
        ∧ (t.kind = .commit → v.byte ≠ 0 →
            (u.part p).stepCount = x.stepCount ∧ (u.part p).commits = x.commits ∧ (u.part p).discards = x.discards + 1
            ∧ (u.part p).serial = x.serial + 1
            ∧ ∀ f ∈ s.partFloes p, (u.floe f).gnCommit = (s.floe f).gnCommit ∧ (u.floe f).mirHalf = (s.floe f).mirHalf
                ∧ (u.floe f).record = 0 ∧ (u.floe f).curValid = false)))

/-- A SHIFT or PERMUTE packet that fits an armed step is counted under its origin or its slot, and with good storage no byte is written outside the piece or segment it belongs to; a ROTATE packet for a member further on only goes on. -/
def Obligations.DataPacketsAreCounted : Prop :=
  ∀ (s s1 : State) (q : MeshPkt) (t : Step), Claims.Fits q t → Claims.Good s → Memory.wf s.mem = true →
    let n := q.payload.length
    let p := q.part
    (Claims.Armed (fun q => q.typ == 1) s s1 q t → s1.tagUse p q.tag ≠ some .tree → t.kind = .allgather →
      ∃ u, exec .shift s = .next u ∧ u.stepOf p q.tag = some (t.count q.member n)
        ∧ Claims.KeepsOutside (Claims.pieceBytes t.dDst (q.member * t.dSrc.dim0b) t.dSrc.dim0b) s u)
    ∧ (Claims.Armed (fun q => q.typ == 1) s s1 q t → s1.tagUse p q.tag ≠ some .tree → t.kind = .rotate →
      ∃ u, exec .shift s = .next u
        ∧ ((q.member + t.dist) % t.group.n = t.group.self →
            u.stepOf p q.tag = some (t.count q.member n) ∧ Claims.KeepsOutside (Claims.pieceBytes t.dDst 0 t.dSrc.dim0b) s u)
        ∧ ((q.member + t.dist) % t.group.n ≠ t.group.self → u.stepOf p q.tag = some t ∧ u.mem = s.mem))
    ∧ (Claims.Armed (fun q => q.typ == 3) s s1 q t → s1.tagUse p q.tag ≠ some .tree → t.kind = .permute →
      let k := q.offset / t.seg
      ∃ u, exec .permute s = .next u ∧ u.stepOf p q.tag = some (t.count k n)
        ∧ Claims.KeepsOutside (Claims.pieceBytes t.dDst (k * t.segRows) t.segRows) s u)

/-- A SHIFTADD packet that fits an armed step, with good storage: in the gather chain its bytes are stored at their place in the floe's scratchpad and counted under their slice; in the reduce chain, with an add unit whose rime check holds, at the slice's owner the sum of the packet and the member's own data is stored and counted, and at any other member no byte of memory changes. -/
def Obligations.SumsAreFormedAndStored : Prop :=
  ∀ (rime : Bool) (s s1 : State) (q : MeshPkt) (t : Step) (unit : Nat), Claims.Fits q t →
    Claims.Armed (fun q => q.typ == 2) s s1 q t → s1.tagUse q.part q.tag ≠ some .tree →
    Claims.Good s → Memory.wf s.mem = true →
    let n := q.payload.length
    let k := q.offset / t.slice
    (t.gathers q = true → isSp (t.dDst.base + q.offset) = true →
      ∃ u, exec (.shiftAdd rime) s = .next u ∧ u.stepOf q.part q.tag = some (t.count k n)
        ∧ Claims.Stored (t.dDst.base + q.offset) q.payload s u)
    ∧ (t.gathers q = false → t.addUnit = some unit → rime = false →
      ∃ u, exec (.shiftAdd rime) s = .next u
        ∧ (k ≠ t.group.self → u.stepOf q.part q.tag = some t ∧ u.mem = s.mem)
        ∧ (k = t.group.self → isSp (t.addDst q.offset) = true →
            u.stepOf q.part q.tag = some (t.count k n)
            ∧ Claims.Stored (t.addDst q.offset) (addBlocks q.payload (s.fill [] (t.dSrc.base + q.offset) n)).1 s u))

/-- A VERDICT packet of an armed verdict: a child's report is kept under the child; the parent's result is taken with its moment, and applied at once where that moment has passed; one from any other sender is refused with COLL_REFUSED. Notices at an armed step, of a ring or a tree: SLOW extends its deadline, to at most 100 ms after the attempt began; REPLAY moves it to a later attempt (a verdict without children may report at once, which is not said here); FAIL and MISMATCH end it as failed, with the reason in its floes. DONE, for a complete ring step at member 0, closes it and releases its sources, and at any other member is held; CLOSE closes a ring step and releases its sources. A tree step refuses DONE and CLOSE. -/
def Obligations.VerdictPacketsAndNotices : Prop :=
  (∀ (s s1 : State) (q : MeshPkt) (t : Step), Claims.Armed (fun q => q.typ == 4) s s1 q t → s1.tagUse q.part q.tag = some .tree →
    q.attempt = t.attempt → q.dhash = t.dhash → q.slow = false →
    let tres := beAt q.payload 12 8
    let sender := epOfAddr q.src
    let v := readVerdict q.payload
    let fromParent := t.group.parent ≠ noEp ∧ sameMember t.group.parent sender = true
    (∀ i, tres = 0 → i < t.group.childs.length → sameMember (t.group.childs.getD i noEp) sender = true →
      (∀ j < i, sameMember (t.group.childs.getD j noEp) sender = false) →
      (t.group.parent = noEp → s.now.toNat + 60 + 1000 * t.group.guard < 2 ^ 64) →
      ∃ u t1, exec .verdict s = .next u ∧ u.stepOf q.part q.tag = some t1 ∧ t1.reports = t.reports.put i v)
    ∧ (tres ≠ 0 → fromParent → s.now.toNat ≤ tres →
      ∃ u, exec .verdict s = .next u ∧ u.stepOf q.part q.tag = some { t with result := some (v, BitVec.ofNat 64 tres) })
    ∧ (tres ≠ 0 → fromParent → tres < s.now.toNat → t.kind = .norm ∨ t.kind = .barrier →
      ∃ u, exec .verdict s = .next u ∧ u.stepOf q.part q.tag = none ∧ (u.part q.part).lastKey = v.key)
    ∧ (tres ≠ 0 ∧ ¬ fromParent ∨ tres = 0 ∧ (∀ c ∈ t.group.childs, sameMember c sender = false) →
      exec .verdict s = .next ((s1.sawAttempt q.part t.tag t.serial q.attempt).discard 15)))
  ∧ (∀ (s s1 : State) (q : MeshPkt) (t : Step),
    let p := q.part
    let armed := fun (k : Nat) => Claims.Armed (fun q => q.typ == 5 && noticeKind q == k && !(isMirrorNotice q && q.step == (s.part q.part).serial + 1)) s s1 q t
    let closed := fun (c : Instr) => ∃ u, exec c s = .next u ∧ u.stepOf p q.tag = none
      ∧ (u.floe t.floe).tags = ((s1.floe t.floe).endReaders t.reads).tags
    (armed 1 → ∃ u t1, exec .noticeSlow s = .next u ∧ u.stepOf p q.tag = some t1 ∧ t1.attempt = t.attempt
        ∧ t1.deadline = BitVec.ofNat 64 (min (max t.deadline.toNat (s.now.toNat + min (8000 * t.group.timeout) 100000000)) (t.begun.toNat + 100000000)))
    ∧ (armed 2 → t.attempt < noticeAtt q → (t.kind.isTree = false ∨ t.group.childs ≠ []) →
        ∃ u t1, exec .noticeReplay s = .next u ∧ u.stepOf p q.tag = some t1 ∧ t1.attempt = noticeAtt q ∧ t1.begun = s.now
          ∧ t1.deadline = s.stepDeadline t.group ∧ t1.reports = [] ∧ t1.doneHeld = false ∧ t1.complete = t.complete)
    ∧ (∀ (k : Nat) (c : Instr) (reason : Nat), (k = 3 ∧ c = .noticeFail ∧ reason = 3) ∨ (k = 4 ∧ c = .noticeMismatch ∧ reason = 2) → armed k →
        ∃ u, exec c s = .next u ∧ u.stepOf p q.tag = none
          ∧ ∀ f ∈ t.floes, (u.floe f).record.getLsbD 2 = true ∧ (u.floe f).collLastFail = t.lastFail reason)
    ∧ (t.kind.isTree = false → noticeAtt q = t.attempt →
        (armed 5 → t.group.self = 0 → t.complete = true → closed .noticeDone)
        ∧ (armed 5 → t.group.self ≠ 0 → ∃ u, exec .noticeDone s = .next u ∧ u.stepOf p q.tag = some { t with doneHeld := true })
        ∧ (armed 6 → closed .noticeClose))
    ∧ (t.kind.isTree = true → ∀ (k : Nat) (c : Instr), (k = 5 ∧ c = .noticeDone) ∨ (k = 6 ∧ c = .noticeClose) → armed k →
        exec c s = .next ((s1.sawAttempt p t.tag t.serial q.attempt).discard 0)))

/-- With good storage, a MIRROR packet of the partition's step is stored at its place in the non-current half the image's map names, and counted under its sender; a BULK packet for a running or pausing partition or the management endpoint is taken, and its bytes have no further meaning here (log 33). -/
def Obligations.MirrorAndBulkArrive : Prop :=
  (∀ (s s1 : State) (a : Arrived) (e : Nat × Nat × Nat × Nat),
    let q := a.p
    let p := q.part
    let x := s.part p
    s.takePkt (fun q => q.typ == 6 && q.step != (s.part q.part).serial + 1) = some (a, s1) → s.inStep p = true → q.step = x.serial →
    ((x.image.getD {}).mirMap).find? (fun e => e.1 == q.member && e.2.1 == q.tag) = some e →
    let at0 := (if x.mirHalf then e.2.2.1 else e.2.2.2) + q.offset
    s1.accessFault p at0 q.payload.length = none →
    Claims.Good s → s.lostAt at0 = false → Memory.wf s.mem = true →
    ∃ u, exec .mirror s = .next u ∧ Tbl.get 0 (u.part p).mirGot (mirKey q) = Tbl.get 0 x.mirGot (mirKey q) + q.payload.length
      ∧ Claims.Stored at0 q.payload s u)
  ∧ ∀ (s s1 : State) (a : Arrived), s.takePkt (fun q => q.typ == 7) = some (a, s1) →
    (idMgmt (idOf a.p.dst) = true ∨ s.inStep a.p.part = true) → exec .bulk s = .next s1

/-- The endpoint's buffers: a store that is not 8 or 64 aligned bytes faults in the host; stored bytes wait in a disabled endpoint, a store that finds no room stalls, and after a framing error stores are discarded; in an enabled endpoint with nothing else waiting the packet that a store completes leaves on the module it is given, and where its credit, CRC and sequence hold it joins the commands that wait. A load takes the next 8 bytes where no response is held back, or returns 0 with nothing waiting; RESYNC clears the framing error and what is stored; a reserved opcode is answered BAD_OPCODE, and a reserved operation is refused as having a wrong field. -/
def Obligations.EndpointBuffers : Prop :=
  ∀ (e : Nat) (s : State),
    let x := s.ep e
    (∀ (off : Nat) (b : List Byte) (route : List Nat), ¬ (b.length = 8 ∧ off % 8 = 0) → ¬ (b.length = 64 ∧ off % 64 = 0) →
      exec (.gwyTxStore e off b route) s = .fault .hostAccess)
    ∧ (∀ (off : Nat) (b : List Byte) (route : List Nat), (b.length = 8 ∧ off % 8 = 0) ∨ (b.length = 64 ∧ off % 64 = 0) → e < 8 →
      (x.txError = true → exec (.gwyTxStore e off b route) s = .next s)
      ∧ (x.txError = false → x.enable = false → x.stalled = [] → exec (.gwyTxStore e off b route) s
          = .next (s.setEp e (if x.tx.length + b.length ≤ 524288 then { x with tx := x.tx ++ b } else { x with stalled := [b] })))
      ∧ (let l := (x.tx ++ b).take (32 + 4 * beAt (x.tx ++ b) 2 2)
         let c := readCmd e l
         let m := s.upModule route.head?
         x.txError = false → x.enable = true → x.stalled = [] → x.transit = [] → x.tx.length + b.length ≤ 524288 → beAt (x.tx ++ b) 2 2 ≤ 16384 →
         x.tx.length + b.length = padded8 (32 + 4 * beAt (x.tx ++ b) 2 2) → m < 4 → s.modOpen m = true →
         s.orphanModule m = false → s.creditUsed c + c.cost ≤ 262144 → crcOk l = true → c.seq = Tbl.get 0 x.expSeq c.part → c.part < 8 ∨ c.part = 15 →
         ∃ t, exec (.gwyTxStore e off b route) s = .next t ∧ t.cmdq = s.cmdq ++ [c] ∧ (t.ep e).tx = []
           ∧ (t.ep e).expSeq = x.expSeq.put c.part (c.seq + 1)))
    ∧ (e < 8 → x.rx = [] → exec (.gwyRxLoad e) s = .next (s.setEp e { x with lastLoad := zeros 8 }))
    ∧ (∀ (i : RxItem) (r : List RxItem), x.rx = i :: r → x.heldRx = [] →
      let rest := if i.bytes.length ≤ 8 then r else { i with bytes := i.bytes.drop 8 } :: r
      exec (.gwyRxLoad e) s = .next (s.setEp e { x with lastLoad := i.bytes.take 8, rx := rest }))
    ∧ (e < 8 → exec (.resync e) s = .next (s.setEp e { x with txError := false, tx := [], stalled := [] }))
    ∧ ∀ (pv : Nat) (c : GwyPkt) (s1 : State), s.takeCmd pv (fun c => !opcodes.contains c.opcode || reservedOp c) = some (c, s1) →
      (c.opcode ∉ opcodes → exec (.badOpcode pv) s = .next (s1.respond c 0x05 0 0 0 []))
      ∧ (c.opcode ∈ opcodes → ∃ t, exec (.badOpcode pv) s = .next t
          ∧ some t = s1.acceptCmd c false true true (fun _ => true))

/-- CLAIM, once the device is ready and not in manufacturing mode, grants the groups and units it names where they are free, binds the partition to the endpoint, and is answered OK; a claim that does not fit is answered NOT_FIT with its code and changes nothing else. RELEASE, while no calving moves a floe of the partition, begins the thaw: keys destroyed, floes reset and their scratchpads zero, steering returned. THAW_DONE leaves no byte of its units listed and frees the partition. -/
def Obligations.ClaimsAndReleases : Prop :=
  ∀ (p : Nat) (s s1 : State) (c : GwyPkt),
    (Claims.Runs 0x01 p (fun c => c.arg0 == 0 && c.arg1 == 0 && claimZeros c.payload) true false (fun st => st == .free) s c s1 →
      s.rst.phase = .ready → claimOk c.payload = true → s.sec.mfg = false →
      (∀ code, s1.claimMisfit c.payload = some code → exec (.claim p) s = .next (s1.respond c 0x03 code 0 0 []))
      ∧ (s1.claimMisfit c.payload = none → ∃ t, exec (.claim p) s = .next t
          ∧ (t.part p).st = .claimed ∧ (t.part p).owner = some c.src ∧ (t.part p).keys = true
          ∧ (t.part p).groups = BitVec.ofNat 26 (leAt c.payload 0 4)
          ∧ (t.part p).near = unitsOf (readRanges (leAt c.payload 8 2) (c.payload.drop 16))
          ∧ (t.part p).claimNo = s.sec.claims + 1 ∧ t.sec.claims = s.sec.claims + 1
          ∧ (leAt c.payload 4 1 = 1 → t.steer = some p) ∧ (leAt c.payload 4 1 ≠ 1 → t.steer = s.steer)
          ∧ ∀ q, q ≠ p → t.part q = s.part q))
    ∧ (Claims.Runs 0x02 p Claims.bare true false (fun st => st != .free && st != .thawing) s c s1 → s.calving p = false →
      ∃ t, exec (.release p) s = .next t ∧ (t.part p).st = .thawing ∧ (t.part p).keys = false ∧ (t.part p).image = none
        ∧ (t.part p).steps = [] ∧ t.steer ≠ some p
        ∧ ∀ f ∈ s.partFloes p, t.floe f = {} ∧ (Memory.wf s.mem = true → ∀ off, off < spSize → t.byte (spAddr f off) = 0))
    ∧ ((s.part p).st = .thawing → ∃ t, exec (.thawDone p) s = .next t
        ∧ t.part p = { claimNo := (s.part p).claimNo }
        ∧ (Memory.wf s.mem = true → ∀ b ∈ (s.part p).unitBases, ∀ i, i < 2 ^ 30 → cellAt t.mem (b + i) = none))

/-- Loading: LOAD_BEGIN opens a load of 4 KiB to 4 GiB, resetting the partition where it had more than a claim; a LOAD_CHUNK that continues it, well formed, inside the grant and met by no bad storage, adds its bytes and writes its runs to their places; LOAD_END, the first to have come, of a whole image that is signed, not too old, well formed and fitting installs it, and the partition is LOADED; START leaves a loaded partition in which some floe's FWD stream has an entry point running at its image's step, serial 0, with that stream at its entry point and S1 to S4 set. -/
def Obligations.ImagesLoadAndStart : Prop :=
  ∀ (p : Nat) (s s1 : State) (c : GwyPkt),
    (Claims.Runs 0x03 p (fun c => c.arg1 == 0 && c.payload.isEmpty) true false (fun st => st == .claimed || st == .loaded || st == .degraded) s c s1 →
      s.calving p = false → 4096 ≤ c.arg0.toNat → c.arg0.toNat ≤ 2 ^ 32 →
      ∃ t, exec (.loadBegin p) s = .next t ∧ (t.part p).st = .claimed ∧ (t.part p).image = none ∧ (t.part p).load = some { len := c.arg0.toNat }
        ∧ ((s1.part p).st ≠ .claimed → ∀ f ∈ s.partFloes p, t.floe f = {}))
    ∧ (∀ ld, Claims.Runs 0x04 p (fun c => c.arg1 == 0) true false (fun st => st == .claimed && (s1.part p).load.isSome) s c s1 →
      (s1.part p).load = some ld →
      let all := ld.bytes ++ c.payload
      let rs := chunkRuns all ld.bytes.length all.length
      c.arg0.toNat = ld.bytes.length → all.length ≤ ld.len → (ld.bytes = [] → 64 ≤ all.length) → imgHeaderOk all ld.len = true →
      (∀ i < imgArrived all, imgEntryOk all ld.len (s1.partFloes p).length i = true) → (∀ r ∈ rs, s1.runOk p r = true) →
      (∀ r ∈ rs, ∀ a, secTarget (s1.partFloes p) r.1 r.2.1 = some a → s1.memHeld a r.2.2 = false) →
      (s1.writeRuns p all rs).2 = true →
      ∃ t, exec (.loadChunk p) s = .next t ∧ (t.part p).load = some { ld with bytes := all }
        ∧ t = (((s1.setPart p { s1.part p with load := some { ld with bytes := all } }).respond c 0 0 0 0 []).writeRuns p all rs).1)
    ∧ (∀ ld slot, Claims.Runs 0x05 p Claims.bare true false (fun st => st == .claimed && (s1.part p).load.isSome) s c s1 →
      (∀ d, s.loaderNext = some d → d.part = p) → (s1.part p).load = some ld → ld.len ≤ ld.bytes.length → s1.imageSigner ld.bytes = some slot →
      (Tbl.get 0 s1.flash.mins slot).toNat ≤ leAt ld.bytes 48 4 → tablesOk ld.bytes (s1.partFloes p).length = true →
      s1.imageMisfit p ld.bytes = none → s1.collMisfit p ld.bytes = none → s1.memMisfit p ld.bytes = none →
      ∃ t, exec (.loadEnd p) s = .next t ∧ (t.part p).st = .loaded ∧ (t.part p).load = none
        ∧ (t.part p).image = some (readImage ld.bytes (s1.imageFloes p ld.bytes).length))
    ∧ ∀ (im : Image) (i f : Nat), Claims.Runs 0x06 p Claims.bare true false (fun st => st == .loaded) s c s1 → (s1.part p).image = some im →
      (s.partFloes p)[i]? = some f → (Tbl.get [] im.entries i).getD 0 0xFFFFFFFF ≠ 0xFFFFFFFF#32 →
      ∃ t, exec (.start p) s = .next t ∧ (t.part p).st = .running ∧ (t.part p).stepCount = im.step ∧ (t.part p).serial = 0
        ∧ (t.part p).steps = [] ∧ (t.floe f).fwd.st = .running
        ∧ (t.floe f).fwd.pc = BitVec.setWidth 64 ((Tbl.get [] im.entries i).getD 0 0xFFFFFFFF)
        ∧ (t.floe f).fwd.reg 1 = BitVec.ofNat 64 f ∧ (t.floe f).fwd.reg 2 = BitVec.ofNat 64 i
        ∧ (t.floe f).fwd.reg 3 = BitVec.ofNat 64 (s.partFloes p).length ∧ (t.floe f).fwd.reg 4 = BitVec.setWidth 64 im.step
        ∧ (t.floe f).gnCommit = im.gn ∧ (t.floe f).tags = []

/-- PAUSE stops a running partition's streams at their boundaries, and is answered at once where no step is open; else it waits, and at its expiry the open steps are abandoned. RESUME, with no abandoned step, sets the paused streams running again. ABORT of a partition without steps, once nothing accepted is left to complete, leaves the partition LOADED (or DEGRADED) with every stream idle and no step; until then it waits. -/
def Obligations.PauseResumeAbort : Prop :=
  ∀ (p : Nat) (s s1 : State) (c : GwyPkt),
    (Claims.Runs 0x07 p Claims.bare true false (fun st => st == .running) s c s1 → s.calving p = false →
      ∃ t, exec (.pause p) s = .next t ∧ (t.part p).st = .paused ∧ (t.part p).steps = (s.part p).steps
        ∧ (∀ f ∈ s.partFloes p, ∀ st, t.stream f st = (s.stream f st).pause)
        ∧ ((s.part p).openSteps = [] → t = ((s1.mapStreams p StreamSt.pause).setPart p { s.part p with st := .paused }).respond c 0 0 0 0 [])
        ∧ ((s.part p).openSteps ≠ [] → (t.part p).pausing = true ∧ t.cmdq = { c with busy := true } :: s1.cmdq))
    ∧ ((s.part p).pausing = true → ∃ t, exec (.pauseWaitExpiry p) s = .next t ∧ (t.part p).pausing = false
        ∧ (t.part p).steps = (s.part p).steps.map (fun t => if t.isOpen then { t with abandoned := true } else t))
    ∧ (Claims.Runs 0x08 p Claims.bare true false (fun st => st == .paused) s c s1 → (∀ t ∈ (s.part p).steps, t.abandoned = false) →
      ∃ t, exec (.resume p) s = .next t ∧ (t.part p).st = .running ∧ (∀ f ∈ s.partFloes p, ∀ st, t.stream f st = (s.stream f st).resume)
        ∧ t = ((s1.mapStreams p StreamSt.resume).setPart p { s.part p with st := .running }).respond c 0 0 0 0 [])
    ∧ (Claims.Runs 0x09 p Claims.bare true false (fun st => st == .running || st == .paused || st == .degraded || st == .faulted) s c s1 →
      s.calving p = false → (s.part p).steps = [] →
      ((s1.stopStreams p).floesIdle p = true → ∃ t, exec (.abort p) s = .next t
        ∧ (t.part p).st = (if (s.part p).st = .degraded then .degraded else .loaded) ∧ (t.part p).steps = []
        ∧ ∀ f ∈ s.partFloes p, ∀ st, t.stream f st = { issued := (s.stream f st).issued } ∧ (t.floe f).vflags = 0 ∧ (t.floe f).tags = [])
      ∧ ((s1.stopStreams p).floesIdle p = false → exec (.abort p) s = .next { s1.stopStreams p with cmdq := c :: s1.cmdq }))

/-- MEM_WRITE and MEM_READ inside the grant, with good storage that no page holds back: the bytes are stored, or returned, and the command is answered OK. TELEM returns the record of the partition or the device. -/
def Obligations.HostReadsAndWritesMemory : Prop :=
  ∀ (pv : Nat) (s s1 : State) (c : GwyPkt),
    let a := c.arg0.toNat
    (Claims.Runs 0x10 pv (fun c => c.arg1 == 0) true false legalMem s c s1 → a % 4 = 0 → s1.hostMay pv a c.payload.length true = true →
      s1.memHeld a c.payload.length = false → s.allGood [] a = true → s.lostAt a = false →
      exec (.memWrite pv []) s = .next ({ s1.respond c 0 0 0 0 [] with mem := putBytes s.mem a c.payload } : State).settle)
    ∧ (Claims.Runs 0x11 pv (fun c => c.payload.isEmpty) true false legalMem s c s1 → 4 ≤ c.arg1.toNat → c.arg1.toNat ≤ 65536 → c.arg1.toNat % 4 = 0 →
      a % 4 = 0 → s1.hostMay pv a c.arg1.toNat false = true → s1.memHeld a c.arg1.toNat = false → s.allGood [] a = true →
      exec (.memRead pv []) s = .next (s1.respond c 0 0 0 0 (s.bytes a c.arg1.toNat)).settle)
    ∧ (Claims.Runs 0x40 pv (fun c => c.arg1 == 0 && c.payload.isEmpty && c.arg0 == (if pv = 15 then 0 else 1)) true true (fun st => st != .free) s c s1 →
      exec (.telem pv) s = .next (s1.respond c 0 0 0 0 (if pv = 15 then s1.telemDevice none else s1.telemPart pv)))

/-- CSR_WRITE of registers that it may reach and that none of them holds back writes them all, in ascending order; one illegal value refuses the whole command, writes none and is counted. CSR_READ answers the words; SNAPSHOT, with good storage, stores the 1,024 bytes of each floe page of the partition in floe order. A page header's controls: HOLD and GO act on a page that a block reset reaches, GO beginning the reset with the handshake or, with ISOLATE set, without it; elsewhere a set bit is counted. FREEZE keeps the counters as they are. -/
def Obligations.RegistersAndHeadersAct : Prop :=
  (∀ (pv : Nat) (s s1 : State) (c : GwyPkt),
    let a := c.arg0.toNat
    let n := c.arg1.toNat
    (Claims.Runs 0x12 pv (fun _ => true) true true legalMem s c s1 → 0 < n → n ≤ 16 → c.payload.length = 4 * n →
      s1.csrReach c a n = true → (∀ b ∈ csrAddrs a n, s1.present (csrDie b) (csrPage b) = true) →
      ((s1.ep c.src).mgmt = true ∨ ∀ b ∈ csrAddrs a n, partWritable b = true) → s1.csrWaits (csrAddrs a n) = false →
      let ws := (List.range n).map (fun i => (BitVec.ofNat 32 (leAt c.payload (4 * i) 4) : Word))
      (s1.badWord c.src a ws = none → exec (.csrWrite pv) s = .next ((s1.respond c 0 0 0 0 []).writeWords c.src a ws))
      ∧ ∀ b, s1.badWord c.src a ws = some b → exec (.csrWrite pv) s = .next ((s1.countErr (csrDie b) (csrPage b)).respond c 0x06 4 0 0 []))
    ∧ (Claims.Runs 0x13 pv (fun c => c.payload.isEmpty) true true legalMem s c s1 → 0 < n → n ≤ 16 → s1.csrReach c a n = true →
      exec (.csrRead pv) s = .next ((s1.readWords c.src n a false).1.respond c 0 0 0 0 ((s1.readWords c.src n a false).2.flatMap (leBytes 4)))
      ∧ (n = 1 → wideLow a = false → wideHigh a = false →
          exec (.csrRead pv) s = .next (s1.respond c 0 0 0 0 (leBytes 4 (s1.csrWord a)))))
    ∧ (Claims.Runs 0x41 pv (fun c => c.arg1 == 0 && c.payload.isEmpty) true false (fun st => st == .loaded || st == .paused || st == .degraded || st == .faulted) s c s1 →
      let len := 1024 * (s.partFloes pv).length
      a + len < cxlBase → s1.hostMay pv a len true = true → s1.memHeld a len = false → s.allGood [] a = true → s.lostAt a = false →
      let bytes := (s.partFloes pv).flatMap (fun f => s1.pageImage (s1.floePage f).1 (s1.floePage f).2)
      exec (.snapshot pv) s = .next ({ s1.respond c 0 0 len 0 [] with mem := putBytes s.mem a bytes } : State).settle))
  ∧ (∀ (die page : Nat) (s : State), s.present die page = true →
    let h := s.hdr die page
    (s.resetOk die page = true →
      (h.resetState = 0 → ∃ t, exec (.resetCtrlGo die page) s = .next t ∧ (t.hdr die page).resetState = (if h.isolate then 2 else 1)
        ∧ (t.hdr die page).isolate = h.isolate ∧ (t.hdr die page).hold = h.hold)
      ∧ exec (.ctrlHold die page true) s = .next (s.setHdr die page { h with hold := true })
      ∧ ∃ t, exec (.ctrlHold die page false) s = .next t ∧ (t.hdr die page).hold = false)
    ∧ (s.resetOk die page = false → exec (.resetCtrlGo die page) s = .next (s.countErr die page)
        ∧ exec (.ctrlHold die page true) s = .next (s.countErr die page) ∧ exec (.ctrlHold die page false) s = .next s)
    ∧ (h.freeze = false → exec (.ctrlFreeze die page true) s = .next (s.setHdr die page { h with freeze := true, frozen := s.freezeTable die page }))
    ∧ exec (.ctrlFreeze die page false) s = .next (s.setHdr die page { h with freeze := false, frozen := [] }))

/-- REGISTER_WRITE: ERR_STATUS loses the bits written as 1 and has those that hardware sets in the same cycle; ERR_MASK and INT_ENABLE take the value; a 32-bit block register out of reset takes a legal value, and an illegal one is refused and counted; an endpoint's ENABLE and MGMT take the value while it is not locked, and its LOCK takes the first write only. Register writes with rows of their own: the watchdog is kicked; a FREE routing bank takes its bits, but does not make a port usable that is being drained, and one in use refuses them; the power cap takes a legal value and refuses another; SYSTIME is set once, at the root, before any port has come up, and any other write of TIME_SET is counted. -/
def Obligations.RegisterRowsTakeEffect : Prop :=
  ((∀ (a : Nat) (v hw : Word) (s : State),
    let die := csrDie a
    let page := csrPage a
    let off := csrOff a
    let h := s.hdr die page
    epReg a = none → csrBase 0 ≤ a → a < csrBase 2 → a % 4 = 0 → s.present die page = true →
    (off = 0x018 → ∃ t, exec (.registerWrite a v hw) s = .next t
      ∧ ∀ n < 32, (t.hdr die page).errStatus.getLsbD n
          = ((h.errStatus.getLsbD n && !v.getLsbD n) || (bitOf hw.toNat n && bitOf (errBits (pageType page)) n)))
    ∧ (off = 0x01C → exec (.registerWrite a v hw) s = .next (s.setHdr die page { h with errMask := v }))
    ∧ (off = 0x028 → exec (.registerWrite a v hw) s = .next (s.setHdr die page { h with intEnable := v }))
    ∧ (0x40 ≤ off → wideLow a = false → wideHigh a = false → h.resetState = 0 →
      (s.legalReg page off v.toNat = true → exec (.registerWrite a v hw) s = .next (s.writeBlk die page off v.toNat hw))
      ∧ (s.legalReg page off v.toNat = false → exec (.registerWrite a v hw) s = .next (s.countErr die page))))
  ∧ ∀ (a e : Nat) (v hw : Word) (s : State), epReg a = some (e, 0) → (s.ep e).tx = [] →
    let x := s.ep e
    let y := if x.lock then x else { x with enable := v.getLsbD 0, mgmt := v.getLsbD 1 }
    exec (.registerWrite a v hw) s = .next (s.setEp e (if x.cfgDone then y else { y with lock := v.getLsbD 31, cfgDone := true })))
  ∧ (∀ s : State,
    exec .rstWdtKick s = .next (s.setRst { s.rst with kicked := s.now })
    ∧ (∀ v : Word,
        let set := fun (old b : RBank) => b.adapt = BitVec.ofNat 3 (v.toNat / 4096)
          ∧ ∀ k < 12, b.usable.getLsbD k = (v.getLsbD k && (old.usable.getLsbD k || !s.drained k))
        (s.router.use0 = .free → ∃ b, set s.router.bank0 b ∧ exec (.routerBank 0 v) s = .next (s.setRouter { s.router with bank0 := b }))
        ∧ (s.router.use1 = .free → ∃ b, set s.router.bank1 b ∧ exec (.routerBank 1 v) s = .next (s.setRouter { s.router with bank1 := b }))
        ∧ (s.router.use0 ≠ .free → exec (.routerBank 0 v) s = .next (s.countErr s.lead 0xA0))
        ∧ (s.router.use1 ≠ .free → exec (.routerBank 1 v) s = .next (s.countErr s.lead 0xA0)))
    ∧ (∀ w : Word, (1000 ≤ bitsOf w.toNat 0 16 ∧ bitsOf w.toNat 0 16 ≤ s.variant.maxWatts →
          exec (.pwrCap w) s = .next { s with power := { s.power with cap := BitVec.ofNat 16 (bitsOf w.toNat 0 16) } })
        ∧ (¬ (1000 ≤ bitsOf w.toNat 0 16 ∧ bitsOf w.toNat 0 16 ≤ s.variant.maxWatts) → exec (.pwrCap w) s = .next (s.countErr s.lead 0xB0)))
    ∧ ∀ v : DWord,
        (s.isRoot = true ∧ s.time.everUp = false ∧ s.time.setDone = false →
          exec (.timeSet v) s = .next { s with time := { s.time with setDone := true, setVal := v, systime := v, frac := 0 } })
        ∧ (¬ (s.isRoot = true ∧ s.time.everUp = false ∧ s.time.setDone = false) → exec (.timeSet v) s = .next (s.countErr s.lead 0xC2)))

/-- SYSTIME: a device that is not the root names its parent port and asks it for the time, where the packet may start; a request is answered on the port it came from, unless that is being drained; a parent's reply gives the offset ((t2 - t1) - (t4 - t3)) / 2, by which SYSTIME steps until the third offset in a row below 1 ns aligns the device, and slews afterwards. A lost reference clock raises the flag and holds the last frequency; a valid one is locked to again. -/
def Obligations.TimeIsExchanged : Prop :=
  (∀ (s : State) (k : Nat), s.isRoot = false → s.parentPort = some k →
    ∃ t, exec .timeExchange s = .next t ∧ t.time.parent = BitVec.ofNat 4 k ∧ t.time.systime = s.time.systime
      ∧ (s.drained k = false → (s.port k).feat.getLsbD 4 = true → (s.port k).queue = [] → s.mayStart k (s.timePkt k) = true →
          ∃ w, Sent.packet k (s.timePkt k) false w ∈ t.router.sent))
  ∧ (∀ (s s1 : State) (a : Arrived), s.takePkt (fun p => p.typ == 9) = some (a, s1) →
    (∀ t1, a.port < 12 → s1.drained a.port = false → exec (.time (.request t1)) s = .next (s1.sendOn 12 a.port (s1.timePkt a.port) false))
    ∧ ∀ (t1 t2 t3 t4 : Int) (ep : Word) (sw : DWord), s1.isRoot = false → s1.parentPort = some a.port →
      let th := ((t2 - t1) - (t4 - t3)) / 2
      ∃ t, exec (.time (.reply t1 t2 t3 t4 ep sw)) s = .next t ∧ t.time.offset = BitVec.ofInt 32 th
        ∧ (s.time.aligned = true → t.time.slew = th * 10 ∧ t.time.systime = s.time.systime ∧ t.time.aligned = true)
        ∧ (s.time.aligned = false →
            t.time.good = (if th.natAbs < 1000 then s.time.good + 1 else 0) ∧ (t.time.aligned = true ↔ 3 ≤ t.time.good)
            ∧ t.time.systime = BitVec.ofInt 64 (((s.time.systime.toNat : Int) * 10000 + s.time.frac + th * 10) / 10000)))
  ∧ ∀ s : State,
    (s.time.refLost = false → ∃ t, exec .refclkLoss s = .next t ∧ t.time = { s.time with refLost := true }
      ∧ (t.hdr s.lead 0xC2).errStatus.getLsbD 0 = true)
    ∧ exec .refclkRelock s = .next { s with time := { s.time with refLost := false } }

/-- LASER_SAMPLE keeps the average of up to 100 samples against the laser's reference; a spare that is not tuned has no more. Below NORMAL's bounds the wavelength of an ACTIVE laser goes to WARN at -1.0 dB and PREPARED at -1.5 dB, at -2.0 dB begins its swap where a spare is READY and is RETIRED where none is left, and goes back 0.25 dB above. A single sample at -6.0 dB of a laser that is ACTIVE, TUNING or READY, or a loss of lock, fails the laser. (dB in hundredths.) -/
def Obligations.LaserAveragesMoveWavelengths : Prop :=
  ∀ (c l : Nat) (v : Int) (s : State), c < 4 → l < 12 → (s.chip c).laser l ≠ 4 → (s.chip c).laser l ≠ 5 →
    let x := s.chip c
    let win := (v :: Tbl.get [] x.window l).take 100
    let d := averageOf win - s.laserRef c l
    let s1 := s.setChip c { x with window := x.window.put l win, laserDb := x.laserDb.put l d }
    (x.laser l = 1 → exec (.laserSample c l v) s = .next s1)
    ∧ (x.laser l ≠ 1 → v - s.laserRef c l ≤ -600 → ∃ t, exec (.laserSample c l v) s = .next t ∧ (t.chip c).laser l = 5)
    ∧ (x.laser l ≠ 0 → x.laser l ≠ 1 → -600 < v - s.laserRef c l → exec (.laserSample c l v) s = .next s1)
    ∧ (∀ w, x.laser l = 0 → -600 < v - s.laserRef c l → s.suspended c = false → (List.range 8).find? (fun w => x.feeds w == l) = some w →
      (x.wl w = 0 → -100 < d → exec (.laserSample c l v) s = .next s1)
      ∧ (x.wl w = 0 → -150 < d → d ≤ -100 → ∃ t, exec (.laserSample c l v) s = .next t ∧ (t.chip c).wl w = 1)
      ∧ (x.wl w < 2 → -200 < d → d ≤ -150 → ∃ t, exec (.laserSample c l v) s = .next t ∧ (t.chip c).wl w = 2)
      ∧ (x.wl w = 2 → d ≤ -200 → (x.spare w 3).isSome = true → x.autoSwap = true → x.busy = none → x.steering = false →
          ∃ t, exec (.laserSample c l v) s = .next t ∧ (t.chip c).wl w = 3 ∧ (t.chip c).busy = some (w, true))
      ∧ (x.wl w = 2 → d ≤ -200 → x.noSpare w = true → ∃ t, exec (.laserSample c l v) s = .next t ∧ (t.chip c).wl w = 5)
      ∧ (x.wl w = 2 → -125 ≤ d → d < -75 → ∃ t, exec (.laserSample c l v) s = .next t ∧ (t.chip c).wl w = 1)
      ∧ (x.wl w = 1 ∨ x.wl w = 2 → -75 ≤ d → ∃ t, exec (.laserSample c l v) s = .next t ∧ (t.chip c).wl w = 0))
    ∧ ∃ t, exec (.laserLockLoss c l) s = .next t ∧ (t.chip c).laser l = 5

/-- While the chiplet's sequencer is not being replaced: a tuned spare feeds at once a wavelength whose laser has failed, and else shows READY, where the average has not come to -2.0 dB. At the end of a swap every ACTIVE laser that feeds nothing is RETIRED, the swap is counted, and with nothing waiting the wavelength is NORMAL. A swap asked for by register begins where no other and no plan change runs, or is refused and counted where the wavelength is dark or no spare is READY. While the chiplet's sequencer is not being replaced: a recalibration, by register or by its period, drains a wavelength that is lit when no other swap or recalibration and no plan change runs; at its end the wavelength's faulted rings that pass their retry come back, on both sides, the recalibration is counted, and with nothing waiting the wavelength is NORMAL. -/
def Obligations.LasersAreSparedAndRecalibrated : Prop :=
  (∀ (c : Nat) (s : State), s.suspended c = false →
    let x := s.chip c
    (∀ l w, x.laser l = 2 → x.spareFor.find l = some w →
      (x.laser (x.feeds w) = 5 → ∃ t, exec (.spareReady c l) s = .next t ∧ (t.chip c).feeds w = l ∧ (t.chip c).laser l = 0 ∧ (t.chip c).wl w = 0)
      ∧ (x.laser (x.feeds w) ≠ 5 → -200 < Tbl.get 0 x.laserDb (x.feeds w) → l < 12 →
          ∃ t, exec (.spareReady c l) s = .next t ∧ (t.chip c).laser l = 3))
    ∧ (∀ w, x.busy = some (w, true) →
      ∃ t, exec (.laserSwapComplete c) s = .next t ∧ (t.chip c).swaps = x.swaps + 1
        ∧ (∀ l < 12, x.laser l = 0 → (∀ v < 8, x.feeds v ≠ l) → (t.chip c).laser l = 4)
        ∧ (x.waiting = [] → (t.chip c).wl w = 0 ∧ (t.chip c).busy = none ∧ (t.chip c).feeds w = x.feeds w))
    ∧ (∀ w, c < 4 → w < 8 →
      (x.wl w < 3 → (x.spare w 3).isSome = true → x.busy = none → x.steering = false →
        ∃ t, exec (.optLaserCmdSwap c w) s = .next t ∧ (t.chip c).wl w = 3 ∧ (t.chip c).busy = some (w, true) ∧ (t.chip c).swapReq = some w)
      ∧ (¬ (x.wl w < 3 ∧ (x.spare w 3).isSome = true) → exec (.optLaserCmdSwap c w) s
          = .next (((s.setChip c { x with cmdWl := BitVec.ofNat 3 w }).laserEvent c w).countErr (chipPage c).1 (chipPage c).2))))
  ∧ (∀ (c : Nat) (s : State), s.suspended c = false →
    let x := s.chip c
    (∀ w, c < 4 → w < 8 → x.wl w < 3 → x.busy = none → x.steering = false →
      (∃ t, exec (.optLaserCmdRecal c w) s = .next t ∧ (t.chip c).wl w = 4 ∧ (t.chip c).busy = some (w, false) ∧ (t.chip c).recalReq = some w)
      ∧ ∃ t, exec (.wavelengthRecal c w) s = .next t ∧ (t.chip c).wl w = 4 ∧ (t.chip c).busy = some (w, false))
    ∧ ∀ (w : Nat) (m r : DWord), x.busy = some (w, false) →
      ∃ t, exec (.wavelengthRecalComplete c m r) s = .next t ∧ (t.chip c).recals = x.recals + 1
        ∧ (t.chip c).slotFault = (x.slotFault &&& ~~~ wlMask c w) ||| (x.slotFault &&& wlMask c w &&& m)
        ∧ (t.chip c).rxFault = (x.rxFault &&& ~~~ wlMask c w) ||| (x.rxFault &&& wlMask c w &&& r)
        ∧ (x.waiting = [] → (t.chip c).wl w = 0 ∧ (t.chip c).busy = none))

/-- A faulted modulator ring darkens its slot, which leaves its port's link; a faulted drop ring takes its receive slot out of lock on a port that is not down; both are kept in the service record and raise the chiplet's flag. The substrate's temperature is shown, and above 80 degrees raises another. (Temperature in sixteenths.) Service: a removed shuttle sends the light to the dump port, raises the chiplet's flag and takes its ports down; a seated one gives the light back; OPT_SERVICE_DRAIN takes the mask, withdraws a port that sources know, and shows SAFE at once for the one port it newly drains where no bank names it; the service-LED frame goes out while the device is ready. -/
def Obligations.ChipletsAreServiced : Prop :=
  (∀ (c : Nat) (s : State), c < 4 →
    let x := s.chip c
    (∀ (slot : Nat) (first : Bool), slot < 64 →
      let k := 4 * c + slot % 8 / 2
      let f := x.slotFault ||| BitVec.ofNat 64 (2 ^ slot)
      let g := x.rxFault ||| BitVec.ofNat 64 (2 ^ slot)
      (∃ t, exec (.ringFault c slot false first) s = .next t ∧ (t.chip c).slotFault = f ∧ Tbl.find t.flash.slotFaults c = some f
        ∧ (t.hdr (chipPage c).1 (chipPage c).2).errStatus.getLsbD 1 = true
        ∧ (c < 3 → (t.port k).lanes = (s.port k).lanes &&& ~~~ BitVec.ofNat 64 (2 ^ slot)))
      ∧ (c < 3 → ∃ t, exec (.ringFault c slot true first) s = .next t ∧ (t.chip c).rxFault = g ∧ Tbl.find t.flash.rxFaults c = some g
        ∧ (t.hdr (chipPage c).1 (chipPage c).2).errStatus.getLsbD 1 = true
        ∧ ((s.port k).st ≠ .down → (s.port k).st ≠ .uncabled → (t.chip c).rxLocked.getLsbD slot = false)))
    ∧ ∀ v : Int,
      (v ≤ 1280 → exec (.substrateTempCheck c v) s = .next (s.setChip c { x with temp := ofInt16 v }))
      ∧ (1280 < v → ∃ t, exec (.substrateTempCheck c v) s = .next t ∧ (t.chip c).temp = ofInt16 v
          ∧ (t.hdr (chipPage c).1 (chipPage c).2).errStatus.getLsbD 2 = true))
  ∧ (∀ (c : Nat) (s : State), c < 4 →
    let x := s.chip c
    (x.shuttle = true → ∃ t, exec (.shuttleRemoved c) s = .next t ∧ (t.chip c).shuttle = false ∧ (t.chip c).dump = true
        ∧ (t.hdr (chipPage c).1 (chipPage c).2).errStatus.getLsbD 3 = true
        ∧ (∀ d < 4, c < 3 → (s.port (4 * c + d)).st ≠ .uncabled → (t.port (4 * c + d)).st = .down)
        ∧ (∀ p < 4, c = 3 → (t.oedPort p).linkA = false ∧ (t.oedPort p).linkB = false))
    ∧ (x.shuttle = false → exec (.shuttleSeated c) s = .next ((s.setChip c { x with shuttle := true, dump := false }).shuttleEvent c true))
    ∧ (∀ mask : BitVec 4, ∃ t, exec (.optServiceDrain c mask) s = .next t ∧ (t.chip c).drain = mask
        ∧ ∀ d < 4, c < 3 → s.suspended c = false → mask.getLsbD d = true → x.drain.getLsbD d = false →
          ((s.port (4 * c + d)).announced = true → (t.port (4 * c + d)).announced = false)
          ∧ ((∀ e < 4, e ≠ d → mask.getLsbD e = x.drain.getLsbD e) → (s.port (4 * c + d)).announced = false → s.router.bank0.usable.getLsbD (4 * c + d) = false →
              s.router.bank1.usable.getLsbD (4 * c + d) = false → (t.chip c).safe.getLsbD d = true))
    ∧ (s.rst.phase = .ready → exec .sledFrame s = .next { s with sled := s.ledFrame }))

/-- OED frames on a port that is up count the FEC codewords given. A frame whose header fails a check is discarded and counted; a MGMT packet for device management waits for it, but for a warm reset; a frame for a partition that runs or pauses and has keys, of a session, not seen before and with a good tag, waits for its row without its 24-byte trailer, and its counter joins the window of its key; any other frame is discarded and counted. The other OED frames and events on a port that is up: LLDP is passed up and answered, and Neighbor Discovery and Echo for this device are answered (at once where the port is not being drained, priority 0 is not paused and nothing waits); any other ICMPv6 and an 802.3 PAUSE are discarded and counted; a PFC frame pauses the priorities enabled, and what still waits is paused. A change of MODE retrains the port and a reserved MODE is counted; links come up, where their lasers and the light are there, and go down; a drained port with nothing waiting shows SAFE. -/
def Obligations.OedFramesAndPorts : Prop :=
  (∀ (port : Nat) (b : List Byte) (n : DWord) (tagOk : Bool) (corr bad : Nat) (s : State), port < 4 →
    let y := s.oedPort port
    y.linkA = true ∨ y.linkB = true →
    let s0 := s.setOedPort port { y with fecCorr := y.fecCorr + BitVec.ofNat 64 corr, fecUncorr := y.fecUncorr + BitVec.ofNat 64 bad }
    let p := readPkt (oedAsMesh b)
    let peer := packCoord (idCoord (idOf p.src))
    let key := (peer, idPart (idOf p.src), p.part)
    let c := Instr.oedFrame port b n tagOk corr bad
    let discarded := exec c s = .next { s0 with oed := { s0.oed with discards := s.oed.discards + 1 } }
    let takes := ((s.part p.part).st = .running ∨ (s.part p.part).st = .paused) ∧ (s.part p.part).keys = true ∧ 24 ≤ p.payload.length ∧ tagOk = true
    (s.oedHeaderOk b = false → discarded)
    ∧ (s.oedHeaderOk b = true → idMgmt (idOf p.dst) = true →
        (p.typ = 8 ∧ s.rst.phase ≠ .warm → exec c s = .next (s0.arrive (13 + port) p false))
        ∧ (¬ (p.typ = 8 ∧ s.rst.phase ≠ .warm) → discarded))
    ∧ (s.oedHeaderOk b = true → idMgmt (idOf p.dst) = false →
      (s.oed.session peer = none → discarded)
      ∧ ∀ e, s.oed.session peer = some e →
        let w := s.oedKey e.z p key
        (¬ (takes ∧ w.accepts n.toNat = true) → discarded)
        ∧ (takes → w.accepts n.toNat = true → ∃ t, exec c s = .next t
          ∧ t.router.inbox = s.router.inbox ++ [{ port := 13 + port, p := { p with payload := p.payload.take (p.payload.length - 24) }, stomp := false }]
          ∧ t.oed.window key = some (w.take n.toNat) ∧ t.oed.discards = s.oed.discards)))
  ∧ (∀ (port : Nat) (s : State), port < 4 →
    let y := s.oedPort port
    let discarded := ({ s with oed := { s.oed with discards := s.oed.discards + 1 } } : State)
    let answers := fun (t : State) (b : OedBody) => (s.chip 3).drain.getLsbD port = false → y.paused.getLsbD 0 = false → y.queue = [] →
      t.oed.sent = { port := port, frame := oedPlain port b } :: s.oed.sent
    (y.linkA = true ∨ y.linkB = true →
      (∀ b, ∃ t, exec (.lldp port b) s = .next t ∧ t.oed.lldpRx = (port, b) :: s.oed.lldpRx ∧ answers t .lldp)
      ∧ (∃ t, exec (.icmpv6 port true .neighborSolicitation) s = .next t ∧ t.oed.discards = s.oed.discards ∧ answers t .neighborAdvertisement)
      ∧ (∃ t, exec (.icmpv6 port true .echoRequest) s = .next t ∧ t.oed.discards = s.oed.discards ∧ answers t .echoReply)
      ∧ (∀ m, exec (.icmpv6 port false m) s = .next discarded)
      ∧ exec (.icmpv6 port true .other) s = .next discarded
      ∧ (∀ pr, exec (.pfcFrame port true pr) s = .next discarded)
      ∧ ∀ pr, ∃ t, exec (.pfcFrame port false pr) s = .next t ∧ (t.oedPort port).paused = pr &&& y.pfcEn
        ∧ ∀ f ∈ (t.oedPort port).queue, (pr &&& y.pfcEn).getLsbD f.pcp = true)
    ∧ (∀ m : BitVec 2, m.toNat < 2 → y.mode ≠ m → exec (.oedPortCfg port m) s = .next (s.setOedPort port { y with mode := m, linkA := false, linkB := false }))
    ∧ (∀ m : BitVec 2, 2 ≤ m.toNat → exec (.oedPortCfg port m) s = .next (s.countErr (chipPage 3).1 (chipPage 3).2))
    ∧ (∀ (sub : Nat) (up : Bool),
        let out := if y.mode = 1 then s.oedHalfOut port sub = true else s.oedHalfOut port 0 = true ∧ s.oedHalfOut port 1 = true
        (up = true → (s.chip 3).dump = false ∧ s.linksStart = true ∧ ¬ out) →
        (sub = 0 → ∃ t, exec (.oedLinkState port sub up) s = .next t ∧ (t.oedPort port).linkA = up ∧ (t.oedPort port).linkB = y.linkB)
        ∧ (sub = 1 → y.mode = 1 → ∃ t, exec (.oedLinkState port sub up) s = .next t ∧ (t.oedPort port).linkB = up ∧ (t.oedPort port).linkA = y.linkA))
    ∧ ((s.chip 3).drain.getLsbD port = true → y.queue = [] →
        exec (.oedDrainSafe port) s = .next (s.setChip 3 { s.chip 3 with safe := setBit (s.chip 3).safe port true })))

/-- A counter is accepted at most once: a replay window that has taken a counter does not accept it again. -/
def Obligations.ReplayedCountersAreRefused : Prop :=
  ∀ (r : Replay) (c : Nat), r.accepts c = true → (r.take c).accepts c = false

/-- A planned retirement: a request for an interface in service waits for one in progress; else it is blocked while a partition holds one of the top 20 units, and otherwise withdraws 20 GiB and moves the interface's frames to the free slots; a blocked one goes on once none is held. The interface is RETIRED, in the service record too, when its last frame has moved or it had none. Patrol and recalibration: the read of a good line changes nothing but the counts of a period that begins; one with one to three wrong bytes is counted as corrected; an uncorrectable one, where it is not the sixteenth of the period, is poisoned, counted and flagged. A trained interface takes the configured rate and forgets its failures; a failed one is flagged, and a third failure in a row retires it by force. -/
def Obligations.InterfacesAreRetiredAndPatrolled : Prop :=
  (let retired := fun (t : State) (i : Nat) => t.nm.retired.getLsbD i = true ∧ i ∈ t.flash.retiredIfs
  let moving := fun (s : State) (i : Nat) =>
    let w := s.withdraw
    ({ w with nm := { w.nm with cur := some { iface := i, blocked := false, moves := [] } } } : State)
  (∀ (i : Nat) (s : State), s.ifState i = 0 → i ∉ s.nm.queue →
    let s1 := ({ s with nm := { s.nm with req := setBit s.nm.req i true } } : State)
    let l := (moving (s1.setIf i 1) i).plannedMoves i
    (∀ c, s.nm.cur = some c → (c.blocked = true ∨ c.moves ≠ []) → exec (.nmmapRetire i) s = .next { s1 with nm := { s1.nm with queue := s.nm.queue ++ [i] } })
    ∧ (s.nm.cur = none → s.nm.queue = [] → (∃ u ∈ s.topUnits, s.unitHeld u = true) → ∃ t, exec (.nmmapRetire i) s = .next t
        ∧ t.nm.cur = some { iface := i, blocked := true, moves := [] } ∧ t.nm.withdrawn = s.nm.withdrawn
        ∧ (t.hdr s.lead 0xC5).errStatus.getLsbD 1 = true)
    ∧ (s.nm.cur = none → s.nm.queue = [] → (∀ u ∈ s.topUnits, s.unitHeld u = false) → ∃ t, exec (.nmmapRetire i) s = .next t
        ∧ t.nm.withdrawn = s.nm.withdrawn + 1
        ∧ (l ≠ [] → t.nm.cur = some { iface := i, blocked := false, moves := l })
        ∧ (l = [] → i < 48 → retired t i)))
  ∧ (∀ (c : Retire) (s : State), s.nm.cur = some c → c.blocked = true → (∀ u ∈ s.topUnits, s.unitHeld u = false) →
      let l := (moving s c.iface).plannedMoves c.iface
      ∃ t, exec .retirementUnblocked s = .next t
        ∧ (l ≠ [] → t.nm.withdrawn = s.nm.withdrawn + 1 ∧ t.nm.cur = some { iface := c.iface, blocked := false, moves := l })
        ∧ (l = [] → c.iface < 48 → retired t c.iface))
  ∧ ∀ (c : Retire) (m : Nat × Nat × Nat) (r : List (Nat × Nat × Nat)) (s : State), s.nm.cur = some c → c.moves = m :: r →
      ∃ t, exec .frameMoveComplete s = .next t ∧ Tbl.find t.nm.moved m.1 = some m.2
        ∧ (r ≠ [] ∨ c.blocked = true → t.nm.cur = some { c with moves := r })
        ∧ (r = [] → c.blocked = false → c.iface < 48 → retired t c.iface))
  ∧ ((∀ (a : Nat) (s : State), a < 2 ^ 30 * s.populated →
    let b := a / 64 * 64
    let q := s.place (a / 2 ^ 24)
    let d := q.1 / 4
    let x := s.nmc d
    let s1 := if q.2 = 0 ∧ b % 2 ^ 24 = 0 then s.setNmc d { x with ifCe := x.ifCe.put q.1 0, ifUe := x.ifUe.put q.1 0, told := x.told.erase q.1 } else s
    (s.unitBad [] b = false → exec (.patrolRead a []) s = .next s1)
    ∧ (∀ n, 1 ≤ n → n ≤ 3 → s.unitBad [] b = false → ∃ t, exec (.patrolRead a [(a, .wrong n)]) s = .next t ∧ (t.nmc d).ecc = x.ecc + 1
        ∧ Tbl.get 0 (t.nmc d).ifCe q.1 = min 65535 (Tbl.get 0 (s1.nmc d).ifCe q.1 + 1))
    ∧ (∀ errs, s.unitBad errs b = true → s.nm.due = [] → Tbl.get 0 (s1.nmc d).ifUe q.1 + 1 ≠ 16 →
        ∃ t, exec (.patrolRead a errs) s = .next t ∧ (t.nmc d).ue = x.ue + 1 ∧ inRange t.poison b = true
          ∧ (t.hdr (nmcPage d).1 (nmcPage d).2).errStatus.getLsbD 0 = true))
  ∧ ∀ (i : Nat) (s : State), s.ifState i < 2 →
    let d := i / 4
    let x := s.nmc d
    exec (.recalWindow i true) s = .next (s.setNmc d { x with trainFails := x.trainFails.put i 0, rateNow := x.rate })
    ∧ (Tbl.get 0 x.trainFails i + 1 ≠ 3 → exec (.recalWindow i false) s
        = .next ((s.setNmc d { x with trainFails := x.trainFails.put i (Tbl.get 0 x.trainFails i + 1), rateNow := x.rate }).raise (nmcPage d).1 (nmcPage d).2 2))
    ∧ (Tbl.get 0 x.trainFails i + 1 = 3 → i < 48 → ∃ t, exec (.recalWindow i false) s = .next t
        ∧ t.nm.retired.getLsbD i = true ∧ i ∈ t.flash.retiredIfs))

/-- CXL: a device whose link trains takes a window where one fits, else is counted as unplaced, and one whose link stays down changes nothing; a lost device's window is marked lost and degrades the partitions that hold units of it, or is unmapped where none does; a request that times out is counted and flagged, a write of it poisons its line, and its requester still waits for the outcome. -/
def Obligations.CxlDevicesComeAndGo : Prop :=
  (∀ (dev : CxlDev) (s : State), dev.port < 2 →
    let sub := (s.cxl dev.port).subOf dev
    let c := (s.cxl dev.port).train dev
    let gib := dev.cap / 2 ^ 30
    let slot := [0, 1, 2, 3].find? (fun i => (Tbl.find c.wins i).isNone)
    (c.rate sub = 0 → exec (.cxlHotAdd dev) s = .next s)
    ∧ (∀ i b g, c.rate sub ≠ 0 → slot = some i → gib ≠ 0 → c.fit dev.port gib = some (b, g) →
      ∃ t, exec (.cxlHotAdd dev) s = .next t ∧ t.cxl dev.port = { c with wins := c.wins.put i { base := b, gib := g, sub := sub } })
    ∧ (c.rate sub ≠ 0 → (slot = none ∨ gib = 0 ∨ c.fit dev.port gib = none) →
      ∃ t, exec (.cxlHotAdd dev) s = .next t ∧ t.cxl dev.port = { c with unplaced := c.unplaced + 1 }))
  ∧ (∀ (port win : Nat) (w : CxlWin) (s : State), port < 2 → Tbl.find (s.cxl port).wins win = some w → w.lost = false →
    let holds := fun (p : Nat) => (s.part p).held = true ∧ ∃ u ∈ (s.part p).cxl, w.covers (cxlBase + 2 ^ 30 * u) = true
    ∃ t, exec (.cxlLinkDown port win) s = .next t ∧ (t.hdr port 0x88).errStatus.getLsbD 2 = true
      ∧ ((∃ p < 8, holds p) → Tbl.find (t.cxl port).wins win = some { w with lost := true })
      ∧ ((¬ ∃ p < 8, holds p) → ∀ e ∈ (t.cxl port).wins, e.2 ≠ { w with lost := true })
      ∧ ∀ p < 8, holds p → (s.part p).st ≠ .thawing → (t.part p).st = .degraded)
  ∧ ∀ (a : Nat) (wr : Bool) (s : State), cxlBase ≤ a → s.window a ≠ none →
    ∃ t, exec (.cxlTimeout a wr) s = .next t ∧ (t.cxl (cxlPort a)).timeout = (s.cxl (cxlPort a)).timeout + 1
      ∧ (t.hdr (cxlPort a) 0x88).errStatus.getLsbD 1 = true ∧ a / 64 * 64 ∈ (t.cxl (cxlPort a)).late
      ∧ (wr = true → inRange t.poison (a / 64 * 64) = true)

/-- Planned calving. GO for a site that carries a floe and has not failed, with no calving in progress and a spare left on its die, holds the floe; GO for a site without a floe, for a failed site, or while a calving is in progress is counted. Unless an earlier CONTROL activation holds the floe, its quiet point begins the copy, and the hold's time without one releases it and sets DEFERRED, until the retry holds it again. When the copy is complete the floe lives at the new site, GO is clear, and the failed site is recorded: by a fuse while its die has one left, else in the service record. Sites that fail. A site that fails hard while it carries a floe, and no calving from or to it is in progress, makes the partition that holds the floe DEGRADED unless it is THAWING; its floe begins anew on the lowest spare of its die, or its group is lost where no spare is left. A failure of the site or the target of a calving in progress ends that calving. A spare that passes its self-test changes nothing, and one that fails is recorded as failed. An add unit that failed returns to service when it passes its test, and is retired for good when it does not. -/
def Obligations.CalvingAndFailedSites : Prop :=
  ((∀ (site : Byte) (s : State),
    let s1 := s.setRas { s.ras with site := site }
    (∀ f d r, s.floeAt site.toNat = some f → s.ras.calve = none → site.toNat ∉ s.ras.failed → s.spares (site.toNat / 112) = d :: r →
      ∃ t, exec (.rasCalveGo site) s = .next t ∧ t.ras.calve = some { site := site.toNat, dst := d, floe := some f }
        ∧ t.ras.deferred = false ∧ (t.floe f).held = true)
    ∧ (s.floeAt site.toNat = none ∨ s.ras.calve ≠ none ∨ site.toNat ∈ s.ras.failed → exec (.rasCalveGo site) s = .next (s1.countErr s.lead 0xC0)))
  ∧ ∀ (j : Calve) (f : Nat) (s : State), s.ras.calve = some j → j.floe = some f →
    (j.copying = false → j.waiting = false → s.fwFirst f = false → s.quiet f = true →
      exec .calveQuietPoint s = .next ((s.setFloe f { s.floe f with copying := true }).setRas { s.ras with calve := some { j with copying := true } }))
    ∧ (j.copying = false → j.waiting = false → s.fwFirst f = false →
      exec .calveHoldTimeout s = .next ((s.setFloe f { s.floe f with held := false, copying := false }).setRas
        { s.ras with calve := some { j with waiting := true }, deferred := true }))
    ∧ (j.waiting = true → ∃ t, exec .calveRetry s = .next t ∧ t.ras.calve = some { j with waiting := false } ∧ (t.floe f).held = true)
    ∧ (j.copying = true → ∃ t, exec .calveCopyComplete s = .next t ∧ t.ras.calve = none ∧ Tbl.find t.ras.moved f = some j.dst
        ∧ t.ras.failed = s.ras.failed ++ [j.site] ∧ t.floe f = { s.floe f with held := false, copying := false }
        ∧ (j.site / 112 = 0 → s.fuses.rec0.length < 32 → t.fuses.rec0 = s.fuses.rec0 ++ [(j.site, j.dst)])
        ∧ (j.site / 112 ≠ 0 → s.fuses.rec1.length < 32 → t.fuses.rec1 = s.fuses.rec1 ++ [(j.site, j.dst)])
        ∧ (32 ≤ (if j.site / 112 = 0 then s.fuses.rec0 else s.fuses.rec1).length → t.fuses = s.fuses ∧ t.flash.remap = s.flash.remap ++ [(j.site, j.dst)])))
  ∧ ((∀ (site f : Nat) (s : State), (∀ j, s.ras.calve = some j → j.site ≠ site ∧ j.dst ≠ site) → site ∉ s.ras.failed → s.floeAt site = some f →
    (∀ d r, s.spares (site / 112) = d :: r → ∃ t, exec (.siteHardFailure site) s = .next t
      ∧ Tbl.find t.ras.moved f = some d ∧ t.ras.failed = s.ras.failed ++ [site] ∧ t.floe f = {} ∧ t.ras.calve = s.ras.calve
      ∧ ∀ p, s.floePart f = some p → (s.part p).st ≠ .thawing → (t.part p).st = .degraded)
    ∧ (s.spares (site / 112) = [] → ∃ t, exec (.siteHardFailure site) s = .next t
      ∧ f / 8 ∈ t.ras.lost ∧ t.ras.failed = s.ras.failed ++ [site]
      ∧ ∀ p, s.floePart f = some p → (s.part p).st ≠ .thawing → (t.part p).st = .degraded ∧ (t.part p).groups.getLsbD (f / 8) = false))
  ∧ (∀ (site : Nat) (j : Calve) (s : State), s.ras.calve = some j → j.site = site ∨ j.dst = site → ∃ t, exec (.siteHardFailure site) s = .next t ∧ t.ras.calve = none)
  ∧ (∀ (site : Nat) (s : State), exec (.spareSelfTest site true) s = .next s
    ∧ (s.floeAt site = none → site ∉ s.ras.failed →
        ∃ t, exec (.spareSelfTest site false) s = .next t ∧ t.ras.failed = s.ras.failed ++ [site] ∧ t.ras.moved = s.ras.moved
          ∧ ∀ j, t.ras.calve = some j → s.ras.calve = some j ∧ j.site ≠ site ∧ j.dst ≠ site))
  ∧ ∀ (u : Nat) (s : State), u < 7 → s.router.addFailed.getLsbD u = true → s.router.addIn.getLsbD u = false → s.flash.addRetired.getLsbD u = false →
    exec (.addUnitTest u true) s = .next (s.setRouter { s.router with addIn := setBit s.router.addIn u true })
    ∧ exec (.addUnitTest u false) s = .next (s.setFlash { s.flash with addRetired := setBit s.flash.addRetired u true }))

/-- The dies apart. A lost heartbeat makes the other die an orphan, counts it, degrades every held partition that is not THAWING and has a group there, and takes its groups out of the grant. While it is an orphan, the time since which the retrained control lane has carried heartbeats is kept, and once it has, the rejoin ends the orphan under a bridge key; a loss of the data lanes puts every interface of the orphan out of service. A lane group spares two lanes, and a third lost is a DEVICE error. -/
def Obligations.DiesSeparateAndRejoin : Prop :=
  ∀ s : State,
    (s.ras.orphan = false → ∃ t, exec .heartbeatLoss s = .next t ∧ t.ras.orphan = true ∧ t.ras.ctrlUp = false ∧ t.ras.orphans = s.ras.orphans + 1
      ∧ t.ras.pending.getLsbD 3 = true
      ∧ ∀ p < 8, ∀ g ∈ s.dieGroups s.otherDie, (s.part p).st ≠ .free → (s.part p).st ≠ .thawing → (s.part p).groups.getLsbD g = true →
          (t.part p).st = .degraded ∧ (t.part p).groups.getLsbD g = false)
    ∧ (s.ras.orphan = true →
      exec (.controlLaneRetrain true) s = .next (s.setRas { s.ras with ctrlUp := true, beatSince := some (s.ras.beatSince.getD s.now) })
      ∧ exec (.controlLaneRetrain false) s = .next (s.setRas { s.ras with ctrlUp := false, beatSince := none })
      ∧ (s.ras.beatSince ≠ none → ∃ t, exec .orphanRejoin s = .next t ∧ t.ras.orphan = false ∧ t.ras.ctrlUp = true ∧ t.sec.bridgeKey = true)
      ∧ ∃ t, exec .bridgeDataLaneLoss s = .next t ∧ ∀ i < 24, 2 ≤ t.ifState (24 * s.otherDie + i))
    ∧ ∀ (g n : Nat),
      let s1 := s.setRas { s.ras with lanesLost := s.ras.lanesLost.put g n, dataSpares := setBit s.ras.dataSpares g (decide (n < 2)) }
      (n ≤ 2 ∨ 2 < Tbl.get 0 s.ras.lanesLost g → exec (.bridgeLaneRetrain g n) s = .next s1)
      ∧ (2 < n → Tbl.get 0 s.ras.lanesLost g ≤ 2 → exec (.bridgeLaneRetrain g n) s = .next (s1.rasReport 3))

/-- UCIe. A module that trains, once links may start, is up at its configured rate, and where no link was up and no packet of an endpoint waits, every expected sequence begins at 0; half width raises the page's flag. When the link goes down every module is down, the commands from endpoints that have no response are lost with the bytes on their way, delivered bytes stay and LINK_RESET sets. A spare lane repairs a module that is up, and without one it runs at half width; the flits retried are counted. I3C and JTAG: a boot read returns the 8 bytes of boot status; a command packet of a known opcode that is whole, in sequence, for PARTITION 0xF and alone joins the commands that wait, and one that comes while another is outstanding is answered and does not; a response is read once, which ends the interrupt; the management target takes a dynamic address; a boundary scan is ignored while a partition runs, and TRST_N resets the TAP. Debug access is ignored until DEBUG_ENABLE has opened it; what an open one does the spec does not say, and it is refused. -/
def Obligations.LinksAndSidebandPorts : Prop :=
  ((∀ (m : Nat) (half : Bool) (s : State), m < 4 → (s.mod m).up = false → s.linksStart = true →
    ∃ t, exec (.ucieLinkUp m half) s = .next t ∧ (t.mod m).up = true ∧ (t.mod m).half = half ∧ (t.mod m).speed = (if (s.mod m).rate then 1 else 2)
      ∧ (s.linkUp = false → (∀ e < 8, (s.ep e).tx = [] ∧ (s.ep e).transit = []) → ∀ e < 8, (t.ep e).expSeq = [])
      ∧ (half = true → (t.hdr (modPage m).1 (modPage m).2).errStatus.getLsbD 1 = true))
  ∧ (∀ s : State, s.linkUp = true → ∃ t, exec .ucieLinkDown s = .next t ∧ (∀ m < 4, (t.mod m).up = false)
      ∧ t.cmdq = s.cmdq.filter (fun c => c.src == 8)
      ∧ ∀ e < 8, (t.ep e).tx = [] ∧ (t.ep e).stalled = [] ∧ (t.ep e).transit = [] ∧ (t.ep e).heldRx = [] ∧ (t.ep e).linkReset = true ∧ (t.ep e).rx = (s.ep e).rx)
  ∧ ∀ (m retries : Nat) (s : State), (s.mod m).up = true →
    let x := { s.mod m with retry := (s.mod m).retry + BitVec.ofNat 64 retries }
    exec (.ucieLaneRepair m true retries) s = .next ((s.setMod m { x with repaired := satInc x.repaired }).rasReport 0)
    ∧ exec (.ucieLaneRepair m false retries) s = .next ((s.setMod m { x with half := true }).raise (modPage m).1 (modPage m).2 1))
  ∧ (∀ s : State,
    (s.rst.phase ≠ .tripped → exec .i3cBootRead s = .next { s with i3c := { s.i3c with lastRead := s.bootStatus } })
    ∧ (∀ l : List Byte,
        let c := readCmd 8 l
        s.secRuns = true → 32 ≤ l.length →
        (s.i3c.outstanding = false → l.length = 32 + 4 * beAt l 2 2 → crcOk l = true → c.seq = s.i3c.expSeq → c.opcode ∈ opcodes → c.part = 15 →
          beAt l 2 2 ≤ 1024 →
          exec (.i3cCommand l) s = .next { s with cmdq := s.cmdq ++ [c], i3c := { s.i3c with expSeq := c.seq + 1, outstanding := true } })
        ∧ (s.i3c.outstanding = true → ∃ t, exec (.i3cCommand l) s = .next t ∧ t.cmdq = s.cmdq ∧ t.i3c.outstanding = true ∧ t.i3c.response ≠ none))
    ∧ (∀ b, s.i3c.response = some b → s.secRuns = true →
        exec .i3cResponseRead s = .next { s with i3c := { s.i3c with lastRead := b, response := none, ibi := false } })
    ∧ (∀ a, s.secRuns = true → exec (.i3cDynamicAddress a) s = .next { s with i3c := { s.i3c with dyn := some a } })
    ∧ (∀ n, (s.anyRuns = false → exec (.jtagBoundaryScan n) s = .next { s with jtag := some n })
        ∧ (s.anyRuns = true → exec (.jtagBoundaryScan n) s = .next s))
    ∧ exec .trstN s = .next { s with jtag := none }
    ∧ ∀ tgt : Nat,
        let opened := s.sec.debugOn = true ∧ s.sec.debugWhat.getLsbD (if tgt = 0 then 0 else 1) = true
        (¬ opened → exec (.jtagDebugAccess tgt) s = .next s) ∧ (opened → exec (.jtagDebugAccess tgt) s = .refused .debugUnit))

/-- Privileged operations, authorised and signed, with their conditions met, take effect and advance the audit counter by one: the owner changes with its image keys and minimums cleared and a fuse used; debug is enabled after every partition has begun its thaw; debug is locked; an image key slot is emptied or a firmware key fuse, not the last, is blown; manufacturing mode begins; an image key is enrolled; a minimum version is set that is no lower than before. A privileged operation that the owner has not signed leaves one audit record and the AUTH_FAIL flag, and changes no fuse, owner, key, minimum, mode or partition. -/
def Obligations.PrivilegedOperationsAreAuthorised : Prop :=
  (∀ (s s1 : State) (c : GwyPkt),
    let l := c.payload
    let arg := privArg l
    let n := s.flash.auditCount
    (Claims.Authorised 1 136 1 true s c s1 → s1.ownerSigned l (some arg) = true → s.fuses.ownerUsed < 16 → keyOk arg = true → s.allFree = true →
      ∃ t, exec .ownerChange s = .next t ∧ t.flash.auditCount = n + 1 ∧ t.flash.owner = some arg ∧ t.flash.imageKeys = [] ∧ t.flash.mins = []
        ∧ t.fuses = { s.fuses with ownerUsed := s.fuses.ownerUsed + 1 })
    ∧ (Claims.Authorised 2 4 1 true s c s1 → s1.ownerSigned l none = true → s.fuses.debugLocked = false → leAt arg 0 4 < 4 →
      ∃ t, exec .debugEnable s = .next t ∧ t.flash.auditCount = n + 1 ∧ t.sec.debugOn = true
        ∧ t.sec.debugWhat = s.sec.debugWhat ||| BitVec.ofNat 2 (leAt arg 0 4) ∧ ∀ p < 8, (t.part p).st = .free ∨ (t.part p).st = .thawing)
    ∧ (Claims.Authorised 3 0 1 true s c s1 → s1.ownerSigned l none = true → s.fuses.debugLocked = false →
      ∃ t, exec .debugLock s = .next t ∧ t.flash.auditCount = n + 1 ∧ t.fuses = { s.fuses with debugLocked := true })
    ∧ (Claims.Authorised 4 4 1 true s c s1 → s1.ownerSigned l none = true →
      (leAt arg 0 4 % 256 = 1 → leAt arg 0 4 / 256 < 8 → ∃ t, exec .keyRevoke s = .next t ∧ t.flash.auditCount = n + 1
        ∧ t.flash.imageKeys = s.flash.imageKeys.del (leAt arg 0 4 / 256) ∧ t.fuses = s.fuses)
      ∧ (leAt arg 0 4 % 256 = 2 → leAt arg 0 4 / 256 < 4 → s.fuses.fwKeyValid.getLsbD (leAt arg 0 4 / 256) = true →
        1 < ones 4 s.fuses.fwKeyValid.toNat → ∃ t, exec .keyRevoke s = .next t ∧ t.flash.auditCount = n + 1
        ∧ t.fuses = { s.fuses with fwKeyValid := setBit s.fuses.fwKeyValid (leAt arg 0 4 / 256) false }))
    ∧ (Claims.Authorised 5 0 2 true s c s1 → s1.ownerSigned l none = true → blockKind (privBlock l 1) = 4 →
      blockSigns (privBlock l 1) (privMsg l) s.fuses.mfgKey = true → s.allFree = true →
      ∃ t, exec .mfgMode s = .next t ∧ t.flash.auditCount = n + 1 ∧ t.sec = { s.sec with mfg := true })
    ∧ (Claims.Authorised 6 140 1 false s c s1 → s1.ownerSigned l none = true → leAt arg 0 4 < 8 → keyOk (arg.drop 4) = true →
      ∃ t, exec .imageKeyEnroll s = .next t ∧ t.flash.auditCount = n + 1 ∧ t.flash.imageKeys = s.flash.imageKeys.put (leAt arg 0 4) (arg.drop 4))
    ∧ (Claims.Authorised 7 8 1 false s c s1 → s1.ownerSigned l none = true → leAt arg 0 4 < 8 →
      (Tbl.get 0 s.flash.mins (leAt arg 0 4)).toNat ≤ leAt arg 4 4 →
      ∃ t, exec .imageMinVersion s = .next t ∧ t.flash.auditCount = n + 1
        ∧ t.flash.mins = s.flash.mins.put (leAt arg 0 4) (BitVec.ofNat 32 (leAt arg 4 4))))
  ∧ (∀ (s s1 : State) (c : GwyPkt) (op n k : Nat) (needs : Bool) (i : Instr),
    (op, n, k, needs, i) ∈ [(1, 136, 1, true, Instr.ownerChange), (2, 4, 1, true, .debugEnable), (3, 0, 1, true, .debugLock), (4, 4, 1, true, .keyRevoke),
      (5, 0, 2, true, .mfgMode), (6, 140, 1, false, .imageKeyEnroll), (7, 8, 1, false, .imageMinVersion)] →
    Claims.Authorised op n k needs s c s1 → s1.ownerSigned c.payload (if op = 1 then some (privArg c.payload) else none) = false →
    ∃ t, exec i s = .next t
      ∧ t.fuses = s.fuses ∧ t.sec = s.sec ∧ t.parts = s.parts ∧ t.flash = { s.flash with auditCount := s.flash.auditCount + 1, audit := t.flash.audit }
      ∧ (t.hdr s.lead 0xC4).errStatus.getLsbD 1 = true)

/-- Firmware. A chunk within its total is staged unless its component is being activated; a new total, or a package that has been active, begins the package anew. An activation, with none in progress, whose package passes the checks makes it the active one, never lowers the rollback counter, and waits for floes only where it is CONTROL's; one that does not pass changes no package and no fuse. A floe it holds is released at its quiet point or after the hold's time, except as a calving holds it, and after the latter held again; with no floe left the measurement epoch advances. FW_STATUS answers the six records. -/
def Obligations.FirmwareIsStagedAndActivated : Prop :=
  (∀ (s s1 : State) (c : GwyPkt), Claims.RunsOp 0x30 (fun c => bitsOf c.arg0.toNat 8 24 == 0 && isComp (bitsOf c.arg0.toNat 0 8)) s c s1 →
    let comp := bitsOf c.arg0.toNat 0 8
    let off := bitsOf c.arg0.toNat 32 32
    let n := c.arg1.toNat
    let x := s.comp comp
    let y : Slot := if x.staged.total = n ∧ x.staged.used = false then x.staged else { total := n }
    (∀ a, s.sec.fwAct = some a → a.comp ≠ comp) → 0 < n → off + c.payload.length ≤ n →
    exec .fwStage s = .next ((s1.setComp comp (x.setStaged { y with chunks := stageChunk y.chunks off c.payload })).respond c 0 0 0 0 []))
  ∧ (∀ (s s1 : State) (c : GwyPkt), Claims.RunsOp 0x31 (fun c => isComp c.arg0.toNat && c.arg1 == 0 && c.payload.isEmpty) s c s1 →
    s.sec.fwAct = none → s.rst.devPending = false →
    let comp := c.arg0.toNat
    let x := s.comp comp
    let v := leAt x.staged.bytes 12 4
    (s.fwCheck comp x.staged = none → ∃ t, exec .fwActivate s = .next t ∧ (t.comp comp).activeB = !x.activeB
        ∧ (t.comp comp).active.secver = v ∧ (t.comp comp).active.body = sliceB x.staged.bytes 64 (leAt x.staged.bytes 16 4)
        ∧ Tbl.get 0 t.fuses.rollback comp = max v (Tbl.get 0 s.fuses.rollback comp)
        ∧ ∃ a, t.sec.fwAct = some a ∧ a.comp = comp ∧ (comp ≠ 3 → a.todo = []))
    ∧ (∀ res det, s.fwCheck comp x.staged = some (res, det) → ∃ t, exec .fwActivate s = .next t
        ∧ t.flash.comps = s.flash.comps ∧ t.fuses = s.fuses ∧ t.sec.fwAct = none))
  ∧ (∀ (s : State) (a : FwAct), s.sec.fwAct = some a →
    (a.todo = [] → ∃ t, exec .fwActivated s = .next t ∧ t.sec.fwAct = none ∧ t.sec.epoch = s.sec.epoch + 1)
    ∧ ∀ f, f ∈ a.todo →
      (f ∉ a.released → s.quiet f = true → ∃ t, exec (.fwQuietPoint f) s = .next t
        ∧ t.sec.fwAct = some { a with todo := a.todo.filter (fun g => g != f) } ∧ t.floe f = { s.floe f with held := s.calveHolds f })
      ∧ (f ∉ a.released → ∃ t, exec (.fwHoldTimeout f) s = .next t ∧ t.sec.fwAct = some { a with released := f :: a.released }
        ∧ t.floe f = { s.floe f with held := s.calveHolds f })
      ∧ (f ∈ a.released → s.calveHolds f = false → ∃ t, exec (.fwRehold f) s = .next t
        ∧ t.sec.fwAct = some { a with released := a.released.filter (fun g => g != f) } ∧ (t.floe f).held = true))
  ∧ ∀ (s s1 : State) (c : GwyPkt), Claims.RunsOp 0x32 Claims.bare s c s1 →
    exec .fwStatus s = .next (s1.respond c 0 0 0 0 ([1, 2, 3, 4, 5, 6].flatMap (fun k => s1.fwRecord k)))

/-- Evidence and the seal. While evidence must wait, ATTEST and CERT_GET of the alias certificate are told so; else ATTEST answers the evidence with a signature, and CERT_GET what its index holds, or a refusal where it holds nothing. Presence is asserted at the time it is, and expires. While the security controller runs the seal follows its pattern: a mismatch opens the loop, with a count, an audit record and a flag where it was intact, and 1 s of matches closes it. -/
def Obligations.EvidenceAndSeal : Prop :=
  (∀ (pv : Nat) (s s1 : State) (c : GwyPkt),
    Claims.Runs 0x20 pv (fun c => c.arg0 == 0 && c.arg1 == 0 && c.payload.length == 64) true true legalMem s c s1 →
    (s.busyAttest = true → exec (.attest pv) s = .next (s1.tellBusy c))
    ∧ (s.busyAttest = false → exec (.attest pv) s = .next (({ s1 with fresh := s.fresh + 1 }).respond c 0 0 0 0
        (s1.evidence pv c.payload ++ beBytes 132 (Config.signature s.fresh).toNat ++ zeros 4))))
  ∧ (∀ (s s1 : State) (c : GwyPkt), Claims.RunsOp 0x21 (fun c => c.arg1 == 0 && c.payload.isEmpty) s c s1 →
    (c.arg0 = 1 → s.busyAttest = true → exec .certGet s = .next (s1.tellBusy c))
    ∧ ((c.arg0 = 1 → s.busyAttest = false) →
        (∀ b, s1.certificate c.arg0.toNat = some b → exec .certGet s = .next (s1.respond c 0 0 0 0 b))
        ∧ (s1.certificate c.arg0.toNat = none → exec .certGet s = .next (s1.respond c 0x06 4 0 0 []))))
  ∧ ∀ s : State,
    exec .presenceAssertion s = .next (s.setSec { s.sec with presence := true, presenceTime := s.now })
    ∧ exec .presenceExpiry s = .next (s.setSec { s.sec with presence := false })
    ∧ (s.secRuns = true →
      (∃ t, exec (.sealPatternChange true) s = .next t ∧ t.sec.sealSince = some (s.sec.sealSince.getD s.now)
        ∧ (t.sec.intact = true ↔ s.sec.intact = true ∨ 1000000000 ≤ s.now.toNat - (s.sec.sealSince.getD s.now).toNat)
        ∧ t.sec.sealBit = s.sec.sealBit + 1)
      ∧ ∃ t, exec (.sealPatternChange false) s = .next t ∧ t.sec.sealSince = none ∧ t.sec.intact = false ∧ t.sec.sealBit = s.sec.sealBit + 1
        ∧ (s.sec.intact = true → t.flash.sealCount = satInc s.flash.sealCount ∧ t.flash.auditCount = s.flash.auditCount + 1
            ∧ (t.hdr s.lead 0xC4).errStatus.getLsbD 0 = true)
        ∧ (s.sec.intact = false → t.flash = s.flash))

/-- Sensor samples while the clocks run: 110.0 degrees or above on two consecutive samples of one sensor trips the device, as one reading of 105.0 does at step 3 of a cold reset that a trip began; otherwise the hottest sensor in service is shown, the warning is armed and disarmed at 95.0 and 93.0 degrees, and the die throttles by one level at 100.0 degrees and is eased after every 100 samples at 97.0 or below; the more restrictive of the levels of heat and power becomes the die's target. Power and clocks while the clocks run: the average of the last ten measurements above the cap takes both dies a level down, and every tenth average in a row below 97 % of it a level up; a decided level comes into force and time below level 0 is counted; each droop counts one stretch; each sensor that begins to disagree is excluded with an error of its die's thermal page. -/
def Obligations.HeatAndPowerSetTheLevel : Prop :=
  (∀ (die : Nat) (temps : List Int) (s : State), s.clocksRun = true →
    let x := s.therm die
    let l := inService x.excluded temps
    let again := x.first = true ∧ s.rst.cause.getLsbD 2 = true ∧ ∃ e ∈ l, 1680 ≤ e.2
    let twice := ∃ e ∈ l, 1760 ≤ e.2 ∧ e.1 ∈ x.hotSet
    (twice ∨ again → ∃ t, exec (.thermalSample die temps) s = .next t ∧ t.rst.phase = .tripped ∧ t.rst.trip = true
      ∧ t.flash.fatal = some (die, 0xB0, 32) ∧ t.flash = { s.flash with fatal := t.flash.fatal })
    ∧ (¬ twice → ¬ again →
      (l = [] → exec (.thermalSample die temps) s = .next (s.setTherm die { x with hotSet := [], first := false }))
      ∧ ∀ k v, (k, v) ∈ l → (∀ e ∈ l, e.2 < v ∨ e.2 = v ∧ k ≤ e.1) → ∃ t, exec (.thermalSample die temps) s = .next t
        ∧ (∀ d, d ≠ die → t.therm d = s.therm d)
        ∧ (t.therm die).hot = ofInt16 v ∧ (t.therm die).sensor = BitVec.ofNat 6 k
        ∧ (∀ m, m ∈ (t.therm die).hotSet ↔ ∃ e ∈ l, e.1 = m ∧ 1760 ≤ e.2)
        ∧ (t.therm die).warned = (decide (1520 ≤ v) || (x.warned && decide (1488 ≤ v)))
        ∧ (1600 ≤ v → (t.therm die).throttling = true ∧ (t.therm die).level = 2 ∧ (t.therm die).hotRun = x.hotRun + 1
            ∧ (t.therm die).hotLevel = if x.hotRun % 10 = 0 then min s.maxLevel (x.hotLevel + 1) else x.hotLevel)
        ∧ (1600 ≤ v → x.throttling = false → (t.hdr die 0xB0).errStatus.getLsbD 1 = true)
        ∧ (v ≤ 1552 → x.throttling = true → (t.therm die).coolRun = x.coolRun + 1
            ∧ (t.therm die).hotLevel = if (x.coolRun + 1) % 100 = 0 then x.hotLevel - 1 else x.hotLevel)
        ∧ (v < 1600 → ¬ (v ≤ 1552 ∧ x.throttling = true) → (t.therm die).hotLevel = x.hotLevel ∧ (t.therm die).throttling = x.throttling)
        ∧ (t.therm die).target = max (t.therm die).hotLevel s.power.level ∧ (t.therm die).dvfs = x.dvfs))
  ∧ (∀ s : State, s.clocksRun = true →
    (∀ w : Nat,
      let a := averageNat ((w :: s.power.window).take 10)
      let cap := 10 * s.power.cap.toNat
      ∃ t, exec (.powerSample w) s = .next t ∧ t.power.window = (w :: s.power.window).take 10 ∧ t.power.now = BitVec.ofNat 32 a ∧ t.power.cap = s.power.cap
        ∧ t.power.lowRun = (if 100 * a < 97 * cap then s.power.lowRun + 1 else 0)
        ∧ t.power.level = (if cap < a then min s.maxLevel (s.power.level + 1)
            else if 100 * a < 97 * cap ∧ (s.power.lowRun + 1) % 10 = 0 then s.power.level - 1 else s.power.level)
        ∧ ∀ d < 2, t.therm d = { s.therm d with target := max (s.therm d).hotLevel t.power.level })
    ∧ (∀ die : Nat,
      let x := s.therm die
      (∃ t, exec (.dvfsLevelChange die) s = .next t ∧ (∀ d, d ≠ die → t.therm d = s.therm d)
        ∧ t.therm die = { x with dvfs := x.target, throttleNs := if x.dvfs = 0 then x.throttleNs else x.throttleNs + (s.now - x.since), since := s.now })
      ∧ exec (.voltageDroop die) s = .next (s.setTherm die { x with stretches := bump x.stretches })
      ∧ ∀ m : DWord, ∃ t, exec (.sensorCrossCheck die m) s = .next t ∧ (∀ d, d ≠ die → t.therm d = s.therm d)
        ∧ t.therm die = { x with excluded := x.excluded ||| m }
        ∧ (m &&& ~~~ x.excluded ≠ 0 → (t.hdr die 0xB0).errStatus.getLsbD 0 = true)
        ∧ (m &&& ~~~ x.excluded = 0 → t = s.setTherm die { x with excluded := x.excluded ||| m })))

/-- Cold resets begin: at power-on with the latch of the trip as it was while VIO18 stayed, by RESET_N with the latch cleared, by a FATAL error while the clocks run, which is recorded, and by the second phase lost on a rail unless the device has tripped; the first phase lost is a DEVICE error. Each samples the straps. A cold reset goes on to ready, in BOOT_MODE 0 with the boot flash answering, when the SECURITY firmware verifies: CXL resets are released, and the processor die's cores when the PLATFORM firmware verifies. It halts at step 3 when the boot flash does not answer there, and when the SECURITY firmware does not verify; in RECOVERY it waits at step 4 for both packages; in FALLBACK every component whose other slot is fit boots from it. -/
def Obligations.ColdResetsBeginAndReachReady : Prop :=
  (∀ (s : State) (x : Straps),
    (∀ vio18 : Bool, ∃ t, exec (.por x vio18) s = .next t ∧ Claims.ColdBegun 1 x (s.rst.trip && vio18) s t ∧ t.flash = s.flash)
    ∧ (∃ t, exec (.resetN x) s = .next t ∧ Claims.ColdBegun 2 x false s t ∧ t.flash = s.flash)
    ∧ (∀ die page bit : Nat,
      (s.rst.phase ≠ .halted → s.rst.phase ≠ .tripped → ∃ t, exec (.fatal die page bit x) s = .next t
        ∧ Claims.ColdBegun 8 x false s t ∧ t.flash = { s.flash with fatal := some (die, page, bit) }
        ∧ (t.rst.phase = .cold → (t.hdr t.lead 0xC1).errStatus.getLsbD 0 = true))
      ∧ (s.rst.phase = .halted ∨ s.rst.phase = .tripped → exec (.fatal die page bit x) s = .next s))
    ∧ ∀ rail : Nat, s.rst.phase ≠ .tripped →
      (rail ∈ s.ras.phases → ∃ t, exec (.regulatorPhaseLoss rail x) s = .next t ∧ Claims.ColdBegun 8 x false s t)
      ∧ (rail ∉ s.ras.phases → exec (.regulatorPhaseLoss rail x) s = .next ((s.setRas { s.ras with phases := rail :: s.ras.phases }).rasReport 3)))
  ∧ (∀ (bad : List Nat) (cxl : List CxlDev) (flashOk : Bool) (s : State), s.rst.phase = .cold →
    (flashOk = false → s.rst.step = 3 → exec (.coldResetReady bad cxl flashOk) s = .next (s.setRst { s.rst with phase := .halted, fail := 3 }))
    ∧ (flashOk = true ∨ s.rst.step ≠ 3 →
      (s.straps.boot = 0 → s.bootOk 1 = true → ∃ t, exec (.coldResetReady bad cxl flashOk) s = .next t
        ∧ t.rst.phase = .ready ∧ t.rst.step = 10 ∧ t.rst.cause = s.rst.cause ∧ t.rst.readyTime = s.now ∧ t.rst.kicked = s.now
        ∧ t.proc.released = s.bootOk 2 ∧ t.proc.sram = (if s.bootOk 2 = true then s.fwBody 2 else [])
        ∧ (∀ k < 2, (t.cxl k).perst = false)
        ∧ t.sec.bridgeKey = true ∧ t.ras.ctrlUp = true ∧ t.flash.comps = s.flash.comps)
      ∧ (s.straps.boot = 0 → s.bootOk 1 = false → exec (.coldResetReady bad cxl flashOk) s = .next (s.setRst { s.rst with phase := .halted, fail := 4 }))
      ∧ (s.straps.boot = 2 → s.bootOk 1 = true → 1 ∉ s.rst.recovered ∨ 2 ∉ s.rst.recovered → ∃ t, exec (.coldResetReady bad cxl flashOk) s = .next t
        ∧ t.rst.phase = .cold ∧ t.rst.step = 4 ∧ t.rst.fail = 7 ∧ t = { s with rst := t.rst })
      ∧ (s.straps.boot = 1 → s.rst.step = 3 → ∃ t, exec (.coldResetReady bad cxl flashOk) s = .next t
        ∧ ∀ k, 1 ≤ k → k ≤ 6 → (t.comp k).activeB = (s.comp k).activeB.xor (s.slotOk k (s.comp k).staged))))

/-- Warm resets begin by the pin, by the watchdog while it is enabled, and after RESET DEVICE; during a warm reset a source only adds its cause, and before ready it is ignored. At the end every unit that was held is thawed, CXL resets are released, the device is ready again, and every endpoint shows LINK_RESET. -/
def Obligations.WarmResetsBeginAndEnd : Prop :=
  ∀ s : State,
    (s.rst.phase = .ready →
      (∃ t, exec .warmResetN s = .next t ∧ Claims.WarmBegun 16 s t)
      ∧ (s.rst.wdt ≠ 0 → ∃ t, exec .watchdog s = .next t ∧ Claims.WarmBegun 32 s t
          ∧ (t.hdr t.lead 0xC1).errStatus.getLsbD 1 = true)
      ∧ (s.rst.devPending = true → ∃ t, exec .warmResetStart s = .next t ∧ Claims.WarmBegun 64 s t))
    ∧ (s.rst.wdt = 0 → exec .watchdog s = .next s)
    ∧ (s.rst.devPending = false → exec .warmResetStart s = .next s)
    ∧ (s.rst.phase = .warm → exec .warmResetN s = .next (s.setRst { s.rst with cause := s.rst.cause ||| 16 }))
    ∧ (s.rst.phase = .cold ∨ s.rst.phase = .halted ∨ s.rst.phase = .tripped → exec .warmResetN s = .next s ∧ exec .watchdog s = .next s)
    ∧ (s.rst.phase = .warm → ∃ t, exec .warmResetReady s = .next t
      ∧ t.rst.phase = .ready ∧ t.rst.step = 10 ∧ t.rst.readyTime = s.now ∧ t.rst.kicked = s.now ∧ t.rst.heldUnits = []
      ∧ (Memory.wf s.mem = true → ∀ a ∈ s.rst.heldUnits, ∀ i, i < 2 ^ 30 → cellAt t.mem (a + i) = none)
      ∧ (∀ e < 8, (t.ep e).linkReset = true) ∧ (∀ k < 2, (t.cxl k).perst = false) ∧ t.sec.bridgeKey = true ∧ t.sec.epoch = s.sec.epoch + 1)

/-- A partition reset waits for a planned calving, then resets the partition's floes with their scratchpads, discards its image and work, and leaves its grant, keys and binding: the partition is CLAIMED and the measurement epoch advances. Block and device resets. A RESET of a block that may be reset and is not begins it, by the handshake or at once by the isolation wrapper, and its answer waits; a page that may not be reset is answered BAD_ARG with DETAIL 4, and one being reset BUSY. The reset of a CXL port drives its PERST_N low until its end, and the isolation of a controller or port ends the requests of the copies in flight there. An escalation is a CONTAINED error. At the end of a reset the header is reset but for its record of resets, a floe site's floe begins anew and the measurement epoch advances. RESET DEVICE is answered and its warm reset is to start, or is answered BUSY. -/
def Obligations.PartitionBlockAndDeviceResets : Prop :=
  (∀ (pv : Nat) (s : State),
    (s.calving pv = true → exec (.resetPartition pv) s = .next s)
    ∧ ∀ (s1 : State) (c : GwyPkt), s.calving pv = false → s.takeCmd pv (isReset 0) = some (c, s1) →
      s1.acceptCmd c (c.arg0 == 0 && c.arg1 == 0 && c.payload.isEmpty) true false (fun st => st != .free && st != .thawing) = none →
      ∃ t, exec (.resetPartition pv) s = .next t
        ∧ (t.part pv).st = .claimed ∧ (t.part pv).image = none ∧ (t.part pv).load = none ∧ (t.part pv).steps = [] ∧ (t.part pv).steers = []
        ∧ (t.part pv).groups = (s.part pv).groups ∧ (t.part pv).near = (s.part pv).near ∧ (t.part pv).cxl = (s.part pv).cxl
        ∧ (t.part pv).keys = (s.part pv).keys ∧ (t.part pv).owner = (s.part pv).owner
        ∧ (∀ f ∈ s.partFloes pv, t.floe f = {} ∧ (Memory.wf s.mem = true → f < 208 → ∀ off, off < spSize → t.byte (spAddr f off) = 0))
        ∧ t.sec.epoch = s.sec.epoch + 1)
  ∧ ((∀ (s s1 : State) (c : GwyPkt), Claims.RunsReset 1 (fun c => c.arg0.toNat < 8 && c.payload.isEmpty) s c s1 →
    let a := c.arg1.toNat
    let die := a / 0x4000000
    let page := a % 0x4000000 / 0x1000
    let iso := c.arg0.getLsbD 2
    (a % 0x1000 ≠ 0 ∨ 2 ≤ die ∨ s1.resetOk die page = false → exec .resetBlock s = .next (s1.respond c 0x06 4 0 0 []))
    ∧ (a % 0x1000 = 0 → die < 2 → s1.resetOk die page = true →
      ((s.hdr die page).resetState ≠ 0 → exec .resetBlock s = .next (s1.respond c 0x0B 0 0 0 []))
      ∧ ((s.hdr die page).resetState = 0 → ∃ t, exec .resetBlock s = .next t
          ∧ (t.hdr die page).resetState = (if iso then 2 else 1) ∧ (t.hdr die page).escalated = false
          ∧ t.cmdq.head? = some { c with busy := true } ∧ (pageType page = 4 → (t.cxl die).perst = true)
          ∧ (iso = true → pageType page = 3 ∨ pageType page = 4 → ∀ f < s.variant.floes, ∀ o ∈ (t.floe f).xfers, (die, page) ∈ o.ended)
          ∧ (iso = false ∨ pageType page ≠ 3 ∧ pageType page ≠ 4 → t.cmdq = { c with busy := true } :: s1.cmdq
              ∧ t.hdr die page = { s.hdr die page with resetState := if iso then 2 else 1, escalated := false }))))
  ∧ (∀ (die page : Nat) (s : State),
    let h := s.hdr die page
    (h.resetState = 1 → ∃ t, exec (.blockResetEscalation die page) s = .next t
      ∧ (t.hdr die page).resetState = 2 ∧ (t.hdr die page).escalated = true ∧ t.ras.pending.getLsbD 1 = true
      ∧ (pageType page ≠ 3 → t.hdr die page = { h with resetState := 2, escalated := true }))
    ∧ (h.resetState ≠ 1 → exec (.blockResetEscalation die page) s = .next s)
    ∧ (h.resetState = 0 → exec (.blockResetComplete die page) s = .next s)
    ∧ (h.resetState ≠ 0 → ∃ t, exec (.blockResetComplete die page) s = .next t
      ∧ (t.hdr die page).resetState = 0 ∧ (t.hdr die page).resets = satInc h.resets ∧ (t.hdr die page).escalated = h.escalated
      ∧ (pageType page ≠ 5 → t.hdr die page = { escalated := h.escalated, resets := satInc h.resets })
      ∧ (∀ c ∈ t.cmdq, blockCmd die page c = false)
      ∧ (pageType page = 2 → t.floe (s.siteKey (die * 112 + (page - 1))) = {})
      ∧ (pageType page = 4 → (t.cxl die).perst = false)
      ∧ t.sec.epoch = s.sec.epoch + 1))
  ∧ ∀ (s s1 : State) (c : GwyPkt), Claims.RunsReset 2 (fun c => c.arg0 == 2 && c.arg1 == 0 && c.payload.isEmpty) s c s1 →
    (s.sec.fwAct ≠ none ∨ s.rst.devPending = true → exec .resetDevice s = .next (s1.respond c 0x0B 0 0 0 []))
    ∧ (s.sec.fwAct = none → s.rst.devPending = false →
        exec .resetDevice s = .next ((s1.setRst { s.rst with devPending := true }).respond c 0 0 0 0 [])))

/-- The registers right after power-on reset hold the values of their Reset columns: thermal, power, reset, time, partition, security and near-memory map pages; the weights; streams idle at PC 0 with nothing in RA0 and RA1; headers; no endpoint enabled and no module up. -/
def Obligations.ResetColumnsHold : Prop :=
  let s := State.reset
  (∀ die off, off < 0x60 → s.thermReg die off = 0) ∧ s.thermReg s.lead 0x060 = 2800 ∧ s.thermReg s.lead 0x064 = 0
  ∧ s.rstReg 0x040 = 1 ∧ s.rstReg 0x044 = 0 ∧ s.rstReg 0x050 = 0 ∧ s.rstReg 0x058 = 0
  ∧ s.timeReg 0x040 = 0 ∧ s.timeReg 0x048 = 0 ∧ s.timeReg 0x050 = 0 ∧ s.timeReg 0x058 = 0 ∧ s.time.aligned = false
  ∧ s.partReg 0x040 = 0 ∧ s.partReg 0x044 = 0xFFFFFFFF ∧ s.partReg 0x048 = 0
  ∧ (∀ p, p < 8 → (s.part p).st = .free ∧ s.partReg (0x50 + 8 * p) = 0 ∧ s.partReg (0x90 + 4 * p) = 0 ∧ s.partReg (0xB0 + 8 * p) = 0)
  ∧ s.secReg 0x04C = 0 ∧ s.secReg 0x060 = 0 ∧ s.sec.presence = false ∧ s.sec.intact = false ∧ s.sec.debugOn = false ∧ s.sec.mfg = false
  ∧ s.nmmapReg 0x044 = 0x41 ∧ s.nmmapReg 0x048 = 0 ∧ s.nmmapReg 0x060 = 0x44444444 ∧ s.routerReg 0x074 = 0x44444444
  ∧ (∀ f st, (s.stream f st).st = .idle ∧ (s.stream f st).pc = 0 ∧ (s.stream f st).fault = 0 ∧ (s.stream f st).issued = 0
      ∧ ∀ i, Tbl.get 0 (s.stream f st).ra0 i = 0 ∧ Tbl.get 0 (s.stream f st).ra1 i = 0)
  ∧ (∀ die page, (s.hdr die page).hold = false ∧ (s.hdr die page).freeze = false ∧ (s.hdr die page).errStatus = 0 ∧ (s.hdr die page).errMask = 0
      ∧ (s.hdr die page).intStatus = 0 ∧ (s.hdr die page).intEnable = 0 ∧ (s.hdr die page).resetState = 0 ∧ (s.hdr die page).errCount = 0)
  ∧ (∀ e, (s.ep e).enable = false ∧ (s.ep e).mgmt = false) ∧ ∀ m, (s.mod m).up = false ∧ (s.mod m).rate = false

/-- Every block that CVT.BS16 makes of 32 values, and every sum of two well-formed blocks, is well formed and in normal form; a well-formed block that is received, in normal form or not, is accepted at its value. The sum of two well-formed blocks does not depend on their order, a zero block without flags adds nothing to a block in normal form, and a poisoned operand poisons the sum with all mantissas 0. -/
def Obligations.BlocksAreInNormalForm : Prop :=
  ((∀ l : List F32, l.length = 32 → Claims.BlockOk (bsConvert (l.map val32)) ∧ Claims.NormalForm (bsConvert (l.map val32)))
  ∧ (∀ a b : Bs, Claims.BlockOk a → Claims.BlockOk b → Claims.BlockOk (bsAdd a b) ∧ Claims.NormalForm (bsAdd a b))
  ∧ ∀ b : Bs, Claims.BlockOk b → b.bytes.length = 68 ∧ bsParse b.bytes = (b, false))
  ∧ (∀ a b : Bs, Claims.BlockOk a → Claims.BlockOk b →
    bsAdd a b = bsAdd b a
    ∧ (a.pois = true → bsAdd a b = { m := List.replicate 32 0, exp := 0, pois := true, sat := a.sat || b.sat })
    ∧ (Claims.NormalForm a → a.pois = false → a.sat = false → (a.exp ≠ 0 → ∃ x ∈ a.m, x ≠ 0) → bsAdd a (Bs.none false false) = a))

/-- RNE to a multiple of 2^q gives the nearest one, the even one of two equally near; the sign is restored after the magnitude is rounded; stochastic rounding gives the multiple below or the one above, and an exact value itself. -/
def Obligations.RoundingIsToNearest : Prop :=
  ∀ (m : Nat) (e q : Int),
    (q ≤ e → rneAt m e q = m * 2 ^ (e - q).toNat ∧ ∀ d, srAt m e q d = m * 2 ^ (e - q).toNat)
    ∧ (e < q →
      let u := 2 ^ (q - e).toNat
      let k := rneAt m e q
      2 * m ≤ (2 * k + 1) * u ∧ 2 * k * u ≤ 2 * m + u
      ∧ (2 * m = (2 * k + 1) * u ∨ 2 * k * u = 2 * m + u → k % 2 = 0)
      ∧ ∀ d, d < 65536 → srAt m e q d = m / u ∨ (srAt m e q d = m / u + 1 ∧ m % u ≠ 0))
    ∧ ∀ v : Int, rneInt v e = if v < 0 then -((rneAt v.natAbs e 0 : Nat) : Int) else ((rneAt v.natAbs e 0 : Nat) : Int)

/-- The k experts that GATE.TOPK chooses of the logits of a token are distinct, in order of choice, and before every expert it does not choose. With all storage good, its completion stores them in that order as bytes 0-7 of the record of each token, 255 where there is no choice. -/
def Obligations.TopExpertsAreTheLargest : Prop :=
  (∀ (l : List F32) (k : Nat), k ≤ l.length →
    let c := topExperts l k
    c.length = k ∧ c.Nodup ∧ (∀ d ∈ c, d < l.length)
    ∧ (∀ i j, i < j → j < k → Claims.ChosenBefore (l.getD (c.getD i 0) 0) (c.getD i 0) (l.getD (c.getD j 0) 0) (c.getD j 0))
    ∧ ∀ d ∈ c, ∀ e, e < l.length → e ∉ c → Claims.ChosenBefore (l.getD d 0) d (l.getD e 0) e)
  ∧ ∀ (f : Nat) (o : CondOp) (s : State), Claims.Good s → Memory.wf s.mem = true → (s.floe f).vu = .cond o → opOf o.w = 0x38 → s.lostAt (recAt o.dB o.first) = false →
    ∃ t, exec (.gatePackComplete f []) s = .next t ∧ ∀ i < gateN o.w, ∀ j < 8, t.byte (recAt o.dB (o.first + i) + j)
      = BitVec.ofNat 8 ((topExperts (s.logits [] o.dA (gateE o.w) (o.first + i)) (gateK o.w)).getD j 255)

/-- While an activation is in progress or a device reset is to start, FW_ACTIVATE, a device reset and every privileged operation are answered BUSY with no other effect; so is FW_STAGE for the component being activated. -/
def Obligations.BusyWhileAnotherIsInProgress : Prop :=
  ∀ (s s1 : State) (c : GwyPkt),
    (s.sec.fwAct ≠ none ∨ s.rst.devPending = true →
      (Claims.RunsOp 0x31 (fun c => isComp c.arg0.toNat && c.arg1 == 0 && c.payload.isEmpty) s c s1 → exec .fwActivate s = .next (s1.respond c 0x0B 0 0 0 []))
      ∧ (Claims.RunsReset 2 (fun c => c.arg0 == 2 && c.arg1 == 0 && c.payload.isEmpty) s c s1 → exec .resetDevice s = .next (s1.respond c 0x0B 0 0 0 []))
      ∧ ∀ (op n k : Nat) (i : Instr),
        (op, n, k, i) ∈ [(1, 136, 1, Instr.ownerChange), (2, 4, 1, .debugEnable), (3, 0, 1, .debugLock), (4, 4, 1, .keyRevoke),
          (5, 0, 2, .mfgMode), (6, 140, 1, .imageKeyEnroll), (7, 8, 1, .imageMinVersion)] →
        s.takeOp (isPriv op) = some (c, s1) →
        s1.acceptCmd c (bitsOf c.arg0.toNat 8 56 == 0 && c.arg1 == 0 && privOk op n k c.payload) false true (fun _ => true) = none →
        exec i s = .next (s1.respond c 0x0B 0 0 0 []))
    ∧ ∀ a, s.sec.fwAct = some a → a.comp = bitsOf c.arg0.toNat 0 8 →
      Claims.RunsOp 0x30 (fun c => bitsOf c.arg0.toNat 8 24 == 0 && isComp (bitsOf c.arg0.toNat 0 8)) s c s1 →
      exec .fwStage s = .next (s1.respond c 0x0B 0 0 0 [])

end
end

