-- ==== Sys2Proof/Laws/Mem.lean ====
section
/-! SUPPORT. The laws of memory: its canonical form is kept by every operation, a read after a write gives what was written, and every other byte is untouched. -/

namespace Sys2Proof.Machine

/-- Above is subtraction. -/
@[simp] theorem above_eq (a b : Nat) : above a b = a - b := by unfold above; omega

/-- A cell that canonical memory may list: no scratchpad byte of 0. -/
def Memory.cellOk (c : Host.Cell) : Bool := !(isSp c.1 && c.2 == 0)
/-- The canonical form, said with Pairwise. -/
theorem Memory.wf_iff (m : List Host.Cell) :
    Memory.wf m = true ↔ m.Pairwise (fun c d => c.1 < d.1) ∧ ∀ c ∈ m, Memory.cellOk c = true := by
  induction m with
  | nil => simp [Memory.wf]
  | cons c r ih =>
    simp only [Memory.wf, Bool.and_eq_true, ih, List.pairwise_cons, List.mem_cons, forall_eq_or_imp, Memory.cellOk]
    constructor
    · rintro ⟨⟨h1, h2⟩, h3, h4⟩
      refine ⟨⟨?_, h3⟩, h1, h4⟩
      cases r with
      | nil => simp
      | cons d t =>
        intro x hx
        have hcd : c.1 < d.1 := by simpa using h2
        rcases List.mem_cons.mp hx with rfl | hx
        · exact hcd
        · exact Nat.lt_trans hcd ((List.pairwise_cons.mp h3).1 x hx)
    · rintro ⟨⟨h1, h2⟩, h3, h4⟩
      refine ⟨⟨h3, ?_⟩, h2, h4⟩
      cases r with
      | nil => rfl
      | cons d t => simpa using h1 d (by simp)

theorem cellsBelow_sublist (a : Nat) (m : List Host.Cell) : (cellsBelow a m).Sublist m := by
  induction m with
  | nil => simp [cellsBelow]
  | cons c r ih => simp only [cellsBelow]; split <;> simp [ih]
theorem cellsFrom_sublist (a : Nat) (m : List Host.Cell) : (cellsFrom a m).Sublist m := by
  induction m with
  | nil => simp [cellsFrom]
  | cons c r ih =>
    simp only [cellsFrom]; split
    · exact ih.trans (List.sublist_cons_self c r)
    · exact List.Sublist.refl _
theorem cellsBelow_lt {a : Nat} {m : List Host.Cell} {c : Host.Cell} (h : c ∈ cellsBelow a m) : c.1 < a := by
  induction m with
  | nil => simp [cellsBelow] at h
  | cons d r ih =>
    simp only [cellsBelow] at h
    split at h
    · rcases List.mem_cons.mp h with rfl | h
      · assumption
      · exact ih h
    · simp at h
theorem cellsFrom_ge {a : Nat} {m : List Host.Cell} (hm : m.Pairwise (fun c d => c.1 < d.1)) {c : Host.Cell}
    (h : c ∈ cellsFrom a m) : a ≤ c.1 := by
  induction m with
  | nil => simp [cellsFrom] at h
  | cons d r ih =>
    simp only [cellsFrom] at h
    split at h
    · exact ih hm.of_cons h
    · rcases List.mem_cons.mp h with rfl | h
      · omega
      · have := (List.pairwise_cons.mp hm).1 c h; omega
theorem newCells_mem {a : Nat} {l : List Byte} {c : Host.Cell} (h : c ∈ newCells a l) :
    a ≤ c.1 ∧ c.1 < a + l.length ∧ Memory.cellOk c = true := by
  induction l generalizing a with
  | nil => simp [newCells] at h
  | cons b r ih =>
    simp only [newCells] at h
    split at h
    · obtain ⟨h1, h2, h3⟩ := ih h
      simp only [List.length_cons]
      exact ⟨by omega, by omega, h3⟩
    · rename_i hb
      rcases List.mem_cons.mp h with rfl | h
      · simp only [List.length_cons, Memory.cellOk]
        exact ⟨Nat.le_refl _, by omega, by simp_all [Classical.or_iff_not_imp_left]⟩
      · obtain ⟨h1, h2, h3⟩ := ih h
        simp only [List.length_cons]
        exact ⟨by omega, by omega, h3⟩
theorem newCells_pairwise (a : Nat) (l : List Byte) : (newCells a l).Pairwise (fun c d => c.1 < d.1) := by
  induction l generalizing a with
  | nil => simp [newCells]
  | cons b r ih =>
    simp only [newCells]
    split
    · exact ih _
    · exact List.pairwise_cons.mpr ⟨fun c hc => by have := newCells_mem hc; simp only; omega, ih _⟩

/-- Writing a run of bytes keeps the canonical form. -/
theorem putBytes_wf {m : List Host.Cell} (a : Nat) (l : List Byte) (h : Memory.wf m = true) : Memory.wf (putBytes m a l) = true := by
  rw [Memory.wf_iff] at h ⊢
  obtain ⟨hp, ho⟩ := h
  refine ⟨?_, ?_⟩
  · simp only [putBytes, List.append_assoc, List.pairwise_append]
    refine ⟨hp.sublist (cellsBelow_sublist _ _), ⟨newCells_pairwise a l, hp.sublist (cellsFrom_sublist _ _), ?_⟩, ?_⟩
    · intro c hc d hd
      have := newCells_mem hc; have := cellsFrom_ge hp hd; omega
    · intro c hc d hd
      have h1 := cellsBelow_lt hc
      rcases List.mem_append.mp hd with hd | hd
      · have := newCells_mem hd; omega
      · have := cellsFrom_ge hp hd; omega
  · intro c hc
    simp only [putBytes, List.append_assoc, List.mem_append] at hc
    rcases hc with hc | hc | hc
    · exact ho c ((cellsBelow_sublist _ _).subset hc)
    · exact (newCells_mem hc).2.2
    · exact ho c ((cellsFrom_sublist _ _).subset hc)
/-- Forgetting a range keeps the canonical form. -/
theorem dropBytes_wf {m : List Host.Cell} (a n : Nat) (h : Memory.wf m = true) : Memory.wf (dropBytes m a n) = true := by
  rw [Memory.wf_iff] at h ⊢
  obtain ⟨hp, ho⟩ := h
  refine ⟨?_, ?_⟩
  · simp only [dropBytes, List.pairwise_append]
    refine ⟨hp.sublist (cellsBelow_sublist _ _), hp.sublist (cellsFrom_sublist _ _), ?_⟩
    intro c hc d hd
    have := cellsBelow_lt hc; have := cellsFrom_ge hp hd; omega
  · intro c hc
    simp only [dropBytes, List.mem_append] at hc
    rcases hc with hc | hc
    · exact ho c ((cellsBelow_sublist _ _).subset hc)
    · exact ho c ((cellsFrom_sublist _ _).subset hc)

/-! ## Reads after writes -/

theorem cellAt_append (l m : List Host.Cell) (x : Nat) : cellAt (l ++ m) x = (cellAt l x).or (cellAt m x) := by
  induction l with
  | nil => simp [cellAt]
  | cons c r ih => simp only [List.cons_append, cellAt]; split <;> simp [ih]
theorem cellAt_none {m : List Host.Cell} {x : Nat} (h : ∀ c ∈ m, c.1 ≠ x) : cellAt m x = none := by
  induction m with
  | nil => rfl
  | cons c r ih => simp only [cellAt]; rw [if_neg (h c (by simp))]; exact ih (fun d hd => h d (by simp [hd]))
theorem cellAt_below {a x : Nat} {m : List Host.Cell} (hm : m.Pairwise (fun c d => c.1 < d.1)) (h : x < a) :
    cellAt (cellsBelow a m) x = cellAt m x := by
  induction m with
  | nil => rfl
  | cons c r ih =>
    simp only [cellsBelow]
    split
    · simp only [cellAt]; rw [ih hm.of_cons]
    · rw [cellAt_none (by simp), cellAt_none]
      intro d hd
      rcases List.mem_cons.mp hd with rfl | hd
      · omega
      · have := (List.pairwise_cons.mp hm).1 d hd; omega
theorem cellAt_from {a x : Nat} {m : List Host.Cell} (h : a ≤ x) : cellAt (cellsFrom a m) x = cellAt m x := by
  induction m with
  | nil => rfl
  | cons c r ih =>
    simp only [cellsFrom]
    split
    · rw [ih]; simp only [cellAt]; rw [if_neg (by omega)]
    · rfl
/-- A byte outside a written run is untouched. -/
theorem cellAt_putBytes_other {m : List Host.Cell} (hm : Memory.wf m = true) {a x : Nat} {l : List Byte} (h : x < a ∨ a + l.length ≤ x) :
    cellAt (putBytes m a l) x = cellAt m x := by
  have hp := ((Memory.wf_iff m).mp hm).1
  have hn : cellAt (newCells a l) x = none := cellAt_none (fun c hc => by have := newCells_mem hc; omega)
  simp only [putBytes, cellAt_append, hn, Option.or_none]
  rcases h with h | h
  · rw [cellAt_below hp h, cellAt_none (m := cellsFrom _ _) (fun c hc => by have := cellsFrom_ge hp hc; omega), Option.or_none]
  · rw [cellAt_none (m := cellsBelow _ _) (fun c hc => by have := cellsBelow_lt hc; omega), Option.none_or, cellAt_from h]
theorem cellAt_newCells {a x : Nat} {l : List Byte} (h1 : a ≤ x) (h2 : x < a + l.length) :
    (cellAt (newCells a l) x = some (l.getD (x - a) 0)) ∨ (isSp x = true ∧ l.getD (x - a) 0 = 0 ∧ cellAt (newCells a l) x = none) := by
  induction l generalizing a with
  | nil => simp at h2; omega
  | cons b r ih =>
    simp only [List.length_cons] at h2
    by_cases hx : x = a
    · subst hx
      have hno : cellAt (newCells (x + 1) r) x = none := cellAt_none (fun c hc => by have := newCells_mem hc; omega)
      simp only [newCells]
      split
      · rename_i hb
        right; simp_all
      · left; simp [cellAt]
    · have e : x - a = (x - (a + 1)) + 1 := by omega
      have k := ih (a := a + 1) (by omega) (by omega)
      rw [e, List.getD_cons_succ]
      simp only [newCells]
      split
      · exact k
      · simp only [cellAt]; rw [if_neg (fun q => hx q.symm)]; exact k
theorem cellAt_putBytes_in {m : List Host.Cell} (hm : Memory.wf m = true) {a x : Nat} {l : List Byte} (h1 : a ≤ x) (h2 : x < a + l.length) :
    cellAt (putBytes m a l) x = cellAt (newCells a l) x := by
  have hp := ((Memory.wf_iff m).mp hm).1
  simp only [putBytes, cellAt_append]
  rw [cellAt_none (m := cellsBelow _ _) (fun c hc => by have := cellsBelow_lt hc; omega),
    cellAt_none (m := cellsFrom _ _) (fun c hc => by have := cellsFrom_ge hp hc; omega)]
  simp

@[simp] theorem State.poke_blank (s : State) (a x : Nat) (l : List Byte) : (s.poke a l).blank x = s.blank x := rfl
/-- A byte outside a written run reads as before. -/
theorem State.poke_byte_other {s : State} (hm : Memory.wf s.mem = true) {a x : Nat} {l : List Byte} (h : x < a ∨ a + l.length ≤ x) :
    (s.poke a l).byte x = s.byte x := by
  unfold State.byte
  rw [show (s.poke a l).mem = putBytes s.mem a l from rfl, cellAt_putBytes_other hm h, State.poke_blank]
/-- A byte of a written run reads as written. -/
theorem State.poke_byte_in {s : State} (hm : Memory.wf s.mem = true) {a x : Nat} {l : List Byte} (h1 : a ≤ x) (h2 : x < a + l.length) :
    (s.poke a l).byte x = l.getD (x - a) 0 := by
  unfold State.byte
  rw [show (s.poke a l).mem = putBytes s.mem a l from rfl, cellAt_putBytes_in hm h1 h2, State.poke_blank]
  rcases cellAt_newCells (l := l) h1 h2 with k | ⟨k1, k2, k3⟩
  · rw [k]; rfl
  · rw [k3, k2]; simp [State.blank, k1]
@[simp] theorem State.poke_part (s : State) (a p : Nat) (l : List Byte) : (s.poke a l).part p = s.part p := rfl
@[simp] theorem State.poke_floe (s : State) (a f : Nat) (l : List Byte) : (s.poke a l).floe f = s.floe f := rfl
@[simp] theorem State.poke_now (s : State) (a : Nat) (l : List Byte) : (s.poke a l).now = s.now := rfl

end Sys2Proof.Machine
end

