-- ==== Sys2Proof/Laws/State.lean ====
section
/-! SUPPORT. One lemma for each field of State under each update, and the laws of the tables that hold registers by number. -/

namespace Sys2Proof

theorem Tbl.find_put {α : Type} (t : Tbl α) (k j : Nat) (v : α) : Tbl.find (t.put k v) j = if j = k then some v else Tbl.find t j := by
  induction t with
  | nil =>
    by_cases h : j = k
    · simp [Tbl.put, Tbl.find, h]
    · simp [Tbl.put, Tbl.find, h, Ne.symm h]
  | cons e r ih =>
    obtain ⟨i, w⟩ := e
    simp only [Tbl.put]
    split
    · by_cases h : j = k
      · simp [Tbl.find, h]
      · simp [Tbl.find, h, Ne.symm h]
    · split
      · subst_vars
        by_cases h : j = i
        · simp [Tbl.find, h]
        · simp [Tbl.find, h, Ne.symm h]
      · by_cases h : j = k
        · subst h; simp only [Tbl.find, ih, if_true]; rw [if_neg (by omega)]
        · simp only [Tbl.find, ih, h, if_false]
theorem Tbl.get_put {α : Type} (d : α) (t : Tbl α) (k j : Nat) (v : α) : Tbl.get d (t.put k v) j = if j = k then v else Tbl.get d t j := by
  simp only [Tbl.get, Tbl.find_put]; split <;> rfl
@[simp] theorem Tbl.get_put_same {α : Type} (d : α) (t : Tbl α) (k : Nat) (v : α) : Tbl.get d (t.put k v) k = v := by simp [Tbl.get_put]
theorem Tbl.get_put_ne {α : Type} (d : α) (t : Tbl α) {k j : Nat} (v : α) (h : j ≠ k) : Tbl.get d (t.put k v) j = Tbl.get d t j := by simp [Tbl.get_put, h]

end Sys2Proof

namespace Sys2Proof.Machine

@[simp] theorem State.setFloe_variant (s : State) (f : Nat) (x : Floe) : (s.setFloe f x).variant = s.variant := rfl
@[simp] theorem State.setFloe_straps (s : State) (f : Nat) (x : Floe) : (s.setFloe f x).straps = s.straps := rfl
@[simp] theorem State.setFloe_signals (s : State) (f : Nat) (x : Floe) : (s.setFloe f x).signals = s.signals := rfl
@[simp] theorem State.setFloe_parts (s : State) (f : Nat) (x : Floe) : (s.setFloe f x).parts = s.parts := rfl
@[simp] theorem State.setFloe_rejects (s : State) (f : Nat) (x : Floe) : (s.setFloe f x).rejects = s.rejects := rfl
@[simp] theorem State.setFloe_steer (s : State) (f : Nat) (x : Floe) : (s.setFloe f x).steer = s.steer := rfl
@[simp] theorem State.setFloe_mem (s : State) (f : Nat) (x : Floe) : (s.setFloe f x).mem = s.mem := rfl
@[simp] theorem State.setFloe_spBad (s : State) (f : Nat) (x : Floe) : (s.setFloe f x).spBad = s.spBad := rfl
@[simp] theorem State.setFloe_poison (s : State) (f : Nat) (x : Floe) : (s.setFloe f x).poison = s.poison := rfl
@[simp] theorem State.setFloe_eps (s : State) (f : Nat) (x : Floe) : (s.setFloe f x).eps = s.eps := rfl
@[simp] theorem State.setFloe_cmdq (s : State) (f : Nat) (x : Floe) : (s.setFloe f x).cmdq = s.cmdq := rfl
@[simp] theorem State.setFloe_msis (s : State) (f : Nat) (x : Floe) : (s.setFloe f x).msis = s.msis := rfl
@[simp] theorem State.setFloe_i3c (s : State) (f : Nat) (x : Floe) : (s.setFloe f x).i3c = s.i3c := rfl
@[simp] theorem State.setFloe_ucie (s : State) (f : Nat) (x : Floe) : (s.setFloe f x).ucie = s.ucie := rfl
@[simp] theorem State.setFloe_nmcs (s : State) (f : Nat) (x : Floe) : (s.setFloe f x).nmcs = s.nmcs := rfl
@[simp] theorem State.setFloe_nm (s : State) (f : Nat) (x : Floe) : (s.setFloe f x).nm = s.nm := rfl
@[simp] theorem State.setFloe_cxls (s : State) (f : Nat) (x : Floe) : (s.setFloe f x).cxls = s.cxls := rfl
@[simp] theorem State.setFloe_router (s : State) (f : Nat) (x : Floe) : (s.setFloe f x).router = s.router := rfl
@[simp] theorem State.setFloe_chips (s : State) (f : Nat) (x : Floe) : (s.setFloe f x).chips = s.chips := rfl
@[simp] theorem State.setFloe_oed (s : State) (f : Nat) (x : Floe) : (s.setFloe f x).oed = s.oed := rfl
@[simp] theorem State.setFloe_sled (s : State) (f : Nat) (x : Floe) : (s.setFloe f x).sled = s.sled := rfl
@[simp] theorem State.setFloe_time (s : State) (f : Nat) (x : Floe) : (s.setFloe f x).time = s.time := rfl
@[simp] theorem State.setFloe_therms (s : State) (f : Nat) (x : Floe) : (s.setFloe f x).therms = s.therms := rfl
@[simp] theorem State.setFloe_power (s : State) (f : Nat) (x : Floe) : (s.setFloe f x).power = s.power := rfl
@[simp] theorem State.setFloe_rst (s : State) (f : Nat) (x : Floe) : (s.setFloe f x).rst = s.rst := rfl
@[simp] theorem State.setFloe_ras (s : State) (f : Nat) (x : Floe) : (s.setFloe f x).ras = s.ras := rfl
@[simp] theorem State.setFloe_sec (s : State) (f : Nat) (x : Floe) : (s.setFloe f x).sec = s.sec := rfl
@[simp] theorem State.setFloe_fuses (s : State) (f : Nat) (x : Floe) : (s.setFloe f x).fuses = s.fuses := rfl
@[simp] theorem State.setFloe_flash (s : State) (f : Nat) (x : Floe) : (s.setFloe f x).flash = s.flash := rfl
@[simp] theorem State.setFloe_proc (s : State) (f : Nat) (x : Floe) : (s.setFloe f x).proc = s.proc := rfl
@[simp] theorem State.setFloe_jtag (s : State) (f : Nat) (x : Floe) : (s.setFloe f x).jtag = s.jtag := rfl
@[simp] theorem State.setFloe_hdrs (s : State) (f : Nat) (x : Floe) : (s.setFloe f x).hdrs = s.hdrs := rfl
@[simp] theorem State.setFloe_latches (s : State) (f : Nat) (x : Floe) : (s.setFloe f x).latches = s.latches := rfl
@[simp] theorem State.setFloe_staged (s : State) (f : Nat) (x : Floe) : (s.setFloe f x).staged = s.staged := rfl
@[simp] theorem State.setFloe_fresh (s : State) (f : Nat) (x : Floe) : (s.setFloe f x).fresh = s.fresh := rfl
@[simp] theorem State.setFloe_pending (s : State) (f : Nat) (x : Floe) : (s.setFloe f x).pending = s.pending := rfl
@[simp] theorem State.setFloe_part (s : State) (f : Nat) (x : Floe) (i : Nat) : (s.setFloe f x).part i = s.part i := rfl
@[simp] theorem State.setFloe_ep (s : State) (f : Nat) (x : Floe) (i : Nat) : (s.setFloe f x).ep i = s.ep i := rfl
@[simp] theorem State.setFloe_port (s : State) (f : Nat) (x : Floe) (i : Nat) : (s.setFloe f x).port i = s.port i := rfl
@[simp] theorem State.setFloe_chip (s : State) (f : Nat) (x : Floe) (i : Nat) : (s.setFloe f x).chip i = s.chip i := rfl
@[simp] theorem State.setFloe_oedPort (s : State) (f : Nat) (x : Floe) (i : Nat) : (s.setFloe f x).oedPort i = s.oedPort i := rfl
@[simp] theorem State.setFloe_therm (s : State) (f : Nat) (x : Floe) (i : Nat) : (s.setFloe f x).therm i = s.therm i := rfl
@[simp] theorem State.setFloe_mod (s : State) (f : Nat) (x : Floe) (i : Nat) : (s.setFloe f x).mod i = s.mod i := rfl
@[simp] theorem State.setFloe_nmc (s : State) (f : Nat) (x : Floe) (i : Nat) : (s.setFloe f x).nmc i = s.nmc i := rfl
@[simp] theorem State.setFloe_cxl (s : State) (f : Nat) (x : Floe) (i : Nat) : (s.setFloe f x).cxl i = s.cxl i := rfl
@[simp] theorem State.setFloe_hdr (s : State) (f : Nat) (x : Floe) (i j : Nat) : (s.setFloe f x).hdr i j = s.hdr i j := rfl
@[simp] theorem State.setFloe_now (s : State) (f : Nat) (x : Floe) : (s.setFloe f x).now = s.now := rfl
@[simp] theorem State.setFloe_lead (s : State) (f : Nat) (x : Floe) : (s.setFloe f x).lead = s.lead := rfl
@[simp] theorem State.setFloe_pokes (s : State) (f : Nat) (x : Floe) (b : Nat) (l : List Byte) : (s.setFloe f x).poke b l = (s.poke b l).setFloe f x := rfl
@[simp] theorem State.setPart_variant (s : State) (p : Nat) (x : Part) : (s.setPart p x).variant = s.variant := rfl
@[simp] theorem State.setPart_straps (s : State) (p : Nat) (x : Part) : (s.setPart p x).straps = s.straps := rfl
@[simp] theorem State.setPart_floes (s : State) (p : Nat) (x : Part) : (s.setPart p x).floes = s.floes := rfl
@[simp] theorem State.setPart_signals (s : State) (p : Nat) (x : Part) : (s.setPart p x).signals = s.signals := rfl
@[simp] theorem State.setPart_rejects (s : State) (p : Nat) (x : Part) : (s.setPart p x).rejects = s.rejects := rfl
@[simp] theorem State.setPart_steer (s : State) (p : Nat) (x : Part) : (s.setPart p x).steer = s.steer := rfl
@[simp] theorem State.setPart_mem (s : State) (p : Nat) (x : Part) : (s.setPart p x).mem = s.mem := rfl
@[simp] theorem State.setPart_spBad (s : State) (p : Nat) (x : Part) : (s.setPart p x).spBad = s.spBad := rfl
@[simp] theorem State.setPart_poison (s : State) (p : Nat) (x : Part) : (s.setPart p x).poison = s.poison := rfl
@[simp] theorem State.setPart_eps (s : State) (p : Nat) (x : Part) : (s.setPart p x).eps = s.eps := rfl
@[simp] theorem State.setPart_cmdq (s : State) (p : Nat) (x : Part) : (s.setPart p x).cmdq = s.cmdq := rfl
@[simp] theorem State.setPart_msis (s : State) (p : Nat) (x : Part) : (s.setPart p x).msis = s.msis := rfl
@[simp] theorem State.setPart_i3c (s : State) (p : Nat) (x : Part) : (s.setPart p x).i3c = s.i3c := rfl
@[simp] theorem State.setPart_ucie (s : State) (p : Nat) (x : Part) : (s.setPart p x).ucie = s.ucie := rfl
@[simp] theorem State.setPart_nmcs (s : State) (p : Nat) (x : Part) : (s.setPart p x).nmcs = s.nmcs := rfl
@[simp] theorem State.setPart_nm (s : State) (p : Nat) (x : Part) : (s.setPart p x).nm = s.nm := rfl
@[simp] theorem State.setPart_cxls (s : State) (p : Nat) (x : Part) : (s.setPart p x).cxls = s.cxls := rfl
@[simp] theorem State.setPart_router (s : State) (p : Nat) (x : Part) : (s.setPart p x).router = s.router := rfl
@[simp] theorem State.setPart_chips (s : State) (p : Nat) (x : Part) : (s.setPart p x).chips = s.chips := rfl
@[simp] theorem State.setPart_oed (s : State) (p : Nat) (x : Part) : (s.setPart p x).oed = s.oed := rfl
@[simp] theorem State.setPart_sled (s : State) (p : Nat) (x : Part) : (s.setPart p x).sled = s.sled := rfl
@[simp] theorem State.setPart_time (s : State) (p : Nat) (x : Part) : (s.setPart p x).time = s.time := rfl
@[simp] theorem State.setPart_therms (s : State) (p : Nat) (x : Part) : (s.setPart p x).therms = s.therms := rfl
@[simp] theorem State.setPart_power (s : State) (p : Nat) (x : Part) : (s.setPart p x).power = s.power := rfl
@[simp] theorem State.setPart_rst (s : State) (p : Nat) (x : Part) : (s.setPart p x).rst = s.rst := rfl
@[simp] theorem State.setPart_ras (s : State) (p : Nat) (x : Part) : (s.setPart p x).ras = s.ras := rfl
@[simp] theorem State.setPart_sec (s : State) (p : Nat) (x : Part) : (s.setPart p x).sec = s.sec := rfl
@[simp] theorem State.setPart_fuses (s : State) (p : Nat) (x : Part) : (s.setPart p x).fuses = s.fuses := rfl
@[simp] theorem State.setPart_flash (s : State) (p : Nat) (x : Part) : (s.setPart p x).flash = s.flash := rfl
@[simp] theorem State.setPart_proc (s : State) (p : Nat) (x : Part) : (s.setPart p x).proc = s.proc := rfl
@[simp] theorem State.setPart_jtag (s : State) (p : Nat) (x : Part) : (s.setPart p x).jtag = s.jtag := rfl
@[simp] theorem State.setPart_hdrs (s : State) (p : Nat) (x : Part) : (s.setPart p x).hdrs = s.hdrs := rfl
@[simp] theorem State.setPart_latches (s : State) (p : Nat) (x : Part) : (s.setPart p x).latches = s.latches := rfl
@[simp] theorem State.setPart_staged (s : State) (p : Nat) (x : Part) : (s.setPart p x).staged = s.staged := rfl
@[simp] theorem State.setPart_fresh (s : State) (p : Nat) (x : Part) : (s.setPart p x).fresh = s.fresh := rfl
@[simp] theorem State.setPart_pending (s : State) (p : Nat) (x : Part) : (s.setPart p x).pending = s.pending := rfl
@[simp] theorem State.setPart_floe (s : State) (p : Nat) (x : Part) (i : Nat) : (s.setPart p x).floe i = s.floe i := rfl
@[simp] theorem State.setPart_ep (s : State) (p : Nat) (x : Part) (i : Nat) : (s.setPart p x).ep i = s.ep i := rfl
@[simp] theorem State.setPart_port (s : State) (p : Nat) (x : Part) (i : Nat) : (s.setPart p x).port i = s.port i := rfl
@[simp] theorem State.setPart_chip (s : State) (p : Nat) (x : Part) (i : Nat) : (s.setPart p x).chip i = s.chip i := rfl
@[simp] theorem State.setPart_oedPort (s : State) (p : Nat) (x : Part) (i : Nat) : (s.setPart p x).oedPort i = s.oedPort i := rfl
@[simp] theorem State.setPart_therm (s : State) (p : Nat) (x : Part) (i : Nat) : (s.setPart p x).therm i = s.therm i := rfl
@[simp] theorem State.setPart_mod (s : State) (p : Nat) (x : Part) (i : Nat) : (s.setPart p x).mod i = s.mod i := rfl
@[simp] theorem State.setPart_nmc (s : State) (p : Nat) (x : Part) (i : Nat) : (s.setPart p x).nmc i = s.nmc i := rfl
@[simp] theorem State.setPart_cxl (s : State) (p : Nat) (x : Part) (i : Nat) : (s.setPart p x).cxl i = s.cxl i := rfl
@[simp] theorem State.setPart_hdr (s : State) (p : Nat) (x : Part) (i j : Nat) : (s.setPart p x).hdr i j = s.hdr i j := rfl
@[simp] theorem State.setPart_now (s : State) (p : Nat) (x : Part) : (s.setPart p x).now = s.now := rfl
@[simp] theorem State.setPart_lead (s : State) (p : Nat) (x : Part) : (s.setPart p x).lead = s.lead := rfl
@[simp] theorem State.setPart_pokes (s : State) (p : Nat) (x : Part) (b : Nat) (l : List Byte) : (s.setPart p x).poke b l = (s.poke b l).setPart p x := rfl
@[simp] theorem State.setEp_variant (s : State) (e : Nat) (x : Endpoint) : (s.setEp e x).variant = s.variant := rfl
@[simp] theorem State.setEp_straps (s : State) (e : Nat) (x : Endpoint) : (s.setEp e x).straps = s.straps := rfl
@[simp] theorem State.setEp_floes (s : State) (e : Nat) (x : Endpoint) : (s.setEp e x).floes = s.floes := rfl
@[simp] theorem State.setEp_signals (s : State) (e : Nat) (x : Endpoint) : (s.setEp e x).signals = s.signals := rfl
@[simp] theorem State.setEp_parts (s : State) (e : Nat) (x : Endpoint) : (s.setEp e x).parts = s.parts := rfl
@[simp] theorem State.setEp_rejects (s : State) (e : Nat) (x : Endpoint) : (s.setEp e x).rejects = s.rejects := rfl
@[simp] theorem State.setEp_steer (s : State) (e : Nat) (x : Endpoint) : (s.setEp e x).steer = s.steer := rfl
@[simp] theorem State.setEp_mem (s : State) (e : Nat) (x : Endpoint) : (s.setEp e x).mem = s.mem := rfl
@[simp] theorem State.setEp_spBad (s : State) (e : Nat) (x : Endpoint) : (s.setEp e x).spBad = s.spBad := rfl
@[simp] theorem State.setEp_poison (s : State) (e : Nat) (x : Endpoint) : (s.setEp e x).poison = s.poison := rfl
@[simp] theorem State.setEp_cmdq (s : State) (e : Nat) (x : Endpoint) : (s.setEp e x).cmdq = s.cmdq := rfl
@[simp] theorem State.setEp_msis (s : State) (e : Nat) (x : Endpoint) : (s.setEp e x).msis = s.msis := rfl
@[simp] theorem State.setEp_i3c (s : State) (e : Nat) (x : Endpoint) : (s.setEp e x).i3c = s.i3c := rfl
@[simp] theorem State.setEp_ucie (s : State) (e : Nat) (x : Endpoint) : (s.setEp e x).ucie = s.ucie := rfl
@[simp] theorem State.setEp_nmcs (s : State) (e : Nat) (x : Endpoint) : (s.setEp e x).nmcs = s.nmcs := rfl
@[simp] theorem State.setEp_nm (s : State) (e : Nat) (x : Endpoint) : (s.setEp e x).nm = s.nm := rfl
@[simp] theorem State.setEp_cxls (s : State) (e : Nat) (x : Endpoint) : (s.setEp e x).cxls = s.cxls := rfl
@[simp] theorem State.setEp_router (s : State) (e : Nat) (x : Endpoint) : (s.setEp e x).router = s.router := rfl
@[simp] theorem State.setEp_chips (s : State) (e : Nat) (x : Endpoint) : (s.setEp e x).chips = s.chips := rfl
@[simp] theorem State.setEp_oed (s : State) (e : Nat) (x : Endpoint) : (s.setEp e x).oed = s.oed := rfl
@[simp] theorem State.setEp_sled (s : State) (e : Nat) (x : Endpoint) : (s.setEp e x).sled = s.sled := rfl
@[simp] theorem State.setEp_time (s : State) (e : Nat) (x : Endpoint) : (s.setEp e x).time = s.time := rfl
@[simp] theorem State.setEp_therms (s : State) (e : Nat) (x : Endpoint) : (s.setEp e x).therms = s.therms := rfl
@[simp] theorem State.setEp_power (s : State) (e : Nat) (x : Endpoint) : (s.setEp e x).power = s.power := rfl
@[simp] theorem State.setEp_rst (s : State) (e : Nat) (x : Endpoint) : (s.setEp e x).rst = s.rst := rfl
@[simp] theorem State.setEp_ras (s : State) (e : Nat) (x : Endpoint) : (s.setEp e x).ras = s.ras := rfl
@[simp] theorem State.setEp_sec (s : State) (e : Nat) (x : Endpoint) : (s.setEp e x).sec = s.sec := rfl
@[simp] theorem State.setEp_fuses (s : State) (e : Nat) (x : Endpoint) : (s.setEp e x).fuses = s.fuses := rfl
@[simp] theorem State.setEp_flash (s : State) (e : Nat) (x : Endpoint) : (s.setEp e x).flash = s.flash := rfl
@[simp] theorem State.setEp_proc (s : State) (e : Nat) (x : Endpoint) : (s.setEp e x).proc = s.proc := rfl
@[simp] theorem State.setEp_jtag (s : State) (e : Nat) (x : Endpoint) : (s.setEp e x).jtag = s.jtag := rfl
@[simp] theorem State.setEp_hdrs (s : State) (e : Nat) (x : Endpoint) : (s.setEp e x).hdrs = s.hdrs := rfl
@[simp] theorem State.setEp_latches (s : State) (e : Nat) (x : Endpoint) : (s.setEp e x).latches = s.latches := rfl
@[simp] theorem State.setEp_staged (s : State) (e : Nat) (x : Endpoint) : (s.setEp e x).staged = s.staged := rfl
@[simp] theorem State.setEp_fresh (s : State) (e : Nat) (x : Endpoint) : (s.setEp e x).fresh = s.fresh := rfl
@[simp] theorem State.setEp_pending (s : State) (e : Nat) (x : Endpoint) : (s.setEp e x).pending = s.pending := rfl
@[simp] theorem State.setEp_floe (s : State) (e : Nat) (x : Endpoint) (i : Nat) : (s.setEp e x).floe i = s.floe i := rfl
@[simp] theorem State.setEp_part (s : State) (e : Nat) (x : Endpoint) (i : Nat) : (s.setEp e x).part i = s.part i := rfl
@[simp] theorem State.setEp_port (s : State) (e : Nat) (x : Endpoint) (i : Nat) : (s.setEp e x).port i = s.port i := rfl
@[simp] theorem State.setEp_chip (s : State) (e : Nat) (x : Endpoint) (i : Nat) : (s.setEp e x).chip i = s.chip i := rfl
@[simp] theorem State.setEp_oedPort (s : State) (e : Nat) (x : Endpoint) (i : Nat) : (s.setEp e x).oedPort i = s.oedPort i := rfl
@[simp] theorem State.setEp_therm (s : State) (e : Nat) (x : Endpoint) (i : Nat) : (s.setEp e x).therm i = s.therm i := rfl
@[simp] theorem State.setEp_mod (s : State) (e : Nat) (x : Endpoint) (i : Nat) : (s.setEp e x).mod i = s.mod i := rfl
@[simp] theorem State.setEp_nmc (s : State) (e : Nat) (x : Endpoint) (i : Nat) : (s.setEp e x).nmc i = s.nmc i := rfl
@[simp] theorem State.setEp_cxl (s : State) (e : Nat) (x : Endpoint) (i : Nat) : (s.setEp e x).cxl i = s.cxl i := rfl
@[simp] theorem State.setEp_hdr (s : State) (e : Nat) (x : Endpoint) (i j : Nat) : (s.setEp e x).hdr i j = s.hdr i j := rfl
@[simp] theorem State.setEp_now (s : State) (e : Nat) (x : Endpoint) : (s.setEp e x).now = s.now := rfl
@[simp] theorem State.setEp_lead (s : State) (e : Nat) (x : Endpoint) : (s.setEp e x).lead = s.lead := rfl
@[simp] theorem State.setEp_pokes (s : State) (e : Nat) (x : Endpoint) (b : Nat) (l : List Byte) : (s.setEp e x).poke b l = (s.poke b l).setEp e x := rfl
@[simp] theorem State.setRouter_variant (s : State) (r : Router) : (s.setRouter r).variant = s.variant := rfl
@[simp] theorem State.setRouter_straps (s : State) (r : Router) : (s.setRouter r).straps = s.straps := rfl
@[simp] theorem State.setRouter_floes (s : State) (r : Router) : (s.setRouter r).floes = s.floes := rfl
@[simp] theorem State.setRouter_signals (s : State) (r : Router) : (s.setRouter r).signals = s.signals := rfl
@[simp] theorem State.setRouter_parts (s : State) (r : Router) : (s.setRouter r).parts = s.parts := rfl
@[simp] theorem State.setRouter_rejects (s : State) (r : Router) : (s.setRouter r).rejects = s.rejects := rfl
@[simp] theorem State.setRouter_steer (s : State) (r : Router) : (s.setRouter r).steer = s.steer := rfl
@[simp] theorem State.setRouter_mem (s : State) (r : Router) : (s.setRouter r).mem = s.mem := rfl
@[simp] theorem State.setRouter_spBad (s : State) (r : Router) : (s.setRouter r).spBad = s.spBad := rfl
@[simp] theorem State.setRouter_poison (s : State) (r : Router) : (s.setRouter r).poison = s.poison := rfl
@[simp] theorem State.setRouter_eps (s : State) (r : Router) : (s.setRouter r).eps = s.eps := rfl
@[simp] theorem State.setRouter_cmdq (s : State) (r : Router) : (s.setRouter r).cmdq = s.cmdq := rfl
@[simp] theorem State.setRouter_msis (s : State) (r : Router) : (s.setRouter r).msis = s.msis := rfl
@[simp] theorem State.setRouter_i3c (s : State) (r : Router) : (s.setRouter r).i3c = s.i3c := rfl
@[simp] theorem State.setRouter_ucie (s : State) (r : Router) : (s.setRouter r).ucie = s.ucie := rfl
@[simp] theorem State.setRouter_nmcs (s : State) (r : Router) : (s.setRouter r).nmcs = s.nmcs := rfl
@[simp] theorem State.setRouter_nm (s : State) (r : Router) : (s.setRouter r).nm = s.nm := rfl
@[simp] theorem State.setRouter_cxls (s : State) (r : Router) : (s.setRouter r).cxls = s.cxls := rfl
@[simp] theorem State.setRouter_chips (s : State) (r : Router) : (s.setRouter r).chips = s.chips := rfl
@[simp] theorem State.setRouter_oed (s : State) (r : Router) : (s.setRouter r).oed = s.oed := rfl
@[simp] theorem State.setRouter_sled (s : State) (r : Router) : (s.setRouter r).sled = s.sled := rfl
@[simp] theorem State.setRouter_time (s : State) (r : Router) : (s.setRouter r).time = s.time := rfl
@[simp] theorem State.setRouter_therms (s : State) (r : Router) : (s.setRouter r).therms = s.therms := rfl
@[simp] theorem State.setRouter_power (s : State) (r : Router) : (s.setRouter r).power = s.power := rfl
@[simp] theorem State.setRouter_rst (s : State) (r : Router) : (s.setRouter r).rst = s.rst := rfl
@[simp] theorem State.setRouter_ras (s : State) (r : Router) : (s.setRouter r).ras = s.ras := rfl
@[simp] theorem State.setRouter_sec (s : State) (r : Router) : (s.setRouter r).sec = s.sec := rfl
@[simp] theorem State.setRouter_fuses (s : State) (r : Router) : (s.setRouter r).fuses = s.fuses := rfl
@[simp] theorem State.setRouter_flash (s : State) (r : Router) : (s.setRouter r).flash = s.flash := rfl
@[simp] theorem State.setRouter_proc (s : State) (r : Router) : (s.setRouter r).proc = s.proc := rfl
@[simp] theorem State.setRouter_jtag (s : State) (r : Router) : (s.setRouter r).jtag = s.jtag := rfl
@[simp] theorem State.setRouter_hdrs (s : State) (r : Router) : (s.setRouter r).hdrs = s.hdrs := rfl
@[simp] theorem State.setRouter_latches (s : State) (r : Router) : (s.setRouter r).latches = s.latches := rfl
@[simp] theorem State.setRouter_staged (s : State) (r : Router) : (s.setRouter r).staged = s.staged := rfl
@[simp] theorem State.setRouter_fresh (s : State) (r : Router) : (s.setRouter r).fresh = s.fresh := rfl
@[simp] theorem State.setRouter_pending (s : State) (r : Router) : (s.setRouter r).pending = s.pending := rfl
@[simp] theorem State.setRouter_floe (s : State) (r : Router) (i : Nat) : (s.setRouter r).floe i = s.floe i := rfl
@[simp] theorem State.setRouter_part (s : State) (r : Router) (i : Nat) : (s.setRouter r).part i = s.part i := rfl
@[simp] theorem State.setRouter_ep (s : State) (r : Router) (i : Nat) : (s.setRouter r).ep i = s.ep i := rfl
@[simp] theorem State.setRouter_chip (s : State) (r : Router) (i : Nat) : (s.setRouter r).chip i = s.chip i := rfl
@[simp] theorem State.setRouter_oedPort (s : State) (r : Router) (i : Nat) : (s.setRouter r).oedPort i = s.oedPort i := rfl
@[simp] theorem State.setRouter_therm (s : State) (r : Router) (i : Nat) : (s.setRouter r).therm i = s.therm i := rfl
@[simp] theorem State.setRouter_mod (s : State) (r : Router) (i : Nat) : (s.setRouter r).mod i = s.mod i := rfl
@[simp] theorem State.setRouter_nmc (s : State) (r : Router) (i : Nat) : (s.setRouter r).nmc i = s.nmc i := rfl
@[simp] theorem State.setRouter_cxl (s : State) (r : Router) (i : Nat) : (s.setRouter r).cxl i = s.cxl i := rfl
@[simp] theorem State.setRouter_hdr (s : State) (r : Router) (i j : Nat) : (s.setRouter r).hdr i j = s.hdr i j := rfl
@[simp] theorem State.setRouter_now (s : State) (r : Router) : (s.setRouter r).now = s.now := rfl
@[simp] theorem State.setRouter_lead (s : State) (r : Router) : (s.setRouter r).lead = s.lead := rfl
@[simp] theorem State.setRouter_pokes (s : State) (r : Router) (b : Nat) (l : List Byte) : (s.setRouter r).poke b l = (s.poke b l).setRouter r := rfl
@[simp] theorem State.setPort_variant (s : State) (k : Nat) (x : Port) : (s.setPort k x).variant = s.variant := rfl
@[simp] theorem State.setPort_straps (s : State) (k : Nat) (x : Port) : (s.setPort k x).straps = s.straps := rfl
@[simp] theorem State.setPort_floes (s : State) (k : Nat) (x : Port) : (s.setPort k x).floes = s.floes := rfl
@[simp] theorem State.setPort_signals (s : State) (k : Nat) (x : Port) : (s.setPort k x).signals = s.signals := rfl
@[simp] theorem State.setPort_parts (s : State) (k : Nat) (x : Port) : (s.setPort k x).parts = s.parts := rfl
@[simp] theorem State.setPort_rejects (s : State) (k : Nat) (x : Port) : (s.setPort k x).rejects = s.rejects := rfl
@[simp] theorem State.setPort_steer (s : State) (k : Nat) (x : Port) : (s.setPort k x).steer = s.steer := rfl
@[simp] theorem State.setPort_mem (s : State) (k : Nat) (x : Port) : (s.setPort k x).mem = s.mem := rfl
@[simp] theorem State.setPort_spBad (s : State) (k : Nat) (x : Port) : (s.setPort k x).spBad = s.spBad := rfl
@[simp] theorem State.setPort_poison (s : State) (k : Nat) (x : Port) : (s.setPort k x).poison = s.poison := rfl
@[simp] theorem State.setPort_eps (s : State) (k : Nat) (x : Port) : (s.setPort k x).eps = s.eps := rfl
@[simp] theorem State.setPort_cmdq (s : State) (k : Nat) (x : Port) : (s.setPort k x).cmdq = s.cmdq := rfl
@[simp] theorem State.setPort_msis (s : State) (k : Nat) (x : Port) : (s.setPort k x).msis = s.msis := rfl
@[simp] theorem State.setPort_i3c (s : State) (k : Nat) (x : Port) : (s.setPort k x).i3c = s.i3c := rfl
@[simp] theorem State.setPort_ucie (s : State) (k : Nat) (x : Port) : (s.setPort k x).ucie = s.ucie := rfl
@[simp] theorem State.setPort_nmcs (s : State) (k : Nat) (x : Port) : (s.setPort k x).nmcs = s.nmcs := rfl
@[simp] theorem State.setPort_nm (s : State) (k : Nat) (x : Port) : (s.setPort k x).nm = s.nm := rfl
@[simp] theorem State.setPort_cxls (s : State) (k : Nat) (x : Port) : (s.setPort k x).cxls = s.cxls := rfl
@[simp] theorem State.setPort_chips (s : State) (k : Nat) (x : Port) : (s.setPort k x).chips = s.chips := rfl
@[simp] theorem State.setPort_oed (s : State) (k : Nat) (x : Port) : (s.setPort k x).oed = s.oed := rfl
@[simp] theorem State.setPort_sled (s : State) (k : Nat) (x : Port) : (s.setPort k x).sled = s.sled := rfl
@[simp] theorem State.setPort_time (s : State) (k : Nat) (x : Port) : (s.setPort k x).time = s.time := rfl
@[simp] theorem State.setPort_therms (s : State) (k : Nat) (x : Port) : (s.setPort k x).therms = s.therms := rfl
@[simp] theorem State.setPort_power (s : State) (k : Nat) (x : Port) : (s.setPort k x).power = s.power := rfl
@[simp] theorem State.setPort_rst (s : State) (k : Nat) (x : Port) : (s.setPort k x).rst = s.rst := rfl
@[simp] theorem State.setPort_ras (s : State) (k : Nat) (x : Port) : (s.setPort k x).ras = s.ras := rfl
@[simp] theorem State.setPort_sec (s : State) (k : Nat) (x : Port) : (s.setPort k x).sec = s.sec := rfl
@[simp] theorem State.setPort_fuses (s : State) (k : Nat) (x : Port) : (s.setPort k x).fuses = s.fuses := rfl
@[simp] theorem State.setPort_flash (s : State) (k : Nat) (x : Port) : (s.setPort k x).flash = s.flash := rfl
@[simp] theorem State.setPort_proc (s : State) (k : Nat) (x : Port) : (s.setPort k x).proc = s.proc := rfl
@[simp] theorem State.setPort_jtag (s : State) (k : Nat) (x : Port) : (s.setPort k x).jtag = s.jtag := rfl
@[simp] theorem State.setPort_hdrs (s : State) (k : Nat) (x : Port) : (s.setPort k x).hdrs = s.hdrs := rfl
@[simp] theorem State.setPort_latches (s : State) (k : Nat) (x : Port) : (s.setPort k x).latches = s.latches := rfl
@[simp] theorem State.setPort_staged (s : State) (k : Nat) (x : Port) : (s.setPort k x).staged = s.staged := rfl
@[simp] theorem State.setPort_fresh (s : State) (k : Nat) (x : Port) : (s.setPort k x).fresh = s.fresh := rfl
@[simp] theorem State.setPort_pending (s : State) (k : Nat) (x : Port) : (s.setPort k x).pending = s.pending := rfl
@[simp] theorem State.setPort_floe (s : State) (k : Nat) (x : Port) (i : Nat) : (s.setPort k x).floe i = s.floe i := rfl
@[simp] theorem State.setPort_part (s : State) (k : Nat) (x : Port) (i : Nat) : (s.setPort k x).part i = s.part i := rfl
@[simp] theorem State.setPort_ep (s : State) (k : Nat) (x : Port) (i : Nat) : (s.setPort k x).ep i = s.ep i := rfl
@[simp] theorem State.setPort_chip (s : State) (k : Nat) (x : Port) (i : Nat) : (s.setPort k x).chip i = s.chip i := rfl
@[simp] theorem State.setPort_oedPort (s : State) (k : Nat) (x : Port) (i : Nat) : (s.setPort k x).oedPort i = s.oedPort i := rfl
@[simp] theorem State.setPort_therm (s : State) (k : Nat) (x : Port) (i : Nat) : (s.setPort k x).therm i = s.therm i := rfl
@[simp] theorem State.setPort_mod (s : State) (k : Nat) (x : Port) (i : Nat) : (s.setPort k x).mod i = s.mod i := rfl
@[simp] theorem State.setPort_nmc (s : State) (k : Nat) (x : Port) (i : Nat) : (s.setPort k x).nmc i = s.nmc i := rfl
@[simp] theorem State.setPort_cxl (s : State) (k : Nat) (x : Port) (i : Nat) : (s.setPort k x).cxl i = s.cxl i := rfl
@[simp] theorem State.setPort_hdr (s : State) (k : Nat) (x : Port) (i j : Nat) : (s.setPort k x).hdr i j = s.hdr i j := rfl
@[simp] theorem State.setPort_now (s : State) (k : Nat) (x : Port) : (s.setPort k x).now = s.now := rfl
@[simp] theorem State.setPort_lead (s : State) (k : Nat) (x : Port) : (s.setPort k x).lead = s.lead := rfl
@[simp] theorem State.setPort_pokes (s : State) (k : Nat) (x : Port) (b : Nat) (l : List Byte) : (s.setPort k x).poke b l = (s.poke b l).setPort k x := rfl
@[simp] theorem State.setChip_variant (s : State) (c : Nat) (x : Chip) : (s.setChip c x).variant = s.variant := rfl
@[simp] theorem State.setChip_straps (s : State) (c : Nat) (x : Chip) : (s.setChip c x).straps = s.straps := rfl
@[simp] theorem State.setChip_floes (s : State) (c : Nat) (x : Chip) : (s.setChip c x).floes = s.floes := rfl
@[simp] theorem State.setChip_signals (s : State) (c : Nat) (x : Chip) : (s.setChip c x).signals = s.signals := rfl
@[simp] theorem State.setChip_parts (s : State) (c : Nat) (x : Chip) : (s.setChip c x).parts = s.parts := rfl
@[simp] theorem State.setChip_rejects (s : State) (c : Nat) (x : Chip) : (s.setChip c x).rejects = s.rejects := rfl
@[simp] theorem State.setChip_steer (s : State) (c : Nat) (x : Chip) : (s.setChip c x).steer = s.steer := rfl
@[simp] theorem State.setChip_mem (s : State) (c : Nat) (x : Chip) : (s.setChip c x).mem = s.mem := rfl
@[simp] theorem State.setChip_spBad (s : State) (c : Nat) (x : Chip) : (s.setChip c x).spBad = s.spBad := rfl
@[simp] theorem State.setChip_poison (s : State) (c : Nat) (x : Chip) : (s.setChip c x).poison = s.poison := rfl
@[simp] theorem State.setChip_eps (s : State) (c : Nat) (x : Chip) : (s.setChip c x).eps = s.eps := rfl
@[simp] theorem State.setChip_cmdq (s : State) (c : Nat) (x : Chip) : (s.setChip c x).cmdq = s.cmdq := rfl
@[simp] theorem State.setChip_msis (s : State) (c : Nat) (x : Chip) : (s.setChip c x).msis = s.msis := rfl
@[simp] theorem State.setChip_i3c (s : State) (c : Nat) (x : Chip) : (s.setChip c x).i3c = s.i3c := rfl
@[simp] theorem State.setChip_ucie (s : State) (c : Nat) (x : Chip) : (s.setChip c x).ucie = s.ucie := rfl
@[simp] theorem State.setChip_nmcs (s : State) (c : Nat) (x : Chip) : (s.setChip c x).nmcs = s.nmcs := rfl
@[simp] theorem State.setChip_nm (s : State) (c : Nat) (x : Chip) : (s.setChip c x).nm = s.nm := rfl
@[simp] theorem State.setChip_cxls (s : State) (c : Nat) (x : Chip) : (s.setChip c x).cxls = s.cxls := rfl
@[simp] theorem State.setChip_router (s : State) (c : Nat) (x : Chip) : (s.setChip c x).router = s.router := rfl
@[simp] theorem State.setChip_oed (s : State) (c : Nat) (x : Chip) : (s.setChip c x).oed = s.oed := rfl
@[simp] theorem State.setChip_sled (s : State) (c : Nat) (x : Chip) : (s.setChip c x).sled = s.sled := rfl
@[simp] theorem State.setChip_time (s : State) (c : Nat) (x : Chip) : (s.setChip c x).time = s.time := rfl
@[simp] theorem State.setChip_therms (s : State) (c : Nat) (x : Chip) : (s.setChip c x).therms = s.therms := rfl
@[simp] theorem State.setChip_power (s : State) (c : Nat) (x : Chip) : (s.setChip c x).power = s.power := rfl
@[simp] theorem State.setChip_rst (s : State) (c : Nat) (x : Chip) : (s.setChip c x).rst = s.rst := rfl
@[simp] theorem State.setChip_ras (s : State) (c : Nat) (x : Chip) : (s.setChip c x).ras = s.ras := rfl
@[simp] theorem State.setChip_sec (s : State) (c : Nat) (x : Chip) : (s.setChip c x).sec = s.sec := rfl
@[simp] theorem State.setChip_fuses (s : State) (c : Nat) (x : Chip) : (s.setChip c x).fuses = s.fuses := rfl
@[simp] theorem State.setChip_flash (s : State) (c : Nat) (x : Chip) : (s.setChip c x).flash = s.flash := rfl
@[simp] theorem State.setChip_proc (s : State) (c : Nat) (x : Chip) : (s.setChip c x).proc = s.proc := rfl
@[simp] theorem State.setChip_jtag (s : State) (c : Nat) (x : Chip) : (s.setChip c x).jtag = s.jtag := rfl
@[simp] theorem State.setChip_hdrs (s : State) (c : Nat) (x : Chip) : (s.setChip c x).hdrs = s.hdrs := rfl
@[simp] theorem State.setChip_latches (s : State) (c : Nat) (x : Chip) : (s.setChip c x).latches = s.latches := rfl
@[simp] theorem State.setChip_staged (s : State) (c : Nat) (x : Chip) : (s.setChip c x).staged = s.staged := rfl
@[simp] theorem State.setChip_fresh (s : State) (c : Nat) (x : Chip) : (s.setChip c x).fresh = s.fresh := rfl
@[simp] theorem State.setChip_pending (s : State) (c : Nat) (x : Chip) : (s.setChip c x).pending = s.pending := rfl
@[simp] theorem State.setChip_floe (s : State) (c : Nat) (x : Chip) (i : Nat) : (s.setChip c x).floe i = s.floe i := rfl
@[simp] theorem State.setChip_part (s : State) (c : Nat) (x : Chip) (i : Nat) : (s.setChip c x).part i = s.part i := rfl
@[simp] theorem State.setChip_ep (s : State) (c : Nat) (x : Chip) (i : Nat) : (s.setChip c x).ep i = s.ep i := rfl
@[simp] theorem State.setChip_port (s : State) (c : Nat) (x : Chip) (i : Nat) : (s.setChip c x).port i = s.port i := rfl
@[simp] theorem State.setChip_oedPort (s : State) (c : Nat) (x : Chip) (i : Nat) : (s.setChip c x).oedPort i = s.oedPort i := rfl
@[simp] theorem State.setChip_therm (s : State) (c : Nat) (x : Chip) (i : Nat) : (s.setChip c x).therm i = s.therm i := rfl
@[simp] theorem State.setChip_mod (s : State) (c : Nat) (x : Chip) (i : Nat) : (s.setChip c x).mod i = s.mod i := rfl
@[simp] theorem State.setChip_nmc (s : State) (c : Nat) (x : Chip) (i : Nat) : (s.setChip c x).nmc i = s.nmc i := rfl
@[simp] theorem State.setChip_cxl (s : State) (c : Nat) (x : Chip) (i : Nat) : (s.setChip c x).cxl i = s.cxl i := rfl
@[simp] theorem State.setChip_hdr (s : State) (c : Nat) (x : Chip) (i j : Nat) : (s.setChip c x).hdr i j = s.hdr i j := rfl
@[simp] theorem State.setChip_now (s : State) (c : Nat) (x : Chip) : (s.setChip c x).now = s.now := rfl
@[simp] theorem State.setChip_lead (s : State) (c : Nat) (x : Chip) : (s.setChip c x).lead = s.lead := rfl
@[simp] theorem State.setChip_pokes (s : State) (c : Nat) (x : Chip) (b : Nat) (l : List Byte) : (s.setChip c x).poke b l = (s.poke b l).setChip c x := rfl
@[simp] theorem State.setOedPort_variant (s : State) (k : Nat) (x : OedPort) : (s.setOedPort k x).variant = s.variant := rfl
@[simp] theorem State.setOedPort_straps (s : State) (k : Nat) (x : OedPort) : (s.setOedPort k x).straps = s.straps := rfl
@[simp] theorem State.setOedPort_floes (s : State) (k : Nat) (x : OedPort) : (s.setOedPort k x).floes = s.floes := rfl
@[simp] theorem State.setOedPort_signals (s : State) (k : Nat) (x : OedPort) : (s.setOedPort k x).signals = s.signals := rfl
@[simp] theorem State.setOedPort_parts (s : State) (k : Nat) (x : OedPort) : (s.setOedPort k x).parts = s.parts := rfl
@[simp] theorem State.setOedPort_rejects (s : State) (k : Nat) (x : OedPort) : (s.setOedPort k x).rejects = s.rejects := rfl
@[simp] theorem State.setOedPort_steer (s : State) (k : Nat) (x : OedPort) : (s.setOedPort k x).steer = s.steer := rfl
@[simp] theorem State.setOedPort_mem (s : State) (k : Nat) (x : OedPort) : (s.setOedPort k x).mem = s.mem := rfl
@[simp] theorem State.setOedPort_spBad (s : State) (k : Nat) (x : OedPort) : (s.setOedPort k x).spBad = s.spBad := rfl
@[simp] theorem State.setOedPort_poison (s : State) (k : Nat) (x : OedPort) : (s.setOedPort k x).poison = s.poison := rfl
@[simp] theorem State.setOedPort_eps (s : State) (k : Nat) (x : OedPort) : (s.setOedPort k x).eps = s.eps := rfl
@[simp] theorem State.setOedPort_cmdq (s : State) (k : Nat) (x : OedPort) : (s.setOedPort k x).cmdq = s.cmdq := rfl
@[simp] theorem State.setOedPort_msis (s : State) (k : Nat) (x : OedPort) : (s.setOedPort k x).msis = s.msis := rfl
@[simp] theorem State.setOedPort_i3c (s : State) (k : Nat) (x : OedPort) : (s.setOedPort k x).i3c = s.i3c := rfl
@[simp] theorem State.setOedPort_ucie (s : State) (k : Nat) (x : OedPort) : (s.setOedPort k x).ucie = s.ucie := rfl
@[simp] theorem State.setOedPort_nmcs (s : State) (k : Nat) (x : OedPort) : (s.setOedPort k x).nmcs = s.nmcs := rfl
@[simp] theorem State.setOedPort_nm (s : State) (k : Nat) (x : OedPort) : (s.setOedPort k x).nm = s.nm := rfl
@[simp] theorem State.setOedPort_cxls (s : State) (k : Nat) (x : OedPort) : (s.setOedPort k x).cxls = s.cxls := rfl
@[simp] theorem State.setOedPort_router (s : State) (k : Nat) (x : OedPort) : (s.setOedPort k x).router = s.router := rfl
@[simp] theorem State.setOedPort_chips (s : State) (k : Nat) (x : OedPort) : (s.setOedPort k x).chips = s.chips := rfl
@[simp] theorem State.setOedPort_sled (s : State) (k : Nat) (x : OedPort) : (s.setOedPort k x).sled = s.sled := rfl
@[simp] theorem State.setOedPort_time (s : State) (k : Nat) (x : OedPort) : (s.setOedPort k x).time = s.time := rfl
@[simp] theorem State.setOedPort_therms (s : State) (k : Nat) (x : OedPort) : (s.setOedPort k x).therms = s.therms := rfl
@[simp] theorem State.setOedPort_power (s : State) (k : Nat) (x : OedPort) : (s.setOedPort k x).power = s.power := rfl
@[simp] theorem State.setOedPort_rst (s : State) (k : Nat) (x : OedPort) : (s.setOedPort k x).rst = s.rst := rfl
@[simp] theorem State.setOedPort_ras (s : State) (k : Nat) (x : OedPort) : (s.setOedPort k x).ras = s.ras := rfl
@[simp] theorem State.setOedPort_sec (s : State) (k : Nat) (x : OedPort) : (s.setOedPort k x).sec = s.sec := rfl
@[simp] theorem State.setOedPort_fuses (s : State) (k : Nat) (x : OedPort) : (s.setOedPort k x).fuses = s.fuses := rfl
@[simp] theorem State.setOedPort_flash (s : State) (k : Nat) (x : OedPort) : (s.setOedPort k x).flash = s.flash := rfl
@[simp] theorem State.setOedPort_proc (s : State) (k : Nat) (x : OedPort) : (s.setOedPort k x).proc = s.proc := rfl
@[simp] theorem State.setOedPort_jtag (s : State) (k : Nat) (x : OedPort) : (s.setOedPort k x).jtag = s.jtag := rfl
@[simp] theorem State.setOedPort_hdrs (s : State) (k : Nat) (x : OedPort) : (s.setOedPort k x).hdrs = s.hdrs := rfl
@[simp] theorem State.setOedPort_latches (s : State) (k : Nat) (x : OedPort) : (s.setOedPort k x).latches = s.latches := rfl
@[simp] theorem State.setOedPort_staged (s : State) (k : Nat) (x : OedPort) : (s.setOedPort k x).staged = s.staged := rfl
@[simp] theorem State.setOedPort_fresh (s : State) (k : Nat) (x : OedPort) : (s.setOedPort k x).fresh = s.fresh := rfl
@[simp] theorem State.setOedPort_pending (s : State) (k : Nat) (x : OedPort) : (s.setOedPort k x).pending = s.pending := rfl
@[simp] theorem State.setOedPort_floe (s : State) (k : Nat) (x : OedPort) (i : Nat) : (s.setOedPort k x).floe i = s.floe i := rfl
@[simp] theorem State.setOedPort_part (s : State) (k : Nat) (x : OedPort) (i : Nat) : (s.setOedPort k x).part i = s.part i := rfl
@[simp] theorem State.setOedPort_ep (s : State) (k : Nat) (x : OedPort) (i : Nat) : (s.setOedPort k x).ep i = s.ep i := rfl
@[simp] theorem State.setOedPort_port (s : State) (k : Nat) (x : OedPort) (i : Nat) : (s.setOedPort k x).port i = s.port i := rfl
@[simp] theorem State.setOedPort_chip (s : State) (k : Nat) (x : OedPort) (i : Nat) : (s.setOedPort k x).chip i = s.chip i := rfl
@[simp] theorem State.setOedPort_therm (s : State) (k : Nat) (x : OedPort) (i : Nat) : (s.setOedPort k x).therm i = s.therm i := rfl
@[simp] theorem State.setOedPort_mod (s : State) (k : Nat) (x : OedPort) (i : Nat) : (s.setOedPort k x).mod i = s.mod i := rfl
@[simp] theorem State.setOedPort_nmc (s : State) (k : Nat) (x : OedPort) (i : Nat) : (s.setOedPort k x).nmc i = s.nmc i := rfl
@[simp] theorem State.setOedPort_cxl (s : State) (k : Nat) (x : OedPort) (i : Nat) : (s.setOedPort k x).cxl i = s.cxl i := rfl
@[simp] theorem State.setOedPort_hdr (s : State) (k : Nat) (x : OedPort) (i j : Nat) : (s.setOedPort k x).hdr i j = s.hdr i j := rfl
@[simp] theorem State.setOedPort_now (s : State) (k : Nat) (x : OedPort) : (s.setOedPort k x).now = s.now := rfl
@[simp] theorem State.setOedPort_lead (s : State) (k : Nat) (x : OedPort) : (s.setOedPort k x).lead = s.lead := rfl
@[simp] theorem State.setOedPort_pokes (s : State) (k : Nat) (x : OedPort) (b : Nat) (l : List Byte) : (s.setOedPort k x).poke b l = (s.poke b l).setOedPort k x := rfl
@[simp] theorem State.setTherm_variant (s : State) (d : Nat) (x : Therm) : (s.setTherm d x).variant = s.variant := rfl
@[simp] theorem State.setTherm_straps (s : State) (d : Nat) (x : Therm) : (s.setTherm d x).straps = s.straps := rfl
@[simp] theorem State.setTherm_floes (s : State) (d : Nat) (x : Therm) : (s.setTherm d x).floes = s.floes := rfl
@[simp] theorem State.setTherm_signals (s : State) (d : Nat) (x : Therm) : (s.setTherm d x).signals = s.signals := rfl
@[simp] theorem State.setTherm_parts (s : State) (d : Nat) (x : Therm) : (s.setTherm d x).parts = s.parts := rfl
@[simp] theorem State.setTherm_rejects (s : State) (d : Nat) (x : Therm) : (s.setTherm d x).rejects = s.rejects := rfl
@[simp] theorem State.setTherm_steer (s : State) (d : Nat) (x : Therm) : (s.setTherm d x).steer = s.steer := rfl
@[simp] theorem State.setTherm_mem (s : State) (d : Nat) (x : Therm) : (s.setTherm d x).mem = s.mem := rfl
@[simp] theorem State.setTherm_spBad (s : State) (d : Nat) (x : Therm) : (s.setTherm d x).spBad = s.spBad := rfl
@[simp] theorem State.setTherm_poison (s : State) (d : Nat) (x : Therm) : (s.setTherm d x).poison = s.poison := rfl
@[simp] theorem State.setTherm_eps (s : State) (d : Nat) (x : Therm) : (s.setTherm d x).eps = s.eps := rfl
@[simp] theorem State.setTherm_cmdq (s : State) (d : Nat) (x : Therm) : (s.setTherm d x).cmdq = s.cmdq := rfl
@[simp] theorem State.setTherm_msis (s : State) (d : Nat) (x : Therm) : (s.setTherm d x).msis = s.msis := rfl
@[simp] theorem State.setTherm_i3c (s : State) (d : Nat) (x : Therm) : (s.setTherm d x).i3c = s.i3c := rfl
@[simp] theorem State.setTherm_ucie (s : State) (d : Nat) (x : Therm) : (s.setTherm d x).ucie = s.ucie := rfl
@[simp] theorem State.setTherm_nmcs (s : State) (d : Nat) (x : Therm) : (s.setTherm d x).nmcs = s.nmcs := rfl
@[simp] theorem State.setTherm_nm (s : State) (d : Nat) (x : Therm) : (s.setTherm d x).nm = s.nm := rfl
@[simp] theorem State.setTherm_cxls (s : State) (d : Nat) (x : Therm) : (s.setTherm d x).cxls = s.cxls := rfl
@[simp] theorem State.setTherm_router (s : State) (d : Nat) (x : Therm) : (s.setTherm d x).router = s.router := rfl
@[simp] theorem State.setTherm_chips (s : State) (d : Nat) (x : Therm) : (s.setTherm d x).chips = s.chips := rfl
@[simp] theorem State.setTherm_oed (s : State) (d : Nat) (x : Therm) : (s.setTherm d x).oed = s.oed := rfl
@[simp] theorem State.setTherm_sled (s : State) (d : Nat) (x : Therm) : (s.setTherm d x).sled = s.sled := rfl
@[simp] theorem State.setTherm_time (s : State) (d : Nat) (x : Therm) : (s.setTherm d x).time = s.time := rfl
@[simp] theorem State.setTherm_power (s : State) (d : Nat) (x : Therm) : (s.setTherm d x).power = s.power := rfl
@[simp] theorem State.setTherm_rst (s : State) (d : Nat) (x : Therm) : (s.setTherm d x).rst = s.rst := rfl
@[simp] theorem State.setTherm_ras (s : State) (d : Nat) (x : Therm) : (s.setTherm d x).ras = s.ras := rfl
@[simp] theorem State.setTherm_sec (s : State) (d : Nat) (x : Therm) : (s.setTherm d x).sec = s.sec := rfl
@[simp] theorem State.setTherm_fuses (s : State) (d : Nat) (x : Therm) : (s.setTherm d x).fuses = s.fuses := rfl
@[simp] theorem State.setTherm_flash (s : State) (d : Nat) (x : Therm) : (s.setTherm d x).flash = s.flash := rfl
@[simp] theorem State.setTherm_proc (s : State) (d : Nat) (x : Therm) : (s.setTherm d x).proc = s.proc := rfl
@[simp] theorem State.setTherm_jtag (s : State) (d : Nat) (x : Therm) : (s.setTherm d x).jtag = s.jtag := rfl
@[simp] theorem State.setTherm_hdrs (s : State) (d : Nat) (x : Therm) : (s.setTherm d x).hdrs = s.hdrs := rfl
@[simp] theorem State.setTherm_latches (s : State) (d : Nat) (x : Therm) : (s.setTherm d x).latches = s.latches := rfl
@[simp] theorem State.setTherm_staged (s : State) (d : Nat) (x : Therm) : (s.setTherm d x).staged = s.staged := rfl
@[simp] theorem State.setTherm_fresh (s : State) (d : Nat) (x : Therm) : (s.setTherm d x).fresh = s.fresh := rfl
@[simp] theorem State.setTherm_pending (s : State) (d : Nat) (x : Therm) : (s.setTherm d x).pending = s.pending := rfl
@[simp] theorem State.setTherm_floe (s : State) (d : Nat) (x : Therm) (i : Nat) : (s.setTherm d x).floe i = s.floe i := rfl
@[simp] theorem State.setTherm_part (s : State) (d : Nat) (x : Therm) (i : Nat) : (s.setTherm d x).part i = s.part i := rfl
@[simp] theorem State.setTherm_ep (s : State) (d : Nat) (x : Therm) (i : Nat) : (s.setTherm d x).ep i = s.ep i := rfl
@[simp] theorem State.setTherm_port (s : State) (d : Nat) (x : Therm) (i : Nat) : (s.setTherm d x).port i = s.port i := rfl
@[simp] theorem State.setTherm_chip (s : State) (d : Nat) (x : Therm) (i : Nat) : (s.setTherm d x).chip i = s.chip i := rfl
@[simp] theorem State.setTherm_oedPort (s : State) (d : Nat) (x : Therm) (i : Nat) : (s.setTherm d x).oedPort i = s.oedPort i := rfl
@[simp] theorem State.setTherm_mod (s : State) (d : Nat) (x : Therm) (i : Nat) : (s.setTherm d x).mod i = s.mod i := rfl
@[simp] theorem State.setTherm_nmc (s : State) (d : Nat) (x : Therm) (i : Nat) : (s.setTherm d x).nmc i = s.nmc i := rfl
@[simp] theorem State.setTherm_cxl (s : State) (d : Nat) (x : Therm) (i : Nat) : (s.setTherm d x).cxl i = s.cxl i := rfl
@[simp] theorem State.setTherm_hdr (s : State) (d : Nat) (x : Therm) (i j : Nat) : (s.setTherm d x).hdr i j = s.hdr i j := rfl
@[simp] theorem State.setTherm_now (s : State) (d : Nat) (x : Therm) : (s.setTherm d x).now = s.now := rfl
@[simp] theorem State.setTherm_lead (s : State) (d : Nat) (x : Therm) : (s.setTherm d x).lead = s.lead := rfl
@[simp] theorem State.setTherm_pokes (s : State) (d : Nat) (x : Therm) (b : Nat) (l : List Byte) : (s.setTherm d x).poke b l = (s.poke b l).setTherm d x := rfl
@[simp] theorem State.setMod_variant (s : State) (m : Nat) (x : Ucie) : (s.setMod m x).variant = s.variant := rfl
@[simp] theorem State.setMod_straps (s : State) (m : Nat) (x : Ucie) : (s.setMod m x).straps = s.straps := rfl
@[simp] theorem State.setMod_floes (s : State) (m : Nat) (x : Ucie) : (s.setMod m x).floes = s.floes := rfl
@[simp] theorem State.setMod_signals (s : State) (m : Nat) (x : Ucie) : (s.setMod m x).signals = s.signals := rfl
@[simp] theorem State.setMod_parts (s : State) (m : Nat) (x : Ucie) : (s.setMod m x).parts = s.parts := rfl
@[simp] theorem State.setMod_rejects (s : State) (m : Nat) (x : Ucie) : (s.setMod m x).rejects = s.rejects := rfl
@[simp] theorem State.setMod_steer (s : State) (m : Nat) (x : Ucie) : (s.setMod m x).steer = s.steer := rfl
@[simp] theorem State.setMod_mem (s : State) (m : Nat) (x : Ucie) : (s.setMod m x).mem = s.mem := rfl
@[simp] theorem State.setMod_spBad (s : State) (m : Nat) (x : Ucie) : (s.setMod m x).spBad = s.spBad := rfl
@[simp] theorem State.setMod_poison (s : State) (m : Nat) (x : Ucie) : (s.setMod m x).poison = s.poison := rfl
@[simp] theorem State.setMod_eps (s : State) (m : Nat) (x : Ucie) : (s.setMod m x).eps = s.eps := rfl
@[simp] theorem State.setMod_cmdq (s : State) (m : Nat) (x : Ucie) : (s.setMod m x).cmdq = s.cmdq := rfl
@[simp] theorem State.setMod_msis (s : State) (m : Nat) (x : Ucie) : (s.setMod m x).msis = s.msis := rfl
@[simp] theorem State.setMod_i3c (s : State) (m : Nat) (x : Ucie) : (s.setMod m x).i3c = s.i3c := rfl
@[simp] theorem State.setMod_nmcs (s : State) (m : Nat) (x : Ucie) : (s.setMod m x).nmcs = s.nmcs := rfl
@[simp] theorem State.setMod_nm (s : State) (m : Nat) (x : Ucie) : (s.setMod m x).nm = s.nm := rfl
@[simp] theorem State.setMod_cxls (s : State) (m : Nat) (x : Ucie) : (s.setMod m x).cxls = s.cxls := rfl
@[simp] theorem State.setMod_router (s : State) (m : Nat) (x : Ucie) : (s.setMod m x).router = s.router := rfl
@[simp] theorem State.setMod_chips (s : State) (m : Nat) (x : Ucie) : (s.setMod m x).chips = s.chips := rfl
@[simp] theorem State.setMod_oed (s : State) (m : Nat) (x : Ucie) : (s.setMod m x).oed = s.oed := rfl
@[simp] theorem State.setMod_sled (s : State) (m : Nat) (x : Ucie) : (s.setMod m x).sled = s.sled := rfl
@[simp] theorem State.setMod_time (s : State) (m : Nat) (x : Ucie) : (s.setMod m x).time = s.time := rfl
@[simp] theorem State.setMod_therms (s : State) (m : Nat) (x : Ucie) : (s.setMod m x).therms = s.therms := rfl
@[simp] theorem State.setMod_power (s : State) (m : Nat) (x : Ucie) : (s.setMod m x).power = s.power := rfl
@[simp] theorem State.setMod_rst (s : State) (m : Nat) (x : Ucie) : (s.setMod m x).rst = s.rst := rfl
@[simp] theorem State.setMod_ras (s : State) (m : Nat) (x : Ucie) : (s.setMod m x).ras = s.ras := rfl
@[simp] theorem State.setMod_sec (s : State) (m : Nat) (x : Ucie) : (s.setMod m x).sec = s.sec := rfl
@[simp] theorem State.setMod_fuses (s : State) (m : Nat) (x : Ucie) : (s.setMod m x).fuses = s.fuses := rfl
@[simp] theorem State.setMod_flash (s : State) (m : Nat) (x : Ucie) : (s.setMod m x).flash = s.flash := rfl
@[simp] theorem State.setMod_proc (s : State) (m : Nat) (x : Ucie) : (s.setMod m x).proc = s.proc := rfl
@[simp] theorem State.setMod_jtag (s : State) (m : Nat) (x : Ucie) : (s.setMod m x).jtag = s.jtag := rfl
@[simp] theorem State.setMod_hdrs (s : State) (m : Nat) (x : Ucie) : (s.setMod m x).hdrs = s.hdrs := rfl
@[simp] theorem State.setMod_latches (s : State) (m : Nat) (x : Ucie) : (s.setMod m x).latches = s.latches := rfl
@[simp] theorem State.setMod_staged (s : State) (m : Nat) (x : Ucie) : (s.setMod m x).staged = s.staged := rfl
@[simp] theorem State.setMod_fresh (s : State) (m : Nat) (x : Ucie) : (s.setMod m x).fresh = s.fresh := rfl
@[simp] theorem State.setMod_pending (s : State) (m : Nat) (x : Ucie) : (s.setMod m x).pending = s.pending := rfl
@[simp] theorem State.setMod_floe (s : State) (m : Nat) (x : Ucie) (i : Nat) : (s.setMod m x).floe i = s.floe i := rfl
@[simp] theorem State.setMod_part (s : State) (m : Nat) (x : Ucie) (i : Nat) : (s.setMod m x).part i = s.part i := rfl
@[simp] theorem State.setMod_ep (s : State) (m : Nat) (x : Ucie) (i : Nat) : (s.setMod m x).ep i = s.ep i := rfl
@[simp] theorem State.setMod_port (s : State) (m : Nat) (x : Ucie) (i : Nat) : (s.setMod m x).port i = s.port i := rfl
@[simp] theorem State.setMod_chip (s : State) (m : Nat) (x : Ucie) (i : Nat) : (s.setMod m x).chip i = s.chip i := rfl
@[simp] theorem State.setMod_oedPort (s : State) (m : Nat) (x : Ucie) (i : Nat) : (s.setMod m x).oedPort i = s.oedPort i := rfl
@[simp] theorem State.setMod_therm (s : State) (m : Nat) (x : Ucie) (i : Nat) : (s.setMod m x).therm i = s.therm i := rfl
@[simp] theorem State.setMod_nmc (s : State) (m : Nat) (x : Ucie) (i : Nat) : (s.setMod m x).nmc i = s.nmc i := rfl
@[simp] theorem State.setMod_cxl (s : State) (m : Nat) (x : Ucie) (i : Nat) : (s.setMod m x).cxl i = s.cxl i := rfl
@[simp] theorem State.setMod_hdr (s : State) (m : Nat) (x : Ucie) (i j : Nat) : (s.setMod m x).hdr i j = s.hdr i j := rfl
@[simp] theorem State.setMod_now (s : State) (m : Nat) (x : Ucie) : (s.setMod m x).now = s.now := rfl
@[simp] theorem State.setMod_lead (s : State) (m : Nat) (x : Ucie) : (s.setMod m x).lead = s.lead := rfl
@[simp] theorem State.setMod_pokes (s : State) (m : Nat) (x : Ucie) (b : Nat) (l : List Byte) : (s.setMod m x).poke b l = (s.poke b l).setMod m x := rfl
@[simp] theorem State.setNmc_variant (s : State) (d : Nat) (x : Nmc) : (s.setNmc d x).variant = s.variant := rfl
@[simp] theorem State.setNmc_straps (s : State) (d : Nat) (x : Nmc) : (s.setNmc d x).straps = s.straps := rfl
@[simp] theorem State.setNmc_floes (s : State) (d : Nat) (x : Nmc) : (s.setNmc d x).floes = s.floes := rfl
@[simp] theorem State.setNmc_signals (s : State) (d : Nat) (x : Nmc) : (s.setNmc d x).signals = s.signals := rfl
@[simp] theorem State.setNmc_parts (s : State) (d : Nat) (x : Nmc) : (s.setNmc d x).parts = s.parts := rfl
@[simp] theorem State.setNmc_rejects (s : State) (d : Nat) (x : Nmc) : (s.setNmc d x).rejects = s.rejects := rfl
@[simp] theorem State.setNmc_steer (s : State) (d : Nat) (x : Nmc) : (s.setNmc d x).steer = s.steer := rfl
@[simp] theorem State.setNmc_mem (s : State) (d : Nat) (x : Nmc) : (s.setNmc d x).mem = s.mem := rfl
@[simp] theorem State.setNmc_spBad (s : State) (d : Nat) (x : Nmc) : (s.setNmc d x).spBad = s.spBad := rfl
@[simp] theorem State.setNmc_poison (s : State) (d : Nat) (x : Nmc) : (s.setNmc d x).poison = s.poison := rfl
@[simp] theorem State.setNmc_eps (s : State) (d : Nat) (x : Nmc) : (s.setNmc d x).eps = s.eps := rfl
@[simp] theorem State.setNmc_cmdq (s : State) (d : Nat) (x : Nmc) : (s.setNmc d x).cmdq = s.cmdq := rfl
@[simp] theorem State.setNmc_msis (s : State) (d : Nat) (x : Nmc) : (s.setNmc d x).msis = s.msis := rfl
@[simp] theorem State.setNmc_i3c (s : State) (d : Nat) (x : Nmc) : (s.setNmc d x).i3c = s.i3c := rfl
@[simp] theorem State.setNmc_ucie (s : State) (d : Nat) (x : Nmc) : (s.setNmc d x).ucie = s.ucie := rfl
@[simp] theorem State.setNmc_nm (s : State) (d : Nat) (x : Nmc) : (s.setNmc d x).nm = s.nm := rfl
@[simp] theorem State.setNmc_cxls (s : State) (d : Nat) (x : Nmc) : (s.setNmc d x).cxls = s.cxls := rfl
@[simp] theorem State.setNmc_router (s : State) (d : Nat) (x : Nmc) : (s.setNmc d x).router = s.router := rfl
@[simp] theorem State.setNmc_chips (s : State) (d : Nat) (x : Nmc) : (s.setNmc d x).chips = s.chips := rfl
@[simp] theorem State.setNmc_oed (s : State) (d : Nat) (x : Nmc) : (s.setNmc d x).oed = s.oed := rfl
@[simp] theorem State.setNmc_sled (s : State) (d : Nat) (x : Nmc) : (s.setNmc d x).sled = s.sled := rfl
@[simp] theorem State.setNmc_time (s : State) (d : Nat) (x : Nmc) : (s.setNmc d x).time = s.time := rfl
@[simp] theorem State.setNmc_therms (s : State) (d : Nat) (x : Nmc) : (s.setNmc d x).therms = s.therms := rfl
@[simp] theorem State.setNmc_power (s : State) (d : Nat) (x : Nmc) : (s.setNmc d x).power = s.power := rfl
@[simp] theorem State.setNmc_rst (s : State) (d : Nat) (x : Nmc) : (s.setNmc d x).rst = s.rst := rfl
@[simp] theorem State.setNmc_ras (s : State) (d : Nat) (x : Nmc) : (s.setNmc d x).ras = s.ras := rfl
@[simp] theorem State.setNmc_sec (s : State) (d : Nat) (x : Nmc) : (s.setNmc d x).sec = s.sec := rfl
@[simp] theorem State.setNmc_fuses (s : State) (d : Nat) (x : Nmc) : (s.setNmc d x).fuses = s.fuses := rfl
@[simp] theorem State.setNmc_flash (s : State) (d : Nat) (x : Nmc) : (s.setNmc d x).flash = s.flash := rfl
@[simp] theorem State.setNmc_proc (s : State) (d : Nat) (x : Nmc) : (s.setNmc d x).proc = s.proc := rfl
@[simp] theorem State.setNmc_jtag (s : State) (d : Nat) (x : Nmc) : (s.setNmc d x).jtag = s.jtag := rfl
@[simp] theorem State.setNmc_hdrs (s : State) (d : Nat) (x : Nmc) : (s.setNmc d x).hdrs = s.hdrs := rfl
@[simp] theorem State.setNmc_latches (s : State) (d : Nat) (x : Nmc) : (s.setNmc d x).latches = s.latches := rfl
@[simp] theorem State.setNmc_staged (s : State) (d : Nat) (x : Nmc) : (s.setNmc d x).staged = s.staged := rfl
@[simp] theorem State.setNmc_fresh (s : State) (d : Nat) (x : Nmc) : (s.setNmc d x).fresh = s.fresh := rfl
@[simp] theorem State.setNmc_pending (s : State) (d : Nat) (x : Nmc) : (s.setNmc d x).pending = s.pending := rfl
@[simp] theorem State.setNmc_floe (s : State) (d : Nat) (x : Nmc) (i : Nat) : (s.setNmc d x).floe i = s.floe i := rfl
@[simp] theorem State.setNmc_part (s : State) (d : Nat) (x : Nmc) (i : Nat) : (s.setNmc d x).part i = s.part i := rfl
@[simp] theorem State.setNmc_ep (s : State) (d : Nat) (x : Nmc) (i : Nat) : (s.setNmc d x).ep i = s.ep i := rfl
@[simp] theorem State.setNmc_port (s : State) (d : Nat) (x : Nmc) (i : Nat) : (s.setNmc d x).port i = s.port i := rfl
@[simp] theorem State.setNmc_chip (s : State) (d : Nat) (x : Nmc) (i : Nat) : (s.setNmc d x).chip i = s.chip i := rfl
@[simp] theorem State.setNmc_oedPort (s : State) (d : Nat) (x : Nmc) (i : Nat) : (s.setNmc d x).oedPort i = s.oedPort i := rfl
@[simp] theorem State.setNmc_therm (s : State) (d : Nat) (x : Nmc) (i : Nat) : (s.setNmc d x).therm i = s.therm i := rfl
@[simp] theorem State.setNmc_mod (s : State) (d : Nat) (x : Nmc) (i : Nat) : (s.setNmc d x).mod i = s.mod i := rfl
@[simp] theorem State.setNmc_cxl (s : State) (d : Nat) (x : Nmc) (i : Nat) : (s.setNmc d x).cxl i = s.cxl i := rfl
@[simp] theorem State.setNmc_hdr (s : State) (d : Nat) (x : Nmc) (i j : Nat) : (s.setNmc d x).hdr i j = s.hdr i j := rfl
@[simp] theorem State.setNmc_now (s : State) (d : Nat) (x : Nmc) : (s.setNmc d x).now = s.now := rfl
@[simp] theorem State.setNmc_lead (s : State) (d : Nat) (x : Nmc) : (s.setNmc d x).lead = s.lead := rfl
@[simp] theorem State.setNmc_pokes (s : State) (d : Nat) (x : Nmc) (b : Nat) (l : List Byte) : (s.setNmc d x).poke b l = (s.poke b l).setNmc d x := rfl
@[simp] theorem State.setCxl_variant (s : State) (k : Nat) (x : Cxl) : (s.setCxl k x).variant = s.variant := rfl
@[simp] theorem State.setCxl_straps (s : State) (k : Nat) (x : Cxl) : (s.setCxl k x).straps = s.straps := rfl
@[simp] theorem State.setCxl_floes (s : State) (k : Nat) (x : Cxl) : (s.setCxl k x).floes = s.floes := rfl
@[simp] theorem State.setCxl_signals (s : State) (k : Nat) (x : Cxl) : (s.setCxl k x).signals = s.signals := rfl
@[simp] theorem State.setCxl_parts (s : State) (k : Nat) (x : Cxl) : (s.setCxl k x).parts = s.parts := rfl
@[simp] theorem State.setCxl_rejects (s : State) (k : Nat) (x : Cxl) : (s.setCxl k x).rejects = s.rejects := rfl
@[simp] theorem State.setCxl_steer (s : State) (k : Nat) (x : Cxl) : (s.setCxl k x).steer = s.steer := rfl
@[simp] theorem State.setCxl_mem (s : State) (k : Nat) (x : Cxl) : (s.setCxl k x).mem = s.mem := rfl
@[simp] theorem State.setCxl_spBad (s : State) (k : Nat) (x : Cxl) : (s.setCxl k x).spBad = s.spBad := rfl
@[simp] theorem State.setCxl_poison (s : State) (k : Nat) (x : Cxl) : (s.setCxl k x).poison = s.poison := rfl
@[simp] theorem State.setCxl_eps (s : State) (k : Nat) (x : Cxl) : (s.setCxl k x).eps = s.eps := rfl
@[simp] theorem State.setCxl_cmdq (s : State) (k : Nat) (x : Cxl) : (s.setCxl k x).cmdq = s.cmdq := rfl
@[simp] theorem State.setCxl_msis (s : State) (k : Nat) (x : Cxl) : (s.setCxl k x).msis = s.msis := rfl
@[simp] theorem State.setCxl_i3c (s : State) (k : Nat) (x : Cxl) : (s.setCxl k x).i3c = s.i3c := rfl
@[simp] theorem State.setCxl_ucie (s : State) (k : Nat) (x : Cxl) : (s.setCxl k x).ucie = s.ucie := rfl
@[simp] theorem State.setCxl_nmcs (s : State) (k : Nat) (x : Cxl) : (s.setCxl k x).nmcs = s.nmcs := rfl
@[simp] theorem State.setCxl_nm (s : State) (k : Nat) (x : Cxl) : (s.setCxl k x).nm = s.nm := rfl
@[simp] theorem State.setCxl_router (s : State) (k : Nat) (x : Cxl) : (s.setCxl k x).router = s.router := rfl
@[simp] theorem State.setCxl_chips (s : State) (k : Nat) (x : Cxl) : (s.setCxl k x).chips = s.chips := rfl
@[simp] theorem State.setCxl_oed (s : State) (k : Nat) (x : Cxl) : (s.setCxl k x).oed = s.oed := rfl
@[simp] theorem State.setCxl_sled (s : State) (k : Nat) (x : Cxl) : (s.setCxl k x).sled = s.sled := rfl
@[simp] theorem State.setCxl_time (s : State) (k : Nat) (x : Cxl) : (s.setCxl k x).time = s.time := rfl
@[simp] theorem State.setCxl_therms (s : State) (k : Nat) (x : Cxl) : (s.setCxl k x).therms = s.therms := rfl
@[simp] theorem State.setCxl_power (s : State) (k : Nat) (x : Cxl) : (s.setCxl k x).power = s.power := rfl
@[simp] theorem State.setCxl_rst (s : State) (k : Nat) (x : Cxl) : (s.setCxl k x).rst = s.rst := rfl
@[simp] theorem State.setCxl_ras (s : State) (k : Nat) (x : Cxl) : (s.setCxl k x).ras = s.ras := rfl
@[simp] theorem State.setCxl_sec (s : State) (k : Nat) (x : Cxl) : (s.setCxl k x).sec = s.sec := rfl
@[simp] theorem State.setCxl_fuses (s : State) (k : Nat) (x : Cxl) : (s.setCxl k x).fuses = s.fuses := rfl
@[simp] theorem State.setCxl_flash (s : State) (k : Nat) (x : Cxl) : (s.setCxl k x).flash = s.flash := rfl
@[simp] theorem State.setCxl_proc (s : State) (k : Nat) (x : Cxl) : (s.setCxl k x).proc = s.proc := rfl
@[simp] theorem State.setCxl_jtag (s : State) (k : Nat) (x : Cxl) : (s.setCxl k x).jtag = s.jtag := rfl
@[simp] theorem State.setCxl_hdrs (s : State) (k : Nat) (x : Cxl) : (s.setCxl k x).hdrs = s.hdrs := rfl
@[simp] theorem State.setCxl_latches (s : State) (k : Nat) (x : Cxl) : (s.setCxl k x).latches = s.latches := rfl
@[simp] theorem State.setCxl_staged (s : State) (k : Nat) (x : Cxl) : (s.setCxl k x).staged = s.staged := rfl
@[simp] theorem State.setCxl_fresh (s : State) (k : Nat) (x : Cxl) : (s.setCxl k x).fresh = s.fresh := rfl
@[simp] theorem State.setCxl_pending (s : State) (k : Nat) (x : Cxl) : (s.setCxl k x).pending = s.pending := rfl
@[simp] theorem State.setCxl_floe (s : State) (k : Nat) (x : Cxl) (i : Nat) : (s.setCxl k x).floe i = s.floe i := rfl
@[simp] theorem State.setCxl_part (s : State) (k : Nat) (x : Cxl) (i : Nat) : (s.setCxl k x).part i = s.part i := rfl
@[simp] theorem State.setCxl_ep (s : State) (k : Nat) (x : Cxl) (i : Nat) : (s.setCxl k x).ep i = s.ep i := rfl
@[simp] theorem State.setCxl_port (s : State) (k : Nat) (x : Cxl) (i : Nat) : (s.setCxl k x).port i = s.port i := rfl
@[simp] theorem State.setCxl_chip (s : State) (k : Nat) (x : Cxl) (i : Nat) : (s.setCxl k x).chip i = s.chip i := rfl
@[simp] theorem State.setCxl_oedPort (s : State) (k : Nat) (x : Cxl) (i : Nat) : (s.setCxl k x).oedPort i = s.oedPort i := rfl
@[simp] theorem State.setCxl_therm (s : State) (k : Nat) (x : Cxl) (i : Nat) : (s.setCxl k x).therm i = s.therm i := rfl
@[simp] theorem State.setCxl_mod (s : State) (k : Nat) (x : Cxl) (i : Nat) : (s.setCxl k x).mod i = s.mod i := rfl
@[simp] theorem State.setCxl_nmc (s : State) (k : Nat) (x : Cxl) (i : Nat) : (s.setCxl k x).nmc i = s.nmc i := rfl
@[simp] theorem State.setCxl_hdr (s : State) (k : Nat) (x : Cxl) (i j : Nat) : (s.setCxl k x).hdr i j = s.hdr i j := rfl
@[simp] theorem State.setCxl_now (s : State) (k : Nat) (x : Cxl) : (s.setCxl k x).now = s.now := rfl
@[simp] theorem State.setCxl_lead (s : State) (k : Nat) (x : Cxl) : (s.setCxl k x).lead = s.lead := rfl
@[simp] theorem State.setCxl_pokes (s : State) (k : Nat) (x : Cxl) (b : Nat) (l : List Byte) : (s.setCxl k x).poke b l = (s.poke b l).setCxl k x := rfl
@[simp] theorem State.setHdr_variant (s : State) (d p : Nat) (x : Header) : (s.setHdr d p x).variant = s.variant := rfl
@[simp] theorem State.setHdr_straps (s : State) (d p : Nat) (x : Header) : (s.setHdr d p x).straps = s.straps := rfl
@[simp] theorem State.setHdr_floes (s : State) (d p : Nat) (x : Header) : (s.setHdr d p x).floes = s.floes := rfl
@[simp] theorem State.setHdr_signals (s : State) (d p : Nat) (x : Header) : (s.setHdr d p x).signals = s.signals := rfl
@[simp] theorem State.setHdr_parts (s : State) (d p : Nat) (x : Header) : (s.setHdr d p x).parts = s.parts := rfl
@[simp] theorem State.setHdr_rejects (s : State) (d p : Nat) (x : Header) : (s.setHdr d p x).rejects = s.rejects := rfl
@[simp] theorem State.setHdr_steer (s : State) (d p : Nat) (x : Header) : (s.setHdr d p x).steer = s.steer := rfl
@[simp] theorem State.setHdr_mem (s : State) (d p : Nat) (x : Header) : (s.setHdr d p x).mem = s.mem := rfl
@[simp] theorem State.setHdr_spBad (s : State) (d p : Nat) (x : Header) : (s.setHdr d p x).spBad = s.spBad := rfl
@[simp] theorem State.setHdr_poison (s : State) (d p : Nat) (x : Header) : (s.setHdr d p x).poison = s.poison := rfl
@[simp] theorem State.setHdr_eps (s : State) (d p : Nat) (x : Header) : (s.setHdr d p x).eps = s.eps := rfl
@[simp] theorem State.setHdr_cmdq (s : State) (d p : Nat) (x : Header) : (s.setHdr d p x).cmdq = s.cmdq := rfl
@[simp] theorem State.setHdr_msis (s : State) (d p : Nat) (x : Header) : (s.setHdr d p x).msis = s.msis := rfl
@[simp] theorem State.setHdr_i3c (s : State) (d p : Nat) (x : Header) : (s.setHdr d p x).i3c = s.i3c := rfl
@[simp] theorem State.setHdr_ucie (s : State) (d p : Nat) (x : Header) : (s.setHdr d p x).ucie = s.ucie := rfl
@[simp] theorem State.setHdr_nmcs (s : State) (d p : Nat) (x : Header) : (s.setHdr d p x).nmcs = s.nmcs := rfl
@[simp] theorem State.setHdr_nm (s : State) (d p : Nat) (x : Header) : (s.setHdr d p x).nm = s.nm := rfl
@[simp] theorem State.setHdr_cxls (s : State) (d p : Nat) (x : Header) : (s.setHdr d p x).cxls = s.cxls := rfl
@[simp] theorem State.setHdr_router (s : State) (d p : Nat) (x : Header) : (s.setHdr d p x).router = s.router := rfl
@[simp] theorem State.setHdr_chips (s : State) (d p : Nat) (x : Header) : (s.setHdr d p x).chips = s.chips := rfl
@[simp] theorem State.setHdr_oed (s : State) (d p : Nat) (x : Header) : (s.setHdr d p x).oed = s.oed := rfl
@[simp] theorem State.setHdr_sled (s : State) (d p : Nat) (x : Header) : (s.setHdr d p x).sled = s.sled := rfl
@[simp] theorem State.setHdr_time (s : State) (d p : Nat) (x : Header) : (s.setHdr d p x).time = s.time := rfl
@[simp] theorem State.setHdr_therms (s : State) (d p : Nat) (x : Header) : (s.setHdr d p x).therms = s.therms := rfl
@[simp] theorem State.setHdr_power (s : State) (d p : Nat) (x : Header) : (s.setHdr d p x).power = s.power := rfl
@[simp] theorem State.setHdr_rst (s : State) (d p : Nat) (x : Header) : (s.setHdr d p x).rst = s.rst := rfl
@[simp] theorem State.setHdr_ras (s : State) (d p : Nat) (x : Header) : (s.setHdr d p x).ras = s.ras := rfl
@[simp] theorem State.setHdr_sec (s : State) (d p : Nat) (x : Header) : (s.setHdr d p x).sec = s.sec := rfl
@[simp] theorem State.setHdr_fuses (s : State) (d p : Nat) (x : Header) : (s.setHdr d p x).fuses = s.fuses := rfl
@[simp] theorem State.setHdr_flash (s : State) (d p : Nat) (x : Header) : (s.setHdr d p x).flash = s.flash := rfl
@[simp] theorem State.setHdr_proc (s : State) (d p : Nat) (x : Header) : (s.setHdr d p x).proc = s.proc := rfl
@[simp] theorem State.setHdr_jtag (s : State) (d p : Nat) (x : Header) : (s.setHdr d p x).jtag = s.jtag := rfl
@[simp] theorem State.setHdr_latches (s : State) (d p : Nat) (x : Header) : (s.setHdr d p x).latches = s.latches := rfl
@[simp] theorem State.setHdr_staged (s : State) (d p : Nat) (x : Header) : (s.setHdr d p x).staged = s.staged := rfl
@[simp] theorem State.setHdr_fresh (s : State) (d p : Nat) (x : Header) : (s.setHdr d p x).fresh = s.fresh := rfl
@[simp] theorem State.setHdr_pending (s : State) (d p : Nat) (x : Header) : (s.setHdr d p x).pending = s.pending := rfl
@[simp] theorem State.setHdr_floe (s : State) (d p : Nat) (x : Header) (i : Nat) : (s.setHdr d p x).floe i = s.floe i := rfl
@[simp] theorem State.setHdr_part (s : State) (d p : Nat) (x : Header) (i : Nat) : (s.setHdr d p x).part i = s.part i := rfl
@[simp] theorem State.setHdr_ep (s : State) (d p : Nat) (x : Header) (i : Nat) : (s.setHdr d p x).ep i = s.ep i := rfl
@[simp] theorem State.setHdr_port (s : State) (d p : Nat) (x : Header) (i : Nat) : (s.setHdr d p x).port i = s.port i := rfl
@[simp] theorem State.setHdr_chip (s : State) (d p : Nat) (x : Header) (i : Nat) : (s.setHdr d p x).chip i = s.chip i := rfl
@[simp] theorem State.setHdr_oedPort (s : State) (d p : Nat) (x : Header) (i : Nat) : (s.setHdr d p x).oedPort i = s.oedPort i := rfl
@[simp] theorem State.setHdr_therm (s : State) (d p : Nat) (x : Header) (i : Nat) : (s.setHdr d p x).therm i = s.therm i := rfl
@[simp] theorem State.setHdr_mod (s : State) (d p : Nat) (x : Header) (i : Nat) : (s.setHdr d p x).mod i = s.mod i := rfl
@[simp] theorem State.setHdr_nmc (s : State) (d p : Nat) (x : Header) (i : Nat) : (s.setHdr d p x).nmc i = s.nmc i := rfl
@[simp] theorem State.setHdr_cxl (s : State) (d p : Nat) (x : Header) (i : Nat) : (s.setHdr d p x).cxl i = s.cxl i := rfl
@[simp] theorem State.setHdr_now (s : State) (d p : Nat) (x : Header) : (s.setHdr d p x).now = s.now := rfl
@[simp] theorem State.setHdr_lead (s : State) (d p : Nat) (x : Header) : (s.setHdr d p x).lead = s.lead := rfl
@[simp] theorem State.setHdr_pokes (s : State) (d p : Nat) (x : Header) (b : Nat) (l : List Byte) : (s.setHdr d p x).poke b l = (s.poke b l).setHdr d p x := rfl
@[simp] theorem State.setSec_variant (s : State) (x : Sec) : (s.setSec x).variant = s.variant := rfl
@[simp] theorem State.setSec_straps (s : State) (x : Sec) : (s.setSec x).straps = s.straps := rfl
@[simp] theorem State.setSec_floes (s : State) (x : Sec) : (s.setSec x).floes = s.floes := rfl
@[simp] theorem State.setSec_signals (s : State) (x : Sec) : (s.setSec x).signals = s.signals := rfl
@[simp] theorem State.setSec_parts (s : State) (x : Sec) : (s.setSec x).parts = s.parts := rfl
@[simp] theorem State.setSec_rejects (s : State) (x : Sec) : (s.setSec x).rejects = s.rejects := rfl
@[simp] theorem State.setSec_steer (s : State) (x : Sec) : (s.setSec x).steer = s.steer := rfl
@[simp] theorem State.setSec_mem (s : State) (x : Sec) : (s.setSec x).mem = s.mem := rfl
@[simp] theorem State.setSec_spBad (s : State) (x : Sec) : (s.setSec x).spBad = s.spBad := rfl
@[simp] theorem State.setSec_poison (s : State) (x : Sec) : (s.setSec x).poison = s.poison := rfl
@[simp] theorem State.setSec_eps (s : State) (x : Sec) : (s.setSec x).eps = s.eps := rfl
@[simp] theorem State.setSec_cmdq (s : State) (x : Sec) : (s.setSec x).cmdq = s.cmdq := rfl
@[simp] theorem State.setSec_msis (s : State) (x : Sec) : (s.setSec x).msis = s.msis := rfl
@[simp] theorem State.setSec_i3c (s : State) (x : Sec) : (s.setSec x).i3c = s.i3c := rfl
@[simp] theorem State.setSec_ucie (s : State) (x : Sec) : (s.setSec x).ucie = s.ucie := rfl
@[simp] theorem State.setSec_nmcs (s : State) (x : Sec) : (s.setSec x).nmcs = s.nmcs := rfl
@[simp] theorem State.setSec_nm (s : State) (x : Sec) : (s.setSec x).nm = s.nm := rfl
@[simp] theorem State.setSec_cxls (s : State) (x : Sec) : (s.setSec x).cxls = s.cxls := rfl
@[simp] theorem State.setSec_router (s : State) (x : Sec) : (s.setSec x).router = s.router := rfl
@[simp] theorem State.setSec_chips (s : State) (x : Sec) : (s.setSec x).chips = s.chips := rfl
@[simp] theorem State.setSec_oed (s : State) (x : Sec) : (s.setSec x).oed = s.oed := rfl
@[simp] theorem State.setSec_sled (s : State) (x : Sec) : (s.setSec x).sled = s.sled := rfl
@[simp] theorem State.setSec_time (s : State) (x : Sec) : (s.setSec x).time = s.time := rfl
@[simp] theorem State.setSec_therms (s : State) (x : Sec) : (s.setSec x).therms = s.therms := rfl
@[simp] theorem State.setSec_power (s : State) (x : Sec) : (s.setSec x).power = s.power := rfl
@[simp] theorem State.setSec_rst (s : State) (x : Sec) : (s.setSec x).rst = s.rst := rfl
@[simp] theorem State.setSec_ras (s : State) (x : Sec) : (s.setSec x).ras = s.ras := rfl
@[simp] theorem State.setSec_fuses (s : State) (x : Sec) : (s.setSec x).fuses = s.fuses := rfl
@[simp] theorem State.setSec_flash (s : State) (x : Sec) : (s.setSec x).flash = s.flash := rfl
@[simp] theorem State.setSec_proc (s : State) (x : Sec) : (s.setSec x).proc = s.proc := rfl
@[simp] theorem State.setSec_jtag (s : State) (x : Sec) : (s.setSec x).jtag = s.jtag := rfl
@[simp] theorem State.setSec_hdrs (s : State) (x : Sec) : (s.setSec x).hdrs = s.hdrs := rfl
@[simp] theorem State.setSec_latches (s : State) (x : Sec) : (s.setSec x).latches = s.latches := rfl
@[simp] theorem State.setSec_staged (s : State) (x : Sec) : (s.setSec x).staged = s.staged := rfl
@[simp] theorem State.setSec_fresh (s : State) (x : Sec) : (s.setSec x).fresh = s.fresh := rfl
@[simp] theorem State.setSec_pending (s : State) (x : Sec) : (s.setSec x).pending = s.pending := rfl
@[simp] theorem State.setSec_floe (s : State) (x : Sec) (i : Nat) : (s.setSec x).floe i = s.floe i := rfl
@[simp] theorem State.setSec_part (s : State) (x : Sec) (i : Nat) : (s.setSec x).part i = s.part i := rfl
@[simp] theorem State.setSec_ep (s : State) (x : Sec) (i : Nat) : (s.setSec x).ep i = s.ep i := rfl
@[simp] theorem State.setSec_port (s : State) (x : Sec) (i : Nat) : (s.setSec x).port i = s.port i := rfl
@[simp] theorem State.setSec_chip (s : State) (x : Sec) (i : Nat) : (s.setSec x).chip i = s.chip i := rfl
@[simp] theorem State.setSec_oedPort (s : State) (x : Sec) (i : Nat) : (s.setSec x).oedPort i = s.oedPort i := rfl
@[simp] theorem State.setSec_therm (s : State) (x : Sec) (i : Nat) : (s.setSec x).therm i = s.therm i := rfl
@[simp] theorem State.setSec_mod (s : State) (x : Sec) (i : Nat) : (s.setSec x).mod i = s.mod i := rfl
@[simp] theorem State.setSec_nmc (s : State) (x : Sec) (i : Nat) : (s.setSec x).nmc i = s.nmc i := rfl
@[simp] theorem State.setSec_cxl (s : State) (x : Sec) (i : Nat) : (s.setSec x).cxl i = s.cxl i := rfl
@[simp] theorem State.setSec_hdr (s : State) (x : Sec) (i j : Nat) : (s.setSec x).hdr i j = s.hdr i j := rfl
@[simp] theorem State.setSec_now (s : State) (x : Sec) : (s.setSec x).now = s.now := rfl
@[simp] theorem State.setSec_lead (s : State) (x : Sec) : (s.setSec x).lead = s.lead := rfl
@[simp] theorem State.setSec_pokes (s : State) (x : Sec) (b : Nat) (l : List Byte) : (s.setSec x).poke b l = (s.poke b l).setSec x := rfl
@[simp] theorem State.setRas_variant (s : State) (x : Ras) : (s.setRas x).variant = s.variant := rfl
@[simp] theorem State.setRas_straps (s : State) (x : Ras) : (s.setRas x).straps = s.straps := rfl
@[simp] theorem State.setRas_floes (s : State) (x : Ras) : (s.setRas x).floes = s.floes := rfl
@[simp] theorem State.setRas_signals (s : State) (x : Ras) : (s.setRas x).signals = s.signals := rfl
@[simp] theorem State.setRas_parts (s : State) (x : Ras) : (s.setRas x).parts = s.parts := rfl
@[simp] theorem State.setRas_rejects (s : State) (x : Ras) : (s.setRas x).rejects = s.rejects := rfl
@[simp] theorem State.setRas_steer (s : State) (x : Ras) : (s.setRas x).steer = s.steer := rfl
@[simp] theorem State.setRas_mem (s : State) (x : Ras) : (s.setRas x).mem = s.mem := rfl
@[simp] theorem State.setRas_spBad (s : State) (x : Ras) : (s.setRas x).spBad = s.spBad := rfl
@[simp] theorem State.setRas_poison (s : State) (x : Ras) : (s.setRas x).poison = s.poison := rfl
@[simp] theorem State.setRas_eps (s : State) (x : Ras) : (s.setRas x).eps = s.eps := rfl
@[simp] theorem State.setRas_cmdq (s : State) (x : Ras) : (s.setRas x).cmdq = s.cmdq := rfl
@[simp] theorem State.setRas_msis (s : State) (x : Ras) : (s.setRas x).msis = s.msis := rfl
@[simp] theorem State.setRas_i3c (s : State) (x : Ras) : (s.setRas x).i3c = s.i3c := rfl
@[simp] theorem State.setRas_ucie (s : State) (x : Ras) : (s.setRas x).ucie = s.ucie := rfl
@[simp] theorem State.setRas_nmcs (s : State) (x : Ras) : (s.setRas x).nmcs = s.nmcs := rfl
@[simp] theorem State.setRas_nm (s : State) (x : Ras) : (s.setRas x).nm = s.nm := rfl
@[simp] theorem State.setRas_cxls (s : State) (x : Ras) : (s.setRas x).cxls = s.cxls := rfl
@[simp] theorem State.setRas_router (s : State) (x : Ras) : (s.setRas x).router = s.router := rfl
@[simp] theorem State.setRas_chips (s : State) (x : Ras) : (s.setRas x).chips = s.chips := rfl
@[simp] theorem State.setRas_oed (s : State) (x : Ras) : (s.setRas x).oed = s.oed := rfl
@[simp] theorem State.setRas_sled (s : State) (x : Ras) : (s.setRas x).sled = s.sled := rfl
@[simp] theorem State.setRas_time (s : State) (x : Ras) : (s.setRas x).time = s.time := rfl
@[simp] theorem State.setRas_therms (s : State) (x : Ras) : (s.setRas x).therms = s.therms := rfl
@[simp] theorem State.setRas_power (s : State) (x : Ras) : (s.setRas x).power = s.power := rfl
@[simp] theorem State.setRas_rst (s : State) (x : Ras) : (s.setRas x).rst = s.rst := rfl
@[simp] theorem State.setRas_sec (s : State) (x : Ras) : (s.setRas x).sec = s.sec := rfl
@[simp] theorem State.setRas_fuses (s : State) (x : Ras) : (s.setRas x).fuses = s.fuses := rfl
@[simp] theorem State.setRas_flash (s : State) (x : Ras) : (s.setRas x).flash = s.flash := rfl
@[simp] theorem State.setRas_proc (s : State) (x : Ras) : (s.setRas x).proc = s.proc := rfl
@[simp] theorem State.setRas_jtag (s : State) (x : Ras) : (s.setRas x).jtag = s.jtag := rfl
@[simp] theorem State.setRas_hdrs (s : State) (x : Ras) : (s.setRas x).hdrs = s.hdrs := rfl
@[simp] theorem State.setRas_latches (s : State) (x : Ras) : (s.setRas x).latches = s.latches := rfl
@[simp] theorem State.setRas_staged (s : State) (x : Ras) : (s.setRas x).staged = s.staged := rfl
@[simp] theorem State.setRas_fresh (s : State) (x : Ras) : (s.setRas x).fresh = s.fresh := rfl
@[simp] theorem State.setRas_pending (s : State) (x : Ras) : (s.setRas x).pending = s.pending := rfl
@[simp] theorem State.setRas_floe (s : State) (x : Ras) (i : Nat) : (s.setRas x).floe i = s.floe i := rfl
@[simp] theorem State.setRas_part (s : State) (x : Ras) (i : Nat) : (s.setRas x).part i = s.part i := rfl
@[simp] theorem State.setRas_ep (s : State) (x : Ras) (i : Nat) : (s.setRas x).ep i = s.ep i := rfl
@[simp] theorem State.setRas_port (s : State) (x : Ras) (i : Nat) : (s.setRas x).port i = s.port i := rfl
@[simp] theorem State.setRas_chip (s : State) (x : Ras) (i : Nat) : (s.setRas x).chip i = s.chip i := rfl
@[simp] theorem State.setRas_oedPort (s : State) (x : Ras) (i : Nat) : (s.setRas x).oedPort i = s.oedPort i := rfl
@[simp] theorem State.setRas_therm (s : State) (x : Ras) (i : Nat) : (s.setRas x).therm i = s.therm i := rfl
@[simp] theorem State.setRas_mod (s : State) (x : Ras) (i : Nat) : (s.setRas x).mod i = s.mod i := rfl
@[simp] theorem State.setRas_nmc (s : State) (x : Ras) (i : Nat) : (s.setRas x).nmc i = s.nmc i := rfl
@[simp] theorem State.setRas_cxl (s : State) (x : Ras) (i : Nat) : (s.setRas x).cxl i = s.cxl i := rfl
@[simp] theorem State.setRas_hdr (s : State) (x : Ras) (i j : Nat) : (s.setRas x).hdr i j = s.hdr i j := rfl
@[simp] theorem State.setRas_now (s : State) (x : Ras) : (s.setRas x).now = s.now := rfl
@[simp] theorem State.setRas_lead (s : State) (x : Ras) : (s.setRas x).lead = s.lead := rfl
@[simp] theorem State.setRas_pokes (s : State) (x : Ras) (b : Nat) (l : List Byte) : (s.setRas x).poke b l = (s.poke b l).setRas x := rfl
@[simp] theorem State.setRst_variant (s : State) (x : Rst) : (s.setRst x).variant = s.variant := rfl
@[simp] theorem State.setRst_straps (s : State) (x : Rst) : (s.setRst x).straps = s.straps := rfl
@[simp] theorem State.setRst_floes (s : State) (x : Rst) : (s.setRst x).floes = s.floes := rfl
@[simp] theorem State.setRst_signals (s : State) (x : Rst) : (s.setRst x).signals = s.signals := rfl
@[simp] theorem State.setRst_parts (s : State) (x : Rst) : (s.setRst x).parts = s.parts := rfl
@[simp] theorem State.setRst_rejects (s : State) (x : Rst) : (s.setRst x).rejects = s.rejects := rfl
@[simp] theorem State.setRst_steer (s : State) (x : Rst) : (s.setRst x).steer = s.steer := rfl
@[simp] theorem State.setRst_mem (s : State) (x : Rst) : (s.setRst x).mem = s.mem := rfl
@[simp] theorem State.setRst_spBad (s : State) (x : Rst) : (s.setRst x).spBad = s.spBad := rfl
@[simp] theorem State.setRst_poison (s : State) (x : Rst) : (s.setRst x).poison = s.poison := rfl
@[simp] theorem State.setRst_eps (s : State) (x : Rst) : (s.setRst x).eps = s.eps := rfl
@[simp] theorem State.setRst_cmdq (s : State) (x : Rst) : (s.setRst x).cmdq = s.cmdq := rfl
@[simp] theorem State.setRst_msis (s : State) (x : Rst) : (s.setRst x).msis = s.msis := rfl
@[simp] theorem State.setRst_i3c (s : State) (x : Rst) : (s.setRst x).i3c = s.i3c := rfl
@[simp] theorem State.setRst_ucie (s : State) (x : Rst) : (s.setRst x).ucie = s.ucie := rfl
@[simp] theorem State.setRst_nmcs (s : State) (x : Rst) : (s.setRst x).nmcs = s.nmcs := rfl
@[simp] theorem State.setRst_nm (s : State) (x : Rst) : (s.setRst x).nm = s.nm := rfl
@[simp] theorem State.setRst_cxls (s : State) (x : Rst) : (s.setRst x).cxls = s.cxls := rfl
@[simp] theorem State.setRst_router (s : State) (x : Rst) : (s.setRst x).router = s.router := rfl
@[simp] theorem State.setRst_chips (s : State) (x : Rst) : (s.setRst x).chips = s.chips := rfl
@[simp] theorem State.setRst_oed (s : State) (x : Rst) : (s.setRst x).oed = s.oed := rfl
@[simp] theorem State.setRst_sled (s : State) (x : Rst) : (s.setRst x).sled = s.sled := rfl
@[simp] theorem State.setRst_time (s : State) (x : Rst) : (s.setRst x).time = s.time := rfl
@[simp] theorem State.setRst_therms (s : State) (x : Rst) : (s.setRst x).therms = s.therms := rfl
@[simp] theorem State.setRst_power (s : State) (x : Rst) : (s.setRst x).power = s.power := rfl
@[simp] theorem State.setRst_ras (s : State) (x : Rst) : (s.setRst x).ras = s.ras := rfl
@[simp] theorem State.setRst_sec (s : State) (x : Rst) : (s.setRst x).sec = s.sec := rfl
@[simp] theorem State.setRst_fuses (s : State) (x : Rst) : (s.setRst x).fuses = s.fuses := rfl
@[simp] theorem State.setRst_flash (s : State) (x : Rst) : (s.setRst x).flash = s.flash := rfl
@[simp] theorem State.setRst_proc (s : State) (x : Rst) : (s.setRst x).proc = s.proc := rfl
@[simp] theorem State.setRst_jtag (s : State) (x : Rst) : (s.setRst x).jtag = s.jtag := rfl
@[simp] theorem State.setRst_hdrs (s : State) (x : Rst) : (s.setRst x).hdrs = s.hdrs := rfl
@[simp] theorem State.setRst_latches (s : State) (x : Rst) : (s.setRst x).latches = s.latches := rfl
@[simp] theorem State.setRst_staged (s : State) (x : Rst) : (s.setRst x).staged = s.staged := rfl
@[simp] theorem State.setRst_fresh (s : State) (x : Rst) : (s.setRst x).fresh = s.fresh := rfl
@[simp] theorem State.setRst_pending (s : State) (x : Rst) : (s.setRst x).pending = s.pending := rfl
@[simp] theorem State.setRst_floe (s : State) (x : Rst) (i : Nat) : (s.setRst x).floe i = s.floe i := rfl
@[simp] theorem State.setRst_part (s : State) (x : Rst) (i : Nat) : (s.setRst x).part i = s.part i := rfl
@[simp] theorem State.setRst_ep (s : State) (x : Rst) (i : Nat) : (s.setRst x).ep i = s.ep i := rfl
@[simp] theorem State.setRst_port (s : State) (x : Rst) (i : Nat) : (s.setRst x).port i = s.port i := rfl
@[simp] theorem State.setRst_chip (s : State) (x : Rst) (i : Nat) : (s.setRst x).chip i = s.chip i := rfl
@[simp] theorem State.setRst_oedPort (s : State) (x : Rst) (i : Nat) : (s.setRst x).oedPort i = s.oedPort i := rfl
@[simp] theorem State.setRst_therm (s : State) (x : Rst) (i : Nat) : (s.setRst x).therm i = s.therm i := rfl
@[simp] theorem State.setRst_mod (s : State) (x : Rst) (i : Nat) : (s.setRst x).mod i = s.mod i := rfl
@[simp] theorem State.setRst_nmc (s : State) (x : Rst) (i : Nat) : (s.setRst x).nmc i = s.nmc i := rfl
@[simp] theorem State.setRst_cxl (s : State) (x : Rst) (i : Nat) : (s.setRst x).cxl i = s.cxl i := rfl
@[simp] theorem State.setRst_hdr (s : State) (x : Rst) (i j : Nat) : (s.setRst x).hdr i j = s.hdr i j := rfl
@[simp] theorem State.setRst_now (s : State) (x : Rst) : (s.setRst x).now = s.now := rfl
@[simp] theorem State.setRst_lead (s : State) (x : Rst) : (s.setRst x).lead = s.lead := rfl
@[simp] theorem State.setRst_pokes (s : State) (x : Rst) (b : Nat) (l : List Byte) : (s.setRst x).poke b l = (s.poke b l).setRst x := rfl
@[simp] theorem State.setFlash_variant (s : State) (x : Flash) : (s.setFlash x).variant = s.variant := rfl
@[simp] theorem State.setFlash_straps (s : State) (x : Flash) : (s.setFlash x).straps = s.straps := rfl
@[simp] theorem State.setFlash_floes (s : State) (x : Flash) : (s.setFlash x).floes = s.floes := rfl
@[simp] theorem State.setFlash_signals (s : State) (x : Flash) : (s.setFlash x).signals = s.signals := rfl
@[simp] theorem State.setFlash_parts (s : State) (x : Flash) : (s.setFlash x).parts = s.parts := rfl
@[simp] theorem State.setFlash_rejects (s : State) (x : Flash) : (s.setFlash x).rejects = s.rejects := rfl
@[simp] theorem State.setFlash_steer (s : State) (x : Flash) : (s.setFlash x).steer = s.steer := rfl
@[simp] theorem State.setFlash_mem (s : State) (x : Flash) : (s.setFlash x).mem = s.mem := rfl
@[simp] theorem State.setFlash_spBad (s : State) (x : Flash) : (s.setFlash x).spBad = s.spBad := rfl
@[simp] theorem State.setFlash_poison (s : State) (x : Flash) : (s.setFlash x).poison = s.poison := rfl
@[simp] theorem State.setFlash_eps (s : State) (x : Flash) : (s.setFlash x).eps = s.eps := rfl
@[simp] theorem State.setFlash_cmdq (s : State) (x : Flash) : (s.setFlash x).cmdq = s.cmdq := rfl
@[simp] theorem State.setFlash_msis (s : State) (x : Flash) : (s.setFlash x).msis = s.msis := rfl
@[simp] theorem State.setFlash_i3c (s : State) (x : Flash) : (s.setFlash x).i3c = s.i3c := rfl
@[simp] theorem State.setFlash_ucie (s : State) (x : Flash) : (s.setFlash x).ucie = s.ucie := rfl
@[simp] theorem State.setFlash_nmcs (s : State) (x : Flash) : (s.setFlash x).nmcs = s.nmcs := rfl
@[simp] theorem State.setFlash_nm (s : State) (x : Flash) : (s.setFlash x).nm = s.nm := rfl
@[simp] theorem State.setFlash_cxls (s : State) (x : Flash) : (s.setFlash x).cxls = s.cxls := rfl
@[simp] theorem State.setFlash_router (s : State) (x : Flash) : (s.setFlash x).router = s.router := rfl
@[simp] theorem State.setFlash_chips (s : State) (x : Flash) : (s.setFlash x).chips = s.chips := rfl
@[simp] theorem State.setFlash_oed (s : State) (x : Flash) : (s.setFlash x).oed = s.oed := rfl
@[simp] theorem State.setFlash_sled (s : State) (x : Flash) : (s.setFlash x).sled = s.sled := rfl
@[simp] theorem State.setFlash_time (s : State) (x : Flash) : (s.setFlash x).time = s.time := rfl
@[simp] theorem State.setFlash_therms (s : State) (x : Flash) : (s.setFlash x).therms = s.therms := rfl
@[simp] theorem State.setFlash_power (s : State) (x : Flash) : (s.setFlash x).power = s.power := rfl
@[simp] theorem State.setFlash_rst (s : State) (x : Flash) : (s.setFlash x).rst = s.rst := rfl
@[simp] theorem State.setFlash_ras (s : State) (x : Flash) : (s.setFlash x).ras = s.ras := rfl
@[simp] theorem State.setFlash_sec (s : State) (x : Flash) : (s.setFlash x).sec = s.sec := rfl
@[simp] theorem State.setFlash_fuses (s : State) (x : Flash) : (s.setFlash x).fuses = s.fuses := rfl
@[simp] theorem State.setFlash_proc (s : State) (x : Flash) : (s.setFlash x).proc = s.proc := rfl
@[simp] theorem State.setFlash_jtag (s : State) (x : Flash) : (s.setFlash x).jtag = s.jtag := rfl
@[simp] theorem State.setFlash_hdrs (s : State) (x : Flash) : (s.setFlash x).hdrs = s.hdrs := rfl
@[simp] theorem State.setFlash_latches (s : State) (x : Flash) : (s.setFlash x).latches = s.latches := rfl
@[simp] theorem State.setFlash_staged (s : State) (x : Flash) : (s.setFlash x).staged = s.staged := rfl
@[simp] theorem State.setFlash_fresh (s : State) (x : Flash) : (s.setFlash x).fresh = s.fresh := rfl
@[simp] theorem State.setFlash_pending (s : State) (x : Flash) : (s.setFlash x).pending = s.pending := rfl
@[simp] theorem State.setFlash_floe (s : State) (x : Flash) (i : Nat) : (s.setFlash x).floe i = s.floe i := rfl
@[simp] theorem State.setFlash_part (s : State) (x : Flash) (i : Nat) : (s.setFlash x).part i = s.part i := rfl
@[simp] theorem State.setFlash_ep (s : State) (x : Flash) (i : Nat) : (s.setFlash x).ep i = s.ep i := rfl
@[simp] theorem State.setFlash_port (s : State) (x : Flash) (i : Nat) : (s.setFlash x).port i = s.port i := rfl
@[simp] theorem State.setFlash_chip (s : State) (x : Flash) (i : Nat) : (s.setFlash x).chip i = s.chip i := rfl
@[simp] theorem State.setFlash_oedPort (s : State) (x : Flash) (i : Nat) : (s.setFlash x).oedPort i = s.oedPort i := rfl
@[simp] theorem State.setFlash_therm (s : State) (x : Flash) (i : Nat) : (s.setFlash x).therm i = s.therm i := rfl
@[simp] theorem State.setFlash_mod (s : State) (x : Flash) (i : Nat) : (s.setFlash x).mod i = s.mod i := rfl
@[simp] theorem State.setFlash_nmc (s : State) (x : Flash) (i : Nat) : (s.setFlash x).nmc i = s.nmc i := rfl
@[simp] theorem State.setFlash_cxl (s : State) (x : Flash) (i : Nat) : (s.setFlash x).cxl i = s.cxl i := rfl
@[simp] theorem State.setFlash_hdr (s : State) (x : Flash) (i j : Nat) : (s.setFlash x).hdr i j = s.hdr i j := rfl
@[simp] theorem State.setFlash_now (s : State) (x : Flash) : (s.setFlash x).now = s.now := rfl
@[simp] theorem State.setFlash_lead (s : State) (x : Flash) : (s.setFlash x).lead = s.lead := rfl
@[simp] theorem State.setFlash_pokes (s : State) (x : Flash) (b : Nat) (l : List Byte) : (s.setFlash x).poke b l = (s.poke b l).setFlash x := rfl
@[simp] theorem State.floe_setFloe (s : State) (i : Nat) (x : Floe) : (s.setFloe i x).floe i = x := Tbl.get_put_same _ _ _ _
theorem State.floe_setFloe_ne (s : State) {i j : Nat} (x : Floe) (h : j ≠ i) : (s.setFloe i x).floe j = s.floe j := Tbl.get_put_ne _ _ _ h
@[simp] theorem State.part_setPart (s : State) (i : Nat) (x : Part) : (s.setPart i x).part i = x := Tbl.get_put_same _ _ _ _
theorem State.part_setPart_ne (s : State) {i j : Nat} (x : Part) (h : j ≠ i) : (s.setPart i x).part j = s.part j := Tbl.get_put_ne _ _ _ h
@[simp] theorem State.ep_setEp (s : State) (i : Nat) (x : Endpoint) : (s.setEp i x).ep i = x := Tbl.get_put_same _ _ _ _
theorem State.ep_setEp_ne (s : State) {i j : Nat} (x : Endpoint) (h : j ≠ i) : (s.setEp i x).ep j = s.ep j := Tbl.get_put_ne _ _ _ h
@[simp] theorem State.port_setPort (s : State) (i : Nat) (x : Port) : (s.setPort i x).port i = x := Tbl.get_put_same _ _ _ _
theorem State.port_setPort_ne (s : State) {i j : Nat} (x : Port) (h : j ≠ i) : (s.setPort i x).port j = s.port j := Tbl.get_put_ne _ _ _ h
@[simp] theorem State.chip_setChip (s : State) (i : Nat) (x : Chip) : (s.setChip i x).chip i = x := Tbl.get_put_same _ _ _ _
theorem State.chip_setChip_ne (s : State) {i j : Nat} (x : Chip) (h : j ≠ i) : (s.setChip i x).chip j = s.chip j := Tbl.get_put_ne _ _ _ h
@[simp] theorem State.oedPort_setOedPort (s : State) (i : Nat) (x : OedPort) : (s.setOedPort i x).oedPort i = x := Tbl.get_put_same _ _ _ _
theorem State.oedPort_setOedPort_ne (s : State) {i j : Nat} (x : OedPort) (h : j ≠ i) : (s.setOedPort i x).oedPort j = s.oedPort j := Tbl.get_put_ne _ _ _ h
@[simp] theorem State.therm_setTherm (s : State) (i : Nat) (x : Therm) : (s.setTherm i x).therm i = x := Tbl.get_put_same _ _ _ _
theorem State.therm_setTherm_ne (s : State) {i j : Nat} (x : Therm) (h : j ≠ i) : (s.setTherm i x).therm j = s.therm j := Tbl.get_put_ne _ _ _ h
@[simp] theorem State.mod_setMod (s : State) (i : Nat) (x : Ucie) : (s.setMod i x).mod i = x := Tbl.get_put_same _ _ _ _
theorem State.mod_setMod_ne (s : State) {i j : Nat} (x : Ucie) (h : j ≠ i) : (s.setMod i x).mod j = s.mod j := Tbl.get_put_ne _ _ _ h
@[simp] theorem State.nmc_setNmc (s : State) (i : Nat) (x : Nmc) : (s.setNmc i x).nmc i = x := Tbl.get_put_same _ _ _ _
theorem State.nmc_setNmc_ne (s : State) {i j : Nat} (x : Nmc) (h : j ≠ i) : (s.setNmc i x).nmc j = s.nmc j := Tbl.get_put_ne _ _ _ h
@[simp] theorem State.cxl_setCxl (s : State) (i : Nat) (x : Cxl) : (s.setCxl i x).cxl i = x := Tbl.get_put_same _ _ _ _
theorem State.cxl_setCxl_ne (s : State) {i j : Nat} (x : Cxl) (h : j ≠ i) : (s.setCxl i x).cxl j = s.cxl j := Tbl.get_put_ne _ _ _ h
@[simp] theorem State.hdr_setHdr (s : State) (d p : Nat) (x : Header) : (s.setHdr d p x).hdr d p = x := Tbl.get_put_same _ _ _ _
theorem State.hdr_setHdr_ne (s : State) {d p d' p' : Nat} (x : Header) (h : hdrKey d' p' ≠ hdrKey d p) :
    (s.setHdr d p x).hdr d' p' = s.hdr d' p' := Tbl.get_put_ne _ _ _ h
@[simp] theorem State.setStream_stream (s : State) (f : Nat) (st : Stream) (y : StreamSt) : (s.setStream f st y).stream f st = y := by
  cases st <;> simp [State.setStream, State.stream, Floe.setStream, Floe.stream]
@[simp] theorem State.setFloe_floes (s : State) (f : Nat) (x : Floe) : (s.setFloe f x).floes = s.floes.put f x := rfl
@[simp] theorem State.setPart_parts (s : State) (p : Nat) (x : Part) : (s.setPart p x).parts = s.parts.put p x := rfl
@[simp] theorem State.setEp_eps (s : State) (e : Nat) (x : Endpoint) : (s.setEp e x).eps = s.eps.put e x := rfl
@[simp] theorem State.setRouter_router (s : State) (r : Router) : (s.setRouter r).router = r := rfl
@[simp] theorem State.setSec_sec (s : State) (x : Sec) : (s.setSec x).sec = x := rfl
@[simp] theorem State.setRas_ras (s : State) (x : Ras) : (s.setRas x).ras = x := rfl
@[simp] theorem State.setRst_rst (s : State) (x : Rst) : (s.setRst x).rst = x := rfl
@[simp] theorem State.setFlash_flash (s : State) (x : Flash) : (s.setFlash x).flash = x := rfl

end Sys2Proof.Machine
end

