-- ==== Sys2Proof/Laws/Touch.lean ====
section
/-! SUPPORT. What an operation may touch: a mask with one bit for each field of State, and the relation between the state before and after that every operation's law states; with it, memory keeps its canonical form and fuses are only ever blown. -/

namespace Sys2Proof.Machine

set_option linter.all false

/-- Fuses are only ever blown (spec/13 R462, R467, spec/14 R480): counters rise, DEBUG_LOCKED stays, a revoked key stays revoked, remap records stay. -/
structure FuseLe (a b : Fuses) : Prop where
  owner : a.ownerUsed ≤ b.ownerUsed
  roll : ∀ c, Tbl.get 0 a.rollback c ≤ Tbl.get 0 b.rollback c
  debug : a.debugLocked = true → b.debugLocked = true
  keys : ∀ n, b.fwKeyValid.getLsbD n = true → a.fwKeyValid.getLsbD n = true
  rec0 : a.rec0 <+: b.rec0
  rec1 : a.rec1 <+: b.rec1
theorem FuseLe.refl (a : Fuses) : FuseLe a a :=
  ⟨Nat.le_refl _, fun _ => Nat.le_refl _, id, fun _ => id, List.prefix_refl _, List.prefix_refl _⟩
theorem FuseLe.trans {a b c : Fuses} (h : FuseLe a b) (k : FuseLe b c) : FuseLe a c :=
  ⟨Nat.le_trans h.owner k.owner, fun n => Nat.le_trans (h.roll n) (k.roll n), fun x => k.debug (h.debug x),
    fun n x => h.keys n (k.keys n x), h.rec0.trans k.rec0, h.rec1.trans k.rec1⟩

theorem FuseLe.ofOwner (a : Fuses) (n : Nat) : FuseLe a { a with ownerUsed := a.ownerUsed + n } :=
  ⟨Nat.le_add_right _ _, fun _ => Nat.le_refl _, id, fun _ => id, List.prefix_refl _, List.prefix_refl _⟩
theorem FuseLe.ofRoll (a : Fuses) (c v : Nat) : FuseLe a { a with rollback := a.rollback.put c (max v (Tbl.get 0 a.rollback c)) } := by
  refine ⟨Nat.le_refl _, fun n => ?_, id, fun _ => id, List.prefix_refl _, List.prefix_refl _⟩
  simp only [Tbl.get_put]
  split
  · subst_vars; exact Nat.le_max_right _ _
  · exact Nat.le_refl _
theorem FuseLe.ofLock (a : Fuses) : FuseLe a { a with debugLocked := true } :=
  ⟨Nat.le_refl _, fun _ => Nat.le_refl _, fun _ => rfl, fun _ => id, List.prefix_refl _, List.prefix_refl _⟩
theorem FuseLe.ofRevoke (a : Fuses) (n : Nat) : FuseLe a { a with fwKeyValid := setBit a.fwKeyValid n false } := by
  refine ⟨Nat.le_refl _, fun _ => Nat.le_refl _, id, fun i h => ?_, List.prefix_refl _, List.prefix_refl _⟩
  simp only [setBit, Bool.false_eq_true, if_false, BitVec.getLsbD_and, Bool.and_eq_true] at h
  exact h.1
theorem FuseLe.ofRec0 (a : Fuses) (r : List (Nat × Nat)) : FuseLe a { a with rec0 := a.rec0 ++ r } :=
  ⟨Nat.le_refl _, fun _ => Nat.le_refl _, id, fun _ => id, List.prefix_append _ _, List.prefix_refl _⟩
theorem FuseLe.ofRec1 (a : Fuses) (r : List (Nat × Nat)) : FuseLe a { a with rec1 := a.rec1 ++ r } :=
  ⟨Nat.le_refl _, fun _ => Nat.le_refl _, id, fun _ => id, List.prefix_refl _, List.prefix_append _ _⟩

/-- Mask a lies inside mask m. -/
def Sub (a m : Nat) : Prop := a &&& m = a
theorem Sub.refl (a : Nat) : Sub a a := Nat.and_self a
theorem Sub.of {a b m : Nat} (h : Sub b m) (k : a &&& b = a) : Sub a m := by
  unfold Sub at *; rw [← k, Nat.and_assoc, h]
theorem Sub.not {a m i : Nat} (h : Sub a m) (k : a.testBit i = true) (e : m.testBit i = false) : False := by
  rw [← h, Nat.testBit_and, e, Bool.and_false] at k; cases k

/-- From s to t only the fields in the mask m may differ (bit i is field i of State in its order); memory keeps its canonical form, and fuses are only ever blown. -/
structure Touch (m : Nat) (s t : State) : Prop where
  variant : m.testBit 0 = false → t.variant = s.variant
  straps : m.testBit 1 = false → t.straps = s.straps
  floes : m.testBit 2 = false → t.floes = s.floes
  signals : m.testBit 3 = false → t.signals = s.signals
  parts : m.testBit 4 = false → t.parts = s.parts
  rejects : m.testBit 5 = false → t.rejects = s.rejects
  steer : m.testBit 6 = false → t.steer = s.steer
  mem : m.testBit 7 = false → t.mem = s.mem
  spBad : m.testBit 8 = false → t.spBad = s.spBad
  poison : m.testBit 9 = false → t.poison = s.poison
  eps : m.testBit 10 = false → t.eps = s.eps
  cmdq : m.testBit 11 = false → t.cmdq = s.cmdq
  msis : m.testBit 12 = false → t.msis = s.msis
  i3c : m.testBit 13 = false → t.i3c = s.i3c
  ucie : m.testBit 14 = false → t.ucie = s.ucie
  nmcs : m.testBit 15 = false → t.nmcs = s.nmcs
  nm : m.testBit 16 = false → t.nm = s.nm
  cxls : m.testBit 17 = false → t.cxls = s.cxls
  router : m.testBit 18 = false → t.router = s.router
  chips : m.testBit 19 = false → t.chips = s.chips
  oed : m.testBit 20 = false → t.oed = s.oed
  sled : m.testBit 21 = false → t.sled = s.sled
  time : m.testBit 22 = false → t.time = s.time
  therms : m.testBit 23 = false → t.therms = s.therms
  power : m.testBit 24 = false → t.power = s.power
  rst : m.testBit 25 = false → t.rst = s.rst
  ras : m.testBit 26 = false → t.ras = s.ras
  sec : m.testBit 27 = false → t.sec = s.sec
  fuses : m.testBit 28 = false → t.fuses = s.fuses
  flash : m.testBit 29 = false → t.flash = s.flash
  proc : m.testBit 30 = false → t.proc = s.proc
  jtag : m.testBit 31 = false → t.jtag = s.jtag
  hdrs : m.testBit 32 = false → t.hdrs = s.hdrs
  latches : m.testBit 33 = false → t.latches = s.latches
  staged : m.testBit 34 = false → t.staged = s.staged
  fresh : m.testBit 35 = false → t.fresh = s.fresh
  pending : m.testBit 36 = false → t.pending = s.pending
  wf : Memory.wf s.mem = true → Memory.wf t.mem = true
  fuseLe : FuseLe s.fuses t.fuses
theorem Touch.refl (m : Nat) (s : State) : Touch m s s :=
  ⟨fun _ => rfl, fun _ => rfl, fun _ => rfl, fun _ => rfl, fun _ => rfl, fun _ => rfl, fun _ => rfl, fun _ => rfl, fun _ => rfl, fun _ => rfl, fun _ => rfl, fun _ => rfl, fun _ => rfl, fun _ => rfl, fun _ => rfl, fun _ => rfl, fun _ => rfl, fun _ => rfl, fun _ => rfl, fun _ => rfl, fun _ => rfl, fun _ => rfl, fun _ => rfl, fun _ => rfl, fun _ => rfl, fun _ => rfl, fun _ => rfl, fun _ => rfl, fun _ => rfl, fun _ => rfl, fun _ => rfl, fun _ => rfl, fun _ => rfl, fun _ => rfl, fun _ => rfl, fun _ => rfl, fun _ => rfl, id, .refl _⟩
theorem Touch.trans {m : Nat} {a b c : State} (h : Touch m a b) (k : Touch m b c) : Touch m a c :=
  ⟨fun e => (k.variant e).trans (h.variant e),
    fun e => (k.straps e).trans (h.straps e),
    fun e => (k.floes e).trans (h.floes e),
    fun e => (k.signals e).trans (h.signals e),
    fun e => (k.parts e).trans (h.parts e),
    fun e => (k.rejects e).trans (h.rejects e),
    fun e => (k.steer e).trans (h.steer e),
    fun e => (k.mem e).trans (h.mem e),
    fun e => (k.spBad e).trans (h.spBad e),
    fun e => (k.poison e).trans (h.poison e),
    fun e => (k.eps e).trans (h.eps e),
    fun e => (k.cmdq e).trans (h.cmdq e),
    fun e => (k.msis e).trans (h.msis e),
    fun e => (k.i3c e).trans (h.i3c e),
    fun e => (k.ucie e).trans (h.ucie e),
    fun e => (k.nmcs e).trans (h.nmcs e),
    fun e => (k.nm e).trans (h.nm e),
    fun e => (k.cxls e).trans (h.cxls e),
    fun e => (k.router e).trans (h.router e),
    fun e => (k.chips e).trans (h.chips e),
    fun e => (k.oed e).trans (h.oed e),
    fun e => (k.sled e).trans (h.sled e),
    fun e => (k.time e).trans (h.time e),
    fun e => (k.therms e).trans (h.therms e),
    fun e => (k.power e).trans (h.power e),
    fun e => (k.rst e).trans (h.rst e),
    fun e => (k.ras e).trans (h.ras e),
    fun e => (k.sec e).trans (h.sec e),
    fun e => (k.fuses e).trans (h.fuses e),
    fun e => (k.flash e).trans (h.flash e),
    fun e => (k.proc e).trans (h.proc e),
    fun e => (k.jtag e).trans (h.jtag e),
    fun e => (k.hdrs e).trans (h.hdrs e),
    fun e => (k.latches e).trans (h.latches e),
    fun e => (k.staged e).trans (h.staged e),
    fun e => (k.fresh e).trans (h.fresh e),
    fun e => (k.pending e).trans (h.pending e), fun e => k.wf (h.wf e), h.fuseLe.trans k.fuseLe⟩
theorem Touch.upd_floesI {m : Nat} (hm : Sub 0x4 m) {s0 s : State} {floes : Tbl Floe} : Touch m s0 { s with floes := floes } ↔ Touch m s0 s :=
  ⟨fun h => ⟨h.variant, h.straps, fun e => (hm.not rfl e).elim, h.signals, h.parts, h.rejects, h.steer, h.mem, h.spBad, h.poison, h.eps, h.cmdq, h.msis, h.i3c, h.ucie, h.nmcs, h.nm, h.cxls, h.router, h.chips, h.oed, h.sled, h.time, h.therms, h.power, h.rst, h.ras, h.sec, h.fuses, h.flash, h.proc, h.jtag, h.hdrs, h.latches, h.staged, h.fresh, h.pending, h.wf, h.fuseLe⟩,
    fun h => ⟨h.variant, h.straps, fun e => (hm.not rfl e).elim, h.signals, h.parts, h.rejects, h.steer, h.mem, h.spBad, h.poison, h.eps, h.cmdq, h.msis, h.i3c, h.ucie, h.nmcs, h.nm, h.cxls, h.router, h.chips, h.oed, h.sled, h.time, h.therms, h.power, h.rst, h.ras, h.sec, h.fuses, h.flash, h.proc, h.jtag, h.hdrs, h.latches, h.staged, h.fresh, h.pending, h.wf, h.fuseLe⟩⟩
theorem Touch.upd_floes {m : Nat} (hm : Sub 0x4 m) {s0 s : State} {floes : Tbl Floe} (h : Touch m s0 s) : Touch m s0 { s with floes := floes } := (Touch.upd_floesI hm).mpr h
theorem Touch.upd_signalsI {m : Nat} (hm : Sub 0x8 m) {s0 s : State} {signals : List Signal} : Touch m s0 { s with signals := signals } ↔ Touch m s0 s :=
  ⟨fun h => ⟨h.variant, h.straps, h.floes, fun e => (hm.not rfl e).elim, h.parts, h.rejects, h.steer, h.mem, h.spBad, h.poison, h.eps, h.cmdq, h.msis, h.i3c, h.ucie, h.nmcs, h.nm, h.cxls, h.router, h.chips, h.oed, h.sled, h.time, h.therms, h.power, h.rst, h.ras, h.sec, h.fuses, h.flash, h.proc, h.jtag, h.hdrs, h.latches, h.staged, h.fresh, h.pending, h.wf, h.fuseLe⟩,
    fun h => ⟨h.variant, h.straps, h.floes, fun e => (hm.not rfl e).elim, h.parts, h.rejects, h.steer, h.mem, h.spBad, h.poison, h.eps, h.cmdq, h.msis, h.i3c, h.ucie, h.nmcs, h.nm, h.cxls, h.router, h.chips, h.oed, h.sled, h.time, h.therms, h.power, h.rst, h.ras, h.sec, h.fuses, h.flash, h.proc, h.jtag, h.hdrs, h.latches, h.staged, h.fresh, h.pending, h.wf, h.fuseLe⟩⟩
theorem Touch.upd_signals {m : Nat} (hm : Sub 0x8 m) {s0 s : State} {signals : List Signal} (h : Touch m s0 s) : Touch m s0 { s with signals := signals } := (Touch.upd_signalsI hm).mpr h
theorem Touch.upd_partsI {m : Nat} (hm : Sub 0x10 m) {s0 s : State} {parts : Tbl Part} : Touch m s0 { s with parts := parts } ↔ Touch m s0 s :=
  ⟨fun h => ⟨h.variant, h.straps, h.floes, h.signals, fun e => (hm.not rfl e).elim, h.rejects, h.steer, h.mem, h.spBad, h.poison, h.eps, h.cmdq, h.msis, h.i3c, h.ucie, h.nmcs, h.nm, h.cxls, h.router, h.chips, h.oed, h.sled, h.time, h.therms, h.power, h.rst, h.ras, h.sec, h.fuses, h.flash, h.proc, h.jtag, h.hdrs, h.latches, h.staged, h.fresh, h.pending, h.wf, h.fuseLe⟩,
    fun h => ⟨h.variant, h.straps, h.floes, h.signals, fun e => (hm.not rfl e).elim, h.rejects, h.steer, h.mem, h.spBad, h.poison, h.eps, h.cmdq, h.msis, h.i3c, h.ucie, h.nmcs, h.nm, h.cxls, h.router, h.chips, h.oed, h.sled, h.time, h.therms, h.power, h.rst, h.ras, h.sec, h.fuses, h.flash, h.proc, h.jtag, h.hdrs, h.latches, h.staged, h.fresh, h.pending, h.wf, h.fuseLe⟩⟩
theorem Touch.upd_parts {m : Nat} (hm : Sub 0x10 m) {s0 s : State} {parts : Tbl Part} (h : Touch m s0 s) : Touch m s0 { s with parts := parts } := (Touch.upd_partsI hm).mpr h
theorem Touch.upd_rejectsI {m : Nat} (hm : Sub 0x20 m) {s0 s : State} {rejects : Tbl DWord} : Touch m s0 { s with rejects := rejects } ↔ Touch m s0 s :=
  ⟨fun h => ⟨h.variant, h.straps, h.floes, h.signals, h.parts, fun e => (hm.not rfl e).elim, h.steer, h.mem, h.spBad, h.poison, h.eps, h.cmdq, h.msis, h.i3c, h.ucie, h.nmcs, h.nm, h.cxls, h.router, h.chips, h.oed, h.sled, h.time, h.therms, h.power, h.rst, h.ras, h.sec, h.fuses, h.flash, h.proc, h.jtag, h.hdrs, h.latches, h.staged, h.fresh, h.pending, h.wf, h.fuseLe⟩,
    fun h => ⟨h.variant, h.straps, h.floes, h.signals, h.parts, fun e => (hm.not rfl e).elim, h.steer, h.mem, h.spBad, h.poison, h.eps, h.cmdq, h.msis, h.i3c, h.ucie, h.nmcs, h.nm, h.cxls, h.router, h.chips, h.oed, h.sled, h.time, h.therms, h.power, h.rst, h.ras, h.sec, h.fuses, h.flash, h.proc, h.jtag, h.hdrs, h.latches, h.staged, h.fresh, h.pending, h.wf, h.fuseLe⟩⟩
theorem Touch.upd_rejects {m : Nat} (hm : Sub 0x20 m) {s0 s : State} {rejects : Tbl DWord} (h : Touch m s0 s) : Touch m s0 { s with rejects := rejects } := (Touch.upd_rejectsI hm).mpr h
theorem Touch.upd_steerI {m : Nat} (hm : Sub 0x40 m) {s0 s : State} {steer : Option Nat} : Touch m s0 { s with steer := steer } ↔ Touch m s0 s :=
  ⟨fun h => ⟨h.variant, h.straps, h.floes, h.signals, h.parts, h.rejects, fun e => (hm.not rfl e).elim, h.mem, h.spBad, h.poison, h.eps, h.cmdq, h.msis, h.i3c, h.ucie, h.nmcs, h.nm, h.cxls, h.router, h.chips, h.oed, h.sled, h.time, h.therms, h.power, h.rst, h.ras, h.sec, h.fuses, h.flash, h.proc, h.jtag, h.hdrs, h.latches, h.staged, h.fresh, h.pending, h.wf, h.fuseLe⟩,
    fun h => ⟨h.variant, h.straps, h.floes, h.signals, h.parts, h.rejects, fun e => (hm.not rfl e).elim, h.mem, h.spBad, h.poison, h.eps, h.cmdq, h.msis, h.i3c, h.ucie, h.nmcs, h.nm, h.cxls, h.router, h.chips, h.oed, h.sled, h.time, h.therms, h.power, h.rst, h.ras, h.sec, h.fuses, h.flash, h.proc, h.jtag, h.hdrs, h.latches, h.staged, h.fresh, h.pending, h.wf, h.fuseLe⟩⟩
theorem Touch.upd_steer {m : Nat} (hm : Sub 0x40 m) {s0 s : State} {steer : Option Nat} (h : Touch m s0 s) : Touch m s0 { s with steer := steer } := (Touch.upd_steerI hm).mpr h
theorem Touch.upd_mem {m : Nat} (hm : Sub 0x80 m) {s0 s : State} {mem : List Host.Cell} (k : Memory.wf s.mem = true → Memory.wf mem = true) (h : Touch m s0 s) : Touch m s0 { s with mem := mem } :=
  ⟨h.variant, h.straps, h.floes, h.signals, h.parts, h.rejects, h.steer, fun e => (hm.not rfl e).elim, h.spBad, h.poison, h.eps, h.cmdq, h.msis, h.i3c, h.ucie, h.nmcs, h.nm, h.cxls, h.router, h.chips, h.oed, h.sled, h.time, h.therms, h.power, h.rst, h.ras, h.sec, h.fuses, h.flash, h.proc, h.jtag, h.hdrs, h.latches, h.staged, h.fresh, h.pending, fun e => k (h.wf e), h.fuseLe⟩
theorem Touch.upd_spBadI {m : Nat} (hm : Sub 0x100 m) {s0 s : State} {spBad : List Nat} : Touch m s0 { s with spBad := spBad } ↔ Touch m s0 s :=
  ⟨fun h => ⟨h.variant, h.straps, h.floes, h.signals, h.parts, h.rejects, h.steer, h.mem, fun e => (hm.not rfl e).elim, h.poison, h.eps, h.cmdq, h.msis, h.i3c, h.ucie, h.nmcs, h.nm, h.cxls, h.router, h.chips, h.oed, h.sled, h.time, h.therms, h.power, h.rst, h.ras, h.sec, h.fuses, h.flash, h.proc, h.jtag, h.hdrs, h.latches, h.staged, h.fresh, h.pending, h.wf, h.fuseLe⟩,
    fun h => ⟨h.variant, h.straps, h.floes, h.signals, h.parts, h.rejects, h.steer, h.mem, fun e => (hm.not rfl e).elim, h.poison, h.eps, h.cmdq, h.msis, h.i3c, h.ucie, h.nmcs, h.nm, h.cxls, h.router, h.chips, h.oed, h.sled, h.time, h.therms, h.power, h.rst, h.ras, h.sec, h.fuses, h.flash, h.proc, h.jtag, h.hdrs, h.latches, h.staged, h.fresh, h.pending, h.wf, h.fuseLe⟩⟩
theorem Touch.upd_spBad {m : Nat} (hm : Sub 0x100 m) {s0 s : State} {spBad : List Nat} (h : Touch m s0 s) : Touch m s0 { s with spBad := spBad } := (Touch.upd_spBadI hm).mpr h
theorem Touch.upd_poisonI {m : Nat} (hm : Sub 0x200 m) {s0 s : State} {poison : List (Nat × Nat)} : Touch m s0 { s with poison := poison } ↔ Touch m s0 s :=
  ⟨fun h => ⟨h.variant, h.straps, h.floes, h.signals, h.parts, h.rejects, h.steer, h.mem, h.spBad, fun e => (hm.not rfl e).elim, h.eps, h.cmdq, h.msis, h.i3c, h.ucie, h.nmcs, h.nm, h.cxls, h.router, h.chips, h.oed, h.sled, h.time, h.therms, h.power, h.rst, h.ras, h.sec, h.fuses, h.flash, h.proc, h.jtag, h.hdrs, h.latches, h.staged, h.fresh, h.pending, h.wf, h.fuseLe⟩,
    fun h => ⟨h.variant, h.straps, h.floes, h.signals, h.parts, h.rejects, h.steer, h.mem, h.spBad, fun e => (hm.not rfl e).elim, h.eps, h.cmdq, h.msis, h.i3c, h.ucie, h.nmcs, h.nm, h.cxls, h.router, h.chips, h.oed, h.sled, h.time, h.therms, h.power, h.rst, h.ras, h.sec, h.fuses, h.flash, h.proc, h.jtag, h.hdrs, h.latches, h.staged, h.fresh, h.pending, h.wf, h.fuseLe⟩⟩
theorem Touch.upd_poison {m : Nat} (hm : Sub 0x200 m) {s0 s : State} {poison : List (Nat × Nat)} (h : Touch m s0 s) : Touch m s0 { s with poison := poison } := (Touch.upd_poisonI hm).mpr h
theorem Touch.upd_epsI {m : Nat} (hm : Sub 0x400 m) {s0 s : State} {eps : Tbl Endpoint} : Touch m s0 { s with eps := eps } ↔ Touch m s0 s :=
  ⟨fun h => ⟨h.variant, h.straps, h.floes, h.signals, h.parts, h.rejects, h.steer, h.mem, h.spBad, h.poison, fun e => (hm.not rfl e).elim, h.cmdq, h.msis, h.i3c, h.ucie, h.nmcs, h.nm, h.cxls, h.router, h.chips, h.oed, h.sled, h.time, h.therms, h.power, h.rst, h.ras, h.sec, h.fuses, h.flash, h.proc, h.jtag, h.hdrs, h.latches, h.staged, h.fresh, h.pending, h.wf, h.fuseLe⟩,
    fun h => ⟨h.variant, h.straps, h.floes, h.signals, h.parts, h.rejects, h.steer, h.mem, h.spBad, h.poison, fun e => (hm.not rfl e).elim, h.cmdq, h.msis, h.i3c, h.ucie, h.nmcs, h.nm, h.cxls, h.router, h.chips, h.oed, h.sled, h.time, h.therms, h.power, h.rst, h.ras, h.sec, h.fuses, h.flash, h.proc, h.jtag, h.hdrs, h.latches, h.staged, h.fresh, h.pending, h.wf, h.fuseLe⟩⟩
theorem Touch.upd_eps {m : Nat} (hm : Sub 0x400 m) {s0 s : State} {eps : Tbl Endpoint} (h : Touch m s0 s) : Touch m s0 { s with eps := eps } := (Touch.upd_epsI hm).mpr h
theorem Touch.upd_cmdqI {m : Nat} (hm : Sub 0x800 m) {s0 s : State} {cmdq : List GwyPkt} : Touch m s0 { s with cmdq := cmdq } ↔ Touch m s0 s :=
  ⟨fun h => ⟨h.variant, h.straps, h.floes, h.signals, h.parts, h.rejects, h.steer, h.mem, h.spBad, h.poison, h.eps, fun e => (hm.not rfl e).elim, h.msis, h.i3c, h.ucie, h.nmcs, h.nm, h.cxls, h.router, h.chips, h.oed, h.sled, h.time, h.therms, h.power, h.rst, h.ras, h.sec, h.fuses, h.flash, h.proc, h.jtag, h.hdrs, h.latches, h.staged, h.fresh, h.pending, h.wf, h.fuseLe⟩,
    fun h => ⟨h.variant, h.straps, h.floes, h.signals, h.parts, h.rejects, h.steer, h.mem, h.spBad, h.poison, h.eps, fun e => (hm.not rfl e).elim, h.msis, h.i3c, h.ucie, h.nmcs, h.nm, h.cxls, h.router, h.chips, h.oed, h.sled, h.time, h.therms, h.power, h.rst, h.ras, h.sec, h.fuses, h.flash, h.proc, h.jtag, h.hdrs, h.latches, h.staged, h.fresh, h.pending, h.wf, h.fuseLe⟩⟩
theorem Touch.upd_cmdq {m : Nat} (hm : Sub 0x800 m) {s0 s : State} {cmdq : List GwyPkt} (h : Touch m s0 s) : Touch m s0 { s with cmdq := cmdq } := (Touch.upd_cmdqI hm).mpr h
theorem Touch.upd_i3cI {m : Nat} (hm : Sub 0x2000 m) {s0 s : State} {i3c : I3c} : Touch m s0 { s with i3c := i3c } ↔ Touch m s0 s :=
  ⟨fun h => ⟨h.variant, h.straps, h.floes, h.signals, h.parts, h.rejects, h.steer, h.mem, h.spBad, h.poison, h.eps, h.cmdq, h.msis, fun e => (hm.not rfl e).elim, h.ucie, h.nmcs, h.nm, h.cxls, h.router, h.chips, h.oed, h.sled, h.time, h.therms, h.power, h.rst, h.ras, h.sec, h.fuses, h.flash, h.proc, h.jtag, h.hdrs, h.latches, h.staged, h.fresh, h.pending, h.wf, h.fuseLe⟩,
    fun h => ⟨h.variant, h.straps, h.floes, h.signals, h.parts, h.rejects, h.steer, h.mem, h.spBad, h.poison, h.eps, h.cmdq, h.msis, fun e => (hm.not rfl e).elim, h.ucie, h.nmcs, h.nm, h.cxls, h.router, h.chips, h.oed, h.sled, h.time, h.therms, h.power, h.rst, h.ras, h.sec, h.fuses, h.flash, h.proc, h.jtag, h.hdrs, h.latches, h.staged, h.fresh, h.pending, h.wf, h.fuseLe⟩⟩
theorem Touch.upd_i3c {m : Nat} (hm : Sub 0x2000 m) {s0 s : State} {i3c : I3c} (h : Touch m s0 s) : Touch m s0 { s with i3c := i3c } := (Touch.upd_i3cI hm).mpr h
theorem Touch.upd_ucieI {m : Nat} (hm : Sub 0x4000 m) {s0 s : State} {ucie : Tbl Ucie} : Touch m s0 { s with ucie := ucie } ↔ Touch m s0 s :=
  ⟨fun h => ⟨h.variant, h.straps, h.floes, h.signals, h.parts, h.rejects, h.steer, h.mem, h.spBad, h.poison, h.eps, h.cmdq, h.msis, h.i3c, fun e => (hm.not rfl e).elim, h.nmcs, h.nm, h.cxls, h.router, h.chips, h.oed, h.sled, h.time, h.therms, h.power, h.rst, h.ras, h.sec, h.fuses, h.flash, h.proc, h.jtag, h.hdrs, h.latches, h.staged, h.fresh, h.pending, h.wf, h.fuseLe⟩,
    fun h => ⟨h.variant, h.straps, h.floes, h.signals, h.parts, h.rejects, h.steer, h.mem, h.spBad, h.poison, h.eps, h.cmdq, h.msis, h.i3c, fun e => (hm.not rfl e).elim, h.nmcs, h.nm, h.cxls, h.router, h.chips, h.oed, h.sled, h.time, h.therms, h.power, h.rst, h.ras, h.sec, h.fuses, h.flash, h.proc, h.jtag, h.hdrs, h.latches, h.staged, h.fresh, h.pending, h.wf, h.fuseLe⟩⟩
theorem Touch.upd_ucie {m : Nat} (hm : Sub 0x4000 m) {s0 s : State} {ucie : Tbl Ucie} (h : Touch m s0 s) : Touch m s0 { s with ucie := ucie } := (Touch.upd_ucieI hm).mpr h
theorem Touch.upd_nmcsI {m : Nat} (hm : Sub 0x8000 m) {s0 s : State} {nmcs : Tbl Nmc} : Touch m s0 { s with nmcs := nmcs } ↔ Touch m s0 s :=
  ⟨fun h => ⟨h.variant, h.straps, h.floes, h.signals, h.parts, h.rejects, h.steer, h.mem, h.spBad, h.poison, h.eps, h.cmdq, h.msis, h.i3c, h.ucie, fun e => (hm.not rfl e).elim, h.nm, h.cxls, h.router, h.chips, h.oed, h.sled, h.time, h.therms, h.power, h.rst, h.ras, h.sec, h.fuses, h.flash, h.proc, h.jtag, h.hdrs, h.latches, h.staged, h.fresh, h.pending, h.wf, h.fuseLe⟩,
    fun h => ⟨h.variant, h.straps, h.floes, h.signals, h.parts, h.rejects, h.steer, h.mem, h.spBad, h.poison, h.eps, h.cmdq, h.msis, h.i3c, h.ucie, fun e => (hm.not rfl e).elim, h.nm, h.cxls, h.router, h.chips, h.oed, h.sled, h.time, h.therms, h.power, h.rst, h.ras, h.sec, h.fuses, h.flash, h.proc, h.jtag, h.hdrs, h.latches, h.staged, h.fresh, h.pending, h.wf, h.fuseLe⟩⟩
theorem Touch.upd_nmcs {m : Nat} (hm : Sub 0x8000 m) {s0 s : State} {nmcs : Tbl Nmc} (h : Touch m s0 s) : Touch m s0 { s with nmcs := nmcs } := (Touch.upd_nmcsI hm).mpr h
theorem Touch.upd_nmI {m : Nat} (hm : Sub 0x10000 m) {s0 s : State} {nm : NmMap} : Touch m s0 { s with nm := nm } ↔ Touch m s0 s :=
  ⟨fun h => ⟨h.variant, h.straps, h.floes, h.signals, h.parts, h.rejects, h.steer, h.mem, h.spBad, h.poison, h.eps, h.cmdq, h.msis, h.i3c, h.ucie, h.nmcs, fun e => (hm.not rfl e).elim, h.cxls, h.router, h.chips, h.oed, h.sled, h.time, h.therms, h.power, h.rst, h.ras, h.sec, h.fuses, h.flash, h.proc, h.jtag, h.hdrs, h.latches, h.staged, h.fresh, h.pending, h.wf, h.fuseLe⟩,
    fun h => ⟨h.variant, h.straps, h.floes, h.signals, h.parts, h.rejects, h.steer, h.mem, h.spBad, h.poison, h.eps, h.cmdq, h.msis, h.i3c, h.ucie, h.nmcs, fun e => (hm.not rfl e).elim, h.cxls, h.router, h.chips, h.oed, h.sled, h.time, h.therms, h.power, h.rst, h.ras, h.sec, h.fuses, h.flash, h.proc, h.jtag, h.hdrs, h.latches, h.staged, h.fresh, h.pending, h.wf, h.fuseLe⟩⟩
theorem Touch.upd_nm {m : Nat} (hm : Sub 0x10000 m) {s0 s : State} {nm : NmMap} (h : Touch m s0 s) : Touch m s0 { s with nm := nm } := (Touch.upd_nmI hm).mpr h
theorem Touch.upd_cxlsI {m : Nat} (hm : Sub 0x20000 m) {s0 s : State} {cxls : Tbl Cxl} : Touch m s0 { s with cxls := cxls } ↔ Touch m s0 s :=
  ⟨fun h => ⟨h.variant, h.straps, h.floes, h.signals, h.parts, h.rejects, h.steer, h.mem, h.spBad, h.poison, h.eps, h.cmdq, h.msis, h.i3c, h.ucie, h.nmcs, h.nm, fun e => (hm.not rfl e).elim, h.router, h.chips, h.oed, h.sled, h.time, h.therms, h.power, h.rst, h.ras, h.sec, h.fuses, h.flash, h.proc, h.jtag, h.hdrs, h.latches, h.staged, h.fresh, h.pending, h.wf, h.fuseLe⟩,
    fun h => ⟨h.variant, h.straps, h.floes, h.signals, h.parts, h.rejects, h.steer, h.mem, h.spBad, h.poison, h.eps, h.cmdq, h.msis, h.i3c, h.ucie, h.nmcs, h.nm, fun e => (hm.not rfl e).elim, h.router, h.chips, h.oed, h.sled, h.time, h.therms, h.power, h.rst, h.ras, h.sec, h.fuses, h.flash, h.proc, h.jtag, h.hdrs, h.latches, h.staged, h.fresh, h.pending, h.wf, h.fuseLe⟩⟩
theorem Touch.upd_cxls {m : Nat} (hm : Sub 0x20000 m) {s0 s : State} {cxls : Tbl Cxl} (h : Touch m s0 s) : Touch m s0 { s with cxls := cxls } := (Touch.upd_cxlsI hm).mpr h
theorem Touch.upd_routerI {m : Nat} (hm : Sub 0x40000 m) {s0 s : State} {router : Router} : Touch m s0 { s with router := router } ↔ Touch m s0 s :=
  ⟨fun h => ⟨h.variant, h.straps, h.floes, h.signals, h.parts, h.rejects, h.steer, h.mem, h.spBad, h.poison, h.eps, h.cmdq, h.msis, h.i3c, h.ucie, h.nmcs, h.nm, h.cxls, fun e => (hm.not rfl e).elim, h.chips, h.oed, h.sled, h.time, h.therms, h.power, h.rst, h.ras, h.sec, h.fuses, h.flash, h.proc, h.jtag, h.hdrs, h.latches, h.staged, h.fresh, h.pending, h.wf, h.fuseLe⟩,
    fun h => ⟨h.variant, h.straps, h.floes, h.signals, h.parts, h.rejects, h.steer, h.mem, h.spBad, h.poison, h.eps, h.cmdq, h.msis, h.i3c, h.ucie, h.nmcs, h.nm, h.cxls, fun e => (hm.not rfl e).elim, h.chips, h.oed, h.sled, h.time, h.therms, h.power, h.rst, h.ras, h.sec, h.fuses, h.flash, h.proc, h.jtag, h.hdrs, h.latches, h.staged, h.fresh, h.pending, h.wf, h.fuseLe⟩⟩
theorem Touch.upd_router {m : Nat} (hm : Sub 0x40000 m) {s0 s : State} {router : Router} (h : Touch m s0 s) : Touch m s0 { s with router := router } := (Touch.upd_routerI hm).mpr h
theorem Touch.upd_chipsI {m : Nat} (hm : Sub 0x80000 m) {s0 s : State} {chips : Tbl Chip} : Touch m s0 { s with chips := chips } ↔ Touch m s0 s :=
  ⟨fun h => ⟨h.variant, h.straps, h.floes, h.signals, h.parts, h.rejects, h.steer, h.mem, h.spBad, h.poison, h.eps, h.cmdq, h.msis, h.i3c, h.ucie, h.nmcs, h.nm, h.cxls, h.router, fun e => (hm.not rfl e).elim, h.oed, h.sled, h.time, h.therms, h.power, h.rst, h.ras, h.sec, h.fuses, h.flash, h.proc, h.jtag, h.hdrs, h.latches, h.staged, h.fresh, h.pending, h.wf, h.fuseLe⟩,
    fun h => ⟨h.variant, h.straps, h.floes, h.signals, h.parts, h.rejects, h.steer, h.mem, h.spBad, h.poison, h.eps, h.cmdq, h.msis, h.i3c, h.ucie, h.nmcs, h.nm, h.cxls, h.router, fun e => (hm.not rfl e).elim, h.oed, h.sled, h.time, h.therms, h.power, h.rst, h.ras, h.sec, h.fuses, h.flash, h.proc, h.jtag, h.hdrs, h.latches, h.staged, h.fresh, h.pending, h.wf, h.fuseLe⟩⟩
theorem Touch.upd_chips {m : Nat} (hm : Sub 0x80000 m) {s0 s : State} {chips : Tbl Chip} (h : Touch m s0 s) : Touch m s0 { s with chips := chips } := (Touch.upd_chipsI hm).mpr h
theorem Touch.upd_oedI {m : Nat} (hm : Sub 0x100000 m) {s0 s : State} {oed : Oed} : Touch m s0 { s with oed := oed } ↔ Touch m s0 s :=
  ⟨fun h => ⟨h.variant, h.straps, h.floes, h.signals, h.parts, h.rejects, h.steer, h.mem, h.spBad, h.poison, h.eps, h.cmdq, h.msis, h.i3c, h.ucie, h.nmcs, h.nm, h.cxls, h.router, h.chips, fun e => (hm.not rfl e).elim, h.sled, h.time, h.therms, h.power, h.rst, h.ras, h.sec, h.fuses, h.flash, h.proc, h.jtag, h.hdrs, h.latches, h.staged, h.fresh, h.pending, h.wf, h.fuseLe⟩,
    fun h => ⟨h.variant, h.straps, h.floes, h.signals, h.parts, h.rejects, h.steer, h.mem, h.spBad, h.poison, h.eps, h.cmdq, h.msis, h.i3c, h.ucie, h.nmcs, h.nm, h.cxls, h.router, h.chips, fun e => (hm.not rfl e).elim, h.sled, h.time, h.therms, h.power, h.rst, h.ras, h.sec, h.fuses, h.flash, h.proc, h.jtag, h.hdrs, h.latches, h.staged, h.fresh, h.pending, h.wf, h.fuseLe⟩⟩
theorem Touch.upd_oed {m : Nat} (hm : Sub 0x100000 m) {s0 s : State} {oed : Oed} (h : Touch m s0 s) : Touch m s0 { s with oed := oed } := (Touch.upd_oedI hm).mpr h
theorem Touch.upd_sledI {m : Nat} (hm : Sub 0x200000 m) {s0 s : State} {sled : List Bool} : Touch m s0 { s with sled := sled } ↔ Touch m s0 s :=
  ⟨fun h => ⟨h.variant, h.straps, h.floes, h.signals, h.parts, h.rejects, h.steer, h.mem, h.spBad, h.poison, h.eps, h.cmdq, h.msis, h.i3c, h.ucie, h.nmcs, h.nm, h.cxls, h.router, h.chips, h.oed, fun e => (hm.not rfl e).elim, h.time, h.therms, h.power, h.rst, h.ras, h.sec, h.fuses, h.flash, h.proc, h.jtag, h.hdrs, h.latches, h.staged, h.fresh, h.pending, h.wf, h.fuseLe⟩,
    fun h => ⟨h.variant, h.straps, h.floes, h.signals, h.parts, h.rejects, h.steer, h.mem, h.spBad, h.poison, h.eps, h.cmdq, h.msis, h.i3c, h.ucie, h.nmcs, h.nm, h.cxls, h.router, h.chips, h.oed, fun e => (hm.not rfl e).elim, h.time, h.therms, h.power, h.rst, h.ras, h.sec, h.fuses, h.flash, h.proc, h.jtag, h.hdrs, h.latches, h.staged, h.fresh, h.pending, h.wf, h.fuseLe⟩⟩
theorem Touch.upd_sled {m : Nat} (hm : Sub 0x200000 m) {s0 s : State} {sled : List Bool} (h : Touch m s0 s) : Touch m s0 { s with sled := sled } := (Touch.upd_sledI hm).mpr h
theorem Touch.upd_timeI {m : Nat} (hm : Sub 0x400000 m) {s0 s : State} {time : TimeSt} : Touch m s0 { s with time := time } ↔ Touch m s0 s :=
  ⟨fun h => ⟨h.variant, h.straps, h.floes, h.signals, h.parts, h.rejects, h.steer, h.mem, h.spBad, h.poison, h.eps, h.cmdq, h.msis, h.i3c, h.ucie, h.nmcs, h.nm, h.cxls, h.router, h.chips, h.oed, h.sled, fun e => (hm.not rfl e).elim, h.therms, h.power, h.rst, h.ras, h.sec, h.fuses, h.flash, h.proc, h.jtag, h.hdrs, h.latches, h.staged, h.fresh, h.pending, h.wf, h.fuseLe⟩,
    fun h => ⟨h.variant, h.straps, h.floes, h.signals, h.parts, h.rejects, h.steer, h.mem, h.spBad, h.poison, h.eps, h.cmdq, h.msis, h.i3c, h.ucie, h.nmcs, h.nm, h.cxls, h.router, h.chips, h.oed, h.sled, fun e => (hm.not rfl e).elim, h.therms, h.power, h.rst, h.ras, h.sec, h.fuses, h.flash, h.proc, h.jtag, h.hdrs, h.latches, h.staged, h.fresh, h.pending, h.wf, h.fuseLe⟩⟩
theorem Touch.upd_time {m : Nat} (hm : Sub 0x400000 m) {s0 s : State} {time : TimeSt} (h : Touch m s0 s) : Touch m s0 { s with time := time } := (Touch.upd_timeI hm).mpr h
theorem Touch.upd_thermsI {m : Nat} (hm : Sub 0x800000 m) {s0 s : State} {therms : Tbl Therm} : Touch m s0 { s with therms := therms } ↔ Touch m s0 s :=
  ⟨fun h => ⟨h.variant, h.straps, h.floes, h.signals, h.parts, h.rejects, h.steer, h.mem, h.spBad, h.poison, h.eps, h.cmdq, h.msis, h.i3c, h.ucie, h.nmcs, h.nm, h.cxls, h.router, h.chips, h.oed, h.sled, h.time, fun e => (hm.not rfl e).elim, h.power, h.rst, h.ras, h.sec, h.fuses, h.flash, h.proc, h.jtag, h.hdrs, h.latches, h.staged, h.fresh, h.pending, h.wf, h.fuseLe⟩,
    fun h => ⟨h.variant, h.straps, h.floes, h.signals, h.parts, h.rejects, h.steer, h.mem, h.spBad, h.poison, h.eps, h.cmdq, h.msis, h.i3c, h.ucie, h.nmcs, h.nm, h.cxls, h.router, h.chips, h.oed, h.sled, h.time, fun e => (hm.not rfl e).elim, h.power, h.rst, h.ras, h.sec, h.fuses, h.flash, h.proc, h.jtag, h.hdrs, h.latches, h.staged, h.fresh, h.pending, h.wf, h.fuseLe⟩⟩
theorem Touch.upd_therms {m : Nat} (hm : Sub 0x800000 m) {s0 s : State} {therms : Tbl Therm} (h : Touch m s0 s) : Touch m s0 { s with therms := therms } := (Touch.upd_thermsI hm).mpr h
theorem Touch.upd_powerI {m : Nat} (hm : Sub 0x1000000 m) {s0 s : State} {power : Power} : Touch m s0 { s with power := power } ↔ Touch m s0 s :=
  ⟨fun h => ⟨h.variant, h.straps, h.floes, h.signals, h.parts, h.rejects, h.steer, h.mem, h.spBad, h.poison, h.eps, h.cmdq, h.msis, h.i3c, h.ucie, h.nmcs, h.nm, h.cxls, h.router, h.chips, h.oed, h.sled, h.time, h.therms, fun e => (hm.not rfl e).elim, h.rst, h.ras, h.sec, h.fuses, h.flash, h.proc, h.jtag, h.hdrs, h.latches, h.staged, h.fresh, h.pending, h.wf, h.fuseLe⟩,
    fun h => ⟨h.variant, h.straps, h.floes, h.signals, h.parts, h.rejects, h.steer, h.mem, h.spBad, h.poison, h.eps, h.cmdq, h.msis, h.i3c, h.ucie, h.nmcs, h.nm, h.cxls, h.router, h.chips, h.oed, h.sled, h.time, h.therms, fun e => (hm.not rfl e).elim, h.rst, h.ras, h.sec, h.fuses, h.flash, h.proc, h.jtag, h.hdrs, h.latches, h.staged, h.fresh, h.pending, h.wf, h.fuseLe⟩⟩
theorem Touch.upd_power {m : Nat} (hm : Sub 0x1000000 m) {s0 s : State} {power : Power} (h : Touch m s0 s) : Touch m s0 { s with power := power } := (Touch.upd_powerI hm).mpr h
theorem Touch.upd_rstI {m : Nat} (hm : Sub 0x2000000 m) {s0 s : State} {rst : Rst} : Touch m s0 { s with rst := rst } ↔ Touch m s0 s :=
  ⟨fun h => ⟨h.variant, h.straps, h.floes, h.signals, h.parts, h.rejects, h.steer, h.mem, h.spBad, h.poison, h.eps, h.cmdq, h.msis, h.i3c, h.ucie, h.nmcs, h.nm, h.cxls, h.router, h.chips, h.oed, h.sled, h.time, h.therms, h.power, fun e => (hm.not rfl e).elim, h.ras, h.sec, h.fuses, h.flash, h.proc, h.jtag, h.hdrs, h.latches, h.staged, h.fresh, h.pending, h.wf, h.fuseLe⟩,
    fun h => ⟨h.variant, h.straps, h.floes, h.signals, h.parts, h.rejects, h.steer, h.mem, h.spBad, h.poison, h.eps, h.cmdq, h.msis, h.i3c, h.ucie, h.nmcs, h.nm, h.cxls, h.router, h.chips, h.oed, h.sled, h.time, h.therms, h.power, fun e => (hm.not rfl e).elim, h.ras, h.sec, h.fuses, h.flash, h.proc, h.jtag, h.hdrs, h.latches, h.staged, h.fresh, h.pending, h.wf, h.fuseLe⟩⟩
theorem Touch.upd_rst {m : Nat} (hm : Sub 0x2000000 m) {s0 s : State} {rst : Rst} (h : Touch m s0 s) : Touch m s0 { s with rst := rst } := (Touch.upd_rstI hm).mpr h
theorem Touch.upd_rasI {m : Nat} (hm : Sub 0x4000000 m) {s0 s : State} {ras : Ras} : Touch m s0 { s with ras := ras } ↔ Touch m s0 s :=
  ⟨fun h => ⟨h.variant, h.straps, h.floes, h.signals, h.parts, h.rejects, h.steer, h.mem, h.spBad, h.poison, h.eps, h.cmdq, h.msis, h.i3c, h.ucie, h.nmcs, h.nm, h.cxls, h.router, h.chips, h.oed, h.sled, h.time, h.therms, h.power, h.rst, fun e => (hm.not rfl e).elim, h.sec, h.fuses, h.flash, h.proc, h.jtag, h.hdrs, h.latches, h.staged, h.fresh, h.pending, h.wf, h.fuseLe⟩,
    fun h => ⟨h.variant, h.straps, h.floes, h.signals, h.parts, h.rejects, h.steer, h.mem, h.spBad, h.poison, h.eps, h.cmdq, h.msis, h.i3c, h.ucie, h.nmcs, h.nm, h.cxls, h.router, h.chips, h.oed, h.sled, h.time, h.therms, h.power, h.rst, fun e => (hm.not rfl e).elim, h.sec, h.fuses, h.flash, h.proc, h.jtag, h.hdrs, h.latches, h.staged, h.fresh, h.pending, h.wf, h.fuseLe⟩⟩
theorem Touch.upd_ras {m : Nat} (hm : Sub 0x4000000 m) {s0 s : State} {ras : Ras} (h : Touch m s0 s) : Touch m s0 { s with ras := ras } := (Touch.upd_rasI hm).mpr h
theorem Touch.upd_secI {m : Nat} (hm : Sub 0x8000000 m) {s0 s : State} {sec : Sec} : Touch m s0 { s with sec := sec } ↔ Touch m s0 s :=
  ⟨fun h => ⟨h.variant, h.straps, h.floes, h.signals, h.parts, h.rejects, h.steer, h.mem, h.spBad, h.poison, h.eps, h.cmdq, h.msis, h.i3c, h.ucie, h.nmcs, h.nm, h.cxls, h.router, h.chips, h.oed, h.sled, h.time, h.therms, h.power, h.rst, h.ras, fun e => (hm.not rfl e).elim, h.fuses, h.flash, h.proc, h.jtag, h.hdrs, h.latches, h.staged, h.fresh, h.pending, h.wf, h.fuseLe⟩,
    fun h => ⟨h.variant, h.straps, h.floes, h.signals, h.parts, h.rejects, h.steer, h.mem, h.spBad, h.poison, h.eps, h.cmdq, h.msis, h.i3c, h.ucie, h.nmcs, h.nm, h.cxls, h.router, h.chips, h.oed, h.sled, h.time, h.therms, h.power, h.rst, h.ras, fun e => (hm.not rfl e).elim, h.fuses, h.flash, h.proc, h.jtag, h.hdrs, h.latches, h.staged, h.fresh, h.pending, h.wf, h.fuseLe⟩⟩
theorem Touch.upd_sec {m : Nat} (hm : Sub 0x8000000 m) {s0 s : State} {sec : Sec} (h : Touch m s0 s) : Touch m s0 { s with sec := sec } := (Touch.upd_secI hm).mpr h
theorem Touch.upd_fuses {m : Nat} (hm : Sub 0x10000000 m) {s0 s : State} {fuses : Fuses} (k : FuseLe s.fuses fuses) (h : Touch m s0 s) : Touch m s0 { s with fuses := fuses } :=
  ⟨h.variant, h.straps, h.floes, h.signals, h.parts, h.rejects, h.steer, h.mem, h.spBad, h.poison, h.eps, h.cmdq, h.msis, h.i3c, h.ucie, h.nmcs, h.nm, h.cxls, h.router, h.chips, h.oed, h.sled, h.time, h.therms, h.power, h.rst, h.ras, h.sec, fun e => (hm.not rfl e).elim, h.flash, h.proc, h.jtag, h.hdrs, h.latches, h.staged, h.fresh, h.pending, h.wf, h.fuseLe.trans k⟩
theorem Touch.upd_flashI {m : Nat} (hm : Sub 0x20000000 m) {s0 s : State} {flash : Flash} : Touch m s0 { s with flash := flash } ↔ Touch m s0 s :=
  ⟨fun h => ⟨h.variant, h.straps, h.floes, h.signals, h.parts, h.rejects, h.steer, h.mem, h.spBad, h.poison, h.eps, h.cmdq, h.msis, h.i3c, h.ucie, h.nmcs, h.nm, h.cxls, h.router, h.chips, h.oed, h.sled, h.time, h.therms, h.power, h.rst, h.ras, h.sec, h.fuses, fun e => (hm.not rfl e).elim, h.proc, h.jtag, h.hdrs, h.latches, h.staged, h.fresh, h.pending, h.wf, h.fuseLe⟩,
    fun h => ⟨h.variant, h.straps, h.floes, h.signals, h.parts, h.rejects, h.steer, h.mem, h.spBad, h.poison, h.eps, h.cmdq, h.msis, h.i3c, h.ucie, h.nmcs, h.nm, h.cxls, h.router, h.chips, h.oed, h.sled, h.time, h.therms, h.power, h.rst, h.ras, h.sec, h.fuses, fun e => (hm.not rfl e).elim, h.proc, h.jtag, h.hdrs, h.latches, h.staged, h.fresh, h.pending, h.wf, h.fuseLe⟩⟩
theorem Touch.upd_flash {m : Nat} (hm : Sub 0x20000000 m) {s0 s : State} {flash : Flash} (h : Touch m s0 s) : Touch m s0 { s with flash := flash } := (Touch.upd_flashI hm).mpr h
theorem Touch.upd_procI {m : Nat} (hm : Sub 0x40000000 m) {s0 s : State} {proc : Proc} : Touch m s0 { s with proc := proc } ↔ Touch m s0 s :=
  ⟨fun h => ⟨h.variant, h.straps, h.floes, h.signals, h.parts, h.rejects, h.steer, h.mem, h.spBad, h.poison, h.eps, h.cmdq, h.msis, h.i3c, h.ucie, h.nmcs, h.nm, h.cxls, h.router, h.chips, h.oed, h.sled, h.time, h.therms, h.power, h.rst, h.ras, h.sec, h.fuses, h.flash, fun e => (hm.not rfl e).elim, h.jtag, h.hdrs, h.latches, h.staged, h.fresh, h.pending, h.wf, h.fuseLe⟩,
    fun h => ⟨h.variant, h.straps, h.floes, h.signals, h.parts, h.rejects, h.steer, h.mem, h.spBad, h.poison, h.eps, h.cmdq, h.msis, h.i3c, h.ucie, h.nmcs, h.nm, h.cxls, h.router, h.chips, h.oed, h.sled, h.time, h.therms, h.power, h.rst, h.ras, h.sec, h.fuses, h.flash, fun e => (hm.not rfl e).elim, h.jtag, h.hdrs, h.latches, h.staged, h.fresh, h.pending, h.wf, h.fuseLe⟩⟩
theorem Touch.upd_proc {m : Nat} (hm : Sub 0x40000000 m) {s0 s : State} {proc : Proc} (h : Touch m s0 s) : Touch m s0 { s with proc := proc } := (Touch.upd_procI hm).mpr h
theorem Touch.upd_jtagI {m : Nat} (hm : Sub 0x80000000 m) {s0 s : State} {jtag : Option Nat} : Touch m s0 { s with jtag := jtag } ↔ Touch m s0 s :=
  ⟨fun h => ⟨h.variant, h.straps, h.floes, h.signals, h.parts, h.rejects, h.steer, h.mem, h.spBad, h.poison, h.eps, h.cmdq, h.msis, h.i3c, h.ucie, h.nmcs, h.nm, h.cxls, h.router, h.chips, h.oed, h.sled, h.time, h.therms, h.power, h.rst, h.ras, h.sec, h.fuses, h.flash, h.proc, fun e => (hm.not rfl e).elim, h.hdrs, h.latches, h.staged, h.fresh, h.pending, h.wf, h.fuseLe⟩,
    fun h => ⟨h.variant, h.straps, h.floes, h.signals, h.parts, h.rejects, h.steer, h.mem, h.spBad, h.poison, h.eps, h.cmdq, h.msis, h.i3c, h.ucie, h.nmcs, h.nm, h.cxls, h.router, h.chips, h.oed, h.sled, h.time, h.therms, h.power, h.rst, h.ras, h.sec, h.fuses, h.flash, h.proc, fun e => (hm.not rfl e).elim, h.hdrs, h.latches, h.staged, h.fresh, h.pending, h.wf, h.fuseLe⟩⟩
theorem Touch.upd_jtag {m : Nat} (hm : Sub 0x80000000 m) {s0 s : State} {jtag : Option Nat} (h : Touch m s0 s) : Touch m s0 { s with jtag := jtag } := (Touch.upd_jtagI hm).mpr h
theorem Touch.upd_hdrsI {m : Nat} (hm : Sub 0x100000000 m) {s0 s : State} {hdrs : Tbl Header} : Touch m s0 { s with hdrs := hdrs } ↔ Touch m s0 s :=
  ⟨fun h => ⟨h.variant, h.straps, h.floes, h.signals, h.parts, h.rejects, h.steer, h.mem, h.spBad, h.poison, h.eps, h.cmdq, h.msis, h.i3c, h.ucie, h.nmcs, h.nm, h.cxls, h.router, h.chips, h.oed, h.sled, h.time, h.therms, h.power, h.rst, h.ras, h.sec, h.fuses, h.flash, h.proc, h.jtag, fun e => (hm.not rfl e).elim, h.latches, h.staged, h.fresh, h.pending, h.wf, h.fuseLe⟩,
    fun h => ⟨h.variant, h.straps, h.floes, h.signals, h.parts, h.rejects, h.steer, h.mem, h.spBad, h.poison, h.eps, h.cmdq, h.msis, h.i3c, h.ucie, h.nmcs, h.nm, h.cxls, h.router, h.chips, h.oed, h.sled, h.time, h.therms, h.power, h.rst, h.ras, h.sec, h.fuses, h.flash, h.proc, h.jtag, fun e => (hm.not rfl e).elim, h.latches, h.staged, h.fresh, h.pending, h.wf, h.fuseLe⟩⟩
theorem Touch.upd_hdrs {m : Nat} (hm : Sub 0x100000000 m) {s0 s : State} {hdrs : Tbl Header} (h : Touch m s0 s) : Touch m s0 { s with hdrs := hdrs } := (Touch.upd_hdrsI hm).mpr h
theorem Touch.upd_latchesI {m : Nat} (hm : Sub 0x200000000 m) {s0 s : State} {latches : List HalfLatch} : Touch m s0 { s with latches := latches } ↔ Touch m s0 s :=
  ⟨fun h => ⟨h.variant, h.straps, h.floes, h.signals, h.parts, h.rejects, h.steer, h.mem, h.spBad, h.poison, h.eps, h.cmdq, h.msis, h.i3c, h.ucie, h.nmcs, h.nm, h.cxls, h.router, h.chips, h.oed, h.sled, h.time, h.therms, h.power, h.rst, h.ras, h.sec, h.fuses, h.flash, h.proc, h.jtag, h.hdrs, fun e => (hm.not rfl e).elim, h.staged, h.fresh, h.pending, h.wf, h.fuseLe⟩,
    fun h => ⟨h.variant, h.straps, h.floes, h.signals, h.parts, h.rejects, h.steer, h.mem, h.spBad, h.poison, h.eps, h.cmdq, h.msis, h.i3c, h.ucie, h.nmcs, h.nm, h.cxls, h.router, h.chips, h.oed, h.sled, h.time, h.therms, h.power, h.rst, h.ras, h.sec, h.fuses, h.flash, h.proc, h.jtag, h.hdrs, fun e => (hm.not rfl e).elim, h.staged, h.fresh, h.pending, h.wf, h.fuseLe⟩⟩
theorem Touch.upd_latches {m : Nat} (hm : Sub 0x200000000 m) {s0 s : State} {latches : List HalfLatch} (h : Touch m s0 s) : Touch m s0 { s with latches := latches } := (Touch.upd_latchesI hm).mpr h
theorem Touch.upd_stagedI {m : Nat} (hm : Sub 0x400000000 m) {s0 s : State} {staged : List HalfLatch} : Touch m s0 { s with staged := staged } ↔ Touch m s0 s :=
  ⟨fun h => ⟨h.variant, h.straps, h.floes, h.signals, h.parts, h.rejects, h.steer, h.mem, h.spBad, h.poison, h.eps, h.cmdq, h.msis, h.i3c, h.ucie, h.nmcs, h.nm, h.cxls, h.router, h.chips, h.oed, h.sled, h.time, h.therms, h.power, h.rst, h.ras, h.sec, h.fuses, h.flash, h.proc, h.jtag, h.hdrs, h.latches, fun e => (hm.not rfl e).elim, h.fresh, h.pending, h.wf, h.fuseLe⟩,
    fun h => ⟨h.variant, h.straps, h.floes, h.signals, h.parts, h.rejects, h.steer, h.mem, h.spBad, h.poison, h.eps, h.cmdq, h.msis, h.i3c, h.ucie, h.nmcs, h.nm, h.cxls, h.router, h.chips, h.oed, h.sled, h.time, h.therms, h.power, h.rst, h.ras, h.sec, h.fuses, h.flash, h.proc, h.jtag, h.hdrs, h.latches, fun e => (hm.not rfl e).elim, h.fresh, h.pending, h.wf, h.fuseLe⟩⟩
theorem Touch.upd_staged {m : Nat} (hm : Sub 0x400000000 m) {s0 s : State} {staged : List HalfLatch} (h : Touch m s0 s) : Touch m s0 { s with staged := staged } := (Touch.upd_stagedI hm).mpr h
theorem Touch.upd_freshI {m : Nat} (hm : Sub 0x800000000 m) {s0 s : State} {fresh : Nat} : Touch m s0 { s with fresh := fresh } ↔ Touch m s0 s :=
  ⟨fun h => ⟨h.variant, h.straps, h.floes, h.signals, h.parts, h.rejects, h.steer, h.mem, h.spBad, h.poison, h.eps, h.cmdq, h.msis, h.i3c, h.ucie, h.nmcs, h.nm, h.cxls, h.router, h.chips, h.oed, h.sled, h.time, h.therms, h.power, h.rst, h.ras, h.sec, h.fuses, h.flash, h.proc, h.jtag, h.hdrs, h.latches, h.staged, fun e => (hm.not rfl e).elim, h.pending, h.wf, h.fuseLe⟩,
    fun h => ⟨h.variant, h.straps, h.floes, h.signals, h.parts, h.rejects, h.steer, h.mem, h.spBad, h.poison, h.eps, h.cmdq, h.msis, h.i3c, h.ucie, h.nmcs, h.nm, h.cxls, h.router, h.chips, h.oed, h.sled, h.time, h.therms, h.power, h.rst, h.ras, h.sec, h.fuses, h.flash, h.proc, h.jtag, h.hdrs, h.latches, h.staged, fun e => (hm.not rfl e).elim, h.pending, h.wf, h.fuseLe⟩⟩
theorem Touch.upd_fresh {m : Nat} (hm : Sub 0x800000000 m) {s0 s : State} {fresh : Nat} (h : Touch m s0 s) : Touch m s0 { s with fresh := fresh } := (Touch.upd_freshI hm).mpr h
theorem Touch.upd_steer_nmI {m : Nat} (hm : Sub 0x10040 m) {s0 s : State} {steer : Option Nat} {nm : NmMap} : Touch m s0 { s with steer := steer, nm := nm } ↔ Touch m s0 s :=
  ⟨fun h => ⟨h.variant, h.straps, h.floes, h.signals, h.parts, h.rejects, fun e => (hm.not rfl e).elim, h.mem, h.spBad, h.poison, h.eps, h.cmdq, h.msis, h.i3c, h.ucie, h.nmcs, fun e => (hm.not rfl e).elim, h.cxls, h.router, h.chips, h.oed, h.sled, h.time, h.therms, h.power, h.rst, h.ras, h.sec, h.fuses, h.flash, h.proc, h.jtag, h.hdrs, h.latches, h.staged, h.fresh, h.pending, h.wf, h.fuseLe⟩,
    fun h => ⟨h.variant, h.straps, h.floes, h.signals, h.parts, h.rejects, fun e => (hm.not rfl e).elim, h.mem, h.spBad, h.poison, h.eps, h.cmdq, h.msis, h.i3c, h.ucie, h.nmcs, fun e => (hm.not rfl e).elim, h.cxls, h.router, h.chips, h.oed, h.sled, h.time, h.therms, h.power, h.rst, h.ras, h.sec, h.fuses, h.flash, h.proc, h.jtag, h.hdrs, h.latches, h.staged, h.fresh, h.pending, h.wf, h.fuseLe⟩⟩
theorem Touch.upd_steer_nm {m : Nat} (hm : Sub 0x10040 m) {s0 s : State} {steer : Option Nat} {nm : NmMap} (h : Touch m s0 s) : Touch m s0 { s with steer := steer, nm := nm } := (Touch.upd_steer_nmI hm).mpr h
theorem Touch.upd_mem_poison {m : Nat} (hm : Sub 0x280 m) {s0 s : State} {mem : List Host.Cell} {poison : List (Nat × Nat)} (k : Memory.wf s.mem = true → Memory.wf mem = true) (h : Touch m s0 s) : Touch m s0 { s with mem := mem, poison := poison } :=
  ⟨h.variant, h.straps, h.floes, h.signals, h.parts, h.rejects, h.steer, fun e => (hm.not rfl e).elim, h.spBad, fun e => (hm.not rfl e).elim, h.eps, h.cmdq, h.msis, h.i3c, h.ucie, h.nmcs, h.nm, h.cxls, h.router, h.chips, h.oed, h.sled, h.time, h.therms, h.power, h.rst, h.ras, h.sec, h.fuses, h.flash, h.proc, h.jtag, h.hdrs, h.latches, h.staged, h.fresh, h.pending, fun e => k (h.wf e), h.fuseLe⟩
theorem Touch.upd_cmdq_i3cI {m : Nat} (hm : Sub 0x2800 m) {s0 s : State} {cmdq : List GwyPkt} {i3c : I3c} : Touch m s0 { s with cmdq := cmdq, i3c := i3c } ↔ Touch m s0 s :=
  ⟨fun h => ⟨h.variant, h.straps, h.floes, h.signals, h.parts, h.rejects, h.steer, h.mem, h.spBad, h.poison, h.eps, fun e => (hm.not rfl e).elim, h.msis, fun e => (hm.not rfl e).elim, h.ucie, h.nmcs, h.nm, h.cxls, h.router, h.chips, h.oed, h.sled, h.time, h.therms, h.power, h.rst, h.ras, h.sec, h.fuses, h.flash, h.proc, h.jtag, h.hdrs, h.latches, h.staged, h.fresh, h.pending, h.wf, h.fuseLe⟩,
    fun h => ⟨h.variant, h.straps, h.floes, h.signals, h.parts, h.rejects, h.steer, h.mem, h.spBad, h.poison, h.eps, fun e => (hm.not rfl e).elim, h.msis, fun e => (hm.not rfl e).elim, h.ucie, h.nmcs, h.nm, h.cxls, h.router, h.chips, h.oed, h.sled, h.time, h.therms, h.power, h.rst, h.ras, h.sec, h.fuses, h.flash, h.proc, h.jtag, h.hdrs, h.latches, h.staged, h.fresh, h.pending, h.wf, h.fuseLe⟩⟩
theorem Touch.upd_cmdq_i3c {m : Nat} (hm : Sub 0x2800 m) {s0 s : State} {cmdq : List GwyPkt} {i3c : I3c} (h : Touch m s0 s) : Touch m s0 { s with cmdq := cmdq, i3c := i3c } := (Touch.upd_cmdq_i3cI hm).mpr h
theorem Touch.upd_msis_procI {m : Nat} (hm : Sub 0x40001000 m) {s0 s : State} {msis : List (DWord × Word)} {proc : Proc} : Touch m s0 { s with msis := msis, proc := proc } ↔ Touch m s0 s :=
  ⟨fun h => ⟨h.variant, h.straps, h.floes, h.signals, h.parts, h.rejects, h.steer, h.mem, h.spBad, h.poison, h.eps, h.cmdq, fun e => (hm.not rfl e).elim, h.i3c, h.ucie, h.nmcs, h.nm, h.cxls, h.router, h.chips, h.oed, h.sled, h.time, h.therms, h.power, h.rst, h.ras, h.sec, h.fuses, h.flash, fun e => (hm.not rfl e).elim, h.jtag, h.hdrs, h.latches, h.staged, h.fresh, h.pending, h.wf, h.fuseLe⟩,
    fun h => ⟨h.variant, h.straps, h.floes, h.signals, h.parts, h.rejects, h.steer, h.mem, h.spBad, h.poison, h.eps, h.cmdq, fun e => (hm.not rfl e).elim, h.i3c, h.ucie, h.nmcs, h.nm, h.cxls, h.router, h.chips, h.oed, h.sled, h.time, h.therms, h.power, h.rst, h.ras, h.sec, h.fuses, h.flash, fun e => (hm.not rfl e).elim, h.jtag, h.hdrs, h.latches, h.staged, h.fresh, h.pending, h.wf, h.fuseLe⟩⟩
theorem Touch.upd_msis_proc {m : Nat} (hm : Sub 0x40001000 m) {s0 s : State} {msis : List (DWord × Word)} {proc : Proc} (h : Touch m s0 s) : Touch m s0 { s with msis := msis, proc := proc } := (Touch.upd_msis_procI hm).mpr h
theorem Touch.upd_oed_freshI {m : Nat} (hm : Sub 0x800100000 m) {s0 s : State} {oed : Oed} {fresh : Nat} : Touch m s0 { s with oed := oed, fresh := fresh } ↔ Touch m s0 s :=
  ⟨fun h => ⟨h.variant, h.straps, h.floes, h.signals, h.parts, h.rejects, h.steer, h.mem, h.spBad, h.poison, h.eps, h.cmdq, h.msis, h.i3c, h.ucie, h.nmcs, h.nm, h.cxls, h.router, h.chips, fun e => (hm.not rfl e).elim, h.sled, h.time, h.therms, h.power, h.rst, h.ras, h.sec, h.fuses, h.flash, h.proc, h.jtag, h.hdrs, h.latches, h.staged, fun e => (hm.not rfl e).elim, h.pending, h.wf, h.fuseLe⟩,
    fun h => ⟨h.variant, h.straps, h.floes, h.signals, h.parts, h.rejects, h.steer, h.mem, h.spBad, h.poison, h.eps, h.cmdq, h.msis, h.i3c, h.ucie, h.nmcs, h.nm, h.cxls, h.router, h.chips, fun e => (hm.not rfl e).elim, h.sled, h.time, h.therms, h.power, h.rst, h.ras, h.sec, h.fuses, h.flash, h.proc, h.jtag, h.hdrs, h.latches, h.staged, fun e => (hm.not rfl e).elim, h.pending, h.wf, h.fuseLe⟩⟩
theorem Touch.upd_oed_fresh {m : Nat} (hm : Sub 0x800100000 m) {s0 s : State} {oed : Oed} {fresh : Nat} (h : Touch m s0 s) : Touch m s0 { s with oed := oed, fresh := fresh } := (Touch.upd_oed_freshI hm).mpr h
theorem Touch.upd_latches_stagedI {m : Nat} (hm : Sub 0x600000000 m) {s0 s : State} {latches : List HalfLatch} {staged : List HalfLatch} : Touch m s0 { s with latches := latches, staged := staged } ↔ Touch m s0 s :=
  ⟨fun h => ⟨h.variant, h.straps, h.floes, h.signals, h.parts, h.rejects, h.steer, h.mem, h.spBad, h.poison, h.eps, h.cmdq, h.msis, h.i3c, h.ucie, h.nmcs, h.nm, h.cxls, h.router, h.chips, h.oed, h.sled, h.time, h.therms, h.power, h.rst, h.ras, h.sec, h.fuses, h.flash, h.proc, h.jtag, h.hdrs, fun e => (hm.not rfl e).elim, fun e => (hm.not rfl e).elim, h.fresh, h.pending, h.wf, h.fuseLe⟩,
    fun h => ⟨h.variant, h.straps, h.floes, h.signals, h.parts, h.rejects, h.steer, h.mem, h.spBad, h.poison, h.eps, h.cmdq, h.msis, h.i3c, h.ucie, h.nmcs, h.nm, h.cxls, h.router, h.chips, h.oed, h.sled, h.time, h.therms, h.power, h.rst, h.ras, h.sec, h.fuses, h.flash, h.proc, h.jtag, h.hdrs, fun e => (hm.not rfl e).elim, fun e => (hm.not rfl e).elim, h.fresh, h.pending, h.wf, h.fuseLe⟩⟩
theorem Touch.upd_latches_staged {m : Nat} (hm : Sub 0x600000000 m) {s0 s : State} {latches : List HalfLatch} {staged : List HalfLatch} (h : Touch m s0 s) : Touch m s0 { s with latches := latches, staged := staged } := (Touch.upd_latches_stagedI hm).mpr h
theorem Touch.upd_signals_mem_spBad {m : Nat} (hm : Sub 0x188 m) {s0 s : State} {signals : List Signal} {mem : List Host.Cell} {spBad : List Nat} (k : Memory.wf s.mem = true → Memory.wf mem = true) (h : Touch m s0 s) : Touch m s0 { s with signals := signals, mem := mem, spBad := spBad } :=
  ⟨h.variant, h.straps, h.floes, fun e => (hm.not rfl e).elim, h.parts, h.rejects, h.steer, fun e => (hm.not rfl e).elim, fun e => (hm.not rfl e).elim, h.poison, h.eps, h.cmdq, h.msis, h.i3c, h.ucie, h.nmcs, h.nm, h.cxls, h.router, h.chips, h.oed, h.sled, h.time, h.therms, h.power, h.rst, h.ras, h.sec, h.fuses, h.flash, h.proc, h.jtag, h.hdrs, h.latches, h.staged, h.fresh, h.pending, fun e => k (h.wf e), h.fuseLe⟩
theorem Touch.upd_floes_signals_parts_mem_spBad_cmdq_i3c_ucie {m : Nat} (hm : Sub 0x699C m) {s0 s : State} {floes : Tbl Floe} {signals : List Signal} {parts : Tbl Part} {mem : List Host.Cell} {spBad : List Nat} {cmdq : List GwyPkt} {i3c : I3c} {ucie : Tbl Ucie} (k : Memory.wf s.mem = true → Memory.wf mem = true) (h : Touch m s0 s) : Touch m s0 { s with floes := floes, signals := signals, parts := parts, mem := mem, spBad := spBad, cmdq := cmdq, i3c := i3c, ucie := ucie } :=
  ⟨h.variant, h.straps, fun e => (hm.not rfl e).elim, fun e => (hm.not rfl e).elim, fun e => (hm.not rfl e).elim, h.rejects, h.steer, fun e => (hm.not rfl e).elim, fun e => (hm.not rfl e).elim, h.poison, h.eps, fun e => (hm.not rfl e).elim, h.msis, fun e => (hm.not rfl e).elim, fun e => (hm.not rfl e).elim, h.nmcs, h.nm, h.cxls, h.router, h.chips, h.oed, h.sled, h.time, h.therms, h.power, h.rst, h.ras, h.sec, h.fuses, h.flash, h.proc, h.jtag, h.hdrs, h.latches, h.staged, h.fresh, h.pending, fun e => k (h.wf e), h.fuseLe⟩
theorem State.poke_touch {m : Nat} (hm : Sub 0x80 m) {s0 : State} (s : State) (a : Nat) (l : List Byte) (h : Touch m s0 s) : Touch m s0 (s.poke a l) :=
  Touch.upd_mem hm (putBytes_wf a l) h
theorem Touch.ofPair {β : Type} {m : Nat} {s0 t : State} {p : State × β} {r : β} (e : p = (t, r)) (h : Touch m s0 p.1) : Touch m s0 t := by
  rw [e] at h; exact h
theorem Touch.foldl {α : Type} {m : Nat} {s0 : State} {f : State → α → State} {l : List α} {s : State}
    (hf : ∀ s x, Touch m s0 s → Touch m s0 (f s x)) (h : Touch m s0 s) : Touch m s0 (l.foldl f s) := by
  induction l generalizing s with
  | nil => exact h
  | cons a r ih => exact ih (hf s a h)
theorem Touch.foldl1 {α β : Type} {m : Nat} {s0 : State} {f : State × β → α → State × β} {l : List α} {i : State × β}
    (hf : ∀ a x, Touch m s0 a.1 → Touch m s0 (f a x).1) (h : Touch m s0 i.1) : Touch m s0 (l.foldl f i).1 := by
  induction l generalizing i with
  | nil => exact h
  | cons a r ih => exact ih (hf i a h)
theorem State.each_touch {α : Type} {m : Nat} {s0 s : State} {l : List α} {g : State → α → State}
    (hf : ∀ s x, Touch m s0 s → Touch m s0 (g s x)) (h : Touch m s0 s) : Touch m s0 (s.each l g) := Touch.foldl hf h

/-- Every next state of an outcome lies within the mask. -/
structure TouchO (m : Nat) (s0 : State) (o : Host.Outcome State Fault Refusal) : Prop where
  out : ∀ t, o = .next t → Touch m s0 t
theorem TouchO.next {m : Nat} {s0 t : State} (h : Touch m s0 t) : TouchO m s0 (.next t) := ⟨fun _ e => by cases e; exact h⟩
theorem TouchO.fault {m : Nat} {s0 : State} {r : Fault} : TouchO m s0 (.fault r) := ⟨fun _ e => by cases e⟩
theorem TouchO.refused {m : Nat} {s0 : State} {r : Refusal} : TouchO m s0 (.refused r) := ⟨fun _ e => by cases e⟩

end Sys2Proof.Machine
end

