-- ==== Sys2Proof/Laws/TouchOps.lean ====
section
/-! SUPPORT. What every operation of Machine/Ops.lean may touch (Sys2Proof.Machine.Touch). -/

namespace Sys2Proof.Machine

set_option linter.all false

theorem State.setFloe_touch {m : Nat} (hm : Sub 0x4 m) {s0 : State} (s : State) (f : Nat) (x : Floe) (h : Touch m s0 s) : Touch m s0 (State.setFloe s f x) := by
  unfold State.setFloe
  repeat' (first | with_reducible assumption | (with_reducible show Sub _ _; exact hm.of rfl) | simp -zeta only [Touch.upd_floesI (hm.of rfl)] | extract_lets | refine Touch.ofPair ‹_ = (_, _)› ?_ | split | dsimp -zeta only | dsimp -zeta +zetaDelta only)
theorem State.setPart_touch {m : Nat} (hm : Sub 0x10 m) {s0 : State} (s : State) (p : Nat) (x : Part) (h : Touch m s0 s) : Touch m s0 (State.setPart s p x) := by
  unfold State.setPart
  repeat' (first | with_reducible assumption | (with_reducible show Sub _ _; exact hm.of rfl) | simp -zeta only [Touch.upd_partsI (hm.of rfl)] | extract_lets | refine Touch.ofPair ‹_ = (_, _)› ?_ | split | dsimp -zeta only | dsimp -zeta +zetaDelta only)
theorem State.setEp_touch {m : Nat} (hm : Sub 0x400 m) {s0 : State} (s : State) (e : Nat) (x : Endpoint) (h : Touch m s0 s) : Touch m s0 (State.setEp s e x) := by
  unfold State.setEp
  repeat' (first | with_reducible assumption | (with_reducible show Sub _ _; exact hm.of rfl) | simp -zeta only [Touch.upd_epsI (hm.of rfl)] | extract_lets | refine Touch.ofPair ‹_ = (_, _)› ?_ | split | dsimp -zeta only | dsimp -zeta +zetaDelta only)
theorem State.setRouter_touch {m : Nat} (hm : Sub 0x40000 m) {s0 : State} (s : State) (r : Router) (h : Touch m s0 s) : Touch m s0 (State.setRouter s r) := by
  unfold State.setRouter
  repeat' (first | with_reducible assumption | (with_reducible show Sub _ _; exact hm.of rfl) | simp -zeta only [Touch.upd_routerI (hm.of rfl)] | extract_lets | refine Touch.ofPair ‹_ = (_, _)› ?_ | split | dsimp -zeta only | dsimp -zeta +zetaDelta only)
theorem State.setPort_touch {m : Nat} (hm : Sub 0x40000 m) {s0 : State} (s : State) (k : Nat) (x : Port) (h : Touch m s0 s) : Touch m s0 (State.setPort s k x) := by
  unfold State.setPort
  repeat' (first | (with_reducible first | assumption | apply State.setRouter_touch) | (with_reducible show Sub _ _; exact hm.of rfl) | extract_lets | refine Touch.ofPair ‹_ = (_, _)› ?_ | split | dsimp -zeta only | dsimp -zeta +zetaDelta only)
theorem State.setChip_touch {m : Nat} (hm : Sub 0x80000 m) {s0 : State} (s : State) (c : Nat) (x : Chip) (h : Touch m s0 s) : Touch m s0 (State.setChip s c x) := by
  unfold State.setChip
  repeat' (first | with_reducible assumption | (with_reducible show Sub _ _; exact hm.of rfl) | simp -zeta only [Touch.upd_chipsI (hm.of rfl)] | extract_lets | refine Touch.ofPair ‹_ = (_, _)› ?_ | split | dsimp -zeta only | dsimp -zeta +zetaDelta only)
theorem State.setOedPort_touch {m : Nat} (hm : Sub 0x100000 m) {s0 : State} (s : State) (k : Nat) (x : OedPort) (h : Touch m s0 s) : Touch m s0 (State.setOedPort s k x) := by
  unfold State.setOedPort
  repeat' (first | with_reducible assumption | (with_reducible show Sub _ _; exact hm.of rfl) | simp -zeta only [Touch.upd_oedI (hm.of rfl)] | extract_lets | refine Touch.ofPair ‹_ = (_, _)› ?_ | split | dsimp -zeta only | dsimp -zeta +zetaDelta only)
theorem State.setTherm_touch {m : Nat} (hm : Sub 0x800000 m) {s0 : State} (s : State) (d : Nat) (x : Therm) (h : Touch m s0 s) : Touch m s0 (State.setTherm s d x) := by
  unfold State.setTherm
  repeat' (first | with_reducible assumption | (with_reducible show Sub _ _; exact hm.of rfl) | simp -zeta only [Touch.upd_thermsI (hm.of rfl)] | extract_lets | refine Touch.ofPair ‹_ = (_, _)› ?_ | split | dsimp -zeta only | dsimp -zeta +zetaDelta only)
theorem State.setMod_touch {m : Nat} (hm : Sub 0x4000 m) {s0 : State} (s : State) (mm : Nat) (x : Ucie) (h : Touch m s0 s) : Touch m s0 (State.setMod s mm x) := by
  unfold State.setMod
  repeat' (first | with_reducible assumption | (with_reducible show Sub _ _; exact hm.of rfl) | simp -zeta only [Touch.upd_ucieI (hm.of rfl)] | extract_lets | refine Touch.ofPair ‹_ = (_, _)› ?_ | split | dsimp -zeta only | dsimp -zeta +zetaDelta only)
theorem State.setNmc_touch {m : Nat} (hm : Sub 0x8000 m) {s0 : State} (s : State) (d : Nat) (x : Nmc) (h : Touch m s0 s) : Touch m s0 (State.setNmc s d x) := by
  unfold State.setNmc
  repeat' (first | with_reducible assumption | (with_reducible show Sub _ _; exact hm.of rfl) | simp -zeta only [Touch.upd_nmcsI (hm.of rfl)] | extract_lets | refine Touch.ofPair ‹_ = (_, _)› ?_ | split | dsimp -zeta only | dsimp -zeta +zetaDelta only)
theorem State.setCxl_touch {m : Nat} (hm : Sub 0x20000 m) {s0 : State} (s : State) (k : Nat) (x : Cxl) (h : Touch m s0 s) : Touch m s0 (State.setCxl s k x) := by
  unfold State.setCxl
  repeat' (first | with_reducible assumption | (with_reducible show Sub _ _; exact hm.of rfl) | simp -zeta only [Touch.upd_cxlsI (hm.of rfl)] | extract_lets | refine Touch.ofPair ‹_ = (_, _)› ?_ | split | dsimp -zeta only | dsimp -zeta +zetaDelta only)
theorem State.setHdr_touch {m : Nat} (hm : Sub 0x100000000 m) {s0 : State} (s : State) (d : Nat) (p : Nat) (x : Header) (h : Touch m s0 s) : Touch m s0 (State.setHdr s d p x) := by
  unfold State.setHdr
  repeat' (first | with_reducible assumption | (with_reducible show Sub _ _; exact hm.of rfl) | simp -zeta only [Touch.upd_hdrsI (hm.of rfl)] | extract_lets | refine Touch.ofPair ‹_ = (_, _)› ?_ | split | dsimp -zeta only | dsimp -zeta +zetaDelta only)
theorem State.setSec_touch {m : Nat} (hm : Sub 0x8000000 m) {s0 : State} (s : State) (x : Sec) (h : Touch m s0 s) : Touch m s0 (State.setSec s x) := by
  unfold State.setSec
  repeat' (first | with_reducible assumption | (with_reducible show Sub _ _; exact hm.of rfl) | simp -zeta only [Touch.upd_secI (hm.of rfl)] | extract_lets | refine Touch.ofPair ‹_ = (_, _)› ?_ | split | dsimp -zeta only | dsimp -zeta +zetaDelta only)
theorem State.setRas_touch {m : Nat} (hm : Sub 0x4000000 m) {s0 : State} (s : State) (x : Ras) (h : Touch m s0 s) : Touch m s0 (State.setRas s x) := by
  unfold State.setRas
  repeat' (first | with_reducible assumption | (with_reducible show Sub _ _; exact hm.of rfl) | simp -zeta only [Touch.upd_rasI (hm.of rfl)] | extract_lets | refine Touch.ofPair ‹_ = (_, _)› ?_ | split | dsimp -zeta only | dsimp -zeta +zetaDelta only)
theorem State.setRst_touch {m : Nat} (hm : Sub 0x2000000 m) {s0 : State} (s : State) (x : Rst) (h : Touch m s0 s) : Touch m s0 (State.setRst s x) := by
  unfold State.setRst
  repeat' (first | with_reducible assumption | (with_reducible show Sub _ _; exact hm.of rfl) | simp -zeta only [Touch.upd_rstI (hm.of rfl)] | extract_lets | refine Touch.ofPair ‹_ = (_, _)› ?_ | split | dsimp -zeta only | dsimp -zeta +zetaDelta only)
theorem State.setFlash_touch {m : Nat} (hm : Sub 0x20000000 m) {s0 : State} (s : State) (x : Flash) (h : Touch m s0 s) : Touch m s0 (State.setFlash s x) := by
  unfold State.setFlash
  repeat' (first | with_reducible assumption | (with_reducible show Sub _ _; exact hm.of rfl) | simp -zeta only [Touch.upd_flashI (hm.of rfl)] | extract_lets | refine Touch.ofPair ‹_ = (_, _)› ?_ | split | dsimp -zeta only | dsimp -zeta +zetaDelta only)
theorem State.setStream_touch {m : Nat} (hm : Sub 0x4 m) {s0 : State} (s : State) (f : Nat) (st : Stream) (y : StreamSt) (h : Touch m s0 s) : Touch m s0 (State.setStream s f st y) := by
  unfold State.setStream
  repeat' (first | (with_reducible first | assumption | apply State.setFloe_touch) | (with_reducible show Sub _ _; exact hm.of rfl) | extract_lets | refine Touch.ofPair ‹_ = (_, _)› ?_ | split | dsimp -zeta only | dsimp -zeta +zetaDelta only)
theorem State.rasReport_touch {m : Nat} (hm : Sub 0x4000000 m) {s0 : State} (s : State) (cls : Nat) (h : Touch m s0 s) : Touch m s0 (State.rasReport s cls) := by
  unfold State.rasReport
  repeat' (first | (with_reducible first | assumption | apply State.setRas_touch) | (with_reducible show Sub _ _; exact hm.of rfl) | extract_lets | refine Touch.ofPair ‹_ = (_, _)› ?_ | split | dsimp -zeta only | dsimp -zeta +zetaDelta only)
theorem State.siteErr_touch {m : Nat} (hm : Sub 0x4000000 m) {s0 : State} (s : State) (die : Nat) (page : Nat) (h : Touch m s0 s) : Touch m s0 (State.siteErr s die page) := by
  unfold State.siteErr
  repeat' (first | (with_reducible first | assumption | apply State.setRas_touch) | (with_reducible show Sub _ _; exact hm.of rfl) | extract_lets | refine Touch.ofPair ‹_ = (_, _)› ?_ | split | dsimp -zeta only | dsimp -zeta +zetaDelta only)
theorem State.countErr_touch {m : Nat} (hm : Sub 0x104000000 m) {s0 : State} (s : State) (die : Nat) (page : Nat) (h : Touch m s0 s) : Touch m s0 (State.countErr s die page) := by
  unfold State.countErr
  repeat' (first | (with_reducible first | assumption | apply State.setHdr_touch | apply State.siteErr_touch) | (with_reducible show Sub _ _; exact hm.of rfl) | extract_lets | refine Touch.ofPair ‹_ = (_, _)› ?_ | split | dsimp -zeta only | dsimp -zeta +zetaDelta only)
theorem State.msi_touch {m : Nat} (hm : Sub 0x40001000 m) {s0 : State} (s : State) (x : Endpoint) (h : Touch m s0 s) : Touch m s0 (State.msi s x) := by
  unfold State.msi
  repeat' (first | with_reducible assumption | (with_reducible show Sub _ _; exact hm.of rfl) | simp -zeta only [Touch.upd_msis_procI (hm.of rfl)] | extract_lets | refine Touch.ofPair ‹_ = (_, _)› ?_ | split | dsimp -zeta only | dsimp -zeta +zetaDelta only)
theorem State.pushRx_touch {m : Nat} (hm : Sub 0x40001400 m) {s0 : State} (s : State) (e : Nat) (ev : Bool) (l : List Byte) (credit : optParam (Option (Nat × Nat)) none) (h : Touch m s0 s) : Touch m s0 (State.pushRx s e ev l credit) := by
  unfold State.pushRx
  repeat' (first | (with_reducible first | assumption | apply State.setEp_touch | apply State.msi_touch) | (with_reducible show Sub _ _; exact hm.of rfl) | extract_lets | refine Touch.ofPair ‹_ = (_, _)› ?_ | split | dsimp -zeta only | dsimp -zeta +zetaDelta only)
theorem State.pushEvent_touch {m : Nat} (hm : Sub 0x40001400 m) {s0 : State} (s : State) (e : Nat) (part : Nat) (code : Nat) (die : Nat) (pl : List Byte) (h : Touch m s0 s) : Touch m s0 (State.pushEvent s e part code die pl) := by
  unfold State.pushEvent
  repeat' (first | (with_reducible first | assumption | apply State.pushRx_touch | apply State.setEp_touch) | (with_reducible show Sub _ _; exact hm.of rfl) | extract_lets | refine Touch.ofPair ‹_ = (_, _)› ?_ | split | dsimp -zeta only | dsimp -zeta +zetaDelta only)
theorem State.lostError_touch {m : Nat} (hm : Sub 0x144001400 m) {s0 : State} (s : State) (h : Touch m s0 s) : Touch m s0 (State.lostError s) := by
  unfold State.lostError
  repeat' (first | (with_reducible intro _) | (with_reducible first | assumption | apply State.setHdr_touch | apply State.pushEvent_touch | apply State.rasReport_touch | apply State.each_touch) | (with_reducible show Sub _ _; exact hm.of rfl) | extract_lets | refine Touch.ofPair ‹_ = (_, _)› ?_ | split | dsimp -zeta only | dsimp -zeta +zetaDelta only)
theorem State.event_touch {m : Nat} (hm : Sub 0x144001400 m) {s0 : State} (s : State) (e : Nat) (part : Nat) (code : Nat) (die : Nat) (pl : List Byte) (h : Touch m s0 s) : Touch m s0 (State.event s e part code die pl) := by
  unfold State.event
  repeat' (first | (with_reducible first | assumption | apply State.pushEvent_touch | apply State.setEp_touch | apply State.lostError_touch) | (with_reducible show Sub _ _; exact hm.of rfl) | extract_lets | refine Touch.ofPair ‹_ = (_, _)› ?_ | split | dsimp -zeta only | dsimp -zeta +zetaDelta only)
theorem State.eventMgmt_touch {m : Nat} (hm : Sub 0x144001400 m) {s0 : State} (s : State) (code : Nat) (die : Nat) (pl : List Byte) (h : Touch m s0 s) : Touch m s0 (State.eventMgmt s code die pl) := by
  unfold State.eventMgmt
  repeat' (first | (with_reducible intro _) | (with_reducible first | assumption | apply State.event_touch | apply State.each_touch) | (with_reducible show Sub _ _; exact hm.of rfl) | extract_lets | refine Touch.ofPair ‹_ = (_, _)› ?_ | split | dsimp -zeta only | dsimp -zeta +zetaDelta only)
theorem State.eventOwner_touch {m : Nat} (hm : Sub 0x144001400 m) {s0 : State} (s : State) (p : Nat) (code : Nat) (die : Nat) (pl : List Byte) (h : Touch m s0 s) : Touch m s0 (State.eventOwner s p code die pl) := by
  unfold State.eventOwner
  repeat' (first | (with_reducible first | assumption | apply State.event_touch) | (with_reducible show Sub _ _; exact hm.of rfl) | extract_lets | refine Touch.ofPair ‹_ = (_, _)› ?_ | split | dsimp -zeta only | dsimp -zeta +zetaDelta only)
theorem State.blockError_touch {m : Nat} (hm : Sub 0x144001400 m) {s0 : State} (s : State) (die : Nat) (page : Nat) (h : Touch m s0 s) : Touch m s0 (State.blockError s die page) := by
  unfold State.blockError
  repeat' (first | (with_reducible first | assumption | apply State.eventMgmt_touch) | (with_reducible show Sub _ _; exact hm.of rfl) | extract_lets | refine Touch.ofPair ‹_ = (_, _)› ?_ | split | dsimp -zeta only | dsimp -zeta +zetaDelta only)
theorem State.raise_touch {m : Nat} (hm : Sub 0x144001400 m) {s0 : State} (s : State) (die : Nat) (page : Nat) (bit : Nat) (h : Touch m s0 s) : Touch m s0 (State.raise s die page bit) := by
  unfold State.raise
  repeat' (first | (with_reducible first | assumption | apply State.setHdr_touch | apply State.siteErr_touch | apply State.rasReport_touch | apply State.blockError_touch) | (with_reducible show Sub _ _; exact hm.of rfl) | extract_lets | refine Touch.ofPair ‹_ = (_, _)› ?_ | split | dsimp -zeta only | dsimp -zeta +zetaDelta only)
theorem State.respond_touch {m : Nat} (hm : Sub 0x40003400 m) {s0 : State} (s : State) (c : GwyPkt) (st : Nat) (det : Nat) (arg0 : Nat) (arg1 : Nat) (pl : List Byte) (h : Touch m s0 s) : Touch m s0 (State.respond s c st det arg0 arg1 pl) := by
  unfold State.respond
  repeat' (first | (with_reducible first | assumption | apply State.pushRx_touch) | (with_reducible show Sub _ _; exact hm.of rfl) | simp -zeta only [Touch.upd_i3cI (hm.of rfl)] | extract_lets | refine Touch.ofPair ‹_ = (_, _)› ?_ | split | dsimp -zeta only | dsimp -zeta +zetaDelta only)
theorem State.linkReset_touch {m : Nat} (hm : Sub 0x40001400 m) {s0 : State} (s : State) (e : Nat) (h : Touch m s0 s) : Touch m s0 (State.linkReset s e) := by
  unfold State.linkReset
  repeat' (first | (with_reducible first | assumption | apply State.setEp_touch | apply State.msi_touch) | (with_reducible show Sub _ _; exact hm.of rfl) | extract_lets | refine Touch.ofPair ‹_ = (_, _)› ?_ | split | dsimp -zeta only | dsimp -zeta +zetaDelta only)

end Sys2Proof.Machine
end

