-- ==== Sys2Proof/Laws/TouchKeys.lean ====
section
/-! SUPPORT. What every operation of Machine/Keys.lean may touch (Sys2Proof.Machine.Touch). -/

namespace Sys2Proof.Machine

set_option linter.all false

theorem State.setComp_touch {m : Nat} (hm : Sub 0x20000000 m) {s0 : State} (s : State) (c : Nat) (x : Comp) (h : Touch m s0 s) : Touch m s0 (State.setComp s c x) := by
  unfold State.setComp
  repeat' (first | (with_reducible first | assumption | apply State.setFlash_touch) | (with_reducible show Sub _ _; exact hm.of rfl) | extract_lets | refine Touch.ofPair ‹_ = (_, _)› ?_ | split | dsimp -zeta only | dsimp -zeta +zetaDelta only)

end Sys2Proof.Machine
end

