-- ==== Sys2Proof/Laws/TouchRouter.lean ====
section
/-! SUPPORT. What every operation of Machine/Router.lean may touch (Sys2Proof.Machine.Touch). -/

namespace Sys2Proof.Machine

set_option linter.all false

theorem State.discard_touch {m : Nat} (hm : Sub 0x40000 m) {s0 : State} (s : State) (code : Nat) (h : Touch m s0 s) : Touch m s0 (State.discard s code) := by
  unfold State.discard
  repeat' (first | (with_reducible first | assumption | apply State.setRouter_touch) | (with_reducible show Sub _ _; exact hm.of rfl) | extract_lets | refine Touch.ofPair ‹_ = (_, _)› ?_ | split | dsimp -zeta only | dsimp -zeta +zetaDelta only)
theorem State.pick_touch {m : Nat} (hm : Sub 0x40000 m) {s0 t : State} {s : State} {k : Nat} {x : _} (e : State.pick s k = some (x, t)) (h : Touch m s0 s) : Touch m s0 t := by
  unfold State.pick at e
  dsimp only at e
  split at e
  · cases e
  · obtain ⟨y, _, hy⟩ := Option.map_eq_some_iff.mp e
    have k := (Prod.mk.inj hy).2
    rw [← k]
    split
    · exact State.setRouter_touch (hm.of rfl) _ _ (State.setPort_touch (hm.of rfl) _ _ _ h)
    · exact State.setPort_touch (hm.of rfl) _ _ _ h
theorem State.emit_touch {m : Nat} (hm : Sub 0x40000 m) {s0 : State} (s : State) (k : Nat) (p : MeshPkt) (stomp : Bool) (h : Touch m s0 s) : Touch m s0 (State.emit s k p stomp) := by
  unfold State.emit
  repeat' (first | (with_reducible first | assumption | apply State.setRouter_touch | apply State.setPort_touch) | (with_reducible show Sub _ _; exact hm.of rfl) | extract_lets | refine Touch.ofPair ‹_ = (_, _)› ?_ | split | dsimp -zeta only | dsimp -zeta +zetaDelta only)
theorem State.dropQueued_touch {m : Nat} (hm : Sub 0x40000 m) {s0 : State} (s : State) (q : Queued) (code : Nat) (h : Touch m s0 s) : Touch m s0 (State.dropQueued s q code) := by
  unfold State.dropQueued
  repeat' (first | (with_reducible first | assumption | apply State.setPort_touch | apply State.discard_touch) | (with_reducible show Sub _ _; exact hm.of rfl) | extract_lets | refine Touch.ofPair ‹_ = (_, _)› ?_ | split | dsimp -zeta only | dsimp -zeta +zetaDelta only)
theorem State.drainOne_touch {m : Nat} (hm : Sub 0x40000 m) {s0 : State} (s : State) (k : Nat) (h : Touch m s0 s) : Touch m s0 (State.drainOne s k) := by
  unfold State.drainOne
  repeat' (first | (with_reducible first | assumption | apply State.dropQueued_touch | apply State.emit_touch) | (with_reducible show Sub _ _; exact hm.of rfl) | refine State.pick_touch (hm.of rfl) ‹_› ?_ | extract_lets | refine Touch.ofPair ‹_ = (_, _)› ?_ | split | dsimp -zeta only | dsimp -zeta +zetaDelta only)
theorem State.drain_touch {m : Nat} (hm : Sub 0x40000 m) {s0 : State} (s : State) (k : Nat) (h : Touch m s0 s) : Touch m s0 (State.drain s k) := by
  unfold State.drain
  repeat' (first | (with_reducible intro _) | (with_reducible first | assumption | apply State.drainOne_touch | apply State.each_touch) | (with_reducible show Sub _ _; exact hm.of rfl) | extract_lets | refine Touch.ofPair ‹_ = (_, _)› ?_ | split | dsimp -zeta only | dsimp -zeta +zetaDelta only)
theorem State.enqueue_touch {m : Nat} (hm : Sub 0x40000 m) {s0 : State} (s : State) (inp : Nat) (k : Nat) (p : MeshPkt) (stomp : Bool) (h : Touch m s0 s) : Touch m s0 (State.enqueue s inp k p stomp) := by
  unfold State.enqueue
  repeat' (first | (with_reducible first | assumption | apply State.setPort_touch | apply State.drain_touch) | (with_reducible show Sub _ _; exact hm.of rfl) | extract_lets | refine Touch.ofPair ‹_ = (_, _)› ?_ | split | dsimp -zeta only | dsimp -zeta +zetaDelta only)
theorem State.sendOn_touch {m : Nat} (hm : Sub 0x40000 m) {s0 : State} (s : State) (inp : Nat) (k : Nat) (p : MeshPkt) (stomp : Bool) (h : Touch m s0 s) : Touch m s0 (State.sendOn s inp k p stomp) := by
  unfold State.sendOn
  repeat' (first | (with_reducible first | assumption | apply State.enqueue_touch | apply State.discard_touch) | (with_reducible show Sub _ _; exact hm.of rfl) | extract_lets | refine Touch.ofPair ‹_ = (_, _)› ?_ | split | dsimp -zeta only | dsimp -zeta +zetaDelta only)
theorem State.arrive_touch {m : Nat} (hm : Sub 0x40000 m) {s0 : State} (s : State) (port : Nat) (p : MeshPkt) (stomp : Bool) (h : Touch m s0 s) : Touch m s0 (State.arrive s port p stomp) := by
  unfold State.arrive
  repeat' (first | (with_reducible first | assumption | apply State.setRouter_touch) | (with_reducible show Sub _ _; exact hm.of rfl) | extract_lets | refine Touch.ofPair ‹_ = (_, _)› ?_ | split | dsimp -zeta only | dsimp -zeta +zetaDelta only)
theorem State.inject_touch {m : Nat} (hm : Sub 0x40000 m) {s0 : State} (s : State) (p : MeshPkt) (stomp : Bool) (h : Touch m s0 s) : Touch m s0 (State.inject s p stomp) := by
  unfold State.inject
  repeat' (first | (with_reducible first | assumption | apply State.arrive_touch | apply State.discard_touch | apply State.sendOn_touch) | (with_reducible show Sub _ _; exact hm.of rfl) | extract_lets | refine Touch.ofPair ‹_ = (_, _)› ?_ | split | dsimp -zeta only | dsimp -zeta +zetaDelta only)
theorem State.sendFc_touch {m : Nat} (hm : Sub 0x40000 m) {s0 : State} (s : State) (k : Nat) (h : Touch m s0 s) : Touch m s0 (State.sendFc s k) := by
  unfold State.sendFc
  repeat' (first | (with_reducible first | assumption | apply State.setRouter_touch | apply State.setPort_touch) | (with_reducible show Sub _ _; exact hm.of rfl) | extract_lets | refine Touch.ofPair ‹_ = (_, _)› ?_ | split | dsimp -zeta only | dsimp -zeta +zetaDelta only)
theorem State.fcChanged_touch {m : Nat} (hm : Sub 0x40000 m) {s0 : State} (s : State) (k : Nat) (h : Touch m s0 s) : Touch m s0 (State.fcChanged s k) := by
  unfold State.fcChanged
  repeat' (first | (with_reducible first | assumption | apply State.sendFc_touch) | (with_reducible show Sub _ _; exact hm.of rfl) | extract_lets | refine Touch.ofPair ‹_ = (_, _)› ?_ | split | dsimp -zeta only | dsimp -zeta +zetaDelta only)
theorem State.fcSweep_touch {m : Nat} (hm : Sub 0x40000 m) {s0 : State} (s : State) (h : Touch m s0 s) : Touch m s0 (State.fcSweep s) := by
  unfold State.fcSweep
  repeat' (first | (with_reducible intro _) | (with_reducible first | assumption | apply State.fcChanged_touch | apply State.each_touch) | (with_reducible show Sub _ _; exact hm.of rfl) | extract_lets | refine Touch.ofPair ‹_ = (_, _)› ?_ | split | dsimp -zeta only | dsimp -zeta +zetaDelta only)
theorem State.flood_touch {m : Nat} (hm : Sub 0x40000 m) {s0 : State} (s : State) (but : Nat) (pl : List Byte) (h : Touch m s0 s) : Touch m s0 (State.flood s but pl) := by
  unfold State.flood
  repeat' (first | (with_reducible intro _) | (with_reducible first | assumption | apply State.sendOn_touch | apply State.each_touch) | (with_reducible show Sub _ _; exact hm.of rfl) | extract_lets | refine Touch.ofPair ‹_ = (_, _)› ?_ | split | dsimp -zeta only | dsimp -zeta +zetaDelta only)
theorem State.announce_touch {m : Nat} (hm : Sub 0x40000 m) {s0 : State} (s : State) (k : Nat) (up : Bool) (h : Touch m s0 s) : Touch m s0 (State.announce s k up) := by
  unfold State.announce
  repeat' (first | (with_reducible first | assumption | apply State.setRouter_touch | apply State.setPort_touch | apply State.flood_touch) | (with_reducible show Sub _ _; exact hm.of rfl) | extract_lets | refine Touch.ofPair ‹_ = (_, _)› ?_ | split | dsimp -zeta only | dsimp -zeta +zetaDelta only)
theorem State.notice_touch {m : Nat} (hm : Sub 0x40000 m) {s0 : State} (s : State) (k : Nat) (up : Bool) (h : Touch m s0 s) : Touch m s0 (State.notice s k up) := by
  unfold State.notice
  repeat' (first | (with_reducible first | assumption | apply State.setPort_touch | apply State.announce_touch) | (with_reducible show Sub _ _; exact hm.of rfl) | extract_lets | refine Touch.ofPair ‹_ = (_, _)› ?_ | split | dsimp -zeta only | dsimp -zeta +zetaDelta only)
theorem State.linkEvent_touch {m : Nat} (hm : Sub 0x144001400 m) {s0 : State} (s : State) (k : Nat) (h : Touch m s0 s) : Touch m s0 (State.linkEvent s k) := by
  unfold State.linkEvent
  repeat' (first | (with_reducible first | assumption | apply State.eventMgmt_touch) | (with_reducible show Sub _ _; exact hm.of rfl) | extract_lets | refine Touch.ofPair ‹_ = (_, _)› ?_ | split | dsimp -zeta only | dsimp -zeta +zetaDelta only)
theorem State.raiseRouter_touch {m : Nat} (hm : Sub 0x144001400 m) {s0 : State} (s : State) (bit : Nat) (h : Touch m s0 s) : Touch m s0 (State.raiseRouter s bit) := by
  unfold State.raiseRouter
  repeat' (first | (with_reducible first | assumption | apply State.raise_touch) | (with_reducible show Sub _ _; exact hm.of rfl) | extract_lets | refine Touch.ofPair ‹_ = (_, _)› ?_ | split | dsimp -zeta only | dsimp -zeta +zetaDelta only)
theorem State.portTo_touch {m : Nat} (hm : Sub 0x144041400 m) {s0 : State} (s : State) (k : Nat) (st : PortSt) (h : Touch m s0 s) : Touch m s0 (State.portTo s k st) := by
  unfold State.portTo
  repeat' (first | (with_reducible first | assumption | apply State.setPort_touch | apply State.linkEvent_touch) | (with_reducible show Sub _ _; exact hm.of rfl) | extract_lets | refine Touch.ofPair ‹_ = (_, _)› ?_ | split | dsimp -zeta only | dsimp -zeta +zetaDelta only)
theorem State.stompPassage_touch {m : Nat} (hm : Sub 0x40000 m) {s0 : State} (s : State) (k : Nat) (h : Touch m s0 s) : Touch m s0 (State.stompPassage s k) := by
  unfold State.stompPassage
  repeat' (first | (with_reducible first | assumption | apply State.setRouter_touch | apply State.setPort_touch) | (with_reducible show Sub _ _; exact hm.of rfl) | extract_lets | refine Touch.ofPair ‹_ = (_, _)› ?_ | split | dsimp -zeta only | dsimp -zeta +zetaDelta only)
theorem State.takeDown_touch {m : Nat} (hm : Sub 0x144041400 m) {s0 : State} (s : State) (k : Nat) (st : PortSt) (h : Touch m s0 s) : Touch m s0 (State.takeDown s k st) := by
  unfold State.takeDown
  repeat' (first | (with_reducible intro _) | (with_reducible first | assumption | apply State.setRouter_touch | apply State.setPort_touch | apply State.fcSweep_touch | apply State.stompPassage_touch | apply State.dropQueued_touch | apply State.linkEvent_touch | apply State.raiseRouter_touch | apply State.notice_touch | apply State.each_touch) | (with_reducible show Sub _ _; exact hm.of rfl) | extract_lets | refine Touch.ofPair ‹_ = (_, _)› ?_ | split | dsimp -zeta only | dsimp -zeta +zetaDelta only)
theorem State.bringUp_touch {m : Nat} (hm : Sub 0x944441400 m) {s0 : State} (s : State) (k : Nat) (h : Touch m s0 s) : Touch m s0 (State.bringUp s k) := by
  unfold State.bringUp
  repeat' (first | (with_reducible first | assumption | apply State.setPort_touch | apply State.portTo_touch | apply State.notice_touch) | (with_reducible show Sub _ _; exact hm.of rfl) | simp -zeta only [Touch.upd_freshI (hm.of rfl)] | simp -zeta only [Touch.upd_timeI (hm.of rfl)] | extract_lets | refine Touch.ofPair ‹_ = (_, _)› ?_ | split | dsimp -zeta only | dsimp -zeta +zetaDelta only)
theorem State.announceAll_touch {m : Nat} (hm : Sub 0x40000 m) {s0 : State} (s : State) (h : Touch m s0 s) : Touch m s0 (State.announceAll s) := by
  unfold State.announceAll
  repeat' (first | (with_reducible intro _) | (with_reducible first | assumption | apply State.notice_touch | apply State.each_touch) | (with_reducible show Sub _ _; exact hm.of rfl) | extract_lets | refine Touch.ofPair ‹_ = (_, _)› ?_ | split | dsimp -zeta only | dsimp -zeta +zetaDelta only)
theorem State.oedFlush_touch {m : Nat} (hm : Sub 0x100000 m) {s0 : State} (s : State) (n : Nat) (h : Touch m s0 s) : Touch m s0 (State.oedFlush s n) := by
  unfold State.oedFlush
  repeat' (first | (with_reducible first | assumption | apply State.setOedPort_touch) | (with_reducible show Sub _ _; exact hm.of rfl) | simp -zeta only [Touch.upd_oedI (hm.of rfl)] | extract_lets | refine Touch.ofPair ‹_ = (_, _)› ?_ | split | dsimp -zeta only | dsimp -zeta +zetaDelta only)
theorem State.oedSend_touch {m : Nat} (hm : Sub 0x100000 m) {s0 : State} (s : State) (n : Nat) (f : OedFrame) (h : Touch m s0 s) : Touch m s0 (State.oedSend s n f) := by
  unfold State.oedSend
  repeat' (first | (with_reducible first | assumption | apply State.setOedPort_touch | apply State.oedFlush_touch) | (with_reducible show Sub _ _; exact hm.of rfl) | extract_lets | refine Touch.ofPair ‹_ = (_, _)› ?_ | split | dsimp -zeta only | dsimp -zeta +zetaDelta only)

end Sys2Proof.Machine
end

