-- ==== Sys2Proof/Laws/TouchMesh.lean ====
section
/-! SUPPORT. What every operation of Machine/Mesh.lean may touch (Sys2Proof.Machine.Touch). -/

namespace Sys2Proof.Machine

set_option linter.all false

theorem execMeshPacket_touch {m : Nat} (hm : Sub 0x40000 m) {s0 : State} (port : Nat) (bytes : List Byte) (s : State) (h : Touch m s0 s) : TouchO m s0 (execMeshPacket port bytes s) := by
  unfold execMeshPacket
  repeat' (first | (with_reducible first | assumption | apply TouchO.next | apply State.setPort_touch | apply State.fcChanged_touch | apply State.discard_touch | apply State.sendOn_touch) | (with_reducible show Sub _ _; exact hm.of rfl) | extract_lets | refine Touch.ofPair ‹_ = (_, _)› ?_ | split | dsimp -zeta only | dsimp -zeta +zetaDelta only)
theorem State.tagFail_touch {m : Nat} (hm : Sub 0x144041400 m) {s0 : State} (s : State) (k : Nat) (h : Touch m s0 s) : Touch m s0 (State.tagFail s k) := by
  unfold State.tagFail
  repeat' (first | (with_reducible first | assumption | apply State.setPort_touch | apply State.takeDown_touch | apply State.raiseRouter_touch) | (with_reducible show Sub _ _; exact hm.of rfl) | extract_lets | refine Touch.ofPair ‹_ = (_, _)› ?_ | split | dsimp -zeta only | dsimp -zeta +zetaDelta only)
theorem State.stompOut_touch {m : Nat} (hm : Sub 0x40000 m) {s0 : State} (s : State) (inp : Nat) (out : Nat) (p : MeshPkt) (bad : Bool) (h : Touch m s0 s) : Touch m s0 (State.stompOut s inp out p bad) := by
  unfold State.stompOut
  repeat' (first | (with_reducible first | assumption | apply State.setRouter_touch | apply State.setPort_touch) | (with_reducible show Sub _ _; exact hm.of rfl) | extract_lets | refine Touch.ofPair ‹_ = (_, _)› ?_ | split | dsimp -zeta only | dsimp -zeta +zetaDelta only)
theorem State.deliverTo_touch {m : Nat} (hm : Sub 0x40000 m) {s0 : State} (s : State) (k : Nat) (p : MeshPkt) (stomp : Bool) (h : Touch m s0 s) : Touch m s0 (State.deliverTo s k p stomp) := by
  unfold State.deliverTo
  repeat' (first | (with_reducible first | assumption | apply State.arrive_touch | apply State.discard_touch) | (with_reducible show Sub _ _; exact hm.of rfl) | extract_lets | refine Touch.ofPair ‹_ = (_, _)› ?_ | split | dsimp -zeta only | dsimp -zeta +zetaDelta only)
theorem execTail_touch {m : Nat} (hm : Sub 0x144041400 m) {s0 : State} (port : Nat) (block : List Byte) (tagOk : Bool) (s : State) (h : Touch m s0 s) : TouchO m s0 (execTail port block tagOk s) := by
  unfold execTail
  repeat' (first | (with_reducible first | assumption | apply TouchO.next | apply State.deliverTo_touch | apply State.setPort_touch | apply State.fcSweep_touch | apply State.tagFail_touch | apply State.fcChanged_touch | apply State.discard_touch | apply State.stompOut_touch) | (with_reducible show Sub _ _; exact hm.of rfl) | extract_lets | refine Touch.ofPair ‹_ = (_, _)› ?_ | split | dsimp -zeta only | dsimp -zeta +zetaDelta only)
theorem State.takeArrived_touch {m : Nat} (hm : Sub 0x40000 m) {s0 t : State} {s : State} {g : Arrived → Bool} {x : _} (e : State.takeArrived s g = some (x, t)) (h : Touch m s0 s) : Touch m s0 t := by
  unfold State.takeArrived at e
  obtain ⟨y, _, hy⟩ := Option.map_eq_some_iff.mp e
  have k := (Prod.mk.inj hy).2
  rw [← k]
  exact State.fcChanged_touch (hm.of rfl) _ _ (State.setRouter_touch (hm.of rfl) _ _ h)
theorem State.takePkt_touch {m : Nat} (hm : Sub 0x40000 m) {s0 t : State} {s : State} {g : MeshPkt → Bool} {x : _} (e : State.takePkt s g = some (x, t)) (h : Touch m s0 s) : Touch m s0 t := by
  unfold State.takePkt at e
  exact State.takeArrived_touch (hm.of rfl) e h
theorem execEject_touch {m : Nat} (hm : Sub 0x40000 m) {s0 : State} (s : State) (h : Touch m s0 s) : TouchO m s0 (execEject s) := by
  unfold execEject
  repeat' (first | (with_reducible first | assumption | apply TouchO.next | apply State.discard_touch) | (with_reducible show Sub _ _; exact hm.of rfl) | refine State.takePkt_touch (hm.of rfl) ‹_› ?_ | extract_lets | refine Touch.ofPair ‹_ = (_, _)› ?_ | split | dsimp -zeta only | dsimp -zeta +zetaDelta only)
theorem execLifetime_touch {m : Nat} (hm : Sub 0x40000 m) {s0 : State} (s : State) (h : Touch m s0 s) : TouchO m s0 (execLifetime s) := by
  unfold execLifetime
  repeat' (first | (with_reducible intro _) | (with_reducible first | assumption | apply TouchO.next | apply State.setRouter_touch | apply State.setPort_touch | apply State.fcSweep_touch | apply State.discard_touch | apply State.dropQueued_touch | apply State.each_touch) | (with_reducible show Sub _ _; exact hm.of rfl) | extract_lets | refine Touch.ofPair ‹_ = (_, _)› ?_ | split | dsimp -zeta only | dsimp -zeta +zetaDelta only)
theorem execHelloSend_touch {m : Nat} (hm : Sub 0x40000 m) {s0 : State} (port : Nat) (s : State) (h : Touch m s0 s) : TouchO m s0 (execHelloSend port s) := by
  unfold execHelloSend
  repeat' (first | (with_reducible first | assumption | apply TouchO.next | apply State.sendOn_touch) | (with_reducible show Sub _ _; exact hm.of rfl) | extract_lets | refine Touch.ofPair ‹_ = (_, _)› ?_ | split | dsimp -zeta only | dsimp -zeta +zetaDelta only)
theorem State.sendKey_touch {m : Nat} (hm : Sub 0x800040000 m) {s0 : State} (s : State) (k : Nat) (h : Touch m s0 s) : Touch m s0 (State.sendKey s k) := by
  unfold State.sendKey
  repeat' (first | (with_reducible first | assumption | apply State.sendOn_touch) | (with_reducible show Sub _ _; exact hm.of rfl) | simp -zeta only [Touch.upd_freshI (hm.of rfl)] | extract_lets | refine Touch.ofPair ‹_ = (_, _)› ?_ | split | dsimp -zeta only | dsimp -zeta +zetaDelta only)
theorem execHello_touch {m : Nat} (hm : Sub 0x944041400 m) {s0 : State} (s : State) (h : Touch m s0 s) : TouchO m s0 (execHello s) := by
  unfold execHello
  repeat' (first | (with_reducible first | assumption | apply TouchO.next | apply State.setPort_touch | apply State.sendKey_touch | apply State.takeDown_touch | apply State.discard_touch | apply State.portTo_touch) | (with_reducible show Sub _ _; exact hm.of rfl) | refine State.takeArrived_touch (hm.of rfl) ‹_› ?_ | simp -zeta only [Touch.upd_freshI (hm.of rfl)] | extract_lets | refine Touch.ofPair ‹_ = (_, _)› ?_ | split | dsimp -zeta only | dsimp -zeta +zetaDelta only)
theorem State.formSession_touch {m : Nat} (hm : Sub 0x800100000 m) {s0 : State} (s : State) (port : Nat) (peer : Nat) (p : MeshPkt) (h : Touch m s0 s) : Touch m s0 (State.formSession s port peer p) := by
  unfold State.formSession
  repeat' (first | (with_reducible first | assumption | apply State.oedSend_touch) | (with_reducible show Sub _ _; exact hm.of rfl) | simp -zeta only [Touch.upd_oed_freshI (hm.of rfl)] | extract_lets | refine Touch.ofPair ‹_ = (_, _)› ?_ | split | dsimp -zeta only | dsimp -zeta +zetaDelta only)
theorem execMgmt_touch {m : Nat} (hm : Sub 0x944541400 m) {s0 : State} (msg : MgmtMsg) (s : State) (h : Touch m s0 s) : TouchO m s0 (execMgmt msg s) := by
  unfold execMgmt
  repeat' (first | (with_reducible first | assumption | apply TouchO.next | apply State.formSession_touch | apply State.discard_touch | apply State.bringUp_touch | apply State.linkEvent_touch) | (with_reducible show Sub _ _; exact hm.of rfl) | refine State.takeArrived_touch (hm.of rfl) ‹_› ?_ | extract_lets | refine Touch.ofPair ‹_ = (_, _)› ?_ | split | dsimp -zeta only | dsimp -zeta +zetaDelta only)
theorem execKeyingRetry_touch {m : Nat} (hm : Sub 0x800040000 m) {s0 : State} (port : Nat) (s : State) (h : Touch m s0 s) : TouchO m s0 (execKeyingRetry port s) := by
  unfold execKeyingRetry
  repeat' (first | (with_reducible first | assumption | apply TouchO.next | apply State.sendKey_touch) | (with_reducible show Sub _ _; exact hm.of rfl) | extract_lets | refine Touch.ofPair ‹_ = (_, _)› ?_ | split | dsimp -zeta only | dsimp -zeta +zetaDelta only)
theorem execEpoch_touch {m : Nat} (hm : Sub 0x40000 m) {s0 : State} (s : State) (h : Touch m s0 s) : TouchO m s0 (execEpoch s) := by
  unfold execEpoch
  repeat' (first | (with_reducible first | assumption | apply TouchO.next | apply State.setRouter_touch | apply State.flood_touch | apply State.discard_touch) | (with_reducible show Sub _ _; exact hm.of rfl) | refine State.takePkt_touch (hm.of rfl) ‹_› ?_ | extract_lets | refine Touch.ofPair ‹_ = (_, _)› ?_ | split | dsimp -zeta only | dsimp -zeta +zetaDelta only)
theorem execEpochSwitch_touch {m : Nat} (hm : Sub 0x40000 m) {s0 : State} (s : State) (h : Touch m s0 s) : TouchO m s0 (execEpochSwitch s) := by
  unfold execEpochSwitch
  repeat' (first | (with_reducible first | assumption | apply TouchO.next | apply State.setRouter_touch) | (with_reducible show Sub _ _; exact hm.of rfl) | extract_lets | refine Touch.ofPair ‹_ = (_, _)› ?_ | split | dsimp -zeta only | dsimp -zeta +zetaDelta only)
theorem execEpochBankFree_touch {m : Nat} (hm : Sub 0xC0000 m) {s0 : State} (s : State) (h : Touch m s0 s) : TouchO m s0 (execEpochBankFree s) := by
  unfold execEpochBankFree
  repeat' (first | (with_reducible intro _) | (with_reducible first | assumption | apply TouchO.next | apply State.setRouter_touch | apply State.setChip_touch | apply State.each_touch) | (with_reducible show Sub _ _; exact hm.of rfl) | extract_lets | refine Touch.ofPair ‹_ = (_, _)› ?_ | split | dsimp -zeta only | dsimp -zeta +zetaDelta only)
theorem execFc_touch {m : Nat} (hm : Sub 0x40000 m) {s0 : State} (port : Nat) (block : List Byte) (s : State) (h : Touch m s0 s) : TouchO m s0 (execFc port block s) := by
  unfold execFc
  repeat' (first | (with_reducible first | assumption | apply TouchO.next | apply State.setPort_touch | apply State.fcSweep_touch | apply State.discard_touch | apply State.drain_touch) | (with_reducible show Sub _ _; exact hm.of rfl) | extract_lets | refine Touch.ofPair ‹_ = (_, _)› ?_ | split | dsimp -zeta only | dsimp -zeta +zetaDelta only)
theorem execFcRefresh_touch {m : Nat} (hm : Sub 0x40000 m) {s0 : State} (port : Nat) (s : State) (h : Touch m s0 s) : TouchO m s0 (execFcRefresh port s) := by
  unfold execFcRefresh
  repeat' (first | (with_reducible first | assumption | apply TouchO.next | apply State.sendFc_touch) | (with_reducible show Sub _ _; exact hm.of rfl) | extract_lets | refine Touch.ofPair ‹_ = (_, _)› ?_ | split | dsimp -zeta only | dsimp -zeta +zetaDelta only)
theorem execFcTimeout_touch {m : Nat} (hm : Sub 0x40000 m) {s0 : State} (port : Nat) (s : State) (h : Touch m s0 s) : TouchO m s0 (execFcTimeout port s) := by
  unfold execFcTimeout
  repeat' (first | (with_reducible first | assumption | apply TouchO.next | apply State.setPort_touch) | (with_reducible show Sub _ _; exact hm.of rfl) | extract_lets | refine Touch.ofPair ‹_ = (_, _)› ?_ | split | dsimp -zeta only | dsimp -zeta +zetaDelta only)
theorem execEscapeTimeout_touch {m : Nat} (hm : Sub 0x40000 m) {s0 : State} (port : Nat) (s : State) (h : Touch m s0 s) : TouchO m s0 (execEscapeTimeout port s) := by
  unfold execEscapeTimeout
  repeat' (first | (with_reducible first | assumption | apply TouchO.next | apply State.setPort_touch | apply State.fcSweep_touch | apply State.arrive_touch | apply State.dropQueued_touch | apply State.sendOn_touch) | (with_reducible show Sub _ _; exact hm.of rfl) | extract_lets | refine Touch.ofPair ‹_ = (_, _)› ?_ | split | dsimp -zeta only | dsimp -zeta +zetaDelta only)
theorem execLaneLock_touch {m : Nat} (hm : Sub 0x40000 m) {s0 : State} (port : Nat) (s : State) (h : Touch m s0 s) : TouchO m s0 (execLaneLock port s) := by
  unfold execLaneLock
  repeat' (first | (with_reducible first | assumption | apply TouchO.next | apply State.setPort_touch) | (with_reducible show Sub _ _; exact hm.of rfl) | extract_lets | refine Touch.ofPair ‹_ = (_, _)› ?_ | split | dsimp -zeta only | dsimp -zeta +zetaDelta only)
theorem State.unlock_touch {m : Nat} (hm : Sub 0x1440C1400 m) {s0 : State} (s : State) (k : Nat) (n : Nat) (h : Touch m s0 s) : Touch m s0 (State.unlock s k n) := by
  unfold State.unlock
  repeat' (first | (with_reducible first | assumption | apply State.takeDown_touch | apply State.setChip_touch) | (with_reducible show Sub _ _; exact hm.of rfl) | extract_lets | refine Touch.ofPair ‹_ = (_, _)› ?_ | split | dsimp -zeta only | dsimp -zeta +zetaDelta only)
theorem State.loseLanes_touch {m : Nat} (hm : Sub 0x1440C1400 m) {s0 : State} (s : State) (k : Nat) (lost : DWord) (h : Touch m s0 s) : Touch m s0 (State.loseLanes s k lost) := by
  unfold State.loseLanes
  repeat' (first | (with_reducible first | assumption | apply State.setChip_touch | apply State.unlock_touch) | (with_reducible show Sub _ _; exact hm.of rfl) | extract_lets | refine Touch.ofPair ‹_ = (_, _)› ?_ | split | dsimp -zeta only | dsimp -zeta +zetaDelta only)
theorem execPortLossOfLock_touch {m : Nat} (hm : Sub 0x1440C1400 m) {s0 : State} (port : Nat) (lost : DWord) (s : State) (h : Touch m s0 s) : TouchO m s0 (execPortLossOfLock port lost s) := by
  unfold execPortLossOfLock
  repeat' (first | (with_reducible first | assumption | apply TouchO.next | apply State.loseLanes_touch) | (with_reducible show Sub _ _; exact hm.of rfl) | extract_lets | refine Touch.ofPair ‹_ = (_, _)› ?_ | split | dsimp -zeta only | dsimp -zeta +zetaDelta only)
theorem execBlockLock_touch {m : Nat} (hm : Sub 0x1440C1400 m) {s0 : State} (port : Nat) (slot : Nat) (sync : List (BitVec 2)) (s : State) (h : Touch m s0 s) : TouchO m s0 (execBlockLock port slot sync s) := by
  unfold execBlockLock
  repeat' (first | (with_reducible first | assumption | apply TouchO.next | apply State.setPort_touch | apply State.setChip_touch | apply State.loseLanes_touch) | (with_reducible show Sub _ _; exact hm.of rfl) | extract_lets | refine Touch.ofPair ‹_ = (_, _)› ?_ | split | dsimp -zeta only | dsimp -zeta +zetaDelta only)
theorem execAlignmentMarker_touch {m : Nat} (hm : Sub 0x1440C1400 m) {s0 : State} (port : Nat) (marks : List (Nat × List Byte)) (s : State) (h : Touch m s0 s) : TouchO m s0 (execAlignmentMarker port marks s) := by
  unfold execAlignmentMarker
  repeat' (first | (with_reducible first | assumption | apply TouchO.next | apply State.setPort_touch | apply State.takeDown_touch | apply State.setChip_touch | apply State.unlock_touch | apply State.portTo_touch | apply State.loseLanes_touch) | (with_reducible show Sub _ _; exact hm.of rfl) | extract_lets | refine Touch.ofPair ‹_ = (_, _)› ?_ | split | dsimp -zeta only | dsimp -zeta +zetaDelta only)
theorem execAlignmentMarkerSend_touch {m : Nat} (hm : Sub 0x40000 m) {s0 : State} (port : Nat) (slot : Nat) (s : State) (h : Touch m s0 s) : TouchO m s0 (execAlignmentMarkerSend port slot s) := by
  unfold execAlignmentMarkerSend
  repeat' (first | (with_reducible first | assumption | apply TouchO.next | apply State.setRouter_touch) | (with_reducible show Sub _ _; exact hm.of rfl) | extract_lets | refine Touch.ofPair ‹_ = (_, _)› ?_ | split | dsimp -zeta only | dsimp -zeta +zetaDelta only)

end Sys2Proof.Machine
end

