-- ==== Sys2Proof/Laws/TouchTimeBase.lean ====
section
/-! SUPPORT. What every operation of Machine/TimeBase.lean may touch (Sys2Proof.Machine.Touch). -/

namespace Sys2Proof.Machine

set_option linter.all false

theorem execTimeExchange_touch {m : Nat} (hm : Sub 0x440000 m) {s0 : State} (s : State) (h : Touch m s0 s) : TouchO m s0 (execTimeExchange s) := by
  unfold execTimeExchange
  repeat' (first | (with_reducible first | assumption | apply TouchO.next | apply State.sendOn_touch) | (with_reducible show Sub _ _; exact hm.of rfl) | simp -zeta only [Touch.upd_timeI (hm.of rfl)] | extract_lets | refine Touch.ofPair ‹_ = (_, _)› ?_ | split | dsimp -zeta only | dsimp -zeta +zetaDelta only)
theorem State.exchange_touch {m : Nat} (hm : Sub 0x440000 m) {s0 : State} (s : State) (th : Int) (epoch : Word) (tsw : DWord) (h : Touch m s0 s) : Touch m s0 (State.exchange s th epoch tsw) := by
  unfold State.exchange
  repeat' (first | (with_reducible first | assumption | apply State.setRouter_touch | apply State.announceAll_touch) | (with_reducible show Sub _ _; exact hm.of rfl) | simp -zeta only [Touch.upd_timeI (hm.of rfl)] | extract_lets | refine Touch.ofPair ‹_ = (_, _)› ?_ | split | dsimp -zeta only | dsimp -zeta +zetaDelta only)
theorem execTime_touch {m : Nat} (hm : Sub 0x440000 m) {s0 : State} (msg : TimeMsg) (s : State) (h : Touch m s0 s) : TouchO m s0 (execTime msg s) := by
  unfold execTime
  repeat' (first | (with_reducible first | assumption | apply TouchO.next | apply State.exchange_touch | apply State.sendOn_touch) | (with_reducible show Sub _ _; exact hm.of rfl) | refine State.takePkt_touch (hm.of rfl) ‹_› ?_ | extract_lets | refine Touch.ofPair ‹_ = (_, _)› ?_ | split | dsimp -zeta only | dsimp -zeta +zetaDelta only)
theorem State.writeTimeSet_touch {m : Nat} (hm : Sub 0x104400000 m) {s0 : State} (s : State) (v : DWord) (h : Touch m s0 s) : Touch m s0 (State.writeTimeSet s v) := by
  unfold State.writeTimeSet
  repeat' (first | (with_reducible first | assumption | apply State.countErr_touch) | (with_reducible show Sub _ _; exact hm.of rfl) | simp -zeta only [Touch.upd_timeI (hm.of rfl)] | extract_lets | refine Touch.ofPair ‹_ = (_, _)› ?_ | split | dsimp -zeta only | dsimp -zeta +zetaDelta only)
theorem execTimeSet_touch {m : Nat} (hm : Sub 0x104400000 m) {s0 : State} (value : DWord) (s : State) (h : Touch m s0 s) : TouchO m s0 (execTimeSet value s) := by
  unfold execTimeSet
  repeat' (first | (with_reducible first | assumption | apply TouchO.next | apply State.writeTimeSet_touch) | (with_reducible show Sub _ _; exact hm.of rfl) | extract_lets | refine Touch.ofPair ‹_ = (_, _)› ?_ | split | dsimp -zeta only | dsimp -zeta +zetaDelta only)
theorem execRefclkLoss_touch {m : Nat} (hm : Sub 0x144401400 m) {s0 : State} (s : State) (h : Touch m s0 s) : TouchO m s0 (execRefclkLoss s) := by
  unfold execRefclkLoss
  repeat' (first | (with_reducible first | assumption | apply TouchO.next | apply State.raise_touch) | (with_reducible show Sub _ _; exact hm.of rfl) | simp -zeta only [Touch.upd_timeI (hm.of rfl)] | extract_lets | refine Touch.ofPair ‹_ = (_, _)› ?_ | split | dsimp -zeta only | dsimp -zeta +zetaDelta only)
theorem execRefclkRelock_touch {m : Nat} (hm : Sub 0x400000 m) {s0 : State} (s : State) (h : Touch m s0 s) : TouchO m s0 (execRefclkRelock s) := by
  unfold execRefclkRelock
  repeat' (first | (with_reducible first | assumption | apply TouchO.next) | (with_reducible show Sub _ _; exact hm.of rfl) | simp -zeta only [Touch.upd_timeI (hm.of rfl)] | extract_lets | refine Touch.ofPair ‹_ = (_, _)› ?_ | split | dsimp -zeta only | dsimp -zeta +zetaDelta only)

end Sys2Proof.Machine
end

