-- ==== Sys2Proof/Laws/TouchOptics.lean ====
section
/-! SUPPORT. What every operation of Machine/Optics.lean may touch (Sys2Proof.Machine.Touch). -/

namespace Sys2Proof.Machine

set_option linter.all false

theorem State.raiseOpt_touch {m : Nat} (hm : Sub 0x144001400 m) {s0 : State} (s : State) (c : Nat) (bit : Nat) (h : Touch m s0 s) : Touch m s0 (State.raiseOpt s c bit) := by
  unfold State.raiseOpt
  repeat' (first | (with_reducible first | assumption | apply State.raise_touch) | (with_reducible show Sub _ _; exact hm.of rfl) | extract_lets | refine Touch.ofPair ‹_ = (_, _)› ?_ | split | dsimp -zeta only | dsimp -zeta +zetaDelta only)
theorem State.setLanes_touch {m : Nat} (hm : Sub 0x40000 m) {s0 : State} (s : State) (k : Nat) (mm : DWord) (h : Touch m s0 s) : Touch m s0 (State.setLanes s k mm) := by
  unfold State.setLanes
  repeat' (first | (with_reducible intro _) | (with_reducible first | assumption | apply State.setRouter_touch | apply State.setPort_touch | apply State.fcChanged_touch | apply State.drain_touch | apply State.each_touch) | (with_reducible show Sub _ _; exact hm.of rfl) | extract_lets | refine Touch.ofPair ‹_ = (_, _)› ?_ | split | dsimp -zeta only | dsimp -zeta +zetaDelta only)
theorem State.relane_touch {m : Nat} (hm : Sub 0x40000 m) {s0 : State} (s : State) (c : Nat) (h : Touch m s0 s) : Touch m s0 (State.relane s c) := by
  unfold State.relane
  repeat' (first | (with_reducible intro _) | (with_reducible first | assumption | apply State.setLanes_touch | apply State.each_touch) | (with_reducible show Sub _ _; exact hm.of rfl) | extract_lets | refine Touch.ofPair ‹_ = (_, _)› ?_ | split | dsimp -zeta only | dsimp -zeta +zetaDelta only)
theorem State.planHold_touch {m : Nat} (hm : Sub 0x80000 m) {s0 : State} (s : State) (tag : Nat) (plan : BitVec 4) (masks : List DWord) (h : Touch m s0 s) : Touch m s0 (State.planHold s tag plan masks) := by
  unfold State.planHold
  repeat' (first | (with_reducible intro _) | (with_reducible first | assumption | apply State.setChip_touch | apply State.each_touch) | (with_reducible show Sub _ _; exact hm.of rfl) | extract_lets | refine Touch.ofPair ‹_ = (_, _)› ?_ | split | dsimp -zeta only | dsimp -zeta +zetaDelta only)
theorem State.planDrop_touch {m : Nat} (hm : Sub 0xC0000 m) {s0 : State} (s : State) (g : PlanChange → Bool) (h : Touch m s0 s) : Touch m s0 (State.planDrop s g) := by
  unfold State.planDrop
  repeat' (first | (with_reducible intro _) | (with_reducible first | assumption | apply State.setChip_touch | apply State.drain_touch | apply State.each_touch) | (with_reducible show Sub _ _; exact hm.of rfl) | extract_lets | refine Touch.ofPair ‹_ = (_, _)› ?_ | split | dsimp -zeta only | dsimp -zeta +zetaDelta only)
theorem State.planBegin_touch {m : Nat} (hm : Sub 0xC0000 m) {s0 : State} (s : State) (c : Nat) (e : PlanChange) (h : Touch m s0 s) : Touch m s0 (State.planBegin s c e) := by
  unfold State.planBegin
  repeat' (first | (with_reducible intro _) | (with_reducible first | assumption | apply State.setLanes_touch | apply State.setChip_touch | apply State.each_touch) | (with_reducible show Sub _ _; exact hm.of rfl) | extract_lets | refine Touch.ofPair ‹_ = (_, _)› ?_ | split | dsimp -zeta only | dsimp -zeta +zetaDelta only)
theorem State.planSwitch_touch {m : Nat} (hm : Sub 0xC0000 m) {s0 : State} (s : State) (tag : Nat) (h : Touch m s0 s) : Touch m s0 (State.planSwitch s tag) := by
  unfold State.planSwitch
  repeat' (first | (with_reducible intro _) | (with_reducible first | assumption | apply State.setChip_touch | apply State.planBegin_touch | apply State.each_touch) | (with_reducible show Sub _ _; exact hm.of rfl) | extract_lets | refine Touch.ofPair ‹_ = (_, _)› ?_ | split | dsimp -zeta only | dsimp -zeta +zetaDelta only)
theorem State.planDone_touch {m : Nat} (hm : Sub 0xC0000 m) {s0 : State} (s : State) (h : Touch m s0 s) : Touch m s0 (State.planDone s) := by
  unfold State.planDone
  repeat' (first | (with_reducible intro _) | (with_reducible first | assumption | apply State.setChip_touch | apply State.planBegin_touch | apply State.relane_touch | apply State.each_touch) | (with_reducible show Sub _ _; exact hm.of rfl) | extract_lets | refine Touch.ofPair ‹_ = (_, _)› ?_ | split | dsimp -zeta only | dsimp -zeta +zetaDelta only)
theorem State.planRelease_touch {m : Nat} (hm : Sub 0xC0000 m) {s0 : State} (s : State) (h : Touch m s0 s) : Touch m s0 (State.planRelease s) := by
  unfold State.planRelease
  repeat' (first | (with_reducible intro _) | (with_reducible first | assumption | apply State.planDrop_touch | apply State.planBegin_touch | apply State.each_touch) | (with_reducible show Sub _ _; exact hm.of rfl) | extract_lets | refine Touch.ofPair ‹_ = (_, _)› ?_ | split | dsimp -zeta only | dsimp -zeta +zetaDelta only)
theorem State.laserEvent_touch {m : Nat} (hm : Sub 0x144001400 m) {s0 : State} (s : State) (c : Nat) (w : Nat) (h : Touch m s0 s) : Touch m s0 (State.laserEvent s c w) := by
  unfold State.laserEvent
  repeat' (first | (with_reducible first | assumption | apply State.eventMgmt_touch) | (with_reducible show Sub _ _; exact hm.of rfl) | extract_lets | refine Touch.ofPair ‹_ = (_, _)› ?_ | split | dsimp -zeta only | dsimp -zeta +zetaDelta only)
theorem State.recordLasers_touch {m : Nat} (hm : Sub 0x20000000 m) {s0 : State} (s : State) (c : Nat) (h : Touch m s0 s) : Touch m s0 (State.recordLasers s c) := by
  unfold State.recordLasers
  repeat' (first | (with_reducible first | assumption | apply State.setFlash_touch) | (with_reducible show Sub _ _; exact hm.of rfl) | extract_lets | refine Touch.ofPair ‹_ = (_, _)› ?_ | split | dsimp -zeta only | dsimp -zeta +zetaDelta only)
theorem State.wlTo_touch {m : Nat} (hm : Sub 0x144081400 m) {s0 : State} (s : State) (c : Nat) (w : Nat) (st : Nat) (h : Touch m s0 s) : Touch m s0 (State.wlTo s c w st) := by
  unfold State.wlTo
  repeat' (first | (with_reducible first | assumption | apply State.laserEvent_touch | apply State.setChip_touch) | (with_reducible show Sub _ _; exact hm.of rfl) | extract_lets | refine Touch.ofPair ‹_ = (_, _)› ?_ | split | dsimp -zeta only | dsimp -zeta +zetaDelta only)
theorem State.oedRestart_touch {m : Nat} (hm : Sub 0x100000 m) {s0 : State} (s : State) (w : Nat) (h : Touch m s0 s) : Touch m s0 (State.oedRestart s w) := by
  unfold State.oedRestart
  repeat' (first | (with_reducible first | assumption | apply State.setOedPort_touch) | (with_reducible show Sub _ _; exact hm.of rfl) | extract_lets | refine Touch.ofPair ‹_ = (_, _)› ?_ | split | dsimp -zeta only | dsimp -zeta +zetaDelta only)
theorem State.relight_touch {m : Nat} (hm : Sub 0x140000 m) {s0 : State} (s : State) (c : Nat) (w : Nat) (h : Touch m s0 s) : Touch m s0 (State.relight s c w) := by
  unfold State.relight
  repeat' (first | (with_reducible first | assumption | apply State.oedRestart_touch | apply State.relane_touch) | (with_reducible show Sub _ _; exact hm.of rfl) | extract_lets | refine Touch.ofPair ‹_ = (_, _)› ?_ | split | dsimp -zeta only | dsimp -zeta +zetaDelta only)
theorem State.beginWl_touch {m : Nat} (hm : Sub 0x1441C1400 m) {s0 : State} (s : State) (c : Nat) (w : Nat) (swap : Bool) (h : Touch m s0 s) : Touch m s0 (State.beginWl s c w swap) := by
  unfold State.beginWl
  repeat' (first | (with_reducible first | assumption | apply State.laserEvent_touch | apply State.setChip_touch | apply State.relight_touch) | (with_reducible show Sub _ _; exact hm.of rfl) | extract_lets | refine Touch.ofPair ‹_ = (_, _)› ?_ | split | dsimp -zeta only | dsimp -zeta +zetaDelta only)
theorem State.nextWl_touch {m : Nat} (hm : Sub 0x1441C1400 m) {s0 : State} (s : State) (c : Nat) (h : Touch m s0 s) : Touch m s0 (State.nextWl s c) := by
  unfold State.nextWl
  repeat' (first | (with_reducible first | assumption | apply State.beginWl_touch | apply State.setChip_touch) | (with_reducible show Sub _ _; exact hm.of rfl) | extract_lets | refine Touch.ofPair ‹_ = (_, _)› ?_ | split | dsimp -zeta only | dsimp -zeta +zetaDelta only)
theorem State.wakeWl_touch {m : Nat} (hm : Sub 0x1441C1400 m) {s0 : State} (s : State) (h : Touch m s0 s) : Touch m s0 (State.wakeWl s) := by
  unfold State.wakeWl
  repeat' (first | (with_reducible intro _) | (with_reducible first | assumption | apply State.nextWl_touch | apply State.each_touch) | (with_reducible show Sub _ _; exact hm.of rfl) | extract_lets | refine Touch.ofPair ‹_ = (_, _)› ?_ | split | dsimp -zeta only | dsimp -zeta +zetaDelta only)
theorem State.retireWl_touch {m : Nat} (hm : Sub 0x1641C1400 m) {s0 : State} (s : State) (c : Nat) (w : Nat) (h : Touch m s0 s) : Touch m s0 (State.retireWl s c w) := by
  unfold State.retireWl
  repeat' (first | (with_reducible first | assumption | apply State.recordLasers_touch | apply State.setOedPort_touch | apply State.nextWl_touch | apply State.laserEvent_touch | apply State.setChip_touch | apply State.relight_touch) | (with_reducible show Sub _ _; exact hm.of rfl) | extract_lets | refine Touch.ofPair ‹_ = (_, _)› ?_ | split | dsimp -zeta only | dsimp -zeta +zetaDelta only)
theorem State.refeed_touch {m : Nat} (hm : Sub 0x1641C1400 m) {s0 : State} (s : State) (c : Nat) (w : Nat) (h : Touch m s0 s) : Touch m s0 (State.refeed s c w) := by
  unfold State.refeed
  repeat' (first | (with_reducible first | assumption | apply State.recordLasers_touch | apply State.laserEvent_touch | apply State.retireWl_touch | apply State.setChip_touch | apply State.relane_touch) | (with_reducible show Sub _ _; exact hm.of rfl) | extract_lets | refine Touch.ofPair ‹_ = (_, _)› ?_ | split | dsimp -zeta only | dsimp -zeta +zetaDelta only)
theorem State.failLaser_touch {m : Nat} (hm : Sub 0x1641C1400 m) {s0 : State} (s : State) (c : Nat) (l : Nat) (h : Touch m s0 s) : Touch m s0 (State.failLaser s c l) := by
  unfold State.failLaser
  repeat' (first | (with_reducible intro _) | (with_reducible first | assumption | apply State.setPort_touch | apply State.raiseOpt_touch | apply State.oedRestart_touch | apply State.recordLasers_touch | apply State.nextWl_touch | apply State.setChip_touch | apply State.refeed_touch | apply State.each_touch) | (with_reducible show Sub _ _; exact hm.of rfl) | extract_lets | refine Touch.ofPair ‹_ = (_, _)› ?_ | split | dsimp -zeta only | dsimp -zeta +zetaDelta only)
theorem State.moveWl_touch {m : Nat} (hm : Sub 0x1641C1400 m) {s0 : State} (s : State) (c : Nat) (w : Nat) (d : Int) (crossed : Bool) (h : Touch m s0 s) : Touch m s0 (State.moveWl s c w d crossed) := by
  unfold State.moveWl
  repeat' (first | (with_reducible first | assumption | apply State.beginWl_touch | apply State.wlTo_touch | apply State.laserEvent_touch | apply State.retireWl_touch | apply State.setChip_touch) | (with_reducible show Sub _ _; exact hm.of rfl) | extract_lets | refine Touch.ofPair ‹_ = (_, _)› ?_ | split | dsimp -zeta only | dsimp -zeta +zetaDelta only)
theorem execLaserSample_touch {m : Nat} (hm : Sub 0x1641C1400 m) {s0 : State} (chip : Nat) (laser : Nat) (power : Int) (s : State) (h : Touch m s0 s) : TouchO m s0 (execLaserSample chip laser power s) := by
  unfold execLaserSample
  repeat' (first | (with_reducible first | assumption | apply TouchO.next | apply State.failLaser_touch | apply State.moveWl_touch | apply State.setChip_touch) | (with_reducible show Sub _ _; exact hm.of rfl) | extract_lets | refine Touch.ofPair ‹_ = (_, _)› ?_ | split | dsimp -zeta only | dsimp -zeta +zetaDelta only)
theorem execLaserLockLoss_touch {m : Nat} (hm : Sub 0x1641C1400 m) {s0 : State} (chip : Nat) (laser : Nat) (s : State) (h : Touch m s0 s) : TouchO m s0 (execLaserLockLoss chip laser s) := by
  unfold execLaserLockLoss
  repeat' (first | (with_reducible first | assumption | apply TouchO.next | apply State.failLaser_touch) | (with_reducible show Sub _ _; exact hm.of rfl) | extract_lets | refine Touch.ofPair ‹_ = (_, _)› ?_ | split | dsimp -zeta only | dsimp -zeta +zetaDelta only)
theorem execSpareReady_touch {m : Nat} (hm : Sub 0x1641C1400 m) {s0 : State} (chip : Nat) (laser : Nat) (s : State) (h : Touch m s0 s) : TouchO m s0 (execSpareReady chip laser s) := by
  unfold execSpareReady
  repeat' (first | (with_reducible first | assumption | apply TouchO.next | apply State.moveWl_touch | apply State.recordLasers_touch | apply State.laserEvent_touch | apply State.setChip_touch | apply State.relane_touch) | (with_reducible show Sub _ _; exact hm.of rfl) | extract_lets | refine Touch.ofPair ‹_ = (_, _)› ?_ | split | dsimp -zeta only | dsimp -zeta +zetaDelta only)
theorem execLaserSwapComplete_touch {m : Nat} (hm : Sub 0x1641C1400 m) {s0 : State} (chip : Nat) (s : State) (h : Touch m s0 s) : TouchO m s0 (execLaserSwapComplete chip s) := by
  unfold execLaserSwapComplete
  repeat' (first | (with_reducible first | assumption | apply TouchO.next | apply State.recordLasers_touch | apply State.nextWl_touch | apply State.laserEvent_touch | apply State.rasReport_touch | apply State.setChip_touch | apply State.relane_touch) | (with_reducible show Sub _ _; exact hm.of rfl) | extract_lets | refine Touch.ofPair ‹_ = (_, _)› ?_ | split | dsimp -zeta only | dsimp -zeta +zetaDelta only)
theorem State.requestSwap_touch {m : Nat} (hm : Sub 0x1441C1400 m) {s0 : State} (s : State) (c : Nat) (w : Nat) (h : Touch m s0 s) : Touch m s0 (State.requestSwap s c w) := by
  unfold State.requestSwap
  repeat' (first | (with_reducible first | assumption | apply State.countErr_touch | apply State.beginWl_touch | apply State.laserEvent_touch | apply State.setChip_touch) | (with_reducible show Sub _ _; exact hm.of rfl) | extract_lets | refine Touch.ofPair ‹_ = (_, _)› ?_ | split | dsimp -zeta only | dsimp -zeta +zetaDelta only)
theorem State.requestRecal_touch {m : Nat} (hm : Sub 0x1441C1400 m) {s0 : State} (s : State) (c : Nat) (w : Nat) (h : Touch m s0 s) : Touch m s0 (State.requestRecal s c w) := by
  unfold State.requestRecal
  repeat' (first | (with_reducible first | assumption | apply State.beginWl_touch | apply State.setChip_touch) | (with_reducible show Sub _ _; exact hm.of rfl) | extract_lets | refine Touch.ofPair ‹_ = (_, _)› ?_ | split | dsimp -zeta only | dsimp -zeta +zetaDelta only)
theorem execOptLaserCmdSwap_touch {m : Nat} (hm : Sub 0x1441C1400 m) {s0 : State} (chip : Nat) (wl : Nat) (s : State) (h : Touch m s0 s) : TouchO m s0 (execOptLaserCmdSwap chip wl s) := by
  unfold execOptLaserCmdSwap
  repeat' (first | (with_reducible first | assumption | apply TouchO.next | apply State.requestSwap_touch) | (with_reducible show Sub _ _; exact hm.of rfl) | extract_lets | refine Touch.ofPair ‹_ = (_, _)› ?_ | split | dsimp -zeta only | dsimp -zeta +zetaDelta only)
theorem execOptLaserCmdRecal_touch {m : Nat} (hm : Sub 0x1441C1400 m) {s0 : State} (chip : Nat) (wl : Nat) (s : State) (h : Touch m s0 s) : TouchO m s0 (execOptLaserCmdRecal chip wl s) := by
  unfold execOptLaserCmdRecal
  repeat' (first | (with_reducible first | assumption | apply TouchO.next | apply State.requestRecal_touch) | (with_reducible show Sub _ _; exact hm.of rfl) | extract_lets | refine Touch.ofPair ‹_ = (_, _)› ?_ | split | dsimp -zeta only | dsimp -zeta +zetaDelta only)
theorem execWavelengthRecal_touch {m : Nat} (hm : Sub 0x1441C1400 m) {s0 : State} (chip : Nat) (wl : Nat) (s : State) (h : Touch m s0 s) : TouchO m s0 (execWavelengthRecal chip wl s) := by
  unfold execWavelengthRecal
  repeat' (first | (with_reducible first | assumption | apply TouchO.next | apply State.beginWl_touch) | (with_reducible show Sub _ _; exact hm.of rfl) | extract_lets | refine Touch.ofPair ‹_ = (_, _)› ?_ | split | dsimp -zeta only | dsimp -zeta +zetaDelta only)
theorem execWavelengthRecalComplete_touch {m : Nat} (hm : Sub 0x1641C1400 m) {s0 : State} (chip : Nat) (stillFaulted : DWord) (stillRx : DWord) (s : State) (h : Touch m s0 s) : TouchO m s0 (execWavelengthRecalComplete chip stillFaulted stillRx s) := by
  unfold execWavelengthRecalComplete
  repeat' (first | (with_reducible first | assumption | apply TouchO.next | apply State.nextWl_touch | apply State.setChip_touch | apply State.setFlash_touch | apply State.relane_touch) | (with_reducible show Sub _ _; exact hm.of rfl) | extract_lets | refine Touch.ofPair ‹_ = (_, _)› ?_ | split | dsimp -zeta only | dsimp -zeta +zetaDelta only)
theorem execRingFault_touch {m : Nat} (hm : Sub 0x1640C1400 m) {s0 : State} (chip : Nat) (slot : Nat) (rx : Bool) (loopFirst : Bool) (s : State) (h : Touch m s0 s) : TouchO m s0 (execRingFault chip slot rx loopFirst s) := by
  unfold execRingFault
  repeat' (first | (with_reducible first | assumption | apply TouchO.next | apply State.setLanes_touch | apply State.setPort_touch | apply State.raiseOpt_touch | apply State.setChip_touch | apply State.eventMgmt_touch | apply State.loseLanes_touch | apply State.setFlash_touch) | (with_reducible show Sub _ _; exact hm.of rfl) | extract_lets | refine Touch.ofPair ‹_ = (_, _)› ?_ | split | dsimp -zeta only | dsimp -zeta +zetaDelta only)
theorem execSubstrateTempCheck_touch {m : Nat} (hm : Sub 0x144081400 m) {s0 : State} (chip : Nat) (temp : Int) (s : State) (h : Touch m s0 s) : TouchO m s0 (execSubstrateTempCheck chip temp s) := by
  unfold execSubstrateTempCheck
  repeat' (first | (with_reducible first | assumption | apply TouchO.next | apply State.raiseOpt_touch | apply State.setChip_touch | apply State.eventMgmt_touch) | (with_reducible show Sub _ _; exact hm.of rfl) | extract_lets | refine Touch.ofPair ‹_ = (_, _)› ?_ | split | dsimp -zeta only | dsimp -zeta +zetaDelta only)
theorem State.shuttleEvent_touch {m : Nat} (hm : Sub 0x144001400 m) {s0 : State} (s : State) (k : Nat) (seated : Bool) (h : Touch m s0 s) : Touch m s0 (State.shuttleEvent s k seated) := by
  unfold State.shuttleEvent
  repeat' (first | (with_reducible first | assumption | apply State.eventMgmt_touch) | (with_reducible show Sub _ _; exact hm.of rfl) | extract_lets | refine Touch.ofPair ‹_ = (_, _)› ?_ | split | dsimp -zeta only | dsimp -zeta +zetaDelta only)
theorem execShuttleRemoved_touch {m : Nat} (hm : Sub 0x1441C1400 m) {s0 : State} (k : Nat) (s : State) (h : Touch m s0 s) : TouchO m s0 (execShuttleRemoved k s) := by
  unfold execShuttleRemoved
  repeat' (first | (with_reducible intro _) | (with_reducible first | assumption | apply TouchO.next | apply State.raiseOpt_touch | apply State.setOedPort_touch | apply State.shuttleEvent_touch | apply State.setChip_touch | apply State.unlock_touch | apply State.each_touch) | (with_reducible show Sub _ _; exact hm.of rfl) | extract_lets | refine Touch.ofPair ‹_ = (_, _)› ?_ | split | dsimp -zeta only | dsimp -zeta +zetaDelta only)
theorem execShuttleSeated_touch {m : Nat} (hm : Sub 0x144081400 m) {s0 : State} (k : Nat) (s : State) (h : Touch m s0 s) : TouchO m s0 (execShuttleSeated k s) := by
  unfold execShuttleSeated
  repeat' (first | (with_reducible first | assumption | apply TouchO.next | apply State.shuttleEvent_touch | apply State.setChip_touch) | (with_reducible show Sub _ _; exact hm.of rfl) | extract_lets | refine Touch.ofPair ‹_ = (_, _)› ?_ | split | dsimp -zeta only | dsimp -zeta +zetaDelta only)
theorem State.writeDrain_touch {m : Nat} (hm : Sub 0xC0000 m) {s0 : State} (s : State) (c : Nat) (mask : BitVec 4) (h : Touch m s0 s) : Touch m s0 (State.writeDrain s c mask) := by
  unfold State.writeDrain
  repeat' (first | (with_reducible intro _) | (with_reducible first | assumption | apply State.setChip_touch | apply State.notice_touch | apply State.each_touch) | (with_reducible show Sub _ _; exact hm.of rfl) | extract_lets | refine Touch.ofPair ‹_ = (_, _)› ?_ | split | dsimp -zeta only | dsimp -zeta +zetaDelta only)
theorem execOptServiceDrain_touch {m : Nat} (hm : Sub 0xC0000 m) {s0 : State} (chip : Nat) (mask : BitVec 4) (s : State) (h : Touch m s0 s) : TouchO m s0 (execOptServiceDrain chip mask s) := by
  unfold execOptServiceDrain
  repeat' (first | (with_reducible first | assumption | apply TouchO.next | apply State.writeDrain_touch) | (with_reducible show Sub _ _; exact hm.of rfl) | extract_lets | refine Touch.ofPair ‹_ = (_, _)› ?_ | split | dsimp -zeta only | dsimp -zeta +zetaDelta only)
theorem execSledFrame_touch {m : Nat} (hm : Sub 0x200000 m) {s0 : State} (s : State) (h : Touch m s0 s) : TouchO m s0 (execSledFrame s) := by
  unfold execSledFrame
  repeat' (first | (with_reducible first | assumption | apply TouchO.next) | (with_reducible show Sub _ _; exact hm.of rfl) | simp -zeta only [Touch.upd_sledI (hm.of rfl)] | extract_lets | refine Touch.ofPair ‹_ = (_, _)› ?_ | split | dsimp -zeta only | dsimp -zeta +zetaDelta only)

end Sys2Proof.Machine
end

