-- ==== Sys2Proof/Laws/TouchOed.lean ====
section
/-! SUPPORT. What every operation of Machine/Oed.lean may touch (Sys2Proof.Machine.Touch). -/

namespace Sys2Proof.Machine

set_option linter.all false

theorem State.oedDiscard_touch {m : Nat} (hm : Sub 0x100000 m) {s0 : State} (s : State) (h : Touch m s0 s) : Touch m s0 (State.oedDiscard s) := by
  unfold State.oedDiscard
  repeat' (first | with_reducible assumption | (with_reducible show Sub _ _; exact hm.of rfl) | simp -zeta only [Touch.upd_oedI (hm.of rfl)] | extract_lets | refine Touch.ofPair ‹_ = (_, _)› ?_ | split | dsimp -zeta only | dsimp -zeta +zetaDelta only)
theorem State.oedFrame_touch {m : Nat} (hm : Sub 0x800140000 m) {s0 : State} (s : State) (port : Nat) (bytes : List Byte) (counter : DWord) (tagOk : Bool) (h : Touch m s0 s) : Touch m s0 (State.oedFrame s port bytes counter tagOk) := by
  unfold State.oedFrame
  repeat' (first | (with_reducible first | assumption | apply State.oedDiscard_touch | apply State.arrive_touch) | (with_reducible show Sub _ _; exact hm.of rfl) | simp -zeta only [Touch.upd_oed_freshI (hm.of rfl)] | extract_lets | refine Touch.ofPair ‹_ = (_, _)› ?_ | split | dsimp -zeta only | dsimp -zeta +zetaDelta only)
theorem execOedFrame_touch {m : Nat} (hm : Sub 0x800140000 m) {s0 : State} (port : Nat) (bytes : List Byte) (counter : DWord) (tagOk : Bool) (fecCorr : Nat) (fecBad : Nat) (s : State) (h : Touch m s0 s) : TouchO m s0 (execOedFrame port bytes counter tagOk fecCorr fecBad s) := by
  unfold execOedFrame
  repeat' (first | (with_reducible first | assumption | apply TouchO.next | apply State.setOedPort_touch | apply State.oedFrame_touch) | (with_reducible show Sub _ _; exact hm.of rfl) | extract_lets | refine Touch.ofPair ‹_ = (_, _)› ?_ | split | dsimp -zeta only | dsimp -zeta +zetaDelta only)
theorem execLldp_touch {m : Nat} (hm : Sub 0x100000 m) {s0 : State} (port : Nat) (bytes : List Byte) (s : State) (h : Touch m s0 s) : TouchO m s0 (execLldp port bytes s) := by
  unfold execLldp
  repeat' (first | (with_reducible first | assumption | apply TouchO.next | apply State.oedSend_touch) | (with_reducible show Sub _ _; exact hm.of rfl) | simp -zeta only [Touch.upd_oedI (hm.of rfl)] | extract_lets | refine Touch.ofPair ‹_ = (_, _)› ?_ | split | dsimp -zeta only | dsimp -zeta +zetaDelta only)
theorem execPfcFrame_touch {m : Nat} (hm : Sub 0x100000 m) {s0 : State} (port : Nat) (pause : Bool) (prios : Byte) (s : State) (h : Touch m s0 s) : TouchO m s0 (execPfcFrame port pause prios s) := by
  unfold execPfcFrame
  repeat' (first | (with_reducible first | assumption | apply TouchO.next | apply State.setOedPort_touch | apply State.oedDiscard_touch | apply State.oedFlush_touch) | (with_reducible show Sub _ _; exact hm.of rfl) | extract_lets | refine Touch.ofPair ‹_ = (_, _)› ?_ | split | dsimp -zeta only | dsimp -zeta +zetaDelta only)
theorem execIcmpv6_touch {m : Nat} (hm : Sub 0x100000 m) {s0 : State} (port : Nat) (forUs : Bool) (msg : IcmpMsg) (s : State) (h : Touch m s0 s) : TouchO m s0 (execIcmpv6 port forUs msg s) := by
  unfold execIcmpv6
  repeat' (first | (with_reducible first | assumption | apply TouchO.next | apply State.oedSend_touch | apply State.oedDiscard_touch) | (with_reducible show Sub _ _; exact hm.of rfl) | extract_lets | refine Touch.ofPair ‹_ = (_, _)› ?_ | split | dsimp -zeta only | dsimp -zeta +zetaDelta only)
theorem State.writeOedMode_touch {m : Nat} (hm : Sub 0x100000 m) {s0 : State} (s : State) (k : Nat) (mm : BitVec 2) (h : Touch m s0 s) : Touch m s0 (State.writeOedMode s k mm) := by
  unfold State.writeOedMode
  repeat' (first | (with_reducible first | assumption | apply State.setOedPort_touch) | (with_reducible show Sub _ _; exact hm.of rfl) | extract_lets | refine Touch.ofPair ‹_ = (_, _)› ?_ | split | dsimp -zeta only | dsimp -zeta +zetaDelta only)
theorem execOedPortCfg_touch {m : Nat} (hm : Sub 0x104100000 m) {s0 : State} (port : Nat) (mode : BitVec 2) (s : State) (h : Touch m s0 s) : TouchO m s0 (execOedPortCfg port mode s) := by
  unfold execOedPortCfg
  repeat' (first | (with_reducible first | assumption | apply TouchO.next | apply State.countErr_touch | apply State.writeOedMode_touch) | (with_reducible show Sub _ _; exact hm.of rfl) | extract_lets | refine Touch.ofPair ‹_ = (_, _)› ?_ | split | dsimp -zeta only | dsimp -zeta +zetaDelta only)
theorem execOedLinkState_touch {m : Nat} (hm : Sub 0x100000 m) {s0 : State} (port : Nat) (sub : Nat) (up : Bool) (s : State) (h : Touch m s0 s) : TouchO m s0 (execOedLinkState port sub up s) := by
  unfold execOedLinkState
  repeat' (first | (with_reducible first | assumption | apply TouchO.next | apply State.setOedPort_touch | apply State.oedFlush_touch) | (with_reducible show Sub _ _; exact hm.of rfl) | extract_lets | refine Touch.ofPair ‹_ = (_, _)› ?_ | split | dsimp -zeta only | dsimp -zeta +zetaDelta only)
theorem execOedDrainSafe_touch {m : Nat} (hm : Sub 0x80000 m) {s0 : State} (port : Nat) (s : State) (h : Touch m s0 s) : TouchO m s0 (execOedDrainSafe port s) := by
  unfold execOedDrainSafe
  repeat' (first | (with_reducible first | assumption | apply TouchO.next | apply State.setChip_touch) | (with_reducible show Sub _ _; exact hm.of rfl) | extract_lets | refine Touch.ofPair ‹_ = (_, _)› ?_ | split | dsimp -zeta only | dsimp -zeta +zetaDelta only)

end Sys2Proof.Machine
end

