-- ==== Sys2Proof/Laws/TouchMemory.lean ====
section
/-! SUPPORT. What every operation of Machine/Memory.lean may touch (Sys2Proof.Machine.Touch). -/

namespace Sys2Proof.Machine

set_option linter.all false

theorem State.unmapLost_touch {m : Nat} (hm : Sub 0x20000 m) {s0 : State} (s : State) (h : Touch m s0 s) : Touch m s0 (State.unmapLost s) := by
  unfold State.unmapLost
  repeat' (first | (with_reducible intro _) | (with_reducible first | assumption | apply State.setCxl_touch | apply State.each_touch) | (with_reducible show Sub _ _; exact hm.of rfl) | extract_lets | refine Touch.ofPair ‹_ = (_, _)› ?_ | split | dsimp -zeta only | dsimp -zeta +zetaDelta only)
theorem State.afterThaw_touch {m : Nat} (hm : Sub 0x20000 m) {s0 : State} (s : State) (h : Touch m s0 s) : Touch m s0 (State.afterThaw s) := by
  unfold State.afterThaw
  repeat' (first | (with_reducible first | assumption | apply State.unmapLost_touch) | (with_reducible show Sub _ _; exact hm.of rfl) | extract_lets | refine Touch.ofPair ‹_ = (_, _)› ?_ | split | dsimp -zeta only | dsimp -zeta +zetaDelta only)
theorem State.eventBoth_touch {m : Nat} (hm : Sub 0x144001400 m) {s0 : State} (s : State) (p : Nat) (code : Nat) (die : Nat) (pl : List Byte) (h : Touch m s0 s) : Touch m s0 (State.eventBoth s p code die pl) := by
  unfold State.eventBoth
  repeat' (first | (with_reducible intro _) | (with_reducible first | assumption | apply State.event_touch | apply State.each_touch) | (with_reducible show Sub _ _; exact hm.of rfl) | extract_lets | refine Touch.ofPair ‹_ = (_, _)› ?_ | split | dsimp -zeta only | dsimp -zeta +zetaDelta only)
theorem State.eventAt_touch {m : Nat} (hm : Sub 0x144001400 m) {s0 : State} (s : State) (p : Option Nat) (code : Nat) (die : Nat) (pl : List Byte) (h : Touch m s0 s) : Touch m s0 (State.eventAt s p code die pl) := by
  unfold State.eventAt
  repeat' (first | (with_reducible first | assumption | apply State.eventBoth_touch | apply State.eventMgmt_touch) | (with_reducible show Sub _ _; exact hm.of rfl) | extract_lets | refine Touch.ofPair ‹_ = (_, _)› ?_ | split | dsimp -zeta only | dsimp -zeta +zetaDelta only)
theorem State.setRecord_touch {m : Nat} (hm : Sub 0x4 m) {s0 : State} (s : State) (f : Nat) (bit : Nat) (h : Touch m s0 s) : Touch m s0 (State.setRecord s f bit) := by
  unfold State.setRecord
  repeat' (first | (with_reducible first | assumption | apply State.setFloe_touch) | (with_reducible show Sub _ _; exact hm.of rfl) | extract_lets | refine Touch.ofPair ‹_ = (_, _)› ?_ | split | dsimp -zeta only | dsimp -zeta +zetaDelta only)
theorem State.recordNf_touch {m : Nat} (hm : Sub 0x4 m) {s0 : State} (s : State) (f : Nat) (h : Touch m s0 s) : Touch m s0 (State.recordNf s f) := by
  unfold State.recordNf
  repeat' (first | (with_reducible first | assumption | apply State.setRecord_touch) | (with_reducible show Sub _ _; exact hm.of rfl) | extract_lets | refine Touch.ofPair ‹_ = (_, _)› ?_ | split | dsimp -zeta only | dsimp -zeta +zetaDelta only)
theorem State.recordLine_touch {m : Nat} (hm : Sub 0x4 m) {s0 : State} (s : State) (who : Option Nat) (a : Nat) (h : Touch m s0 s) : Touch m s0 (State.recordLine s who a) := by
  unfold State.recordLine
  repeat' (first | (with_reducible first | assumption | apply State.recordNf_touch) | (with_reducible show Sub _ _; exact hm.of rfl) | extract_lets | refine Touch.ofPair ‹_ = (_, _)› ?_ | split | dsimp -zeta only | dsimp -zeta +zetaDelta only)
theorem State.memError_touch {m : Nat} (hm : Sub 0x144001400 m) {s0 : State} (s : State) (b : Nat) (h : Touch m s0 s) : Touch m s0 (State.memError s b) := by
  unfold State.memError
  repeat' (first | (with_reducible first | assumption | apply State.eventAt_touch) | (with_reducible show Sub _ _; exact hm.of rfl) | extract_lets | refine Touch.ofPair ‹_ = (_, _)› ?_ | split | dsimp -zeta only | dsimp -zeta +zetaDelta only)
theorem State.retireEvent_touch {m : Nat} (hm : Sub 0x144001400 m) {s0 : State} (s : State) (i : Nat) (phase : Nat) (h : Touch m s0 s) : Touch m s0 (State.retireEvent s i phase) := by
  unfold State.retireEvent
  repeat' (first | (with_reducible first | assumption | apply State.eventMgmt_touch) | (with_reducible show Sub _ _; exact hm.of rfl) | extract_lets | refine Touch.ofPair ‹_ = (_, _)› ?_ | split | dsimp -zeta only | dsimp -zeta +zetaDelta only)
theorem State.planRetire_touch {m : Nat} (hm : Sub 0x10000 m) {s0 : State} (s : State) (i : Nat) (h : Touch m s0 s) : Touch m s0 (State.planRetire s i) := by
  unfold State.planRetire
  repeat' (first | with_reducible assumption | (with_reducible show Sub _ _; exact hm.of rfl) | simp -zeta only [Touch.upd_nmI (hm.of rfl)] | extract_lets | refine Touch.ofPair ‹_ = (_, _)› ?_ | split | dsimp -zeta only | dsimp -zeta +zetaDelta only)
theorem State.corrected_touch {m : Nat} (hm : Sub 0x144019400 m) {s0 : State} (s : State) (i : Nat) (h : Touch m s0 s) : Touch m s0 (State.corrected s i) := by
  unfold State.corrected
  repeat' (first | (with_reducible first | assumption | apply State.planRetire_touch | apply State.setNmc_touch | apply State.retireEvent_touch | apply State.rasReport_touch) | (with_reducible show Sub _ _; exact hm.of rfl) | extract_lets | refine Touch.ofPair ‹_ = (_, _)› ?_ | split | dsimp -zeta only | dsimp -zeta +zetaDelta only)
theorem State.noteCe_touch {m : Nat} (hm : Sub 0x144019404 m) {s0 : State} (s : State) (b : Nat) (h : Touch m s0 s) : Touch m s0 (State.noteCe s b) := by
  unfold State.noteCe
  repeat' (first | (with_reducible first | assumption | apply State.setFloe_touch | apply State.corrected_touch | apply State.rasReport_touch) | (with_reducible show Sub _ _; exact hm.of rfl) | extract_lets | refine Touch.ofPair ‹_ = (_, _)› ?_ | split | dsimp -zeta only | dsimp -zeta +zetaDelta only)
theorem State.noteRetries_touch {m : Nat} (hm : Sub 0x8000 m) {s0 : State} (s : State) (errs : Errs) (b : Nat) (h : Touch m s0 s) : Touch m s0 (State.noteRetries s errs b) := by
  unfold State.noteRetries
  repeat' (first | (with_reducible intro _) | (with_reducible first | assumption | apply State.setNmc_touch | apply Touch.foldl | apply Touch.foldl1) | (with_reducible show Sub _ _; exact hm.of rfl) | extract_lets | refine Touch.ofPair ‹_ = (_, _)› ?_ | split | dsimp -zeta only | dsimp -zeta +zetaDelta only)
theorem State.countUe_touch {m : Nat} (hm : Sub 0x18000 m) {s0 : State} (s : State) (b : Nat) (read : Bool) (h : Touch m s0 s) : Touch m s0 (State.countUe s b read) := by
  unfold State.countUe
  repeat' (first | (with_reducible first | assumption | apply State.setNmc_touch) | (with_reducible show Sub _ _; exact hm.of rfl) | simp -zeta only [Touch.upd_nmI (hm.of rfl)] | extract_lets | refine Touch.ofPair ‹_ = (_, _)› ?_ | split | dsimp -zeta only | dsimp -zeta +zetaDelta only)
theorem State.noteUe_touch {m : Nat} (hm : Sub 0x144039504 m) {s0 : State} (s : State) (who : Option Nat) (patrol : Bool) (b : Nat) (h : Touch m s0 s) : Touch m s0 (State.noteUe s who patrol b) := by
  unfold State.noteUe
  repeat' (first | (with_reducible first | assumption | apply State.setCxl_touch | apply State.setFloe_touch | apply State.recordNf_touch | apply State.countUe_touch | apply State.memError_touch | apply State.raise_touch | apply State.recordLine_touch) | (with_reducible show Sub _ _; exact hm.of rfl) | simp -zeta only [Touch.upd_spBadI (hm.of rfl)] | extract_lets | refine Touch.ofPair ‹_ = (_, _)› ?_ | split | dsimp -zeta only | dsimp -zeta +zetaDelta only)
theorem State.noteUnit_touch {m : Nat} (hm : Sub 0x144039504 m) {s0 : State} (s : State) (who : Option Nat) (errs : Errs) (b : Nat) (h : Touch m s0 s) : Touch m s0 (State.noteUnit s who errs b) := by
  unfold State.noteUnit
  repeat' (first | (with_reducible first | assumption | apply State.noteRetries_touch | apply State.noteUe_touch | apply State.noteCe_touch) | (with_reducible show Sub _ _; exact hm.of rfl) | extract_lets | refine Touch.ofPair ‹_ = (_, _)› ?_ | split | dsimp -zeta only | dsimp -zeta +zetaDelta only)
theorem State.noteRange_touch {m : Nat} (hm : Sub 0x144039504 m) {s0 : State} (s : State) (who : Option Nat) (errs : Errs) (a : Nat) (n : Nat) (h : Touch m s0 s) : Touch m s0 (State.noteRange s who errs a n) := by
  unfold State.noteRange
  repeat' (first | (with_reducible intro _) | (with_reducible first | assumption | apply State.noteUnit_touch | apply State.each_touch) | (with_reducible show Sub _ _; exact hm.of rfl) | extract_lets | refine Touch.ofPair ‹_ = (_, _)› ?_ | split | dsimp -zeta only | dsimp -zeta +zetaDelta only)
theorem State.readMem_touch {m : Nat} (hm : Sub 0x144039504 m) {s0 : State} (s : State) (who : Option Nat) (errs : Errs) (a : Nat) (n : Nat) (h : Touch m s0 s) : Touch m s0 (State.readMem s who errs a n).1 := by
  unfold State.readMem
  repeat' (first | (with_reducible first | assumption | apply State.noteRange_touch) | (with_reducible show Sub _ _; exact hm.of rfl) | extract_lets | refine Touch.ofPair ‹_ = (_, _)› ?_ | split | dsimp -zeta only | dsimp -zeta +zetaDelta only)
theorem State.readMem_touchE {m : Nat} (hm : Sub 0x144039504 m) {s0 s9 : State} {s : State} {who : Option Nat} {errs : Errs} {a : Nat} {n : Nat} {r9 : _} (e : State.readMem s who errs a n = (s9, r9)) (h : Touch m s0 s) : Touch m s0 s9 := by
  have k := State.readMem_touch hm (s0 := s0) s who errs a n h
  rw [e] at k
  exact k
theorem State.devRead_touch {m : Nat} (hm : Sub 0x144039504 m) {s0 : State} (s : State) (a : Nat) (n : Nat) (errs : Errs) (h : Touch m s0 s) : Touch m s0 (State.devRead s a n errs).1 := by
  unfold State.devRead
  repeat' (first | (with_reducible first | assumption | apply State.readMem_touch) | (with_reducible show Sub _ _; exact hm.of rfl) | extract_lets | refine Touch.ofPair ‹_ = (_, _)› ?_ | split | dsimp -zeta only | dsimp -zeta +zetaDelta only)
theorem State.devRead_touchE {m : Nat} (hm : Sub 0x144039504 m) {s0 s9 : State} {s : State} {a : Nat} {n : Nat} {errs : Errs} {r9 : _} (e : State.devRead s a n errs = (s9, r9)) (h : Touch m s0 s) : Touch m s0 s9 := by
  have k := State.devRead_touch hm (s0 := s0) s a n errs h
  rw [e] at k
  exact k
theorem State.noteEnded_touch {m : Nat} (hm : Sub 0x144039504 m) {s0 : State} (s : State) (who : Option Nat) (ended : List (Nat × Nat)) (errs : Errs) (a : Nat) (n : Nat) (h : Touch m s0 s) : Touch m s0 (State.noteEnded s who ended errs a n) := by
  unfold State.noteEnded
  repeat' (first | (with_reducible intro _) | (with_reducible first | assumption | apply State.noteRange_touch | apply State.noteUnit_touch | apply State.each_touch) | (with_reducible show Sub _ _; exact hm.of rfl) | extract_lets | refine Touch.ofPair ‹_ = (_, _)› ?_ | split | dsimp -zeta only | dsimp -zeta +zetaDelta only)
theorem State.failWrite_touch {m : Nat} (hm : Sub 0x144019604 m) {s0 : State} (s : State) (who : Option Nat) (b : Nat) (h : Touch m s0 s) : Touch m s0 (State.failWrite s who b) := by
  unfold State.failWrite
  repeat' (first | (with_reducible first | assumption | apply State.countUe_touch | apply State.raise_touch | apply State.recordLine_touch) | (with_reducible show Sub _ _; exact hm.of rfl) | simp -zeta only [Touch.upd_poisonI (hm.of rfl)] | extract_lets | refine Touch.ofPair ‹_ = (_, _)› ?_ | split | dsimp -zeta only | dsimp -zeta +zetaDelta only)
theorem State.strike_touch {m : Nat} (hm : Sub 0x100 m) {s0 : State} (s : State) (errs : Errs) (h : Touch m s0 s) : Touch m s0 (State.strike s errs) := by
  unfold State.strike
  repeat' (first | with_reducible assumption | (with_reducible show Sub _ _; exact hm.of rfl) | simp -zeta only [Touch.upd_spBadI (hm.of rfl)] | extract_lets | refine Touch.ofPair ‹_ = (_, _)› ?_ | split | dsimp -zeta only | dsimp -zeta +zetaDelta only)
theorem State.openUnit_touch {m : Nat} (hm : Sub 0x144039784 m) {s0 : State} (s : State) (who : Option Nat) (errs : Errs) (a : Nat) (n : Nat) (b : Nat) (h : Touch m s0 s) : Touch m s0 (State.openUnit s who errs a n b).1 := by
  unfold State.openUnit
  repeat' (first | (with_reducible first | assumption | apply State.noteRetries_touch | apply State.setCxl_touch | apply State.noteUe_touch | apply State.noteUnit_touch | apply State.poke_touch | apply State.failWrite_touch | apply State.recordLine_touch) | (with_reducible show Sub _ _; exact hm.of rfl) | simp -zeta only [Touch.upd_poisonI (hm.of rfl)] | simp -zeta only [Touch.upd_spBadI (hm.of rfl)] | extract_lets | refine Touch.ofPair ‹_ = (_, _)› ?_ | split | dsimp -zeta only | dsimp -zeta +zetaDelta only)
theorem State.openUnit_touchE {m : Nat} (hm : Sub 0x144039784 m) {s0 s9 : State} {s : State} {who : Option Nat} {errs : Errs} {a : Nat} {n : Nat} {b : Nat} {r9 : _} (e : State.openUnit s who errs a n b = (s9, r9)) (h : Touch m s0 s) : Touch m s0 s9 := by
  have k := State.openUnit_touch hm (s0 := s0) s who errs a n b h
  rw [e] at k
  exact k
theorem State.openUnits_touch {m : Nat} (hm : Sub 0x144039784 m) {s0 : State} (s : State) (who : Option Nat) (errs : Errs) (a : Nat) (n : Nat) (a0 : List Nat) (h : Touch m s0 s) : Touch m s0 (State.openUnits s who errs a n a0).1 := by
  induction a0 generalizing s  with
  | nil => exact h
  | cons b r ih => 
    unfold State.openUnits
    repeat' (first | (with_reducible first | assumption | apply ih | apply State.openUnit_touch) | (with_reducible show Sub _ _; exact hm.of rfl) | extract_lets | refine Touch.ofPair ‹_ = (_, _)› ?_ | split | dsimp -zeta only | dsimp -zeta +zetaDelta only)
theorem State.openUnits_touchE {m : Nat} (hm : Sub 0x144039784 m) {s0 s9 : State} {s : State} {who : Option Nat} {errs : Errs} {a : Nat} {n : Nat} {a0 : List Nat} {r9 : _} (e : State.openUnits s who errs a n a0 = (s9, r9)) (h : Touch m s0 s) : Touch m s0 s9 := by
  have k := State.openUnits_touch hm (s0 := s0) s who errs a n a0 h
  rw [e] at k
  exact k
theorem State.writeMem_touch {m : Nat} (hm : Sub 0x144039784 m) {s0 : State} (s : State) (who : Option Nat) (errs : Errs) (a : Nat) (l : List Byte) (h : Touch m s0 s) : Touch m s0 (State.writeMem s who errs a l).1 := by
  unfold State.writeMem
  repeat' (first | (with_reducible first | assumption | apply State.poke_touch | apply State.openUnits_touch) | (with_reducible show Sub _ _; exact hm.of rfl) | extract_lets | refine Touch.ofPair ‹_ = (_, _)› ?_ | split | dsimp -zeta only | dsimp -zeta +zetaDelta only)
theorem State.writeMem_touchE {m : Nat} (hm : Sub 0x144039784 m) {s0 s9 : State} {s : State} {who : Option Nat} {errs : Errs} {a : Nat} {l : List Byte} {r9 : _} (e : State.writeMem s who errs a l = (s9, r9)) (h : Touch m s0 s) : Touch m s0 s9 := by
  have k := State.writeMem_touch hm (s0 := s0) s who errs a l h
  rw [e] at k
  exact k
theorem State.writeEnded_touch {m : Nat} (hm : Sub 0x144039784 m) {s0 : State} (s : State) (who : Option Nat) (ended : List (Nat × Nat)) (errs : Errs) (a : Nat) (l : List Byte) (h : Touch m s0 s) : Touch m s0 (State.writeEnded s who ended errs a l) := by
  unfold State.writeEnded
  repeat' (first | (with_reducible intro _) | (with_reducible first | assumption | apply State.writeMem_touch | apply State.each_touch) | (with_reducible show Sub _ _; exact hm.of rfl) | extract_lets | refine Touch.ofPair ‹_ = (_, _)› ?_ | split | dsimp -zeta only | dsimp -zeta +zetaDelta only)
theorem State.devWrite_touch {m : Nat} (hm : Sub 0x144039784 m) {s0 : State} (s : State) (a : Nat) (l : List Byte) (errs : Errs) (h : Touch m s0 s) : Touch m s0 (State.devWrite s a l errs).1 := by
  unfold State.devWrite
  repeat' (first | (with_reducible first | assumption | apply State.writeMem_touch) | (with_reducible show Sub _ _; exact hm.of rfl) | extract_lets | refine Touch.ofPair ‹_ = (_, _)› ?_ | split | dsimp -zeta only | dsimp -zeta +zetaDelta only)
theorem State.devWrite_touchE {m : Nat} (hm : Sub 0x144039784 m) {s0 s9 : State} {s : State} {a : Nat} {l : List Byte} {errs : Errs} {r9 : _} (e : State.devWrite s a l errs = (s9, r9)) (h : Touch m s0 s) : Touch m s0 s9 := by
  have k := State.devWrite_touch hm (s0 := s0) s a l errs h
  rw [e] at k
  exact k
theorem State.put_touch {m : Nat} (hm : Sub 0x144039784 m) {s0 : State} (s : State) (f : Nat) (a : Nat) (l : List Byte) (h : Touch m s0 s) : Touch m s0 (State.put s f a l) := by
  unfold State.put
  repeat' (first | (with_reducible first | assumption | apply State.writeMem_touch) | (with_reducible show Sub _ _; exact hm.of rfl) | extract_lets | refine Touch.ofPair ‹_ = (_, _)› ?_ | split | dsimp -zeta only | dsimp -zeta +zetaDelta only)

end Sys2Proof.Machine
end

