-- ==== Sys2Proof/Laws/TouchOperands.lean ====
section
/-! SUPPORT. What every operation of Machine/Operands.lean may touch (Sys2Proof.Machine.Touch). -/

namespace Sys2Proof.Machine

set_option linter.all false

theorem State.putOcc_touch {m : Nat} (hm : Sub 0x144039784 m) {s0 : State} (s : State) (f : Nat) (d : Desc) (b : Nat) (v : Bool) (h : Touch m s0 s) : Touch m s0 (State.putOcc s f d b v) := by
  unfold State.putOcc
  repeat' (first | (with_reducible first | assumption | apply State.put_touch) | (with_reducible show Sub _ _; exact hm.of rfl) | extract_lets | refine Touch.ofPair ‹_ = (_, _)› ?_ | split | dsimp -zeta only | dsimp -zeta +zetaDelta only)

end Sys2Proof.Machine
end

