-- ==== Sys2Proof/Laws/TouchStreams.lean ====
section
/-! SUPPORT. What every operation of Machine/Streams.lean may touch (Sys2Proof.Machine.Touch). -/

namespace Sys2Proof.Machine

set_option linter.all false

theorem State.cutStreams_touch {m : Nat} (hm : Sub 0x4 m) {s0 : State} (s : State) (p : Nat) (h : Touch m s0 s) : Touch m s0 (State.cutStreams s p) := by
  unfold State.cutStreams
  repeat' (first | (with_reducible intro _) | (with_reducible first | assumption | apply State.setFloe_touch | apply State.each_touch) | (with_reducible show Sub _ _; exact hm.of rfl) | extract_lets | refine Touch.ofPair ‹_ = (_, _)› ?_ | split | dsimp -zeta only | dsimp -zeta +zetaDelta only)
theorem State.stopStreams_touch {m : Nat} (hm : Sub 0x4 m) {s0 : State} (s : State) (p : Nat) (h : Touch m s0 s) : Touch m s0 (State.stopStreams s p) := by
  unfold State.stopStreams
  repeat' (first | (with_reducible intro _) | (with_reducible first | assumption | apply State.setFloe_touch | apply State.each_touch) | (with_reducible show Sub _ _; exact hm.of rfl) | extract_lets | refine Touch.ofPair ‹_ = (_, _)› ?_ | split | dsimp -zeta only | dsimp -zeta +zetaDelta only)
theorem State.faultStream_touch {m : Nat} (hm : Sub 0x144001414 m) {s0 : State} (s : State) (f : Nat) (st : Stream) (code : Nat) (h : Touch m s0 s) : Touch m s0 (State.faultStream s f st code) := by
  unfold State.faultStream
  repeat' (first | (with_reducible first | assumption | apply State.setPart_touch | apply State.eventOwner_touch | apply State.setStream_touch | apply State.raise_touch | apply State.cutStreams_touch) | (with_reducible show Sub _ _; exact hm.of rfl) | extract_lets | refine Touch.ofPair ‹_ = (_, _)› ?_ | split | dsimp -zeta only | dsimp -zeta +zetaDelta only)
theorem State.issueTo_touch {m : Nat} (hm : Sub 0x4 m) {s0 : State} (s : State) (f : Nat) (st : Stream) (pc : DWord) (h : Touch m s0 s) : Touch m s0 (State.issueTo s f st pc) := by
  unfold State.issueTo
  repeat' (first | (with_reducible first | assumption | apply State.setStream_touch) | (with_reducible show Sub _ _; exact hm.of rfl) | extract_lets | refine Touch.ofPair ‹_ = (_, _)› ?_ | split | dsimp -zeta only | dsimp -zeta +zetaDelta only)
theorem State.issue_touch {m : Nat} (hm : Sub 0x4 m) {s0 : State} (s : State) (f : Nat) (st : Stream) (h : Touch m s0 s) : Touch m s0 (State.issue s f st) := by
  unfold State.issue
  repeat' (first | (with_reducible first | assumption | apply State.issueTo_touch) | (with_reducible show Sub _ _; exact hm.of rfl) | extract_lets | refine Touch.ofPair ‹_ = (_, _)› ?_ | split | dsimp -zeta only | dsimp -zeta +zetaDelta only)
theorem State.inCycle_touch {m : Nat} (hm : Sub 0x4 m) {s0 : State} (s : State) (f : Nat) (st : Stream) (g : State → State) (h_g : ∀ (y0 : State) (_ : Touch m s0 y0), Touch m s0 (g y0)) (h : Touch m s0 s) : Touch m s0 (State.inCycle s f st g) := by
  unfold State.inCycle
  repeat' (first | (with_reducible first | assumption | apply h_g | apply State.setStream_touch) | (with_reducible show Sub _ _; exact hm.of rfl) | extract_lets | refine Touch.ofPair ‹_ = (_, _)› ?_ | split | dsimp -zeta only | dsimp -zeta +zetaDelta only)
theorem State.onHead_touch {m : Nat} (hm : Sub 0x144001414 m) {s0 : State} (s : State) (f : Nat) (st : Stream) (ok : IWord → Bool) (g : IWord → State) (h_g : ∀ (y0 : IWord) , Touch m s0 (g y0)) (h : Touch m s0 s) : Touch m s0 (State.onHead s f st ok g) := by
  unfold State.onHead
  repeat' (first | (with_reducible first | assumption | apply h_g | apply State.faultStream_touch) | (with_reducible show Sub _ _; exact hm.of rfl) | extract_lets | refine Touch.ofPair ‹_ = (_, _)› ?_ | split | dsimp -zeta only | dsimp -zeta +zetaDelta only)
theorem execSalu_touch {m : Nat} (hm : Sub 0x144001414 m) {s0 : State} (f : Nat) (st : Stream) (s : State) (h : Touch m s0 s) : TouchO m s0 (execSalu f st s) := by
  unfold execSalu
  repeat' (first | (with_reducible intro _) | (with_reducible first | assumption | apply TouchO.next | apply State.inCycle_touch | apply State.setStream_touch | apply State.issue_touch | apply State.onHead_touch) | (with_reducible show Sub _ _; exact hm.of rfl) | extract_lets | refine Touch.ofPair ‹_ = (_, _)› ?_ | split | dsimp -zeta only | dsimp -zeta +zetaDelta only)
theorem execSld_touch {m : Nat} (hm : Sub 0x144039514 m) {s0 : State} (f : Nat) (st : Stream) (errs : Errs) (s : State) (h : Touch m s0 s) : TouchO m s0 (execSld f st errs s) := by
  unfold execSld
  repeat' (first | (with_reducible intro _) | (with_reducible first | assumption | apply TouchO.next | apply State.inCycle_touch | apply State.setStream_touch | apply State.issue_touch | apply State.setFloe_touch | apply State.onHead_touch | apply State.faultStream_touch | apply State.readMem_touch) | (with_reducible show Sub _ _; exact hm.of rfl) | extract_lets | refine Touch.ofPair ‹_ = (_, _)› ?_ | split | dsimp -zeta only | dsimp -zeta +zetaDelta only)
theorem execSldReturn_touch {m : Nat} (hm : Sub 0x4 m) {s0 : State} (f : Nat) (st : Stream) (rd : Nat) (s : State) (h : Touch m s0 s) : TouchO m s0 (execSldReturn f st rd s) := by
  unfold execSldReturn
  repeat' (first | (with_reducible first | assumption | apply TouchO.next | apply State.setStream_touch | apply State.setFloe_touch) | (with_reducible show Sub _ _; exact hm.of rfl) | extract_lets | refine Touch.ofPair ‹_ = (_, _)› ?_ | split | dsimp -zeta only | dsimp -zeta +zetaDelta only)
theorem execSst_touch {m : Nat} (hm : Sub 0x144039794 m) {s0 : State} (f : Nat) (st : Stream) (errs : Errs) (s : State) (h : Touch m s0 s) : TouchO m s0 (execSst f st errs s) := by
  unfold execSst
  repeat' (first | (with_reducible intro _) | (with_reducible first | assumption | apply TouchO.next | apply State.inCycle_touch | apply State.writeMem_touch | apply State.issue_touch | apply State.onHead_touch | apply State.faultStream_touch) | (with_reducible show Sub _ _; exact hm.of rfl) | extract_lets | refine Touch.ofPair ‹_ = (_, _)› ?_ | split | dsimp -zeta only | dsimp -zeta +zetaDelta only)
theorem execBr_touch {m : Nat} (hm : Sub 0x144001414 m) {s0 : State} (f : Nat) (st : Stream) (s : State) (h : Touch m s0 s) : TouchO m s0 (execBr f st s) := by
  unfold execBr
  repeat' (first | (with_reducible intro _) | (with_reducible first | assumption | apply TouchO.next | apply State.inCycle_touch | apply State.issue_touch | apply State.issueTo_touch | apply State.onHead_touch) | (with_reducible show Sub _ _; exact hm.of rfl) | extract_lets | refine Touch.ofPair ‹_ = (_, _)› ?_ | split | dsimp -zeta only | dsimp -zeta +zetaDelta only)
theorem execJump_touch {m : Nat} (hm : Sub 0x144001414 m) {s0 : State} (f : Nat) (st : Stream) (s : State) (h : Touch m s0 s) : TouchO m s0 (execJump f st s) := by
  unfold execJump
  repeat' (first | (with_reducible intro _) | (with_reducible first | assumption | apply TouchO.next | apply State.inCycle_touch | apply State.setStream_touch | apply State.issueTo_touch | apply State.onHead_touch) | (with_reducible show Sub _ _; exact hm.of rfl) | extract_lets | refine Touch.ofPair ‹_ = (_, _)› ?_ | split | dsimp -zeta only | dsimp -zeta +zetaDelta only)
theorem execHalt_touch {m : Nat} (hm : Sub 0x144001414 m) {s0 : State} (f : Nat) (st : Stream) (s : State) (h : Touch m s0 s) : TouchO m s0 (execHalt f st s) := by
  unfold execHalt
  repeat' (first | (with_reducible intro _) | (with_reducible first | assumption | apply TouchO.next | apply State.inCycle_touch | apply State.setStream_touch | apply State.onHead_touch) | (with_reducible show Sub _ _; exact hm.of rfl) | extract_lets | refine Touch.ofPair ‹_ = (_, _)› ?_ | split | dsimp -zeta only | dsimp -zeta +zetaDelta only)
theorem State.programEnd_touch {m : Nat} (hm : Sub 0x144001410 m) {s0 : State} (s : State) (p : Nat) (h : Touch m s0 s) : Touch m s0 (State.programEnd s p) := by
  unfold State.programEnd
  repeat' (first | (with_reducible first | assumption | apply State.setPart_touch | apply State.eventOwner_touch) | (with_reducible show Sub _ _; exact hm.of rfl) | extract_lets | refine Touch.ofPair ‹_ = (_, _)› ?_ | split | dsimp -zeta only | dsimp -zeta +zetaDelta only)
theorem execHaltComplete_touch {m : Nat} (hm : Sub 0x144001414 m) {s0 : State} (f : Nat) (st : Stream) (s : State) (h : Touch m s0 s) : TouchO m s0 (execHaltComplete f st s) := by
  unfold execHaltComplete
  repeat' (first | (with_reducible first | assumption | apply TouchO.next | apply State.setStream_touch | apply State.programEnd_touch) | (with_reducible show Sub _ _; exact hm.of rfl) | extract_lets | refine Touch.ofPair ‹_ = (_, _)› ?_ | split | dsimp -zeta only | dsimp -zeta +zetaDelta only)
theorem execNop_touch {m : Nat} (hm : Sub 0x144001414 m) {s0 : State} (f : Nat) (st : Stream) (s : State) (h : Touch m s0 s) : TouchO m s0 (execNop f st s) := by
  unfold execNop
  repeat' (first | (with_reducible intro _) | (with_reducible first | assumption | apply TouchO.next | apply State.inCycle_touch | apply State.issue_touch | apply State.onHead_touch) | (with_reducible show Sub _ _; exact hm.of rfl) | extract_lets | refine Touch.ofPair ‹_ = (_, _)› ?_ | split | dsimp -zeta only | dsimp -zeta +zetaDelta only)
theorem execTagWait_touch {m : Nat} (hm : Sub 0x144001414 m) {s0 : State} (f : Nat) (st : Stream) (s : State) (h : Touch m s0 s) : TouchO m s0 (execTagWait f st s) := by
  unfold execTagWait
  repeat' (first | (with_reducible intro _) | (with_reducible first | assumption | apply TouchO.next | apply State.inCycle_touch | apply State.setStream_touch | apply State.onHead_touch) | (with_reducible show Sub _ _; exact hm.of rfl) | extract_lets | refine Touch.ofPair ‹_ = (_, _)› ?_ | split | dsimp -zeta only | dsimp -zeta +zetaDelta only)
theorem execTagWaitComplete_touch {m : Nat} (hm : Sub 0x4 m) {s0 : State} (f : Nat) (st : Stream) (s : State) (h : Touch m s0 s) : TouchO m s0 (execTagWaitComplete f st s) := by
  unfold execTagWaitComplete
  repeat' (first | (with_reducible first | assumption | apply TouchO.next | apply State.setStream_touch | apply State.issue_touch) | (with_reducible show Sub _ _; exact hm.of rfl) | extract_lets | refine Touch.ofPair ‹_ = (_, _)› ?_ | split | dsimp -zeta only | dsimp -zeta +zetaDelta only)
theorem State.signal_touch {m : Nat} (hm : Sub 0x4 m) {s0 : State} (s : State) (f : Nat) (t : Nat) (n : Half) (h : Touch m s0 s) : Touch m s0 (State.signal s f t n) := by
  unfold State.signal
  repeat' (first | (with_reducible first | assumption | apply State.setFloe_touch) | (with_reducible show Sub _ _; exact hm.of rfl) | extract_lets | refine Touch.ofPair ‹_ = (_, _)› ?_ | split | dsimp -zeta only | dsimp -zeta +zetaDelta only)
theorem execTagSignal_touch {m : Nat} (hm : Sub 0x14400141C m) {s0 : State} (f : Nat) (st : Stream) (s : State) (h : Touch m s0 s) : TouchO m s0 (execTagSignal f st s) := by
  unfold execTagSignal
  repeat' (first | (with_reducible intro _) | (with_reducible first | assumption | apply TouchO.next | apply State.inCycle_touch | apply State.issue_touch | apply State.onHead_touch | apply State.signal_touch | apply State.faultStream_touch) | (with_reducible show Sub _ _; exact hm.of rfl) | simp -zeta only [Touch.upd_signalsI (hm.of rfl)] | extract_lets | refine Touch.ofPair ‹_ = (_, _)› ?_ | split | dsimp -zeta only | dsimp -zeta +zetaDelta only)
theorem execRemoteSignal_touch {m : Nat} (hm : Sub 0xC m) {s0 : State} (src : Nat) (st : Stream) (dst : Nat) (s : State) (h : Touch m s0 s) : TouchO m s0 (execRemoteSignal src st dst s) := by
  unfold execRemoteSignal
  repeat' (first | (with_reducible first | assumption | apply TouchO.next | apply State.signal_touch) | (with_reducible show Sub _ _; exact hm.of rfl) | simp -zeta only [Touch.upd_signalsI (hm.of rfl)] | extract_lets | refine Touch.ofPair ‹_ = (_, _)› ?_ | split | dsimp -zeta only | dsimp -zeta +zetaDelta only)
theorem execStreamStall_touch {m : Nat} (hm : Sub 0x144001414 m) {s0 : State} (f : Nat) (st : Stream) (s : State) (h : Touch m s0 s) : TouchO m s0 (execStreamStall f st s) := by
  unfold execStreamStall
  repeat' (first | (with_reducible intro _) | (with_reducible first | assumption | apply TouchO.next | apply State.inCycle_touch | apply State.faultStream_touch) | (with_reducible show Sub _ _; exact hm.of rfl) | extract_lets | refine Touch.ofPair ‹_ = (_, _)› ?_ | split | dsimp -zeta only | dsimp -zeta +zetaDelta only)
theorem execIllegalOp_touch {m : Nat} (hm : Sub 0x144039514 m) {s0 : State} (f : Nat) (st : Stream) (errs : Errs) (s : State) (h : Touch m s0 s) : TouchO m s0 (execIllegalOp f st errs s) := by
  unfold execIllegalOp
  repeat' (first | (with_reducible intro _) | (with_reducible first | assumption | apply TouchO.next | apply State.strike_touch | apply State.inCycle_touch | apply State.noteRange_touch | apply State.faultStream_touch) | (with_reducible show Sub _ _; exact hm.of rfl) | extract_lets | refine Touch.ofPair ‹_ = (_, _)› ?_ | split | dsimp -zeta only | dsimp -zeta +zetaDelta only)
theorem execPcRange_touch {m : Nat} (hm : Sub 0x144001414 m) {s0 : State} (f : Nat) (st : Stream) (s : State) (h : Touch m s0 s) : TouchO m s0 (execPcRange f st s) := by
  unfold execPcRange
  repeat' (first | (with_reducible intro _) | (with_reducible first | assumption | apply TouchO.next | apply State.inCycle_touch | apply State.faultStream_touch) | (with_reducible show Sub _ _; exact hm.of rfl) | extract_lets | refine Touch.ofPair ‹_ = (_, _)› ?_ | split | dsimp -zeta only | dsimp -zeta +zetaDelta only)

end Sys2Proof.Machine
end

