-- ==== Sys2Proof/Laws/TouchHeads.lean ====
section
/-! SUPPORT. What every operation of Machine/Heads.lean may touch (Sys2Proof.Machine.Touch). -/

namespace Sys2Proof.Machine

set_option linter.all false

theorem State.readDescs_touch {m : Nat} (hm : Sub 0x144039504 m) {s0 : State} (s : State) (f : Nat) (errs : Errs) (tags : List Nat) (h : Touch m s0 s) : Touch m s0 (State.readDescs s f errs tags) := by
  unfold State.readDescs
  repeat' (first | (with_reducible intro _) | (with_reducible first | assumption | apply State.strike_touch | apply State.noteRange_touch | apply State.each_touch) | (with_reducible show Sub _ _; exact hm.of rfl) | extract_lets | refine Touch.ofPair ‹_ = (_, _)› ?_ | split | dsimp -zeta only | dsimp -zeta +zetaDelta only)
theorem State.grant_touch {m : Nat} (hm : Sub 0x144039514 m) {s0 : State} (s : State) (f : Nat) (unit : Nat) (st : Stream) (a : Arb) (tags : List Nat) (fault : State → Option Nat) (accept : State → State) (h_accept : ∀ (y0 : State) (_ : Touch m s0 y0), Touch m s0 (accept y0)) (h : Touch m s0 s) : Touch m s0 (State.grant s f unit st a tags fault accept) := by
  unfold State.grant
  repeat' (first | (with_reducible first | assumption | apply h_accept | apply State.setFloe_touch | apply State.readDescs_touch | apply State.faultStream_touch) | (with_reducible show Sub _ _; exact hm.of rfl) | extract_lets | refine Touch.ofPair ‹_ = (_, _)› ?_ | split | dsimp -zeta only | dsimp -zeta +zetaDelta only)

end Sys2Proof.Machine
end

