-- ==== Sys2Proof/Laws/TouchArray.lean ====
section
/-! SUPPORT. What every operation of Machine/Array.lean may touch (Sys2Proof.Machine.Touch). -/

namespace Sys2Proof.Machine

set_option linter.all false

theorem State.mmaRead_touch {m : Nat} (hm : Sub 0x144039504 m) {s0 : State} (s : State) (f : Nat) (errs : Errs) (o : MmaOp) (h : Touch m s0 s) : Touch m s0 (State.mmaRead s f errs o).1 := by
  unfold State.mmaRead
  repeat' (first | (with_reducible intro _) | (with_reducible first | assumption | apply State.noteRange_touch | apply State.setFloe_touch | apply State.each_touch) | (with_reducible show Sub _ _; exact hm.of rfl) | extract_lets | refine Touch.ofPair ‹_ = (_, _)› ?_ | split | dsimp -zeta only | dsimp -zeta +zetaDelta only)
theorem State.mmaRead_touchE {m : Nat} (hm : Sub 0x144039504 m) {s0 s9 : State} {s : State} {f : Nat} {errs : Errs} {o : MmaOp} {r9 : _} (e : State.mmaRead s f errs o = (s9, r9)) (h : Touch m s0 s) : Touch m s0 s9 := by
  have k := State.mmaRead_touch hm (s0 := s0) s f errs o h
  rw [e] at k
  exact k
theorem State.mmaAccept_touch {m : Nat} (hm : Sub 0x144039504 m) {s0 : State} (s : State) (f : Nat) (st : Stream) (w : IWord) (m0 : Nat) (n0 : Nat) (k0 : Nat) (a : Desc) (b : Desc) (h : Touch m s0 s) : Touch m s0 (State.mmaAccept s f st w m0 n0 k0 a b) := by
  unfold State.mmaAccept
  repeat' (first | (with_reducible first | assumption | apply State.issue_touch | apply State.setFloe_touch | apply State.mmaRead_touch) | (with_reducible show Sub _ _; exact hm.of rfl) | extract_lets | refine Touch.ofPair ‹_ = (_, _)› ?_ | split | dsimp -zeta only | dsimp -zeta +zetaDelta only)
theorem State.mmaHead_touch {m : Nat} (hm : Sub 0x144039514 m) {s0 : State} (s : State) (f : Nat) (st : Stream) (arb : Arb) (w : IWord) (h : Touch m s0 s) : Touch m s0 (State.mmaHead s f st arb w) := by
  unfold State.mmaHead
  repeat' (first | (with_reducible intro _) | (with_reducible first | assumption | apply State.grant_touch | apply State.mmaAccept_touch) | (with_reducible show Sub _ _; exact hm.of rfl) | extract_lets | refine Touch.ofPair ‹_ = (_, _)› ?_ | split | dsimp -zeta only | dsimp -zeta +zetaDelta only)
theorem execMma_touch {m : Nat} (hm : Sub 0x144039514 m) {s0 : State} (f : Nat) (st : Stream) (arb : Arb) (s : State) (h : Touch m s0 s) : TouchO m s0 (execMma f st arb s) := by
  unfold execMma
  repeat' (first | (with_reducible intro _) | (with_reducible first | assumption | apply TouchO.next | apply State.inCycle_touch | apply State.onHead_touch | apply State.mmaHead_touch) | (with_reducible show Sub _ _; exact hm.of rfl) | extract_lets | refine Touch.ofPair ‹_ = (_, _)› ?_ | split | dsimp -zeta only | dsimp -zeta +zetaDelta only)
theorem execMmaT_touch {m : Nat} (hm : Sub 0x144039514 m) {s0 : State} (f : Nat) (st : Stream) (arb : Arb) (s : State) (h : Touch m s0 s) : TouchO m s0 (execMmaT f st arb s) := by
  unfold execMmaT
  repeat' (first | (with_reducible intro _) | (with_reducible first | assumption | apply TouchO.next | apply State.inCycle_touch | apply State.onHead_touch | apply State.mmaHead_touch) | (with_reducible show Sub _ _; exact hm.of rfl) | extract_lets | refine Touch.ofPair ‹_ = (_, _)› ?_ | split | dsimp -zeta only | dsimp -zeta +zetaDelta only)
theorem execMmaSp_touch {m : Nat} (hm : Sub 0x144039514 m) {s0 : State} (f : Nat) (st : Stream) (arb : Arb) (s : State) (h : Touch m s0 s) : TouchO m s0 (execMmaSp f st arb s) := by
  unfold execMmaSp
  repeat' (first | (with_reducible intro _) | (with_reducible first | assumption | apply TouchO.next | apply State.inCycle_touch | apply State.onHead_touch | apply State.mmaHead_touch) | (with_reducible show Sub _ _; exact hm.of rfl) | extract_lets | refine Touch.ofPair ‹_ = (_, _)› ?_ | split | dsimp -zeta only | dsimp -zeta +zetaDelta only)
theorem execMmaComplete_touch {m : Nat} (hm : Sub 0x4 m) {s0 : State} (f : Nat) (bank : Nat) (s : State) (h : Touch m s0 s) : TouchO m s0 (execMmaComplete f bank s) := by
  unfold execMmaComplete
  repeat' (first | (with_reducible first | assumption | apply TouchO.next | apply State.setFloe_touch) | (with_reducible show Sub _ _; exact hm.of rfl) | extract_lets | refine Touch.ofPair ‹_ = (_, _)› ?_ | split | dsimp -zeta only | dsimp -zeta +zetaDelta only)
theorem execTileRowDrain_touch {m : Nat} (hm : Sub 0x144001404 m) {s0 : State} (f : Nat) (bank : Nat) (parityError : Bool) (s : State) (h : Touch m s0 s) : TouchO m s0 (execTileRowDrain f bank parityError s) := by
  unfold execTileRowDrain
  repeat' (first | (with_reducible first | assumption | apply TouchO.next | apply State.setFloe_touch | apply State.recordNf_touch | apply State.raise_touch) | (with_reducible show Sub _ _; exact hm.of rfl) | extract_lets | refine Touch.ofPair ‹_ = (_, _)› ?_ | split | dsimp -zeta only | dsimp -zeta +zetaDelta only)

end Sys2Proof.Machine
end

