-- ==== Sys2Proof/Laws/TouchVector.lean ====
section
/-! SUPPORT. What every operation of Machine/Vector.lean may touch (Sys2Proof.Machine.Touch). -/

namespace Sys2Proof.Machine

set_option linter.all false

theorem State.markOcc_touch {m : Nat} (hm : Sub 0x144039784 m) {s0 : State} (s : State) (f : Nat) (d : Desc) (br : Nat) (bc : Nat) (v : Bool) (h : Touch m s0 s) : Touch m s0 (State.markOcc s f d br bc v) := by
  unfold State.markOcc
  repeat' (first | (with_reducible first | assumption | apply State.putOcc_touch) | (with_reducible show Sub _ _; exact hm.of rfl) | extract_lets | refine Touch.ofPair ‹_ = (_, _)› ?_ | split | dsimp -zeta only | dsimp -zeta +zetaDelta only)
theorem State.writeBlock_touch {m : Nat} (hm : Sub 0x144039784 m) {s0 : State} (s : State) (f : Nat) (d : Desc) (sr : Bool) (br : Nat) (bc : Nat) (rows : List (List FVal)) (h : Touch m s0 s) : Touch m s0 (State.writeBlock s f d sr br bc rows).1 := by
  unfold State.writeBlock
  repeat' (first | (with_reducible first | assumption | apply State.put_touch | apply State.markOcc_touch) | (with_reducible show Sub _ _; exact hm.of rfl) | extract_lets | refine Touch.ofPair ‹_ = (_, _)› ?_ | split | dsimp -zeta only | dsimp -zeta +zetaDelta only)
theorem State.writeBlock_touchE {m : Nat} (hm : Sub 0x144039784 m) {s0 s9 : State} {s : State} {f : Nat} {d : Desc} {sr : Bool} {br : Nat} {bc : Nat} {rows : List (List FVal)} {r9 : _} (e : State.writeBlock s f d sr br bc rows = (s9, r9)) (h : Touch m s0 s) : Touch m s0 s9 := by
  have k := State.writeBlock_touch hm (s0 := s0) s f d sr br bc rows h
  rw [e] at k
  exact k
theorem State.writeBsBlock_touch {m : Nat} (hm : Sub 0x144039784 m) {s0 : State} (s : State) (f : Nat) (d : Desc) (br : Nat) (bc : Nat) (rows : List (List FVal)) (h : Touch m s0 s) : Touch m s0 (State.writeBsBlock s f d br bc rows).1 := by
  unfold State.writeBsBlock
  repeat' (first | (with_reducible intro _) | (with_reducible first | assumption | apply State.put_touch | apply State.markOcc_touch | apply State.each_touch) | (with_reducible show Sub _ _; exact hm.of rfl) | extract_lets | refine Touch.ofPair ‹_ = (_, _)› ?_ | split | dsimp -zeta only | dsimp -zeta +zetaDelta only)
theorem State.writeBsBlock_touchE {m : Nat} (hm : Sub 0x144039784 m) {s0 s9 : State} {s : State} {f : Nat} {d : Desc} {br : Nat} {bc : Nat} {rows : List (List FVal)} {r9 : _} (e : State.writeBsBlock s f d br bc rows = (s9, r9)) (h : Touch m s0 s) : Touch m s0 s9 := by
  have k := State.writeBsBlock_touch hm (s0 := s0) s f d br bc rows h
  rw [e] at k
  exact k
theorem State.sink_touch {m : Nat} (hm : Sub 0x144039784 m) {s0 : State} (s : State) (f : Nat) (o : PassOp) (rows : List (List (Option F32))) (h : Touch m s0 s) : Touch m s0 (State.sink s f o rows).1 := by
  unfold State.sink
  repeat' (first | (with_reducible intro _) | (with_reducible first | assumption | apply State.writeBlock_touch | apply State.writeBsBlock_touch | apply Touch.foldl | apply Touch.foldl1) | (with_reducible show Sub _ _; exact hm.of rfl) | extract_lets | refine Touch.ofPair ‹_ = (_, _)› ?_ | split | dsimp -zeta only | dsimp -zeta +zetaDelta only)
theorem State.sink_touchE {m : Nat} (hm : Sub 0x144039784 m) {s0 s9 : State} {s : State} {f : Nat} {o : PassOp} {rows : List (List (Option F32))} {r9 : _} (e : State.sink s f o rows = (s9, r9)) (h : Touch m s0 s) : Touch m s0 s9 := by
  have k := State.sink_touch hm (s0 := s0) s f o rows h
  rw [e] at k
  exact k
theorem State.passAccept_touch {m : Nat} (hm : Sub 0x4 m) {s0 : State} (s : State) (f : Nat) (st : Stream) (w : IWord) (m0 : Nat) (n0 : Nat) (a : Option Desc) (b : Option Desc) (ops : Tbl Desc) (h : Touch m s0 s) : Touch m s0 (State.passAccept s f st w m0 n0 a b ops) := by
  unfold State.passAccept
  repeat' (first | (with_reducible first | assumption | apply State.issue_touch | apply State.setFloe_touch) | (with_reducible show Sub _ _; exact hm.of rfl) | extract_lets | refine Touch.ofPair ‹_ = (_, _)› ?_ | split | dsimp -zeta only | dsimp -zeta +zetaDelta only)
theorem State.passHead_touch {m : Nat} (hm : Sub 0x144039514 m) {s0 : State} (s : State) (f : Nat) (st : Stream) (arb : Arb) (w : IWord) (h : Touch m s0 s) : Touch m s0 (State.passHead s f st arb w) := by
  unfold State.passHead
  repeat' (first | (with_reducible intro _) | (with_reducible first | assumption | apply State.grant_touch | apply State.passAccept_touch) | (with_reducible show Sub _ _; exact hm.of rfl) | extract_lets | refine Touch.ofPair ‹_ = (_, _)› ?_ | split | dsimp -zeta only | dsimp -zeta +zetaDelta only)
theorem execVec_touch {m : Nat} (hm : Sub 0x144039514 m) {s0 : State} (f : Nat) (st : Stream) (arb : Arb) (s : State) (h : Touch m s0 s) : TouchO m s0 (execVec f st arb s) := by
  unfold execVec
  repeat' (first | (with_reducible intro _) | (with_reducible first | assumption | apply TouchO.next | apply State.inCycle_touch | apply State.onHead_touch | apply State.passHead_touch) | (with_reducible show Sub _ _; exact hm.of rfl) | extract_lets | refine Touch.ofPair ‹_ = (_, _)› ?_ | split | dsimp -zeta only | dsimp -zeta +zetaDelta only)
theorem execRed_touch {m : Nat} (hm : Sub 0x144039514 m) {s0 : State} (f : Nat) (st : Stream) (arb : Arb) (s : State) (h : Touch m s0 s) : TouchO m s0 (execRed f st arb s) := by
  unfold execRed
  repeat' (first | (with_reducible intro _) | (with_reducible first | assumption | apply TouchO.next | apply State.inCycle_touch | apply State.onHead_touch | apply State.passHead_touch) | (with_reducible show Sub _ _; exact hm.of rfl) | extract_lets | refine Touch.ofPair ‹_ = (_, _)› ?_ | split | dsimp -zeta only | dsimp -zeta +zetaDelta only)
theorem execCvtBs16_touch {m : Nat} (hm : Sub 0x144039514 m) {s0 : State} (f : Nat) (st : Stream) (arb : Arb) (s : State) (h : Touch m s0 s) : TouchO m s0 (execCvtBs16 f st arb s) := by
  unfold execCvtBs16
  repeat' (first | (with_reducible intro _) | (with_reducible first | assumption | apply TouchO.next | apply State.inCycle_touch | apply State.onHead_touch | apply State.passHead_touch) | (with_reducible show Sub _ _; exact hm.of rfl) | extract_lets | refine Touch.ofPair ‹_ = (_, _)› ?_ | split | dsimp -zeta only | dsimp -zeta +zetaDelta only)
theorem State.countMalformed_touch {m : Nat} (hm : Sub 0x104000000 m) {s0 : State} (s : State) (f : Nat) (n : Nat) (h : Touch m s0 s) : Touch m s0 (State.countMalformed s f n) := by
  unfold State.countMalformed
  repeat' (first | (with_reducible intro _) | (with_reducible first | assumption | apply State.countErr_touch | apply State.each_touch) | (with_reducible show Sub _ _; exact hm.of rfl) | extract_lets | refine Touch.ofPair ‹_ = (_, _)› ?_ | split | dsimp -zeta only | dsimp -zeta +zetaDelta only)
theorem State.passRead_touch {m : Nat} (hm : Sub 0x144039504 m) {s0 : State} (s : State) (f : Nat) (errs : Errs) (o : PassOp) (h : Touch m s0 s) : Touch m s0 (State.passRead s f errs o) := by
  unfold State.passRead
  repeat' (first | (with_reducible intro _) | (with_reducible first | assumption | apply State.noteRange_touch | apply State.setFloe_touch | apply State.countMalformed_touch | apply State.each_touch | apply Touch.foldl | apply Touch.foldl1) | (with_reducible show Sub _ _; exact hm.of rfl) | extract_lets | refine Touch.ofPair ‹_ = (_, _)› ?_ | split | dsimp -zeta only | dsimp -zeta +zetaDelta only)
theorem execTileRowRelease_touch {m : Nat} (hm : Sub 0x4 m) {s0 : State} (f : Nat) (s : State) (h : Touch m s0 s) : TouchO m s0 (execTileRowRelease f s) := by
  unfold execTileRowRelease
  repeat' (first | (with_reducible first | assumption | apply TouchO.next | apply State.setFloe_touch) | (with_reducible show Sub _ _; exact hm.of rfl) | extract_lets | refine Touch.ofPair ‹_ = (_, _)› ?_ | split | dsimp -zeta only | dsimp -zeta +zetaDelta only)
theorem State.passComplete_touch {m : Nat} (hm : Sub 0x144039784 m) {s0 : State} (s : State) (f : Nat) (o : PassOp) (h : Touch m s0 s) : Touch m s0 (State.passComplete s f o) := by
  unfold State.passComplete
  extract_lets
  split
  rename_i s1 sat pois heq
  have h1 : Touch m s0 s1 := by
    split at heq
    · cases heq; exact h
    · exact State.sink_touchE (hm.of rfl) heq h
  clear heq h
  repeat' (first | (with_reducible intro _) | (with_reducible first | assumption | apply State.setFloe_touch | apply State.recordNf_touch | apply State.sink_touch | apply Touch.foldl | apply Touch.foldl1) | (with_reducible show Sub _ _; exact hm.of rfl) | extract_lets | refine Touch.ofPair ‹_ = (_, _)› ?_ | split | dsimp -zeta only | dsimp -zeta +zetaDelta only)
theorem execVecPassComplete_touch {m : Nat} (hm : Sub 0x144039784 m) {s0 : State} (f : Nat) (s : State) (h : Touch m s0 s) : TouchO m s0 (execVecPassComplete f s) := by
  unfold execVecPassComplete
  repeat' (first | (with_reducible first | assumption | apply TouchO.next | apply State.passComplete_touch) | (with_reducible show Sub _ _; exact hm.of rfl) | extract_lets | refine Touch.ofPair ‹_ = (_, _)› ?_ | split | dsimp -zeta only | dsimp -zeta +zetaDelta only)

end Sys2Proof.Machine
end

