-- ==== Sys2Proof/Laws/TouchCond.lean ====
section
/-! SUPPORT. What every operation of Machine/Cond.lean may touch (Sys2Proof.Machine.Touch). -/

namespace Sys2Proof.Machine

set_option linter.all false

theorem State.gateRun_touch {m : Nat} (hm : Sub 0x144039784 m) {s0 : State} (s : State) (f : Nat) (errs : Errs) (o : CondOp) (h : Touch m s0 s) : Touch m s0 (State.gateRun s f errs o) := by
  unfold State.gateRun
  repeat' (first | (with_reducible intro _) | (with_reducible first | assumption | apply State.noteRange_touch | apply State.setFloe_touch | apply State.recordNf_touch | apply State.put_touch | apply State.each_touch) | (with_reducible show Sub _ _; exact hm.of rfl) | extract_lets | refine Touch.ofPair ‹_ = (_, _)› ?_ | split | dsimp -zeta only | dsimp -zeta +zetaDelta only)
theorem State.assignRun_touch {m : Nat} (hm : Sub 0x144039784 m) {s0 : State} (s : State) (f : Nat) (errs : Errs) (o : CondOp) (h : Touch m s0 s) : Touch m s0 (State.assignRun s f errs o) := by
  unfold State.assignRun
  repeat' (first | (with_reducible intro _) | (with_reducible first | assumption | apply State.noteRange_touch | apply State.setFloe_touch | apply State.put_touch | apply State.each_touch) | (with_reducible show Sub _ _; exact hm.of rfl) | extract_lets | refine Touch.ofPair ‹_ = (_, _)› ?_ | split | dsimp -zeta only | dsimp -zeta +zetaDelta only)
theorem State.packRun_touch {m : Nat} (hm : Sub 0x144039784 m) {s0 : State} (s : State) (f : Nat) (errs : Errs) (o : CondOp) (h : Touch m s0 s) : Touch m s0 (State.packRun s f errs o) := by
  unfold State.packRun
  repeat' (first | (with_reducible intro _) | (with_reducible first | assumption | apply State.writeBlock_touch | apply State.noteRange_touch | apply State.recordNf_touch | apply State.each_touch | apply Touch.foldl | apply Touch.foldl1) | (with_reducible show Sub _ _; exact hm.of rfl) | extract_lets | refine Touch.ofPair ‹_ = (_, _)› ?_ | split | dsimp -zeta only | dsimp -zeta +zetaDelta only)
theorem State.condHead_touch {m : Nat} (hm : Sub 0x144039514 m) {s0 : State} (s : State) (f : Nat) (st : Stream) (arb : Arb) (w : IWord) (h : Touch m s0 s) : Touch m s0 (State.condHead s f st arb w) := by
  unfold State.condHead
  repeat' (first | (with_reducible intro _) | (with_reducible first | assumption | apply State.issue_touch | apply State.setFloe_touch | apply State.grant_touch) | (with_reducible show Sub _ _; exact hm.of rfl) | extract_lets | refine Touch.ofPair ‹_ = (_, _)› ?_ | split | dsimp -zeta only | dsimp -zeta +zetaDelta only)
theorem execGateTopk_touch {m : Nat} (hm : Sub 0x144039514 m) {s0 : State} (f : Nat) (st : Stream) (arb : Arb) (s : State) (h : Touch m s0 s) : TouchO m s0 (execGateTopk f st arb s) := by
  unfold execGateTopk
  repeat' (first | (with_reducible intro _) | (with_reducible first | assumption | apply TouchO.next | apply State.inCycle_touch | apply State.onHead_touch | apply State.condHead_touch) | (with_reducible show Sub _ _; exact hm.of rfl) | extract_lets | refine Touch.ofPair ‹_ = (_, _)› ?_ | split | dsimp -zeta only | dsimp -zeta +zetaDelta only)
theorem execPackAssign_touch {m : Nat} (hm : Sub 0x144039514 m) {s0 : State} (f : Nat) (st : Stream) (arb : Arb) (s : State) (h : Touch m s0 s) : TouchO m s0 (execPackAssign f st arb s) := by
  unfold execPackAssign
  repeat' (first | (with_reducible intro _) | (with_reducible first | assumption | apply TouchO.next | apply State.inCycle_touch | apply State.onHead_touch | apply State.condHead_touch) | (with_reducible show Sub _ _; exact hm.of rfl) | extract_lets | refine Touch.ofPair ‹_ = (_, _)› ?_ | split | dsimp -zeta only | dsimp -zeta +zetaDelta only)
theorem execPackGather_touch {m : Nat} (hm : Sub 0x144039514 m) {s0 : State} (f : Nat) (st : Stream) (arb : Arb) (s : State) (h : Touch m s0 s) : TouchO m s0 (execPackGather f st arb s) := by
  unfold execPackGather
  repeat' (first | (with_reducible intro _) | (with_reducible first | assumption | apply TouchO.next | apply State.inCycle_touch | apply State.onHead_touch | apply State.condHead_touch) | (with_reducible show Sub _ _; exact hm.of rfl) | extract_lets | refine Touch.ofPair ‹_ = (_, _)› ?_ | split | dsimp -zeta only | dsimp -zeta +zetaDelta only)
theorem execPackCombine_touch {m : Nat} (hm : Sub 0x144039514 m) {s0 : State} (f : Nat) (st : Stream) (arb : Arb) (s : State) (h : Touch m s0 s) : TouchO m s0 (execPackCombine f st arb s) := by
  unfold execPackCombine
  repeat' (first | (with_reducible intro _) | (with_reducible first | assumption | apply TouchO.next | apply State.inCycle_touch | apply State.onHead_touch | apply State.condHead_touch) | (with_reducible show Sub _ _; exact hm.of rfl) | extract_lets | refine Touch.ofPair ‹_ = (_, _)› ?_ | split | dsimp -zeta only | dsimp -zeta +zetaDelta only)
theorem State.condRun_touch {m : Nat} (hm : Sub 0x144039784 m) {s0 : State} (s : State) (f : Nat) (errs : Errs) (o : CondOp) (h : Touch m s0 s) : Touch m s0 (State.condRun s f errs o) := by
  unfold State.condRun
  repeat' (first | (with_reducible first | assumption | apply State.packRun_touch | apply State.gateRun_touch | apply State.assignRun_touch) | (with_reducible show Sub _ _; exact hm.of rfl) | extract_lets | refine Touch.ofPair ‹_ = (_, _)› ?_ | split | dsimp -zeta only | dsimp -zeta +zetaDelta only)
theorem execGatePackComplete_touch {m : Nat} (hm : Sub 0x144039784 m) {s0 : State} (f : Nat) (errs : Errs) (s : State) (h : Touch m s0 s) : TouchO m s0 (execGatePackComplete f errs s) := by
  unfold execGatePackComplete
  repeat' (first | (with_reducible first | assumption | apply TouchO.next | apply State.setFloe_touch | apply State.condRun_touch) | (with_reducible show Sub _ _; exact hm.of rfl) | extract_lets | refine Touch.ofPair ‹_ = (_, _)› ?_ | split | dsimp -zeta only | dsimp -zeta +zetaDelta only)

end Sys2Proof.Machine
end

