-- ==== Sys2Proof/Laws/TouchXfer.lean ====
section
/-! SUPPORT. What every operation of Machine/Xfer.lean may touch (Sys2Proof.Machine.Touch). -/

namespace Sys2Proof.Machine

set_option linter.all false

theorem execXfer_touch {m : Nat} (hm : Sub 0x144039514 m) {s0 : State} (f : Nat) (st : Stream) (arb : Arb) (s : State) (h : Touch m s0 s) : TouchO m s0 (execXfer f st arb s) := by
  unfold execXfer
  repeat' (first | (with_reducible intro _) | (with_reducible first | assumption | apply TouchO.next | apply State.inCycle_touch | apply State.issue_touch | apply State.setFloe_touch | apply State.grant_touch | apply State.onHead_touch) | (with_reducible show Sub _ _; exact hm.of rfl) | extract_lets | refine Touch.ofPair ‹_ = (_, _)› ?_ | split | dsimp -zeta only | dsimp -zeta +zetaDelta only)
theorem State.xferRead_touch {m : Nat} (hm : Sub 0x144039504 m) {s0 : State} (s : State) (f : Nat) (errs : Errs) (o : XferOp) (h : Touch m s0 s) : Touch m s0 (State.xferRead s f errs o).1 := by
  unfold State.xferRead
  repeat' (first | (with_reducible intro _) | (with_reducible first | assumption | apply State.setFloe_touch | apply State.noteEnded_touch | apply State.each_touch) | (with_reducible show Sub _ _; exact hm.of rfl) | extract_lets | refine Touch.ofPair ‹_ = (_, _)› ?_ | split | dsimp -zeta only | dsimp -zeta +zetaDelta only)
theorem State.xferRead_touchE {m : Nat} (hm : Sub 0x144039504 m) {s0 s9 : State} {s : State} {f : Nat} {errs : Errs} {o : XferOp} {r9 : _} (e : State.xferRead s f errs o = (s9, r9)) (h : Touch m s0 s) : Touch m s0 s9 := by
  have k := State.xferRead_touch hm (s0 := s0) s f errs o h
  rw [e] at k
  exact k
theorem execXferComplete_touch {m : Nat} (hm : Sub 0x144039784 m) {s0 : State} (f : Nat) (tagDst : Nat) (errs : Errs) (s : State) (h : Touch m s0 s) : TouchO m s0 (execXferComplete f tagDst errs s) := by
  unfold execXferComplete
  repeat' (first | (with_reducible intro _) | (with_reducible first | assumption | apply TouchO.next | apply State.setFloe_touch | apply State.writeEnded_touch | apply State.putOcc_touch | apply State.each_touch) | (with_reducible show Sub _ _; exact hm.of rfl) | extract_lets | refine Touch.ofPair ‹_ = (_, _)› ?_ | split | dsimp -zeta only | dsimp -zeta +zetaDelta only)

end Sys2Proof.Machine
end

