-- ==== Sys2Proof/Laws/TouchStash.lean ====
section
/-! SUPPORT. What every operation of Machine/Stash.lean may touch (Sys2Proof.Machine.Touch). -/

namespace Sys2Proof.Machine

set_option linter.all false

theorem State.pushAccept_touch {m : Nat} (hm : Sub 0x4 m) {s0 : State} (s : State) (f : Nat) (st : Stream) (w : IWord) (k : Nat) (d : Desc) (h : Touch m s0 s) : Touch m s0 (State.pushAccept s f st w k d) := by
  unfold State.pushAccept
  repeat' (first | (with_reducible first | assumption | apply State.issue_touch | apply State.setFloe_touch) | (with_reducible show Sub _ _; exact hm.of rfl) | extract_lets | refine Touch.ofPair ‹_ = (_, _)› ?_ | split | dsimp -zeta only | dsimp -zeta +zetaDelta only)
theorem execStashPush_touch {m : Nat} (hm : Sub 0x144039514 m) {s0 : State} (f : Nat) (st : Stream) (arb : Arb) (s : State) (h : Touch m s0 s) : TouchO m s0 (execStashPush f st arb s) := by
  unfold execStashPush
  repeat' (first | (with_reducible intro _) | (with_reducible first | assumption | apply TouchO.next | apply State.inCycle_touch | apply State.pushAccept_touch | apply State.grant_touch | apply State.onHead_touch) | (with_reducible show Sub _ _; exact hm.of rfl) | extract_lets | refine Touch.ofPair ‹_ = (_, _)› ?_ | split | dsimp -zeta only | dsimp -zeta +zetaDelta only)
theorem State.pushRead_touch {m : Nat} (hm : Sub 0x144039504 m) {s0 : State} (s : State) (f : Nat) (errs : Errs) (o : StashOp) (h : Touch m s0 s) : Touch m s0 (State.pushRead s f errs o) := by
  unfold State.pushRead
  repeat' (first | (with_reducible intro _) | (with_reducible first | assumption | apply State.setFloe_touch | apply State.noteEnded_touch | apply State.each_touch) | (with_reducible show Sub _ _; exact hm.of rfl) | extract_lets | refine Touch.ofPair ‹_ = (_, _)› ?_ | split | dsimp -zeta only | dsimp -zeta +zetaDelta only)
theorem State.popAccept_touch {m : Nat} (hm : Sub 0x4 m) {s0 : State} (s : State) (f : Nat) (st : Stream) (w : IWord) (k : Nat) (h : Touch m s0 s) : Touch m s0 (State.popAccept s f st w k) := by
  unfold State.popAccept
  repeat' (first | (with_reducible first | assumption | apply State.issue_touch | apply State.setFloe_touch | apply State.issueTo_touch) | (with_reducible show Sub _ _; exact hm.of rfl) | extract_lets | refine Touch.ofPair ‹_ = (_, _)› ?_ | split | dsimp -zeta only | dsimp -zeta +zetaDelta only)
theorem execStashPop_touch {m : Nat} (hm : Sub 0x144039514 m) {s0 : State} (f : Nat) (st : Stream) (arb : Arb) (s : State) (h : Touch m s0 s) : TouchO m s0 (execStashPop f st arb s) := by
  unfold execStashPop
  repeat' (first | (with_reducible intro _) | (with_reducible first | assumption | apply TouchO.next | apply State.inCycle_touch | apply State.grant_touch | apply State.onHead_touch | apply State.popAccept_touch) | (with_reducible show Sub _ _; exact hm.of rfl) | extract_lets | refine Touch.ofPair ‹_ = (_, _)› ?_ | split | dsimp -zeta only | dsimp -zeta +zetaDelta only)
theorem State.popDone_touch {m : Nat} (hm : Sub 0x144039784 m) {s0 : State} (s : State) (f : Nat) (errs : Errs) (o : StashOp) (h : Touch m s0 s) : Touch m s0 (State.popDone s f errs o) := by
  unfold State.popDone
  repeat' (first | (with_reducible intro _) | (with_reducible first | assumption | apply State.setFloe_touch | apply State.writeEnded_touch | apply State.recordNf_touch | apply State.noteEnded_touch | apply State.each_touch) | (with_reducible show Sub _ _; exact hm.of rfl) | extract_lets | refine Touch.ofPair ‹_ = (_, _)› ?_ | split | dsimp -zeta only | dsimp -zeta +zetaDelta only)
theorem State.pushDone_touch {m : Nat} (hm : Sub 0x144039784 m) {s0 : State} (s : State) (f : Nat) (errs : Errs) (o : StashOp) (h : Touch m s0 s) : Touch m s0 (State.pushDone s f errs o) := by
  unfold State.pushDone
  repeat' (first | (with_reducible intro _) | (with_reducible first | assumption | apply State.setFloe_touch | apply State.writeEnded_touch | apply State.each_touch) | (with_reducible show Sub _ _; exact hm.of rfl) | extract_lets | refine Touch.ofPair ‹_ = (_, _)› ?_ | split | dsimp -zeta only | dsimp -zeta +zetaDelta only)
theorem execStashCopyComplete_touch {m : Nat} (hm : Sub 0x144039784 m) {s0 : State} (f : Nat) (pop : Bool) (errs : Errs) (s : State) (h : Touch m s0 s) : TouchO m s0 (execStashCopyComplete f pop errs s) := by
  unfold execStashCopyComplete
  repeat' (first | (with_reducible first | assumption | apply TouchO.next | apply State.popDone_touch | apply State.pushDone_touch) | (with_reducible show Sub _ _; exact hm.of rfl) | extract_lets | refine Touch.ofPair ‹_ = (_, _)› ?_ | split | dsimp -zeta only | dsimp -zeta +zetaDelta only)
theorem State.dropWrite_touch {m : Nat} (hm : Sub 0x144019404 m) {s0 : State} (s : State) (f : Nat) (g : Nat × Nat) (b : Nat) (h : Touch m s0 s) : Touch m s0 (State.dropWrite s f g b) := by
  unfold State.dropWrite
  repeat' (first | (with_reducible first | assumption | apply State.recordNf_touch | apply State.countUe_touch | apply State.raise_touch) | (with_reducible show Sub _ _; exact hm.of rfl) | extract_lets | refine Touch.ofPair ‹_ = (_, _)› ?_ | split | dsimp -zeta only | dsimp -zeta +zetaDelta only)
theorem State.isolateFloe_touch {m : Nat} (hm : Sub 0x144019404 m) {s0 : State} (s : State) (f : Nat) (g : Nat × Nat) (h : Touch m s0 s) : Touch m s0 (State.isolateFloe s f g) := by
  unfold State.isolateFloe
  repeat' (first | (with_reducible intro _) | (with_reducible first | assumption | apply State.setFloe_touch | apply State.dropWrite_touch | apply State.recordNf_touch | apply State.each_touch) | (with_reducible show Sub _ _; exact hm.of rfl) | extract_lets | refine Touch.ofPair ‹_ = (_, _)› ?_ | split | dsimp -zeta only | dsimp -zeta +zetaDelta only)
theorem State.loseStash_touch {m : Nat} (hm : Sub 0x144001404 m) {s0 : State} (s : State) (p : Nat) (lost : Nat → Nat → Bool) (h : Touch m s0 s) : Touch m s0 (State.loseStash s p lost) := by
  unfold State.loseStash
  repeat' (first | (with_reducible intro _) | (with_reducible first | assumption | apply State.eventOwner_touch | apply State.setFloe_touch | apply State.each_touch | apply Touch.foldl | apply Touch.foldl1) | (with_reducible show Sub _ _; exact hm.of rfl) | extract_lets | refine Touch.ofPair ‹_ = (_, _)› ?_ | split | dsimp -zeta only | dsimp -zeta +zetaDelta only)
theorem execReadersReleased_touch {m : Nat} (hm : Sub 0x144039504 m) {s0 : State} (f : Nat) (r : Reader) (errs : Errs) (s : State) (h : Touch m s0 s) : TouchO m s0 (execReadersReleased f r errs s) := by
  unfold execReadersReleased
  repeat' (first | (with_reducible first | assumption | apply TouchO.next | apply State.passRead_touch | apply State.setFloe_touch | apply State.xferRead_touch | apply State.mmaRead_touch | apply State.pushRead_touch) | (with_reducible show Sub _ _; exact hm.of rfl) | extract_lets | refine Touch.ofPair ‹_ = (_, _)› ?_ | split | dsimp -zeta only | dsimp -zeta +zetaDelta only)

end Sys2Proof.Machine
end

