-- ==== Sys2Proof/Laws/TouchColl.lean ====
section
/-! SUPPORT. What every operation of Machine/Coll.lean may touch (Sys2Proof.Machine.Touch). -/

namespace Sys2Proof.Machine

set_option linter.all false

theorem State.putStep_touch {m : Nat} (hm : Sub 0x10 m) {s0 : State} (s : State) (p : Nat) (t : Step) (h : Touch m s0 s) : Touch m s0 (State.putStep s p t) := by
  unfold State.putStep
  repeat' (first | (with_reducible first | assumption | apply State.setPart_touch) | (with_reducible show Sub _ _; exact hm.of rfl) | extract_lets | refine Touch.ofPair ‹_ = (_, _)› ?_ | split | dsimp -zeta only | dsimp -zeta +zetaDelta only)
theorem State.dropStep_touch {m : Nat} (hm : Sub 0x10 m) {s0 : State} (s : State) (p : Nat) (tag : Nat) (h : Touch m s0 s) : Touch m s0 (State.dropStep s p tag) := by
  unfold State.dropStep
  repeat' (first | (with_reducible first | assumption | apply State.setPart_touch) | (with_reducible show Sub _ _; exact hm.of rfl) | extract_lets | refine Touch.ofPair ‹_ = (_, _)› ?_ | split | dsimp -zeta only | dsimp -zeta +zetaDelta only)
theorem State.eachFloe_touch {m : Nat} (hm : Sub 0x4 m) {s0 : State} (s : State) (t : Step) (g : Floe → Floe) (h : Touch m s0 s) : Touch m s0 (State.eachFloe s t g) := by
  unfold State.eachFloe
  repeat' (first | (with_reducible intro _) | (with_reducible first | assumption | apply State.setFloe_touch | apply State.each_touch) | (with_reducible show Sub _ _; exact hm.of rfl) | extract_lets | refine Touch.ofPair ‹_ = (_, _)› ?_ | split | dsimp -zeta only | dsimp -zeta +zetaDelta only)
theorem State.writePlane_touch {m : Nat} (hm : Sub 0x144039784 m) {s0 : State} (s : State) (f : Nat) (lo : Nat) (r : Nat × Nat) (off : Nat) (l : List Byte) (h : Touch m s0 s) : Touch m s0 (State.writePlane s f lo r off l) := by
  unfold State.writePlane
  repeat' (first | (with_reducible first | assumption | apply State.put_touch) | (with_reducible show Sub _ _; exact hm.of rfl) | extract_lets | refine Touch.ofPair ‹_ = (_, _)› ?_ | split | dsimp -zeta only | dsimp -zeta +zetaDelta only)
theorem State.writePiece_touch {m : Nat} (hm : Sub 0x144039784 m) {s0 : State} (s : State) (f : Nat) (d : Desc) (br : Nat) (rows : Nat) (off : Nat) (l : List Byte) (h : Touch m s0 s) : Touch m s0 (State.writePiece s f d br rows off l) := by
  unfold State.writePiece
  repeat' (first | (with_reducible intro _) | (with_reducible first | assumption | apply State.writePlane_touch | apply State.putOcc_touch | apply State.each_touch | apply Touch.foldl | apply Touch.foldl1) | (with_reducible show Sub _ _; exact hm.of rfl) | extract_lets | refine Touch.ofPair ‹_ = (_, _)› ?_ | split | dsimp -zeta only | dsimp -zeta +zetaDelta only)
theorem State.sendTo_touch {m : Nat} (hm : Sub 0x40000 m) {s0 : State} (s : State) (e : Nat) (q : MeshPkt) (stomp : Bool) (h : Touch m s0 s) : Touch m s0 (State.sendTo s e q stomp) := by
  unfold State.sendTo
  repeat' (first | (with_reducible first | assumption | apply State.inject_touch) | (with_reducible show Sub _ _; exact hm.of rfl) | extract_lets | refine Touch.ofPair ‹_ = (_, _)› ?_ | split | dsimp -zeta only | dsimp -zeta +zetaDelta only)
theorem State.sendRun_touch {m : Nat} (hm : Sub 0x40000 m) {s0 : State} (s : State) (p : Nat) (t : Step) (e : Nat) (member : Nat) (off : Nat) (final : Bool) (l : List Byte) (h : Touch m s0 s) : Touch m s0 (State.sendRun s p t e member off final l) := by
  unfold State.sendRun
  repeat' (first | (with_reducible intro _) | (with_reducible first | assumption | apply State.sendTo_touch | apply State.each_touch) | (with_reducible show Sub _ _; exact hm.of rfl) | extract_lets | refine Touch.ofPair ‹_ = (_, _)› ?_ | split | dsimp -zeta only | dsimp -zeta +zetaDelta only)
theorem State.sendNotice_touch {m : Nat} (hm : Sub 0x40000 m) {s0 : State} (s : State) (p : Nat) (t : Step) (e : Nat) (kind : Nat) (att : Nat) (reason : Nat) (origin : Nat) (h : Touch m s0 s) : Touch m s0 (State.sendNotice s p t e kind att reason origin) := by
  unfold State.sendNotice
  repeat' (first | (with_reducible first | assumption | apply State.sendTo_touch) | (with_reducible show Sub _ _; exact hm.of rfl) | extract_lets | refine Touch.ofPair ‹_ = (_, _)› ?_ | split | dsimp -zeta only | dsimp -zeta +zetaDelta only)
theorem State.around_touch {m : Nat} (hm : Sub 0x40000 m) {s0 : State} (s : State) (p : Nat) (t : Step) (kind : Nat) (att : Nat) (reason : Nat) (h : Touch m s0 s) : Touch m s0 (State.around s p t kind att reason) := by
  unfold State.around
  repeat' (first | (with_reducible intro _) | (with_reducible first | assumption | apply State.sendNotice_touch | apply State.each_touch) | (with_reducible show Sub _ _; exact hm.of rfl) | extract_lets | refine Touch.ofPair ‹_ = (_, _)› ?_ | split | dsimp -zeta only | dsimp -zeta +zetaDelta only)
theorem State.answerPause_touch {m : Nat} (hm : Sub 0x40003C10 m) {s0 : State} (s : State) (p : Nat) (st : Nat) (det : Nat) (arg : Nat) (h : Touch m s0 s) : Touch m s0 (State.answerPause s p st det arg) := by
  unfold State.answerPause
  repeat' (first | (with_reducible first | assumption | apply State.setPart_touch | apply State.respond_touch) | (with_reducible show Sub _ _; exact hm.of rfl) | simp -zeta only [Touch.upd_cmdqI (hm.of rfl)] | extract_lets | refine Touch.ofPair ‹_ = (_, _)› ?_ | split | dsimp -zeta only | dsimp -zeta +zetaDelta only)
theorem State.pauseCheck_touch {m : Nat} (hm : Sub 0x40003C10 m) {s0 : State} (s : State) (p : Nat) (h : Touch m s0 s) : Touch m s0 (State.pauseCheck s p) := by
  unfold State.pauseCheck
  repeat' (first | (with_reducible first | assumption | apply State.answerPause_touch) | (with_reducible show Sub _ _; exact hm.of rfl) | extract_lets | refine Touch.ofPair ‹_ = (_, _)› ?_ | split | dsimp -zeta only | dsimp -zeta +zetaDelta only)
theorem State.swapDescs_touch {m : Nat} (hm : Sub 0x144039784 m) {s0 : State} (s : State) (f : Nat) (h : Touch m s0 s) : Touch m s0 (State.swapDescs s f) := by
  unfold State.swapDescs
  repeat' (first | (with_reducible intro _) | (with_reducible first | assumption | apply State.put_touch | apply State.each_touch) | (with_reducible show Sub _ _; exact hm.of rfl) | extract_lets | refine Touch.ofPair ‹_ = (_, _)› ?_ | split | dsimp -zeta only | dsimp -zeta +zetaDelta only)
theorem State.stepEnd_touch {m : Nat} (hm : Sub 0x14 m) {s0 : State} (s : State) (p : Nat) (h : Touch m s0 s) : Touch m s0 (State.stepEnd s p) := by
  unfold State.stepEnd
  repeat' (first | (with_reducible intro _) | (with_reducible first | assumption | apply State.setPart_touch | apply State.setFloe_touch | apply State.each_touch) | (with_reducible show Sub _ _; exact hm.of rfl) | extract_lets | refine Touch.ofPair ‹_ = (_, _)› ?_ | split | dsimp -zeta only | dsimp -zeta +zetaDelta only)
theorem State.commitStep_touch {m : Nat} (hm : Sub 0x144039794 m) {s0 : State} (s : State) (p : Nat) (h : Touch m s0 s) : Touch m s0 (State.commitStep s p) := by
  unfold State.commitStep
  repeat' (first | (with_reducible intro _) | (with_reducible first | assumption | apply State.setPart_touch | apply State.setFloe_touch | apply State.swapDescs_touch | apply State.each_touch) | (with_reducible show Sub _ _; exact hm.of rfl) | extract_lets | refine Touch.ofPair ‹_ = (_, _)› ?_ | split | dsimp -zeta only | dsimp -zeta +zetaDelta only)
theorem State.steerNow_touch {m : Nat} (hm : Sub 0xC0010 m) {s0 : State} (s : State) (p : Nat) (tag : Nat) (h : Touch m s0 s) : Touch m s0 (State.steerNow s p tag) := by
  unfold State.steerNow
  repeat' (first | (with_reducible first | assumption | apply State.setPart_touch | apply State.planSwitch_touch) | (with_reducible show Sub _ _; exact hm.of rfl) | extract_lets | refine Touch.ofPair ‹_ = (_, _)› ?_ | split | dsimp -zeta only | dsimp -zeta +zetaDelta only)
theorem State.endVerdict_touch {m : Nat} (hm : Sub 0x1440F9794 m) {s0 : State} (s : State) (p : Nat) (t : Step) (h : Touch m s0 s) : Touch m s0 (State.endVerdict s p t) := by
  unfold State.endVerdict
  repeat' (first | (with_reducible intro _) | (with_reducible first | assumption | apply State.setPart_touch | apply State.eventOwner_touch | apply State.setStream_touch | apply State.setFloe_touch | apply State.steerNow_touch | apply State.dropStep_touch | apply State.stepEnd_touch | apply State.commitStep_touch | apply State.each_touch) | (with_reducible show Sub _ _; exact hm.of rfl) | extract_lets | refine Touch.ofPair ‹_ = (_, _)› ?_ | split | dsimp -zeta only | dsimp -zeta +zetaDelta only)
theorem State.gotResult_touch {m : Nat} (hm : Sub 0x1440FBF94 m) {s0 : State} (s : State) (p : Nat) (t : Step) (v : VVal) (tres : DWord) (origin : Nat) (h : Touch m s0 s) : Touch m s0 (State.gotResult s p t v tres origin) := by
  unfold State.gotResult
  repeat' (first | (with_reducible intro _) | (with_reducible first | assumption | apply State.pauseCheck_touch | apply State.sendTo_touch | apply State.planHold_touch | apply State.endVerdict_touch | apply State.putStep_touch | apply State.eachFloe_touch | apply State.each_touch) | (with_reducible show Sub _ _; exact hm.of rfl) | extract_lets | refine Touch.ofPair ‹_ = (_, _)› ?_ | split | dsimp -zeta only | dsimp -zeta +zetaDelta only)
theorem State.report_touch {m : Nat} (hm : Sub 0x1440FBF94 m) {s0 : State} (s : State) (p : Nat) (t : Step) (h : Touch m s0 s) : Touch m s0 (State.report s p t) := by
  unfold State.report
  repeat' (first | (with_reducible intro _) | (with_reducible first | assumption | apply State.sendTo_touch | apply State.gotResult_touch | apply Touch.foldl | apply Touch.foldl1) | (with_reducible show Sub _ _; exact hm.of rfl) | extract_lets | refine Touch.ofPair ‹_ = (_, _)› ?_ | split | dsimp -zeta only | dsimp -zeta +zetaDelta only)
theorem State.sawAttempt_touch {m : Nat} (hm : Sub 0x4 m) {s0 : State} (s : State) (p : Nat) (tag : Nat) (step : Word) (a : Nat) (h : Touch m s0 s) : Touch m s0 (State.sawAttempt s p tag step a) := by
  unfold State.sawAttempt
  repeat' (first | (with_reducible first | assumption | apply State.setFloe_touch) | (with_reducible show Sub _ _; exact hm.of rfl) | extract_lets | refine Touch.ofPair ‹_ = (_, _)› ?_ | split | dsimp -zeta only | dsimp -zeta +zetaDelta only)
theorem State.ownCopies_touch {m : Nat} (hm : Sub 0x144039784 m) {s0 : State} (s : State) (p : Nat) (t : Step) (h : Touch m s0 s) : Touch m s0 (State.ownCopies s p t) := by
  unfold State.ownCopies
  repeat' (first | (with_reducible intro _) | (with_reducible first | assumption | apply State.put_touch | apply State.setRecord_touch | apply State.writePiece_touch | apply State.each_touch) | (with_reducible show Sub _ _; exact hm.of rfl) | extract_lets | refine Touch.ofPair ‹_ = (_, _)› ?_ | split | dsimp -zeta only | dsimp -zeta +zetaDelta only)
theorem State.originate_touch {m : Nat} (hm : Sub 0x1440FBF94 m) {s0 : State} (s : State) (p : Nat) (t : Step) (h : Touch m s0 s) : Touch m s0 (State.originate s p t) := by
  unfold State.originate
  repeat' (first | (with_reducible intro _) | (with_reducible first | assumption | apply State.sendRun_touch | apply State.report_touch | apply State.each_touch) | (with_reducible show Sub _ _; exact hm.of rfl) | extract_lets | refine Touch.ofPair ‹_ = (_, _)› ?_ | split | dsimp -zeta only | dsimp -zeta +zetaDelta only)
theorem State.passDone_touch {m : Nat} (hm : Sub 0x40000 m) {s0 : State} (s : State) (p : Nat) (t : Step) (h : Touch m s0 s) : Touch m s0 (State.passDone s p t) := by
  unfold State.passDone
  repeat' (first | (with_reducible first | assumption | apply State.sendNotice_touch) | (with_reducible show Sub _ _; exact hm.of rfl) | extract_lets | refine Touch.ofPair ‹_ = (_, _)› ?_ | split | dsimp -zeta only | dsimp -zeta +zetaDelta only)
theorem State.moveTo_touch {m : Nat} (hm : Sub 0x1440FBF94 m) {s0 : State} (s : State) (p : Nat) (t : Step) (a : Nat) (h : Touch m s0 s) : Touch m s0 (State.moveTo s p t a) := by
  unfold State.moveTo
  repeat' (first | (with_reducible first | assumption | apply State.passDone_touch | apply State.originate_touch | apply State.putStep_touch | apply State.sawAttempt_touch | apply State.eachFloe_touch) | (with_reducible show Sub _ _; exact hm.of rfl) | extract_lets | refine Touch.ofPair ‹_ = (_, _)› ?_ | split | dsimp -zeta only | dsimp -zeta +zetaDelta only)
theorem State.slowStep_touch {m : Nat} (hm : Sub 0x10 m) {s0 : State} (s : State) (p : Nat) (t : Step) (h : Touch m s0 s) : Touch m s0 (State.slowStep s p t) := by
  unfold State.slowStep
  repeat' (first | (with_reducible first | assumption | apply State.putStep_touch) | (with_reducible show Sub _ _; exact hm.of rfl) | extract_lets | refine Touch.ofPair ‹_ = (_, _)› ?_ | split | dsimp -zeta only | dsimp -zeta +zetaDelta only)
theorem State.boundAdd_touch {m : Nat} (hm : Sub 0x40000 m) {s0 : State} (s : State) (u : Nat) (g : Nat → Nat) (h : Touch m s0 s) : Touch m s0 (State.boundAdd s u g) := by
  unfold State.boundAdd
  repeat' (first | (with_reducible first | assumption | apply State.setRouter_touch) | (with_reducible show Sub _ _; exact hm.of rfl) | extract_lets | refine Touch.ofPair ‹_ = (_, _)› ?_ | split | dsimp -zeta only | dsimp -zeta +zetaDelta only)
theorem State.bindAdd_touch {m : Nat} (hm : Sub 0x40000 m) {s0 : State} (s : State) (t : Step) (spare : Bool) (h : Touch m s0 s) : Touch m s0 (State.bindAdd s t spare).1 := by
  unfold State.bindAdd
  repeat' (first | (with_reducible first | assumption | apply State.boundAdd_touch) | (with_reducible show Sub _ _; exact hm.of rfl) | extract_lets | refine Touch.ofPair ‹_ = (_, _)› ?_ | split | dsimp -zeta only | dsimp -zeta +zetaDelta only)
theorem State.bindAdd_touchE {m : Nat} (hm : Sub 0x40000 m) {s0 s9 : State} {s : State} {t : Step} {spare : Bool} {r9 : _} (e : State.bindAdd s t spare = (s9, r9)) (h : Touch m s0 s) : Touch m s0 s9 := by
  have k := State.bindAdd_touch hm (s0 := s0) s t spare h
  rw [e] at k
  exact k
theorem State.unbindAdd_touch {m : Nat} (hm : Sub 0x40000 m) {s0 : State} (s : State) (t : Step) (h : Touch m s0 s) : Touch m s0 (State.unbindAdd s t) := by
  unfold State.unbindAdd
  repeat' (first | (with_reducible first | assumption | apply State.boundAdd_touch) | (with_reducible show Sub _ _; exact hm.of rfl) | extract_lets | refine Touch.ofPair ‹_ = (_, _)› ?_ | split | dsimp -zeta only | dsimp -zeta +zetaDelta only)
theorem State.dropAdd_touch {m : Nat} (hm : Sub 0x40010 m) {s0 : State} (s : State) (u : Nat) (h : Touch m s0 s) : Touch m s0 (State.dropAdd s u) := by
  unfold State.dropAdd
  repeat' (first | (with_reducible intro _) | (with_reducible first | assumption | apply State.bindAdd_touch | apply State.setRouter_touch | apply State.unbindAdd_touch | apply State.putStep_touch | apply State.each_touch) | (with_reducible show Sub _ _; exact hm.of rfl) | extract_lets | refine Touch.ofPair ‹_ = (_, _)› ?_ | split | dsimp -zeta only | dsimp -zeta +zetaDelta only)
theorem State.rimeFailed_touch {m : Nat} (hm : Sub 0x164041410 m) {s0 : State} (s : State) (u : Nat) (h : Touch m s0 s) : Touch m s0 (State.rimeFailed s u) := by
  unfold State.rimeFailed
  repeat' (first | (with_reducible first | assumption | apply State.setRouter_touch | apply State.dropAdd_touch | apply State.rasReport_touch | apply State.eventMgmt_touch | apply State.raiseRouter_touch | apply State.setFlash_touch) | (with_reducible show Sub _ _; exact hm.of rfl) | extract_lets | refine Touch.ofPair ‹_ = (_, _)› ?_ | split | dsimp -zeta only | dsimp -zeta +zetaDelta only)
theorem State.closeStep_touch {m : Nat} (hm : Sub 0x40043C14 m) {s0 : State} (s : State) (p : Nat) (t : Step) (h : Touch m s0 s) : Touch m s0 (State.closeStep s p t) := by
  unfold State.closeStep
  repeat' (first | (with_reducible first | assumption | apply State.pauseCheck_touch | apply State.unbindAdd_touch | apply State.dropStep_touch | apply State.eachFloe_touch) | (with_reducible show Sub _ _; exact hm.of rfl) | extract_lets | refine Touch.ofPair ‹_ = (_, _)› ?_ | split | dsimp -zeta only | dsimp -zeta +zetaDelta only)
theorem State.freeRreg_touch {m : Nat} (hm : Sub 0x4 m) {s0 : State} (s : State) (t : Step) (h : Touch m s0 s) : Touch m s0 (State.freeRreg s t) := by
  unfold State.freeRreg
  repeat' (first | (with_reducible intro _) | (with_reducible first | assumption | apply State.setStream_touch | apply State.each_touch) | (with_reducible show Sub _ _; exact hm.of rfl) | extract_lets | refine Touch.ofPair ‹_ = (_, _)› ?_ | split | dsimp -zeta only | dsimp -zeta +zetaDelta only)
theorem State.endSteers_touch {m : Nat} (hm : Sub 0x1441C1410 m) {s0 : State} (s : State) (p : Nat) (tag : Nat) (h : Touch m s0 s) : Touch m s0 (State.endSteers s p tag) := by
  unfold State.endSteers
  repeat' (first | (with_reducible first | assumption | apply State.setPart_touch | apply State.wakeWl_touch | apply State.planDrop_touch) | (with_reducible show Sub _ _; exact hm.of rfl) | extract_lets | refine Touch.ofPair ‹_ = (_, _)› ?_ | split | dsimp -zeta only | dsimp -zeta +zetaDelta only)
theorem State.verdictLost_touch {m : Nat} (hm : Sub 0x144003C14 m) {s0 : State} (s : State) (p : Nat) (t : Step) (h : Touch m s0 s) : Touch m s0 (State.verdictLost s p t) := by
  unfold State.verdictLost
  repeat' (first | (with_reducible first | assumption | apply State.setPart_touch | apply State.answerPause_touch | apply State.eventOwner_touch | apply State.rasReport_touch | apply State.stopStreams_touch) | (with_reducible show Sub _ _; exact hm.of rfl) | extract_lets | refine Touch.ofPair ‹_ = (_, _)› ?_ | split | dsimp -zeta only | dsimp -zeta +zetaDelta only)
theorem State.failStep_touch {m : Nat} (hm : Sub 0x1441C3C14 m) {s0 : State} (s : State) (p : Nat) (t : Step) (reason : Nat) (quiet : Bool) (h : Touch m s0 s) : Touch m s0 (State.failStep s p t reason quiet) := by
  unfold State.failStep
  repeat' (first | (with_reducible first | assumption | apply State.setPart_touch | apply State.unbindAdd_touch | apply State.eventOwner_touch | apply State.endSteers_touch | apply State.dropStep_touch | apply State.verdictLost_touch | apply State.freeRreg_touch | apply State.eachFloe_touch) | (with_reducible show Sub _ _; exact hm.of rfl) | extract_lets | refine Touch.ofPair ‹_ = (_, _)› ?_ | split | dsimp -zeta only | dsimp -zeta +zetaDelta only)
theorem State.failOpen_touch {m : Nat} (hm : Sub 0x1441FBF94 m) {s0 : State} (s : State) (p : Nat) (reason : Nat) (quiet : Bool) (h : Touch m s0 s) : Touch m s0 (State.failOpen s p reason quiet) := by
  unfold State.failOpen
  repeat' (first | (with_reducible intro _) | (with_reducible first | assumption | apply State.around_touch | apply State.failStep_touch | apply State.endVerdict_touch | apply State.each_touch) | (with_reducible show Sub _ _; exact hm.of rfl) | extract_lets | refine Touch.ofPair ‹_ = (_, _)› ?_ | split | dsimp -zeta only | dsimp -zeta +zetaDelta only)
theorem State.abandonOpen_touch {m : Nat} (hm : Sub 0x1441C1400 m) {s0 : State} (s : State) (p : Nat) (h : Touch m s0 s) : Touch m s0 (State.abandonOpen s p) := by
  unfold State.abandonOpen
  repeat' (first | (with_reducible intro _) | (with_reducible first | assumption | apply State.wakeWl_touch | apply State.planDrop_touch | apply State.unbindAdd_touch | apply State.each_touch) | (with_reducible show Sub _ _; exact hm.of rfl) | extract_lets | refine Touch.ofPair ‹_ = (_, _)› ?_ | split | dsimp -zeta only | dsimp -zeta +zetaDelta only)
theorem State.replayOpen_touch {m : Nat} (hm : Sub 0x1441FBF94 m) {s0 : State} (s : State) (p : Nat) (h : Touch m s0 s) : Touch m s0 (State.replayOpen s p) := by
  unfold State.replayOpen
  repeat' (first | (with_reducible intro _) | (with_reducible first | assumption | apply State.around_touch | apply State.failStep_touch | apply State.moveTo_touch | apply State.each_touch) | (with_reducible show Sub _ _; exact hm.of rfl) | extract_lets | refine Touch.ofPair ‹_ = (_, _)› ?_ | split | dsimp -zeta only | dsimp -zeta +zetaDelta only)
theorem State.slowWhere_touch {m : Nat} (hm : Sub 0x40000 m) {s0 : State} (s : State) (g : Nat → Step → Bool) (h : Touch m s0 s) : Touch m s0 (State.slowWhere s g) := by
  unfold State.slowWhere
  repeat' (first | (with_reducible intro _) | (with_reducible first | assumption | apply State.around_touch | apply State.each_touch) | (with_reducible show Sub _ _; exact hm.of rfl) | extract_lets | refine Touch.ofPair ‹_ = (_, _)› ?_ | split | dsimp -zeta only | dsimp -zeta +zetaDelta only)
theorem State.slowDie_touch {m : Nat} (hm : Sub 0x40000 m) {s0 : State} (s : State) (die : Nat) (h : Touch m s0 s) : Touch m s0 (State.slowDie s die) := by
  unfold State.slowDie
  repeat' (first | (with_reducible first | assumption | apply State.slowWhere_touch) | (with_reducible show Sub _ _; exact hm.of rfl) | extract_lets | refine Touch.ofPair ‹_ = (_, _)› ?_ | split | dsimp -zeta only | dsimp -zeta +zetaDelta only)
theorem State.slowPart_touch {m : Nat} (hm : Sub 0x40000 m) {s0 : State} (s : State) (q : Nat) (h : Touch m s0 s) : Touch m s0 (State.slowPart s q) := by
  unfold State.slowPart
  repeat' (first | (with_reducible first | assumption | apply State.slowWhere_touch) | (with_reducible show Sub _ _; exact hm.of rfl) | extract_lets | refine Touch.ofPair ‹_ = (_, _)› ?_ | split | dsimp -zeta only | dsimp -zeta +zetaDelta only)
theorem State.startFloes_touch {m : Nat} (hm : Sub 0x14 m) {s0 : State} (s : State) (p : Nat) (h : Touch m s0 s) : Touch m s0 (State.startFloes s p) := by
  unfold State.startFloes
  repeat' (first | (with_reducible intro _) | (with_reducible first | assumption | apply State.setPart_touch | apply State.setFloe_touch | apply State.each_touch) | (with_reducible show Sub _ _; exact hm.of rfl) | extract_lets | refine Touch.ofPair ‹_ = (_, _)› ?_ | split | dsimp -zeta only | dsimp -zeta +zetaDelta only)

end Sys2Proof.Machine
end

