-- ==== Sys2Proof/Laws/TouchCollectives.lean ====
section
/-! SUPPORT. What every operation of Machine/Collectives.lean may touch (Sys2Proof.Machine.Touch). -/

namespace Sys2Proof.Machine

set_option linter.all false

theorem State.holdEarly_touch {m : Nat} (hm : Sub 0x40004 m) {s0 : State} (s : State) (p : Nat) (limit : Bool) (q : MeshPkt) (h : Touch m s0 s) : Touch m s0 (State.holdEarly s p limit q) := by
  unfold State.holdEarly
  repeat' (first | (with_reducible intro _) | (with_reducible first | assumption | apply State.setFloe_touch | apply State.discard_touch | apply State.sawAttempt_touch | apply Touch.foldl | apply Touch.foldl1) | (with_reducible show Sub _ _; exact hm.of rfl) | extract_lets | refine Touch.ofPair ‹_ = (_, _)› ?_ | split | dsimp -zeta only | dsimp -zeta +zetaDelta only)
theorem State.passOn_touch {m : Nat} (hm : Sub 0x40000 m) {s0 : State} (s : State) (t : Step) (q : MeshPkt) (stomp : Bool) (h : Touch m s0 s) : Touch m s0 (State.passOn s t q stomp) := by
  unfold State.passOn
  repeat' (first | (with_reducible first | assumption | apply State.sendTo_touch) | (with_reducible show Sub _ _; exact hm.of rfl) | extract_lets | refine Touch.ofPair ‹_ = (_, _)› ?_ | split | dsimp -zeta only | dsimp -zeta +zetaDelta only)
theorem State.deliver_touch {m : Nat} (hm : Sub 0x10 m) {s0 : State} (s : State) (p : Nat) (t : Step) (key : Nat) (n : Nat) (w : State → State) (h_w : ∀ (y0 : State) (_ : Touch m s0 y0), Touch m s0 (w y0)) (h : Touch m s0 s) : Touch m s0 (State.deliver s p t key n w) := by
  unfold State.deliver
  repeat' (first | (with_reducible first | assumption | apply h_w | apply State.putStep_touch) | (with_reducible show Sub _ _; exact hm.of rfl) | extract_lets | refine Touch.ofPair ‹_ = (_, _)› ?_ | split | dsimp -zeta only | dsimp -zeta +zetaDelta only)
theorem State.copyOn_touch {m : Nat} (hm : Sub 0x40000 m) {s0 : State} (s : State) (t : Step) (q : MeshPkt) (stomp : Bool) (h : Touch m s0 s) : Touch m s0 (State.copyOn s t q stomp) := by
  unfold State.copyOn
  repeat' (first | (with_reducible first | assumption | apply State.setRouter_touch | apply State.passOn_touch) | (with_reducible show Sub _ _; exact hm.of rfl) | extract_lets | refine Touch.ofPair ‹_ = (_, _)› ?_ | split | dsimp -zeta only | dsimp -zeta +zetaDelta only)
theorem State.addPkt_touch {m : Nat} (hm : Sub 0x164079794 m) {s0 : State} (s : State) (p : Nat) (t : Step) (q : MeshPkt) (stomp : Bool) (rime : Bool) (h : Touch m s0 s) : Touch m s0 (State.addPkt s p t q stomp rime) := by
  unfold State.addPkt
  split
  rename_i s1 t1 heq
  have h1 : Touch m s0 s1 := by
    split at heq
    · cases heq; exact h
    · split at heq
      cases heq
      exact State.putStep_touch (hm.of rfl) _ _ _ (State.bindAdd_touchE (hm.of rfl) ‹_› h)
  clear heq h
  split
  · exact State.discard_touch (hm.of rfl) _ _ h1
  · extract_lets n own a2 src lost
    generalize addBlocks q.payload own = z
    obtain ⟨sum, bad⟩ := z
    dsimp -zeta only
    extract_lets a3 a4 t2 out k a5 a6
    have h2 : Touch m s0 a2 := State.noteRange_touch (hm.of rfl) _ _ _ _ _ h1
    have h3 : Touch m s0 a3 := State.setRouter_touch (hm.of rfl) _ _ (State.each_touch (fun _ _ e => State.countErr_touch (hm.of rfl) _ _ _ e) h2)
    have h4 : Touch m s0 a4 := by
      show Touch m s0 (if rime = true then _ else _)
      split
      · exact State.rimeFailed_touch (hm.of rfl) _ _ h3
      · exact h3
    have h5 : Touch m s0 a5 := by
      show Touch m s0 (if _ then _ else _)
      split
      · exact State.passOn_touch (hm.of rfl) _ _ _ _ h4
      · exact h4
    have h6 : Touch m s0 a6 := by
      show Touch m s0 (if _ then _ else _)
      split
      · exact State.setRecord_touch (hm.of rfl) _ _ _ h5
      · exact h5
    split
    · exact State.passOn_touch (hm.of rfl) _ _ _ _ h4
    · split
      · exact State.discard_touch (hm.of rfl) _ _ h5
      · exact State.deliver_touch (hm.of rfl) _ _ _ _ _ _ (fun _ e => State.put_touch (hm.of rfl) _ _ _ _ e) h6
theorem State.usePkt_touch {m : Nat} (hm : Sub 0x164079794 m) {s0 : State} (s : State) (p : Nat) (t : Step) (q : MeshPkt) (stomp : Bool) (rime : Bool) (h : Touch m s0 s) : Touch m s0 (State.usePkt s p t q stomp rime) := by
  unfold State.usePkt
  repeat' (first | (with_reducible intro _) | (with_reducible first | assumption | apply State.addPkt_touch | apply State.discard_touch | apply State.put_touch | apply State.copyOn_touch | apply State.passOn_touch | apply State.deliver_touch | apply State.writePiece_touch) | (with_reducible show Sub _ _; exact hm.of rfl) | extract_lets | refine Touch.ofPair ‹_ = (_, _)› ?_ | split | dsimp -zeta only | dsimp -zeta +zetaDelta only)
theorem State.mismatched_touch {m : Nat} (hm : Sub 0x1441C3C14 m) {s0 : State} (s : State) (p : Nat) (t : Step) (q : MeshPkt) (h : Touch m s0 s) : Touch m s0 (State.mismatched s p t q) := by
  unfold State.mismatched
  repeat' (first | (with_reducible first | assumption | apply State.around_touch | apply State.pauseCheck_touch | apply State.failStep_touch | apply State.discard_touch | apply State.sendNotice_touch) | (with_reducible show Sub _ _; exact hm.of rfl) | extract_lets | refine Touch.ofPair ‹_ = (_, _)› ?_ | split | dsimp -zeta only | dsimp -zeta +zetaDelta only)
theorem State.armedPkt_touch {m : Nat} (hm : Sub 0x1641FBF94 m) {s0 : State} (s : State) (p : Nat) (t : Step) (q : MeshPkt) (stomp : Bool) (rime : Bool) (h : Touch m s0 s) : Touch m s0 (State.armedPkt s p t q stomp rime) := by
  unfold State.armedPkt
  repeat' (first | (with_reducible first | assumption | apply State.slowStep_touch | apply State.usePkt_touch | apply State.discard_touch | apply State.moveTo_touch | apply State.sawAttempt_touch | apply State.mismatched_touch) | (with_reducible show Sub _ _; exact hm.of rfl) | extract_lets | refine Touch.ofPair ‹_ = (_, _)› ?_ | split | dsimp -zeta only | dsimp -zeta +zetaDelta only)
theorem State.forwardNotice_touch {m : Nat} (hm : Sub 0x40000 m) {s0 : State} (s : State) (t : Step) (q : MeshPkt) (h : Touch m s0 s) : Touch m s0 (State.forwardNotice s t q).1 := by
  unfold State.forwardNotice
  repeat' (first | (with_reducible intro _) | (with_reducible first | assumption | apply State.sendTo_touch | apply State.each_touch) | (with_reducible show Sub _ _; exact hm.of rfl) | extract_lets | refine Touch.ofPair ‹_ = (_, _)› ?_ | split | dsimp -zeta only | dsimp -zeta +zetaDelta only)
theorem State.forwardNotice_touchE {m : Nat} (hm : Sub 0x40000 m) {s0 s9 : State} {s : State} {t : Step} {q : MeshPkt} {r9 : _} (e : State.forwardNotice s t q = (s9, r9)) (h : Touch m s0 s) : Touch m s0 s9 := by
  have k := State.forwardNotice_touch hm (s0 := s0) s t q h
  rw [e] at k
  exact k
theorem State.stepNotice_touch {m : Nat} (hm : Sub 0x1441FBF94 m) {s0 : State} (s : State) (p : Nat) (t : Step) (q : MeshPkt) (h : Touch m s0 s) : Touch m s0 (State.stepNotice s p t q) := by
  unfold State.stepNotice
  repeat' (first | (with_reducible first | assumption | apply State.slowStep_touch | apply State.pauseCheck_touch | apply State.failStep_touch | apply State.forwardNotice_touch | apply State.moveTo_touch | apply State.putStep_touch) | (with_reducible show Sub _ _; exact hm.of rfl) | extract_lets | refine Touch.ofPair ‹_ = (_, _)› ?_ | split | dsimp -zeta only | dsimp -zeta +zetaDelta only)
theorem State.tokenNotice_touch {m : Nat} (hm : Sub 0x1440FBF94 m) {s0 : State} (s : State) (p : Nat) (t : Step) (q : MeshPkt) (h : Touch m s0 s) : Touch m s0 (State.tokenNotice s p t q) := by
  unfold State.tokenNotice
  repeat' (first | (with_reducible first | assumption | apply State.passDone_touch | apply State.closeStep_touch | apply State.discard_touch | apply State.moveTo_touch | apply State.putStep_touch | apply State.sendNotice_touch) | (with_reducible show Sub _ _; exact hm.of rfl) | extract_lets | refine Touch.ofPair ‹_ = (_, _)› ?_ | split | dsimp -zeta only | dsimp -zeta +zetaDelta only)
theorem State.armedNotice_touch {m : Nat} (hm : Sub 0x1441FBF94 m) {s0 : State} (s : State) (p : Nat) (t : Step) (q : MeshPkt) (h : Touch m s0 s) : Touch m s0 (State.armedNotice s p t q) := by
  unfold State.armedNotice
  repeat' (first | (with_reducible first | assumption | apply State.discard_touch | apply State.stepNotice_touch | apply State.sawAttempt_touch | apply State.tokenNotice_touch) | (with_reducible show Sub _ _; exact hm.of rfl) | extract_lets | refine Touch.ofPair ‹_ = (_, _)› ?_ | split | dsimp -zeta only | dsimp -zeta +zetaDelta only)
theorem State.verdictPkt_touch {m : Nat} (hm : Sub 0x1441FBF94 m) {s0 : State} (s : State) (p : Nat) (t : Step) (q : MeshPkt) (h : Touch m s0 s) : Touch m s0 (State.verdictPkt s p t q) := by
  unfold State.verdictPkt
  repeat' (first | (with_reducible first | assumption | apply State.slowStep_touch | apply State.report_touch | apply State.discard_touch | apply State.moveTo_touch | apply State.putStep_touch | apply State.gotResult_touch | apply State.sawAttempt_touch | apply State.mismatched_touch) | (with_reducible show Sub _ _; exact hm.of rfl) | extract_lets | refine Touch.ofPair ‹_ = (_, _)› ?_ | split | dsimp -zeta only | dsimp -zeta +zetaDelta only)
theorem State.sendMirror_touch {m : Nat} (hm : Sub 0x40000 m) {s0 : State} (s : State) (p : Nat) (f : Nat) (r : Nat × Nat × Nat × Nat) (h : Touch m s0 s) : Touch m s0 (State.sendMirror s p f r) := by
  unfold State.sendMirror
  repeat' (first | (with_reducible intro _) | (with_reducible first | assumption | apply State.sendTo_touch | apply State.each_touch) | (with_reducible show Sub _ _; exact hm.of rfl) | extract_lets | refine Touch.ofPair ‹_ = (_, _)› ?_ | split | dsimp -zeta only | dsimp -zeta +zetaDelta only)
theorem State.tellMirror_touch {m : Nat} (hm : Sub 0x40004 m) {s0 : State} (s : State) (p : Nat) (f : Nat) (h : Touch m s0 s) : Touch m s0 (State.tellMirror s p f) := by
  unfold State.tellMirror
  repeat' (first | (with_reducible first | assumption | apply State.sendTo_touch | apply State.setFloe_touch) | (with_reducible show Sub _ _; exact hm.of rfl) | extract_lets | refine Touch.ofPair ‹_ = (_, _)› ?_ | split | dsimp -zeta only | dsimp -zeta +zetaDelta only)
theorem State.failMirror_touch {m : Nat} (hm : Sub 0x4 m) {s0 : State} (s : State) (f : Nat) (h : Touch m s0 s) : Touch m s0 (State.failMirror s f) := by
  unfold State.failMirror
  repeat' (first | (with_reducible first | assumption | apply State.setFloe_touch) | (with_reducible show Sub _ _; exact hm.of rfl) | extract_lets | refine Touch.ofPair ‹_ = (_, _)› ?_ | split | dsimp -zeta only | dsimp -zeta +zetaDelta only)
theorem State.answerMirror_touch {m : Nat} (hm : Sub 0x40000 m) {s0 : State} (s : State) (p : Nat) (q : MeshPkt) (kind : Nat) (reason : Nat) (total : Nat) (h : Touch m s0 s) : Touch m s0 (State.answerMirror s p q kind reason total) := by
  unfold State.answerMirror
  repeat' (first | (with_reducible first | assumption | apply State.sendTo_touch) | (with_reducible show Sub _ _; exact hm.of rfl) | extract_lets | refine Touch.ofPair ‹_ = (_, _)› ?_ | split | dsimp -zeta only | dsimp -zeta +zetaDelta only)
theorem State.mirrorNotice_touch {m : Nat} (hm : Sub 0x40014 m) {s0 : State} (s : State) (p : Nat) (q : MeshPkt) (h : Touch m s0 s) : Touch m s0 (State.mirrorNotice s p q) := by
  unfold State.mirrorNotice
  repeat' (first | (with_reducible first | assumption | apply State.setPart_touch | apply State.setFloe_touch | apply State.answerMirror_touch | apply State.discard_touch | apply State.failMirror_touch) | (with_reducible show Sub _ _; exact hm.of rfl) | extract_lets | refine Touch.ofPair ‹_ = (_, _)› ?_ | split | dsimp -zeta only | dsimp -zeta +zetaDelta only)
theorem State.mirrorIn_touch {m : Nat} (hm : Sub 0x144079794 m) {s0 : State} (s : State) (p : Nat) (q : MeshPkt) (h : Touch m s0 s) : Touch m s0 (State.mirrorIn s p q) := by
  unfold State.mirrorIn
  repeat' (first | (with_reducible first | assumption | apply State.setPart_touch | apply State.writeMem_touch | apply State.answerMirror_touch | apply State.discard_touch) | (with_reducible show Sub _ _; exact hm.of rfl) | extract_lets | refine Touch.ofPair ‹_ = (_, _)› ?_ | split | dsimp -zeta only | dsimp -zeta +zetaDelta only)
theorem State.mirrorTimeout_touch {m : Nat} (hm : Sub 0x40004 m) {s0 : State} (s : State) (p : Nat) (f : Nat) (h : Touch m s0 s) : Touch m s0 (State.mirrorTimeout s p f) := by
  unfold State.mirrorTimeout
  repeat' (first | (with_reducible intro _) | (with_reducible first | assumption | apply State.sendTo_touch | apply State.tellMirror_touch | apply State.setFloe_touch | apply State.failMirror_touch | apply State.sendMirror_touch | apply State.each_touch) | (with_reducible show Sub _ _; exact hm.of rfl) | extract_lets | refine Touch.ofPair ‹_ = (_, _)› ?_ | split | dsimp -zeta only | dsimp -zeta +zetaDelta only)
theorem State.collPkt_touch {m : Nat} (hm : Sub 0x1641FBF94 m) {s0 : State} (s : State) (q : MeshPkt) (stomp : Bool) (rime : Bool) (h : Touch m s0 s) : Touch m s0 (State.collPkt s q stomp rime) := by
  unfold State.collPkt
  repeat' (first | (with_reducible first | assumption | apply State.verdictPkt_touch | apply State.setPart_touch | apply State.armedNotice_touch | apply State.armedPkt_touch | apply State.discard_touch | apply State.mirrorNotice_touch | apply State.holdEarly_touch | apply State.forwardNotice_touch) | (with_reducible show Sub _ _; exact hm.of rfl) | extract_lets | refine Touch.ofPair ‹_ = (_, _)› ?_ | split | dsimp -zeta only | dsimp -zeta +zetaDelta only)
theorem State.wakeEarly_touch {m : Nat} (hm : Sub 0x1641FBF94 m) {s0 : State} (s : State) (p : Nat) (tag : Nat) (h : Touch m s0 s) : Touch m s0 (State.wakeEarly s p tag) := by
  unfold State.wakeEarly
  repeat' (first | (with_reducible intro _) | (with_reducible first | assumption | apply State.setFloe_touch | apply State.collPkt_touch | apply State.each_touch) | (with_reducible show Sub _ _; exact hm.of rfl) | extract_lets | refine Touch.ofPair ‹_ = (_, _)› ?_ | split | dsimp -zeta only | dsimp -zeta +zetaDelta only)
theorem State.onPkt_touch {m : Nat} (hm : Sub 0x40000 m) {s0 : State} (s : State) (g : MeshPkt → Bool) (hh : State → Arrived → State) (h_hh : ∀ (y0 : State) (y1 : Arrived) (_ : Touch m s0 y0), Touch m s0 (hh y0 y1)) (h : Touch m s0 s) : Touch m s0 (State.onPkt s g hh) := by
  unfold State.onPkt
  repeat' (first | (with_reducible first | assumption | apply h_hh) | (with_reducible show Sub _ _; exact hm.of rfl) | refine State.takePkt_touch (hm.of rfl) ‹_› ?_ | extract_lets | refine Touch.ofPair ‹_ = (_, _)› ?_ | split | dsimp -zeta only | dsimp -zeta +zetaDelta only)
theorem State.onNotice_touch {m : Nat} (hm : Sub 0x1641FBF94 m) {s0 : State} (s : State) (kind : Nat) (h : Touch m s0 s) : Touch m s0 (State.onNotice s kind) := by
  unfold State.onNotice
  repeat' (first | (with_reducible intro _) | (with_reducible first | assumption | apply State.collPkt_touch | apply State.onPkt_touch) | (with_reducible show Sub _ _; exact hm.of rfl) | extract_lets | refine Touch.ofPair ‹_ = (_, _)› ?_ | split | dsimp -zeta only | dsimp -zeta +zetaDelta only)
theorem execShift_touch {m : Nat} (hm : Sub 0x1641FBF94 m) {s0 : State} (s : State) (h : Touch m s0 s) : TouchO m s0 (execShift s) := by
  unfold execShift
  repeat' (first | (with_reducible intro _) | (with_reducible first | assumption | apply TouchO.next | apply State.collPkt_touch | apply State.onPkt_touch) | (with_reducible show Sub _ _; exact hm.of rfl) | extract_lets | refine Touch.ofPair ‹_ = (_, _)› ?_ | split | dsimp -zeta only | dsimp -zeta +zetaDelta only)
theorem execShiftAdd_touch {m : Nat} (hm : Sub 0x1641FBF94 m) {s0 : State} (rimeFail : Bool) (s : State) (h : Touch m s0 s) : TouchO m s0 (execShiftAdd rimeFail s) := by
  unfold execShiftAdd
  repeat' (first | (with_reducible intro _) | (with_reducible first | assumption | apply TouchO.next | apply State.collPkt_touch | apply State.onPkt_touch) | (with_reducible show Sub _ _; exact hm.of rfl) | extract_lets | refine Touch.ofPair ‹_ = (_, _)› ?_ | split | dsimp -zeta only | dsimp -zeta +zetaDelta only)
theorem execPermute_touch {m : Nat} (hm : Sub 0x1641FBF94 m) {s0 : State} (s : State) (h : Touch m s0 s) : TouchO m s0 (execPermute s) := by
  unfold execPermute
  repeat' (first | (with_reducible intro _) | (with_reducible first | assumption | apply TouchO.next | apply State.collPkt_touch | apply State.onPkt_touch) | (with_reducible show Sub _ _; exact hm.of rfl) | extract_lets | refine Touch.ofPair ‹_ = (_, _)› ?_ | split | dsimp -zeta only | dsimp -zeta +zetaDelta only)
theorem execVerdict_touch {m : Nat} (hm : Sub 0x1641FBF94 m) {s0 : State} (s : State) (h : Touch m s0 s) : TouchO m s0 (execVerdict s) := by
  unfold execVerdict
  repeat' (first | (with_reducible intro _) | (with_reducible first | assumption | apply TouchO.next | apply State.collPkt_touch | apply State.onPkt_touch) | (with_reducible show Sub _ _; exact hm.of rfl) | extract_lets | refine Touch.ofPair ‹_ = (_, _)› ?_ | split | dsimp -zeta only | dsimp -zeta +zetaDelta only)
theorem execNoticeSlow_touch {m : Nat} (hm : Sub 0x1641FBF94 m) {s0 : State} (s : State) (h : Touch m s0 s) : TouchO m s0 (execNoticeSlow s) := by
  unfold execNoticeSlow
  repeat' (first | (with_reducible first | assumption | apply TouchO.next | apply State.onNotice_touch) | (with_reducible show Sub _ _; exact hm.of rfl) | extract_lets | refine Touch.ofPair ‹_ = (_, _)› ?_ | split | dsimp -zeta only | dsimp -zeta +zetaDelta only)
theorem execNoticeReplay_touch {m : Nat} (hm : Sub 0x1641FBF94 m) {s0 : State} (s : State) (h : Touch m s0 s) : TouchO m s0 (execNoticeReplay s) := by
  unfold execNoticeReplay
  repeat' (first | (with_reducible first | assumption | apply TouchO.next | apply State.onNotice_touch) | (with_reducible show Sub _ _; exact hm.of rfl) | extract_lets | refine Touch.ofPair ‹_ = (_, _)› ?_ | split | dsimp -zeta only | dsimp -zeta +zetaDelta only)
theorem execNoticeFail_touch {m : Nat} (hm : Sub 0x1641FBF94 m) {s0 : State} (s : State) (h : Touch m s0 s) : TouchO m s0 (execNoticeFail s) := by
  unfold execNoticeFail
  repeat' (first | (with_reducible first | assumption | apply TouchO.next | apply State.onNotice_touch) | (with_reducible show Sub _ _; exact hm.of rfl) | extract_lets | refine Touch.ofPair ‹_ = (_, _)› ?_ | split | dsimp -zeta only | dsimp -zeta +zetaDelta only)
theorem execNoticeMismatch_touch {m : Nat} (hm : Sub 0x1641FBF94 m) {s0 : State} (s : State) (h : Touch m s0 s) : TouchO m s0 (execNoticeMismatch s) := by
  unfold execNoticeMismatch
  repeat' (first | (with_reducible first | assumption | apply TouchO.next | apply State.onNotice_touch) | (with_reducible show Sub _ _; exact hm.of rfl) | extract_lets | refine Touch.ofPair ‹_ = (_, _)› ?_ | split | dsimp -zeta only | dsimp -zeta +zetaDelta only)
theorem execNoticeDone_touch {m : Nat} (hm : Sub 0x1641FBF94 m) {s0 : State} (s : State) (h : Touch m s0 s) : TouchO m s0 (execNoticeDone s) := by
  unfold execNoticeDone
  repeat' (first | (with_reducible first | assumption | apply TouchO.next | apply State.onNotice_touch) | (with_reducible show Sub _ _; exact hm.of rfl) | extract_lets | refine Touch.ofPair ‹_ = (_, _)› ?_ | split | dsimp -zeta only | dsimp -zeta +zetaDelta only)
theorem execNoticeClose_touch {m : Nat} (hm : Sub 0x1641FBF94 m) {s0 : State} (s : State) (h : Touch m s0 s) : TouchO m s0 (execNoticeClose s) := by
  unfold execNoticeClose
  repeat' (first | (with_reducible first | assumption | apply TouchO.next | apply State.onNotice_touch) | (with_reducible show Sub _ _; exact hm.of rfl) | extract_lets | refine Touch.ofPair ‹_ = (_, _)› ?_ | split | dsimp -zeta only | dsimp -zeta +zetaDelta only)
theorem execMirror_touch {m : Nat} (hm : Sub 0x144079794 m) {s0 : State} (s : State) (h : Touch m s0 s) : TouchO m s0 (execMirror s) := by
  unfold execMirror
  repeat' (first | (with_reducible intro _) | (with_reducible first | assumption | apply TouchO.next | apply State.mirrorIn_touch | apply State.discard_touch | apply State.onPkt_touch) | (with_reducible show Sub _ _; exact hm.of rfl) | extract_lets | refine Touch.ofPair ‹_ = (_, _)› ?_ | split | dsimp -zeta only | dsimp -zeta +zetaDelta only)
theorem execBulk_touch {m : Nat} (hm : Sub 0x40000 m) {s0 : State} (s : State) (h : Touch m s0 s) : TouchO m s0 (execBulk s) := by
  unfold execBulk
  repeat' (first | (with_reducible intro _) | (with_reducible first | assumption | apply TouchO.next | apply State.discard_touch | apply State.onPkt_touch) | (with_reducible show Sub _ _; exact hm.of rfl) | extract_lets | refine Touch.ofPair ‹_ = (_, _)› ?_ | split | dsimp -zeta only | dsimp -zeta +zetaDelta only)
theorem State.arm_touch {m : Nat} (hm : Sub 0x1641FBF94 m) {s0 : State} (s : State) (p : Nat) (t : Step) (h : Touch m s0 s) : Touch m s0 (State.arm s p t) := by
  unfold State.arm
  repeat' (first | (with_reducible first | assumption | apply State.bindAdd_touch | apply State.setPart_touch | apply State.ownCopies_touch | apply State.wakeEarly_touch | apply State.originate_touch) | (with_reducible show Sub _ _; exact hm.of rfl) | extract_lets | refine Touch.ofPair ‹_ = (_, _)› ?_ | split | dsimp -zeta only | dsimp -zeta +zetaDelta only)
theorem State.ringAccept_touch {m : Nat} (hm : Sub 0x1641FBF94 m) {s0 : State} (s : State) (f : Nat) (st : Stream) (arb : Arb) (k : StepKind) (w : IWord) (h : Touch m s0 s) : Touch m s0 (State.ringAccept s f st arb k w) := by
  unfold State.ringAccept
  repeat' (first | (with_reducible intro _) | (with_reducible first | assumption | apply State.noteRange_touch | apply State.issue_touch | apply State.setFloe_touch | apply State.grant_touch | apply State.arm_touch | apply State.each_touch) | (with_reducible show Sub _ _; exact hm.of rfl) | extract_lets | refine Touch.ofPair ‹_ = (_, _)› ?_ | split | dsimp -zeta only | dsimp -zeta +zetaDelta only)
theorem execCollShiftAllgather_touch {m : Nat} (hm : Sub 0x1641FBF94 m) {s0 : State} (f : Nat) (st : Stream) (arb : Arb) (s : State) (h : Touch m s0 s) : TouchO m s0 (execCollShiftAllgather f st arb s) := by
  unfold execCollShiftAllgather
  repeat' (first | (with_reducible intro _) | (with_reducible first | assumption | apply TouchO.next | apply State.inCycle_touch | apply State.onHead_touch | apply State.ringAccept_touch) | (with_reducible show Sub _ _; exact hm.of rfl) | extract_lets | refine Touch.ofPair ‹_ = (_, _)› ?_ | split | dsimp -zeta only | dsimp -zeta +zetaDelta only)
theorem execCollShiftRotate_touch {m : Nat} (hm : Sub 0x1641FBF94 m) {s0 : State} (f : Nat) (st : Stream) (arb : Arb) (s : State) (h : Touch m s0 s) : TouchO m s0 (execCollShiftRotate f st arb s) := by
  unfold execCollShiftRotate
  repeat' (first | (with_reducible intro _) | (with_reducible first | assumption | apply TouchO.next | apply State.inCycle_touch | apply State.onHead_touch | apply State.ringAccept_touch) | (with_reducible show Sub _ _; exact hm.of rfl) | extract_lets | refine Touch.ofPair ‹_ = (_, _)› ?_ | split | dsimp -zeta only | dsimp -zeta +zetaDelta only)
theorem execCollReduceScatter_touch {m : Nat} (hm : Sub 0x1641FBF94 m) {s0 : State} (f : Nat) (st : Stream) (arb : Arb) (s : State) (h : Touch m s0 s) : TouchO m s0 (execCollReduceScatter f st arb s) := by
  unfold execCollReduceScatter
  repeat' (first | (with_reducible intro _) | (with_reducible first | assumption | apply TouchO.next | apply State.inCycle_touch | apply State.onHead_touch | apply State.ringAccept_touch) | (with_reducible show Sub _ _; exact hm.of rfl) | extract_lets | refine Touch.ofPair ‹_ = (_, _)› ?_ | split | dsimp -zeta only | dsimp -zeta +zetaDelta only)
theorem execCollAllreduce_touch {m : Nat} (hm : Sub 0x1641FBF94 m) {s0 : State} (f : Nat) (st : Stream) (arb : Arb) (s : State) (h : Touch m s0 s) : TouchO m s0 (execCollAllreduce f st arb s) := by
  unfold execCollAllreduce
  repeat' (first | (with_reducible intro _) | (with_reducible first | assumption | apply TouchO.next | apply State.inCycle_touch | apply State.onHead_touch | apply State.ringAccept_touch) | (with_reducible show Sub _ _; exact hm.of rfl) | extract_lets | refine Touch.ofPair ‹_ = (_, _)› ?_ | split | dsimp -zeta only | dsimp -zeta +zetaDelta only)
theorem execCollPermute_touch {m : Nat} (hm : Sub 0x1641FBF94 m) {s0 : State} (f : Nat) (st : Stream) (arb : Arb) (s : State) (h : Touch m s0 s) : TouchO m s0 (execCollPermute f st arb s) := by
  unfold execCollPermute
  repeat' (first | (with_reducible intro _) | (with_reducible first | assumption | apply TouchO.next | apply State.inCycle_touch | apply State.onHead_touch | apply State.ringAccept_touch) | (with_reducible show Sub _ _; exact hm.of rfl) | extract_lets | refine Touch.ofPair ‹_ = (_, _)› ?_ | split | dsimp -zeta only | dsimp -zeta +zetaDelta only)
theorem State.verdictAccept_touch {m : Nat} (hm : Sub 0x1641FBF94 m) {s0 : State} (s : State) (f : Nat) (st : Stream) (arb : Arb) (k : StepKind) (w : IWord) (h : Touch m s0 s) : Touch m s0 (State.verdictAccept s f st arb k w) := by
  unfold State.verdictAccept
  repeat' (first | (with_reducible intro _) | (with_reducible first | assumption | apply State.setPart_touch | apply State.tellMirror_touch | apply State.setStream_touch | apply State.issue_touch | apply State.wakeEarly_touch | apply State.grant_touch | apply State.putStep_touch) | (with_reducible show Sub _ _; exact hm.of rfl) | extract_lets | refine Touch.ofPair ‹_ = (_, _)› ?_ | split | dsimp -zeta only | dsimp -zeta +zetaDelta only)
theorem execCollVerdictCommit_touch {m : Nat} (hm : Sub 0x1641FBF94 m) {s0 : State} (f : Nat) (st : Stream) (arb : Arb) (s : State) (h : Touch m s0 s) : TouchO m s0 (execCollVerdictCommit f st arb s) := by
  unfold execCollVerdictCommit
  repeat' (first | (with_reducible intro _) | (with_reducible first | assumption | apply TouchO.next | apply State.inCycle_touch | apply State.onHead_touch | apply State.verdictAccept_touch) | (with_reducible show Sub _ _; exact hm.of rfl) | extract_lets | refine Touch.ofPair ‹_ = (_, _)› ?_ | split | dsimp -zeta only | dsimp -zeta +zetaDelta only)
theorem execCollVerdictNorm_touch {m : Nat} (hm : Sub 0x1641FBF94 m) {s0 : State} (f : Nat) (st : Stream) (arb : Arb) (s : State) (h : Touch m s0 s) : TouchO m s0 (execCollVerdictNorm f st arb s) := by
  unfold execCollVerdictNorm
  repeat' (first | (with_reducible intro _) | (with_reducible first | assumption | apply TouchO.next | apply State.inCycle_touch | apply State.onHead_touch | apply State.verdictAccept_touch) | (with_reducible show Sub _ _; exact hm.of rfl) | extract_lets | refine Touch.ofPair ‹_ = (_, _)› ?_ | split | dsimp -zeta only | dsimp -zeta +zetaDelta only)
theorem execCollVerdictBarrier_touch {m : Nat} (hm : Sub 0x1641FBF94 m) {s0 : State} (f : Nat) (st : Stream) (arb : Arb) (s : State) (h : Touch m s0 s) : TouchO m s0 (execCollVerdictBarrier f st arb s) := by
  unfold execCollVerdictBarrier
  repeat' (first | (with_reducible intro _) | (with_reducible first | assumption | apply TouchO.next | apply State.inCycle_touch | apply State.onHead_touch | apply State.verdictAccept_touch) | (with_reducible show Sub _ _; exact hm.of rfl) | extract_lets | refine Touch.ofPair ‹_ = (_, _)› ?_ | split | dsimp -zeta only | dsimp -zeta +zetaDelta only)
theorem State.steerAccept_touch {m : Nat} (hm : Sub 0x80014 m) {s0 : State} (s : State) (p : Nat) (f : Nat) (st : Stream) (w : IWord) (h : Touch m s0 s) : Touch m s0 (State.steerAccept s p f st w) := by
  unfold State.steerAccept
  repeat' (first | (with_reducible first | assumption | apply State.setPart_touch | apply State.issue_touch | apply State.planHold_touch) | (with_reducible show Sub _ _; exact hm.of rfl) | extract_lets | refine Touch.ofPair ‹_ = (_, _)› ?_ | split | dsimp -zeta only | dsimp -zeta +zetaDelta only)
theorem execCollSteer_touch {m : Nat} (hm : Sub 0x1440B9514 m) {s0 : State} (f : Nat) (st : Stream) (arb : Arb) (s : State) (h : Touch m s0 s) : TouchO m s0 (execCollSteer f st arb s) := by
  unfold execCollSteer
  repeat' (first | (with_reducible intro _) | (with_reducible first | assumption | apply TouchO.next | apply State.inCycle_touch | apply State.steerAccept_touch | apply State.grant_touch | apply State.onHead_touch) | (with_reducible show Sub _ _; exact hm.of rfl) | extract_lets | refine Touch.ofPair ‹_ = (_, _)› ?_ | split | dsimp -zeta only | dsimp -zeta +zetaDelta only)
theorem State.markSums_touch {m : Nat} (hm : Sub 0x144039784 m) {s0 : State} (s : State) (t : Step) (h : Touch m s0 s) : Touch m s0 (State.markSums s t) := by
  unfold State.markSums
  repeat' (first | (with_reducible intro _) | (with_reducible first | assumption | apply State.markOcc_touch | apply State.each_touch) | (with_reducible show Sub _ _; exact hm.of rfl) | extract_lets | refine Touch.ofPair ‹_ = (_, _)› ?_ | split | dsimp -zeta only | dsimp -zeta +zetaDelta only)
theorem execCollStepComplete_touch {m : Nat} (hm : Sub 0x14407BF94 m) {s0 : State} (p : Nat) (tag : Nat) (s : State) (h : Touch m s0 s) : TouchO m s0 (execCollStepComplete p tag s) := by
  unfold execCollStepComplete
  repeat' (first | (with_reducible first | assumption | apply TouchO.next | apply State.passDone_touch | apply State.setFloe_touch | apply State.closeStep_touch | apply State.markSums_touch | apply State.putStep_touch) | (with_reducible show Sub _ _; exact hm.of rfl) | extract_lets | refine Touch.ofPair ‹_ = (_, _)› ?_ | split | dsimp -zeta only | dsimp -zeta +zetaDelta only)
theorem execVerdictContribution_touch {m : Nat} (hm : Sub 0x1440FBF94 m) {s0 : State} (p : Nat) (tag : Nat) (s : State) (h : Touch m s0 s) : TouchO m s0 (execVerdictContribution p tag s) := by
  unfold execVerdictContribution
  repeat' (first | (with_reducible first | assumption | apply TouchO.next | apply State.report_touch | apply State.putStep_touch) | (with_reducible show Sub _ _; exact hm.of rfl) | extract_lets | refine Touch.ofPair ‹_ = (_, _)› ?_ | split | dsimp -zeta only | dsimp -zeta +zetaDelta only)
theorem execVerdictComplete_touch {m : Nat} (hm : Sub 0x1440F9794 m) {s0 : State} (p : Nat) (tag : Nat) (s : State) (h : Touch m s0 s) : TouchO m s0 (execVerdictComplete p tag s) := by
  unfold execVerdictComplete
  repeat' (first | (with_reducible first | assumption | apply TouchO.next | apply State.endVerdict_touch) | (with_reducible show Sub _ _; exact hm.of rfl) | extract_lets | refine Touch.ofPair ‹_ = (_, _)› ?_ | split | dsimp -zeta only | dsimp -zeta +zetaDelta only)
theorem execSteerComplete_touch {m : Nat} (hm : Sub 0x1441C1410 m) {s0 : State} (s : State) (h : Touch m s0 s) : TouchO m s0 (execSteerComplete s) := by
  unfold execSteerComplete
  repeat' (first | (with_reducible intro _) | (with_reducible first | assumption | apply TouchO.next | apply State.planDone_touch | apply State.setPart_touch | apply State.wakeWl_touch | apply State.each_touch) | (with_reducible show Sub _ _; exact hm.of rfl) | extract_lets | refine Touch.ofPair ‹_ = (_, _)› ?_ | split | dsimp -zeta only | dsimp -zeta +zetaDelta only)
theorem execStepTimeout_touch {m : Nat} (hm : Sub 0x1441FBF94 m) {s0 : State} (p : Nat) (tag : Nat) (s : State) (h : Touch m s0 s) : TouchO m s0 (execStepTimeout p tag s) := by
  unfold execStepTimeout
  repeat' (first | (with_reducible first | assumption | apply TouchO.next | apply State.around_touch | apply State.pauseCheck_touch | apply State.failStep_touch | apply State.mirrorTimeout_touch | apply State.moveTo_touch) | (with_reducible show Sub _ _; exact hm.of rfl) | extract_lets | refine Touch.ofPair ‹_ = (_, _)› ?_ | split | dsimp -zeta only | dsimp -zeta +zetaDelta only)
theorem execSlowResend_touch {m : Nat} (hm : Sub 0x40000 m) {s0 : State} (p : Nat) (tag : Nat) (s : State) (h : Touch m s0 s) : TouchO m s0 (execSlowResend p tag s) := by
  unfold execSlowResend
  repeat' (first | (with_reducible first | assumption | apply TouchO.next | apply State.around_touch) | (with_reducible show Sub _ _; exact hm.of rfl) | extract_lets | refine Touch.ofPair ‹_ = (_, _)› ?_ | split | dsimp -zeta only | dsimp -zeta +zetaDelta only)

end Sys2Proof.Machine
end

