-- ==== Sys2Proof/Laws/TouchUpdate.lean ====
section
/-! SUPPORT. What every operation of Machine/Update.lean may touch (Sys2Proof.Machine.Touch). -/

namespace Sys2Proof.Machine

set_option linter.all false

theorem State.updHead_touch {m : Nat} (hm : Sub 0x144039514 m) {s0 : State} (s : State) (f : Nat) (st : Stream) (arb : Arb) (w : IWord) (h : Touch m s0 s) : Touch m s0 (State.updHead s f st arb w) := by
  unfold State.updHead
  repeat' (first | (with_reducible intro _) | (with_reducible first | assumption | apply State.issue_touch | apply State.setFloe_touch | apply State.grant_touch) | (with_reducible show Sub _ _; exact hm.of rfl) | extract_lets | refine Touch.ofPair ‹_ = (_, _)› ?_ | split | dsimp -zeta only | dsimp -zeta +zetaDelta only)
theorem execUpdAdamw_touch {m : Nat} (hm : Sub 0x144039514 m) {s0 : State} (f : Nat) (st : Stream) (arb : Arb) (s : State) (h : Touch m s0 s) : TouchO m s0 (execUpdAdamw f st arb s) := by
  unfold execUpdAdamw
  repeat' (first | (with_reducible intro _) | (with_reducible first | assumption | apply TouchO.next | apply State.inCycle_touch | apply State.onHead_touch | apply State.updHead_touch) | (with_reducible show Sub _ _; exact hm.of rfl) | extract_lets | refine Touch.ofPair ‹_ = (_, _)› ?_ | split | dsimp -zeta only | dsimp -zeta +zetaDelta only)
theorem execUpdSgdm_touch {m : Nat} (hm : Sub 0x144039514 m) {s0 : State} (f : Nat) (st : Stream) (arb : Arb) (s : State) (h : Touch m s0 s) : TouchO m s0 (execUpdSgdm f st arb s) := by
  unfold execUpdSgdm
  repeat' (first | (with_reducible intro _) | (with_reducible first | assumption | apply TouchO.next | apply State.inCycle_touch | apply State.onHead_touch | apply State.updHead_touch) | (with_reducible show Sub _ _; exact hm.of rfl) | extract_lets | refine Touch.ofPair ‹_ = (_, _)› ?_ | split | dsimp -zeta only | dsimp -zeta +zetaDelta only)
theorem State.updWrite_touch {m : Nat} (hm : Sub 0x144039784 m) {s0 : State} (s : State) (f : Nat) (o : UpdOp) (br : Nat) (bc : Nat) (rows : List (List UpdEl)) (h : Touch m s0 s) : Touch m s0 (State.updWrite s f o br bc rows).1 := by
  unfold State.updWrite
  repeat' (first | (with_reducible first | assumption | apply State.writeBlock_touch | apply State.put_touch | apply State.markOcc_touch) | (with_reducible show Sub _ _; exact hm.of rfl) | extract_lets | refine Touch.ofPair ‹_ = (_, _)› ?_ | split | dsimp -zeta only | dsimp -zeta +zetaDelta only)
theorem State.updWrite_touchE {m : Nat} (hm : Sub 0x144039784 m) {s0 s9 : State} {s : State} {f : Nat} {o : UpdOp} {br : Nat} {bc : Nat} {rows : List (List UpdEl)} {r9 : _} (e : State.updWrite s f o br bc rows = (s9, r9)) (h : Touch m s0 s) : Touch m s0 s9 := by
  have k := State.updWrite_touch hm (s0 := s0) s f o br bc rows h
  rw [e] at k
  exact k
theorem State.mirrorOut_touch {m : Nat} (hm : Sub 0x40004 m) {s0 : State} (s : State) (p : Nat) (f : Nat) (l : List (Nat × Nat × Nat × Nat)) (h : Touch m s0 s) : Touch m s0 (State.mirrorOut s p f l) := by
  unfold State.mirrorOut
  repeat' (first | (with_reducible intro _) | (with_reducible first | assumption | apply State.setFloe_touch | apply State.sendMirror_touch | apply State.each_touch) | (with_reducible show Sub _ _; exact hm.of rfl) | extract_lets | refine Touch.ofPair ‹_ = (_, _)› ?_ | split | dsimp -zeta only | dsimp -zeta +zetaDelta only)
theorem State.updSettled_touch {m : Nat} (hm : Sub 0x40014 m) {s0 : State} (s : State) (p : Nat) (f : Nat) (h : Touch m s0 s) : Touch m s0 (State.updSettled s p f) := by
  unfold State.updSettled
  repeat' (first | (with_reducible first | assumption | apply State.setPart_touch | apply State.tellMirror_touch) | (with_reducible show Sub _ _; exact hm.of rfl) | extract_lets | refine Touch.ofPair ‹_ = (_, _)› ?_ | split | dsimp -zeta only | dsimp -zeta +zetaDelta only)
theorem State.updRun_touch {m : Nat} (hm : Sub 0x144079794 m) {s0 : State} (s : State) (f : Nat) (errs : Errs) (o : UpdOp) (h : Touch m s0 s) : Touch m s0 (State.updRun s f errs o) := by
  unfold State.updRun
  repeat' (first | (with_reducible intro _) | (with_reducible first | assumption | apply State.noteRange_touch | apply State.setFloe_touch | apply State.updSettled_touch | apply State.mirrorOut_touch | apply State.countMalformed_touch | apply State.recordNf_touch | apply State.updWrite_touch | apply State.each_touch | apply Touch.foldl | apply Touch.foldl1) | (with_reducible show Sub _ _; exact hm.of rfl) | extract_lets | refine Touch.ofPair ‹_ = (_, _)› ?_ | split | dsimp -zeta only | dsimp -zeta +zetaDelta only)
theorem execUpdComplete_touch {m : Nat} (hm : Sub 0x144079794 m) {s0 : State} (f : Nat) (errs : Errs) (s : State) (h : Touch m s0 s) : TouchO m s0 (execUpdComplete f errs s) := by
  unfold execUpdComplete
  repeat' (first | (with_reducible first | assumption | apply TouchO.next | apply State.updRun_touch) | (with_reducible show Sub _ _; exact hm.of rfl) | extract_lets | refine Touch.ofPair ‹_ = (_, _)› ?_ | split | dsimp -zeta only | dsimp -zeta +zetaDelta only)

end Sys2Proof.Machine
end

