-- ==== Sys2Proof/Laws/TouchPart.lean ====
section
/-! SUPPORT. What every operation of Machine/Part.lean may touch (Sys2Proof.Machine.Touch). -/

namespace Sys2Proof.Machine

set_option linter.all false

theorem State.degrade_touch {m : Nat} (hm : Sub 0x1441FBF94 m) {s0 : State} (s : State) (p : Nat) (cause : Nat) (h : Touch m s0 s) : Touch m s0 (State.degrade s p cause) := by
  unfold State.degrade
  repeat' (first | (with_reducible first | assumption | apply State.setPart_touch | apply State.answerPause_touch | apply State.eventBoth_touch | apply State.rasReport_touch | apply State.stopStreams_touch | apply State.failOpen_touch) | (with_reducible show Sub _ _; exact hm.of rfl) | extract_lets | refine Touch.ofPair ‹_ = (_, _)› ?_ | split | dsimp -zeta only | dsimp -zeta +zetaDelta only)
theorem State.dropLatches_touch {m : Nat} (hm : Sub 0x600000000 m) {s0 : State} (s : State) (die : Nat) (page : Nat) (h : Touch m s0 s) : Touch m s0 (State.dropLatches s die page) := by
  unfold State.dropLatches
  repeat' (first | with_reducible assumption | (with_reducible show Sub _ _; exact hm.of rfl) | simp -zeta only [Touch.upd_latches_stagedI (hm.of rfl)] | extract_lets | refine Touch.ofPair ‹_ = (_, _)› ?_ | split | dsimp -zeta only | dsimp -zeta +zetaDelta only)
theorem State.resetPage_touch {m : Nat} (hm : Sub 0x700000000 m) {s0 : State} (s : State) (die : Nat) (page : Nat) (h : Touch m s0 s) : Touch m s0 (State.resetPage s die page) := by
  unfold State.resetPage
  repeat' (first | (with_reducible first | assumption | apply State.setHdr_touch | apply State.dropLatches_touch) | (with_reducible show Sub _ _; exact hm.of rfl) | extract_lets | refine Touch.ofPair ‹_ = (_, _)› ?_ | split | dsimp -zeta only | dsimp -zeta +zetaDelta only)
theorem State.spoil_touch {m : Nat} (hm : Sub 0x800000080 m) {s0 : State} (s : State) (l : List (Nat × Nat)) (h : Touch m s0 s) : Touch m s0 (State.spoil s l) := by
  unfold State.spoil
  repeat' (first | (with_reducible intro _) | (with_reducible first | assumption | apply State.poke_touch | apply State.each_touch) | (with_reducible show Sub _ _; exact hm.of rfl) | simp -zeta only [Touch.upd_freshI (hm.of rfl)] | extract_lets | refine Touch.ofPair ‹_ = (_, _)› ?_ | split | dsimp -zeta only | dsimp -zeta +zetaDelta only)
theorem State.abandonFloe_touch {m : Nat} (hm : Sub 0x800000080 m) {s0 : State} (s : State) (f : Nat) (h : Touch m s0 s) : Touch m s0 (State.abandonFloe s f) := by
  unfold State.abandonFloe
  repeat' (first | (with_reducible first | assumption | apply State.spoil_touch) | (with_reducible show Sub _ _; exact hm.of rfl) | extract_lets | refine Touch.ofPair ‹_ = (_, _)› ?_ | split | dsimp -zeta only | dsimp -zeta +zetaDelta only)
theorem State.resetFloe_touch {m : Nat} (hm : Sub 0x70000018C m) {s0 : State} (s : State) (f : Nat) (h : Touch m s0 s) : Touch m s0 (State.resetFloe s f) := by
  unfold State.resetFloe
  repeat' (first | (with_reducible first | assumption | apply State.setFloe_touch | apply State.resetPage_touch) | (with_reducible show Sub _ _; exact hm.of rfl) | extract_lets | refine Touch.ofPair ‹_ = (_, _)› ?_ | split | dsimp -zeta only | dsimp -zeta +zetaDelta only | with_reducible refine Touch.upd_signals_mem_spBad ?_ (by first | exact dropBytes_wf _ _ | exact putBytes_wf _ _) ?_)
theorem State.resetPart_touch {m : Nat} (hm : Sub 0xF0000019C m) {s0 : State} (s : State) (p : Nat) (h : Touch m s0 s) : Touch m s0 (State.resetPart s p) := by
  unfold State.resetPart
  repeat' (first | (with_reducible intro _) | (with_reducible first | assumption | apply State.setPart_touch | apply State.resetFloe_touch | apply State.abandonFloe_touch | apply State.each_touch) | (with_reducible show Sub _ _; exact hm.of rfl) | extract_lets | refine Touch.ofPair ‹_ = (_, _)› ?_ | split | dsimp -zeta only | dsimp -zeta +zetaDelta only)
theorem State.scrubUnit_touch {m : Nat} (hm : Sub 0x20280 m) {s0 : State} (s : State) (a : Nat) (h : Touch m s0 s) : Touch m s0 (State.scrubUnit s a) := by
  unfold State.scrubUnit
  repeat' (first | (with_reducible first | assumption | apply State.setCxl_touch) | (with_reducible show Sub _ _; exact hm.of rfl) | extract_lets | refine Touch.ofPair ‹_ = (_, _)› ?_ | split | dsimp -zeta only | dsimp -zeta +zetaDelta only | with_reducible refine Touch.upd_mem_poison ?_ (by first | exact dropBytes_wf _ _ | exact putBytes_wf _ _) ?_)
theorem State.destroyKeys_touch {m : Nat} (hm : Sub 0x100010 m) {s0 : State} (s : State) (p : Nat) (h : Touch m s0 s) : Touch m s0 (State.destroyKeys s p) := by
  unfold State.destroyKeys
  repeat' (first | (with_reducible first | assumption | apply State.setPart_touch) | (with_reducible show Sub _ _; exact hm.of rfl) | simp -zeta only [Touch.upd_oedI (hm.of rfl)] | extract_lets | refine Touch.ofPair ‹_ = (_, _)› ?_ | split | dsimp -zeta only | dsimp -zeta +zetaDelta only)
theorem State.newScrub_touch {m : Nat} (hm : Sub 0x8000000 m) {s0 : State} (s : State) (h : Touch m s0 s) : Touch m s0 (State.newScrub s) := by
  unfold State.newScrub
  repeat' (first | (with_reducible first | assumption | apply State.setSec_touch) | (with_reducible show Sub _ _; exact hm.of rfl) | extract_lets | refine Touch.ofPair ‹_ = (_, _)› ?_ | split | dsimp -zeta only | dsimp -zeta +zetaDelta only)
theorem State.beginThaw_touch {m : Nat} (hm : Sub 0xF4C1C15DC m) {s0 : State} (s : State) (p : Nat) (h : Touch m s0 s) : Touch m s0 (State.beginThaw s p) := by
  unfold State.beginThaw
  repeat' (first | (with_reducible first | assumption | apply State.destroyKeys_touch | apply State.setPart_touch | apply State.resetPart_touch | apply State.planRelease_touch | apply State.newScrub_touch | apply State.abandonOpen_touch) | (with_reducible show Sub _ _; exact hm.of rfl) | simp -zeta only [Touch.upd_steerI (hm.of rfl)] | extract_lets | refine Touch.ofPair ‹_ = (_, _)› ?_ | split | dsimp -zeta only | dsimp -zeta +zetaDelta only)
theorem State.attestReady_touch {m : Nat} (hm : Sub 0x144001400 m) {s0 : State} (s : State) (h : Touch m s0 s) : Touch m s0 (State.attestReady s) := by
  unfold State.attestReady
  repeat' (first | (with_reducible intro _) | (with_reducible first | assumption | apply State.setEp_touch | apply State.event_touch | apply State.each_touch) | (with_reducible show Sub _ _; exact hm.of rfl) | extract_lets | refine Touch.ofPair ‹_ = (_, _)› ?_ | split | dsimp -zeta only | dsimp -zeta +zetaDelta only)
theorem State.newEpoch_touch {m : Nat} (hm : Sub 0x8000000 m) {s0 : State} (s : State) (h : Touch m s0 s) : Touch m s0 (State.newEpoch s) := by
  unfold State.newEpoch
  repeat' (first | (with_reducible first | assumption | apply State.setSec_touch) | (with_reducible show Sub _ _; exact hm.of rfl) | extract_lets | refine Touch.ofPair ‹_ = (_, _)› ?_ | split | dsimp -zeta only | dsimp -zeta +zetaDelta only)
theorem State.clearSeq_touch {m : Nat} (hm : Sub 0x400 m) {s0 : State} (s : State) (p : Nat) (h : Touch m s0 s) : Touch m s0 (State.clearSeq s p) := by
  unfold State.clearSeq
  repeat' (first | (with_reducible intro _) | (with_reducible first | assumption | apply State.setEp_touch | apply State.each_touch) | (with_reducible show Sub _ _; exact hm.of rfl) | extract_lets | refine Touch.ofPair ‹_ = (_, _)› ?_ | split | dsimp -zeta only | dsimp -zeta +zetaDelta only)
theorem State.endThaw_touch {m : Nat} (hm : Sub 0x14C071690 m) {s0 : State} (s : State) (p : Nat) (h : Touch m s0 s) : Touch m s0 (State.endThaw s p) := by
  unfold State.endThaw
  repeat' (first | (with_reducible intro _) | (with_reducible first | assumption | apply State.setRouter_touch | apply State.setPart_touch | apply State.afterThaw_touch | apply State.scrubUnit_touch | apply State.clearSeq_touch | apply State.attestReady_touch | apply State.newEpoch_touch | apply State.event_touch | apply State.each_touch) | (with_reducible show Sub _ _; exact hm.of rfl) | simp -zeta only [Touch.upd_nmI (hm.of rfl)] | extract_lets | refine Touch.ofPair ‹_ = (_, _)› ?_ | split | dsimp -zeta only | dsimp -zeta +zetaDelta only)
theorem execThawDone_touch {m : Nat} (hm : Sub 0x14C071690 m) {s0 : State} (p : Nat) (s : State) (h : Touch m s0 s) : TouchO m s0 (execThawDone p s) := by
  unfold execThawDone
  repeat' (first | (with_reducible first | assumption | apply TouchO.next | apply State.endThaw_touch) | (with_reducible show Sub _ _; exact hm.of rfl) | extract_lets | refine Touch.ofPair ‹_ = (_, _)› ?_ | split | dsimp -zeta only | dsimp -zeta +zetaDelta only)

end Sys2Proof.Machine
end

