-- ==== Sys2Proof/Laws/TouchRetire.lean ====
section
/-! SUPPORT. What every operation of Machine/Retire.lean may touch (Sys2Proof.Machine.Touch). -/

namespace Sys2Proof.Machine

set_option linter.all false

theorem State.setIf_touch {m : Nat} (hm : Sub 0x10000 m) {s0 : State} (s : State) (i : Nat) (st : Nat) (h : Touch m s0 s) : Touch m s0 (State.setIf s i st) := by
  unfold State.setIf
  repeat' (first | with_reducible assumption | (with_reducible show Sub _ _; exact hm.of rfl) | simp -zeta only [Touch.upd_nmI (hm.of rfl)] | extract_lets | refine Touch.ofPair ‹_ = (_, _)› ?_ | split | dsimp -zeta only | dsimp -zeta +zetaDelta only)
theorem State.markRetired_touch {m : Nat} (hm : Sub 0x10000 m) {s0 : State} (s : State) (i : Nat) (h : Touch m s0 s) : Touch m s0 (State.markRetired s i) := by
  unfold State.markRetired
  repeat' (first | with_reducible assumption | (with_reducible show Sub _ _; exact hm.of rfl) | simp -zeta only [Touch.upd_nmI (hm.of rfl)] | extract_lets | refine Touch.ofPair ‹_ = (_, _)› ?_ | split | dsimp -zeta only | dsimp -zeta +zetaDelta only)
theorem State.recordRetired_touch {m : Nat} (hm : Sub 0x20010000 m) {s0 : State} (s : State) (i : Nat) (h : Touch m s0 s) : Touch m s0 (State.recordRetired s i) := by
  unfold State.recordRetired
  repeat' (first | (with_reducible first | assumption | apply State.markRetired_touch | apply State.setFlash_touch) | (with_reducible show Sub _ _; exact hm.of rfl) | extract_lets | refine Touch.ofPair ‹_ = (_, _)› ?_ | split | dsimp -zeta only | dsimp -zeta +zetaDelta only)
theorem State.withdraw_touch {m : Nat} (hm : Sub 0x10000 m) {s0 : State} (s : State) (h : Touch m s0 s) : Touch m s0 (State.withdraw s) := by
  unfold State.withdraw
  repeat' (first | with_reducible assumption | (with_reducible show Sub _ _; exact hm.of rfl) | simp -zeta only [Touch.upd_nmI (hm.of rfl)] | extract_lets | refine Touch.ofPair ‹_ = (_, _)› ?_ | split | dsimp -zeta only | dsimp -zeta +zetaDelta only)
theorem State.startMoves_touch {m : Nat} (hm : Sub 0x144011400 m) {s0 : State} (s : State) (i : Nat) (h : Touch m s0 s) : Touch m s0 (State.startMoves s i) := by
  unfold State.startMoves
  repeat' (first | (with_reducible first | assumption | apply State.retireEvent_touch | apply State.withdraw_touch) | (with_reducible show Sub _ _; exact hm.of rfl) | simp -zeta only [Touch.upd_nmI (hm.of rfl)] | extract_lets | refine Touch.ofPair ‹_ = (_, _)› ?_ | split | dsimp -zeta only | dsimp -zeta +zetaDelta only)
theorem State.beginRetire_touch {m : Nat} (hm : Sub 0x144011400 m) {s0 : State} (s : State) (i : Nat) (h : Touch m s0 s) : Touch m s0 (State.beginRetire s i) := by
  unfold State.beginRetire
  repeat' (first | (with_reducible first | assumption | apply State.retireEvent_touch | apply State.raise_touch | apply State.startMoves_touch | apply State.setIf_touch) | (with_reducible show Sub _ _; exact hm.of rfl) | simp -zeta only [Touch.upd_nmI (hm.of rfl)] | extract_lets | refine Touch.ofPair ‹_ = (_, _)› ?_ | split | dsimp -zeta only | dsimp -zeta +zetaDelta only)
theorem State.endRetire_touch {m : Nat} (hm : Sub 0x164011400 m) {s0 : State} (s : State) (i : Nat) (h : Touch m s0 s) : Touch m s0 (State.endRetire s i) := by
  unfold State.endRetire
  repeat' (first | (with_reducible first | assumption | apply State.recordRetired_touch | apply State.retireEvent_touch | apply State.rasReport_touch) | (with_reducible show Sub _ _; exact hm.of rfl) | simp -zeta only [Touch.upd_nmI (hm.of rfl)] | extract_lets | refine Touch.ofPair ‹_ = (_, _)› ?_ | split | dsimp -zeta only | dsimp -zeta +zetaDelta only)
theorem State.retireStep_touch {m : Nat} (hm : Sub 0x164011400 m) {s0 : State} (s : State) (h : Touch m s0 s) : Touch m s0 (State.retireStep s) := by
  unfold State.retireStep
  repeat' (first | (with_reducible first | assumption | apply State.beginRetire_touch | apply State.endRetire_touch) | (with_reducible show Sub _ _; exact hm.of rfl) | simp -zeta only [Touch.upd_nmI (hm.of rfl)] | extract_lets | refine Touch.ofPair ‹_ = (_, _)› ?_ | split | dsimp -zeta only | dsimp -zeta +zetaDelta only)
theorem State.retireOn_touch {m : Nat} (hm : Sub 0x164011400 m) {s0 : State} (s : State) (h : Touch m s0 s) : Touch m s0 (State.retireOn s) := by
  unfold State.retireOn
  repeat' (first | (with_reducible intro _) | (with_reducible first | assumption | apply State.retireStep_touch | apply State.each_touch) | (with_reducible show Sub _ _; exact hm.of rfl) | extract_lets | refine Touch.ofPair ‹_ = (_, _)› ?_ | split | dsimp -zeta only | dsimp -zeta +zetaDelta only)
theorem State.requestRetire_touch {m : Nat} (hm : Sub 0x164011400 m) {s0 : State} (s : State) (i : Nat) (h : Touch m s0 s) : Touch m s0 (State.requestRetire s i) := by
  unfold State.requestRetire
  repeat' (first | (with_reducible first | assumption | apply State.planRetire_touch | apply State.retireOn_touch) | (with_reducible show Sub _ _; exact hm.of rfl) | extract_lets | refine Touch.ofPair ‹_ = (_, _)› ?_ | split | dsimp -zeta only | dsimp -zeta +zetaDelta only)
theorem State.lostMemory_touch {m : Nat} (hm : Sub 0x1441FBF94 m) {s0 : State} (s : State) (p : Nat) (cause : Nat) (lost : Nat → Nat → Bool) (h : Touch m s0 s) : Touch m s0 (State.lostMemory s p cause lost) := by
  unfold State.lostMemory
  repeat' (first | (with_reducible first | assumption | apply State.degrade_touch | apply State.loseStash_touch) | (with_reducible show Sub _ _; exact hm.of rfl) | extract_lets | refine Touch.ofPair ‹_ = (_, _)› ?_ | split | dsimp -zeta only | dsimp -zeta +zetaDelta only)
theorem State.losePlaces_touch {m : Nat} (hm : Sub 0x280 m) {s0 : State} (s : State) (frames : List Nat) (units : List Nat) (h : Touch m s0 s) : Touch m s0 (State.losePlaces s frames units) := by
  unfold State.losePlaces
  repeat' (first | (with_reducible intro _) | (with_reducible first | assumption | apply State.each_touch) | (with_reducible show Sub _ _; exact hm.of rfl) | extract_lets | refine Touch.ofPair ‹_ = (_, _)› ?_ | split | dsimp -zeta only | dsimp -zeta +zetaDelta only | with_reducible refine Touch.upd_mem_poison ?_ (by first | exact dropBytes_wf _ _ | exact putBytes_wf _ _) ?_)
theorem State.remapAway_touch {m : Nat} (hm : Sub 0x10000 m) {s0 : State} (s : State) (i : Nat) (h : Touch m s0 s) : Touch m s0 (State.remapAway s i).1 := by
  unfold State.remapAway
  repeat' (first | (with_reducible intro _) | (with_reducible first | assumption | apply State.setIf_touch | apply Touch.foldl | apply Touch.foldl1) | (with_reducible show Sub _ _; exact hm.of rfl) | simp -zeta only [Touch.upd_nmI (hm.of rfl)] | extract_lets | refine Touch.ofPair ‹_ = (_, _)› ?_ | split | dsimp -zeta only | dsimp -zeta +zetaDelta only)
theorem State.remapAway_touchE {m : Nat} (hm : Sub 0x10000 m) {s0 s9 : State} {s : State} {i : Nat} {r9 : _} (e : State.remapAway s i = (s9, r9)) (h : Touch m s0 s) : Touch m s0 s9 := by
  have k := State.remapAway_touch hm (s0 := s0) s i h
  rw [e] at k
  exact k
theorem State.reapplyRetired_touch {m : Nat} (hm : Sub 0x10000 m) {s0 : State} (s : State) (i : Nat) (h : Touch m s0 s) : Touch m s0 (State.reapplyRetired s i) := by
  unfold State.reapplyRetired
  repeat' (first | (with_reducible first | assumption | apply State.markRetired_touch | apply State.remapAway_touch | apply State.withdraw_touch) | (with_reducible show Sub _ _; exact hm.of rfl) | extract_lets | refine Touch.ofPair ‹_ = (_, _)› ?_ | split | dsimp -zeta only | dsimp -zeta +zetaDelta only)
theorem State.replanMoves_touch {m : Nat} (hm : Sub 0x10000 m) {s0 : State} (s : State) (h : Touch m s0 s) : Touch m s0 (State.replanMoves s) := by
  unfold State.replanMoves
  repeat' (first | with_reducible assumption | (with_reducible show Sub _ _; exact hm.of rfl) | simp -zeta only [Touch.upd_nmI (hm.of rfl)] | extract_lets | refine Touch.ofPair ‹_ = (_, _)› ?_ | split | dsimp -zeta only | dsimp -zeta +zetaDelta only)
theorem State.forceRetire_touch {m : Nat} (hm : Sub 0x1641FBF94 m) {s0 : State} (s : State) (i : Nat) (h : Touch m s0 s) : Touch m s0 (State.forceRetire s i) := by
  unfold State.forceRetire
  repeat' (first | (with_reducible intro _) | (with_reducible first | assumption | apply State.setPart_touch | apply State.recordRetired_touch | apply State.losePlaces_touch | apply State.lostMemory_touch | apply State.remapAway_touch | apply State.retireEvent_touch | apply State.withdraw_touch | apply State.raise_touch | apply State.replanMoves_touch | apply State.each_touch) | (with_reducible show Sub _ _; exact hm.of rfl) | extract_lets | refine Touch.ofPair ‹_ = (_, _)› ?_ | split | dsimp -zeta only | dsimp -zeta +zetaDelta only)
theorem State.settle_touch {m : Nat} (hm : Sub 0x1641FBF94 m) {s0 : State} (s : State) (h : Touch m s0 s) : Touch m s0 (State.settle s) := by
  unfold State.settle
  repeat' (first | (with_reducible intro _) | (with_reducible first | assumption | apply State.forceRetire_touch | apply State.retireOn_touch | apply State.each_touch) | (with_reducible show Sub _ _; exact hm.of rfl) | simp -zeta only [Touch.upd_nmI (hm.of rfl)] | extract_lets | refine Touch.ofPair ‹_ = (_, _)› ?_ | split | dsimp -zeta only | dsimp -zeta +zetaDelta only)
theorem execNmmapRetire_touch {m : Nat} (hm : Sub 0x164011400 m) {s0 : State} (iface : Nat) (s : State) (h : Touch m s0 s) : TouchO m s0 (execNmmapRetire iface s) := by
  unfold execNmmapRetire
  repeat' (first | (with_reducible first | assumption | apply TouchO.next | apply State.requestRetire_touch) | (with_reducible show Sub _ _; exact hm.of rfl) | simp -zeta only [Touch.upd_nmI (hm.of rfl)] | extract_lets | refine Touch.ofPair ‹_ = (_, _)› ?_ | split | dsimp -zeta only | dsimp -zeta +zetaDelta only)
theorem execRetirementUnblocked_touch {m : Nat} (hm : Sub 0x164011400 m) {s0 : State} (s : State) (h : Touch m s0 s) : TouchO m s0 (execRetirementUnblocked s) := by
  unfold execRetirementUnblocked
  repeat' (first | (with_reducible first | assumption | apply TouchO.next | apply State.retireOn_touch | apply State.startMoves_touch) | (with_reducible show Sub _ _; exact hm.of rfl) | extract_lets | refine Touch.ofPair ‹_ = (_, _)› ?_ | split | dsimp -zeta only | dsimp -zeta +zetaDelta only)
theorem execFrameMoveComplete_touch {m : Nat} (hm : Sub 0x164011400 m) {s0 : State} (s : State) (h : Touch m s0 s) : TouchO m s0 (execFrameMoveComplete s) := by
  unfold execFrameMoveComplete
  repeat' (first | (with_reducible first | assumption | apply TouchO.next | apply State.retireOn_touch) | (with_reducible show Sub _ _; exact hm.of rfl) | simp -zeta only [Touch.upd_nmI (hm.of rfl)] | extract_lets | refine Touch.ofPair ‹_ = (_, _)› ?_ | split | dsimp -zeta only | dsimp -zeta +zetaDelta only)
theorem State.newPeriod_touch {m : Nat} (hm : Sub 0x8000 m) {s0 : State} (s : State) (i : Nat) (h : Touch m s0 s) : Touch m s0 (State.newPeriod s i) := by
  unfold State.newPeriod
  repeat' (first | (with_reducible first | assumption | apply State.setNmc_touch) | (with_reducible show Sub _ _; exact hm.of rfl) | extract_lets | refine Touch.ofPair ‹_ = (_, _)› ?_ | split | dsimp -zeta only | dsimp -zeta +zetaDelta only)
theorem execPatrolRead_touch {m : Nat} (hm : Sub 0x1641FBF94 m) {s0 : State} (addr : Nat) (errs : Errs) (s : State) (h : Touch m s0 s) : TouchO m s0 (execPatrolRead addr errs s) := by
  unfold execPatrolRead
  repeat' (first | (with_reducible first | assumption | apply TouchO.next | apply State.noteRetries_touch | apply State.noteUe_touch | apply State.settle_touch | apply State.newPeriod_touch | apply State.noteCe_touch) | (with_reducible show Sub _ _; exact hm.of rfl) | simp -zeta only [Touch.upd_poisonI (hm.of rfl)] | extract_lets | refine Touch.ofPair ‹_ = (_, _)› ?_ | split | dsimp -zeta only | dsimp -zeta +zetaDelta only)
theorem execRecalWindow_touch {m : Nat} (hm : Sub 0x1641FBF94 m) {s0 : State} (iface : Nat) (trained : Bool) (s : State) (h : Touch m s0 s) : TouchO m s0 (execRecalWindow iface trained s) := by
  unfold execRecalWindow
  repeat' (first | (with_reducible first | assumption | apply TouchO.next | apply State.forceRetire_touch | apply State.setNmc_touch | apply State.retireOn_touch | apply State.raise_touch) | (with_reducible show Sub _ _; exact hm.of rfl) | extract_lets | refine Touch.ofPair ‹_ = (_, _)› ?_ | split | dsimp -zeta only | dsimp -zeta +zetaDelta only)
theorem State.setPerst_touch {m : Nat} (hm : Sub 0x20000 m) {s0 : State} (s : State) (port : Nat) (low : Bool) (h : Touch m s0 s) : Touch m s0 (State.setPerst s port low) := by
  unfold State.setPerst
  repeat' (first | (with_reducible first | assumption | apply State.setCxl_touch) | (with_reducible show Sub _ _; exact hm.of rfl) | extract_lets | refine Touch.ofPair ‹_ = (_, _)› ?_ | split | dsimp -zeta only | dsimp -zeta +zetaDelta only)
theorem State.cxlEvent_touch {m : Nat} (hm : Sub 0x144001400 m) {s0 : State} (s : State) (port : Nat) (window : Nat) (cause : Nat) (h : Touch m s0 s) : Touch m s0 (State.cxlEvent s port window cause) := by
  unfold State.cxlEvent
  repeat' (first | (with_reducible first | assumption | apply State.eventMgmt_touch) | (with_reducible show Sub _ _; exact hm.of rfl) | extract_lets | refine Touch.ofPair ‹_ = (_, _)› ?_ | split | dsimp -zeta only | dsimp -zeta +zetaDelta only)
theorem State.addCxl_touch {m : Nat} (hm : Sub 0x144021400 m) {s0 : State} (s : State) (dev : CxlDev) (h : Touch m s0 s) : Touch m s0 (State.addCxl s dev) := by
  unfold State.addCxl
  repeat' (first | (with_reducible first | assumption | apply State.setCxl_touch | apply State.cxlEvent_touch) | (with_reducible show Sub _ _; exact hm.of rfl) | extract_lets | refine Touch.ofPair ‹_ = (_, _)› ?_ | split | dsimp -zeta only | dsimp -zeta +zetaDelta only)
theorem execCxlHotAdd_touch {m : Nat} (hm : Sub 0x144021400 m) {s0 : State} (dev : CxlDev) (s : State) (h : Touch m s0 s) : TouchO m s0 (execCxlHotAdd dev s) := by
  unfold execCxlHotAdd
  repeat' (first | (with_reducible first | assumption | apply TouchO.next | apply State.addCxl_touch) | (with_reducible show Sub _ _; exact hm.of rfl) | extract_lets | refine Touch.ofPair ‹_ = (_, _)› ?_ | split | dsimp -zeta only | dsimp -zeta +zetaDelta only)
theorem State.loseWindow_touch {m : Nat} (hm : Sub 0x1441FBF94 m) {s0 : State} (s : State) (port : Nat) (window : Nat) (h : Touch m s0 s) : Touch m s0 (State.loseWindow s port window) := by
  unfold State.loseWindow
  repeat' (first | (with_reducible intro _) | (with_reducible first | assumption | apply State.unmapLost_touch | apply State.setCxl_touch | apply State.lostMemory_touch | apply State.raise_touch | apply State.cxlEvent_touch | apply State.each_touch) | (with_reducible show Sub _ _; exact hm.of rfl) | extract_lets | refine Touch.ofPair ‹_ = (_, _)› ?_ | split | dsimp -zeta only | dsimp -zeta +zetaDelta only)
theorem State.retrainCxl_touch {m : Nat} (hm : Sub 0x1441FBF94 m) {s0 : State} (s : State) (port : Nat) (h : Touch m s0 s) : Touch m s0 (State.retrainCxl s port) := by
  unfold State.retrainCxl
  repeat' (first | (with_reducible intro _) | (with_reducible first | assumption | apply State.setCxl_touch | apply State.loseWindow_touch | apply State.each_touch) | (with_reducible show Sub _ _; exact hm.of rfl) | extract_lets | refine Touch.ofPair ‹_ = (_, _)› ?_ | split | dsimp -zeta only | dsimp -zeta +zetaDelta only)
theorem execCxlLinkDown_touch {m : Nat} (hm : Sub 0x1441FBF94 m) {s0 : State} (port : Nat) (window : Nat) (s : State) (h : Touch m s0 s) : TouchO m s0 (execCxlLinkDown port window s) := by
  unfold execCxlLinkDown
  repeat' (first | (with_reducible first | assumption | apply TouchO.next | apply State.loseWindow_touch) | (with_reducible show Sub _ _; exact hm.of rfl) | extract_lets | refine Touch.ofPair ‹_ = (_, _)› ?_ | split | dsimp -zeta only | dsimp -zeta +zetaDelta only)
theorem State.loseOrphanMemory_touch {m : Nat} (hm : Sub 0x1641FBF94 m) {s0 : State} (s : State) (die : Nat) (h : Touch m s0 s) : Touch m s0 (State.loseOrphanMemory s die) := by
  unfold State.loseOrphanMemory
  repeat' (first | (with_reducible intro _) | (with_reducible first | assumption | apply State.forceRetire_touch | apply State.loseWindow_touch | apply State.each_touch) | (with_reducible show Sub _ _; exact hm.of rfl) | extract_lets | refine Touch.ofPair ‹_ = (_, _)› ?_ | split | dsimp -zeta only | dsimp -zeta +zetaDelta only)
theorem execCxlTimeout_touch {m : Nat} (hm : Sub 0x144021600 m) {s0 : State} (addr : Nat) (write : Bool) (s : State) (h : Touch m s0 s) : TouchO m s0 (execCxlTimeout addr write s) := by
  unfold execCxlTimeout
  repeat' (first | (with_reducible first | assumption | apply TouchO.next | apply State.setCxl_touch | apply State.memError_touch | apply State.raise_touch) | (with_reducible show Sub _ _; exact hm.of rfl) | simp -zeta only [Touch.upd_poisonI (hm.of rfl)] | extract_lets | refine Touch.ofPair ‹_ = (_, _)› ?_ | split | dsimp -zeta only | dsimp -zeta +zetaDelta only)

end Sys2Proof.Machine
end

