-- ==== Sys2Proof/Laws/TouchGwyntik.lean ====
section
/-! SUPPORT. What every operation of Machine/Gwyntik.lean may touch (Sys2Proof.Machine.Touch). -/

namespace Sys2Proof.Machine

set_option linter.all false

theorem State.arriveCmd_touch {m : Nat} (hm : Sub 0x144007C00 m) {s0 : State} (s : State) (src : Nat) (mm : Nat) (l : List Byte) (h : Touch m s0 s) : Touch m s0 (State.arriveCmd s src mm l) := by
  unfold State.arriveCmd
  repeat' (first | (with_reducible first | assumption | apply State.setEp_touch | apply State.raise_touch | apply State.respond_touch | apply State.setMod_touch) | (with_reducible show Sub _ _; exact hm.of rfl) | simp -zeta only [Touch.upd_cmdqI (hm.of rfl)] | extract_lets | refine Touch.ofPair ‹_ = (_, _)› ?_ | split | dsimp -zeta only | dsimp -zeta +zetaDelta only)
theorem State.arrivals_touch {m : Nat} (hm : Sub 0x144007C00 m) {s0 : State} (s : State) (e : Nat) (a0 : Nat) (h : Touch m s0 s) : Touch m s0 (State.arrivals s e a0) := by
  induction a0 generalizing s  with
  | zero => exact h
  | succ n ih => 
    unfold State.arrivals
    repeat' (first | (with_reducible first | assumption | apply ih | apply State.setEp_touch | apply State.arriveCmd_touch) | (with_reducible show Sub _ _; exact hm.of rfl) | extract_lets | refine Touch.ofPair ‹_ = (_, _)› ?_ | split | dsimp -zeta only | dsimp -zeta +zetaDelta only)
theorem State.frameTx_touch {m : Nat} (hm : Sub 0x144007C00 m) {s0 : State} (s : State) (e : Nat) (a0 : List Nat) (a1 : Nat) (h : Touch m s0 s) : Touch m s0 (State.frameTx s e a0 a1) := by
  induction a1 generalizing s a0 with
  | zero => exact h
  | succ n ih => 
    unfold State.frameTx
    repeat' (first | (with_reducible first | assumption | apply ih | apply State.setEp_touch | apply State.arrivals_touch) | (with_reducible show Sub _ _; exact hm.of rfl) | extract_lets | refine Touch.ofPair ‹_ = (_, _)› ?_ | split | dsimp -zeta only | dsimp -zeta +zetaDelta only)
theorem State.frameAll_touch {m : Nat} (hm : Sub 0x144007C00 m) {s0 : State} (s : State) (h : Touch m s0 s) : Touch m s0 (State.frameAll s) := by
  unfold State.frameAll
  repeat' (first | (with_reducible intro _) | (with_reducible first | assumption | apply State.arrivals_touch | apply State.frameTx_touch | apply State.each_touch) | (with_reducible show Sub _ _; exact hm.of rfl) | extract_lets | refine Touch.ofPair ‹_ = (_, _)› ?_ | split | dsimp -zeta only | dsimp -zeta +zetaDelta only)
theorem execGwyTxStore_touch {m : Nat} (hm : Sub 0x144007C00 m) {s0 : State} (ep : Nat) (offset : Nat) (bytes : List Byte) (route : List Nat) (s : State) (h : Touch m s0 s) : TouchO m s0 (execGwyTxStore ep offset bytes route s) := by
  unfold execGwyTxStore
  repeat' (first | (with_reducible first | assumption | apply TouchO.next | exact TouchO.fault | apply State.setEp_touch | apply State.frameTx_touch) | (with_reducible show Sub _ _; exact hm.of rfl) | extract_lets | refine Touch.ofPair ‹_ = (_, _)› ?_ | split | dsimp -zeta only | dsimp -zeta +zetaDelta only)
theorem State.refillRx_touch {m : Nat} (hm : Sub 0x400 m) {s0 : State} (s : State) (e : Nat) (a0 : Nat) (h : Touch m s0 s) : Touch m s0 (State.refillRx s e a0) := by
  induction a0 generalizing s  with
  | zero => exact h
  | succ n ih => 
    unfold State.refillRx
    repeat' (first | (with_reducible first | assumption | apply ih | apply State.setEp_touch) | (with_reducible show Sub _ _; exact hm.of rfl) | extract_lets | refine Touch.ofPair ‹_ = (_, _)› ?_ | split | dsimp -zeta only | dsimp -zeta +zetaDelta only)
theorem execGwyRxLoad_touch {m : Nat} (hm : Sub 0x400 m) {s0 : State} (ep : Nat) (s : State) (h : Touch m s0 s) : TouchO m s0 (execGwyRxLoad ep s) := by
  unfold execGwyRxLoad
  repeat' (first | (with_reducible first | assumption | apply TouchO.next | apply State.refillRx_touch | apply State.setEp_touch) | (with_reducible show Sub _ _; exact hm.of rfl) | extract_lets | refine Touch.ofPair ‹_ = (_, _)› ?_ | split | dsimp -zeta only | dsimp -zeta +zetaDelta only)
theorem execResync_touch {m : Nat} (hm : Sub 0x400 m) {s0 : State} (ep : Nat) (s : State) (h : Touch m s0 s) : TouchO m s0 (execResync ep s) := by
  unfold execResync
  repeat' (first | (with_reducible first | assumption | apply TouchO.next | apply State.setEp_touch) | (with_reducible show Sub _ _; exact hm.of rfl) | extract_lets | refine Touch.ofPair ‹_ = (_, _)› ?_ | split | dsimp -zeta only | dsimp -zeta +zetaDelta only)
theorem State.takeCmd_touch {m : Nat} (hm : Sub 0x800 m) {s0 t : State} {s : State} {pv : Nat} {g : GwyPkt → Bool} {x : _} (e : State.takeCmd s pv g = some (x, t)) (h : Touch m s0 s) : Touch m s0 t := by
  unfold State.takeCmd at e
  obtain ⟨y, _, hy⟩ := Option.map_eq_some_iff.mp e
  have k := (Prod.mk.inj hy).2
  rw [← k]
  exact (by first | exact Touch.upd_cmdq (hm.of rfl) h)
theorem State.takeOp_touch {m : Nat} (hm : Sub 0x800 m) {s0 t : State} {s : State} {g : GwyPkt → Bool} {x : _} (e : State.takeOp s g = some (x, t)) (h : Touch m s0 s) : Touch m s0 t := by
  unfold State.takeOp at e
  obtain ⟨p, _, hp⟩ := List.exists_of_findSome?_eq_some e
  exact State.takeCmd_touch (hm.of rfl) hp h
theorem State.stateError_touch {m : Nat} (hm : Sub 0x40003420 m) {s0 : State} (s : State) (c : GwyPkt) (h : Touch m s0 s) : Touch m s0 (State.stateError s c) := by
  unfold State.stateError
  repeat' (first | (with_reducible first | assumption | apply State.respond_touch) | (with_reducible show Sub _ _; exact hm.of rfl) | simp -zeta only [Touch.upd_rejectsI (hm.of rfl)] | extract_lets | refine Touch.ofPair ‹_ = (_, _)› ?_ | split | dsimp -zeta only | dsimp -zeta +zetaDelta only)
theorem State.acceptCmd_touch {m : Nat} (hm : Sub 0x40003420 m) {s0 s9 : State} {s : State} {c : GwyPkt} {fields : Bool} {onPart : Bool} {onDev : Bool} {ok : PState → Bool} (e : State.acceptCmd s c fields onPart onDev ok = some s9) (h : Touch m s0 s) : Touch m s0 s9 := by
  unfold State.acceptCmd at e
  dsimp only at e
  repeat' (first | (cases e; done) | (obtain rfl := Option.some.inj e) | (with_reducible first | assumption | apply State.stateError_touch | apply State.respond_touch) | (with_reducible show Sub _ _; exact hm.of rfl) | extract_lets | refine Touch.ofPair ‹_ = (_, _)› ?_ | split at e | split | dsimp -zeta only | dsimp -zeta +zetaDelta only)
theorem execBadOpcode_touch {m : Nat} (hm : Sub 0x40003C20 m) {s0 : State} (pv : Nat) (s : State) (h : Touch m s0 s) : TouchO m s0 (execBadOpcode pv s) := by
  unfold execBadOpcode
  repeat' (first | (with_reducible first | assumption | apply TouchO.next | apply State.respond_touch) | (with_reducible show Sub _ _; exact hm.of rfl) | refine State.takeCmd_touch (hm.of rfl) ‹_› ?_ | refine State.acceptCmd_touch (hm.of rfl) ‹_› ?_ | extract_lets | refine Touch.ofPair ‹_ = (_, _)› ?_ | split | dsimp -zeta only | dsimp -zeta +zetaDelta only)
theorem State.claimGrant_touch {m : Nat} (hm : Sub 0x8050050 m) {s0 : State} (s : State) (p : Nat) (e : Nat) (l : List Byte) (h : Touch m s0 s) : Touch m s0 (State.claimGrant s p e l) := by
  unfold State.claimGrant
  repeat' (first | (with_reducible first | assumption | apply State.setRouter_touch | apply State.setPart_touch | apply State.setSec_touch) | (with_reducible show Sub _ _; exact hm.of rfl) | simp -zeta only [Touch.upd_steer_nmI (hm.of rfl)] | extract_lets | refine Touch.ofPair ‹_ = (_, _)› ?_ | split | dsimp -zeta only | dsimp -zeta +zetaDelta only)
theorem execClaim_touch {m : Nat} (hm : Sub 0x48053C70 m) {s0 : State} (pv : Nat) (s : State) (h : Touch m s0 s) : TouchO m s0 (execClaim pv s) := by
  unfold execClaim
  repeat' (first | (with_reducible first | assumption | apply TouchO.next | apply State.claimGrant_touch | apply State.respond_touch) | (with_reducible show Sub _ _; exact hm.of rfl) | refine State.takeCmd_touch (hm.of rfl) ‹_› ?_ | refine State.acceptCmd_touch (hm.of rfl) ‹_› ?_ | extract_lets | refine Touch.ofPair ‹_ = (_, _)› ?_ | split | dsimp -zeta only | dsimp -zeta +zetaDelta only)
theorem execRelease_touch {m : Nat} (hm : Sub 0xF4C1C3DFC m) {s0 : State} (pv : Nat) (s : State) (h : Touch m s0 s) : TouchO m s0 (execRelease pv s) := by
  unfold execRelease
  repeat' (first | (with_reducible first | assumption | apply TouchO.next | apply State.beginThaw_touch | apply State.respond_touch) | (with_reducible show Sub _ _; exact hm.of rfl) | refine State.takeCmd_touch (hm.of rfl) ‹_› ?_ | refine State.acceptCmd_touch (hm.of rfl) ‹_› ?_ | extract_lets | refine Touch.ofPair ‹_ = (_, _)› ?_ | split | dsimp -zeta only | dsimp -zeta +zetaDelta only)
theorem execLoadBegin_touch {m : Nat} (hm : Sub 0xF40003DBC m) {s0 : State} (pv : Nat) (s : State) (h : Touch m s0 s) : TouchO m s0 (execLoadBegin pv s) := by
  unfold execLoadBegin
  repeat' (first | (with_reducible first | assumption | apply TouchO.next | apply State.setPart_touch | apply State.resetPart_touch | apply State.respond_touch) | (with_reducible show Sub _ _; exact hm.of rfl) | refine State.takeCmd_touch (hm.of rfl) ‹_› ?_ | refine State.acceptCmd_touch (hm.of rfl) ‹_› ?_ | extract_lets | refine Touch.ofPair ‹_ = (_, _)› ?_ | split | dsimp -zeta only | dsimp -zeta +zetaDelta only)
theorem State.writeRuns_touch {m : Nat} (hm : Sub 0x144039784 m) {s0 : State} (s : State) (p : Nat) (l : List Byte) (a0 : List (Section × Nat × Nat)) (h : Touch m s0 s) : Touch m s0 (State.writeRuns s p l a0).1 := by
  induction a0 generalizing s  with
  | nil => exact h
  | cons b r ih => 
    unfold State.writeRuns
    repeat' (first | (with_reducible first | assumption | apply ih | apply State.devWrite_touch) | (with_reducible show Sub _ _; exact hm.of rfl) | extract_lets | refine Touch.ofPair ‹_ = (_, _)› ?_ | split | dsimp -zeta only | dsimp -zeta +zetaDelta only)
theorem State.writeRuns_touchE {m : Nat} (hm : Sub 0x144039784 m) {s0 s9 : State} {s : State} {p : Nat} {l : List Byte} {a0 : List (Section × Nat × Nat)} {r9 : _} (e : State.writeRuns s p l a0 = (s9, r9)) (h : Touch m s0 s) : Touch m s0 s9 := by
  have k := State.writeRuns_touch hm (s0 := s0) s p l a0 h
  rw [e] at k
  exact k
theorem State.closeLoad_touch {m : Nat} (hm : Sub 0x40003410 m) {s0 : State} (s : State) (c : GwyPkt) (st : Nat) (det : Nat) (h : Touch m s0 s) : Touch m s0 (State.closeLoad s c st det) := by
  unfold State.closeLoad
  repeat' (first | (with_reducible first | assumption | apply State.setPart_touch | apply State.respond_touch) | (with_reducible show Sub _ _; exact hm.of rfl) | extract_lets | refine Touch.ofPair ‹_ = (_, _)› ?_ | split | dsimp -zeta only | dsimp -zeta +zetaDelta only)
theorem execLoadChunk_touch {m : Nat} (hm : Sub 0x1641FBFB4 m) {s0 : State} (pv : Nat) (s : State) (h : Touch m s0 s) : TouchO m s0 (execLoadChunk pv s) := by
  unfold execLoadChunk
  repeat' (first | (with_reducible first | assumption | apply TouchO.next | apply State.setPart_touch | apply State.closeLoad_touch | apply State.stateError_touch | apply State.settle_touch | apply State.respond_touch | apply State.writeRuns_touch) | (with_reducible show Sub _ _; exact hm.of rfl) | refine State.takeCmd_touch (hm.of rfl) ‹_› ?_ | refine State.acceptCmd_touch (hm.of rfl) ‹_› ?_ | extract_lets | refine Touch.ofPair ‹_ = (_, _)› ?_ | split | dsimp -zeta only | dsimp -zeta +zetaDelta only)
theorem State.mapStreams_touch {m : Nat} (hm : Sub 0x4 m) {s0 : State} (s : State) (p : Nat) (g : StreamSt → StreamSt) (h : Touch m s0 s) : Touch m s0 (State.mapStreams s p g) := by
  unfold State.mapStreams
  repeat' (first | (with_reducible intro _) | (with_reducible first | assumption | apply State.setFloe_touch | apply State.each_touch) | (with_reducible show Sub _ _; exact hm.of rfl) | extract_lets | refine Touch.ofPair ‹_ = (_, _)› ?_ | split | dsimp -zeta only | dsimp -zeta +zetaDelta only)
theorem execPause_touch {m : Nat} (hm : Sub 0x40043C34 m) {s0 : State} (pv : Nat) (s : State) (h : Touch m s0 s) : TouchO m s0 (execPause pv s) := by
  unfold execPause
  split
  · exact TouchO.next h
  split
  · exact TouchO.next h
  have h1 := State.takeCmd_touch (hm.of rfl) ‹_› h
  split
  · exact TouchO.next (State.acceptCmd_touch (hm.of rfl) ‹_› h1)
  extract_lets s2 x s3 y s4
  have h2 : Touch m s0 s2 := State.mapStreams_touch (hm.of rfl) _ _ _ h1
  have h3 : Touch m s0 s3 := State.setPart_touch (hm.of rfl) _ _ _ h2
  have h4 : Touch m s0 s4 := State.slowPart_touch (hm.of rfl) _ _ (State.setPart_touch (hm.of rfl) _ _ _ h3)
  clear_value s2 x s3 y s4
  split
  · exact TouchO.next (State.respond_touch (hm.of rfl) _ _ _ _ _ _ _ h3)
  · exact TouchO.next ((by first | exact Touch.upd_cmdq (hm.of rfl) h4))
theorem execPauseWaitExpiry_touch {m : Nat} (hm : Sub 0x40003C10 m) {s0 : State} (p : Nat) (s : State) (h : Touch m s0 s) : TouchO m s0 (execPauseWaitExpiry p s) := by
  unfold execPauseWaitExpiry
  repeat' (first | (with_reducible first | assumption | apply TouchO.next | apply State.setPart_touch | apply State.answerPause_touch) | (with_reducible show Sub _ _; exact hm.of rfl) | extract_lets | refine Touch.ofPair ‹_ = (_, _)› ?_ | split | dsimp -zeta only | dsimp -zeta +zetaDelta only)
theorem execResume_touch {m : Nat} (hm : Sub 0x1441FBFB4 m) {s0 : State} (pv : Nat) (s : State) (h : Touch m s0 s) : TouchO m s0 (execResume pv s) := by
  unfold execResume
  repeat' (first | (with_reducible first | assumption | apply TouchO.next | apply State.setPart_touch | apply State.mapStreams_touch | apply State.respond_touch | apply State.replayOpen_touch) | (with_reducible show Sub _ _; exact hm.of rfl) | refine State.takeCmd_touch (hm.of rfl) ‹_› ?_ | refine State.acceptCmd_touch (hm.of rfl) ‹_› ?_ | extract_lets | refine Touch.ofPair ‹_ = (_, _)› ?_ | split | dsimp -zeta only | dsimp -zeta +zetaDelta only)
theorem execAbort_touch {m : Nat} (hm : Sub 0x1441FBFB4 m) {s0 : State} (pv : Nat) (s : State) (h : Touch m s0 s) : TouchO m s0 (execAbort pv s) := by
  unfold execAbort
  repeat' (first | (with_reducible intro _) | (with_reducible first | assumption | apply TouchO.next | apply State.setPart_touch | apply State.setFloe_touch | apply State.respond_touch | apply State.stopStreams_touch | apply State.failOpen_touch | apply State.startFloes_touch | apply State.each_touch) | (with_reducible show Sub _ _; exact hm.of rfl) | refine State.takeCmd_touch (hm.of rfl) ‹_› ?_ | refine State.acceptCmd_touch (hm.of rfl) ‹_› ?_ | simp -zeta only [Touch.upd_cmdqI (hm.of rfl)] | extract_lets | refine Touch.ofPair ‹_ = (_, _)› ?_ | split | dsimp -zeta only | dsimp -zeta +zetaDelta only)
theorem State.isolateCmds_touch {m : Nat} (hm : Sub 0x40003C00 m) {s0 : State} (s : State) (g : Nat × Nat) (h : Touch m s0 s) : Touch m s0 (State.isolateCmds s g) := by
  unfold State.isolateCmds
  repeat' (first | (with_reducible intro _) | (with_reducible first | assumption | apply State.respond_touch | apply State.each_touch) | (with_reducible show Sub _ _; exact hm.of rfl) | refine State.takeCmd_touch (hm.of rfl) ‹_› ?_ | extract_lets | refine Touch.ofPair ‹_ = (_, _)› ?_ | split | dsimp -zeta only | dsimp -zeta +zetaDelta only)
theorem State.memAnswer_touch {m : Nat} (hm : Sub 0x40003400 m) {s0 : State} (s : State) (c : GwyPkt) (ok : Bool) (n : Nat) (l : List Byte) (h : Touch m s0 s) : Touch m s0 (State.memAnswer s c ok n l) := by
  unfold State.memAnswer
  repeat' (first | (with_reducible first | assumption | apply State.respond_touch) | (with_reducible show Sub _ _; exact hm.of rfl) | extract_lets | refine Touch.ofPair ‹_ = (_, _)› ?_ | split | dsimp -zeta only | dsimp -zeta +zetaDelta only)
theorem execMemWrite_touch {m : Nat} (hm : Sub 0x1641FBFB4 m) {s0 : State} (pv : Nat) (errs : Errs) (s : State) (h : Touch m s0 s) : TouchO m s0 (execMemWrite pv errs s) := by
  unfold execMemWrite
  repeat' (first | (with_reducible first | assumption | apply TouchO.next | apply State.settle_touch | apply State.respond_touch | apply State.memAnswer_touch | apply State.devWrite_touch) | (with_reducible show Sub _ _; exact hm.of rfl) | refine State.takeCmd_touch (hm.of rfl) ‹_› ?_ | refine State.acceptCmd_touch (hm.of rfl) ‹_› ?_ | extract_lets | refine Touch.ofPair ‹_ = (_, _)› ?_ | split | dsimp -zeta only | dsimp -zeta +zetaDelta only)
theorem execMemRead_touch {m : Nat} (hm : Sub 0x1641FBFB4 m) {s0 : State} (pv : Nat) (errs : Errs) (s : State) (h : Touch m s0 s) : TouchO m s0 (execMemRead pv errs s) := by
  unfold execMemRead
  repeat' (first | (with_reducible first | assumption | apply TouchO.next | apply State.settle_touch | apply State.devRead_touch | apply State.respond_touch | apply State.memAnswer_touch) | (with_reducible show Sub _ _; exact hm.of rfl) | refine State.takeCmd_touch (hm.of rfl) ‹_› ?_ | refine State.acceptCmd_touch (hm.of rfl) ‹_› ?_ | extract_lets | refine Touch.ofPair ‹_ = (_, _)› ?_ | split | dsimp -zeta only | dsimp -zeta +zetaDelta only)
theorem execTelem_touch {m : Nat} (hm : Sub 0x40003C20 m) {s0 : State} (pv : Nat) (s : State) (h : Touch m s0 s) : TouchO m s0 (execTelem pv s) := by
  unfold execTelem
  repeat' (first | (with_reducible first | assumption | apply TouchO.next | apply State.respond_touch) | (with_reducible show Sub _ _; exact hm.of rfl) | refine State.takeCmd_touch (hm.of rfl) ‹_› ?_ | refine State.acceptCmd_touch (hm.of rfl) ‹_› ?_ | extract_lets | refine Touch.ofPair ‹_ = (_, _)› ?_ | split | dsimp -zeta only | dsimp -zeta +zetaDelta only)

end Sys2Proof.Machine
end

