-- ==== Sys2Proof/Laws/TouchService.lean ====
section
/-! SUPPORT. What every operation of Machine/Service.lean may touch (Sys2Proof.Machine.Touch). -/

namespace Sys2Proof.Machine

set_option linter.all false

theorem State.holdFloe_touch {m : Nat} (hm : Sub 0x40004 m) {s0 : State} (s : State) (f : Nat) (h : Touch m s0 s) : Touch m s0 (State.holdFloe s f) := by
  unfold State.holdFloe
  repeat' (first | (with_reducible first | assumption | apply State.setFloe_touch | apply State.slowWhere_touch) | (with_reducible show Sub _ _; exact hm.of rfl) | extract_lets | refine Touch.ofPair ‹_ = (_, _)› ?_ | split | dsimp -zeta only | dsimp -zeta +zetaDelta only)
theorem State.freeFloe_touch {m : Nat} (hm : Sub 0x4 m) {s0 : State} (s : State) (f : Nat) (h : Touch m s0 s) : Touch m s0 (State.freeFloe s f) := by
  unfold State.freeFloe
  repeat' (first | (with_reducible first | assumption | apply State.setFloe_touch) | (with_reducible show Sub _ _; exact hm.of rfl) | extract_lets | refine Touch.ofPair ‹_ = (_, _)› ?_ | split | dsimp -zeta only | dsimp -zeta +zetaDelta only)
theorem State.writeRecord_touch {m : Nat} (hm : Sub 0x34000000 m) {s0 : State} (s : State) (site : Nat) (dst : Nat) (h : Touch m s0 s) : Touch m s0 (State.writeRecord s site dst) := by
  unfold State.writeRecord
  extract_lets x s1
  have h1 : Touch m s0 s1 := State.setRas_touch (hm.of rfl) _ _ h
  clear_value s1
  split
  · split
    · exact Touch.upd_fuses (hm.of rfl) (FuseLe.ofRec0 _ _) h1
    · exact State.setFlash_touch (hm.of rfl) _ _ h1
  · split
    · exact Touch.upd_fuses (hm.of rfl) (FuseLe.ofRec1 _ _) h1
    · exact State.setFlash_touch (hm.of rfl) _ _ h1
theorem State.calvedEvent_touch {m : Nat} (hm : Sub 0x144001400 m) {s0 : State} (s : State) (site : Nat) (f : Nat) (h : Touch m s0 s) : Touch m s0 (State.calvedEvent s site f) := by
  unfold State.calvedEvent
  repeat' (first | (with_reducible first | assumption | apply State.eventMgmt_touch) | (with_reducible show Sub _ _; exact hm.of rfl) | extract_lets | refine Touch.ofPair ‹_ = (_, _)› ?_ | split | dsimp -zeta only | dsimp -zeta +zetaDelta only)
theorem State.beginCalve_touch {m : Nat} (hm : Sub 0x144041404 m) {s0 : State} (s : State) (site : Nat) (f : Nat) (h : Touch m s0 s) : Touch m s0 (State.beginCalve s site f) := by
  unfold State.beginCalve
  repeat' (first | (with_reducible first | assumption | apply State.setRas_touch | apply State.calvedEvent_touch | apply State.holdFloe_touch) | (with_reducible show Sub _ _; exact hm.of rfl) | extract_lets | refine Touch.ofPair ‹_ = (_, _)› ?_ | split | dsimp -zeta only | dsimp -zeta +zetaDelta only)
theorem State.calveGo_touch {m : Nat} (hm : Sub 0x144041404 m) {s0 : State} (s : State) (site : Nat) (h : Touch m s0 s) : Touch m s0 (State.calveGo s site) := by
  unfold State.calveGo
  repeat' (first | (with_reducible first | assumption | apply State.countErr_touch | apply State.beginCalve_touch) | (with_reducible show Sub _ _; exact hm.of rfl) | extract_lets | refine Touch.ofPair ‹_ = (_, _)› ?_ | split | dsimp -zeta only | dsimp -zeta +zetaDelta only)
theorem execRasCalveGo_touch {m : Nat} (hm : Sub 0x144041404 m) {s0 : State} (site : Byte) (s : State) (h : Touch m s0 s) : TouchO m s0 (execRasCalveGo site s) := by
  unfold execRasCalveGo
  repeat' (first | (with_reducible first | assumption | apply TouchO.next | apply State.setRas_touch | apply State.calveGo_touch) | (with_reducible show Sub _ _; exact hm.of rfl) | extract_lets | refine Touch.ofPair ‹_ = (_, _)› ?_ | split | dsimp -zeta only | dsimp -zeta +zetaDelta only)
theorem State.calveDue_touch {m : Nat} (hm : Sub 0x144041404 m) {s0 : State} (s : State) (h : Touch m s0 s) : Touch m s0 (State.calveDue s) := by
  unfold State.calveDue
  repeat' (first | (with_reducible first | assumption | apply State.setRas_touch | apply State.beginCalve_touch) | (with_reducible show Sub _ _; exact hm.of rfl) | extract_lets | refine Touch.ofPair ‹_ = (_, _)› ?_ | split | dsimp -zeta only | dsimp -zeta +zetaDelta only)
theorem execCalveQuietPoint_touch {m : Nat} (hm : Sub 0x4000004 m) {s0 : State} (s : State) (h : Touch m s0 s) : TouchO m s0 (execCalveQuietPoint s) := by
  unfold execCalveQuietPoint
  repeat' (first | (with_reducible first | assumption | apply TouchO.next | apply State.setRas_touch | apply State.setFloe_touch) | (with_reducible show Sub _ _; exact hm.of rfl) | extract_lets | refine Touch.ofPair ‹_ = (_, _)› ?_ | split | dsimp -zeta only | dsimp -zeta +zetaDelta only)
theorem execCalveHoldTimeout_touch {m : Nat} (hm : Sub 0x4000004 m) {s0 : State} (s : State) (h : Touch m s0 s) : TouchO m s0 (execCalveHoldTimeout s) := by
  unfold execCalveHoldTimeout
  repeat' (first | (with_reducible intro _) | (with_reducible first | assumption | apply TouchO.next | apply State.setRas_touch | apply State.freeFloe_touch | apply State.each_touch) | (with_reducible show Sub _ _; exact hm.of rfl) | extract_lets | refine Touch.ofPair ‹_ = (_, _)› ?_ | split | dsimp -zeta only | dsimp -zeta +zetaDelta only)
theorem execCalveRetry_touch {m : Nat} (hm : Sub 0x4040004 m) {s0 : State} (s : State) (h : Touch m s0 s) : TouchO m s0 (execCalveRetry s) := by
  unfold execCalveRetry
  repeat' (first | (with_reducible intro _) | (with_reducible first | assumption | apply TouchO.next | apply State.setRas_touch | apply State.holdFloe_touch | apply State.each_touch) | (with_reducible show Sub _ _; exact hm.of rfl) | extract_lets | refine Touch.ofPair ‹_ = (_, _)› ?_ | split | dsimp -zeta only | dsimp -zeta +zetaDelta only)
theorem execCalveCopyComplete_touch {m : Nat} (hm : Sub 0x174001404 m) {s0 : State} (s : State) (h : Touch m s0 s) : TouchO m s0 (execCalveCopyComplete s) := by
  unfold execCalveCopyComplete
  repeat' (first | (with_reducible first | assumption | apply TouchO.next | apply State.writeRecord_touch | apply State.setRas_touch | apply State.calvedEvent_touch | apply State.rasReport_touch | apply State.freeFloe_touch) | (with_reducible show Sub _ _; exact hm.of rfl) | extract_lets | refine Touch.ofPair ‹_ = (_, _)› ?_ | split | dsimp -zeta only | dsimp -zeta +zetaDelta only)
theorem State.loseGroup_touch {m : Nat} (hm : Sub 0x4000010 m) {s0 : State} (s : State) (g : Nat) (h : Touch m s0 s) : Touch m s0 (State.loseGroup s g) := by
  unfold State.loseGroup
  repeat' (first | (with_reducible first | assumption | apply State.setRas_touch | apply State.setPart_touch) | (with_reducible show Sub _ _; exact hm.of rfl) | extract_lets | refine Touch.ofPair ‹_ = (_, _)› ?_ | split | dsimp -zeta only | dsimp -zeta +zetaDelta only)
theorem State.failSpare_touch {m : Nat} (hm : Sub 0x34000000 m) {s0 : State} (s : State) (site : Nat) (h : Touch m s0 s) : Touch m s0 (State.failSpare s site) := by
  unfold State.failSpare
  repeat' (first | (with_reducible first | assumption | apply State.writeRecord_touch) | (with_reducible show Sub _ _; exact hm.of rfl) | extract_lets | refine Touch.ofPair ‹_ = (_, _)› ?_ | split | dsimp -zeta only | dsimp -zeta +zetaDelta only)
theorem State.dropCalve_touch {m : Nat} (hm : Sub 0x4000004 m) {s0 : State} (s : State) (site : Nat) (h : Touch m s0 s) : Touch m s0 (State.dropCalve s site) := by
  unfold State.dropCalve
  repeat' (first | (with_reducible intro _) | (with_reducible first | assumption | apply State.setRas_touch | apply State.freeFloe_touch | apply State.each_touch) | (with_reducible show Sub _ _; exact hm.of rfl) | extract_lets | refine Touch.ofPair ‹_ = (_, _)› ?_ | split | dsimp -zeta only | dsimp -zeta +zetaDelta only)
theorem execSiteHardFailure_touch {m : Nat} (hm : Sub 0xF741FBF9C m) {s0 : State} (site : Nat) (s : State) (h : Touch m s0 s) : TouchO m s0 (execSiteHardFailure site s) := by
  unfold execSiteHardFailure
  repeat' (first | (with_reducible first | assumption | apply TouchO.next | apply State.writeRecord_touch | apply State.setRas_touch | apply State.calvedEvent_touch | apply State.resetFloe_touch | apply State.loseGroup_touch | apply State.degrade_touch | apply State.dropCalve_touch | apply State.failSpare_touch | apply State.abandonFloe_touch) | (with_reducible show Sub _ _; exact hm.of rfl) | extract_lets | refine Touch.ofPair ‹_ = (_, _)› ?_ | split | dsimp -zeta only | dsimp -zeta +zetaDelta only)
theorem execSpareSelfTest_touch {m : Nat} (hm : Sub 0x34000004 m) {s0 : State} (site : Nat) (pass : Bool) (s : State) (h : Touch m s0 s) : TouchO m s0 (execSpareSelfTest site pass s) := by
  unfold execSpareSelfTest
  repeat' (first | (with_reducible first | assumption | apply TouchO.next | apply State.dropCalve_touch | apply State.failSpare_touch) | (with_reducible show Sub _ _; exact hm.of rfl) | extract_lets | refine Touch.ofPair ‹_ = (_, _)› ?_ | split | dsimp -zeta only | dsimp -zeta +zetaDelta only)
theorem execAddUnitTest_touch {m : Nat} (hm : Sub 0x20040000 m) {s0 : State} (unit : Nat) (pass : Bool) (s : State) (h : Touch m s0 s) : TouchO m s0 (execAddUnitTest unit pass s) := by
  unfold execAddUnitTest
  repeat' (first | (with_reducible first | assumption | apply TouchO.next | apply State.setRouter_touch | apply State.setFlash_touch) | (with_reducible show Sub _ _; exact hm.of rfl) | extract_lets | refine Touch.ofPair ‹_ = (_, _)› ?_ | split | dsimp -zeta only | dsimp -zeta +zetaDelta only)
theorem execHeartbeatLoss_touch {m : Nat} (hm : Sub 0x1441FBF94 m) {s0 : State} (s : State) (h : Touch m s0 s) : TouchO m s0 (execHeartbeatLoss s) := by
  unfold execHeartbeatLoss
  repeat' (first | (with_reducible intro _) | (with_reducible first | assumption | apply TouchO.next | apply State.setRas_touch | apply State.setPart_touch | apply State.rasReport_touch | apply State.degrade_touch | apply State.linkEvent_touch | apply State.each_touch | apply Touch.foldl | apply Touch.foldl1) | (with_reducible show Sub _ _; exact hm.of rfl) | extract_lets | refine Touch.ofPair ‹_ = (_, _)› ?_ | split | dsimp -zeta only | dsimp -zeta +zetaDelta only)
theorem execControlLaneRetrain_touch {m : Nat} (hm : Sub 0x4000000 m) {s0 : State} (up : Bool) (s : State) (h : Touch m s0 s) : TouchO m s0 (execControlLaneRetrain up s) := by
  unfold execControlLaneRetrain
  repeat' (first | (with_reducible first | assumption | apply TouchO.next | apply State.setRas_touch) | (with_reducible show Sub _ _; exact hm.of rfl) | extract_lets | refine Touch.ofPair ‹_ = (_, _)› ?_ | split | dsimp -zeta only | dsimp -zeta +zetaDelta only)
theorem execOrphanRejoin_touch {m : Nat} (hm : Sub 0xC040000 m) {s0 : State} (s : State) (h : Touch m s0 s) : TouchO m s0 (execOrphanRejoin s) := by
  unfold execOrphanRejoin
  repeat' (first | (with_reducible intro _) | (with_reducible first | assumption | apply TouchO.next | apply State.setRas_touch | apply State.setSec_touch | apply State.notice_touch | apply State.each_touch) | (with_reducible show Sub _ _; exact hm.of rfl) | extract_lets | refine Touch.ofPair ‹_ = (_, _)› ?_ | split | dsimp -zeta only | dsimp -zeta +zetaDelta only)
theorem execBridgeDataLaneLoss_touch {m : Nat} (hm : Sub 0x1641FBF94 m) {s0 : State} (s : State) (h : Touch m s0 s) : TouchO m s0 (execBridgeDataLaneLoss s) := by
  unfold execBridgeDataLaneLoss
  repeat' (first | (with_reducible first | assumption | apply TouchO.next | apply State.loseOrphanMemory_touch) | (with_reducible show Sub _ _; exact hm.of rfl) | extract_lets | refine Touch.ofPair ‹_ = (_, _)› ?_ | split | dsimp -zeta only | dsimp -zeta +zetaDelta only)
theorem execBridgeLaneRetrain_touch {m : Nat} (hm : Sub 0x4000000 m) {s0 : State} (group : Nat) (lanesLost : Nat) (s : State) (h : Touch m s0 s) : TouchO m s0 (execBridgeLaneRetrain group lanesLost s) := by
  unfold execBridgeLaneRetrain
  repeat' (first | (with_reducible first | assumption | apply TouchO.next | apply State.setRas_touch | apply State.rasReport_touch) | (with_reducible show Sub _ _; exact hm.of rfl) | extract_lets | refine Touch.ofPair ‹_ = (_, _)› ?_ | split | dsimp -zeta only | dsimp -zeta +zetaDelta only)
theorem State.fatalReport_touch {m : Nat} (hm : Sub 0x146001400 m) {s0 : State} (s : State) (h : Touch m s0 s) : Touch m s0 (State.fatalReport s) := by
  unfold State.fatalReport
  repeat' (first | (with_reducible first | assumption | apply State.setRst_touch | apply State.eventMgmt_touch) | (with_reducible show Sub _ _; exact hm.of rfl) | extract_lets | refine Touch.ofPair ‹_ = (_, _)› ?_ | split | dsimp -zeta only | dsimp -zeta +zetaDelta only)
theorem State.commitDue_touch {m : Nat} (hm : Sub 0x1440F9794 m) {s0 : State} (s : State) (h : Touch m s0 s) : Touch m s0 (State.commitDue s) := by
  unfold State.commitDue
  repeat' (first | (with_reducible intro _) | (with_reducible first | assumption | apply State.endVerdict_touch | apply State.each_touch) | (with_reducible show Sub _ _; exact hm.of rfl) | extract_lets | refine Touch.ofPair ‹_ = (_, _)› ?_ | split | dsimp -zeta only | dsimp -zeta +zetaDelta only)
theorem State.portsDue_touch {m : Nat} (hm : Sub 0x40000 m) {s0 : State} (s : State) (h : Touch m s0 s) : Touch m s0 (State.portsDue s) := by
  unfold State.portsDue
  repeat' (first | (with_reducible intro _) | (with_reducible first | assumption | apply State.drain_touch | apply State.each_touch) | (with_reducible show Sub _ _; exact hm.of rfl) | extract_lets | refine Touch.ofPair ‹_ = (_, _)› ?_ | split | dsimp -zeta only | dsimp -zeta +zetaDelta only)
theorem State.duties_touch {m : Nat} (hm : Sub 0x1661FBF94 m) {s0 : State} (s : State) (h : Touch m s0 s) : Touch m s0 (State.duties s) := by
  unfold State.duties
  repeat' (first | (with_reducible first | assumption | apply State.commitDue_touch | apply State.settle_touch | apply State.portsDue_touch | apply State.calveDue_touch | apply State.fatalReport_touch) | (with_reducible show Sub _ _; exact hm.of rfl) | extract_lets | refine Touch.ofPair ‹_ = (_, _)› ?_ | split | dsimp -zeta only | dsimp -zeta +zetaDelta only)

end Sys2Proof.Machine
end

