-- ==== Sys2Proof/Laws/TouchCsr.lean ====
section
/-! SUPPORT. What every operation of Machine/Csr.lean may touch (Sys2Proof.Machine.Touch). -/

namespace Sys2Proof.Machine

set_option linter.all false

theorem State.readWords_touch {m : Nat} (hm : Sub 0x200000000 m) {s0 : State} (s : State) (req a0 a1 : Nat) (a2 : Bool) (h : Touch m s0 s) : Touch m s0 (State.readWords s req a0 a1 a2).1 := by
  induction a0 generalizing s a1 a2 with
  | zero => exact h
  | succ n ih =>
    simp only [State.readWords]
    apply ih
    split
    · exact (by first | exact Touch.upd_latches (hm.of rfl) h)
    · split
      · split
        · exact (by first | exact Touch.upd_latches (hm.of rfl) h)
        · exact h
      · exact h
theorem State.isolateBlock_touch {m : Nat} (hm : Sub 0x14401BC04 m) {s0 : State} (s : State) (die : Nat) (page : Nat) (h : Touch m s0 s) : Touch m s0 (State.isolateBlock s die page) := by
  unfold State.isolateBlock
  repeat' (first | (with_reducible intro _) | (with_reducible first | assumption | apply State.isolateFloe_touch | apply State.isolateCmds_touch | apply State.each_touch) | (with_reducible show Sub _ _; exact hm.of rfl) | extract_lets | refine Touch.ofPair ‹_ = (_, _)› ?_ | split | dsimp -zeta only | dsimp -zeta +zetaDelta only)
theorem State.beginBlock_touch {m : Nat} (hm : Sub 0x14403BC04 m) {s0 : State} (s : State) (die : Nat) (page : Nat) (iso : Bool) (h : Touch m s0 s) : Touch m s0 (State.beginBlock s die page iso) := by
  unfold State.beginBlock
  repeat' (first | (with_reducible first | assumption | apply State.setHdr_touch | apply State.isolateBlock_touch | apply State.setPerst_touch) | (with_reducible show Sub _ _; exact hm.of rfl) | extract_lets | refine Touch.ofPair ‹_ = (_, _)› ?_ | split | dsimp -zeta only | dsimp -zeta +zetaDelta only)
theorem State.writeHold_touch {m : Nat} (hm : Sub 0x144007C00 m) {s0 : State} (s : State) (die : Nat) (page : Nat) (v : Bool) (h : Touch m s0 s) : Touch m s0 (State.writeHold s die page v) := by
  unfold State.writeHold
  repeat' (first | (with_reducible first | assumption | apply State.frameAll_touch | apply State.setHdr_touch | apply State.countErr_touch) | (with_reducible show Sub _ _; exact hm.of rfl) | extract_lets | refine Touch.ofPair ‹_ = (_, _)› ?_ | split | dsimp -zeta only | dsimp -zeta +zetaDelta only)
theorem State.writeFreeze_touch {m : Nat} (hm : Sub 0x100000000 m) {s0 : State} (s : State) (die : Nat) (page : Nat) (v : Bool) (h : Touch m s0 s) : Touch m s0 (State.writeFreeze s die page v) := by
  unfold State.writeFreeze
  repeat' (first | (with_reducible first | assumption | apply State.setHdr_touch) | (with_reducible show Sub _ _; exact hm.of rfl) | extract_lets | refine Touch.ofPair ‹_ = (_, _)› ?_ | split | dsimp -zeta only | dsimp -zeta +zetaDelta only)
theorem State.writeResetCtrl_touch {m : Nat} (hm : Sub 0x14403BC04 m) {s0 : State} (s : State) (die : Nat) (page : Nat) (go : Bool) (iso : Bool) (h : Touch m s0 s) : Touch m s0 (State.writeResetCtrl s die page go iso) := by
  unfold State.writeResetCtrl
  repeat' (first | (with_reducible first | assumption | apply State.setHdr_touch | apply State.countErr_touch | apply State.beginBlock_touch) | (with_reducible show Sub _ _; exact hm.of rfl) | extract_lets | refine Touch.ofPair ‹_ = (_, _)› ?_ | split | dsimp -zeta only | dsimp -zeta +zetaDelta only)
theorem State.raiseBits_touch {m : Nat} (hm : Sub 0x144001400 m) {s0 : State} (s : State) (die : Nat) (page : Nat) (hw : Nat) (h : Touch m s0 s) : Touch m s0 (State.raiseBits s die page hw) := by
  unfold State.raiseBits
  repeat' (first | (with_reducible intro _) | (with_reducible first | assumption | apply State.raise_touch | apply State.each_touch) | (with_reducible show Sub _ _; exact hm.of rfl) | extract_lets | refine Touch.ofPair ‹_ = (_, _)› ?_ | split | dsimp -zeta only | dsimp -zeta +zetaDelta only)
theorem State.writeHeader_touch {m : Nat} (hm : Sub 0x14403FC04 m) {s0 : State} (s : State) (die : Nat) (page : Nat) (off : Nat) (v : Word) (hw : Word) (h : Touch m s0 s) : Touch m s0 (State.writeHeader s die page off v hw) := by
  unfold State.writeHeader
  repeat' (first | (with_reducible first | assumption | apply State.setHdr_touch | apply State.writeFreeze_touch | apply State.writeResetCtrl_touch | apply State.raiseBits_touch | apply State.writeHold_touch) | (with_reducible show Sub _ _; exact hm.of rfl) | extract_lets | refine Touch.ofPair ‹_ = (_, _)› ?_ | split | dsimp -zeta only | dsimp -zeta +zetaDelta only)
theorem State.writeFloe_touch {m : Nat} (hm : Sub 0x104000004 m) {s0 : State} (s : State) (die : Nat) (page : Nat) (off : Nat) (v : Nat) (hw : Word) (h : Touch m s0 s) : Touch m s0 (State.writeFloe s die page off v hw) := by
  unfold State.writeFloe
  repeat' (first | (with_reducible first | assumption | apply State.countErr_touch | apply State.setFloe_touch) | (with_reducible show Sub _ _; exact hm.of rfl) | extract_lets | refine Touch.ofPair ‹_ = (_, _)› ?_ | split | dsimp -zeta only | dsimp -zeta +zetaDelta only)
theorem State.writeBank_touch {m : Nat} (hm : Sub 0x104040000 m) {s0 : State} (s : State) (die : Nat) (bank : Nat) (v : Word) (h : Touch m s0 s) : Touch m s0 (State.writeBank s die bank v) := by
  unfold State.writeBank
  repeat' (first | (with_reducible first | assumption | apply State.setRouter_touch | apply State.countErr_touch) | (with_reducible show Sub _ _; exact hm.of rfl) | extract_lets | refine Touch.ofPair ‹_ = (_, _)› ?_ | split | dsimp -zeta only | dsimp -zeta +zetaDelta only)
theorem State.writeCap_touch {m : Nat} (hm : Sub 0x1000000 m) {s0 : State} (s : State) (w : Nat) (h : Touch m s0 s) : Touch m s0 (State.writeCap s w) := by
  unfold State.writeCap
  repeat' (first | with_reducible assumption | (with_reducible show Sub _ _; exact hm.of rfl) | simp -zeta only [Touch.upd_powerI (hm.of rfl)] | extract_lets | refine Touch.ofPair ‹_ = (_, _)› ?_ | split | dsimp -zeta only | dsimp -zeta +zetaDelta only)
theorem State.kick_touch {m : Nat} (hm : Sub 0x2000000 m) {s0 : State} (s : State) (h : Touch m s0 s) : Touch m s0 (State.kick s) := by
  unfold State.kick
  repeat' (first | (with_reducible first | assumption | apply State.setRst_touch) | (with_reducible show Sub _ _; exact hm.of rfl) | extract_lets | refine Touch.ofPair ‹_ = (_, _)› ?_ | split | dsimp -zeta only | dsimp -zeta +zetaDelta only)
theorem State.writeLaserCmd_touch {m : Nat} (hm : Sub 0x1441C1400 m) {s0 : State} (s : State) (c : Nat) (v : Word) (h : Touch m s0 s) : Touch m s0 (State.writeLaserCmd s c v) := by
  unfold State.writeLaserCmd
  repeat' (first | (with_reducible first | assumption | apply State.requestRecal_touch | apply State.setChip_touch | apply State.requestSwap_touch) | (with_reducible show Sub _ _; exact hm.of rfl) | extract_lets | refine Touch.ofPair ‹_ = (_, _)› ?_ | split | dsimp -zeta only | dsimp -zeta +zetaDelta only)
theorem State.writeRetire_touch {m : Nat} (hm : Sub 0x164011400 m) {s0 : State} (s : State) (v : Nat) (h : Touch m s0 s) : Touch m s0 (State.writeRetire s v) := by
  unfold State.writeRetire
  repeat' (first | (with_reducible intro _) | (with_reducible first | assumption | apply State.requestRetire_touch | apply State.each_touch) | (with_reducible show Sub _ _; exact hm.of rfl) | simp -zeta only [Touch.upd_nmI (hm.of rfl)] | extract_lets | refine Touch.ofPair ‹_ = (_, _)› ?_ | split | dsimp -zeta only | dsimp -zeta +zetaDelta only)
theorem State.writeBlk_touch {m : Nat} (hm : Sub 0x1675FD404 m) {s0 : State} (s : State) (die : Nat) (page : Nat) (off : Nat) (v : Nat) (hw : Word) (h : Touch m s0 s) : Touch m s0 (State.writeBlk s die page off v hw) := by
  unfold State.writeBlk
  repeat' (first | (with_reducible intro _) | (with_reducible first | assumption | apply State.setRouter_touch | apply State.writeLaserCmd_touch | apply State.kick_touch | apply State.setRas_touch | apply State.setCxl_touch | apply State.writeBank_touch | apply State.writeDrain_touch | apply State.writeFloe_touch | apply State.setOedPort_touch | apply State.writeTimeSet_touch | apply State.setNmc_touch | apply State.setRst_touch | apply State.calveGo_touch | apply State.rasReport_touch | apply State.writeOedMode_touch | apply State.setMod_touch | apply State.writeCap_touch | apply State.setChip_touch | apply State.writeRetire_touch | apply State.each_touch) | (with_reducible show Sub _ _; exact hm.of rfl) | simp -zeta only [Touch.upd_nmI (hm.of rfl)] | simp -zeta only [Touch.upd_oedI (hm.of rfl)] | simp -zeta only [Touch.upd_timeI (hm.of rfl)] | extract_lets | refine Touch.ofPair ‹_ = (_, _)› ?_ | split | dsimp -zeta only | dsimp -zeta +zetaDelta only)
theorem State.writeWord_touch {m : Nat} (hm : Sub 0x5675FFC04 m) {s0 : State} (s : State) (req : Nat) (a : Nat) (v : Word) (hw : Word) (h : Touch m s0 s) : Touch m s0 (State.writeWord s req a v hw) := by
  unfold State.writeWord
  repeat' (first | (with_reducible first | assumption | apply State.writeHeader_touch | apply State.countErr_touch | apply State.writeBlk_touch) | (with_reducible show Sub _ _; exact hm.of rfl) | simp -zeta only [Touch.upd_stagedI (hm.of rfl)] | extract_lets | refine Touch.ofPair ‹_ = (_, _)› ?_ | split | dsimp -zeta only | dsimp -zeta +zetaDelta only)
theorem State.writePair_touch {m : Nat} (hm : Sub 0x5675FD404 m) {s0 : State} (s : State) (req : Nat) (a : Nat) (lo : Word) (hi : Word) (h : Touch m s0 s) : Touch m s0 (State.writePair s req a lo hi) := by
  unfold State.writePair
  repeat' (first | (with_reducible first | assumption | apply State.countErr_touch | apply State.writeBlk_touch) | (with_reducible show Sub _ _; exact hm.of rfl) | simp -zeta only [Touch.upd_stagedI (hm.of rfl)] | extract_lets | refine Touch.ofPair ‹_ = (_, _)› ?_ | split | dsimp -zeta only | dsimp -zeta +zetaDelta only)
theorem State.writeWords_touch {m : Nat} (hm : Sub 0x5675FFC04 m) {s0 : State} (s : State) (req : Nat) (a0 : Nat) (a1 : List Word) (h : Touch m s0 s) : Touch m s0 (State.writeWords s req a0 a1) := by
  induction hn : a1.length using Nat.strongRecOn generalizing s a0 a1 with
  | ind n ih =>
    subst hn
    match a1 with
    | [] => simpa only [State.writeWords] using h
    | [v] => simpa only [State.writeWords] using State.writeWord_touch (hm.of rfl) _ _ _ _ _ h
    | v :: w :: r =>
      simp only [State.writeWords]
      split
      · exact ih r.length (by simp only [List.length_cons]; omega) _ _ r (State.writePair_touch (hm.of rfl) _ _ _ _ _ h) rfl
      · exact ih (w :: r).length (by simp) _ _ (w :: r) (State.writeWord_touch (hm.of rfl) _ _ _ _ _ h) rfl
theorem execCsrWrite_touch {m : Nat} (hm : Sub 0x5675FFC24 m) {s0 : State} (pv : Nat) (s : State) (h : Touch m s0 s) : TouchO m s0 (execCsrWrite pv s) := by
  unfold execCsrWrite
  repeat' (first | (with_reducible first | assumption | apply TouchO.next | apply State.countErr_touch | apply State.writeWords_touch | apply State.respond_touch) | (with_reducible show Sub _ _; exact hm.of rfl) | refine State.takeCmd_touch (hm.of rfl) ‹_› ?_ | refine State.acceptCmd_touch (hm.of rfl) ‹_› ?_ | extract_lets | refine Touch.ofPair ‹_ = (_, _)› ?_ | split | dsimp -zeta only | dsimp -zeta +zetaDelta only)
theorem execCsrRead_touch {m : Nat} (hm : Sub 0x240003C20 m) {s0 : State} (pv : Nat) (s : State) (h : Touch m s0 s) : TouchO m s0 (execCsrRead pv s) := by
  unfold execCsrRead
  repeat' (first | (with_reducible first | assumption | apply TouchO.next | apply State.readWords_touch | apply State.respond_touch) | (with_reducible show Sub _ _; exact hm.of rfl) | refine State.takeCmd_touch (hm.of rfl) ‹_› ?_ | refine State.acceptCmd_touch (hm.of rfl) ‹_› ?_ | extract_lets | refine Touch.ofPair ‹_ = (_, _)› ?_ | split | dsimp -zeta only | dsimp -zeta +zetaDelta only)
theorem execSnapshot_touch {m : Nat} (hm : Sub 0x1641FBFB4 m) {s0 : State} (pv : Nat) (s : State) (h : Touch m s0 s) : TouchO m s0 (execSnapshot pv s) := by
  unfold execSnapshot
  repeat' (first | (with_reducible first | assumption | apply TouchO.next | apply State.settle_touch | apply State.respond_touch | apply State.memAnswer_touch | apply State.devWrite_touch) | (with_reducible show Sub _ _; exact hm.of rfl) | refine State.takeCmd_touch (hm.of rfl) ‹_› ?_ | refine State.acceptCmd_touch (hm.of rfl) ‹_› ?_ | extract_lets | refine Touch.ofPair ‹_ = (_, _)› ?_ | split | dsimp -zeta only | dsimp -zeta +zetaDelta only)
theorem execResetCtrlGo_touch {m : Nat} (hm : Sub 0x14403BC04 m) {s0 : State} (die : Nat) (page : Nat) (s : State) (h : Touch m s0 s) : TouchO m s0 (execResetCtrlGo die page s) := by
  unfold execResetCtrlGo
  repeat' (first | (with_reducible first | assumption | apply TouchO.next | apply State.writeResetCtrl_touch) | (with_reducible show Sub _ _; exact hm.of rfl) | extract_lets | refine Touch.ofPair ‹_ = (_, _)› ?_ | split | dsimp -zeta only | dsimp -zeta +zetaDelta only)
theorem execCtrlHold_touch {m : Nat} (hm : Sub 0x144007C00 m) {s0 : State} (die : Nat) (page : Nat) (value : Bool) (s : State) (h : Touch m s0 s) : TouchO m s0 (execCtrlHold die page value s) := by
  unfold execCtrlHold
  repeat' (first | (with_reducible first | assumption | apply TouchO.next | apply State.writeHold_touch) | (with_reducible show Sub _ _; exact hm.of rfl) | extract_lets | refine Touch.ofPair ‹_ = (_, _)› ?_ | split | dsimp -zeta only | dsimp -zeta +zetaDelta only)
theorem execCtrlFreeze_touch {m : Nat} (hm : Sub 0x100000000 m) {s0 : State} (die : Nat) (page : Nat) (value : Bool) (s : State) (h : Touch m s0 s) : TouchO m s0 (execCtrlFreeze die page value s) := by
  unfold execCtrlFreeze
  repeat' (first | (with_reducible first | assumption | apply TouchO.next | apply State.writeFreeze_touch) | (with_reducible show Sub _ _; exact hm.of rfl) | extract_lets | refine Touch.ofPair ‹_ = (_, _)› ?_ | split | dsimp -zeta only | dsimp -zeta +zetaDelta only)
theorem execRstWdtKick_touch {m : Nat} (hm : Sub 0x2000000 m) {s0 : State} (s : State) (h : Touch m s0 s) : TouchO m s0 (execRstWdtKick s) := by
  unfold execRstWdtKick
  repeat' (first | (with_reducible first | assumption | apply TouchO.next | apply State.kick_touch) | (with_reducible show Sub _ _; exact hm.of rfl) | extract_lets | refine Touch.ofPair ‹_ = (_, _)› ?_ | split | dsimp -zeta only | dsimp -zeta +zetaDelta only)
theorem execRouterBank_touch {m : Nat} (hm : Sub 0x104040000 m) {s0 : State} (bank : Nat) (value : Word) (s : State) (h : Touch m s0 s) : TouchO m s0 (execRouterBank bank value s) := by
  unfold execRouterBank
  repeat' (first | (with_reducible first | assumption | apply TouchO.next | apply State.writeBank_touch) | (with_reducible show Sub _ _; exact hm.of rfl) | extract_lets | refine Touch.ofPair ‹_ = (_, _)› ?_ | split | dsimp -zeta only | dsimp -zeta +zetaDelta only)
theorem execPwrCap_touch {m : Nat} (hm : Sub 0x105000000 m) {s0 : State} (watts : Word) (s : State) (h : Touch m s0 s) : TouchO m s0 (execPwrCap watts s) := by
  unfold execPwrCap
  repeat' (first | (with_reducible first | assumption | apply TouchO.next | apply State.countErr_touch | apply State.writeCap_touch) | (with_reducible show Sub _ _; exact hm.of rfl) | extract_lets | refine Touch.ofPair ‹_ = (_, _)› ?_ | split | dsimp -zeta only | dsimp -zeta +zetaDelta only)
theorem State.writeEp_touch {m : Nat} (hm : Sub 0x144007C00 m) {s0 : State} (s : State) (e : Nat) (off : Nat) (v : Word) (hw : Word) (h : Touch m s0 s) : Touch m s0 (State.writeEp s e off v hw) := by
  unfold State.writeEp
  repeat' (first | (with_reducible first | assumption | apply State.setEp_touch | apply State.linkReset_touch | apply State.frameTx_touch) | (with_reducible show Sub _ _; exact hm.of rfl) | extract_lets | refine Touch.ofPair ‹_ = (_, _)› ?_ | split | dsimp -zeta only | dsimp -zeta +zetaDelta only)
theorem execRegisterWrite_touch {m : Nat} (hm : Sub 0x5675FFC04 m) {s0 : State} (addr : Nat) (value : Word) (hwSet : Word) (s : State) (h : Touch m s0 s) : TouchO m s0 (execRegisterWrite addr value hwSet s) := by
  unfold execRegisterWrite
  repeat' (first | (with_reducible first | assumption | apply TouchO.next | exact TouchO.fault | apply State.writeWord_touch | apply State.writeEp_touch | apply State.countErr_touch) | (with_reducible show Sub _ _; exact hm.of rfl) | simp -zeta only [Touch.upd_procI (hm.of rfl)] | extract_lets | refine Touch.ofPair ‹_ = (_, _)› ?_ | split | dsimp -zeta only | dsimp -zeta +zetaDelta only)

end Sys2Proof.Machine
end

