-- ==== Sys2Proof/Laws/TouchAudit.lean ====
section
/-! SUPPORT. What every operation of Machine/Audit.lean may touch (Sys2Proof.Machine.Touch). -/

namespace Sys2Proof.Machine

set_option linter.all false

theorem State.sign_touch {m : Nat} (hm : Sub 0x800000000 m) {s0 : State} (s : State) (h : Touch m s0 s) : Touch m s0 (State.sign s).1 := by
  unfold State.sign
  repeat' (first | with_reducible assumption | (with_reducible show Sub _ _; exact hm.of rfl) | simp -zeta only [Touch.upd_freshI (hm.of rfl)] | extract_lets | refine Touch.ofPair ‹_ = (_, _)› ?_ | split | dsimp -zeta only | dsimp -zeta +zetaDelta only)
theorem State.sign_touchE {m : Nat} (hm : Sub 0x800000000 m) {s0 s9 : State} {s : State} {r9 : _} (e : State.sign s = (s9, r9)) (h : Touch m s0 s) : Touch m s0 s9 := by
  have k := State.sign_touch hm (s0 := s0) s h
  rw [e] at k
  exact k
theorem State.audit_touch {m : Nat} (hm : Sub 0x820000000 m) {s0 : State} (s : State) (kind : Nat) (res : Nat) (part : Nat) (ep : Nat) (mHash : List Byte) (key : List Byte) (arg : List Byte) (h : Touch m s0 s) : Touch m s0 (State.audit s kind res part ep mHash key arg) := by
  unfold State.audit
  repeat' (first | (with_reducible first | assumption | apply State.sign_touch | apply State.setFlash_touch) | (with_reducible show Sub _ _; exact hm.of rfl) | extract_lets | refine Touch.ofPair ‹_ = (_, _)› ?_ | split | dsimp -zeta only | dsimp -zeta +zetaDelta only)
theorem State.raiseSure_touch {m : Nat} (hm : Sub 0x144001400 m) {s0 : State} (s : State) (die : Nat) (page : Nat) (bit : Nat) (h : Touch m s0 s) : Touch m s0 (State.raiseSure s die page bit) := by
  unfold State.raiseSure
  repeat' (first | (with_reducible first | assumption | apply State.raise_touch | apply State.blockError_touch) | (with_reducible show Sub _ _; exact hm.of rfl) | extract_lets | refine Touch.ofPair ‹_ = (_, _)› ?_ | split | dsimp -zeta only | dsimp -zeta +zetaDelta only)
theorem State.authFail_touch {m : Nat} (hm : Sub 0x144001400 m) {s0 : State} (s : State) (h : Touch m s0 s) : Touch m s0 (State.authFail s) := by
  unfold State.authFail
  repeat' (first | (with_reducible first | assumption | apply State.raise_touch) | (with_reducible show Sub _ _; exact hm.of rfl) | extract_lets | refine Touch.ofPair ‹_ = (_, _)› ?_ | split | dsimp -zeta only | dsimp -zeta +zetaDelta only)

end Sys2Proof.Machine
end

