-- ==== Sys2Proof/Laws/TouchLoad.lean ====
section
/-! SUPPORT. What every operation of Machine/Load.lean may touch (Sys2Proof.Machine.Touch). -/

namespace Sys2Proof.Machine

set_option linter.all false

theorem State.installImage_touch {m : Nat} (hm : Sub 0x14 m) {s0 : State} (s : State) (p : Nat) (l : List Byte) (h : Touch m s0 s) : Touch m s0 (State.installImage s p l) := by
  unfold State.installImage
  repeat' (first | (with_reducible intro _) | (with_reducible first | assumption | apply State.setPart_touch | apply State.setFloe_touch | apply State.each_touch) | (with_reducible show Sub _ _; exact hm.of rfl) | extract_lets | refine Touch.ofPair ‹_ = (_, _)› ?_ | split | dsimp -zeta only | dsimp -zeta +zetaDelta only)
theorem execLoadEnd_touch {m : Nat} (hm : Sub 0x964003C34 m) {s0 : State} (pv : Nat) (s : State) (h : Touch m s0 s) : TouchO m s0 (execLoadEnd pv s) := by
  unfold execLoadEnd
  split
  · exact TouchO.next h
  split
  · exact TouchO.next h
  have h1 := State.takeCmd_touch (hm.of rfl) ‹_› h
  split
  · exact TouchO.next (State.acceptCmd_touch (hm.of rfl) ‹_› h1)
  split
  · exact TouchO.next (State.stateError_touch (hm.of rfl) _ _ h1)
  extract_lets l
  clear_value l
  split
  · exact TouchO.next (State.respond_touch (hm.of rfl) _ _ _ _ _ _ _ h1)
  split
  · exact TouchO.next (State.authFail_touch (hm.of rfl) _ (State.closeLoad_touch (hm.of rfl) _ _ _ _ h1))
  split
  · exact TouchO.next (State.authFail_touch (hm.of rfl) _ (State.closeLoad_touch (hm.of rfl) _ _ _ _ (State.audit_touch (hm.of rfl) _ _ _ _ _ _ _ _ h1)))
  split
  · exact TouchO.next (State.closeLoad_touch (hm.of rfl) _ _ _ _ h1)
  cases Option.orElse (State.imageMisfit _ _ _) _ with
  | some code => exact TouchO.next (State.closeLoad_touch (hm.of rfl) _ _ _ _ h1)
  | none => exact TouchO.next (State.respond_touch (hm.of rfl) _ _ _ _ _ _ _ (State.installImage_touch (hm.of rfl) _ _ _ h1))
theorem State.startStreams_touch {m : Nat} (hm : Sub 0x4 m) {s0 : State} (s : State) (p : Nat) (im : Image) (h : Touch m s0 s) : Touch m s0 (State.startStreams s p im) := by
  unfold State.startStreams
  repeat' (first | (with_reducible intro _) | (with_reducible first | assumption | apply State.setFloe_touch | apply State.each_touch) | (with_reducible show Sub _ _; exact hm.of rfl) | extract_lets | refine Touch.ofPair ‹_ = (_, _)› ?_ | split | dsimp -zeta only | dsimp -zeta +zetaDelta only)
theorem execStart_touch {m : Nat} (hm : Sub 0x144003C34 m) {s0 : State} (pv : Nat) (s : State) (h : Touch m s0 s) : TouchO m s0 (execStart pv s) := by
  unfold execStart
  repeat' (first | (with_reducible first | assumption | apply TouchO.next | apply State.setPart_touch | apply State.programEnd_touch | apply State.respond_touch | apply State.startStreams_touch | apply State.startFloes_touch) | (with_reducible show Sub _ _; exact hm.of rfl) | refine State.takeCmd_touch (hm.of rfl) ‹_› ?_ | refine State.acceptCmd_touch (hm.of rfl) ‹_› ?_ | extract_lets | refine Touch.ofPair ‹_ = (_, _)› ?_ | split | dsimp -zeta only | dsimp -zeta +zetaDelta only)

end Sys2Proof.Machine
end

