-- ==== Sys2Proof/Laws/TouchSecurity.lean ====
section
/-! SUPPORT. What every operation of Machine/Security.lean may touch (Sys2Proof.Machine.Touch). -/

namespace Sys2Proof.Machine

set_option linter.all false

theorem State.tellBusy_touch {m : Nat} (hm : Sub 0x40003400 m) {s0 : State} (s : State) (c : GwyPkt) (h : Touch m s0 s) : Touch m s0 (State.tellBusy s c) := by
  unfold State.tellBusy
  repeat' (first | (with_reducible first | assumption | apply State.setEp_touch | apply State.respond_touch) | (with_reducible show Sub _ _; exact hm.of rfl) | extract_lets | refine Touch.ofPair ‹_ = (_, _)› ?_ | split | dsimp -zeta only | dsimp -zeta +zetaDelta only)
theorem execCertGet_touch {m : Nat} (hm : Sub 0x40003C20 m) {s0 : State} (s : State) (h : Touch m s0 s) : TouchO m s0 (execCertGet s) := by
  unfold execCertGet
  repeat' (first | (with_reducible first | assumption | apply TouchO.next | apply State.respond_touch | apply State.tellBusy_touch) | (with_reducible show Sub _ _; exact hm.of rfl) | refine State.takeOp_touch (hm.of rfl) ‹_› ?_ | refine State.acceptCmd_touch (hm.of rfl) ‹_› ?_ | extract_lets | refine Touch.ofPair ‹_ = (_, _)› ?_ | split | dsimp -zeta only | dsimp -zeta +zetaDelta only)
theorem execAttest_touch {m : Nat} (hm : Sub 0x840003C20 m) {s0 : State} (pv : Nat) (s : State) (h : Touch m s0 s) : TouchO m s0 (execAttest pv s) := by
  unfold execAttest
  repeat' (first | (with_reducible first | assumption | apply TouchO.next | apply State.sign_touch | apply State.respond_touch | apply State.tellBusy_touch) | (with_reducible show Sub _ _; exact hm.of rfl) | refine State.takeCmd_touch (hm.of rfl) ‹_› ?_ | refine State.acceptCmd_touch (hm.of rfl) ‹_› ?_ | extract_lets | refine Touch.ofPair ‹_ = (_, _)› ?_ | split | dsimp -zeta only | dsimp -zeta +zetaDelta only)
theorem execFwStage_touch {m : Nat} (hm : Sub 0x60003C20 m) {s0 : State} (s : State) (h : Touch m s0 s) : TouchO m s0 (execFwStage s) := by
  unfold execFwStage
  repeat' (first | (with_reducible first | assumption | apply TouchO.next | apply State.respond_touch | apply State.setComp_touch) | (with_reducible show Sub _ _; exact hm.of rfl) | refine State.takeOp_touch (hm.of rfl) ‹_› ?_ | refine State.acceptCmd_touch (hm.of rfl) ‹_› ?_ | extract_lets | refine Touch.ofPair ‹_ = (_, _)› ?_ | split | dsimp -zeta only | dsimp -zeta +zetaDelta only)
theorem State.fwEvent_touch {m : Nat} (hm : Sub 0x144001400 m) {s0 : State} (s : State) (comp : Nat) (res : Nat) (ver : Nat) (h : Touch m s0 s) : Touch m s0 (State.fwEvent s comp res ver) := by
  unfold State.fwEvent
  repeat' (first | (with_reducible first | assumption | apply State.eventMgmt_touch) | (with_reducible show Sub _ _; exact hm.of rfl) | extract_lets | refine Touch.ofPair ‹_ = (_, _)› ?_ | split | dsimp -zeta only | dsimp -zeta +zetaDelta only)
theorem State.setLive_touch {m : Nat} (hm : Sub 0x100000000 m) {s0 : State} (s : State) (pg : Nat × Nat) (wait : Bool) (now : Bool) (h : Touch m s0 s) : Touch m s0 (State.setLive s pg wait now) := by
  unfold State.setLive
  repeat' (first | (with_reducible first | assumption | apply State.setHdr_touch) | (with_reducible show Sub _ _; exact hm.of rfl) | extract_lets | refine Touch.ofPair ‹_ = (_, _)› ?_ | split | dsimp -zeta only | dsimp -zeta +zetaDelta only)
theorem State.resume_touch {m : Nat} (hm : Sub 0x1441C1400 m) {s0 : State} (s : State) (c : Nat) (h : Touch m s0 s) : Touch m s0 (State.resume s c) := by
  unfold State.resume
  repeat' (first | (with_reducible intro _) | (with_reducible first | assumption | apply State.nextWl_touch | apply State.notice_touch | apply State.each_touch) | (with_reducible show Sub _ _; exact hm.of rfl) | extract_lets | refine Touch.ofPair ‹_ = (_, _)› ?_ | split | dsimp -zeta only | dsimp -zeta +zetaDelta only)
theorem State.endLive_touch {m : Nat} (hm : Sub 0x1441C1400 m) {s0 : State} (s : State) (pg : Nat × Nat) (h : Touch m s0 s) : Touch m s0 (State.endLive s pg) := by
  unfold State.endLive
  repeat' (first | (with_reducible intro _) | (with_reducible first | assumption | apply State.resume_touch | apply State.setLive_touch | apply State.each_touch) | (with_reducible show Sub _ _; exact hm.of rfl) | extract_lets | refine Touch.ofPair ‹_ = (_, _)› ?_ | split | dsimp -zeta only | dsimp -zeta +zetaDelta only)
theorem State.liveStep_touch {m : Nat} (hm : Sub 0x1441C1400 m) {s0 : State} (s : State) (h : Touch m s0 s) : Touch m s0 (State.liveStep s) := by
  unfold State.liveStep
  repeat' (first | (with_reducible intro _) | (with_reducible first | assumption | apply State.endLive_touch | apply State.setLive_touch | apply State.each_touch) | (with_reducible show Sub _ _; exact hm.of rfl) | extract_lets | refine Touch.ofPair ‹_ = (_, _)› ?_ | split | dsimp -zeta only | dsimp -zeta +zetaDelta only)
theorem State.fwBegin_touch {m : Nat} (hm : Sub 0x17C1C1404 m) {s0 : State} (s : State) (comp : Nat) (h : Touch m s0 s) : Touch m s0 (State.fwBegin s comp) := by
  unfold State.fwBegin
  extract_lets
  refine State.liveStep_touch (hm.of rfl) _ (State.each_touch (fun s f e => State.holdFloe_touch (hm.of rfl) s f e) (State.each_touch (fun s g e => State.setLive_touch (hm.of rfl) s g _ _ e) ?_))
  refine State.setSec_touch (hm.of rfl) _ _ (Touch.upd_fuses (hm.of rfl) (FuseLe.ofRoll _ _ _) ?_)
  exact State.setComp_touch (hm.of rfl) _ _ _ h
theorem execFwActivate_touch {m : Nat} (hm : Sub 0x97C1C3C24 m) {s0 : State} (s : State) (h : Touch m s0 s) : TouchO m s0 (execFwActivate s) := by
  unfold execFwActivate
  repeat' (first | (with_reducible first | assumption | apply TouchO.next | apply State.authFail_touch | apply State.fwBegin_touch | apply State.audit_touch | apply State.respond_touch | apply State.fwEvent_touch | apply State.attestReady_touch) | (with_reducible show Sub _ _; exact hm.of rfl) | refine State.takeOp_touch (hm.of rfl) ‹_› ?_ | refine State.acceptCmd_touch (hm.of rfl) ‹_› ?_ | extract_lets | refine Touch.ofPair ‹_ = (_, _)› ?_ | split | dsimp -zeta only | dsimp -zeta +zetaDelta only)
theorem execFwActivated_touch {m : Nat} (hm : Sub 0x16E1C1400 m) {s0 : State} (s : State) (h : Touch m s0 s) : TouchO m s0 (execFwActivated s) := by
  unfold execFwActivated
  repeat' (first | (with_reducible intro _) | (with_reducible first | assumption | apply TouchO.next | apply State.endLive_touch | apply State.setSec_touch | apply State.setRst_touch | apply State.fwEvent_touch | apply State.attestReady_touch | apply State.newEpoch_touch | apply State.setFlash_touch | apply State.each_touch) | (with_reducible show Sub _ _; exact hm.of rfl) | extract_lets | refine Touch.ofPair ‹_ = (_, _)› ?_ | split | dsimp -zeta only | dsimp -zeta +zetaDelta only)
theorem State.fwRelease_touch {m : Nat} (hm : Sub 0x4 m) {s0 : State} (s : State) (f : Nat) (h : Touch m s0 s) : Touch m s0 (State.fwRelease s f) := by
  unfold State.fwRelease
  repeat' (first | (with_reducible first | assumption | apply State.setFloe_touch) | (with_reducible show Sub _ _; exact hm.of rfl) | extract_lets | refine Touch.ofPair ‹_ = (_, _)› ?_ | split | dsimp -zeta only | dsimp -zeta +zetaDelta only)
theorem execFwQuietPoint_touch {m : Nat} (hm : Sub 0x108000004 m) {s0 : State} (f : Nat) (s : State) (h : Touch m s0 s) : TouchO m s0 (execFwQuietPoint f s) := by
  unfold execFwQuietPoint
  repeat' (first | (with_reducible first | assumption | apply TouchO.next | apply State.setLive_touch | apply State.fwRelease_touch | apply State.setSec_touch) | (with_reducible show Sub _ _; exact hm.of rfl) | extract_lets | refine Touch.ofPair ‹_ = (_, _)› ?_ | split | dsimp -zeta only | dsimp -zeta +zetaDelta only)
theorem execFwHoldTimeout_touch {m : Nat} (hm : Sub 0x108000004 m) {s0 : State} (f : Nat) (s : State) (h : Touch m s0 s) : TouchO m s0 (execFwHoldTimeout f s) := by
  unfold execFwHoldTimeout
  repeat' (first | (with_reducible first | assumption | apply TouchO.next | apply State.setHdr_touch | apply State.fwRelease_touch | apply State.setSec_touch) | (with_reducible show Sub _ _; exact hm.of rfl) | extract_lets | refine Touch.ofPair ‹_ = (_, _)› ?_ | split | dsimp -zeta only | dsimp -zeta +zetaDelta only)
theorem execFwRehold_touch {m : Nat} (hm : Sub 0x8040004 m) {s0 : State} (f : Nat) (s : State) (h : Touch m s0 s) : TouchO m s0 (execFwRehold f s) := by
  unfold execFwRehold
  repeat' (first | (with_reducible first | assumption | apply TouchO.next | apply State.setSec_touch | apply State.holdFloe_touch) | (with_reducible show Sub _ _; exact hm.of rfl) | extract_lets | refine Touch.ofPair ‹_ = (_, _)› ?_ | split | dsimp -zeta only | dsimp -zeta +zetaDelta only)
theorem execFwStatus_touch {m : Nat} (hm : Sub 0x40003C20 m) {s0 : State} (s : State) (h : Touch m s0 s) : TouchO m s0 (execFwStatus s) := by
  unfold execFwStatus
  repeat' (first | (with_reducible first | assumption | apply TouchO.next | apply State.respond_touch) | (with_reducible show Sub _ _; exact hm.of rfl) | refine State.takeOp_touch (hm.of rfl) ‹_› ?_ | refine State.acceptCmd_touch (hm.of rfl) ‹_› ?_ | extract_lets | refine Touch.ofPair ‹_ = (_, _)› ?_ | split | dsimp -zeta only | dsimp -zeta +zetaDelta only)
theorem execPresenceAssertion_touch {m : Nat} (hm : Sub 0x8000000 m) {s0 : State} (s : State) (h : Touch m s0 s) : TouchO m s0 (execPresenceAssertion s) := by
  unfold execPresenceAssertion
  repeat' (first | (with_reducible first | assumption | apply TouchO.next | apply State.setSec_touch) | (with_reducible show Sub _ _; exact hm.of rfl) | extract_lets | refine Touch.ofPair ‹_ = (_, _)› ?_ | split | dsimp -zeta only | dsimp -zeta +zetaDelta only)
theorem execPresenceExpiry_touch {m : Nat} (hm : Sub 0x8000000 m) {s0 : State} (s : State) (h : Touch m s0 s) : TouchO m s0 (execPresenceExpiry s) := by
  unfold execPresenceExpiry
  repeat' (first | (with_reducible first | assumption | apply TouchO.next | apply State.setSec_touch) | (with_reducible show Sub _ _; exact hm.of rfl) | extract_lets | refine Touch.ofPair ‹_ = (_, _)› ?_ | split | dsimp -zeta only | dsimp -zeta +zetaDelta only)
theorem execSealPatternChange_touch {m : Nat} (hm : Sub 0x96C001400 m) {s0 : State} (returned : Bool) (s : State) (h : Touch m s0 s) : TouchO m s0 (execSealPatternChange returned s) := by
  unfold execSealPatternChange
  repeat' (first | (with_reducible first | assumption | apply TouchO.next | apply State.setSec_touch | apply State.audit_touch | apply State.raiseSure_touch | apply State.setFlash_touch) | (with_reducible show Sub _ _; exact hm.of rfl) | extract_lets | refine Touch.ofPair ‹_ = (_, _)› ?_ | split | dsimp -zeta only | dsimp -zeta +zetaDelta only)
theorem State.privEnd_touch {m : Nat} (hm : Sub 0x964003400 m) {s0 : State} (s : State) (c : GwyPkt) (st : Nat) (det : Nat) (h : Touch m s0 s) : Touch m s0 (State.privEnd s c st det) := by
  unfold State.privEnd
  repeat' (first | (with_reducible first | assumption | apply State.authFail_touch | apply State.audit_touch | apply State.respond_touch) | (with_reducible show Sub _ _; exact hm.of rfl) | extract_lets | refine Touch.ofPair ‹_ = (_, _)› ?_ | split | dsimp -zeta only | dsimp -zeta +zetaDelta only)
theorem State.runPriv_touch {m : Nat} (hm : Sub 0x964003420 m) {s0 : State} (s : State) (c : GwyPkt) (op : Nat) (n : Nat) (k : Nat) (needs : Bool) (signed : Bool) (limits : Option (Nat × Nat)) (effect : State → State) (h_effect : ∀ (y0 : State) (_ : Touch m s0 y0), Touch m s0 (effect y0)) (h : Touch m s0 s) : Touch m s0 (State.runPriv s c op n k needs signed limits effect) := by
  unfold State.runPriv
  repeat' (first | (with_reducible first | assumption | apply h_effect | apply State.authFail_touch | apply State.respond_touch | apply State.privEnd_touch) | (with_reducible show Sub _ _; exact hm.of rfl) | refine State.acceptCmd_touch (hm.of rfl) ‹_› ?_ | extract_lets | refine Touch.ofPair ‹_ = (_, _)› ?_ | split | dsimp -zeta only | dsimp -zeta +zetaDelta only)
theorem execOwnerChange_touch {m : Nat} (hm : Sub 0x974003C20 m) {s0 : State} (s : State) (h : Touch m s0 s) : TouchO m s0 (execOwnerChange s) := by
  unfold execOwnerChange
  split
  · exact TouchO.next h
  · exact TouchO.next (State.runPriv_touch (hm.of rfl) _ _ _ _ _ _ _ _ _ (fun _ e => Touch.upd_fuses (hm.of rfl) (FuseLe.ofOwner _ 1) (State.setFlash_touch (hm.of rfl) _ _ e)) (State.takeOp_touch (hm.of rfl) ‹_› h))
theorem execDebugEnable_touch {m : Nat} (hm : Sub 0xF6C1C3DFC m) {s0 : State} (s : State) (h : Touch m s0 s) : TouchO m s0 (execDebugEnable s) := by
  unfold execDebugEnable
  repeat' (first | (with_reducible intro _) | (with_reducible first | assumption | apply TouchO.next | apply State.beginThaw_touch | apply State.setSec_touch | apply State.runPriv_touch | apply State.each_touch) | (with_reducible show Sub _ _; exact hm.of rfl) | refine State.takeOp_touch (hm.of rfl) ‹_› ?_ | extract_lets | refine Touch.ofPair ‹_ = (_, _)› ?_ | split | dsimp -zeta only | dsimp -zeta +zetaDelta only)
theorem execDebugLock_touch {m : Nat} (hm : Sub 0x974003C20 m) {s0 : State} (s : State) (h : Touch m s0 s) : TouchO m s0 (execDebugLock s) := by
  unfold execDebugLock
  split
  · exact TouchO.next h
  · exact TouchO.next (State.runPriv_touch (hm.of rfl) _ _ _ _ _ _ _ _ _ (fun _ e => Touch.upd_fuses (hm.of rfl) (FuseLe.ofLock _) e) (State.takeOp_touch (hm.of rfl) ‹_› h))
theorem execKeyRevoke_touch {m : Nat} (hm : Sub 0x974003C20 m) {s0 : State} (s : State) (h : Touch m s0 s) : TouchO m s0 (execKeyRevoke s) := by
  unfold execKeyRevoke
  split
  · exact TouchO.next h
  · refine TouchO.next (State.runPriv_touch (hm.of rfl) _ _ _ _ _ _ _ _ _ (fun s e => ?_) (State.takeOp_touch (hm.of rfl) ‹_› h))
    split
    · exact State.setFlash_touch (hm.of rfl) _ _ e
    · exact Touch.upd_fuses (hm.of rfl) (FuseLe.ofRevoke _ _) e
theorem execMfgMode_touch {m : Nat} (hm : Sub 0x96C003C20 m) {s0 : State} (s : State) (h : Touch m s0 s) : TouchO m s0 (execMfgMode s) := by
  unfold execMfgMode
  repeat' (first | (with_reducible intro _) | (with_reducible first | assumption | apply TouchO.next | apply State.setSec_touch | apply State.runPriv_touch) | (with_reducible show Sub _ _; exact hm.of rfl) | refine State.takeOp_touch (hm.of rfl) ‹_› ?_ | extract_lets | refine Touch.ofPair ‹_ = (_, _)› ?_ | split | dsimp -zeta only | dsimp -zeta +zetaDelta only)
theorem execImageKeyEnroll_touch {m : Nat} (hm : Sub 0x964003C20 m) {s0 : State} (s : State) (h : Touch m s0 s) : TouchO m s0 (execImageKeyEnroll s) := by
  unfold execImageKeyEnroll
  repeat' (first | (with_reducible intro _) | (with_reducible first | assumption | apply TouchO.next | apply State.runPriv_touch | apply State.setFlash_touch) | (with_reducible show Sub _ _; exact hm.of rfl) | refine State.takeOp_touch (hm.of rfl) ‹_› ?_ | extract_lets | refine Touch.ofPair ‹_ = (_, _)› ?_ | split | dsimp -zeta only | dsimp -zeta +zetaDelta only)
theorem execImageMinVersion_touch {m : Nat} (hm : Sub 0x964003C20 m) {s0 : State} (s : State) (h : Touch m s0 s) : TouchO m s0 (execImageMinVersion s) := by
  unfold execImageMinVersion
  repeat' (first | (with_reducible intro _) | (with_reducible first | assumption | apply TouchO.next | apply State.runPriv_touch | apply State.setFlash_touch) | (with_reducible show Sub _ _; exact hm.of rfl) | refine State.takeOp_touch (hm.of rfl) ‹_› ?_ | extract_lets | refine Touch.ofPair ‹_ = (_, _)› ?_ | split | dsimp -zeta only | dsimp -zeta +zetaDelta only)

end Sys2Proof.Machine
end

