-- ==== Sys2Proof/Laws/TouchClock.lean ====
section
/-! SUPPORT. What every operation of Machine/Clock.lean may touch (Sys2Proof.Machine.Touch). -/

namespace Sys2Proof.Machine

set_option linter.all false

theorem idle_touch {m : Nat} (hm : Sub 0x1665FBF94 m) {s0 : State} (s : State) (h : Touch m s0 s) : Touch m s0 (idle s) := by
  unfold idle
  repeat' (first | (with_reducible first | assumption | apply State.duties_touch | apply State.liveStep_touch) | (with_reducible show Sub _ _; exact hm.of rfl) | simp -zeta only [Touch.upd_timeI (hm.of rfl)] | extract_lets | refine Touch.ofPair ‹_ = (_, _)› ?_ | split | dsimp -zeta only | dsimp -zeta +zetaDelta only)

end Sys2Proof.Machine
end

