-- ==== Sys2Proof/Laws/TouchPins.lean ====
section
/-! SUPPORT. What every operation of Machine/Pins.lean may touch (Sys2Proof.Machine.Touch). -/

namespace Sys2Proof.Machine

set_option linter.all false

theorem State.freshLink_touch {m : Nat} (hm : Sub 0x400 m) {s0 : State} (s : State) (h : Touch m s0 s) : Touch m s0 (State.freshLink s) := by
  unfold State.freshLink
  repeat' (first | (with_reducible intro _) | (with_reducible first | assumption | apply State.setEp_touch | apply State.each_touch) | (with_reducible show Sub _ _; exact hm.of rfl) | extract_lets | refine Touch.ofPair ‹_ = (_, _)› ?_ | split | dsimp -zeta only | dsimp -zeta +zetaDelta only)
theorem execUcieLinkUp_touch {m : Nat} (hm : Sub 0x144007C00 m) {s0 : State} (module : Nat) (half : Bool) (s : State) (h : Touch m s0 s) : TouchO m s0 (execUcieLinkUp module half s) := by
  unfold execUcieLinkUp
  repeat' (first | (with_reducible first | assumption | apply TouchO.next | apply State.frameAll_touch | apply State.freshLink_touch | apply State.raise_touch | apply State.setMod_touch) | (with_reducible show Sub _ _; exact hm.of rfl) | extract_lets | refine Touch.ofPair ‹_ = (_, _)› ?_ | split | dsimp -zeta only | dsimp -zeta +zetaDelta only)
theorem State.linkDown_touch {m : Nat} (hm : Sub 0x4C00 m) {s0 : State} (s : State) (h : Touch m s0 s) : Touch m s0 (State.linkDown s) := by
  unfold State.linkDown
  repeat' (first | (with_reducible intro _) | (with_reducible first | assumption | apply State.setEp_touch | apply State.setMod_touch | apply State.each_touch) | (with_reducible show Sub _ _; exact hm.of rfl) | simp -zeta only [Touch.upd_cmdqI (hm.of rfl)] | extract_lets | refine Touch.ofPair ‹_ = (_, _)› ?_ | split | dsimp -zeta only | dsimp -zeta +zetaDelta only)
theorem execUcieLinkDown_touch {m : Nat} (hm : Sub 0x40005C00 m) {s0 : State} (s : State) (h : Touch m s0 s) : TouchO m s0 (execUcieLinkDown s) := by
  unfold execUcieLinkDown
  repeat' (first | (with_reducible intro _) | (with_reducible first | assumption | apply TouchO.next | apply State.linkDown_touch | apply State.linkReset_touch | apply State.each_touch) | (with_reducible show Sub _ _; exact hm.of rfl) | extract_lets | refine Touch.ofPair ‹_ = (_, _)› ?_ | split | dsimp -zeta only | dsimp -zeta +zetaDelta only)
theorem execUcieLaneRepair_touch {m : Nat} (hm : Sub 0x144005400 m) {s0 : State} (module : Nat) (spareLane : Bool) (retries : Nat) (s : State) (h : Touch m s0 s) : TouchO m s0 (execUcieLaneRepair module spareLane retries s) := by
  unfold execUcieLaneRepair
  repeat' (first | (with_reducible first | assumption | apply TouchO.next | apply State.rasReport_touch | apply State.raise_touch | apply State.setMod_touch) | (with_reducible show Sub _ _; exact hm.of rfl) | extract_lets | refine Touch.ofPair ‹_ = (_, _)› ?_ | split | dsimp -zeta only | dsimp -zeta +zetaDelta only)
theorem execI3cBootRead_touch {m : Nat} (hm : Sub 0x2000 m) {s0 : State} (s : State) (h : Touch m s0 s) : TouchO m s0 (execI3cBootRead s) := by
  unfold execI3cBootRead
  repeat' (first | (with_reducible first | assumption | apply TouchO.next) | (with_reducible show Sub _ _; exact hm.of rfl) | simp -zeta only [Touch.upd_i3cI (hm.of rfl)] | extract_lets | refine Touch.ofPair ‹_ = (_, _)› ?_ | split | dsimp -zeta only | dsimp -zeta +zetaDelta only)
theorem State.i3cArrive_touch {m : Nat} (hm : Sub 0x40003C00 m) {s0 : State} (s : State) (l : List Byte) (h : Touch m s0 s) : Touch m s0 (State.i3cArrive s l) := by
  unfold State.i3cArrive
  repeat' (first | (with_reducible first | assumption | apply State.respond_touch) | (with_reducible show Sub _ _; exact hm.of rfl) | simp -zeta only [Touch.upd_cmdq_i3cI (hm.of rfl)] | simp -zeta only [Touch.upd_i3cI (hm.of rfl)] | extract_lets | refine Touch.ofPair ‹_ = (_, _)› ?_ | split | dsimp -zeta only | dsimp -zeta +zetaDelta only)
theorem execI3cCommand_touch {m : Nat} (hm : Sub 0x40003C00 m) {s0 : State} (bytes : List Byte) (s : State) (h : Touch m s0 s) : TouchO m s0 (execI3cCommand bytes s) := by
  unfold execI3cCommand
  repeat' (first | (with_reducible first | assumption | apply TouchO.next | apply State.i3cArrive_touch) | (with_reducible show Sub _ _; exact hm.of rfl) | extract_lets | refine Touch.ofPair ‹_ = (_, _)› ?_ | split | dsimp -zeta only | dsimp -zeta +zetaDelta only)
theorem execI3cResponseRead_touch {m : Nat} (hm : Sub 0x2000 m) {s0 : State} (s : State) (h : Touch m s0 s) : TouchO m s0 (execI3cResponseRead s) := by
  unfold execI3cResponseRead
  repeat' (first | (with_reducible first | assumption | apply TouchO.next) | (with_reducible show Sub _ _; exact hm.of rfl) | simp -zeta only [Touch.upd_i3cI (hm.of rfl)] | extract_lets | refine Touch.ofPair ‹_ = (_, _)› ?_ | split | dsimp -zeta only | dsimp -zeta +zetaDelta only)
theorem execI3cDynamicAddress_touch {m : Nat} (hm : Sub 0x2000 m) {s0 : State} (addr : BitVec 7) (s : State) (h : Touch m s0 s) : TouchO m s0 (execI3cDynamicAddress addr s) := by
  unfold execI3cDynamicAddress
  repeat' (first | (with_reducible first | assumption | apply TouchO.next) | (with_reducible show Sub _ _; exact hm.of rfl) | simp -zeta only [Touch.upd_i3cI (hm.of rfl)] | extract_lets | refine Touch.ofPair ‹_ = (_, _)› ?_ | split | dsimp -zeta only | dsimp -zeta +zetaDelta only)
theorem execJtagBoundaryScan_touch {m : Nat} (hm : Sub 0x80000000 m) {s0 : State} (instruction : Nat) (s : State) (h : Touch m s0 s) : TouchO m s0 (execJtagBoundaryScan instruction s) := by
  unfold execJtagBoundaryScan
  repeat' (first | (with_reducible first | assumption | apply TouchO.next) | (with_reducible show Sub _ _; exact hm.of rfl) | simp -zeta only [Touch.upd_jtagI (hm.of rfl)] | extract_lets | refine Touch.ofPair ‹_ = (_, _)› ?_ | split | dsimp -zeta only | dsimp -zeta +zetaDelta only)
theorem execTrstN_touch {m : Nat} (hm : Sub 0x80000000 m) {s0 : State} (s : State) (h : Touch m s0 s) : TouchO m s0 (execTrstN s) := by
  unfold execTrstN
  repeat' (first | (with_reducible first | assumption | apply TouchO.next) | (with_reducible show Sub _ _; exact hm.of rfl) | simp -zeta only [Touch.upd_jtagI (hm.of rfl)] | extract_lets | refine Touch.ofPair ‹_ = (_, _)› ?_ | split | dsimp -zeta only | dsimp -zeta +zetaDelta only)
theorem execJtagDebugAccess_touch {m : Nat} (hm : Sub 0x0 m) {s0 : State} (target : Nat) (s : State) (h : Touch m s0 s) : TouchO m s0 (execJtagDebugAccess target s) := by
  unfold execJtagDebugAccess
  repeat' (first | (with_reducible first | assumption | apply TouchO.next | exact TouchO.refused) | extract_lets | refine Touch.ofPair ‹_ = (_, _)› ?_ | split | dsimp -zeta only | dsimp -zeta +zetaDelta only)

end Sys2Proof.Machine
end

