-- ==== Sys2Proof/Laws/TouchReset.lean ====
section
/-! SUPPORT. What every operation of Machine/Reset.lean may touch (Sys2Proof.Machine.Touch). -/

namespace Sys2Proof.Machine

set_option linter.all false

theorem State.applyRecord_touch {m : Nat} (hm : Sub 0x4000000 m) {s0 : State} (s : State) (e : Nat × Nat) (h : Touch m s0 s) : Touch m s0 (State.applyRecord s e) := by
  unfold State.applyRecord
  repeat' (first | (with_reducible first | assumption | apply State.setRas_touch) | (with_reducible show Sub _ _; exact hm.of rfl) | extract_lets | refine Touch.ofPair ‹_ = (_, _)› ?_ | split | dsimp -zeta only | dsimp -zeta +zetaDelta only)
theorem State.remap_touch {m : Nat} (hm : Sub 0x4000000 m) {s0 : State} (s : State) (h : Touch m s0 s) : Touch m s0 (State.remap s) := by
  unfold State.remap
  repeat' (first | (with_reducible intro _) | (with_reducible first | assumption | apply State.applyRecord_touch | apply State.each_touch) | (with_reducible show Sub _ _; exact hm.of rfl) | extract_lets | refine Touch.ofPair ‹_ = (_, _)› ?_ | split | dsimp -zeta only | dsimp -zeta +zetaDelta only)
theorem State.coldClear_touch {m : Nat} (hm : Sub 0x7CFFFEFFE m) {s0 : State} (s : State) (straps : Straps) (h : Touch m s0 s) : Touch m s0 (State.coldClear s straps) := by
  unfold State.coldClear
  extract_lets b r
  have hr : Touch m s0 r := ⟨h.variant, fun e => (hm.not rfl e).elim, fun e => (hm.not rfl e).elim, fun e => (hm.not rfl e).elim, fun e => (hm.not rfl e).elim, fun e => (hm.not rfl e).elim, fun e => (hm.not rfl e).elim, fun e => (hm.not rfl e).elim, fun e => (hm.not rfl e).elim, fun e => (hm.not rfl e).elim, fun e => (hm.not rfl e).elim, fun e => (hm.not rfl e).elim, h.msis, fun e => (hm.not rfl e).elim, fun e => (hm.not rfl e).elim, fun e => (hm.not rfl e).elim, fun e => (hm.not rfl e).elim, fun e => (hm.not rfl e).elim, fun e => (hm.not rfl e).elim, fun e => (hm.not rfl e).elim, fun e => (hm.not rfl e).elim, fun e => (hm.not rfl e).elim, fun e => (hm.not rfl e).elim, fun e => (hm.not rfl e).elim, fun e => (hm.not rfl e).elim, fun e => (hm.not rfl e).elim, fun e => (hm.not rfl e).elim, fun e => (hm.not rfl e).elim, h.fuses, h.flash, fun e => (hm.not rfl e).elim, fun e => (hm.not rfl e).elim, fun e => (hm.not rfl e).elim, fun e => (hm.not rfl e).elim, fun e => (hm.not rfl e).elim, h.fresh, h.pending, fun _ => rfl, h.fuseLe⟩
  clear_value r
  exact State.remap_touch (hm.of rfl) _ (State.each_touch (fun t i e => State.reapplyRetired_touch (hm.of rfl) _ _ e) (State.each_touch (fun t n e => State.setOedPort_touch (hm.of rfl) _ _ _ e) (State.each_touch (fun t c e => State.setChip_touch (hm.of rfl) _ _ _ e) hr)))
theorem State.coldReset_touch {m : Nat} (hm : Sub 0x7CFFFFFFE m) {s0 : State} (s : State) (cause : BitVec 7) (straps : Straps) (trip : Bool) (h : Touch m s0 s) : Touch m s0 (State.coldReset s cause straps trip) := by
  unfold State.coldReset
  repeat' (first | (with_reducible first | assumption | apply State.coldClear_touch | apply State.setRst_touch | apply State.raise_touch) | (with_reducible show Sub _ _; exact hm.of rfl) | extract_lets | refine Touch.ofPair ‹_ = (_, _)› ?_ | split | dsimp -zeta only | dsimp -zeta +zetaDelta only)
theorem execPor_touch {m : Nat} (hm : Sub 0x7CFFFFFFE m) {s0 : State} (straps : Straps) (vio18 : Bool) (s : State) (h : Touch m s0 s) : TouchO m s0 (execPor straps vio18 s) := by
  unfold execPor
  repeat' (first | (with_reducible first | assumption | apply TouchO.next | apply State.coldReset_touch) | (with_reducible show Sub _ _; exact hm.of rfl) | extract_lets | refine Touch.ofPair ‹_ = (_, _)› ?_ | split | dsimp -zeta only | dsimp -zeta +zetaDelta only)
theorem execResetN_touch {m : Nat} (hm : Sub 0x7CFFFFFFE m) {s0 : State} (straps : Straps) (s : State) (h : Touch m s0 s) : TouchO m s0 (execResetN straps s) := by
  unfold execResetN
  repeat' (first | (with_reducible first | assumption | apply TouchO.next | apply State.coldReset_touch) | (with_reducible show Sub _ _; exact hm.of rfl) | extract_lets | refine Touch.ofPair ‹_ = (_, _)› ?_ | split | dsimp -zeta only | dsimp -zeta +zetaDelta only)
theorem State.fatalReset_touch {m : Nat} (hm : Sub 0x7EFFFFFFE m) {s0 : State} (s : State) (die : Nat) (page : Nat) (bit : Nat) (straps : Straps) (h : Touch m s0 s) : Touch m s0 (State.fatalReset s die page bit straps) := by
  unfold State.fatalReset
  repeat' (first | (with_reducible first | assumption | apply State.coldReset_touch | apply State.setFlash_touch) | (with_reducible show Sub _ _; exact hm.of rfl) | extract_lets | refine Touch.ofPair ‹_ = (_, _)› ?_ | split | dsimp -zeta only | dsimp -zeta +zetaDelta only)
theorem execFatal_touch {m : Nat} (hm : Sub 0x7EFFFFFFE m) {s0 : State} (die : Nat) (page : Nat) (bit : Nat) (straps : Straps) (s : State) (h : Touch m s0 s) : TouchO m s0 (execFatal die page bit straps s) := by
  unfold execFatal
  repeat' (first | (with_reducible first | assumption | apply TouchO.next | apply State.fatalReset_touch) | (with_reducible show Sub _ _; exact hm.of rfl) | extract_lets | refine Touch.ofPair ‹_ = (_, _)› ?_ | split | dsimp -zeta only | dsimp -zeta +zetaDelta only)
theorem execRegulatorPhaseLoss_touch {m : Nat} (hm : Sub 0x7EFFFFFFE m) {s0 : State} (rail : Nat) (straps : Straps) (s : State) (h : Touch m s0 s) : TouchO m s0 (execRegulatorPhaseLoss rail straps s) := by
  unfold execRegulatorPhaseLoss
  repeat' (first | (with_reducible first | assumption | apply TouchO.next | apply State.setRas_touch | apply State.fatalReset_touch | apply State.rasReport_touch) | (with_reducible show Sub _ _; exact hm.of rfl) | extract_lets | refine Touch.ofPair ‹_ = (_, _)› ?_ | split | dsimp -zeta only | dsimp -zeta +zetaDelta only)
theorem State.fallback_touch {m : Nat} (hm : Sub 0x20000000 m) {s0 : State} (s : State) (comp : Nat) (h : Touch m s0 s) : Touch m s0 (State.fallback s comp) := by
  unfold State.fallback
  repeat' (first | (with_reducible first | assumption | apply State.setComp_touch) | (with_reducible show Sub _ _; exact hm.of rfl) | extract_lets | refine Touch.ofPair ‹_ = (_, _)› ?_ | split | dsimp -zeta only | dsimp -zeta +zetaDelta only)
theorem State.atStep_touch {m : Nat} (hm : Sub 0x2000000 m) {s0 : State} (s : State) (n : Nat) (h : Touch m s0 s) : Touch m s0 (State.atStep s n) := by
  unfold State.atStep
  repeat' (first | (with_reducible first | assumption | apply State.setRst_touch) | (with_reducible show Sub _ _; exact hm.of rfl) | extract_lets | refine Touch.ofPair ‹_ = (_, _)› ?_ | split | dsimp -zeta only | dsimp -zeta +zetaDelta only)
theorem State.selfTestFail_touch {m : Nat} (hm : Sub 0x34000010 m) {s0 : State} (s : State) (site : Nat) (h : Touch m s0 s) : Touch m s0 (State.selfTestFail s site) := by
  unfold State.selfTestFail
  repeat' (first | (with_reducible first | assumption | apply State.writeRecord_touch | apply State.setRas_touch | apply State.loseGroup_touch | apply State.failSpare_touch) | (with_reducible show Sub _ _; exact hm.of rfl) | extract_lets | refine Touch.ofPair ‹_ = (_, _)› ?_ | split | dsimp -zeta only | dsimp -zeta +zetaDelta only)
theorem State.coldSteps_touch {m : Nat} (hm : Sub 0x17E061410 m) {s0 : State} (s : State) (bad : List Nat) (cxl : List CxlDev) (h : Touch m s0 s) : Touch m s0 (State.coldSteps s bad cxl) := by
  unfold State.coldSteps
  extract_lets s1 s2 ok s3 e1 e2 s4 s5 e3 s6
  have h1 : Touch m s0 s1 := State.each_touch (fun _ _ e => State.addCxl_touch (hm.of rfl) _ _ e) (State.each_touch (fun _ _ e => State.selfTestFail_touch (hm.of rfl) _ _ e) h)
  clear_value s1
  have h2 : Touch m s0 s2 := State.each_touch (fun _ _ e => State.setPerst_touch (hm.of rfl) _ _ _ e) h1
  clear_value s2
  have h3 : Touch m s0 s3 := (by first | exact Touch.upd_proc (hm.of rfl) h2)
  have h4 : Touch m s0 s4 := State.setSec_touch (hm.of rfl) _ _ (State.setRas_touch (hm.of rfl) _ _ h3)
  have h5 : Touch m s0 s5 := State.atStep_touch (hm.of rfl) _ _ (State.each_touch (fun _ _ e => State.relane_touch (hm.of rfl) _ _ e) h4)
  have h6 : Touch m s0 s6 := State.setRst_touch (hm.of rfl) _ _ h5
  clear_value s6
  split
  · exact h6
  · exact State.raiseRouter_touch (hm.of rfl) _ _ h6
theorem execColdResetReady_touch {m : Nat} (hm : Sub 0x17E061410 m) {s0 : State} (failedSites : List Nat) (cxl : List CxlDev) (flashOk : Bool) (s : State) (h : Touch m s0 s) : TouchO m s0 (execColdResetReady failedSites cxl flashOk s) := by
  unfold execColdResetReady
  repeat' (first | (with_reducible intro _) | (with_reducible first | assumption | apply TouchO.next | apply State.fallback_touch | apply State.coldSteps_touch | apply State.setRst_touch | apply State.atStep_touch | apply State.each_touch) | (with_reducible show Sub _ _; exact hm.of rfl) | extract_lets | refine Touch.ofPair ‹_ = (_, _)› ?_ | split | dsimp -zeta only | dsimp -zeta +zetaDelta only)
theorem State.warmSteps_touch {m : Nat} (hm : Sub 0x74E1E7DDC m) {s0 : State} (s : State) (h : Touch m s0 s) : Touch m s0 (State.warmSteps s) := by
  unfold State.warmSteps
  extract_lets units who s1 s2 s3 lo s4 s5 e1 s6 e2 s7
  have h1 : Touch m s0 s1 := State.each_touch (fun _ _ e => State.destroyKeys_touch (hm.of rfl) _ _ (State.abandonOpen_touch (hm.of rfl) _ _ e)) (State.linkDown_touch (hm.of rfl) _ h)
  clear_value s1
  have h2 : Touch m s0 s2 := by
    show Touch m s0 (if _ then _ else _)
    split
    · exact State.planRelease_touch (hm.of rfl) _ ((by first | exact Touch.upd_floes_signals_parts_mem_spBad_cmdq_i3c_ucie (hm.of rfl) (by first | exact dropBytes_wf _ _ | exact putBytes_wf _ _) h1 | exact Touch.upd_steer (hm.of rfl) h1))
    · exact h1
  clear_value s2
  have h3 : Touch m s0 s3 := State.newScrub_touch (hm.of rfl) _ h2
  clear_value s3
  have h4 : Touch m s0 s4 := (by first | exact Touch.upd_floes_signals_parts_mem_spBad_cmdq_i3c_ucie (hm.of rfl) (by first | exact dropBytes_wf _ _ | exact putBytes_wf _ _) h3 | exact Touch.upd_steer (hm.of rfl) h3)
  clear_value s4
  have h5 : Touch m s0 s5 := State.each_touch (fun _ _ e => State.resetPage_touch (hm.of rfl) _ _ _ e) h4
  clear_value s5
  have h6 : Touch m s0 s6 := State.setSec_touch (hm.of rfl) _ _ h5
  clear_value s6
  have h7 : Touch m s0 s7 := State.each_touch (fun _ _ e => State.setPerst_touch (hm.of rfl) _ _ _ e) (State.setRas_touch (hm.of rfl) _ _ h6)
  clear_value s7
  exact State.setRst_touch (hm.of rfl) _ _ h7
theorem State.warmReset_touch {m : Nat} (hm : Sub 0x74E1E7DDC m) {s0 : State} (s : State) (cause : BitVec 7) (h : Touch m s0 s) : Touch m s0 (State.warmReset s cause) := by
  unfold State.warmReset
  repeat' (first | (with_reducible first | assumption | apply State.setRst_touch | apply State.atStep_touch | apply State.warmSteps_touch) | (with_reducible show Sub _ _; exact hm.of rfl) | extract_lets | refine Touch.ofPair ‹_ = (_, _)› ?_ | split | dsimp -zeta only | dsimp -zeta +zetaDelta only)
theorem execWarmResetN_touch {m : Nat} (hm : Sub 0x74E1E7DDC m) {s0 : State} (s : State) (h : Touch m s0 s) : TouchO m s0 (execWarmResetN s) := by
  unfold execWarmResetN
  repeat' (first | (with_reducible first | assumption | apply TouchO.next | apply State.warmReset_touch) | (with_reducible show Sub _ _; exact hm.of rfl) | extract_lets | refine Touch.ofPair ‹_ = (_, _)› ?_ | split | dsimp -zeta only | dsimp -zeta +zetaDelta only)
theorem execWatchdog_touch {m : Nat} (hm : Sub 0x74E1E7DDC m) {s0 : State} (s : State) (h : Touch m s0 s) : TouchO m s0 (execWatchdog s) := by
  unfold execWatchdog
  repeat' (first | (with_reducible first | assumption | apply TouchO.next | apply State.raise_touch | apply State.warmReset_touch) | (with_reducible show Sub _ _; exact hm.of rfl) | extract_lets | refine Touch.ofPair ‹_ = (_, _)› ?_ | split | dsimp -zeta only | dsimp -zeta +zetaDelta only)
theorem execWarmResetStart_touch {m : Nat} (hm : Sub 0x74E1E7DDC m) {s0 : State} (s : State) (h : Touch m s0 s) : TouchO m s0 (execWarmResetStart s) := by
  unfold execWarmResetStart
  repeat' (first | (with_reducible first | assumption | apply TouchO.next | apply State.setRst_touch | apply State.warmReset_touch) | (with_reducible show Sub _ _; exact hm.of rfl) | extract_lets | refine Touch.ofPair ‹_ = (_, _)› ?_ | split | dsimp -zeta only | dsimp -zeta +zetaDelta only)
theorem State.resetDone_touch {m : Nat} (hm : Sub 0x144001400 m) {s0 : State} (s : State) (scope : Nat) (block : Nat) (h : Touch m s0 s) : Touch m s0 (State.resetDone s scope block) := by
  unfold State.resetDone
  repeat' (first | (with_reducible first | assumption | apply State.eventMgmt_touch) | (with_reducible show Sub _ _; exact hm.of rfl) | extract_lets | refine Touch.ofPair ‹_ = (_, _)› ?_ | split | dsimp -zeta only | dsimp -zeta +zetaDelta only)
theorem execWarmResetReady_touch {m : Nat} (hm : Sub 0x14E1FBF94 m) {s0 : State} (s : State) (h : Touch m s0 s) : TouchO m s0 (execWarmResetReady s) := by
  unfold execWarmResetReady
  repeat' (first | (with_reducible intro _) | (with_reducible first | assumption | apply TouchO.next | apply State.unmapLost_touch | apply State.setSec_touch | apply State.setNmc_touch | apply State.scrubUnit_touch | apply State.setRst_touch | apply State.resetDone_touch | apply State.atStep_touch | apply State.linkReset_touch | apply State.attestReady_touch | apply State.setPerst_touch | apply State.retrainCxl_touch | apply State.newEpoch_touch | apply State.each_touch) | (with_reducible show Sub _ _; exact hm.of rfl) | extract_lets | refine Touch.ofPair ‹_ = (_, _)› ?_ | split | dsimp -zeta only | dsimp -zeta +zetaDelta only)
theorem execResetPartition_touch {m : Nat} (hm : Sub 0xF4C1C3DBC m) {s0 : State} (pv : Nat) (s : State) (h : Touch m s0 s) : TouchO m s0 (execResetPartition pv s) := by
  unfold execResetPartition
  repeat' (first | (with_reducible first | assumption | apply TouchO.next | apply State.setPart_touch | apply State.resetPart_touch | apply State.respond_touch | apply State.attestReady_touch | apply State.newEpoch_touch | apply State.abandonOpen_touch) | (with_reducible show Sub _ _; exact hm.of rfl) | refine State.takeCmd_touch (hm.of rfl) ‹_› ?_ | refine State.acceptCmd_touch (hm.of rfl) ‹_› ?_ | extract_lets | refine Touch.ofPair ‹_ = (_, _)› ?_ | split | dsimp -zeta only | dsimp -zeta +zetaDelta only)
theorem execResetBlock_touch {m : Nat} (hm : Sub 0x14403BC24 m) {s0 : State} (s : State) (h : Touch m s0 s) : TouchO m s0 (execResetBlock s) := by
  unfold execResetBlock
  repeat' (first | (with_reducible first | assumption | apply TouchO.next | apply State.respond_touch | apply State.beginBlock_touch) | (with_reducible show Sub _ _; exact hm.of rfl) | refine State.takeOp_touch (hm.of rfl) ‹_› ?_ | refine State.acceptCmd_touch (hm.of rfl) ‹_› ?_ | simp -zeta only [Touch.upd_cmdqI (hm.of rfl)] | extract_lets | refine Touch.ofPair ‹_ = (_, _)› ?_ | split | dsimp -zeta only | dsimp -zeta +zetaDelta only)
theorem execResetDevice_touch {m : Nat} (hm : Sub 0x42003C20 m) {s0 : State} (s : State) (h : Touch m s0 s) : TouchO m s0 (execResetDevice s) := by
  unfold execResetDevice
  repeat' (first | (with_reducible first | assumption | apply TouchO.next | apply State.setRst_touch | apply State.respond_touch) | (with_reducible show Sub _ _; exact hm.of rfl) | refine State.takeOp_touch (hm.of rfl) ‹_› ?_ | refine State.acceptCmd_touch (hm.of rfl) ‹_› ?_ | extract_lets | refine Touch.ofPair ‹_ = (_, _)› ?_ | split | dsimp -zeta only | dsimp -zeta +zetaDelta only)
theorem execBlockResetEscalation_touch {m : Nat} (hm : Sub 0x14401BC04 m) {s0 : State} (die : Nat) (page : Nat) (s : State) (h : Touch m s0 s) : TouchO m s0 (execBlockResetEscalation die page s) := by
  unfold execBlockResetEscalation
  repeat' (first | (with_reducible first | assumption | apply TouchO.next | apply State.setHdr_touch | apply State.isolateBlock_touch | apply State.rasReport_touch | apply State.blockError_touch) | (with_reducible show Sub _ _; exact hm.of rfl) | extract_lets | refine Touch.ofPair ‹_ = (_, _)› ?_ | split | dsimp -zeta only | dsimp -zeta +zetaDelta only)
theorem State.resetBlockBody_touch {m : Nat} (hm : Sub 0xF441FFF9C m) {s0 : State} (s : State) (die : Nat) (page : Nat) (h : Touch m s0 s) : Touch m s0 (State.resetBlockBody s die page) := by
  unfold State.resetBlockBody
  repeat' (first | (with_reducible first | assumption | apply State.setFloe_touch | apply State.resetFloe_touch | apply State.setNmc_touch | apply State.setMod_touch | apply State.setPerst_touch | apply State.retrainCxl_touch | apply State.abandonFloe_touch) | (with_reducible show Sub _ _; exact hm.of rfl) | extract_lets | refine Touch.ofPair ‹_ = (_, _)› ?_ | split | dsimp -zeta only | dsimp -zeta +zetaDelta only)
theorem execBlockResetComplete_touch {m : Nat} (hm : Sub 0xF4C1FFF9C m) {s0 : State} (die : Nat) (page : Nat) (s : State) (h : Touch m s0 s) : TouchO m s0 (execBlockResetComplete die page s) := by
  unfold execBlockResetComplete
  repeat' (first | (with_reducible first | assumption | apply TouchO.next | apply State.frameAll_touch | apply State.setHdr_touch | apply State.resetBlockBody_touch | apply State.resetDone_touch | apply State.resetPage_touch | apply State.respond_touch | apply State.attestReady_touch | apply State.newEpoch_touch) | (with_reducible show Sub _ _; exact hm.of rfl) | simp -zeta only [Touch.upd_cmdqI (hm.of rfl)] | extract_lets | refine Touch.ofPair ‹_ = (_, _)› ?_ | split | dsimp -zeta only | dsimp -zeta +zetaDelta only)

end Sys2Proof.Machine
end

