-- ==== Sys2Proof/Laws/TouchThermal.lean ====
section
/-! SUPPORT. What every operation of Machine/Thermal.lean may touch (Sys2Proof.Machine.Touch). -/

namespace Sys2Proof.Machine

set_option linter.all false

theorem State.retarget_touch {m : Nat} (hm : Sub 0x800000 m) {s0 : State} (s : State) (die : Nat) (h : Touch m s0 s) : Touch m s0 (State.retarget s die) := by
  unfold State.retarget
  repeat' (first | (with_reducible first | assumption | apply State.setTherm_touch) | (with_reducible show Sub _ _; exact hm.of rfl) | extract_lets | refine Touch.ofPair ‹_ = (_, _)› ?_ | split | dsimp -zeta only | dsimp -zeta +zetaDelta only)
theorem State.thermalEvent_touch {m : Nat} (hm : Sub 0x144001400 m) {s0 : State} (s : State) (level : Nat) (die : Nat) (sensor : Nat) (h : Touch m s0 s) : Touch m s0 (State.thermalEvent s level die sensor) := by
  unfold State.thermalEvent
  repeat' (first | (with_reducible first | assumption | apply State.eventMgmt_touch) | (with_reducible show Sub _ _; exact hm.of rfl) | extract_lets | refine Touch.ofPair ‹_ = (_, _)› ?_ | split | dsimp -zeta only | dsimp -zeta +zetaDelta only)
theorem State.thermTrip_touch {m : Nat} (hm : Sub 0x7EFFFFFFE m) {s0 : State} (s : State) (die : Nat) (h : Touch m s0 s) : Touch m s0 (State.thermTrip s die) := by
  unfold State.thermTrip
  repeat' (first | (with_reducible first | assumption | apply State.coldReset_touch | apply State.setFlash_touch) | (with_reducible show Sub _ _; exact hm.of rfl) | extract_lets | refine Touch.ofPair ‹_ = (_, _)› ?_ | split | dsimp -zeta only | dsimp -zeta +zetaDelta only)
theorem State.warn_touch {m : Nat} (hm : Sub 0x144801400 m) {s0 : State} (s : State) (die : Nat) (sensor : Nat) (t : Int) (h : Touch m s0 s) : Touch m s0 (State.warn s die sensor t) := by
  unfold State.warn
  repeat' (first | (with_reducible first | assumption | apply State.setTherm_touch | apply State.thermalEvent_touch) | (with_reducible show Sub _ _; exact hm.of rfl) | extract_lets | refine Touch.ofPair ‹_ = (_, _)› ?_ | split | dsimp -zeta only | dsimp -zeta +zetaDelta only)
theorem State.throttle_touch {m : Nat} (hm : Sub 0x144801400 m) {s0 : State} (s : State) (die : Nat) (sensor : Nat) (t : Int) (h : Touch m s0 s) : Touch m s0 (State.throttle s die sensor t) := by
  unfold State.throttle
  repeat' (first | (with_reducible first | assumption | apply State.setTherm_touch | apply State.raise_touch | apply State.thermalEvent_touch) | (with_reducible show Sub _ _; exact hm.of rfl) | extract_lets | refine Touch.ofPair ‹_ = (_, _)› ?_ | split | dsimp -zeta only | dsimp -zeta +zetaDelta only)
theorem execThermalSample_touch {m : Nat} (hm : Sub 0x7EFFFFFFE m) {s0 : State} (die : Nat) (temps : List Int) (s : State) (h : Touch m s0 s) : TouchO m s0 (execThermalSample die temps s) := by
  unfold execThermalSample
  repeat' (first | (with_reducible first | assumption | apply TouchO.next | apply State.warn_touch | apply State.throttle_touch | apply State.thermTrip_touch | apply State.setTherm_touch | apply State.retarget_touch) | (with_reducible show Sub _ _; exact hm.of rfl) | extract_lets | refine Touch.ofPair ‹_ = (_, _)› ?_ | split | dsimp -zeta only | dsimp -zeta +zetaDelta only)
theorem execPowerSample_touch {m : Nat} (hm : Sub 0x1800000 m) {s0 : State} (deciwatts : Nat) (s : State) (h : Touch m s0 s) : TouchO m s0 (execPowerSample deciwatts s) := by
  unfold execPowerSample
  repeat' (first | (with_reducible first | assumption | apply TouchO.next | apply State.retarget_touch) | (with_reducible show Sub _ _; exact hm.of rfl) | simp -zeta only [Touch.upd_powerI (hm.of rfl)] | extract_lets | refine Touch.ofPair ‹_ = (_, _)› ?_ | split | dsimp -zeta only | dsimp -zeta +zetaDelta only)
theorem execDvfsLevelChange_touch {m : Nat} (hm : Sub 0x840000 m) {s0 : State} (die : Nat) (s : State) (h : Touch m s0 s) : TouchO m s0 (execDvfsLevelChange die s) := by
  unfold execDvfsLevelChange
  repeat' (first | (with_reducible first | assumption | apply TouchO.next | apply State.setTherm_touch | apply State.slowDie_touch) | (with_reducible show Sub _ _; exact hm.of rfl) | extract_lets | refine Touch.ofPair ‹_ = (_, _)› ?_ | split | dsimp -zeta only | dsimp -zeta +zetaDelta only)
theorem execVoltageDroop_touch {m : Nat} (hm : Sub 0x800000 m) {s0 : State} (die : Nat) (s : State) (h : Touch m s0 s) : TouchO m s0 (execVoltageDroop die s) := by
  unfold execVoltageDroop
  repeat' (first | (with_reducible first | assumption | apply TouchO.next | apply State.setTherm_touch) | (with_reducible show Sub _ _; exact hm.of rfl) | extract_lets | refine Touch.ofPair ‹_ = (_, _)› ?_ | split | dsimp -zeta only | dsimp -zeta +zetaDelta only)
theorem execSensorCrossCheck_touch {m : Nat} (hm : Sub 0x144801400 m) {s0 : State} (die : Nat) (disagree : DWord) (s : State) (h : Touch m s0 s) : TouchO m s0 (execSensorCrossCheck die disagree s) := by
  unfold execSensorCrossCheck
  repeat' (first | (with_reducible intro _) | (with_reducible first | assumption | apply TouchO.next | apply State.setTherm_touch | apply State.raise_touch | apply State.each_touch) | (with_reducible show Sub _ _; exact hm.of rfl) | extract_lets | refine Touch.ofPair ‹_ = (_, _)› ?_ | split | dsimp -zeta only | dsimp -zeta +zetaDelta only)

end Sys2Proof.Machine
end

