-- ==== Sys2Proof/WellFormed.lean ====
section
/-! DEFINITION. Which commands are well formed: every operand lies in the range the spec gives the thing it names. -/

namespace Sys2Proof

/-- A Gwyntik PARTITION value a row of its own can take: 0-7, or 0xF for the device (spec/12 Table 12-4). -/
def pvOk (pv : Nat) : Bool := pv < 8 || pv == 15

/-- A reader names a bank 0 or 1 or a tensor tag 0-255 (spec/06 R172, R178). -/
def Reader.wf : Reader → Bool
  | .array bank => bank < 2
  | .transfer t => t < 256
  | .vector | .push => true

/-- Every operand lies in its range: floes 0-207 (spec/01 R18), banks 0-1 (spec/03 R63), partitions 0-7, mesh ports 0-11 (spec/09 R269), chiplets 0-3 and lasers 0-11 (spec/11 R361), pages 0-16,383 (spec/16 R531), interfaces 0-47 (spec/08), sites 0-223 (spec/00), tags 0-65,535 (spec/09 Table 9-3). -/
def Instr.wf : Instr → Bool
  | .salu f _ | .sld f _ _ | .sst f _ _ | .br f _ | .jump f _ | .halt f _ | .nop f _ => f < 208
  | .mma f _ _ | .mmaT f _ _ | .mmaSp f _ _ | .xfer f _ _ | .vec f _ _ | .red f _ _ | .cvtBs16 f _ _
  | .stashPush f _ _ | .stashPop f _ _ | .updAdamw f _ _ | .updSgdm f _ _ | .gateTopk f _ _
  | .packAssign f _ _ | .packGather f _ _ | .packCombine f _ _ | .collShiftAllgather f _ _
  | .collShiftRotate f _ _ | .collReduceScatter f _ _ | .collAllreduce f _ _ | .collPermute f _ _
  | .collSteer f _ _ | .collVerdictCommit f _ _ | .collVerdictNorm f _ _ | .collVerdictBarrier f _ _ => f < 208
  | .tagWait f _ | .tagSignal f _ | .tagWaitComplete f _ | .haltComplete f _ | .streamStall f _
  | .illegalOp f _ _ | .pcRange f _ => f < 208
  | .remoteSignal src _ dst => src < 208 && dst < 208
  | .sldReturn f _ rd => f < 208 && rd < 32
  | .tileRowDrain f bank _ | .mmaComplete f bank => f < 208 && bank < 2
  | .vecPassComplete f | .gatePackComplete f _ | .updComplete f _ | .stashCopyComplete f _ _ | .tileRowRelease f
  | .fwQuietPoint f | .fwHoldTimeout f | .fwRehold f => f < 208
  | .xferComplete f t _ => f < 208 && t < 256
  | .readersReleased f r _ => f < 208 && r.wf
  | .collStepComplete p t | .verdictContribution p t | .verdictComplete p t | .stepTimeout p t | .slowResend p t =>
    p < 8 && t < 65536
  | .pauseWaitExpiry p | .thawDone p => p < 8
  | .meshPacket k _ | .fc k _ | .alignmentMarker k _ | .tail k _ _ | .helloSend k | .fcRefresh k | .fcTimeout k
  | .escapeTimeout k | .keyingRetry k | .laneLock k | .portLossOfLock k _ => k < 12
  | .blockLock k slot _ => k < 12 && slot < 64
  | .alignmentMarkerSend k slot => k < 12 && slot < 64
  | .oedFrame p _ _ _ _ _ | .lldp p _ | .pfcFrame p _ _ | .icmpv6 p _ _ | .oedDrainSafe p | .oedPortCfg p _ => p < 4
  | .oedLinkState p sub _ => p < 4 && sub < 2
  | .laserSample c l _ | .laserLockLoss c l | .spareReady c l => c < 4 && l < 12
  | .laserSwapComplete c | .substrateTempCheck c _ | .optServiceDrain c _ | .wavelengthRecalComplete c _ _ => c < 4
  | .ringFault c slot _ _ => c < 4 && slot < 64
  | .wavelengthRecal c w | .optLaserCmdSwap c w | .optLaserCmdRecal c w => c < 4 && w < 8
  | .shuttleRemoved k | .shuttleSeated k => k < 4
  | .nmmapRetire i | .recalWindow i _ => i < 48
  | .rasCalveGo site => site.toNat < 224
  | .resetCtrlGo d p | .ctrlHold d p _ | .ctrlFreeze d p _ | .blockResetEscalation d p | .blockResetComplete d p =>
    d < 2 && p < 16384
  | .fatal d p b _ => d < 2 && p < 16384 && b < 32
  | .routerBank b _ => b < 2
  | .gwyTxStore e _ _ _ | .gwyRxLoad e | .resync e => e < 8
  | .claim p | .release p | .loadBegin p | .loadChunk p | .loadEnd p | .start p | .pause p | .resume p | .abort p
  | .memWrite p _ | .memRead p _ | .csrWrite p | .csrRead p | .attest p | .telem p | .snapshot p | .resetPartition p
  | .badOpcode p => pvOk p
  | .thermalSample d _ | .dvfsLevelChange d | .voltageDroop d | .sensorCrossCheck d _ => d < 2
  | .bridgeLaneRetrain g _ => g < 8
  | .cxlHotAdd d => d.port < 2
  | .cxlLinkDown p w => p < 2 && w < 4
  | .ucieLinkUp m _ | .ucieLaneRepair m _ _ => m < 4
  | .siteHardFailure site | .spareSelfTest site _ => site < 224
  | .addUnitTest u _ => u < 7
  | .steerComplete | .shift | .shiftAdd _ | .permute | .verdict | .noticeSlow | .noticeReplay | .noticeFail
  | .noticeMismatch | .noticeDone | .noticeClose | .mirror | .bulk | .mgmt _ | .time _ | .hello | .epoch | .lifetime
  | .eject | .epochSwitch | .epochBankFree | .sledFrame | .rstWdtKick | .timeSet _ | .pwrCap _ | .registerWrite _ _ _
  | .certGet | .fwStage | .fwActivate | .fwStatus | .resetBlock | .resetDevice | .ownerChange | .debugEnable
  | .debugLock | .keyRevoke | .mfgMode | .imageKeyEnroll | .imageMinVersion | .fwActivated | .por _ _ | .resetN _
  | .warmResetN | .watchdog | .warmResetStart | .regulatorPhaseLoss _ _ | .coldResetReady _ _ _ | .warmResetReady
  | .powerSample _ | .refclkLoss | .refclkRelock | .timeExchange | .presenceAssertion | .sealPatternChange _
  | .heartbeatLoss | .controlLaneRetrain _ | .orphanRejoin | .bridgeDataLaneLoss | .patrolRead _ _
  | .retirementUnblocked | .frameMoveComplete | .cxlTimeout _ _ | .ucieLinkDown | .calveQuietPoint
  | .calveHoldTimeout | .calveRetry | .calveCopyComplete | .i3cBootRead | .i3cCommand _ | .i3cResponseRead
  | .jtagBoundaryScan _ | .presenceExpiry | .i3cDynamicAddress _ | .trstN | .jtagDebugAccess _ => true

end Sys2Proof
end

