-- ==== Sys2Proof/Tests/Slice0.lean ====
section
/-! SUPPORT. The author's tests: an ill-formed term for each check of WellFormed, one or two small steps for each kind of command, and for every statement with hypotheses a state that meets them. -/

namespace Sys2Proof.Tests

open Sys2Proof Sys2Proof.Machine

set_option Elab.async false

/-! ## The states the tests use -/

/-- An outcome is a next state that passes a check. -/
def onNext (r : Host.Outcome State Fault Refusal) (g : State → Bool) : Bool :=
  match r with
  | .next t => g t
  | .fault _ | .refused _ => false
/-- An outcome is a fault. -/
def faultsWith (r : Host.Outcome State Fault Refusal) (f : Fault) : Bool :=
  match r with
  | .fault g => g == f
  | .next _ | .refused _ => false
/-- An outcome is a refusal. -/
def refusesWith (r : Host.Outcome State Fault Refusal) (f : Refusal) : Bool :=
  match r with
  | .refused g => g == f
  | .next _ | .fault _ => false
/-- An instruction word: an opcode, and values by the lowest bit of their fields. -/
def ins (op : Nat) (l : List (Nat × Nat)) : IWord := BitVec.ofNat 128 (op * 2 ^ 120 + l.foldl (fun a p => a + p.2 * 2 ^ p.1) 0)
/-- A ready device whose partition 0 runs on floe group 0, bound to endpoint 0. -/
def base : State :=
  let s := State.reset
  let p : Part := { st := .running, owner := some 0, groups := 1, near := [0, 1], keys := true, claimNo := 1 }
  let m : Endpoint := { enable := true, mgmt := true }
  { s with rst := { s.rst with phase := .ready }, parts := [(0, p)], eps := [(0, m)], ucie := [(0, { up := true })], straps := { s.straps with p := true }, fuses := { s.fuses with serial := 0, mfgKey := [] } }
/-- Floe 0 with a code region of 4 KiB and its streams RUNNING; its descriptor table is at 64 KiB. -/
def floe0 : Floe :=
  let y : StreamSt := { st := .running, regs := [(1, 5), (2, BitVec.ofNat 64 (spAddr 0 0x20000))] }
  { fwd := y, bwd := y, upd := y, codeSize := 0x1000, descBase := 0x10000, nstk := 2, frontBase := 0x300000, frontSize := 0x10000, ppBase := 16, ppCount := 8 }
/-- The device with floe 0 as given and an instruction word at PC 0 of its code region. -/
def atWord (x : Floe) (w : IWord) : State := (base.setFloe 0 x).poke (spAddr 0 0) (leBytes 16 w.toNat)
/-- A tensor descriptor: tag, byte offset in floe 0's scratchpad, format, block rows and columns, offset of the scales. -/
def withDesc (s : State) (t off fmt r c scale : Nat) : State :=
  s.poke (spAddr 0 (0x10000 + 32 * t))
    (leBytes 8 (spAddr 0 off + fmt * 2 ^ 52) ++ leBytes 2 r ++ leBytes 2 c ++ leBytes 4 (scale / 32) ++ zeros 8 ++ leBytes 8 (c * 2 ^ 36))
/-- BF16 tensors of two by two blocks under tags 1 to 3, and BS16 under tag 4. -/
def tensors (s : State) : State :=
  [(1, 0x20000, 6), (2, 0x22000, 6), (3, 0x24000, 6), (4, 0x26000, 7)].foldl (fun s p => withDesc s p.1 p.2.1 p.2.2 2 2 0) s
/-- Claims.Head as a check. -/
def headIs (op : Nat) (s : State) (f : Nat) (st : Stream) (w : IWord) : Bool := s.headWord f st == some w && opOf w == op && encOk w
/-- The check says Claims.Head. -/
theorem headIs_head (op : Nat) (s : State) (f : Nat) (st : Stream) (w : IWord) (h : headIs op s f st w = true) : Claims.Head op s f st w := by
  simpa [headIs, Claims.Head, and_assoc] using h
/-- Claims.Good as a check. -/
def goodIs (s : State) : Bool :=
  s.spBad == [] && s.poison == [] && s.nm.due == [] && s.cxls.all (fun c => c.2.late == [] && c.2.wins.all (fun w => w.2.lost == false))
/-- The check says Claims.Good. -/
theorem goodIs_good (s : State) (h : goodIs s = true) : Claims.Good s := by
  simpa [goodIs, Claims.Good, and_assoc] using h

/-! ## Scalar instructions (spec/06) -/

/-- SALU ADD S27, S27, 4 as spec/06 encodes it in its worked example; the register wraps. -/
theorem witness_SaluResult :
    let w := 0x01DEC100000000000000000000000004#128
    let x := { floe0 with fwd := { floe0.fwd with regs := [(27, 0xFFFFFFFFFFFFFFFE)] } }
    let s := atWord x w
    Claims.Head 0x01 s 0 .fwd w ∧ (∀ r, r ∈ (s.stream 0 .fwd).pend → r ≠ 27)
    ∧ onNext (exec (.salu 0 .fwd) s) (fun t => (t.stream 0 .fwd).reg 27 == 2 && (t.stream 0 .fwd).pc == 16) = true := by
  unfold Claims.Head; decide +kernel
/-- BR LT S27, 32 with OFF -3, taken and not taken, as spec/06 encodes it. -/
theorem witness_ControlFlowIssues_BranchTarget :
    let w := 0x083EC000FFFFFFFD0000000000000020#128
    let x := fun (v : DWord) => { floe0 with fwd := { floe0.fwd with pc := 0x30, regs := [(27, v)] } }
    let s := fun v => (base.setFloe 0 (x v)).poke (spAddr 0 0x30) (leBytes 16 w.toNat)
    Claims.Head 0x08 (s 31) 0 .fwd w ∧ Claims.Head 0x08 (s 32) 0 .fwd w
    ∧ onNext (exec (.br 0 .fwd) (s 31)) (fun t => (t.stream 0 .fwd).pc == 0) = true
    ∧ onNext (exec (.br 0 .fwd) (s 32)) (fun t => (t.stream 0 .fwd).pc == 0x40) = true := by
  unfold Claims.Head; decide +kernel
/-- JUMP with RD = RA = S1 and IMM 0x10, NOP and HALT. -/
theorem witness_ControlFlowIssues_JumpNopHaltIssue :
    let j := ins 0x09 [(115, 1), (110, 1), (0, 0x10)]
    Claims.Head 0x09 (atWord floe0 j) 0 .fwd j ∧ Claims.Head 0x0B (atWord floe0 (ins 0x0B [])) 0 .fwd (ins 0x0B [])
    ∧ Claims.Head 0x0A (atWord floe0 (ins 0x0A [])) 0 .fwd (ins 0x0A [])
    ∧ onNext (exec (.jump 0 .fwd) (atWord floe0 j)) (fun t => (t.stream 0 .fwd).pc == 0x15 && (t.stream 0 .fwd).reg 1 == 16) = true
    ∧ onNext (exec (.nop 0 .fwd) (atWord floe0 (ins 0x0B []))) (fun t => (t.stream 0 .fwd).pc == 16) = true
    ∧ onNext (exec (.halt 0 .fwd) (atWord floe0 (ins 0x0A []))) (fun t => (t.stream 0 .fwd).halting && (t.stream 0 .fwd).pc == 0) = true := by
  unfold Claims.Head; decide +kernel
/-- SLD of two bytes, sign-extended, into S3; its return; a discarded return into S0. -/
theorem witness_ScalarLoadsAndStores_LoadAndReturn :
    let w := ins 0x04 [(115, 3), (110, 2), (108, 1), (107, 1)]
    let s := (atWord floe0 w).poke (spAddr 0 0x20000) [0x34, 0xF2]
    let y := { floe0 with slds := [{ stream := .bwd, rd := 3, value := 1 }, { stream := .fwd, rd := 3, value := 7 }], fwd := { floe0.fwd with pend := [3] } }
    Claims.Head 0x04 s 0 .fwd w ∧ s.scalarFault 0 (ldstAddr (s.stream 0 .fwd) w) 2 false = none ∧ s.memHeld (ldstAddr (s.stream 0 .fwd) w) 2 = false
    ∧ onNext (exec (.sld 0 .fwd []) s) (fun t => (t.floe 0).slds.map (fun o => o.value) == [0xFFFFFFFFFFFFF234] && (t.stream 0 .fwd).pend == [3]) = true
    ∧ onNext (exec (.sldReturn 0 .fwd 3) (base.setFloe 0 y)) (fun t => (t.stream 0 .fwd).reg 3 == 7 && (t.floe 0).slds.length == 1) = true := by
  unfold Claims.Head; decide +kernel
/-- SST of four bytes of S1 at S2 + 4. -/
theorem witness_ScalarLoadsAndStores_StoreWritesItsBytesOnly :
    let w := ins 0x05 [(115, 1), (110, 2), (108, 2), (0, 4)]
    let s := atWord floe0 w
    let a := ldstAddr (s.stream 0 .fwd) w
    Claims.Head 0x05 s 0 .fwd w ∧ s.scalarFault 0 a 4 true = none ∧ s.memHeld a 4 = false ∧ s.allGood [] a = true ∧ s.lostAt a = false
    ∧ Memory.wf s.mem = true ∧ onNext (exec (.sst 0 .fwd []) s) (fun t => t.byte a == 5 && Memory.wf t.mem) = true := by
  unfold Claims.Head; decide +kernel

/-! ## The units accept (spec/03 to spec/07) -/

/-- MMA of one block from tags 1 and 2 into bank 0 with DRAIN to tag 3; MMA.T alike with TA; MMA.SP of a 2:4 tensor, two k-units; an MMA that skips its k-unit, read and draining at once. -/
theorem witness_MmaAccepted :
    let l := [(116, 1), (103, 1), (95, 2), (23, 3)]
    let w := ins 0x10 ((31, 1) :: l)
    let v := ins 0x11 ((119, 1) :: (31, 1) :: l)
    let p := ins 0x12 ((31, 2) :: (87, 1) :: l)
    let z := ins 0x10 ((22, 1) :: (31, 1) :: l)
    let s := fun w => tensors (atWord floe0 w)
    let q := (withDesc (s p) 1 0x20000 (6 + 128) 2 2 0).poke (spAddr 0 0x21000) (List.replicate 256 0x44)
    let k := (withDesc (s z) 1 0x20000 (6 + 64) 2 2 0).poke (spAddr 0 (0x10000 + 32 + 20)) [0, 8]
    let ok := fun (op : Nat) (s : State) (w : IWord) => headIs op s 0 .fwd w && !s.mmaWaits 0 .fwd w && (s.arbitrate 0 0 .fwd {}).isSome && s.mmaFault 0 .fwd w 0 0 0 == none
    ok 0x10 (s w) w = true ∧ ok 0x11 (s v) v = true ∧ ok 0x12 q p = true ∧ ok 0x10 k z = true
    ∧ onNext (exec (.mma 0 .fwd {}) (s w)) (fun t => (t.floe 0).bank0.st == .opened && (t.floe 0).mmas.length == 1) = true
    ∧ onNext (exec (.mmaSp 0 .fwd {}) q) (fun t => (t.floe 0).mmas.length == 1) = true
    ∧ onNext (exec (.mma 0 .fwd {}) k) (fun t => (t.floe 0).bank0.st == .draining && (t.floe 0).mmas.all (fun o => o.readDone && o.kSkipped == 1)) = true := by
  decide +kernel

/-- The current and alternate state set of UPD under tags 16 to 20 and 24 to 28, one block each, with a BS16 gradient under tag 4. -/
def withSet (s : State) : State :=
  [(0, 6, 0), (1, 9, 0), (2, 4 + 16, 1024), (3, 10 + 16, 1024), (4, 1, 1024)].foldl (fun s e =>
    withDesc (withDesc s (16 + e.1) (0x40000 + 0x1000 * e.1) e.2.1 1 1 e.2.2) (24 + e.1) (0x50000 + 0x1000 * e.1) e.2.1 1 1 e.2.2) (withDesc s 4 0x60000 7 1 1 0)
/-- VEC from tag 1 to tag 2, RED to S3 of tag 1, CVT.BS16 from tag 1 to tag 4: each accepted, none on an engine in use. -/
theorem witness_VectorEngineAccepts_pass :
    let v := ins 0x20 [(110, 1), (102, 2)]
    let r := ins 0x21 [(110, 1), (109, 1), (104, 3), (7, 1)]
    let c := ins 0x22 [(110, 1), (102, 4)]
    let s := fun w => tensors (atWord floe0 w)
    let ok := fun (op : Nat) (w : IWord) => headIs op (s w) 0 .fwd w && !(s w).passWaits 0 .fwd w && (s w).passFault 0 .fwd w 0 0 == none
      && ((s w).arbitrate 0 1 .fwd {}).isSome
    ok 0x20 v = true ∧ ok 0x21 r = true ∧ ok 0x22 c = true
    ∧ onNext (exec (.vec 0 .fwd {}) (s v)) (fun t => !(t.floe 0).vu.free && ((t.floe 0).tag 2).wr == 1 && ((t.floe 0).tag 1).rd == 1) = true
    ∧ onNext (exec (.red 0 .fwd {}) (s r)) (fun t => (t.stream 0 .fwd).pend == [3] && ((t.floe 0).tag 1).rd == 1) = true
    ∧ onNext (exec (.cvtBs16 0 .fwd {}) (s c)) (fun t => ((t.floe 0).tag 4).wr == 1) = true
    ∧ onNext (exec (.vec 0 .fwd {}) (tensors (atWord { floe0 with vu := .cond { stream := .bwd, w := 0, first := 0 } } v))) (fun t => (t.stream 0 .fwd).pc == 0) = true := by
  decide +kernel
/-- GATE.TOPK of two experts over one token; PACK.CAP ASSIGN, GATHER and COMBINE over empty records. -/
theorem witness_VectorEngineAccepts_cond :
    let g := ins 0x38 [(112, 1), (104, 5), (96, 1)]
    let a := ins 0x39 [(117, 1), (106, 5), (98, 6), (74, 1)]
    let t := ins 0x39 [(118, 1), (106, 5), (98, 6), (90, 7), (82, 8), (74, 1)]
    let c := ins 0x39 [(119, 1), (106, 5), (98, 6), (90, 7), (82, 8), (74, 1), (40, 31)]
    let s := fun w => [(1, 0x20000, 6, 1), (5, 0x40000, 0, 4), (6, 0x50000, 0, 4), (7, 0x60000, 1, 2), (8, 0x70000, 1, 2)].foldl
      (fun s e => withDesc s e.1 e.2.1 e.2.2.1 e.2.2.2 1 (if e.2.2.1 = 1 then 4096 else 0)) (atWord floe0 w)
    let full := fun w => ((List.range 32).foldl (fun s i => s.poke (spAddr 0 (0x40028 + 64 * i)) [1]) (s w)).poke (spAddr 0 0x40018) (if w = a then [255, 255] else [])
    [g, a, t, c].all (fun w => headIs (opOf w) (full w) 0 .fwd w && !(full w).condWaits 0 .fwd w && (full w).condFault 0 .fwd w == none && ((full w).arbitrate 0 1 .fwd {}).isSome) = true
    ∧ packMode a = 0 ∧ packMode t = 1 ∧ packMode c = 2
    ∧ onNext (exec (.gateTopk 0 .fwd {}) (full g)) (fun u => ((u.floe 0).tag 5).wr == 1) = true
    ∧ onNext (exec (.packAssign 0 .fwd {}) (full a)) (fun u => ((u.floe 0).tag 6).wr == 1) = true
    ∧ onNext (exec (.packGather 0 .fwd {}) (full t)) (fun u => ((u.floe 0).tag 8).wr == 1) = true
    ∧ onNext (exec (.packCombine 0 .fwd {}) (full c)) (fun u => ((u.floe 0).tag 8).wr == 1) = true := by
  decide +kernel
/-- UPD.ADAMW and UPD.SGDM of one block with HP = 1. -/
theorem witness_VectorEngineAccepts_upd :
    let a := ins 0x30 [(112, 4), (104, 16), (71, 1)]
    let g := ins 0x31 [(112, 4), (104, 16), (71, 1)]
    let s := fun w => withSet (atWord { floe0 with fwd := {}, bwd := {} } w)
    [a, g].all (fun w => headIs (opOf w) (s w) 0 .upd w && !(s w).updWaits 0 .upd w && ((s w).arbitrate 0 1 .upd {}).isSome && (s w).updFault 0 w 0 0 == none) = true
    ∧ onNext (exec (.updAdamw 0 .upd {}) (s a)) (fun u => ((u.floe 0).tag 27).wr == 1) = true
    ∧ onNext (exec (.updSgdm 0 .upd {}) (s g)) (fun u => ((u.floe 0).tag 27).wr == 0 && ((u.floe 0).tag 28).wr == 1) = true := by
  decide +kernel
/-- XFER of one block; a declared push stored, an optional push to the front, a push that makes a hole; pops that discard, copy and recompute. -/
theorem witness_TransferAndStashAccept :
    let w := ins 0x18 [(112, 1), (104, 2)]
    let p := ins 0x28 [(112, 1), (85, 7)]
    let q := ins 0x29 [(112, 1), (85, 7), (53, 2)]
    let r := ins 0x29 [(101, 1), (85, 7)]
    let d : Desc := { base := spAddr 0 0x20000, fmt := 6, dim0b := 2, dim1b := 2, gdim1b := 2 }
    let e : StashEntry := { hole := false, declared := true, eid := 7, d := d, tier := 0, off := 0, fp := 8192 }
    let x := { floe0 with declared := [(7, 8192)] }
    let s := fun (x : Floe) w => tensors (atWord x w)
    let ok := fun (s : State) (w : IWord) => (s.popFault 0 w 0).isNone && (s.headWord 0 .fwd == some w) && (s.floe 0).pop.isNone
    Claims.Head 0x18 (s floe0 w) 0 .fwd w ∧ (s floe0 w).xferFault 0 w = none ∧ ((s floe0 w).arbitrate 0 2 .fwd {}).isSome = true ∧ ((s x p).arbitrate 0 3 .fwd {}).isSome = true
    ∧ Claims.Head 0x28 (s x p) 0 .fwd p ∧ (s x p).pushFault 0 p 0 = none
    ∧ (ok (s { floe0 with stashed := [(0, [e])] } q) q && ok (s { floe0 with stashed := [(0, [{ e with hole := true }])] } q) q
        && ok (s { floe0 with stashed := [(0, [e])] } r) r) = true
    ∧ onNext (exec (.xfer 0 .fwd {}) (s floe0 w)) (fun t => (t.floe 0).xfers.length == 1 && ((t.floe 0).tag 2).wr == 1) = true
    ∧ onNext (exec (.stashPush 0 .fwd {}) (s x p)) (fun t => (t.floe 0).stack 0 == [e] && (t.floe 0).push.isSome) = true
    ∧ onNext (exec (.stashPop 0 .fwd {}) (s { floe0 with stashed := [(0, [e])] } q)) (fun t => (t.floe 0).stack 0 == [] && (t.floe 0).pop.isSome) = true
    ∧ onNext (exec (.stashPop 0 .fwd {}) (s { floe0 with stashed := [(0, [{ e with hole := true }])] } q)) (fun t =>
        (t.stream 0 .fwd).pc == 32 && (t.stream 0 .fwd).reg 28 == 16) = true
    ∧ onNext (exec (.stashPop 0 .fwd {}) (s { floe0 with stashed := [(0, [e])] } r)) (fun t => (t.floe 0).pop.isNone && (t.stream 0 .fwd).pc == 16) = true := by
  unfold Claims.Head; decide +kernel

/-! ## Tags, halts and faults (spec/06) -/

/-- TAG.WAIT with WS begins; its wait ends at a distance of 0 and of 2^15 - 1, and does not at 2^15 or while a writer is active. -/
theorem witness_TagsWaitAndSignal_TagWaitBeginsAndEnds :
    let w := ins 0x50 [(112, 9), (109, 1), (104, 1)]
    let v : Waiting := { tag := 9, ww := false, wr := false, ws := true, target := 5 }
    let s := fun (n : Half) (k : Nat) (v : Waiting) => base.setFloe 0 { floe0 with fwd := { floe0.fwd with wait := some v }, tags := [(9, { wr := k, seq := n })] }
    Claims.Head 0x50 (atWord floe0 w) 0 .fwd w ∧ ((s 5 0 v).stream 0 .fwd).wait = some v
    ∧ onNext (exec (.tagWait 0 .fwd) (atWord floe0 w)) (fun t => (t.stream 0 .fwd).wait == some v) = true
    ∧ [s 5 1 v, s 0x8004 0 v].all (fun u => onNext (exec (.tagWaitComplete 0 .fwd) u) (fun t => (t.stream 0 .fwd).pc == 16)) = true
    ∧ [s 0x8005 0 v, s 5 1 { v with ww := true }].all (fun u => onNext (exec (.tagWaitComplete 0 .fwd) u) (fun t => (t.stream 0 .fwd).pc == 0)) = true := by
  unfold Claims.Head; decide +kernel
/-- TAG.SIGNAL of 0xFFFF here, and to floe 3; REMOTE_SIGNAL applies the first of its stream and target. -/
theorem witness_TagsWaitAndSignal_TagSignalAddsToSeq :
    let w := ins 0x51 [(112, 9), (80, 0xFFFF)]
    let r := ins 0x51 [(112, 9), (111, 1), (110, 1), (96, 3), (80, 2)]
    let g : Signal := { src := 0, stream := .fwd, dst := 3, tag := 9, amount := 2 }
    let x := { floe0 with tags := [(9, { seq := 3 })] }
    Claims.Head 0x51 (atWord x w) 0 .fwd w ∧ Claims.Head 0x51 (atWord x r) 0 .fwd r ∧ (atWord x r).streamDone 0 .fwd = true
    ∧ (atWord x r).floePart 3 = some 0 ∧ (atWord x r).floePart 0 = some 0
    ∧ onNext (exec (.tagSignal 0 .fwd) (atWord x w)) (fun t => ((t.floe 0).tag 9).seq == 2) = true
    ∧ onNext (exec (.tagSignal 0 .fwd) (atWord x r)) (fun t => t.signals == [g]) = true
    ∧ onNext (exec (.remoteSignal 0 .fwd 3) { base with signals := [{ g with dst := 4 }, g, { g with amount := 7 }] }) (fun t =>
        ((t.floe 3).tag 9).seq == 2 && t.signals.length == 2) = true := by
  unfold Claims.Head; decide +kernel
/-- The last HALT of a partition ends its program. -/
theorem witness_StreamsHaltAndFault_HaltCompletes :
    let y : StreamSt := { st := .halted }
    let x : Floe := { fwd := { st := .running, halting := true }, bwd := y, upd := y }
    let s := ((List.range 8).foldl (fun s f => s.setFloe f { fwd := y, bwd := y, upd := y }) base).setFloe 0 x
    (s.stream 0 .fwd).st = .running ∧ (s.stream 0 .fwd).halting = true ∧ s.streamDone 0 .fwd = true ∧ s.floePart 0 = some 0
    ∧ onNext (exec (.haltComplete 0 .fwd) s) (fun t => (t.part 0).st == .loaded && (t.ep 0).rx.length == 1) = true := by decide +kernel
/-- ILLEGAL_OP of an all-zero word, PC_RANGE just past the region, STREAM_STALL; the other streams stop. -/
theorem witness_StreamsHaltAndFault_StreamFaults :
    let s := atWord floe0 0
    let r := base.setFloe 0 { floe0 with fwd := { floe0.fwd with pc := 0x1000 } }
    s.headWord 0 .fwd = some 0 ∧ encOk 0 = false ∧ (r.floe 0).atHead .fwd = true ∧ (r.floe 0).pcOk .fwd = false
    ∧ bitsOf floe0.streamCtl.toNat 24 6 ≠ 0 ∧ s.floePart 0 = some 0
    ∧ onNext (exec (.illegalOp 0 .fwd []) s) (fun t => (t.stream 0 .fwd).st == .faulted && (t.stream 0 .bwd).st == .stopped && (t.part 0).st == .faulted) = true
    ∧ onNext (exec (.pcRange 0 .fwd) r) (fun t => (t.stream 0 .fwd).fault == 2) = true
    ∧ onNext (exec (.streamStall 0 .fwd) s) (fun t => (t.stream 0 .fwd).fault == 6) = true := by decide +kernel

/-! ## What follows acceptance (spec/03 to spec/07) -/

/-- An MMA of tags 1 and 2 into bank 0, draining to tag 3. -/
def mmaW : IWord := ins 0x10 [(116, 1), (103, 1), (95, 2), (31, 1), (23, 3)]
/-- The MMA accepted, its operands read. -/
def mmaOp : MmaOp :=
  let d : Desc := { base := spAddr 0 0x20000, fmt := 6, dim0b := 2, dim1b := 2, gdim1b := 2 }
  { stream := .fwd, w := mmaW, m0 := 0, n0 := 0, k0 := 0, dA := d, dB := d, readDone := true, kSkipped := 1, contrib := [[[.fin false 3 0]]] }
/-- A drained tile ends its MMA and frees its bank; an MMA's last product begins to drain, or stays in the bank without DRAIN. -/
theorem witness_MmaCompletes :
    let d : Drain := { sp := true, bank := 0, stream := .fwd, tag := 3, mb := 1, nb := 1, rows := [[1]], entered := 1 }
    let s := base.setFloe 0 { floe0 with drains := [{ d with entered := 0 }, d] }
    let a := base.setFloe 0 { floe0 with drains := [d], bank0 := { st := .draining } }
    let b := base.setFloe 0 { floe0 with mmas := [mmaOp] }
    let k := base.setFloe 0 { floe0 with mmas := [{ mmaOp with w := ins 0x10 [(103, 1), (95, 2), (31, 1)] }] }
    (d.bank = 0 ∧ d.entered = d.rows.length ∧ ((s.floe 0).drains.take 1).all (fun e => e.entered != e.rows.length) = true)
    ∧ mmaBank mmaW = 0 ∧ mmaDrain mmaW = true ∧ mmaDrain (ins 0x10 [(103, 1), (95, 2), (31, 1)]) = false
    ∧ onNext (exec (.mmaComplete 0 0) s) (fun t => (t.floe 0).drains.length == 1 && (t.floe 0).spMmaCount == 1) = true
    ∧ onNext (exec (.mmaComplete 0 0) a) (fun t => (t.floe 0).bank0.st == .free) = true
    ∧ onNext (exec (.mmaComplete 0 0) b) (fun t => (t.floe 0).drains.length == 1 && (t.floe 0).skipKunits == 1 && (t.floe 0).mmaCount == 0) = true
    ∧ onNext (exec (.mmaComplete 0 0) k) (fun t => (t.floe 0).drains.isEmpty && (t.floe 0).bank0.vals == [[0x40400000]] && (t.floe 0).mmaCount == 1) = true := by
  decide +kernel
/-- The first row of a tile enters, NaN after a parity error, only while its 32 rows have room: at 480 rows in use and not at 481. -/
theorem witness_TileRowsEnterAndRelease_TileRowEntersQueue :
    let d : Drain := { sp := false, bank := 1, stream := .fwd, tag := 3, mb := 1, nb := 1, rows := [[0x3F800000], [1]] }
    let s := fun (n : Nat) => base.setFloe 0 { floe0 with drains := [d], tq := [{ tag := 9, owner := .bwd, mb := 15, nb := 1, entered := 480, released := n }] }
    (s 0).floe 0 = { floe0 with drains := [] ++ d :: [], tq := ((s 0).floe 0).tq } ∧ ((s 0).floe 0).tqUsed = 480
    ∧ onNext (exec (.tileRowDrain 0 1 true) (s 0)) (fun t => ((t.floe 0).tile 3).map (fun u => u.rows) == some [(0, [0x7FC00000])]
        && (t.hdr 0 1).errStatus == 1) = true
    ∧ onNext (exec (.tileRowDrain 0 1 false) (s 0)) (fun t => ((t.floe 0).tile 3).map (fun u => u.rows) == some [(0, [0x3F800000])]) = true := by
  decide +kernel
/-- A row of a popped tile is released; after row 32 the tile is gone and its tag's writer ends. -/
theorem witness_TileRowsEnterAndRelease_TileRowReleases :
    let w := ins 0x20 [(119, 1), (118, 1), (110, 3), (102, 2)]
    let o : PassOp := { stream := .fwd, w := w, m0 := 0, n0 := 0, readDone := true }
    let u : Tile := { tag := 3, owner := .fwd, mb := 1, nb := 1, rows := [(31, [7])], entered := 32 }
    let s := fun (n : Nat) => base.setFloe 0 { floe0 with vu := .pass o, tq := [{ u with released := n }], tags := [(3, { wr := 1 })] }
    passQueue w = true ∧ passPop w = true ∧ ((s 31).floe 0).tile (passSrc w) = some { u with released := 31 }
    ∧ onNext (exec (.tileRowRelease 0) (s 30)) (fun t => (t.floe 0).tq.map (fun v => v.released) == [31]) = true
    ∧ onNext (exec (.tileRowRelease 0) (s 31)) (fun t => (t.floe 0).tq == [] && ((t.floe 0).tag 3).wr == 0) = true := by decide +kernel
/-- The readers of an MMA, a pass, an XFER and a push end. -/
theorem witness_ReadersReleaseAndUnitsComplete_ReadersRelease :
    let d : Desc := { base := spAddr 0 0x20000, fmt := 1, dim0b := 1, dim1b := 1, gdim1b := 1, scaleOff := 32 }
    let w := ins 0x20 [(110, 1), (102, 2)]
    let o : PassOp := { stream := .fwd, w := w, m0 := 0, n0 := 0, dSrc := d, dDst := d }
    let e : StashEntry := { hole := false, declared := true, eid := 7, d := d, tier := 0, off := 0, fp := 1280 }
    let x := { floe0 with mmas := [{ mmaOp with readDone := false, dA := d, dB := d }], vu := .pass o,
                          xfers := [{ stream := .fwd, w := ins 0x18 [(112, 1), (104, 5)], dSrc := d, dDst := d }],
                          push := some { stream := .fwd, stack := 0, entry := e, d := d, tag := 1 }, tags := [(1, { rd := 4 }), (2, { rd := 1 })] }
    let s := base.setFloe 0 x
    x.tileWhole w = true ∧ s.planesHeld d = false
    ∧ onNext (exec (.readersReleased 0 (.array 0) []) s) (fun t => (t.floe 0).mmas.all (fun e => e.readDone) && ((t.floe 0).tag 1).rd == 3) = true
    ∧ onNext (exec (.readersReleased 0 .vector []) s) (fun t => ((t.floe 0).tag 1).rd == 3) = true
    ∧ onNext (exec (.readersReleased 0 (.transfer 5) []) s) (fun t => (t.floe 0).xfers.all (fun e => e.readDone) && ((t.floe 0).tag 1).rd == 3) = true
    ∧ onNext (exec (.readersReleased 0 .push []) s) (fun t => (t.floe 0).push.any (fun e => e.readDone) && ((t.floe 0).tag 1).rd == 3) = true := by
  decide +kernel
/-- A reduction, a GATE.TOPK, an XFER, a push and a pop complete, and store only into their outputs. -/
theorem witness_ReadersReleaseAndUnitsComplete_UnitsComplete_and_UnitStoresStayInOutputs :
    let d : Desc := { base := spAddr 0 0x20000, fmt := 6, dim0b := 1, dim1b := 1, gdim1b := 1 }
    let r : PassOp := { stream := .fwd, w := ins 0x21 [(110, 1), (109, 1), (104, 3), (7, 1)], m0 := 0, n0 := 0, dSrc := d, readDone := true }
    let g : CondOp := { stream := .fwd, w := ins 0x38 [(112, 1), (104, 5), (96, 1)], first := 0, dA := d, dB := { base := spAddr 0 0x40000, dim0b := 1, dim1b := 1, gdim1b := 1 } }
    let e : StashEntry := { hole := false, declared := true, eid := 7, d := d, tier := 0, off := 0, fp := 2048 }
    let o : StashOp := { stream := .fwd, stack := 0, entry := e, d := d, tag := 1, readDone := true, data := [[9, 8]] }
    let xf : XferOp := { stream := .fwd, w := ins 0x18 [(112, 1), (104, 5)], dSrc := d, dDst := d, readDone := true, data := [(spAddr 0 0x30000, [1, 2])] }
    let f := { floe0 with fwd := { floe0.fwd with pend := [3] }, tags := [(1, { wr := 1 }), (5, { wr := 1 })] }
    let s := fun (x : Floe) => base.setFloe 0 x
    (goodIs (s f) = true ∧ (s f).planesHeld d = false ∧ Memory.wf (s f).mem = true ∧ { f with vu := .pass r }.passReady r = true ∧ (s f).memHeld (f.stashAddr 0 0 0 0) 2048 = false)
    ∧ passIsRed r.w = true ∧ (takeFirst (fun e => xferDst e.w == 5 && e.readDone) [xf]).isSome = true ∧ packFormatOk g = true
    ∧ onNext (exec (.vecPassComplete 0) (s { f with vu := .pass r })) (fun t => (t.floe 0).vu.free) = true
    ∧ onNext (exec (.gatePackComplete 0 []) (s { f with vu := .cond g })) (fun t => (t.floe 0).gateTokens == 1 && ((t.floe 0).tag 5).wr == 0 && t.byte (spAddr 0 0x40001) == 255) = true
    ∧ onNext (exec (.xferComplete 0 5 []) (s { f with xfers := [xf] })) (fun t => (t.floe 0).xfers.isEmpty && t.byte (spAddr 0 0x30001) == 2) = true
    ∧ onNext (exec (.stashCopyComplete 0 false []) (s { f with push := some o })) (fun t => (t.floe 0).push.isNone && t.byte (spAddr 0 0x300001) == 8) = true
    ∧ onNext (exec (.stashCopyComplete 0 true []) (s { f with pop := some o })) (fun t => (t.floe 0).pop.isNone && ((t.floe 0).tag 1).wr == 0) = true := by
  decide +kernel
/-- UPD.SGDM in the engine, its set in place: what UPD_COMPLETE asks. -/
theorem witness_ReadersReleaseAndUnitsComplete_UnitsComplete_and_UnitStoresStayInOutputs_upd :
    let w := ins 0x31 [(112, 4), (104, 16), (71, 1)]
    let s := withSet (atWord floe0 w)
    let get := fun (k : Nat) => (s.desc 0 k).getD {}
    let o : UpdOp := { stream := .upd, w := w, m0 := 0, n0 := 0, dG := get 4, cur := (updSet w).map (fun i => (i, get (16 + i))),
                       alt := (updSet w).map (fun i => (i, get (24 + i))), hp := [], kappa := 0x3F800000 }
    s.planesHeld o.dG = false ∧ (o.cur ++ o.alt).all (fun e => !s.planesHeld e.2) = true ∧ o.alt.map (fun e => e.1) = updSet o.w
    ∧ o.alt.all (fun e => updFmtOk e.1 e.2) = true ∧ updNreg w = 0 := by decide +kernel

/-! ## The mesh (spec/09) -/

/-- The bytes of a packet as spec/09 Tables 9-2 and 9-3 lay them out, the MAC addresses 0. -/
def wire (p : MeshPkt) : List Byte :=
  let n := p.payload.length
  let l := zeros 12 ++ beBytes 2 0x8100 ++ beBytes 2 (p.ch * 2 ^ 13) ++ beBytes 2 0x86DD ++ beBytes 4 (6 * 2 ^ 28 + p.ch * 2 ^ 25) ++ beBytes 2 (40 + n)
    ++ beBytes 1 17 ++ beBytes 1 p.hop ++ beBytes 16 p.src.toNat ++ beBytes 16 p.dst.toNat ++ beBytes 2 0x4B3E ++ beBytes 2 0x4B3E ++ beBytes 2 (40 + n)
    ++ zeros 2 ++ beBytes 1 (16 + 2 * p.ch + b2n p.epoch) ++ beBytes 1 (8 * p.typ + p.part) ++ beBytes 2 p.tag ++ beBytes 3 (64 * p.member + 16 * (p.attempt % 4))
    ++ beBytes 1 (128 * b2n p.last + 64 * b2n p.poison + 32 * b2n p.slow) ++ beBytes 4 p.dhash.toNat ++ beBytes 5 p.offset ++ beBytes 2 n
    ++ beBytes 1 (128 * b2n p.esc + 64 * b2n p.detour + 16 * p.daxis) ++ beBytes 4 p.step.toNat ++ beBytes 4 p.birth.toNat ++ zeros 4 ++ p.payload
  l ++ zeros ((32 - l.length % 32) % 32)
/-- A port that is UP with two lanes and every feature. -/
def upPort : Port := { st := .up, lanes := 0x3, rxPos := [(2, 0), (3, 1)], rxN := 2, feat := 0x1F, keyed := true, lastHello := 0 }
/-- The device at coordinate (1, 0, 0), aligned, with its X neighbours' ports 0 and 1 UP. -/
def mesh : State :=
  { base with straps := { base.straps with x := 1, p := false },
              router := { base.router with ports := [(0, upPort), (1, upPort)], bank0 := { usable := 0xFFF, adapt := 3 } },
              time := { base.time with aligned := true } }
/-- A data packet of 32 bytes for partition 0 of coordinate (x, 0, 0). -/
def pkt (x : Nat) : MeshPkt := { hop := 9, dst := BitVec.ofNat 128 (ifId (x, 0, 0) false 0), ch := 2, typ := 1, payload := List.replicate 32 7 }
/-- The packets that have left on mesh ports, with their tail's STOMP, newest first. -/
def leftWith (s : State) : List (Nat × MeshPkt × Bool) :=
  s.router.sent.filterMap (fun e => match e with
    | .packet k p stomp _ => some (k, p, stomp)
    | .stompTail _ _ | .fc _ _ | .marker _ _ _ => none)
/-- A TAIL's block after n data blocks (spec/09 Table 9-5). -/
def tailOf (n : Nat) (stomp : Bool) : List Byte := beBytes 1 0xE1 ++ beBytes 1 (16 * b2n stomp) ++ beBytes 2 n ++ zeros 12
/-- A port admits a packet. -/
def admitted (s : State) (k : Nat) (p : MeshPkt) : Bool :=
  match s.admits k p with
  | .ok _ => true
  | .error _ => false
/-- The check says what it stands for. -/
theorem admitted_ok (s : State) (k : Nat) (p : MeshPkt) (h : admitted s k p = true) : s.admits k p = .ok () := by
  unfold admitted at h; split at h
  · assumption
  · cases h
/-- A packet for this device, one sent on, one held while its class is OFF, one with no way, and one at its last hop. -/
theorem witness_PacketsAreRoutedAndDelivered_MeshPacketIsRouted :
    let s := mesh
    let off := s.setPort 1 { upPort with offMain := 4 }
    let b := wire (pkt 3)
    let h := wire { pkt 3 with hop := 1 }
    let here := wire (pkt 1)
    let q := { readPkt b with hop := 8 }
    (s.port 0).passage = .none ∧ admitted s 0 (readPkt b) = true ∧ s.headerDrop b = none ∧ s.headerDrop h = some 1 ∧ admitted s 0 (readPkt h) = true
    ∧ s.route 0 q = .out 1 q ∧ s.linkRefuses 1 q = false ∧ (s.port 1).st = .up ∧ (s.port 1).queue = [] ∧ s.mayStart 1 q = true ∧ off.mayStart 1 q = false
    ∧ s.route 0 { readPkt here with hop := 8 } = .deliver ∧ s.headerDrop here = none ∧ (s.setPort 1 {}).route 0 q = .drop 4
    ∧ (readPkt b).typ = 1 ∧ (readPkt b).hop = 9 ∧ (readPkt b).payload = List.replicate 32 7
    ∧ onNext (exec (.meshPacket 0 b) s) (fun t => (t.port 0).passage == .forwarded 1 q && leftWith t == [(1, q, false)]) = true
    ∧ onNext (exec (.meshPacket 0 b) off) (fun t => (t.port 1).queue.map (fun e => e.inp) == [0] && leftWith t == []) = true
    ∧ onNext (exec (.meshPacket 0 here) s) (fun t => (t.port 0).passage == .here { readPkt here with hop := 8 }) = true
    ∧ onNext (exec (.meshPacket 0 h) s) (fun t => Tbl.get 0 t.router.discards 1 == 1) = true := by decide +kernel
/-- A packet for the device with a good TAIL, with STOMP, with a bad TAIL block and with a bad tag; one that went on. -/
theorem witness_PacketsAreRoutedAndDelivered_TailDelivers :
    let s := mesh.setPort 0 { upPort with blocks := 5, passage := .here (pkt 1) }
    let f := mesh.setPort 0 { upPort with blocks := 5, passage := .forwarded 1 (pkt 3) }
    let w := mesh.setPort 0 { upPort with blocks := 5, passage := .here { pkt 1 with typ := 4, ch := 1 } }
    s.tooOld (pkt 1) = false ∧ (pkt 1).typ = 1 ∧ idMgmt (idOf (pkt 1).dst) = false ∧ (s.part (pkt 1).part).st = .running
    ∧ tailOk 5 (tailOf 5 false) = true ∧ tailOk 5 (tailOf 5 true) = true ∧ tailOk 5 (tailOf 4 false) = false
    ∧ onNext (exec (.tail 0 (tailOf 5 false) true) s) (fun t => t.router.inbox == [{ port := 0, p := pkt 1, stomp := false }]) = true
    ∧ onNext (exec (.tail 0 (tailOf 5 true) true) s) (fun t => t.router.inbox == [{ port := 0, p := pkt 1, stomp := true }]) = true
    ∧ onNext (exec (.tail 0 (tailOf 5 true) true) w) (fun t => t.router.inbox == [] && Tbl.get 0 t.router.discards 6 == 1) = true
    ∧ onNext (exec (.tail 0 (tailOf 4 false) true) s) (fun t => t.router.inbox == [] && Tbl.get 0 t.router.discards 0 == 1) = true
    ∧ onNext (exec (.tail 0 (tailOf 5 false) false) s) (fun t => t.router.inbox == [] && (t.port 0).tagFails.length == 1) = true
    ∧ onNext (exec (.tail 0 (tailOf 5 false) true) f) (fun t => (t.port 0).passage == .none) = true := by decide +kernel
/-- Port 1 trains: lanes lock, a slot's blocks lock, the peer's markers place two lanes, one leaves, and a loss of lock counts them. -/
theorem witness_PortsComeUp_PortTrainsAndLosesLock :
    let lock := fun (s : State) => s.setChip 0 { s.chip 0 with rxLocked := 0xC }
    let s := mesh.setPort 1 {}
    let a := mesh.setPort 1 { st := .training, lanes := 3 }
    let l := lock a
    let m := fun (pos n change : Byte) => [0x2D, 2, 0, 0, 0, 0, 0, pos, n, change] ++ zeros 22
    let up := lock mesh
    (s.port 1).st = .down ∧ s.cabled 1 = true ∧ (s.chip 0).dump = false ∧ s.linksStart = true ∧ s.portSuspended 1 = false
    ∧ (portSlots 1 &&& ~~~ (a.chip 0).rxFault).getLsbD 2 = true ∧ (a.chip 0).rxLocked.getLsbD 2 = false
    ∧ (portSlots 1 &&& (l.chip 0).rxLocked).getLsbD 2 = true ∧ (portSlots 1 &&& (l.chip 0).rxLocked).getLsbD 3 = true
    ∧ markerOk (m 0 2 0) = true ∧ markerOk (m 0xFE 1 1) = true ∧ l.peer 1 = some (2, 0, 0) ∧ opposite 1 = 0
    ∧ (mesh.port 1).announcedLanes [(2, m 0 1 1), (3, m 0xFE 1 1)] = 1
    ∧ (mesh.glow 0 &&& portSlots 1).getLsbD 2 = true
    ∧ onNext (exec (.laneLock 1) s) (fun t => (t.port 1).st == .training && (t.port 1).lanes == 0x0C0C0C0C0C0C0C0C) = true
    ∧ onNext (exec (.blockLock 1 2 [1, 2]) a) (fun t => (t.chip 0).rxLocked == 4) = true
    ∧ onNext (exec (.alignmentMarker 1 [(2, m 0 2 0), (3, m 1 2 0)]) l) (fun t => (t.port 1).rxPos == [(2, 0), (3, 1)] && (t.port 1).isAligned) = true
    ∧ onNext (exec (.alignmentMarker 1 [(2, m 0 1 1), (3, m 0xFE 1 1)]) up) (fun t => (t.port 1).rxPos == [(2, 0)] && (t.chip 0).rxLocked == 4 && (t.port 1).st == .up) = true
    ∧ onNext (exec (.portLossOfLock 1 4) up) (fun t => (t.port 1).st == .down && (t.chip 0).relocks == 1 && (t.chip 0).rxLocked == 0) = true
    ∧ onNext (exec (.portLossOfLock 1 0x400) up) (fun t => (t.port 1).st == .up && (t.chip 0).relocks == 0) = true
    ∧ onNext (exec (.alignmentMarkerSend 1 2) mesh) (fun t => t.router.sent.length == 1) = true := by decide +kernel
/-- A HELLO of the X POS neighbour, and one whose port is wrong; a HELLO sent while training and while UP; a key exchange that fails. -/
theorem witness_PortsComeUp_HelloAndKeysBringPortsUp :
    let l := [1, 0, 0x40, 0, 2, 0, 0, 0] ++ zeros 16 ++ beBytes 8 0x1F ++ zeros 32
    let a : Arrived := { port := 1, p := { typ := 10, payload := l }, stomp := false }
    let e : Arrived := { a with p := { a.p with payload := l.set 2 0x45 } }
    let k : Arrived := { port := 1, p := { typ := 8 }, stomp := false }
    let bare := fun (q : PortSt) => mesh.setPort 1 { upPort with st := q }
    let at1 := fun (q : PortSt) (i : Arrived) => (bare q).setRouter { (bare q).router with inbox := [i] }
    let o := mesh.setRouter { mesh.router with inbox := [{ k with port := 13 }] }
    let g := fun (s : State) (a : Arrived) => a.p.typ == 8 && !(s.portSuspended a.port && (s.port a.port).st == .keying)
    (mesh.port 1).st = .up ∧ (mesh.port 1).lanes ≠ 0 ∧ mesh.portSuspended 1 = false ∧ (mesh.port 1).queue = []
    ∧ mesh.mayStart 1 { mesh.helloPkt 1 with payload := [] } = true
    ∧ ((bare .training).port 1).isAligned = true
    ∧ (at1 .training a).takeArrived (fun a => a.p.typ == 10 && !(at1 .training a).portSuspended a.port) = some (a, bare .training)
    ∧ helloOk l = true ∧ (at1 .training a).helloFails 1 l = none ∧ (at1 .training a).helloFails 1 e.p.payload = some .qCable
    ∧ (at1 .keying k).takeArrived (g (at1 .keying k)) = some (k, bare .keying) ∧ ((bare .keying).port 1).st = .keying
    ∧ o.takeArrived (g o) = some ({ k with port := 13 }, mesh) ∧ mesh.oed.sessions = []
    ∧ onNext (exec .hello ((at1 .training a).setPort 1 { upPort with st := .training, offMain := 1 })) (fun t => (t.port 1).st == .keying && (t.port 1).peerCoord == 2) = true
    ∧ onNext (exec .hello (at1 .up a)) (fun t => (t.port 1).st == .up && (t.port 1).feat == 0x1F) = true
    ∧ onNext (exec .hello (at1 .training e)) (fun t => (t.port 1).st == .qCable) = true
    ∧ onNext (exec (.helloSend 1) (bare .training)) (fun t => (leftWith t).map (fun e => (e.1, e.2.1.typ)) == [(1, 10)]) = true
    ∧ onNext (exec (.mgmt (.keyExchange true true true)) (at1 .keying k)) (fun t => (t.port 1).st == .up) = true
    ∧ onNext (exec (.mgmt (.keyExchange true false true)) (at1 .keying k)) (fun t => (t.port 1).st == .keying) = true
    ∧ onNext (exec (.mgmt (.oedSession 5 true true true)) o) (fun t => t.oed.sessions.map (fun e => e.peer) == [5]) = true := by decide +kernel
/-- An FC block that turns channel 2 ON, and one that keeps it OFF; the timeout; a packet stuck at a port whose class is OFF takes the ESCAPE class. -/
theorem witness_FlowControlHoldsAndReleases :
    let q : Queued := { inp := 0, p := pkt 3 }
    let s := mesh.setPort 1 { upPort with offMain := 4, queue := [q] }
    let stuck := s.adaptive q.p && (s.productive 0 q.p).all (fun j => (s.port j).off q.p.ch false)
    let r := { pkt 3 with esc := true }
    let s1 := s.setPort 1 { s.port 1 with queue := [] }
    (s.port 1).st = .up ∧ (s.port 1).queue = [] ++ q :: [] ∧ q.p.ch = 2 ∧ stuck = true
    ∧ (s.setPort 1 { s.port 1 with offMain := 0, offEsc := 0, fcSilent := false }).mayStart 1 q.p = true ∧ s.linkRefuses 1 q.p = false
    ∧ s1.orphanGuard 0 r (s1.dimOrder 0 r) = .out 1 r ∧ s1.mayStart 1 r = true ∧ s.linkRefuses 1 r = false ∧ s.tooOld q.p = false
    ∧ onNext (exec (.fc 1 (fcBlock 0 0 0)) s) (fun t => (t.port 1).queue.isEmpty && leftWith t == [(1, pkt 3, false)]) = true
    ∧ onNext (exec (.fc 1 (fcBlock 4 1 9)) s) (fun t => (t.port 1).queue == [q] && (t.port 1).offEsc == 1) = true
    ∧ onNext (exec (.fcRefresh 1) s) (fun t => (t.port 1).fcRefresh == 1 && t.router.sent == [.fc 1 (fcBlock 0 0 0)]) = true
    ∧ onNext (exec (.fcTimeout 1) s) (fun t => (t.port 1).fcSilent) = true
    ∧ onNext (exec (.escapeTimeout 1) s) (fun t => (t.port 1).queue.isEmpty && leftWith t == [(1, r, false)]) = true := by decide +kernel
/-- A packet 50,001 ns old and one 50,000 ns old; an ejected packet. -/
theorem witness_OldPacketsDropAndEpochsSwitch_OldPacketsAreDropped :
    let a : Arrived := { port := 0, p := pkt 1, stomp := false }
    let s := fun n => { mesh with time := { mesh.time with systime := n }, router := { mesh.router with inbox := [a] } }
    (s 0).takePkt (fun p => !idMgmt (idOf p.dst) && p.typ != 10 && p.typ != 11) = some (a, mesh)
    ∧ onNext (exec .lifetime (s 50001)) (fun t => t.router.inbox == []) = true ∧ onNext (exec .lifetime (s 50000)) (fun t => t.router.inbox == [a]) = true
    ∧ onNext (exec .eject (s 0)) (fun t => t.router.inbox == [] && Tbl.get 0 t.router.discards 13 == 1) = true := by decide +kernel
/-- A notice new and seen; the switch from either bank; the draining bank becomes free. -/
theorem witness_OldPacketsDropAndEpochsSwitch_EpochsSwitchBanks :
    let l := epochPayload 1 false (3, 0, 0) 7 90000
    let a : Arrived := { port := 0, p := { typ := 11, payload := l }, stomp := false }
    let s := mesh.setRouter { mesh.router with inbox := [a] }
    let r := { mesh.router with tsw := 90000, use1 := .free }
    let z := mesh.setRouter { r with use0 := .free, use1 := .active }
    s.takePkt (fun p => p.typ == 11) = some (a, mesh) ∧ epochOk l = true ∧ (packCoord (3, 0, 0), 7) ∉ mesh.router.seen
    ∧ r.tsw ≠ 0 ∧ r.use0 = .active ∧ r.use1 = .free
    ∧ onNext (exec .epoch s) (fun t => t.router.seen == [(3, 7)] && t.router.tsw == 90000) = true
    ∧ onNext (exec .epoch (s.setRouter { s.router with seen := [(3, 7)] })) (fun t => t.router.tsw == 0) = true
    ∧ onNext (exec .epochSwitch (mesh.setRouter r)) (fun t => t.router.use0 == .draining && t.router.use1 == .active && t.router.srcEpoch && t.router.freeAt == 141000) = true
    ∧ onNext (exec .epochSwitch z) (fun t => t.router.use0 == .active && t.router.use1 == .draining) = true
    ∧ onNext (exec .epochBankFree (mesh.setRouter { r with use1 := .draining })) (fun t => t.router.use1 == .free && t.router.use0 == .active) = true := by decide +kernel

/-! ## Collective steps (spec/10) -/

/-- A ring of two with itself as member 0, and a tree of one. -/
def groups2 : Tbl Group :=
  let e := epOf (2, 0, 0) 0 0
  [(0, { n := 2, self := 0, succ := e, pred := e }), (1, { tree := true })]
/-- Floe 0 of a device in a mesh, in a ring of two; bucket tag 5 is floe 0's, bucket tag 6 the partition's. -/
def coll (x : Floe) : State :=
  let e := epOf (2, 0, 0) 0 0
  let im : Image := { tagTable := [(5, 0), (6, 0xFFFF)], plans := [(2, [1, 2, 3])], mirMap := [(4, 9, spAddr 0 0x50000, spAddr 0 0x60000)], buddy := e }
  let s := mesh.setPart 0 { mesh.part 0 with image := some im }
  { s.setFloe 0 { x with groups := groups2, exchs := [(0, { e := 1, c := 32, out := [(0, 0)], inn := [(0, 0)] })] } with steer := some 0 }
/-- A step of floe 0 under tag 5 whose source is one BF16 block and whose destination two. -/
def ringStep (k : StepKind) (fmt : Nat) : Step :=
  { floe := 0, stream := .fwd, tag := 5, kind := k, ch := 1, gidx := 0, group := (Tbl.find groups2 0).getD {}, serial := 0, dist := 1,
    exch := { e := 1, c := 32, out := [(0, 0)], inn := [(0, 0)] },
    dSrc := { base := spAddr 0 0x20000, fmt := fmt, dim0b := 1, dim1b := 1, gdim1b := 1 },
    dDst := { base := spAddr 0 0x28000, fmt := fmt, dim0b := 2, dim1b := 1, gdim1b := 1 }, tagSrc := 1, tagDst := 2, deadline := 200000 }
/-- A device with a step of partition 0. -/
def stepping (t : Step) : State := (coll floe0).setPart 0 { (coll floe0).part 0 with steps := [t] }
/-- What RingStepsAreArmed asks of one instruction. -/
def armsRing (s : State) (k : StepKind) (w : IWord) : Bool :=
  headIs k.code.1 s 0 .fwd w && collKind w == k.code.2 && !s.ringWaits 0 w
    && (s.arbitrate 0 4 .fwd {}).isSome && s.ringFault 0 0 k w == none && (s.floe (s.tagKeeper 0 (collTag w))).early == []
/-- All five ring instructions meet the conditions; ALLGATHER is armed. -/
theorem witness_RingStepsAreArmed :
    let l := [(112, 1), (104, 2), (80, 5), (77, 1)]
    let s := fun (op k d : Nat) => (ins op (l ++ [(74, k), (56, d)]))
    let dev := fun (w : IWord) (fmt r : Nat) => withDesc (withDesc ((coll floe0).poke (spAddr 0 0) (leBytes 16 w.toNat)) 1 0x20000 fmt (3 - r) 1 0) 2 0x28000 fmt r 1 0
    let p := ins 0x42 [(112, 1), (104, 2), (80, 5), (77, 3)]
    (dev (s 0x40 0 0) 6 2).floePart 0 = some 0 ∧ armsRing (dev (s 0x40 0 0) 6 2) .allgather (s 0x40 0 0) = true
    ∧ armsRing (withDesc (dev (s 0x40 1 1) 6 1) 1 0x20000 6 1 1 0) .rotate (s 0x40 1 1) = true
    ∧ armsRing (dev (s 0x41 0 0) 7 1) .reduceScatter (s 0x41 0 0) = true
    ∧ armsRing (withDesc (dev (s 0x41 1 0) 7 1) 1 0x20000 7 1 1 0) .allreduce (s 0x41 1 0) = true
    ∧ armsRing (withDesc (dev p 1 1) 1 0x20000 1 1 1 0) .permute p = true
    ∧ onNext (exec (.collShiftAllgather 0 .fwd {}) (dev (s 0x40 0 0) 6 2)) (fun t =>
        (t.part 0).steps.map (fun e => (e.tag, e.attempt)) == [(5, 0)] && (t.stream 0 .fwd).pc == 16) = true := by decide +kernel
/-- A tree step of partition 0 under tag 6, as every one of its eight floes has issued it. -/
def treeStep (k : StepKind) : Step :=
  { floe := 0, stream := .fwd, tag := 6, kind := k, ch := 1, gidx := 1, group := (Tbl.find groups2 1).getD {}, serial := 0,
    issues := (List.range 8).map (fun f => { floe := f, stream := .fwd, rreg := 3, creg := 0, nreg := 0x40800000 }) }
/-- A commit, a norm and a barrier verdict: the first floe's and a further floe's. -/
theorem witness_VerdictsAndSteersAreIssued_VerdictsAreIssued :
    let w := fun (k : Nat) => ins 0x44 [(96, 1), (80, 6), (77, 1), (74, k), (51, 3), (46, 1), (41, 4)]
    let s := fun (k : Nat) => (coll floe0).poke (spAddr 0 0) (leBytes 16 (w k).toNat)
    let i : Issue := { floe := 1, stream := .fwd, rreg := 3, creg := 0, nreg := 0 }
    let o := fun (k : Nat) => (s k).setPart 0 { (s k).part 0 with steps := [{ treeStep .norm with issues := [i] }] }
    [0, 1, 2].all (fun k => headIs 0x44 (s k) 0 .fwd (w k) && collKind (w k) == k && !(s k).verdictWaits 0 .fwd (w k)
      && (s k).verdictFault 0 0 (w k) == none && (s k).stepOf 0 6 == none && ((s k).floe ((s k).tagKeeper 0 6)).early == []) = true
    ∧ (o 1).verdictWaits 0 .fwd (w 1) = false ∧ (s 0).arbitrate 0 4 .fwd {} ≠ none
    ∧ (o 1).stepOf 0 6 = some { treeStep .norm with issues := [i] } ∧ ({ treeStep .norm with issues := [i] } : Step).isOpen = true ∧ (o 1).verdictFault 0 0 (w 1) = none
    ∧ onNext (exec (.collVerdictCommit 0 .fwd {}) (s 0)) (fun t => (t.part 0).steps.map (fun e => e.kind) == [.commit] && (t.stream 0 .fwd).pend == [3]) = true
    ∧ onNext (exec (.collVerdictNorm 0 .fwd {}) (o 1)) (fun t => (t.part 0).steps.map (fun e => e.issues.length) == [2]) = true
    ∧ onNext (exec (.collVerdictBarrier 0 .fwd {}) (s 2)) (fun t => (t.part 0).steps.map (fun e => e.issues.map (fun j => j.creg)) == [[5]]) = true := by decide +kernel
/-- A steer to a plan that is not in force, and to one that is; a steer that is due ends. -/
theorem witness_VerdictsAndSteersAreIssued_SteersAreHeldForTheirVerdict :
    let w := ins 0x43 [(96, 2), (80, 6)]
    let s := (coll floe0).poke (spAddr 0 0) (leBytes 16 w.toNat)
    let r := { s with chips := [0, 1, 2].map (fun c => (c, { (s.chip c) with install := false, plan := 2 })) }
    let z : Steer := { floe := 0, stream := .fwd, rtag := 6, plan := 2, due := true }
    headIs 0x43 s 0 .fwd w = true ∧ s.floePart 0 = some 0 ∧ s.steerWaits 0 = false ∧ s.arbitrate 0 4 .fwd {} ≠ none ∧ s.steerFault 0 w = none
    ∧ s.planInForce 2 = false ∧ r.planInForce 2 = true
    ∧ onNext (exec (.collSteer 0 .fwd {}) s) (fun t => (t.part 0).steers == [{ z with due := false }] && Tbl.find (t.part 0).steerPlan 6 == some 2) = true
    ∧ onNext (exec (.collSteer 0 .fwd {}) r) (fun t => (t.part 0).steers == []) = true
    ∧ onNext (exec .steerComplete (s.setPart 0 { s.part 0 with steers := [z, { z with due := false }] })) (fun t => (t.part 0).steers == [{ z with due := false }]) = true := by decide +kernel
/-- A ROTATE of two whose bytes are all counted, and the same of a ring of one. -/
theorem witness_RingStepsCompleteOrReplay_RingStepCompletes :
    let t := ringStep .rotate 6
    let c := { t with counts := [(1, t.piece)] }
    let o := { c with group := { c.group with n := 1 } }
    let s := fun (u : Step) => (stepping u).setFloe 0 { (stepping u).floe 0 with tags := [(1, { rd := 1 }), (2, { wr := 1 })] }
    (s c).stepOf 0 5 = some c ∧ c.kind.isTree = false ∧ c.complete = false ∧ c.abandoned = false ∧ c.counted = true
    ∧ onNext (exec (.collStepComplete 0 5) (s c)) (fun u => (u.part 0).steps.map (fun e => e.complete) == [true] && ((u.floe 0).tag 2).wr == 0 && ((u.floe 0).tag 1).rd == 1) = true
    ∧ onNext (exec (.collStepComplete 0 5) (s o)) (fun u => (u.part 0).steps == []) = (o.counted && decide (o.group.n ≤ 1)) := by decide +kernel
/-- A step of attempt 3 whose time is up, and a commit's; a mirror transfer; a slowed step. -/
theorem witness_RingStepsCompleteOrReplay_TimeoutsReplayThenFail :
    let t := ringStep .rotate 6
    let s := fun (u : Step) => (stepping u).setFloe 0 { (stepping u).floe 0 with tags := [(1, { rd := 1 }), (2, { wr := 1 })] }
    let m : MirTx := { sent := 4, told := true, attempt := 2 }
    let r := fun (x : MirTx) => (coll floe0).setFloe 0 { (coll floe0).floe 0 with mirTx := x }
    t.isOpen = true ∧ (s t).floePart 0 = some 0 ∧ m.confirmed = false ∧ m.failed = false ∧ (stepping t).stepSlowed 0 t = false
    ∧ onNext (exec (.stepTimeout 0 5) (s { t with attempt := 3 })) (fun u => (u.part 0).steps == [] && (u.floe 0).record == 4) = true
    ∧ (stepping (treeStep .commit)).inStep 0 = true ∧ onNext (exec (.stepTimeout 0 6) (stepping { treeStep .commit with attempt := 3 })) (fun u => (u.part 0).st == .faulted) = true
    ∧ onNext (exec (.stepTimeout 0 0x10000) (r m)) (fun u => (u.floe 0).mirTx.attempt == 3) = true
    ∧ onNext (exec (.stepTimeout 0 0x10000) (r { m with attempt := 3 })) (fun u => (u.floe 0).mirTx.failed && (u.floe 0).record == 8) = true
    ∧ onNext (exec (.slowResend 0 5) ((s t).setPart 0 { (s t).part 0 with st := .paused })) (fun u => u.router.sent.length == 1) = true := by decide +kernel
/-- A step of attempt 2 begins attempt 3. -/
theorem witness_RingStepsCompleteOrReplay_TimeoutsReplayThenFail_replay :
    let t := { ringStep .rotate 6 with attempt := 2, dSrc := { base := spAddr 0 0x20000, fmt := 1, dim0b := 1, dim1b := 1, gdim1b := 1, scaleOff := 1024 } }
    (stepping t).stepOf 0 5 = some t ∧ t.isOpen = true ∧ t.abandoned = false ∧ t.kind.isTree = false ∧ t.attempt < 3
    ∧ onNext (exec (.stepTimeout 0 5) (stepping t)) (fun u => (u.part 0).steps.map (fun e => e.attempt) == [3]) = true := by decide +kernel
/-- The root of a tree of one, whose contribution ends the combine; a member with a parent; a root whose child has not reported. -/
theorem witness_VerdictsContributeAndComplete_VerdictContributes :
    let t := treeStep .norm
    let e := epOf (2, 0, 0) 0 0
    let p := { t with group := { t.group with parent := e } }
    let c := { t with group := { t.group with childs := [e] } }
    (stepping t).stepOf 0 6 = some t ∧ t.kind.isTree = true ∧ t.isOpen = true ∧ t.mine = none ∧ t.abandoned = false
    ∧ t.issues.all (fun i => !i.upd) = true ∧ ((stepping t).partFloes 0).all (fun f => t.issues.any (fun i => i.floe == f)) = true
    ∧ ((stepping t).partFloes 0).all (fun f => ((stepping t).floe f).mirrorSettled) = true
    ∧ t.childReports = some [] ∧ c.childReports = none ∧ t.group.parent = noEp ∧ p.group.parent ≠ noEp
    ∧ onNext (exec (.verdictContribution 0 6) (stepping t)) (fun u => (u.part 0).steps.map (fun e => e.result) == [some ({ byte := 0, key := 0, q := 0x42000000 }, 2060)]) = true
    ∧ onNext (exec (.verdictContribution 0 6) (stepping p)) (fun u => (u.part 0).steps.map (fun e => e.result.isNone) == [true] && u.router.sent.length == 1) = true
    ∧ onNext (exec (.verdictContribution 0 6) (stepping c)) (fun u => (u.part 0).steps.map (fun e => e.mine.isSome) == [true]) = true := by decide +kernel
/-- A commit with byte 0, with its tags free and not, a commit that is discarded, a norm and a barrier. -/
theorem witness_VerdictsContributeAndComplete_VerdictsComplete :
    let v : VVal := { byte := 0, key := 7, q := 0x40800000 }
    let t := fun (k : StepKind) (v : VVal) => { treeStep k with result := some (v, 10) }
    let s := fun (k : StepKind) (v : VVal) => stepping (t k v)
    let b := (s .commit v).setFloe 0 { (s .commit v).floe 0 with tags := [(16, { rd := 1 })] }
    (s .commit v).stepOf 0 6 = some (t .commit v) ∧ b.ppIdle 0 = false ∧ (s .commit v).ppIdle 0 = true
    ∧ onNext (exec (.verdictComplete 0 6) b) (fun u => (u.part 0).committing && (u.part 0).stepCount == 0) = true
    ∧ onNext (exec (.verdictComplete 0 6) (s .commit v)) (fun u => (u.part 0).stepCount == 1 && (u.part 0).serial == 1 && (u.floe 0).gnCommit == 0x40000000
        && (u.stream 3 .fwd).reg 3 == 0x700000000 && (u.part 0).lastKey == 7) = true
    ∧ onNext (exec (.verdictComplete 0 6) (s .commit { v with byte := 5 })) (fun u => (u.part 0).discards == 1 && (u.part 0).stepCount == 0 && (u.part 0).serial == 1) = true
    ∧ onNext (exec (.verdictComplete 0 6) (s .norm v)) (fun u => (u.floe 7).gnCur == 0x40000000 && (u.floe 7).curValid && (u.part 0).serial == 0) = true
    ∧ onNext (exec (.verdictComplete 0 6) (s .barrier v)) (fun u => (u.part 0).steps == [] && (u.part 0).commits == 0) = true := by decide +kernel

/-! ## Collective packets (spec/10) -/

/-- A device whose inbox holds one packet. -/
def inbox (s : State) (q : MeshPkt) : State := s.setRouter { s.router with inbox := [{ port := 1, p := q, stomp := false }] }
/-- Claims.Armed as a check. -/
def armedOk (g : MeshPkt → Bool) (s : State) (q : MeshPkt) (t : Step) : Bool :=
  match s.takePkt g with
  | some (a, s1) => a.p == q && !a.stomp && s1.inStep q.part && !isMirrorNotice q && (s1.tagUse q.part q.tag).isSome && s1.armedFor q.part q == some t && !t.abandoned
  | none => false
/-- The check says Claims.Armed. -/
theorem armedOk_armed (g : MeshPkt → Bool) (s : State) (q : MeshPkt) (t : Step) (h : armedOk g s q t = true) : ∃ s1, Claims.Armed g s s1 q t := by
  unfold armedOk at h
  split at h
  · next a s1 e =>
    simp only [Bool.and_eq_true, beq_iff_eq, Bool.not_eq_true', Option.isSome_iff_ne_none] at h
    exact ⟨s1, ⟨a, e, by simp [h], by simp [h]⟩, by simp [h], by simp [h], by simp [h], by simp [h], by simp [h]⟩
  · cases h
/-- A data packet of bucket tag 5 from coordinate (2, 0, 0). -/
def dataPkt (typ member off : Nat) (l : List Byte) : MeshPkt :=
  { src := BitVec.ofNat 128 (ifId (2, 0, 0) false 0), dst := BitVec.ofNat 128 (ifId (1, 0, 0) false 0), ch := 1, typ := typ, tag := 5, member := member, offset := off, payload := l }
/-- A SHIFT packet of each kind at the first and the last byte of its piece, a ROTATE packet that goes on, and a PERMUTE packet. -/
theorem witness_DataPacketsAreCounted :
    let a := ringStep .allgather 6
    let r := ringStep .rotate 6
    let r3 := { r with dist := 2, group := { r.group with n := 3 } }
    let e := { ringStep .permute 1 with ch := 3 }
    let q := fun (typ m off : Nat) => dataPkt typ m off [1, 2, 3, 4]
    let g := fun (k : Nat) (q : MeshPkt) => q.typ == k
    let s := fun (t : Step) (q : MeshPkt) => inbox (stepping t) q
    let p := a.piece
    Memory.wf (stepping a).mem = true ∧ goodIs (stepping a) = true ∧ (q 1 1 p).slow = false
    ∧ armedOk (g 1) (s a (q 1 1 p)) (q 1 1 p) a = true ∧ (q 1 1 p).attempt = a.attempt ∧ a.mismatch (q 1 1 p) = false ∧ a.within (q 1 1 p) = true ∧ a.complete = false
    ∧ armedOk (g 1) (s a (q 1 1 (2 * p - 4))) (q 1 1 (2 * p - 4)) a = true ∧ a.within (q 1 1 (2 * p - 4)) = true ∧ a.within (q 1 1 (2 * p - 3)) = false
    ∧ armedOk (g 1) (s r (q 1 1 (p - 4))) (q 1 1 (p - 4)) r = true ∧ r.within (q 1 1 (p - 4)) = true ∧ (1 + r.dist) % r.group.n = r.group.self
    ∧ armedOk (g 1) (s r3 (q 1 2 0)) (q 1 2 0) r3 = true ∧ r3.within (q 1 2 0) = true ∧ (2 + r3.dist) % r3.group.n ≠ r3.group.self
    ∧ (armedOk (g 3) (s { e with exch := { e.exch with inn := [(1, 0)] } } (q 3 1 0)) (q 3 1 0) { e with exch := { e.exch with inn := [(1, 0)] } }) = true
    ∧ ({ e with exch := { e.exch with inn := [(1, 0)] } } : Step).within (q 3 1 0) = true ∧ ({ e with exch := { e.exch with inn := [(1, 0)] } } : Step).mismatch (q 3 1 0) = false
    ∧ onNext (exec .shift (s a (q 1 1 p))) (fun t => t.byte (a.dDst.base + p + 3) == 4 && (t.part 0).steps.map (fun e => e.counts) == [[(1, 4)]]) = true
    ∧ onNext (exec .shift (s r (q 1 1 (p - 4)))) (fun t => t.byte (a.dDst.base + p - 1) == 4) = true
    ∧ onNext (exec .shift (s r3 (q 1 2 0))) (fun t => (t.part 0).steps.map (fun e => e.counts) == [[]] && t.router.sent.length == 1) = true
    ∧ onNext (exec .permute (s { e with exch := { e.exch with inn := [(1, 0)] } } (q 3 1 0))) (fun t => t.byte (a.dDst.base + 3) == 4) = true := by decide +kernel
/-- A gathered packet, one whose sum the slice's owner keeps, and one that is summed in passing. -/
theorem witness_SumsAreFormedAndStored :
    let b : List Byte := [0, 0x40] ++ zeros 62 ++ [127, 0, 4, 0]
    let one := fun (k : StepKind) => { ringStep k 7 with addUnit := some 0, group := { (ringStep k 7).group with n := 4 } }
    let g := one .allreduce
    let r := one .reduceScatter
    let q := fun (m off : Nat) => { dataPkt 2 m off b with src := BitVec.ofNat 128 (ifId (2, 0, 0) false 0) }
    let s := fun (t : Step) (q : MeshPkt) => (inbox (stepping t) q).poke (spAddr 0 0x20000) b
    let f := fun (q : MeshPkt) => q.typ == 2
    r.slice = 544 ∧ goodIs (s g (q 1 544)) = true ∧ Memory.wf (s g (q 1 544)).mem = true ∧ g.gathers (q 1 544) = true ∧ g.within (q 1 544) = true ∧ g.mismatch (q 1 544) = false
    ∧ armedOk f (s g (q 1 544)) (q 1 544) g = true ∧ isSp (g.dDst.base + 544) = true
    ∧ armedOk f (s r (q 1 0)) (q 1 0) r = true ∧ r.within (q 1 0) = true ∧ r.gathers (q 1 0) = false ∧ isSp (r.addDst 0) = true
    ∧ armedOk f (s r (q 3 1088)) (q 3 1088) r = true ∧ r.within (q 3 1088) = true ∧ 1088 / r.slice ≠ r.group.self
    ∧ onNext (exec (.shiftAdd false) (s g (q 1 544))) (fun t => t.byte (g.dDst.base + 545) == 0x40 && (t.part 0).steps.map (fun e => e.counts) == [[(1, 68)]]) = true
    ∧ onNext (exec (.shiftAdd false) (s r (q 1 0))) (fun t => t.byte (r.dDst.base + 1) == 0x40 && t.byte (r.dDst.base + 64) == 128 && (t.part 0).steps.map (fun e => e.counts) == [[(0, 68)]]) = true
    ∧ onNext (exec (.shiftAdd false) (s r (q 3 1088))) (fun t => t.byte (r.dDst.base + 1) == 0 && (t.part 0).steps.map (fun e => e.counts) == [[]]) = true := by decide +kernel
/-- A child's report, the parent's result before and after its moment, and a packet of neither. -/
theorem witness_VerdictPacketsAndNotices_VerdictPacketsReport :
    let e := epOf (2, 0, 0) 0 0
    let t := treeStep .norm
    let c := { t with group := { t.group with childs := [noEp, e] } }
    let p := { t with group := { t.group with parent := e } }
    let v : VVal := { byte := 0, key := 0, q := 0x3F800000 }
    let q := fun (tres : Nat) => { dataPkt 4 1 0 (verdictPayload .norm v tres) with tag := 6 }
    let g := fun (q : MeshPkt) => q.typ == 4
    let old := { inbox (stepping p) (q 5000) with time := { (stepping p).time with systime := 5001 } }
    let o := { q 5000 with src := BitVec.ofNat 128 (ifId (3, 0, 0) false 0) }
    armedOk g old (q 5000) p = true ∧ old.now.toNat = 5001 ∧ p.kind = .norm
    ∧ armedOk g (inbox (stepping p) o) o p = true ∧ sameMember p.group.parent (epOfAddr o.src) = false
    ∧ armedOk g (inbox (stepping p) (q 0)) (q 0) p = true ∧ p.group.childs = [] ∧ c.group.parent = noEp
    ∧ onNext (exec .verdict old) (fun u => (u.part 0).steps == [] && (u.part 0).lastKey == 0 && (u.floe 0).curValid) = true
    ∧ onNext (exec .verdict (inbox (stepping p) o)) (fun u => Tbl.get 0 u.router.discards 15 == 1) = true
    ∧ armedOk g (inbox (stepping c) (q 0)) (q 0) c = true ∧ (stepping c).tagUse 0 6 = some .tree ∧ beAt (q 0).payload 12 8 = 0
    ∧ sameMember (c.group.childs.getD 1 noEp) (epOfAddr (q 0).src) = true ∧ sameMember (c.group.childs.getD 0 noEp) (epOfAddr (q 0).src) = false
    ∧ armedOk g (inbox (stepping p) (q 5000)) (q 5000) p = true ∧ sameMember p.group.parent (epOfAddr (q 0).src) = true
    ∧ onNext (exec .verdict (inbox (stepping c) (q 0))) (fun u => (u.part 0).steps.map (fun e => e.reports) == [[(1, v)]]) = true
    ∧ onNext (exec .verdict (inbox (stepping p) (q 5000))) (fun u => (u.part 0).steps.map (fun e => e.result) == [some (v, 5000)]) = true := by decide +kernel
/-- A notice of each kind at an armed ring step; FAIL, DONE and CLOSE at a tree's. -/
theorem witness_VerdictPacketsAndNotices_NoticesMoveSteps :
    let t := ringStep .rotate 1
    let c := { t with complete := true }
    let h := { t with group := { t.group with self := 1 } }
    let q := fun (k a : Nat) => dataPkt 5 1 0 (noticePayload k a 1 1)
    let s := fun (t : Step) (k a : Nat) => (inbox (stepping t) (q k a)).setFloe 0 { (stepping t).floe 0 with tags := [(1, { rd := 1 })] }
    let g := fun (k : Nat) (q : MeshPkt) => q.typ == 5 && noticeKind q == k && !(isMirrorNotice q && q.step == ((stepping t).part q.part).serial + 1)
    let w := treeStep .norm
    let qw := fun (k : Nat) => { q k 0 with tag := 6 }
    let tree := fun (k : Nat) => inbox (stepping w) (qw k)
    [3, 5, 6].all (fun k => armedOk (g k) (tree k) (qw k) w) = true
    ∧ onNext (exec .noticeFail (tree 3)) (fun u => (u.part 0).steps == [] && (u.floe 7).record == 4) = true
    ∧ onNext (exec .noticeDone (tree 5)) (fun u => Tbl.get 0 u.router.discards 0 == 1) = true
    ∧ onNext (exec .noticeClose (tree 6)) (fun u => Tbl.get 0 u.router.discards 0 == 1) = true
    ∧ [1, 3, 4, 5, 6].all (fun k => armedOk (g k) (s t k 0) (q k 0) t) = true ∧ armedOk (g 2) (s t 2 1) (q 2 1) t = true
    ∧ armedOk (g 5) (s c 5 0) (q 5 0) c = true ∧ armedOk (g 5) (s h 5 0) (q 5 0) h = true ∧ noticeAtt (q 2 1) = 1 ∧ c.group.self = 0 ∧ h.group.self ≠ 0
    ∧ onNext (exec .noticeSlow (s t 1 0)) (fun u => (u.part 0).steps.map (fun e => e.deadline) == [1600000]) = true
    ∧ onNext (exec .noticeReplay (s t 2 1)) (fun u => (u.part 0).steps.map (fun e => e.attempt) == [1]) = true
    ∧ onNext (exec .noticeFail (s t 3 0)) (fun u => (u.part 0).steps == [] && (u.floe 0).record == 4) = true
    ∧ onNext (exec .noticeMismatch (s t 4 0)) (fun u => (u.part 0).steps == [] && (u.floe 0).record == 4) = true
    ∧ onNext (exec .noticeDone (s c 5 0)) (fun u => (u.part 0).steps == [] && ((u.floe 0).tag 1).rd == 0) = true
    ∧ onNext (exec .noticeDone (s h 5 0)) (fun u => (u.part 0).steps.map (fun e => e.doneHeld) == [true]) = true
    ∧ onNext (exec .noticeClose (s t 6 0)) (fun u => (u.part 0).steps == []) = true := by decide +kernel
/-- A MIRROR packet at an offset of its pair, and BULK to the partition. -/
theorem witness_MirrorAndBulkArrive :
    let q : MeshPkt := { dataPkt 6 4 16 [1, 2, 3] with tag := 9 }
    let b : MeshPkt := dataPkt 7 0 0 [1]
    let s := inbox (coll floe0) q
    let a := spAddr 0 0x60000 + 16
    s.takePkt (fun q => q.typ == 6 && q.step != (s.part q.part).serial + 1) = some ({ port := 1, p := q, stomp := false }, s.setRouter { s.router with inbox := [] })
    ∧ goodIs s = true ∧ s.inStep 0 = true ∧ q.step = (s.part 0).serial ∧ s.accessFault 0 a 3 = none ∧ s.lostAt a = false ∧ Memory.wf s.mem = true
    ∧ ((s.part 0).image.getD {}).mirMap.find? (fun e => e.1 == 4 && e.2.1 == 9) = some (4, 9, spAddr 0 0x50000, spAddr 0 0x60000)
    ∧ onNext (exec .mirror s) (fun t => t.byte (a + 2) == 3 && Tbl.get 0 (t.part 0).mirGot (mirKey q) == 3) = true
    ∧ onNext (exec .bulk (inbox (coll floe0) b)) (fun t => t.router.inbox == []) = true := by decide +kernel

/-! ## Gwyntik (spec/12) -/

/-- A public key field of the tests: a point of P-521 (spec/13 R452). -/
def testKey : List Byte :=
  beBytes 64 0x04005d22e725842cf107642cda652506a58add24336f5e7df89ed58646e847f299df9089a2c6c84df0b0ce504c32899885eeb137972d21d3fc7b60d4c40c899b
    ++ beBytes 64 0x1cb919018f9950c78507021278a5cd1de94d9b2c9ffa11ac0a6ec46fd3084c2d199ed9365c56bc2672f6d972e32e6cbe68baefe3ccfd01f99b89359311adf767
    ++ beBytes 8 0xda935e9972000000
/-- The body of an image for one floe group: 16 bytes of code at 0x100, CODE_SIZE 4 KiB, an entry point for the FWD stream (spec/12 Tables 12-8 and 12-9). -/
def imageBody : List Byte :=
  beBytes 64 0x4c45414e494e45010100000003000000d00100000000000001010000000000000700000000000000090000000000004005000000000000000000000000000000
    ++ beBytes 64 0x0100000000000000a000000000000000100000000000000000010000000000000300ffff00000000b00000000000000010000000000000000000000000000000
    ++ beBytes 64 0x0400ffff00000000c0000000000000000c0000000000000000000000000000000102030405060708090a0b0c0d0e0f100c010000000000000010000000000000
    ++ beBytes 16 0x00010000ffffffffffffffff00000000
/-- Its signature block, under the test key as owner (spec/13 Table 13-5). -/
def imageBlock : List Byte :=
  beBytes 64 0x53494731000100003094f9bb163204a91bc64dc5ec344a07207fe2b4b8f5d3f2c067fb35379794fd7bc0ec9fc54a5894d354c2e33c05d9b4ff5e0ad5fce4bff4
    ++ beBytes 64 0xdc6bcdedeeebf9613714d867c02fd8b52f00664060124a0b006ca09293c4f2f63c11efc6f7fbeb7187d02b8e3cbb7cd5d48eb3f1c12b911bc4e34641daa27920
    ++ beBytes 64 0x4b3ac6bf5fcc8945c51bec38f65920e26ecec50a76e03e0eca1b00bfae9d9cbf36b62c1cb05e08135f2658be485ab3e895a8b55f5bc42cc5afe75e037ba37725
    ++ beBytes 64 0xd53c36fe618e96d3b1e2a3281d915cb51f4728f611c86805add0c825000000000000000000000000000000000000000000000000000000000000000000000000
/-- A command of endpoint 0 with its two arguments and payload. -/
def cmd (op pv : Nat) (a0 : DWord) (a1 : Word) (pl : List Byte) : GwyPkt :=
  { src := 0, opcode := op, part := pv, zero := true, seq := 0, tag := 0, arg0 := a0, arg1 := a1, payload := pl }
/-- A device with one command waiting. -/
def asks (s : State) (c : GwyPkt) : State := { s with cmdq := [c] }
/-- The last packet in endpoint 0's inbound buffer has a STATUS and a DETAIL (spec/12 Table 12-4, bytes 12 and 13). -/
def answered (t : State) (st det : Byte) : Bool := ((t.ep 0).rx.getLast?).any (fun i => i.bytes.getD 12 255 == st && i.bytes.getD 13 255 == det)
/-- Claims.Runs as a check. -/
def runsOk (op pv : Nat) (fields : GwyPkt → Bool) (onPart onDev : Bool) (ok : PState → Bool) (s : State) : Bool :=
  match s.takeCmd pv (isOp op) with
  | some (c, s1) => (s1.acceptCmd c (fields c) onPart onDev ok).isNone
  | none => false
/-- The check says Claims.Runs. -/
theorem runsOk_runs (op pv : Nat) (fields : GwyPkt → Bool) (a b : Bool) (ok : PState → Bool) (s : State) (h : runsOk op pv fields a b ok s = true) :
    ∃ c s1, Claims.Runs op pv fields a b ok s c s1 := by
  unfold runsOk at h
  split at h
  · next c s1 e => exact ⟨c, s1, e, by simpa using h⟩
  · cases h
/-- The device with partition 0 in a state. -/
def inState (st : PState) : State := base.setPart 0 { base.part 0 with st := st }
/-- Stores of 8 and 64 bytes and of neither; a store into a disabled endpoint; the store that ends a packet; loads; RESYNC; a reserved opcode and operation. -/
theorem witness_EndpointBuffers :
    let b := gwyBytes 0x40 0xF0 0 7 0 0 0 0 []
    let s := base.setEp 0 { base.ep 0 with tx := b.take 24 }
    let off := base.setEp 1 {}
    let r := base.setEp 0 { base.ep 0 with rx := [{ event := false, bytes := zeros 16 }, { event := true, bytes := zeros 8 }] }
    let last := base.setEp 0 { base.ep 0 with rx := [{ event := false, bytes := [1, 2, 3, 4, 5, 6, 7, 8] }] }
    let bad := cmd 0x99 0 0 0 []
    ¬ ((zeros 4).length = 8 ∧ 0 % 8 = 0) ∧ faultsWith (exec (.gwyTxStore 0 0 (zeros 4) []) base) .hostAccess = true ∧ faultsWith (exec (.gwyTxStore 0 4 (zeros 8) []) base) .hostAccess = true
    ∧ faultsWith (exec (.gwyTxStore 0 8 (zeros 64) []) base) .hostAccess = true
    ∧ (off.ep 1).enable = false ∧ (s.ep 0).enable = true
    ∧ (s.ep 0).transit = [] ∧ (s.ep 0).stalled = [] ∧ (s.ep 0).tx.length + 8 = padded8 32 ∧ (r.ep 0).heldRx = []
    ∧ onNext (exec (.gwyTxStore 1 64 (zeros 64) []) off) (fun t => (t.ep 1).tx.length == 64) = true
    ∧ b.length = 32 ∧ s.modOpen 0 = true ∧ beAt ((s.ep 0).tx ++ b.drop 24) 2 2 = 0 ∧ s.upModule none = 0 ∧ s.orphanModule 0 = false ∧ s.creditUsed (readCmd 0 b) + (readCmd 0 b).cost ≤ 262144 ∧ crcOk b = true ∧ (readCmd 0 b).seq = Tbl.get 0 (s.ep 0).expSeq 15
    ∧ onNext (exec (.gwyTxStore 0 24 (b.drop 24) []) s) (fun t => t.cmdq == [readCmd 0 b] && (t.ep 0).tx == []) = true
    ∧ onNext (exec (.gwyRxLoad 0) base) (fun t => (t.ep 0).lastLoad == zeros 8) = true
    ∧ onNext (exec (.gwyRxLoad 0) r) (fun t => (t.ep 0).avail == 16) = true ∧ onNext (exec (.gwyRxLoad 0) last) (fun t => (t.ep 0).rx == [] && (t.ep 0).lastLoad == [1, 2, 3, 4, 5, 6, 7, 8]) = true
    ∧ onNext (exec (.resync 0) (s.setEp 0 { s.ep 0 with txError := true })) (fun t => (t.ep 0).tx == [] && !(t.ep 0).txError) = true
    ∧ bad.opcode ∉ opcodes ∧ reservedOp (cmd 0x50 15 3 0 []) = true
    ∧ onNext (exec (.badOpcode 0) (asks base bad)) (fun t => answered t 5 0 && t.cmdq == []) = true
    ∧ onNext (exec (.badOpcode 15) (asks base (cmd 0x50 15 3 0 []))) (fun t => answered t 6 4) = true := by decide +kernel
/-- A disabled endpoint whose outbound buffer has no room for a store of 8 bytes. -/
theorem witness_EndpointBuffers_full : ∃ x : Endpoint, x.txError = false ∧ x.enable = false ∧ x.stalled = [] ∧ ¬ x.tx.length + 8 ≤ 524288 := by
  have witness : ∀ l : List Byte, ¬ l.length + 8 ≤ 524288 → ∃ x : Endpoint, x.txError = false ∧ x.enable = false ∧ x.stalled = [] ∧ ¬ x.tx.length + 8 ≤ 524288 :=
    fun l h => ⟨{ tx := l }, rfl, rfl, rfl, h⟩
  have long : ∀ n : Nat, (List.replicate n (0 : Byte)).length = n := fun n => List.length_replicate
  exact witness (List.replicate 524281 0) (by rw [long]; omega)
/-- A claim of group 1 with units 4 and 5 that fits, one of a group that is held; a release; the end of a thaw. -/
theorem witness_ClaimsAndReleases :
    let rec0 := fun (g : Nat) => leBytes 4 g ++ [1, 4, 4, 0] ++ leBytes 2 1 ++ leBytes 2 0 ++ zeros 4 ++ leBytes 4 4 ++ leBytes 4 2
    let s := fun (g : Nat) => asks base (cmd 0x01 1 0 0 (rec0 g))
    let r := asks base (cmd 0x02 0 0 0 [])
    let z := base.setPart 0 { base.part 0 with st := .thawing, near := [] }
    runsOk 0x01 1 (fun c => c.arg0 == 0 && c.arg1 == 0 && claimZeros c.payload) true false (fun st => st == .free) (s 2) = true
    ∧ base.rst.phase = .ready ∧ claimOk (rec0 2) = true ∧ base.sec.mfg = false ∧ base.claimMisfit (rec0 2) = none ∧ base.claimMisfit (rec0 1) = some 0x30
    ∧ runsOk 0x02 0 Claims.bare true false (fun st => st != .free && st != .thawing) r = true ∧ r.calving 0 = false ∧ (z.part 0).st = .thawing ∧ Memory.wf z.mem = true
    ∧ onNext (exec (.claim 1) (s 2)) (fun t => (t.part 1).st == .claimed && (t.part 1).near == [4, 5] && t.steer == some 1 && answered t 0 0) = true
    ∧ onNext (exec (.claim 1) (s 1)) (fun t => (t.part 1).st == .free && answered t 3 0x30) = true
    ∧ onNext (exec (.release 0) r) (fun t => (t.part 0).st == .thawing && !(t.part 0).keys && answered t 1 0) = true
    ∧ onNext (exec (.thawDone 0) z) (fun t => (t.part 0).st == .free && (t.part 0).owner == none) = true := by decide +kernel
/-- LOAD_BEGIN of the smallest and of the largest image, from CLAIMED and from LOADED; the image's one chunk. -/
theorem witness_ImagesLoadAndStart_load :
    let l := imageBody ++ imageBlock
    let s := fun (st : PState) (n : DWord) => asks (inState st) (cmd 0x03 0 n 0 [])
    let ld : Load := { len := l.length }
    let k := asks ((inState .claimed).setPart 0 { (inState .claimed).part 0 with load := some ld }) (cmd 0x04 0 0 0 l)
    let rs := chunkRuns l 0 l.length
    runsOk 0x03 0 (fun c => c.arg1 == 0 && c.payload.isEmpty) true false (fun st => st == .claimed || st == .loaded || st == .degraded) (s .claimed 4096) = true
    ∧ runsOk 0x03 0 (fun c => c.arg1 == 0 && c.payload.isEmpty) true false (fun st => st == .claimed || st == .loaded || st == .degraded) (s .loaded 0x100000000) = true
    ∧ runsOk 0x04 0 (fun c => c.arg1 == 0) true false (fun st => st == .claimed && (k.part 0).load.isSome) k = true
    ∧ l.length = 464 ∧ imgHeaderOk l ld.len = true ∧ imgArrived l = 3 ∧ (List.range 3).all (fun i => imgEntryOk l ld.len 8 i) = true ∧ rs.all (fun r => k.runOk 0 r) = true
    ∧ rs.map (fun r => secTarget (k.partFloes 0) r.1 r.2.1) = [some (spAddr 0 0x100)] ∧ k.memHeld (spAddr 0 0x100) 16 = false
    ∧ onNext (exec (.loadBegin 0) (s .claimed 4096)) (fun t => (t.part 0).load == some { len := 4096 } && (t.part 0).st == .claimed) = true
    ∧ onNext (exec (.loadBegin 0) (s .loaded 0x100000000)) (fun t => (t.part 0).load == some { len := 0x100000000 } && (t.part 0).st == .claimed) = true
    ∧ onNext (exec (.loadChunk 0) k) (fun t => (t.part 0).load == some { ld with bytes := l } && t.byte (spAddr 0 0x10F) == 16) = true := by decide +kernel
/-- LOAD_END of the image under its signature, and the start of the partition. -/
theorem witness_ImagesLoadAndStart_end :
    let l := imageBody ++ imageBlock
    let ld : Load := { len := l.length, bytes := l }
    let s := asks ((inState .claimed).setPart 0 { (inState .claimed).part 0 with load := some ld }) (cmd 0x05 0 0 0 [])
    let k := { s with flash := { s.flash with owner := some testKey } }
    let im := readImage l 8
    let r := asks ((inState .loaded).setPart 0 { (inState .loaded).part 0 with image := some im }) (cmd 0x06 0 0 0 [])
    runsOk 0x05 0 Claims.bare true false (fun st => st == .claimed && (k.part 0).load.isSome) k = true ∧ ld.len ≤ ld.bytes.length
    ∧ k.imageSigner l = some 8 ∧ s.imageSigner l = none ∧ (Tbl.get 0 k.flash.mins 8).toNat ≤ leAt l 48 4 ∧ tablesOk l 8 = true
    ∧ k.imageMisfit 0 l = none ∧ k.collMisfit 0 l = none ∧ k.memMisfit 0 l = none
    ∧ runsOk 0x06 0 Claims.bare true false (fun st => st == .loaded) r = true ∧ (r.partFloes 0)[3]? = some 3 ∧ (Tbl.get [] im.entries 3).getD 0 0xFFFFFFFF = 0x100
    ∧ onNext (exec (.loadEnd 0) k) (fun t => (t.part 0).st == .loaded && ((t.part 0).image.map (fun i => i.step)) == some 9 && (t.floe 5).codeSize == 0x1000 && answered t 0 0) = true
    ∧ onNext (exec (.start 0) r) (fun t => (t.part 0).st == .running && (t.part 0).stepCount == 9 && (t.stream 3 .fwd).pc == 0x100 && (t.stream 3 .fwd).reg 1 == 3
        && (t.stream 3 .bwd).st == .halted && (t.floe 3).gnCommit == 0x40000000) = true := by decide +kernel
/-- PAUSE with and without an open step, its expiry, RESUME, ABORT when idle and when not. -/
theorem witness_PauseResumeAbort :
    let s := asks (base.setFloe 0 floe0) (cmd 0x07 0 0 0 [])
    let o := s.setPart 0 { s.part 0 with steps := [treeStep .norm] }
    let w := o.setPart 0 { o.part 0 with pausing := true }
    let y : StreamSt := { st := .paused }
    let r := asks ((inState .paused).setFloe 0 { floe0 with fwd := y }) (cmd 0x08 0 0 0 [])
    let a := asks (base.setFloe 0 floe0) (cmd 0x09 0 0 0 [])
    let z := a.setFloe 0 { floe0 with slds := [{ stream := .fwd, rd := 3, value := 1 }] }
    runsOk 0x07 0 Claims.bare true false (fun st => st == .running) s = true ∧ s.calving 0 = false ∧ (s.part 0).openSteps = [] ∧ (o.part 0).openSteps ≠ []
    ∧ runsOk 0x08 0 Claims.bare true false (fun st => st == .paused) r = true ∧ (r.part 0).steps = []
    ∧ runsOk 0x09 0 Claims.bare true false (fun st => st == .running || st == .paused || st == .degraded || st == .faulted) a = true
    ∧ (a.stopStreams 0).floesIdle 0 = true ∧ (z.stopStreams 0).floesIdle 0 = false
    ∧ onNext (exec (.pause 0) s) (fun t => (t.part 0).st == .paused && (t.stream 0 .fwd).st == .paused && answered t 0 0) = true
    ∧ onNext (exec (.pause 0) o) (fun t => (t.part 0).pausing && t.cmdq.map (fun c => c.busy) == [true]) = true
    ∧ onNext (exec (.pauseWaitExpiry 0) w) (fun t => !(t.part 0).pausing && (t.part 0).steps.all (fun e => e.abandoned)) = true
    ∧ onNext (exec (.resume 0) r) (fun t => (t.part 0).st == .running && (t.stream 0 .fwd).st == .running) = true
    ∧ onNext (exec (.abort 0) a) (fun t => (t.part 0).st == .loaded && (t.stream 0 .fwd).st == .idle && answered t 0 0) = true
    ∧ onNext (exec (.abort 0) z) (fun t => (t.part 0).st == .running && t.cmdq.length == 1) = true := by decide +kernel
/-- MEM_WRITE and MEM_READ at the last four bytes of a floe's scratchpad, and past them; both TELEM records. -/
theorem witness_HostReadsAndWritesMemory :
    let a := spAddr 7 0x5FFFFC
    let w := fun (a : Nat) => asks base (cmd 0x10 0 (BitVec.ofNat 64 a) 0 [1, 2, 3, 4])
    let r := asks (base.poke a [5, 6]) (cmd 0x11 0 (BitVec.ofNat 64 a) 4 [])
    runsOk 0x10 0 (fun c => c.arg1 == 0) true false legalMem (w a) = true ∧ a % 4 = 0 ∧ base.hostMay 0 a 4 true = true ∧ base.memHeld a 4 = false
    ∧ base.allGood [] a = true ∧ base.lostAt a = false ∧ runsOk 0x11 0 (fun c => c.payload.isEmpty) true false legalMem r = true
    ∧ runsOk 0x40 0 (fun c => c.arg1 == 0 && c.payload.isEmpty && c.arg0 == 1) true true (fun st => st != .free) (asks base (cmd 0x40 0 1 0 [])) = true
    ∧ runsOk 0x40 15 (fun c => c.arg1 == 0 && c.payload.isEmpty && c.arg0 == 0) true true (fun st => st != .free) (asks base (cmd 0x40 15 0 0 [])) = true
    ∧ onNext (exec (.memWrite 0 []) (w a)) (fun t => t.byte (a + 3) == 4 && answered t 0 0) = true
    ∧ onNext (exec (.memWrite 0 []) (w (a + 4))) (fun t => t.byte (a + 4) == 0 && answered t 6 3) = true
    ∧ onNext (exec (.memRead 0 []) r) (fun t => ((t.ep 0).rx.getLast?).any (fun i => sliceB i.bytes 32 4 == [5, 6, 0, 0])) = true
    ∧ onNext (exec (.telem 0) (asks base (cmd 0x40 0 1 0 []))) (fun t => ((t.ep 0).rx.getLast?).any (fun i => i.bytes.getD 40 0 == 3)) = true
    ∧ onNext (exec (.telem 15) (asks base (cmd 0x40 15 0 0 []))) (fun t => answered t 0 0) = true := by decide +kernel

/-! ## Registers and time (spec/12, spec/15, spec/16) -/

/-- A write of two masks of floe 0's page, one of an illegal FLOE_STREAM_CTL, a read of one register, a snapshot. -/
theorem witness_RegistersAndHeadersAct_CsrCommandsReachRegisters :
    let a := csrBase 0 + 0x101C
    let f := csrBase 0 + 0x1100
    let w := asks base (cmd 0x12 15 (BitVec.ofNat 64 a) 1 [5, 0, 0, 0])
    let b := asks base (cmd 0x12 0 (BitVec.ofNat 64 f) 1 [0, 0, 1, 0])
    let r := asks (base.setHdr 0 1 { errMask := 9 }) (cmd 0x13 15 (BitVec.ofNat 64 a) 1 [])
    let c := cmd 0x12 15 (BitVec.ofNat 64 a) 1 [5, 0, 0, 0]
    runsOk 0x12 15 (fun _ => true) true true legalMem w = true ∧ base.csrReach c a 1 = true ∧ base.csrReach c a 16 = true
    ∧ (csrAddrs a 1).all (fun b => base.present (csrDie b) (csrPage b)) = true ∧ (base.ep 0).mgmt = true ∧ base.csrWaits (csrAddrs a 1) = false
    ∧ base.badWord 0 a [5] = none ∧ base.badWord 0 f [0x10000] = some f ∧ partWritable f = true ∧ runsOk 0x12 0 (fun _ => true) true true legalMem b = true
    ∧ runsOk 0x13 15 (fun c => c.payload.isEmpty) true true legalMem r = true ∧ wideLow a = false ∧ wideHigh a = false
    ∧ onNext (exec (.csrWrite 15) w) (fun t => (t.hdr 0 1).errMask == 5 && answered t 0 0) = true
    ∧ onNext (exec (.csrWrite 0) b) (fun t => (t.hdr 0 1).errCount == 1 && answered t 6 4) = true
    ∧ onNext (exec (.csrRead 15) r) (fun t => ((t.ep 0).rx.getLast?).any (fun i => sliceB i.bytes 32 4 == [9, 0, 0, 0])) = true := by decide +kernel
/-- What SNAPSHOT asks, at the last place in its near memory where eight pages fit. -/
theorem witness_RegistersAndHeadersAct_CsrCommandsReachRegisters_snapshot :
    let a := 0x7FFFE000
    let s := asks (inState .paused) (cmd 0x41 0 (BitVec.ofNat 64 a) 0 [])
    runsOk 0x41 0 (fun c => c.arg1 == 0 && c.payload.isEmpty) true false (fun st => st == .loaded || st == .paused || st == .degraded || st == .faulted) s = true
    ∧ 1024 * (s.partFloes 0).length = 8192 ∧ a + 8192 < cxlBase ∧ s.hostMay 0 a 8192 true = true ∧ s.hostMay 0 a 8196 true = false ∧ s.memHeld a 8192 = false
    ∧ s.allGood [] a = true ∧ s.lostAt a = false := by decide +kernel
/-- GO with and without ISOLATE, HOLD and FREEZE of a near-memory page, and of the RAS page, which no block reset reaches. -/
theorem witness_RegistersAndHeadersAct_HeaderControlsAct :
    let i := base.setHdr 0 0x80 { isolate := true }
    base.present 0 0x80 = true ∧ base.resetOk 0 0x80 = true ∧ base.present 0 0xC1 = true ∧ base.resetOk 0 0xC1 = false ∧ (base.hdr 0 0x80).resetState = 0
    ∧ onNext (exec (.resetCtrlGo 0 0x80) base) (fun t => (t.hdr 0 0x80).resetState == 1) = true ∧ onNext (exec (.resetCtrlGo 0 0x80) i) (fun t => (t.hdr 0 0x80).resetState == 2) = true
    ∧ onNext (exec (.ctrlHold 0 0x80 true) base) (fun t => (t.hdr 0 0x80).hold) = true
    ∧ onNext (exec (.ctrlHold 0 0x80 false) (base.setHdr 0 0x80 { hold := true })) (fun t => !(t.hdr 0 0x80).hold) = true
    ∧ onNext (exec (.resetCtrlGo 0 0xC1) base) (fun t => (t.hdr 0 0xC1).errCount == 1 && (t.hdr 0 0xC1).resetState == 0) = true
    ∧ onNext (exec (.ctrlFreeze 0 0x80 true) base) (fun t => (t.hdr 0 0x80).freeze) = true
    ∧ onNext (exec (.ctrlFreeze 0 0x80 false) base) (fun t => !(t.hdr 0 0x80).freeze) = true := by decide +kernel
/-- A write-1-to-clear register while hardware sets a bit, a mask, a legal and an illegal value of NMC_CFG, and an endpoint's configuration, open and locked. -/
theorem witness_RegisterRowsTakeEffect_RegisterWritesTakeEffect :
    let a := csrBase 0 + 0x80000
    let s := base.setHdr 0 0x80 { errStatus := 3 }
    let e := 0x10000FF000
    epReg a = none ∧ csrBase 0 ≤ a ∧ a < csrBase 2 ∧ s.present 0 (csrPage a) = true ∧ csrPage a = 0x80 ∧ csrOff (a + 0x18) = 0x18 ∧ wideLow (a + 0x40) = false ∧ wideHigh (a + 0x40) = false
    ∧ s.legalReg 0x80 0x40 0x186404 = true ∧ s.legalReg 0x80 0x40 0x186405 = false ∧ epReg e = some (0, 0) ∧ (s.ep 0).tx = []
    ∧ onNext (exec (.registerWrite (a + 0x18) 3 2) s) (fun t => (t.hdr 0 0x80).errStatus == 2) = true
    ∧ onNext (exec (.registerWrite (a + 0x1C) 7 0) s) (fun t => (t.hdr 0 0x80).errMask == 7) = true
    ∧ onNext (exec (.registerWrite (a + 0x28) 6 0) s) (fun t => (t.hdr 0 0x80).intEnable == 6) = true
    ∧ onNext (exec (.registerWrite (a + 0x40) 0x196403 0) s) (fun t => (t.nmc 0).rate == 3 && (t.nmc 0).patrol == 0x19) = true
    ∧ onNext (exec (.registerWrite (a + 0x40) 0x196405 0) s) (fun t => (t.nmc 0).rate == 4 && (t.hdr 0 0x80).errCount == 1) = true
    ∧ onNext (exec (.registerWrite e 0x80000002 0) s) (fun t => (t.ep 0).lock && !(t.ep 0).enable) = true
    ∧ onNext (exec (.registerWrite e 1 0) (s.setEp 0 { s.ep 0 with lock := true })) (fun t => (t.ep 0).mgmt) = true := by decide +kernel
/-- The single-register rows, each with a value it takes and one it refuses: the power cap at 1,000 W and at the grade's limit. -/
theorem witness_RegisterRowsTakeEffect_SingleRegisterRows :
    let r := { base with straps := { base.straps with x := 0 } }
    r.isRoot = true ∧ r.time.everUp = false ∧ r.time.setDone = false ∧ mesh.isRoot = false ∧ base.router.use1 = .free ∧ base.router.use0 ≠ .free ∧ base.variant.maxWatts = 2800
    ∧ onNext (exec .rstWdtKick base) (fun t => t.rst.kicked == 0) = true ∧ onNext (exec (.routerBank 1 0x3FFF) base) (fun t => t.router.bank1.usable == 0xFFF && t.router.bank1.adapt == 3) = true
    ∧ onNext (exec (.routerBank 0 0x3FFF) base) (fun t => (t.hdr 0 0xA0).errCount == 1) = true
    ∧ onNext (exec (.routerBank 0 5) (base.setRouter { base.router with use0 := .free, use1 := .active })) (fun t => t.router.bank0.usable == 5) = true
    ∧ onNext (exec (.routerBank 1 5) (base.setRouter { base.router with use0 := .free, use1 := .active })) (fun t => (t.hdr 0 0xA0).errCount == 1) = true
    ∧ onNext (exec (.pwrCap 1000) base) (fun t => t.power.cap == 1000) = true ∧ onNext (exec (.pwrCap 2800) base) (fun t => t.power.cap == 2800) = true
    ∧ onNext (exec (.pwrCap 999) base) (fun t => (t.hdr 0 0xB0).errCount == 1) = true ∧ onNext (exec (.pwrCap 2801) base) (fun t => (t.hdr 0 0xB0).errCount == 1) = true
    ∧ onNext (exec (.timeSet 7) r) (fun t => t.time.systime == 7 && t.time.setDone) = true ∧ onNext (exec (.timeSet 7) mesh) (fun t => t.time.systime == 0) = true := by decide +kernel
/-- The exchange of spec/15's worked example gives 8.000 ns: an aligned device slews by it, and one that is not steps; the third offset below 1 ns aligns; a request; the reference clock. -/
theorem witness_TimeIsExchanged :
    let reply := fun (t2 : Int) => Instr.time (.reply 1000000000000 t2 1000000131000 1000000196000 0 0)
    let a : MeshPkt := { typ := 9, ch := 7 }
    let s := mesh.setRouter { mesh.router with inbox := [{ port := 0, p := a, stomp := false }] }
    let n := { s with time := { s.time with aligned := false, good := 2, systime := 100 } }
    s.isRoot = false ∧ s.parentPort = some 0 ∧ (s.port 0).feat.getLsbD 4 = true ∧ s.drained 0 = false ∧ (s.port 0).queue = [] ∧ s.mayStart 0 (s.timePkt 0) = true ∧ (s.takePkt (fun p => p.typ == 9)).isSome = true
    ∧ onNext (exec .timeExchange s) (fun t => t.time.parent == 0 && t.router.sent.length == 1) = true
    ∧ onNext (exec (.time (.request 0)) s) (fun t => t.router.sent.length == 1) = true
    ∧ onNext (exec (reply 1000000081000) s) (fun t => t.time.offset == 8000 && t.time.slew == 80000 && t.time.systime == 0) = true
    ∧ onNext (exec (reply 1000000081000) n) (fun t => t.time.systime == 108 && t.time.good == 0 && !t.time.aligned) = true
    ∧ onNext (exec (reply 1000000066998) n) (fun t => t.time.good == 3 && t.time.aligned && t.time.systime == 100) = true
    ∧ s.time.refLost = false ∧ onNext (exec .refclkLoss s) (fun t => t.time.refLost && (t.hdr 0 0xC2).errStatus == 1) = true
    ∧ onNext (exec .refclkRelock s) (fun t => !t.time.refLost) = true := by decide +kernel

/-! ## Optics (spec/11) -/

/-- The device with a chiplet. -/
def withChip (x : Chip) : State := mesh.setChip 0 x
/-- Every laser's reference is 0 dB. -/
def refs : Tbl Int := (List.range 12).map (fun l => (l, 0))
/-- Averages at each bound of a wavelength in NORMAL, WARN and PREPARED; an idle, a tuning and a failed laser. -/
theorem witness_LaserAveragesMoveWavelengths :
    let w := fun (k : Nat) => ({ wlState := [(0, k)], laserRef := refs } : Chip)
    let z := { w 2 with laserState := [(8, 3)], spareFor := [(8, 0)] }
    let u := { w 2 with laserState := [(8, 2)], spareFor := [(8, 0)] }
    let n := { w 2 with laserState := [(8, 5), (9, 5), (10, 5), (11, 5)] }
    let wl := fun (x : Chip) (v : Int) (k : Nat) => onNext (exec (.laserSample 0 0 v) (withChip x)) (fun t => (t.chip 0).wl 0 == k)
    (w 0).laser 0 = 0 ∧ (w 0).laser 8 = 1 ∧ u.laser 8 = 2 ∧ (List.range 8).find? (fun k => (w 0).feeds k == 0) = some 0 ∧ averageOf [-100] = -100
    ∧ (withChip (w 0)).laserRef 0 8 = 0 ∧ (withChip (w 0)).suspended 0 = false
    ∧ (z.spare 0 3).isSome = true ∧ z.autoSwap = true ∧ z.busy = none ∧ z.steering = false ∧ n.noSpare 0 = true
    ∧ onNext (exec (.laserSample 0 8 (-300)) (withChip (w 0))) (fun t => Tbl.get 0 (t.chip 0).laserDb 8 == -300 && (t.chip 0).laser 8 == 1) = true
    ∧ onNext (exec (.laserSample 0 8 (-599)) (withChip u)) (fun t => (t.chip 0).laser 8 == 2) = true
    ∧ onNext (exec (.laserSample 0 8 (-600)) (withChip u)) (fun t => (t.chip 0).laser 8 == 5) = true
    ∧ wl (w 0) (-99) 0 = true ∧ wl (w 0) (-100) 1 = true ∧ wl (w 0) (-149) 1 = true ∧ wl (w 0) (-150) 2 = true ∧ wl (w 1) (-199) 2 = true
    ∧ wl z (-200) 3 = true ∧ wl z (-599) 3 = true ∧ wl n (-200) 5 = true ∧ wl (w 2) (-125) 1 = true ∧ wl (w 2) (-76) 1 = true ∧ wl (w 2) (-75) 0 = true
    ∧ wl (w 1) (-75) 0 = true
    ∧ onNext (exec (.laserSample 0 0 (-600)) (withChip (w 0))) (fun t => (t.chip 0).laser 0 == 5) = true
    ∧ onNext (exec (.laserLockLoss 0 0) (withChip (w 0))) (fun t => (t.chip 0).laser 0 == 5) = true := by decide +kernel
/-- A spare that is tuned, beside a working and a failed laser; a swap that ends; a swap by register, begun and refused. -/
theorem witness_LasersAreSparedAndRecalibrated_SparesTakeOver :
    let x : Chip := { laserState := [(8, 2)], spareFor := [(8, 0)], laserRef := refs }
    let y := { x with laserState := [(8, 3)] }
    let f := { x with laserState := [(0, 5), (8, 2)] }
    let b := { y with busy := some (0, true), wlState := [(0, 3)], wlLaser := [(0, 8)], laserState := [(8, 0)] }
    (withChip x).suspended 0 = false ∧ x.laser 8 = 2 ∧ x.spareFor.find 8 = some 0 ∧ x.laser (x.feeds 0) ≠ 5 ∧ f.laser (f.feeds 0) = 5 ∧ b.waiting = []
    ∧ b.laser 0 = 0 ∧ (List.range 8).all (fun v => b.feeds v != 0) = true
    ∧ y.wl 0 < 3 ∧ (y.spare 0 3).isSome = true ∧ y.busy = none ∧ y.steering = false ∧ (x.spare 0 3).isSome = false
    ∧ onNext (exec (.spareReady 0 8) (withChip x)) (fun t => (t.chip 0).laser 8 == 3) = true
    ∧ onNext (exec (.spareReady 0 8) (withChip f)) (fun t => (t.chip 0).feeds 0 == 8 && (t.chip 0).laser 8 == 0 && (t.chip 0).wl 0 == 0) = true
    ∧ onNext (exec (.laserSwapComplete 0) (withChip b)) (fun t => (t.chip 0).feeds 0 == 8 && (t.chip 0).laser 0 == 4 && (t.chip 0).swaps == 1 && (t.chip 0).wl 0 == 0
        && (t.chip 0).busy == none) = true
    ∧ onNext (exec (.optLaserCmdSwap 0 0) (withChip y)) (fun t => (t.chip 0).wl 0 == 3 && (t.chip 0).busy == some (0, true) && (t.chip 0).swapReq == some 0) = true
    ∧ onNext (exec (.optLaserCmdSwap 0 0) (withChip x)) (fun t => (t.chip 0).busy == none && (t.hdr 0 0xA8).errCount == 1) = true := by decide +kernel
/-- A recalibration by register and by its period; its end, one ring of two still faulted. -/
theorem witness_LasersAreSparedAndRecalibrated_RecalibrationDrainsAndReturns :
    let x : Chip := { laserRef := refs }
    let b : Chip := { busy := some (1, false), wlState := [(1, 4)], slotFault := 0x301, rxFault := 0x200, laserRef := refs }
    (withChip x).suspended 0 = false ∧ x.wl 7 < 3 ∧ x.busy = none ∧ x.steering = false ∧ b.waiting = []
    ∧ onNext (exec (.optLaserCmdRecal 0 7) (withChip x)) (fun t => (t.chip 0).wl 7 == 4 && (t.chip 0).recalReq == some 7) = true
    ∧ onNext (exec (.wavelengthRecal 0 7) (withChip x)) (fun t => (t.chip 0).wl 7 == 4 && (t.chip 0).busy == some (7, false)) = true
    ∧ onNext (exec (.wavelengthRecalComplete 0 0x100 0) (withChip b)) (fun t => (t.chip 0).slotFault == 0x101 && (t.chip 0).rxFault == 0 && (t.chip 0).recals == 1
        && (t.chip 0).wl 1 == 0 && (t.chip 0).busy == none) = true := by decide +kernel
/-- A faulted modulator ring of port 1's slot 2, and a faulted drop ring there; the substrate at 80 degrees and a sixteenth above. -/
theorem witness_ChipletsAreServiced_RingsAndSubstrate :
    let s := (mesh.setPort 1 { upPort with lanes := 0xC }).setChip 0 { mesh.chip 0 with rxLocked := 0xC }
    (s.port 1).st ≠ .down ∧ (s.port 1).st ≠ .uncabled
    ∧ onNext (exec (.ringFault 0 2 false true) s) (fun t => (t.chip 0).slotFault == 4 && (t.port 1).lanes == 8 && (t.hdr 0 0xA8).errStatus == 2) = true
    ∧ onNext (exec (.ringFault 0 2 true true) s) (fun t => (t.chip 0).rxFault == 4 && (t.chip 0).rxLocked.getLsbD 2 == false && Tbl.find t.flash.rxFaults 0 == some 4) = true
    ∧ onNext (exec (.substrateTempCheck 0 1280) s) (fun t => (t.chip 0).temp == 1280 && (t.hdr 0 0xA8).errStatus == 0) = true
    ∧ onNext (exec (.substrateTempCheck 0 1281) s) (fun t => (t.chip 0).temp == 1281 && (t.hdr 0 0xA8).errStatus == 4) = true
    ∧ onNext (exec (.substrateTempCheck 0 (-1)) s) (fun t => (t.chip 0).temp == 0xFFFF) = true := by decide +kernel
/-- A mesh shuttle and the OED's, removed and seated; a port that sources know and one that no bank names, drained; the LED frame. -/
theorem witness_ChipletsAreServiced_ShuttlesAndService :
    let k := mesh.setPort 1 { upPort with announced := true }
    let z := mesh.setRouter { mesh.router with bank0 := {} }
    (mesh.chip 0).shuttle = true ∧ (mesh.port 1).st ≠ .uncabled ∧ (k.port 1).announced = true ∧ z.router.bank0.usable.getLsbD 1 = false ∧ z.router.bank1.usable.getLsbD 1 = false
    ∧ mesh.rst.phase = .ready
    ∧ onNext (exec (.shuttleRemoved 0) mesh) (fun t => (t.chip 0).dump && (t.port 1).st == .down && (t.hdr 0 0xA8).errStatus == 8) = true
    ∧ onNext (exec (.shuttleRemoved 3) (mesh.setOedPort 0 { linkA := true })) (fun t => !(t.oedPort 0).linkA && (t.hdr 1 0xA9).errStatus == 8) = true
    ∧ onNext (exec (.shuttleSeated 0) (withChip { shuttle := false, dump := true })) (fun t => (t.chip 0).shuttle && !(t.chip 0).dump) = true
    ∧ onNext (exec (.optServiceDrain 0 2) k) (fun t => (t.chip 0).drain == 2 && !(t.port 1).announced) = true
    ∧ onNext (exec (.optServiceDrain 0 2) z) (fun t => (t.chip 0).safe == 2) = true
    ∧ onNext (exec .sledFrame mesh) (fun t => t.sled.length == 256) = true := by decide +kernel

/-! ## OED (spec/11, spec/13) -/

/-- An OED frame: the packet's bytes without padding, its UDP checksum set (spec/11 R387). -/
def oedBytes (p : MeshPkt) : List Byte :=
  let l := (wire p).take (98 + p.payload.length)
  let n := beAt l 62 2
  l.take 64 ++ beBytes 2 (0xFFFF - fold16 (fold16 (sum16 (sliceB l 26 32) + n + 17 + sum16 (sliceB l 58 n)))) ++ l.drop 66
/-- The mesh device with OED port 0 up and a session with the device at (2, 0, 0). -/
def oedUp : State := let s := mesh.setOedPort 0 { linkA := true }; { s with oed := { s.oed with sessions := [{ peer := 2, z := 0 }] } }
/-- A frame for the partition with its 24-byte trailer, one for management, one that fails a check, one of another device, a replayed counter and a bad tag. -/
theorem witness_OedFramesAndPorts_OedFramesAreChecked :
    let p : MeshPkt := { hop := 9, src := BitVec.ofNat 128 (ifId (2, 0, 0) false 3), dst := BitVec.ofNat 128 (ifId (1, 0, 0) false 0), ch := 4, typ := 7, payload := [9] ++ zeros 24 }
    let b := oedBytes p
    let m := oedBytes { p with dst := BitVec.ofNat 128 (ifId (1, 0, 0) true 0), ch := 0, typ := 8 }
    let d := oedBytes { p with dst := BitVec.ofNat 128 (ifId (1, 0, 0) true 0) }
    let bad := b.set 97 1
    let r := { oedUp with oed := { oedUp.oed with replay := [((2, 3, 0), { high := 70, any := true, got := [6] })] } }
    let n := { oedUp with oed := { oedUp.oed with sessions := [] } }
    oedUp.oedHeaderOk b = true ∧ oedUp.oedHeaderOk m = true ∧ oedUp.oedHeaderOk d = true ∧ oedUp.oedHeaderOk bad = false ∧ (oedUp.oedPort 0).linkA = true ∧ oedUp.rst.phase ≠ .warm
    ∧ (oedUp.part 0).st = .running ∧ (oedUp.part 0).keys = true ∧ 24 ≤ (readPkt (oedAsMesh b)).payload.length ∧ (oedUp.oed.session 2).isSome = true ∧ n.oed.session 2 = none
    ∧ onNext (exec (.oedFrame 0 b 5 true 3 1) oedUp) (fun t => t.router.inbox.map (fun a => a.p.payload) == [[9]] && (t.oed.window (2, 3, 0)).any (fun w => w.high == 5) && (t.oedPort 0).fecCorr == 3 && (t.oedPort 0).fecUncorr == 1) = true
    ∧ onNext (exec (.oedFrame 0 b 6 true 0 0) r) (fun t => t.router.inbox == [] && t.oed.discards == 1) = true
    ∧ onNext (exec (.oedFrame 0 b 7 true 0 0) r) (fun t => t.router.inbox.length == 1) = true ∧ onNext (exec (.oedFrame 0 b 5 true 0 0) r) (fun t => t.oed.discards == 1) = true
    ∧ onNext (exec (.oedFrame 0 b 5 false 0 0) oedUp) (fun t => t.oed.discards == 1) = true ∧ onNext (exec (.oedFrame 0 b 5 true 0 0) n) (fun t => t.oed.discards == 1) = true
    ∧ onNext (exec (.oedFrame 0 m 0 true 0 0) oedUp) (fun t => t.router.inbox.map (fun a => a.port) == [13]) = true
    ∧ onNext (exec (.oedFrame 0 d 0 true 0 0) oedUp) (fun t => t.oed.discards == 1) = true
    ∧ onNext (exec (.oedFrame 0 bad 5 true 0 0) oedUp) (fun t => t.oed.discards == 1) = true := by decide +kernel
/-- A counter 64 below the highest is accepted, once; one 65 below is not. -/
theorem witness_ReplayedCountersAreRefused :
    let r : Replay := { high := 100, any := true, got := [] }
    r.accepts 36 = true ∧ r.accepts 35 = false ∧ (r.take 36).accepts 36 = false ∧ r.accepts 101 = true ∧ (r.take 101).accepts 101 = false ∧ ({} : Replay).accepts 0 = true := by decide
/-- Frames and events of an OED port; a frame that waits for a paused priority 0; a sub-port whose laser is retired. -/
theorem witness_OedFramesAndPorts_OedPortsServe :
    let d := oedUp.setChip 3 { drain := 1 }
    let q := oedUp.setOedPort 0 { linkA := true, paused := 0x11, queue := [oedPlain 0 .lldp] }
    let r := oedUp.setChip 3 { wlState := [(1, 5)] }
    (oedUp.oedPort 0).mode ≠ 1 ∧ (d.chip 3).drain.getLsbD 0 = true ∧ (d.oedPort 0).queue = [] ∧ (oedUp.chip 3).drain.getLsbD 0 = false ∧ (oedUp.oedPort 0).paused.getLsbD 0 = false
    ∧ (oedUp.oedPort 0).queue = [] ∧ (oedUp.chip 3).dump = false ∧ oedUp.linksStart = true ∧ oedUp.oedHalfOut 0 1 = false ∧ r.oedHalfOut 0 1 = true ∧ r.oedHalfOut 0 0 = false
    ∧ onNext (exec (.lldp 0 [1]) oedUp) (fun t => t.oed.lldpRx == [(0, [1])] && t.oed.sent.map (fun x => (x.port, x.frame.body)) == [(0, .lldp)]) = true
    ∧ onNext (exec (.pfcFrame 0 false 0x9F) oedUp) (fun t => (t.oedPort 0).paused == 0x10) = true
    ∧ onNext (exec (.pfcFrame 0 false 0) q) (fun t => (t.oedPort 0).queue == [] && t.oed.sent.map (fun x => (x.port, x.frame.body)) == [(0, .lldp)]) = true
    ∧ onNext (exec (.pfcFrame 0 true 0xFF) oedUp) (fun t => t.oed.discards == 1) = true
    ∧ onNext (exec (.icmpv6 0 true .echoRequest) oedUp) (fun t => t.oed.sent.map (fun x => (x.port, x.frame.body)) == [(0, .echoReply)]) = true
    ∧ onNext (exec (.icmpv6 0 true .neighborSolicitation) oedUp) (fun t => t.oed.sent.map (fun x => (x.port, x.frame.body)) == [(0, .neighborAdvertisement)]) = true
    ∧ onNext (exec (.icmpv6 0 true .other) oedUp) (fun t => t.oed.discards == 1) = true
    ∧ onNext (exec (.icmpv6 0 false .echoRequest) oedUp) (fun t => t.oed.discards == 1) = true
    ∧ onNext (exec (.oedPortCfg 0 1) oedUp) (fun t => (t.oedPort 0).mode == 1 && !(t.oedPort 0).linkA) = true
    ∧ onNext (exec (.oedPortCfg 0 2) oedUp) (fun t => (t.hdr 1 0xA9).errCount == 1) = true
    ∧ onNext (exec (.oedLinkState 0 1 true) (oedUp.setOedPort 0 { mode := 1 })) (fun t => (t.oedPort 0).linkB) = true
    ∧ onNext (exec (.oedLinkState 0 1 true) (r.setOedPort 0 { mode := 1 })) (fun t => !(t.oedPort 0).linkB) = true
    ∧ onNext (exec (.oedLinkState 0 0 true) (r.setOedPort 0 {})) (fun t => (t.oedPort 0).linkA) = true
    ∧ onNext (exec (.oedLinkState 0 0 false) oedUp) (fun t => !(t.oedPort 0).linkA) = true
    ∧ onNext (exec (.oedDrainSafe 0) d) (fun t => (t.chip 3).safe == 1) = true := by decide +kernel

/-! ## Near memory and CXL (spec/08) -/

/-- The device with interfaces 0 and 1 alone, 40 GiB. -/
def twoIfs : State := { base with nm := { base.nm with base := 0xFFFFFFFFFFFC } }
/-- Zipping two lists that are not empty is not empty. -/
theorem zip_ne_nil {α β γ : Type} (g : α → β → γ) : ∀ (a : List α) (b : List β), a ≠ [] → b ≠ [] → List.zipWith g a b ≠ [] := by
  intro a b; cases a <;> cases b <;> simp
/-- A list without its repetitions is not empty where the list is not. -/
theorem dups_ne_nil {α : Type} [BEq α] (a : List α) (h : a ≠ []) : a.eraseDups ≠ [] := by
  cases a
  · exact absurd rfl h
  · simp [List.eraseDups_cons]
/-- A retirement waits for another, is blocked by a unit of the top 20, moves frames where none is held, and ends at once where it has none. -/
theorem witness_InterfacesAreRetiredAndPatrolled_PlannedRetirement :
    let b := twoIfs.setPart 0 { twoIfs.part 0 with near := [20] }
    let c : Retire := { iface := 1, blocked := false, moves := [(7, 0, 9)] }
    let m := { twoIfs with nm := { twoIfs.nm with cur := some c } }
    let q := { twoIfs with nm := { twoIfs.nm with cur := some { c with blocked := true, moves := [] } } }
    twoIfs.ifState 1 = 0 ∧ 1 ∉ twoIfs.nm.queue ∧ twoIfs.nm.cur = none ∧ b.topUnits.any (fun u => b.unitHeld u) = true ∧ twoIfs.topUnits.all (fun u => !twoIfs.unitHeld u) = true
    ∧ q.topUnits.all (fun u => !q.unitHeld u) = true ∧ twoIfs.topUnits.head? = some 20
    ∧ onNext (exec (.nmmapRetire 1) b) (fun t => t.nm.cur == some { iface := 1, blocked := true, moves := [] } && t.nm.withdrawn == 0 && (t.hdr 0 0xC5).errStatus == 2) = true
    ∧ onNext (exec (.nmmapRetire 0) m) (fun t => t.nm.queue == [0]) = true
    ∧ onNext (exec .frameMoveComplete m) (fun t => Tbl.find t.nm.moved 7 == some (0, 9) && t.nm.retired == 2 && t.flash.retiredIfs == [1]) = true
    ∧ onNext (exec .frameMoveComplete { m with nm := { m.nm with cur := some { c with moves := [(7, 0, 9), (9, 0, 11)] } } }) (fun t => t.nm.cur == some { c with moves := [(9, 0, 11)] }) = true := by decide +kernel
/-- The frames of a retiring interface find slots. -/
theorem witness_InterfacesAreRetiredAndPatrolled_PlannedRetirement_moves :
    (twoIfs.setIf 1 1).withdraw.plannedMoves 1 ≠ [] := by
  unfold State.plannedMoves
  apply zip_ne_nil
  · decide +kernel
  · unfold State.freeSlots
    apply dups_ne_nil
    decide +kernel
/-- The one interface left has no slot for its frames: its retirement ends at once, asked for or unblocked. -/
theorem witness_InterfacesAreRetiredAndPatrolled_PlannedRetirement_alone :
    let o := { base with parts := [], nm := { base.nm with base := 0xFFFFFFFFFFFE } }
    let q := { o with nm := { o.nm with cur := some { iface := 0, blocked := true, moves := [] } } }
    o.ifState 0 = 0 ∧ o.nm.cur = none ∧ o.nm.queue = [] ∧ o.topUnits.all (fun u => !o.unitHeld u) = true ∧ ((o.setIf 0 1).withdraw).plannedMoves 0 = []
    ∧ onNext (exec (.nmmapRetire 0) o) (fun t => t.nm.cur == none && t.nm.withdrawn == 1 && t.nm.retired.getLsbD 0 && t.flash.retiredIfs == [0]) = true
    ∧ onNext (exec .retirementUnblocked q) (fun t => t.nm.cur == none && t.flash.retiredIfs == [0]) = true := by decide +kernel
/-- The first granule of a patrol period, clean; a corrected and an uncorrectable line of the last unit; a window that trains, a second failure and a third. -/
theorem witness_InterfacesAreRetiredAndPatrolled_PatrolAndRecalibration :
    let f := fun (n : Nat) => base.setNmc 1 { trainFails := [(5, n)], rate := 3 }
    let a := 2 ^ 30 * 960 - 1
    base.populated = 960 ∧ base.ifState 5 < 2 ∧ base.nm.due = [] ∧ (base.place 0).2 = 0 ∧ base.unitBad [] 0 = false ∧ base.unitBad [] (a / 64 * 64) = false ∧ base.unitBad [(a, .wrong 4)] (a / 64 * 64) = true
    ∧ Tbl.get 0 (base.nmc ((base.place (a / 2 ^ 24)).1 / 4)).ifUe (base.place (a / 2 ^ 24)).1 + 1 ≠ 16
    ∧ onNext (exec (.patrolRead 0 []) (base.setNmc 0 { ifCe := [(0, 9)] })) (fun t => Tbl.get 0 (t.nmc 0).ifCe 0 == 0) = true
    ∧ onNext (exec (.patrolRead a [(a, .wrong 3)]) base) (fun t => (t.nmc ((base.place (a / 2 ^ 24)).1 / 4)).ecc == 1) = true
    ∧ onNext (exec (.patrolRead a [(a, .wrong 4)]) base) (fun t => inRange t.poison (a / 64 * 64) && (t.nmc ((base.place (a / 2 ^ 24)).1 / 4)).ue == 1) = true
    ∧ onNext (exec (.recalWindow 5 true) (f 2)) (fun t => Tbl.get 9 (t.nmc 1).trainFails 5 == 0 && (t.nmc 1).rateNow == 3) = true
    ∧ onNext (exec (.recalWindow 5 false) (f 1)) (fun t => Tbl.get 9 (t.nmc 1).trainFails 5 == 2 && t.nm.retired == 0) = true := by decide +kernel
/-- A third failure in a row retires the interface, the last one left, in the service record too. -/
theorem witness_InterfacesAreRetiredAndPatrolled_PatrolAndRecalibration_retires :
    let o := { base with parts := [], nm := { base.nm with base := 0xFFFFFFFFFFFE } }
    o.ifState 0 < 2 ∧ onNext (exec (.recalWindow 0 false) (o.setNmc 0 { trainFails := [(0, 2)] })) (fun t => t.nm.retired.getLsbD 0 && t.flash.retiredIfs.contains 0) = true := by decide +kernel
/-- A device that fits, one with no capacity, one whose link stays down, a lost window held and not held, and a write that times out. -/
theorem witness_CxlDevicesComeAndGo :
    let w : CxlWin := { base := cxlBase, gib := 64 }
    let s := base.setCxl 0 { wins := [(0, w)] }
    let h := s.setPart 0 { s.part 0 with cxl := [63] }
    let d : CxlDev := { port := 0, cap := 2 ^ 36 }
    ((base.cxl 0).train d).rate false = 2 ∧ ((base.cxl 0).train { d with rate := 0 }).rate false = 0
    ∧ ((base.cxl 0).train d).fit 0 64 = some (cxlBase, 64) ∧ [0, 1, 2, 3].find? (fun i => (Tbl.find ((base.cxl 0).train d).wins i).isNone) = some 0
    ∧ Tbl.find (s.cxl 0).wins 0 = some w ∧ w.covers (cxlBase + 2 ^ 30 * 63) = true ∧ w.covers (cxlBase + 2 ^ 30 * 64) = false ∧ (h.part 0).held = true ∧ (h.part 0).st ≠ .thawing ∧ s.window cxlBase ≠ none
    ∧ onNext (exec (.cxlHotAdd d) base) (fun t => Tbl.find (t.cxl 0).wins 0 == some w && (t.cxl 0).link != 0) = true
    ∧ onNext (exec (.cxlHotAdd { d with cap := 5 }) base) (fun t => (t.cxl 0).unplaced == 1) = true
    ∧ onNext (exec (.cxlHotAdd { d with rate := 0 }) base) (fun t => (t.cxl 0).wins == [] && (t.cxl 0).unplaced == 0) = true
    ∧ onNext (exec (.cxlLinkDown 0 0) h) (fun t => Tbl.find (t.cxl 0).wins 0 == some { w with lost := true } && (t.part 0).st == .degraded) = true
    ∧ onNext (exec (.cxlLinkDown 0 0) s) (fun t => (t.cxl 0).wins == [] && (t.hdr 0 0x88).errStatus == 4) = true
    ∧ onNext (exec (.cxlTimeout (cxlBase + 70) true) s) (fun t => (t.cxl 0).timeout == 1 && inRange t.poison (cxlBase + 64) && (t.cxl 0).late == [cxlBase + 64]) = true := by decide +kernel

/-! ## Calving, sites and dies (spec/14) -/

/-- GO for a site with a floe, for a spare, for a failed site and while a calving runs; the quiet point, the hold's end, the retry and the copy's end, on both dies and with no fuse left. -/
theorem witness_CalvingAndFailedSites_CalvingMovesAFloe :
    let j : Calve := { site := 0, dst := 104, floe := some 0 }
    let k : Calve := { site := 112, dst := 216, floe := some 104, copying := true }
    let s := fun (j : Calve) => base.setRas { base.ras with calve := some j }
    let f := base.setRas { base.ras with failed := [0], moved := [(0, 104)] }
    let l := { s { j with copying := true } with fuses := { base.fuses with rec0 := List.replicate 32 (5, 6) } }
    base.floeAt 0 = some 0 ∧ base.floeAt 104 = none ∧ base.floeAt 112 = some 104 ∧ base.spares 0 = [104, 105, 106, 107, 108, 109, 110, 111] ∧ base.ras.calve = none ∧ base.ras.failed = [] ∧ (s j).fwFirst 0 = false ∧ (s j).quiet 0 = true
    ∧ base.fuses.rec0.length < 32 ∧ base.fuses.rec1.length < 32
    ∧ onNext (exec (.rasCalveGo 0) base) (fun t => t.ras.calve == some j && (t.floe 0).held) = true
    ∧ onNext (exec (.rasCalveGo 104) base) (fun t => t.ras.calve == none && (t.hdr 0 0xC0).errCount == 1) = true
    ∧ onNext (exec (.rasCalveGo 0) f) (fun t => t.ras.calve == none && (t.hdr 0 0xC0).errCount == 1) = true
    ∧ onNext (exec (.rasCalveGo 1) (s j)) (fun t => t.ras.calve == some j && (t.hdr 0 0xC0).errCount == 1) = true
    ∧ onNext (exec .calveQuietPoint (s j)) (fun t => t.ras.calve == some { j with copying := true } && (t.floe 0).copying) = true
    ∧ onNext (exec .calveHoldTimeout (s j)) (fun t => t.ras.calve == some { j with waiting := true } && t.ras.deferred) = true
    ∧ onNext (exec .calveRetry (s { j with waiting := true })) (fun t => t.ras.calve == some j && (t.floe 0).held) = true
    ∧ onNext (exec .calveCopyComplete (s { j with copying := true })) (fun t => t.ras.calve == none && Tbl.find t.ras.moved 0 == some 104 && t.fuses.rec0 == [(0, 104)]) = true
    ∧ onNext (exec .calveCopyComplete (s k)) (fun t => Tbl.find t.ras.moved 104 == some 216 && t.fuses.rec1 == [(112, 216)]) = true
    ∧ onNext (exec .calveCopyComplete l) (fun t => t.flash.remap == [(0, 104)] && t.fuses == l.fuses) = true := by decide +kernel
/-- A hard failure with a spare and with none, of a site being calved and of its target; a spare's self-test; an add unit's test. -/
theorem witness_CalvingAndFailedSites_FailedSitesAndUnits :
    let n := base.setRas { base.ras with failed := [104, 105, 106, 107, 108, 109, 110, 111] }
    let u := base.setRouter { base.router with addFailed := 1, addIn := 0x3E }
    let c := base.setRas { base.ras with calve := some { site := 0, dst := 104, floe := some 0 } }
    base.floeAt 3 = some 3 ∧ base.floePart 3 = some 0 ∧ (base.part 0).st ≠ .thawing ∧ n.spares 0 = [] ∧ n.floeAt 3 = some 3 ∧ base.floeAt 111 = none ∧ c.spares 0 = [105, 106, 107, 108, 109, 110, 111]
    ∧ u.router.addFailed.getLsbD 0 = true ∧ u.router.addIn.getLsbD 0 = false ∧ base.flash.addRetired.getLsbD 0 = false
    ∧ onNext (exec (.siteHardFailure 3) base) (fun t => Tbl.find t.ras.moved 3 == some 104 && t.ras.failed == [3] && (t.part 0).st == .degraded) = true
    ∧ onNext (exec (.siteHardFailure 3) c) (fun t => Tbl.find t.ras.moved 3 == some 105 && t.ras.calve.isSome) = true
    ∧ onNext (exec (.siteHardFailure 0) c) (fun t => t.ras.calve == none && Tbl.find t.ras.moved 0 == some 104) = true
    ∧ onNext (exec (.siteHardFailure 104) c) (fun t => t.ras.calve == none && t.ras.failed == [104] && (t.part 0).st == .running) = true
    ∧ onNext (exec (.siteHardFailure 3) n) (fun t => t.ras.lost == [0] && (t.part 0).groups == 0) = true
    ∧ onNext (exec (.spareSelfTest 111 true) base) (fun t => t.ras.failed == []) = true
    ∧ onNext (exec (.spareSelfTest 111 false) c) (fun t => t.ras.failed == [111] && t.ras.calve.isSome) = true
    ∧ onNext (exec (.spareSelfTest 104 false) c) (fun t => t.ras.failed == [104] && t.ras.calve == none) = true
    ∧ onNext (exec (.addUnitTest 0 true) u) (fun t => t.router.addIn == 0x3F) = true
    ∧ onNext (exec (.addUnitTest 0 false) u) (fun t => t.flash.addRetired == 1) = true := by decide +kernel
/-- The heartbeat is lost with a partition on the other die; the control lane comes back, fails to, and the orphan rejoins; its data lanes are lost; lanes of a group are lost, the third being an error. -/
theorem witness_DiesSeparateAndRejoin :
    let s := base.setPart 1 { st := .running, groups := 0x2000, owner := some 0 }
    let o := base.setRas { base.ras with orphan := true }
    let b := o.setRas { o.ras with beatSince := some 0 }
    let m := { o with nm := { o.nm with base := 0xFFFFFF000000, retired := 0xFFFFFF000000 } }
    s.ras.orphan = false ∧ (s.dieGroups s.otherDie).contains 13 = true ∧ (s.dieGroups s.otherDie).contains 12 = false ∧ (s.part 1).groups.getLsbD 13 = true ∧ b.ras.beatSince ≠ none ∧ o.ras.orphan = true
    ∧ Tbl.get 0 base.ras.lanesLost 3 ≤ 2
    ∧ onNext (exec .heartbeatLoss s) (fun t => t.ras.orphan && t.ras.orphans == 1 && (t.part 1).st == .degraded && (t.part 1).groups == 0 && (t.part 0).st == .running) = true
    ∧ onNext (exec (.controlLaneRetrain true) o) (fun t => t.ras.ctrlUp && t.ras.beatSince == some 0) = true
    ∧ onNext (exec (.controlLaneRetrain false) b) (fun t => t.ras.beatSince == none) = true
    ∧ onNext (exec .orphanRejoin b) (fun t => !t.ras.orphan && t.sec.bridgeKey) = true
    ∧ onNext (exec .bridgeDataLaneLoss m) (fun t => t.ifState 24 == 2 && t.ifState 47 == 2 && t.ifState 23 == 0) = true
    ∧ onNext (exec (.bridgeLaneRetrain 3 2) base) (fun t => t.ras.dataSpares == 0xF7 && t.ras.pending == 0) = true
    ∧ onNext (exec (.bridgeLaneRetrain 3 3) base) (fun t => t.ras.pending == 8) = true
    ∧ onNext (exec (.bridgeLaneRetrain 3 4) (base.setRas { base.ras with lanesLost := [(3, 3)] })) (fun t => t.ras.pending == 0) = true := by decide +kernel

/-! ## Links and sideband ports (spec/12, spec/17) -/

/-- A module that trains first and at half width; the link going down; lane repairs. -/
theorem witness_LinksAndSidebandPorts_UcieLinks :
    let s := { base with ucie := [], eps := [(0, { (base.ep 0) with expSeq := [(0, 5)] })] }
    let w := { base with cmdq := [cmd 0x40 15 0 0 []], eps := [(0, { (base.ep 0) with tx := [1], rx := [{ event := true, bytes := [2] }] })] }
    (s.mod 3).up = false ∧ s.linksStart = true ∧ (s.ep 0).tx = [] ∧ (s.ep 7).transit = [] ∧ s.linkUp = false ∧ w.linkUp = true ∧ (base.mod 0).up = true
    ∧ onNext (exec (.ucieLinkUp 3 true) s) (fun t => (t.mod 3).up && (t.mod 3).half && (t.mod 3).speed == 2 && (t.ep 0).expSeq == [] && (t.hdr 1 0x91).errStatus == 2) = true
    ∧ onNext (exec .ucieLinkDown w) (fun t => !t.linkUp && t.cmdq == [] && (t.ep 0).tx == [] && (t.ep 0).linkReset && (t.ep 0).rx.length == 1) = true
    ∧ onNext (exec (.ucieLaneRepair 0 true 4) base) (fun t => (t.mod 0).repaired == 1 && !(t.mod 0).half && (t.mod 0).retry == 4) = true
    ∧ onNext (exec (.ucieLaneRepair 0 false 0) base) (fun t => (t.mod 0).half && (t.hdr 0 0x90).errStatus == 2) = true := by decide +kernel
/-- A boot read; an I3C command alone, and beside an outstanding one; its response; the addresses; JTAG with debug closed and open. -/
theorem witness_LinksAndSidebandPorts_SidebandPorts :
    let l := gwyBytes 0x40 0xF0 0 7 0 0 0 0 []
    let o := { base with i3c := { base.i3c with outstanding := true } }
    let r := { base with i3c := { base.i3c with response := some [1, 2], ibi := true } }
    let idle := inState .loaded
    let d := base.setSec { base.sec with debugOn := true, debugWhat := 2 }
    base.rst.phase ≠ .tripped ∧ base.secRuns = true ∧ l.length = 32 ∧ beAt l 2 2 = 0 ∧ crcOk l = true ∧ (readCmd 8 l).seq = base.i3c.expSeq ∧ (readCmd 8 l).opcode ∈ opcodes ∧ (readCmd 8 l).part = 15
    ∧ idle.anyRuns = false ∧ base.anyRuns = true
    ∧ onNext (exec .i3cBootRead base) (fun t => t.i3c.lastRead == [3, 6, 0, 0, 0, 0, 0, 0]) = true
    ∧ onNext (exec (.i3cCommand l) base) (fun t => t.cmdq.length == 1 && t.i3c.outstanding && t.i3c.expSeq == 1) = true
    ∧ onNext (exec (.i3cCommand l) o) (fun t => t.cmdq == [] && t.i3c.outstanding && t.i3c.response.isSome) = true
    ∧ onNext (exec .i3cResponseRead r) (fun t => t.i3c.lastRead == [1, 2] && !t.i3c.ibi) = true
    ∧ onNext (exec (.i3cDynamicAddress 9) base) (fun t => t.i3c.dyn == some 9) = true
    ∧ onNext (exec (.jtagBoundaryScan 4) idle) (fun t => t.jtag == some 4) = true ∧ onNext (exec (.jtagBoundaryScan 4) base) (fun t => t.jtag == none) = true
    ∧ onNext (exec .trstN { base with jtag := some 4 }) (fun t => t.jtag == none) = true
    ∧ onNext (exec (.jtagDebugAccess 0) d) (fun t => t.cmdq == []) = true ∧ refusesWith (exec (.jtagDebugAccess 1) d) .debugUnit = true := by decide +kernel

/-! ## Security (spec/13) -/

/-- An authorisation of an operation with its blocks, for the device of serial number 0 and its first audit record (spec/13 R466). -/
def authorise (op : Nat) (arg blocks : List Byte) : List Byte := leBytes 1 op ++ zeros 3 ++ leBytes 4 arg.length ++ zeros 24 ++ arg ++ blocks
/-- The device that the test key owns and the manufacturer keeps the same key for, with every partition FREE, recent presence and an intact seal, and a PRIV waiting. -/
def asksPriv (op : Nat) (arg blocks : List Byte) : State :=
  asks { base with
    parts := [], sec := { base.sec with presence := true, intact := true }, flash := { base.flash with owner := some testKey, imageKeys := [(7, testKey)] }
    fuses := { base.fuses with mfgKey := testKey } } (cmd 0x70 15 (BitVec.ofNat 64 op) 0 (authorise op arg blocks))
/-- Everything that Claims.Authorised asks, and the owner's signature. -/
def authOk (op n k : Nat) (needs signed : Bool) (s : State) : Bool :=
  match s.takeOp (isPriv op) with
  | some (c, s1) => (s1.acceptCmd c (bitsOf c.arg0.toNat 8 56 == 0 && c.arg1 == 0 && privOk op n k c.payload) false true (fun _ => true)).isNone
      && s.sec.fwAct.isNone && !s.rst.devPending && (!needs || s.presenceOk) && sliceB c.payload 8 16 == beBytes 16 s.fuses.serial.toNat
      && leAt c.payload 24 8 == s.flash.auditCount.toNat && s1.ownerSigned c.payload (if op = 1 then some (privArg c.payload) else none) == signed
  | none => false
/-- The check says Claims.Authorised. -/
theorem authOk_ok (op n k : Nat) (needs signed : Bool) (s : State) (h : authOk op n k needs signed s = true) :
    ∃ c s1, Claims.Authorised op n k needs s c s1 ∧ s1.ownerSigned c.payload (if op = 1 then some (privArg c.payload) else none) = signed := by
  unfold authOk at h
  split at h
  · next c s1 e =>
    simp only [Bool.and_eq_true, beq_iff_eq, Bool.or_eq_true, Bool.not_eq_true', Option.isNone_iff_eq_none] at h
    obtain ⟨⟨⟨⟨⟨⟨a, b⟩, d⟩, p⟩, q⟩, r⟩, g⟩ := h
    exact ⟨c, s1, ⟨e, a, b, d, fun x => by simpa [x] using p, q, r⟩, g⟩
  · cases h
/-- The signed block of the owner changes to itself (spec/13 Table 13-5). -/
def sigOwner : List Byte :=
  beBytes 64 0x53494731000100003094f9bb163204a91bc64dc5ec344a07579dd13bced9015e3dd44da95a72a1a35735beb5f3299d298b8861e0a6bb8ab2bc5b7075dcea0fee
    ++ beBytes 64 0x764b4fd5621100ba7b27b66f05a759ebf0383eeab3efcd5001abaf3583f009ee036cdb9ccd792fdbaf8f562036145dcc16429a015d94fc8bad6e3e9ed5e7a2b7
    ++ beBytes 64 0xd0254019d30b4c7783f01e46faff3dd6b56d4b795afe47028586010b3f0f8b2cbd2d57e061eb32b4aaf033b494fdadf8d8bff3414e2835c09e0a7ef23ac3252b
    ++ beBytes 28 0xad2e5b31319ec684b148b12bbe65bd94aad00bedfc3f9f52d47526b2
    ++ zeros 36
/-- The signed block of debug of both kinds (spec/13 Table 13-5). -/
def sigDebugOn : List Byte :=
  beBytes 64 0x53494731000100003094f9bb163204a91bc64dc5ec344a077e8a87f125674293dcf00d4f2f1dbeaea4d9212761a1bca0440408762818cab2f509cdb6a88aace5
    ++ beBytes 64 0xb9e6631957fc67171d10c3534d7f7d3689d173c267739ed701e28c00861f8e62c286aa3898dbcbc1fa6a9ebe8a18e0c7ae2b59af0175f5e8e33461aec05bcd40
    ++ beBytes 64 0x74ed43eb582819e85f91a0c424c5b6eb01e9bbde2fc150dfc0b9010a62b7090900e5c68312225777dcc970558181abbd38a20aa139f23278d472f4aafd31bd5c
    ++ beBytes 28 0x96bc46ce4c5318255e7c230ac42a3257c8e390c89e8da7efcbc823d3
    ++ zeros 36
/-- The signed block of the debug lock (spec/13 Table 13-5). -/
def sigDebugOff : List Byte :=
  beBytes 64 0x53494731000100003094f9bb163204a91bc64dc5ec344a07db78b44e5bafe2daa34f95445aac7a946925d83b67acb398ef2254c599ec4cd1d50830080eb66926
    ++ beBytes 64 0x43cdc2b3849ea367b3e8a70e173b8ac1bf9198f5bccaa47b010689771001dd27fbebdedc18e70e3d719cbe5d5de475d9d08673faf860f48aefbbb2d0e0de6ad3
    ++ beBytes 64 0x11179e0a390c83e591f1240063b77933f2ec064e6fe25571f24c003e43ff64175227ba808acf9f67d455b42c434650415b0708808264bc5ffcbc6145cd302013
    ++ beBytes 28 0xebe5d749a30c5612c70eb921f8acb1a4bfaace8e20ac3f7673ab5bd9
    ++ zeros 36
/-- The signed block of the revocation of image key 7 (spec/13 Table 13-5). -/
def sigImageKey : List Byte :=
  beBytes 64 0x53494731000100003094f9bb163204a91bc64dc5ec344a0747c23073e75c3ddb0bb94ac615579c3f594c6bf6d091d8eede0a3bf73bec2cb259fda4f0b0e09f26
    ++ beBytes 64 0x79332636a75776c3ad05de4a14d7f59eeeae4e71402d87c401bb350d0b36515150abe9fffe92a8733af1bbc9d0e1b1de567078fe1afd9118a337b121ae853ab6
    ++ beBytes 64 0x8fad2da1c56756a143733286f82cdb517721306d9e6538c77d86019080cfae85d1a628fac2a6cfd05967760634af0e3eaf5014aede805e35f21266dc806ac8e4
    ++ beBytes 28 0x9805255cd81b3b3ba6717fd046bad5ef8b226e647f0108c8e1404efa
    ++ zeros 36
/-- The signed block of the revocation of firmware key 3 (spec/13 Table 13-5). -/
def sigFwKey : List Byte :=
  beBytes 64 0x53494731000100003094f9bb163204a91bc64dc5ec344a0700eeb9ff8ed4cd12e1beafa73aef6bf7583e09df5fba175489b4db98a455c912681d95830a5b12af
    ++ beBytes 64 0x80809141707b77cde181c0a967827be935e394286c873474016a219468928380e73961603858d4b868b030e0237c6f2b0a97ee2a82fd0af6bdfc856cb735b999
    ++ beBytes 64 0xafda3f9c15e5f982b2eab2172ef7a0455549b25c7c3fc362c01f003ac5dd80d1654355535aa5db36705bdd5c40be0260e8d57d14977ee6399a17bd908089e044
    ++ beBytes 28 0xf2061d556ee04119d3fed7de08d07f5526167b822312cb01e8b1ee31
    ++ zeros 36
/-- The signed block of manufacturing mode, with the second block (spec/13 Table 13-5). -/
def sigMfg : List Byte :=
  beBytes 64 0x53494731000100003094f9bb163204a91bc64dc5ec344a07d14272dc963c614ef0050541da98a760e0d73ef0d0baec38ae3d4ee9bf3dec1048d8fce3d8ff9f66
    ++ beBytes 64 0x5751d8dae4059ea2ad9bcf6b4fc276a6385077026b50e7530162732ab002b4ab38578f2569b0269d530e64268bb29fd3811f5c62201879a41cdeb1c5ded0a3dd
    ++ beBytes 64 0xe96c13ca7d4994f8f4906bcec516e1468f796727914dff9f330d01f49340b7e5c6feca8358f5af2046f95c4aadc7b62e15ed1a7e8f6653f39979aeca57b17e5c
    ++ beBytes 28 0x4ee7704fd94f61e99cf801a81e060dd636d0ee90ca11a9e3023b1dcf
    ++ zeros 36
    ++ beBytes 64 0x53494731000400003094f9bb163204a91bc64dc5ec344a07d6a9b18ea24edf20d77f519cdfeb0368295b6a7103650f9366b30d40090e02c3c0ce885d83a0c87d
    ++ beBytes 64 0x02ad5037b655aabe031c0a62f97d282fbb673fda5cb7e3c40176b1330845b06278e87b29b782b904c0799b92807096699539f3267c8382ec572d0f166e70337e
    ++ beBytes 64 0xd368de5bbada2618de60e10282a0e611c9f36f81f0c6542bfb450000c9f305a980e2035afea2dc4c25c24a586e8ca5e762c67dfaf533f5e12b3ff45190fade35
    ++ beBytes 28 0xef97cd087102b273d3fe3cd40d9cbbcdc01fa8b5c629d10f79713518
    ++ zeros 36
/-- The signed block of the enrolment in slot 7 (spec/13 Table 13-5). -/
def sigEnroll : List Byte :=
  beBytes 64 0x53494731000100003094f9bb163204a91bc64dc5ec344a074656b94a146fef4519320dcef2c3b40d68046110c48c0bac1f33ae2ce05048ea91649da1bea4ca1f
    ++ beBytes 64 0xdb4c709c2ce18ffefe66e0885bd7711bd619d40f9d63295c01aa479d9274813f6440a33505ea3c7c54a179b5ca19be5eb524f6f897f8c9e8e7eece8b12d9f0ac
    ++ beBytes 64 0x8a615f300aa89adcd4c8c42e7913f336abc6a9a26d0a459ac4ce005d95d4f264b8191226be4aed75840c32b3d4fd9a297f6bf8aa6a53efe2deb524f66f7773cd
    ++ beBytes 28 0x789232c91a9a9b46befce17d96a1adf00f93eabd9b66c7ba9a1ee951
    ++ zeros 36
/-- The signed block of minimum version 1 of slot 7 (spec/13 Table 13-5). -/
def sigMinVersion : List Byte :=
  beBytes 64 0x53494731000100003094f9bb163204a91bc64dc5ec344a07f7e5a3830ed8025473f04c22f4f7713ca812728ce67f5d5a9f908b108b061abb36d3363b7c845a91
    ++ beBytes 64 0xcf1322da10a9564ae2ae6043871fa601d4fb608385ec486d00ae4125200fbae9b00c03552b67f6ac125275a2b7167a38ae2f3be1f8d4892adef647888677f0eb
    ++ beBytes 64 0x87993f597a380b4ab8c2cc29c6e4fb97e12e267a5b92adfa7e6d00708df5843b535ce5e7655336a7ac6aa7d05e75db90949b333cf0e0503d4ffe3f1e881f7619
    ++ beBytes 28 0x5262fdd9ef735ab7fe52500c7a0b2425a692e455de7edc09386deb8c
    ++ zeros 36
/-- OWNER_CHANGE, DEBUG_ENABLE and DEBUG_LOCK, authorised and signed. -/
theorem witness_PrivilegedOperationsAreAuthorised_PrivilegedOperationsAct_owner :
    let s := asksPriv 1 testKey sigOwner
    authOk 1 136 1 true true s = true ∧ s.fuses.ownerUsed < 16 ∧ keyOk testKey = true ∧ s.allFree = true
    ∧ onNext (exec .ownerChange s) (fun t => t.fuses.ownerUsed == 1 && t.flash.imageKeys == [] && t.flash.auditCount == 1) = true := by decide +kernel
theorem witness_PrivilegedOperationsAreAuthorised_PrivilegedOperationsAct_debug :
    let s := asksPriv 2 [3, 0, 0, 0] sigDebugOn
    let l := asksPriv 3 [] sigDebugOff
    authOk 2 4 1 true true s = true ∧ s.fuses.debugLocked = false ∧ leAt [3, 0, 0, 0] 0 4 < 4 ∧ authOk 3 0 1 true true l = true
    ∧ onNext (exec .debugEnable s) (fun t => t.sec.debugOn && t.sec.debugWhat == 3) = true ∧ onNext (exec .debugLock l) (fun t => t.fuses.debugLocked) = true := by decide +kernel
/-- KEY_REVOKE of an image key and of a firmware key. -/
theorem witness_PrivilegedOperationsAreAuthorised_PrivilegedOperationsAct_revoke :
    let s := asksPriv 4 [1, 7, 0, 0] sigImageKey
    let f := asksPriv 4 [2, 3, 0, 0] sigFwKey
    authOk 4 4 1 true true s = true ∧ authOk 4 4 1 true true f = true ∧ leAt [1, 7, 0, 0] 0 4 % 256 = 1 ∧ leAt [1, 7, 0, 0] 0 4 / 256 < 8
    ∧ leAt [2, 3, 0, 0] 0 4 % 256 = 2 ∧ f.fuses.fwKeyValid.getLsbD 3 = true ∧ 1 < ones 4 f.fuses.fwKeyValid.toNat
    ∧ onNext (exec .keyRevoke s) (fun t => t.flash.imageKeys == []) = true ∧ onNext (exec .keyRevoke f) (fun t => t.fuses.fwKeyValid == 7) = true := by decide +kernel
/-- MFG_MODE with both blocks. -/
theorem witness_PrivilegedOperationsAreAuthorised_PrivilegedOperationsAct_mfg :
    let s := asksPriv 5 [] sigMfg
    let l := authorise 5 [] sigMfg
    authOk 5 0 2 true true s = true ∧ blockKind (privBlock l 1) = 4 ∧ blockSigns (privBlock l 1) (privMsg l) s.fuses.mfgKey = true ∧ s.allFree = true
    ∧ onNext (exec .mfgMode s) (fun t => t.sec.mfg) = true := by decide +kernel
/-- IMAGE_KEY_ENROLL and IMAGE_MIN_VERSION at slot 7. -/
theorem witness_PrivilegedOperationsAreAuthorised_PrivilegedOperationsAct_image :
    let s := asksPriv 6 ([7, 0, 0, 0] ++ testKey) sigEnroll
    let v := asksPriv 7 [7, 0, 0, 0, 1, 0, 0, 0] sigMinVersion
    authOk 6 140 1 false true s = true ∧ authOk 7 8 1 false true v = true ∧ (Tbl.get 0 v.flash.mins 7).toNat ≤ 1
    ∧ onNext (exec .imageKeyEnroll s) (fun t => t.flash.auditCount == 1 && t.flash.imageKeys == [(7, testKey)]) = true ∧ onNext (exec .imageMinVersion v) (fun t => t.flash.mins == [(7, 1)]) = true := by decide +kernel
/-- Every operation authorised and not signed. -/
theorem witness_PrivilegedOperationsAreAuthorised_UnsignedOperationsAreRefused :
    let z := zeros 256
    authOk 1 136 1 true false (asksPriv 1 testKey z) = true ∧ authOk 2 4 1 true false (asksPriv 2 [3, 0, 0, 0] z) = true ∧ authOk 3 0 1 true false (asksPriv 3 [] z) = true
    ∧ authOk 4 4 1 true false (asksPriv 4 [1, 7, 0, 0] z) = true ∧ authOk 5 0 2 true false (asksPriv 5 [] (z ++ z)) = true
    ∧ authOk 6 140 1 false false (asksPriv 6 ([7, 0, 0, 0] ++ testKey) z) = true ∧ authOk 7 8 1 false false (asksPriv 7 [7, 0, 0, 0, 1, 0, 0, 0] z) = true
    ∧ onNext (exec .debugLock (asksPriv 3 [] z)) (fun t => !t.fuses.debugLocked && t.flash.auditCount == 1 && (t.hdr t.lead 0xC4).errStatus == 2) = true := by decide +kernel
/-- A CONTROL firmware package of eight bytes, security version 2, signed under the test key (spec/13 R460). -/
def fwPackage : List Byte :=
  beBytes 64 0x415a4657030000001100000002000000080000000000000000000000000000000000000000000000000000000000000000000000000000000000000000000000
    ++ beBytes 64 0x010203040506070853494731000300003094f9bb163204a91bc64dc5ec344a078ffc0a22334836fb1e05603b2e8d894128a5ddf1a58bd54b62beaae006de11ad
    ++ beBytes 64 0x4ea26e586a5e954d4430604680345605618ae1da5a4e5561373948233d1c949700b0cbddaf7c2f7b8b49d497a9baf9e742d5c5720c07ef932f4bddc3aa0f4cfe
    ++ beBytes 64 0xb969245f6df7561c676259c51e67cd9726226d06de612ce4dad345594bafe68e3acc004fddbe015f54ebe6440388fa02a003d7e3e8d52c796913720074a8a3cd
    ++ beBytes 64 0x2a08b48bde5e66d22f8ce62c6b277602f60f31788583e5efc777547c15b5506f9d78eac500000000000000000000000000000000000000000000000000000000
    ++ beBytes 8 0x0000000000000000
/-- A chunk in the middle of a package, and the first of a new one; an activation of the signed package, of the same under a revoked key, and of the factory's of another component; quiet points of CONTROL, one of them while a calving holds the floe. -/
theorem witness_FirmwareIsStagedAndActivated :
    let g := asks base (cmd 0x30 15 (3 + 64 * 2 ^ 32) 328 [1, 2])
    let c : Comp := { b := { total := 328, chunks := [(0, fwPackage)] } }
    let s := asks { base with fuses := { base.fuses with fwKeys := [(2, testKey)] }, flash := { base.flash with comps := [(3, c)] } } (cmd 0x31 15 3 0 [])
    let r := { s with fuses := { s.fuses with fwKeyValid := 0xB } }
    let a : FwAct := { comp := 3, todo := [0, 1], released := [1] }
    let q := base.setSec { base.sec with fwAct := some a }
    let z := base.setSec { base.sec with fwAct := some { comp := 1 } }
    let k := q.setRas { q.ras with calve := some { site := 0, dst := 104, floe := some 0 } }
    let n := asks { base with flash := { base.flash with comps := [(1, { b := { factory := true } })] } } (cmd 0x31 15 1 0 [])
    (g.takeOp (isOp 0x30)).isSome = true ∧ isComp 3 = true ∧ isComp 0 = false ∧ 64 + 2 ≤ 328 ∧ (c.staged).bytes.length = 328 ∧ s.fwCheck 3 c.staged = none ∧ r.fwCheck 3 c.staged = some (9, 1)
    ∧ n.fwCheck 1 (n.comp 1).staged = none
    ∧ s.sec.fwAct = none ∧ s.rst.devPending = false ∧ k.calveHolds 0 = true ∧ k.quiet 0 = true ∧ q.quiet 0 = true ∧ q.calveHolds 1 = false ∧ 0 ∈ a.todo ∧ 1 ∈ a.released ∧ 0 ∉ a.released
    ∧ onNext (exec .fwStage g) (fun t => ((t.comp 3).staged).chunks == [(64, [1, 2])] && answered t 0 0) = true
    ∧ onNext (exec .fwActivate s) (fun t => (t.comp 3).activeB && Tbl.get 0 t.fuses.rollback 3 == 2 && t.sec.fwAct.isSome) = true
    ∧ onNext (exec .fwActivate r) (fun t => !(t.comp 3).activeB && t.sec.fwAct.isNone) = true
    ∧ onNext (exec (.fwQuietPoint 0) q) (fun t => t.sec.fwAct == some { a with todo := [1] }) = true
    ∧ onNext (exec .fwActivate n) (fun t => (t.comp 1).activeB && t.sec.fwAct == some { comp := 1 }) = true
    ∧ onNext (exec (.fwQuietPoint 0) k) (fun t => t.sec.fwAct == some { a with todo := [1] } && (t.floe 0).held) = true
    ∧ onNext (exec (.fwHoldTimeout 0) q) (fun t => t.sec.fwAct == some { a with released := [0, 1] }) = true
    ∧ onNext (exec (.fwRehold 1) q) (fun t => t.sec.fwAct == some { a with released := [] } && (t.floe 1).held) = true
    ∧ onNext (exec .fwActivated z) (fun t => t.sec.fwAct == none && t.sec.epoch == 1) = true := by decide +kernel
/-- What FW_STATUS, ATTEST and CERT_GET ask, with evidence free to be given and not. -/
theorem witness_EvidenceAndSeal_ask :
    let w := asks base (cmd 0x32 15 0 0 [])
    let a := asks base (cmd 0x20 0 0 0 (zeros 64))
    let b := a.setPart 1 { st := .thawing }
    let g := fun (k : DWord) => asks base (cmd 0x21 15 k 0 [])
    (w.takeOp (isOp 0x32)).isSome = true ∧ runsOk 0x20 0 (fun c => c.arg0 == 0 && c.arg1 == 0 && c.payload.length == 64) true true legalMem a = true ∧ a.busyAttest = false ∧ b.busyAttest = true
    ∧ runsOk 0x21 15 (fun c => c.arg1 == 0 && c.payload.isEmpty) false true (fun _ => true) (g 2) = true ∧ base.certificate 2 = none ∧ base.certificate 0x10FF = some (zeros 256) ∧ base.certificate 0x1100 = none
    ∧ onNext (exec (.attest 0) b) (fun t => answered t 0xC 0 && (t.ep 0).busyAttest) = true
    ∧ onNext (exec .certGet (g 2)) (fun t => answered t 6 4) = true ∧ onNext (exec .certGet (g 0x10FF)) (fun t => answered t 0 0) = true := by decide +kernel
/-- Presence; the seal's match before and at 1 s, and its mismatch while intact and open. -/
theorem witness_EvidenceAndSeal_seal :
    let s := fun (n : DWord) => { base with time := { base.time with systime := n }, sec := { base.sec with sealSince := some 5 } }
    let i := base.setSec { base.sec with intact := true }
    base.secRuns = true ∧ onNext (exec .presenceAssertion base) (fun t => t.sec.presence) = true
    ∧ onNext (exec .presenceExpiry (base.setSec { base.sec with presence := true })) (fun t => !t.sec.presence) = true
    ∧ onNext (exec (.sealPatternChange true) (s 1000000004)) (fun t => !t.sec.intact) = true ∧ onNext (exec (.sealPatternChange true) (s 1000000005)) (fun t => t.sec.intact && t.sec.sealBit == 1) = true
    ∧ onNext (exec (.sealPatternChange false) base) (fun t => t.flash.sealCount == 0 && t.flash.auditCount == 0) = true
    ∧ onNext (exec (.sealPatternChange false) i) (fun t => !t.sec.intact && t.flash.sealCount == 1) = true := by decide +kernel

/-! ## Heat, power and resets (spec/15) -/

/-- Samples at every limit: 110.0 degrees once and twice, 105.0 after a trip, no sensor in service, 95.0 and below 93.0, 100.0, 97.0 while it throttles. -/
theorem witness_HeatAndPowerSetTheLevel_ThermalSamplesThrottleAndTrip :
    let go := fun (x : Therm) (l : List Int) (g : Therm → Bool) => onNext (exec (.thermalSample 1 l) (base.setTherm 1 x)) (fun t => t.rst.phase == .ready && g (t.therm 1))
    let tripped := fun (t : State) => t.rst.phase == .tripped && t.rst.trip && t.flash.fatal == some (1, 0xB0, 32)
    let after := { base with rst := { base.rst with phase := .cold, cause := 4 } }
    let z : Therm := { throttling := true, hotLevel := 2, hotRun := 7, coolRun := 99 }
    base.clocksRun = true ∧ inService 2 [1, 2, 3] = [(0, 1), (2, 3)]
    ∧ go {} [0, 1760] (fun x => x.hotSet == [1] && x.sensor == 1 && x.hot == 1760) = true ∧ go { hotSet := [1] } [0, 1759] (fun x => x.hotSet == []) = true
    ∧ go { hotSet := [0] } [0, 1760] (fun x => x.hotSet == [1]) = true
    ∧ onNext (exec (.thermalSample 1 [0, 1760]) (base.setTherm 1 { hotSet := [1] })) tripped = true
    ∧ onNext (exec (.thermalSample 1 [1680]) after) tripped = true ∧ onNext (exec (.thermalSample 1 [1679]) after) (fun t => t.rst.phase == .cold) = true
    ∧ onNext (exec (.thermalSample 1 [1680]) (after.setTherm 1 { first := false })) (fun t => t.rst.phase == .cold) = true
    ∧ go { excluded := 1, hotSet := [0] } [1760] (fun x => x.hotSet == [] && !x.first && x.hot == 0) = true
    ∧ go {} [1520] (fun x => x.warned && x.level == 1) = true ∧ go {} [1519] (fun x => !x.warned) = true ∧ go { warned := true } [1488] (fun x => x.warned) = true ∧ go { warned := true } [1487] (fun x => !x.warned) = true
    ∧ go {} [1600] (fun x => x.throttling && x.hotLevel == 1 && x.target == 1 && x.level == 2) = true ∧ go {} [1599] (fun x => !x.throttling) = true
    ∧ go { throttling := true, hotLevel := 1, hotRun := 9 } [1600] (fun x => x.hotLevel == 1 && x.hotRun == 10) = true ∧ go { throttling := true, hotLevel := 5, hotRun := 10 } [1600] (fun x => x.hotLevel == 5) = true
    ∧ go z [1552] (fun x => x.hotLevel == 1 && x.throttling && x.coolRun == 100) = true ∧ go z [1553] (fun x => x.hotLevel == 2 && x.throttling && x.coolRun == 0) = true
    ∧ go { z with hotLevel := 1 } [1552] (fun x => x.hotLevel == 0 && !x.throttling) = true ∧ onNext (exec (.thermalSample 1 [1600]) base) (fun t => (t.hdr 1 0xB0).errStatus == 2) = true := by decide +kernel
/-- An average at the cap and a tenth of a watt above, and the tenth below 97 % of it; a level that comes into force; a droop; sensors that disagree, one of them again. -/
theorem witness_HeatAndPowerSetTheLevel_PowerLevelsAndSensors :
    let p := fun (x : Power) (w : Nat) (g : Power → Bool) => onNext (exec (.powerSample w) { base with power := x }) (fun t => g t.power)
    let d := { (base.setTherm 0 { dvfs := 1, target := 2, since := 3, throttleNs := 10 }) with time := { base.time with systime := 8 } }
    base.clocksRun = true ∧ averageNat [1, 2, 4] = 2 ∧ d.now = 8
    ∧ p {} 28000 (fun x => x.level == 0 && x.now == 28000) = true ∧ p {} 28001 (fun x => x.level == 1) = true ∧ p { level := 5 } 28001 (fun x => x.level == 5) = true
    ∧ p { level := 2, lowRun := 9 } 27159 (fun x => x.level == 1 && x.lowRun == 10) = true ∧ p { level := 2, lowRun := 9 } 27160 (fun x => x.level == 2 && x.lowRun == 0) = true
    ∧ onNext (exec (.powerSample 28001) (base.setTherm 1 { hotLevel := 3 })) (fun t => (t.therm 0).target == 1 && (t.therm 1).target == 3) = true
    ∧ onNext (exec (.dvfsLevelChange 0) d) (fun t => (t.therm 0).dvfs == 2 && (t.therm 0).throttleNs == 15 && (t.therm 0).since == 8) = true
    ∧ onNext (exec (.voltageDroop 1) base) (fun t => (t.therm 1).stretches == 1 && (t.therm 0).stretches == 0) = true
    ∧ onNext (exec (.sensorCrossCheck 0 5) base) (fun t => (t.therm 0).excluded == 5 && (t.hdr 0 0xB0).errStatus == 1) = true
    ∧ onNext (exec (.sensorCrossCheck 0 4) (base.setTherm 0 { excluded := 5 })) (fun t => (t.therm 0).excluded == 5 && (t.hdr 0 0xB0).errStatus == 0) = true := by decide +kernel
/-- A cold reset's phase and cause. -/
def coldIs (p : Phase) (cause : BitVec 7) (t : State) : Bool := t.rst.phase == p && t.rst.cause == cause && t.floes == [] && t.parts == []
/-- Power-on with the latch of a trip kept by VIO18 and lost with it; RESET_N; a reserved BOOT_MODE, a bad fuse shadow and a wrong coordinate; a FATAL error while it runs and once halted; the first and the second phase of a rail. -/
theorem witness_ColdResetsBeginAndReachReady_ColdResetsBegin :
    let x := State.reset.straps
    let h := base.setRst { base.rst with trip := true, phase := .tripped, cause := 4 }
    let halted := base.setRst { base.rst with phase := .halted }
    let r := base.setRas { base.ras with phases := [3] }
    x.boot ≠ 3 ∧ x.fuseBad = false ∧ base.straps.boot ≠ 3 ∧ 3 ∈ r.ras.phases ∧ 3 ∉ base.ras.phases ∧ base.rst.phase ≠ .halted ∧ r.rst.phase ≠ .tripped
    ∧ onNext (exec (.por x true) base) (coldIs .cold 1) = true ∧ onNext (exec (.por x true) h) (coldIs .tripped 5) = true ∧ onNext (exec (.por x false) h) (fun t => coldIs .cold 5 t && !t.rst.trip) = true
    ∧ onNext (exec (.resetN x) h) (coldIs .cold 6) = true
    ∧ onNext (exec (.por { x with boot := 3 } true) base) (coldIs .halted 1) = true ∧ onNext (exec (.resetN { x with boot := 3 }) base) (fun t => t.rst.fail == 2 && t.rst.step == 2) = true
    ∧ onNext (exec (.resetN { x with fuseBad := true, boot := 3 }) base) (fun t => coldIs .halted 2 t && t.rst.fail == 1 && t.rst.step == 1) = true
    ∧ onNext (exec (.resetN { base.straps with p := !base.straps.p }) base) (fun t => coldIs .cold 2 t && (t.rst.fail == 6) == base.locValid) = true
    ∧ onNext (exec (.fatal 1 5 32 x) base) (fun t => coldIs .cold 8 t && t.flash.fatal == some (1, 5, 32) && (t.hdr t.lead 0xC1).errStatus == 1 && (t.cxl 0).perst) = true
    ∧ onNext (exec (.fatal 1 5 32 x) halted) (fun t => t.flash.fatal == none && t.rst.phase == .halted) = true
    ∧ onNext (exec (.regulatorPhaseLoss 3 x) base) (fun t => t.rst.phase == .ready && t.ras.phases == [3]) = true
    ∧ onNext (exec (.regulatorPhaseLoss 3 x) r) (coldIs .cold 8) = true := by decide +kernel
/-- A device at step 3 of a cold reset that becomes ready, with PLATFORM firmware and without; a boot flash that does not answer, at step 3 and later; SECURITY firmware that does not verify; RECOVERY; FALLBACK with a fit and an unfit other slot. -/
theorem witness_ColdResetsBeginAndReachReady_ColdResetReachesReady :
    let c := State.reset
    let no := c.setComp 1 { a := {} }
    let np := c.setComp 2 { a := {} }
    let rec2 := { c with straps := { c.straps with boot := 2 } }
    let half := rec2.setRst { c.rst with recovered := [1], step := 4 }
    let fb := { c with straps := { c.straps with boot := 1 } }.setComp 4 { b := { factory := true, total := 64, chunks := [(0, zeros 64)] } }
    c.rst.phase = .cold ∧ c.straps.boot = 0 ∧ c.bootOk 1 = true ∧ c.bootOk 2 = true ∧ np.bootOk 2 = false ∧ no.bootOk 1 = false ∧ rec2.bootOk 1 = true ∧ 2 ∉ half.rst.recovered ∧ c.rst.step = 3 ∧ fb.rst.step = 3
    ∧ onNext (exec (.coldResetReady [] [] true) c) (fun t => t.rst.phase == .ready && t.rst.step == 10 && t.proc.released && !(t.cxl 0).perst) = true
    ∧ onNext (exec (.coldResetReady [] [] true) np) (fun t => t.rst.phase == .ready && !t.proc.released) = true
    ∧ onNext (exec (.coldResetReady [] [] false) c) (fun t => t.rst.phase == .halted && t.rst.fail == 3) = true
    ∧ onNext (exec (.coldResetReady [] [] true) no) (fun t => t.rst.phase == .halted && t.rst.fail == 4) = true
    ∧ onNext (exec (.coldResetReady [] [] true) rec2) (fun t => t.rst.step == 4 && t.rst.fail == 7) = true ∧ onNext (exec (.coldResetReady [] [] false) half) (fun t => t.rst.phase == .cold) = true
    ∧ fb.slotOk 4 (fb.comp 4).staged = true ∧ fb.slotOk 5 (fb.comp 5).staged = false
    ∧ onNext (exec (.coldResetReady [] [] true) fb) (fun t => (t.comp 4).activeB && !(t.comp 5).activeB && t.rst.phase == .ready) = true := by decide +kernel
/-- The three warm sources in a ready device, in a warm reset and before ready; the end of a warm reset with a held unit. -/
theorem witness_WarmResetsBeginAndEnd :
    let s := (base.setRst { base.rst with wdt := 5, devPending := true }).poke (spAddr 0 0) [1]
    let w := (base.setRst { base.rst with phase := .warm, heldUnits := [2 ^ 30] }).poke (2 ^ 30) [1]
    let c := base.setRst { base.rst with phase := .cold, wdt := 5 }
    let begun := fun (k : BitVec 7) (t : State) => t.rst.phase == .warm && t.rst.cause == k && t.rst.warms == 1 && t.mem == [] && t.parts == [] && (t.cxl 1).perst
    s.rst.phase = .ready ∧ Memory.wf s.mem = true ∧ s.mem ≠ [] ∧ Memory.wf w.mem = true
    ∧ onNext (exec .warmResetN s) (begun 16) = true ∧ onNext (exec .watchdog s) (begun 32) = true ∧ onNext (exec .watchdog s) (fun t => (t.hdr t.lead 0xC1).errStatus == 2) = true
    ∧ onNext (exec .warmResetStart s) (begun 64) = true ∧ base.rst.wdt = 0 ∧ base.rst.devPending = false
    ∧ onNext (exec .watchdog base) (fun t => t.rst.phase == .ready) = true ∧ onNext (exec .warmResetStart base) (fun t => t.rst.phase == .ready) = true
    ∧ onNext (exec .warmResetN w) (fun t => t.rst.cause == 17 && t.rst.warms == 0) = true ∧ onNext (exec .warmResetN c) (fun t => t.rst.phase == .cold && t.rst.cause == 1) = true
    ∧ onNext (exec .watchdog c) (fun t => t.rst.phase == .cold) = true := by decide +kernel
/-- The end of a warm reset with a held unit. -/
theorem witness_WarmResetsBeginAndEnd_ready :
    let w := (base.setRst { base.rst with phase := .warm, heldUnits := [2 ^ 30] }).poke (2 ^ 30) [1]
    w.rst.phase = .warm ∧ Memory.wf w.mem = true ∧ cellAt w.mem (2 ^ 30) = some 1
    ∧ onNext (exec .warmResetReady w) (fun t => t.rst.phase == .ready && t.rst.heldUnits == [] && cellAt t.mem (2 ^ 30) == none && (t.ep 7).linkReset && t.sec.epoch == 1 && !(t.cxl 0).perst) = true := by decide +kernel
/-- A partition reset, and one that a planned calving holds. -/
theorem witness_PartitionBlockAndDeviceResets_PartitionResetKeepsTheGrant :
    let s := (asks base (cmd 0x50 0 0 0 [])).setFloe 0 floe0
    let w := s.setRas { s.ras with calve := some { site := 0, dst := 105, floe := some 0 } }
    s.calving 0 = false ∧ w.calving 0 = true ∧ (match s.takeCmd 0 (isReset 0) with
      | some (c, s1) => (s1.acceptCmd c (c.arg0 == 0 && c.arg1 == 0 && c.payload.isEmpty) true false (fun st => st != .free && st != .thawing)).isNone
      | none => false) = true ∧ Memory.wf s.mem = true ∧ 0 ∈ s.partFloes 0
    ∧ onNext (exec (.resetPartition 0) s) (fun t => (t.part 0).st == .claimed && (t.part 0).groups == 1 && t.floe 0 == {} && t.sec.epoch == 1 && answered t 0 0) = true
    ∧ onNext (exec (.resetPartition 0) w) (fun t => (t.part 0).st == .running && t.cmdq.length == 1) = true := by decide +kernel
/-- Claims.RunsReset as a check. -/
def resetOkd (scope : Nat) (fields : GwyPkt → Bool) (s : State) : Bool :=
  match s.takeOp (isReset scope) with
  | some (c, s1) => (s1.acceptCmd c (fields c) false true (fun _ => true)).isNone
  | none => false
/-- A reset of a near-memory page with and without ISOLATE, of a CXL port while a copy is in flight, of the RAS page, of an address inside a page and of a page being reset; its escalation and its end; a device reset. -/
theorem witness_PartitionBlockAndDeviceResets_BlockAndDeviceResets :
    let at_ := fun (a : Nat) (z : DWord) (s : State) => asks s (cmd 0x50 15 (1 + z) (BitVec.ofNat 32 a) [])
    let a := blockAddr 0 0x80
    let held := base.setHdr 0 0x80 { resetState := 1, errMask := 3 }
    let d := asks base (cmd 0x50 15 2 0 [])
    let p := d.setRst { d.rst with devPending := true }
    let fo := base.setHdr 0 1 { resetState := 2, escalated := true }
    let c := { cmd 0x50 15 1 (BitVec.ofNat 32 a) [] with busy := true }
    let g := blockAddr 0 0x88
    let o : XferOp := { stream := .fwd, w := 0, dSrc := {}, dDst := {} }
    let x := base.setFloe 0 { xfers := [o] }
    let y := base.setCxl 0 { perst := false }
    let z := (base.setHdr 0 0x88 { resetState := 2 }).setCxl 0 { perst := true }
    a = 0x80000 ∧ base.resetOk 0 0x80 = true ∧ base.resetOk 0 0xC1 = false ∧ resetOkd 1 (fun c => c.arg0.toNat < 8 && c.payload.isEmpty) (at_ a 4 base) = true
    ∧ resetOkd 2 (fun c => c.arg0 == 2 && c.arg1 == 0 && c.payload.isEmpty) d = true ∧ pageType 0x80 ≠ 5 ∧ pageType 0x90 = 5 ∧ pageType 1 = 2 ∧ pageType 0x88 = 4 ∧ pageType 0x80 = 3 ∧ base.resetOk 0 0x88 = true ∧ base.siteKey 0 = 0
    ∧ onNext (exec .resetBlock (at_ a 0 base)) (fun t => (t.hdr 0 0x80).resetState == 1 && t.cmdq.length == 1) = true
    ∧ onNext (exec .resetBlock (at_ a 4 base)) (fun t => (t.hdr 0 0x80).resetState == 2) = true
    ∧ onNext (exec .resetBlock (at_ g 0 y)) (fun t => (t.hdr 0 0x88).resetState == 1 && (t.cxl 0).perst && t.cmdq.length == 1) = true
    ∧ onNext (exec .resetBlock (at_ g 4 x)) (fun t => (t.hdr 0 0x88).resetState == 2 && (t.cxl 0).perst && (t.floe 0).xfers == [{ o with ended := [(0, 0x88)] }]) = true
    ∧ onNext (exec (.blockResetComplete 0 0x88) z) (fun t => !(t.cxl 0).perst && (t.hdr 0 0x88).resetState == 0) = true
    ∧ onNext (exec .resetBlock (at_ 0xC1000 0 base)) (fun t => answered t 6 4) = true ∧ onNext (exec .resetBlock (at_ (a + 4) 0 base)) (fun t => answered t 6 4) = true
    ∧ onNext (exec .resetBlock (at_ 0x8080000 0 base)) (fun t => answered t 6 4) = true ∧ onNext (exec .resetBlock (at_ a 0 held)) (fun t => answered t 0xB 0) = true
    ∧ onNext (exec (.blockResetEscalation 0 0x80) held) (fun t => (t.hdr 0 0x80).resetState == 2 && (t.hdr 0 0x80).escalated && t.ras.pending.getLsbD 1) = true
    ∧ onNext (exec (.blockResetEscalation 0 0x80) base) (fun t => !(t.hdr 0 0x80).escalated) = true
    ∧ onNext (exec (.blockResetComplete 0 0x80) { held with cmdq := [c] }) (fun t => t.hdr 0 0x80 == { resets := 1 } && t.cmdq == [] && t.sec.epoch == 1 && answered t 0 0) = true
    ∧ onNext (exec (.blockResetComplete 0 1) (fo.setFloe 0 floe0)) (fun t => t.floe 0 == {} && (t.hdr 0 1).escalated) = true
    ∧ onNext (exec (.blockResetComplete 0 0x80) base) (fun t => t.sec.epoch == 0) = true
    ∧ onNext (exec .resetDevice d) (fun t => t.rst.devPending && answered t 0 0) = true ∧ onNext (exec .resetDevice p) (fun t => answered t 0xB 0) = true := by decide +kernel

/-! ## Formats, the step, and what is refused -/

/-- Thirty-two values: the given ones, then zeros. -/
def padded (l : List Int) : List Int := l ++ List.replicate (32 - l.length) 0
/-- The block of the worked example of spec/02 R52, and block B of the worked example of R54. -/
def blockA : Bs := { m := padded [24576, -5120, 0, -16384], exp := 0x7F, pois := false, sat := false }
def blockB : Bs := { m := padded [0x4000, 0x1400, 1, -16383], exp := 0x7D, pois := false, sat := false }
/-- CVT.BS16 of 1.5, -0.3125, 2^-20 and -1.0 gives the mantissas, the exponent and the bytes of the example (spec/02 R52). -/
theorem test_bs16_conversion :
    let l : List F32 := [0x3FC00000, 0xBEA00000, 0x35800000, 0xBF800000] ++ List.replicate 28 0
    l.length = 32 ∧ bsConvert (l.map val32) = blockA
    ∧ blockA.bytes = [0x00, 0x60, 0x00, 0xEC, 0, 0, 0x00, 0xC0] ++ zeros 56 ++ [0x7F, 0, 6, 0] ∧ bsParse blockA.bytes = (blockA, false) := by decide +kernel
/-- The sum of the two blocks is Table 2-6's, in either order. -/
theorem test_bs16_sum :
    let c := bsAdd blockA blockB
    c = { m := padded [28672, -3840, 0, -20480], exp := 0x7F, pois := false, sat := false } ∧ c.res = 5 ∧ bsAdd blockB blockA = c := by decide +kernel
/-- Claims.BlockOk and Claims.NormalForm as checks. -/
def blockOk (b : Bs) : Bool := b.m.length == 32 && b.m.all (fun x => decide (-32767 ≤ x) && decide (x ≤ 32767)) && decide (b.exp ≤ 254) && (b.exp != 0 || b.m.all (fun x => x == 0))
def inNormalForm (b : Bs) : Bool := b.m.all (fun x => x == 0) || b.m.any (fun x => decide (16384 ≤ x.natAbs)) || b.exp == 1 || b.sat
/-- The checks say the claims. -/
theorem blockOk_ok (b : Bs) (h : blockOk b = true) : Claims.BlockOk b := by
  simp only [blockOk, Bool.and_eq_true, Bool.or_eq_true, List.all_eq_true, beq_iff_eq, decide_eq_true_eq, bne_iff_ne] at h
  exact ⟨h.1.1.1, h.1.1.2, h.1.2, fun e => h.2.resolve_left (fun n => n e)⟩
theorem inNormalForm_ok (b : Bs) (h : inNormalForm b = true) : Claims.NormalForm b := by
  simp only [inNormalForm, Bool.or_eq_true, List.all_eq_true, List.any_eq_true, beq_iff_eq, decide_eq_true_eq] at h
  rcases h with ((h | h) | h) | h
  · exact .inl h
  · exact .inr (.inl h)
  · exact .inr (.inr (.inl h))
  · exact .inr (.inr (.inr h))
/-- Well-formed blocks: at the largest exponent and mantissa, at exponent 0, and one not in normal form. -/
theorem witness_BlocksAreInNormalForm :
    blockOk blockA = true ∧ blockOk blockB = true ∧ blockOk { m := padded [32767, -32767], exp := 254, pois := false, sat := true } = true
    ∧ blockOk (Bs.none false false) = true ∧ blockOk { m := padded [1], exp := 9, pois := false, sat := false } = true
    ∧ inNormalForm { m := padded [1], exp := 9, pois := false, sat := false } = false ∧ inNormalForm blockA = true
    ∧ bsParse (Bs.bytes { m := padded [1], exp := 9, pois := false, sat := false }) = ({ m := padded [1], exp := 9, pois := false, sat := false }, false) := by decide +kernel
/-- A poisoned block and a zero block beside block A; a sum above the range is clamped with SAT. -/
theorem witness_BlocksAreInNormalForm_BlockSumsCommute :
    let p := { blockB with pois := true }
    let h : Bs := { m := padded [32767], exp := 254, pois := false, sat := false }
    blockOk p = true ∧ p.pois = true ∧ (bsAdd p blockA).m = padded [] ∧ (bsAdd p blockA).pois = true ∧ blockA.exp ≠ 0 ∧ bsAdd blockA (Bs.none false false) = blockA
    ∧ bsAdd h h = { m := padded [32767], exp := 254, pois := false, sat := true } := by decide +kernel
/-- Ties go to the even multiple; 1 + 2^-9 rounds to BF16 up and down by the two draws of the example (spec/02 R42, R43). -/
theorem witness_RoundingIsToNearest :
    rneAt 5 (-1) 0 = 2 ∧ rneAt 7 (-1) 0 = 4 ∧ rneAt 9 (-2) 0 = 2 ∧ rneAt 3 1 0 = 6 ∧ rneInt (-7) (-1) = -4 ∧ rneInt 0 (-1) = 0 ∧ (0 : Int) ≤ 1 ∧ (-1 : Int) < 0
    ∧ srAt 4 0 0 65535 = 4 ∧ srAt 5 (-2) 0 0 = 1 ∧ srAt 5 (-2) 0 65535 = 2
    ∧ bf16Of (some 0xD1A0) (val32 0x3F804000) = 0x3F81 ∧ bf16Of (some 0x2B00) (val32 0x3F804000) = 0x3F80 := by decide +kernel
/-- Table 2-2: four elements under scale 0x78 (spec/02 R38). -/
theorem test_mx_conversion :
    let l : List F32 := [0x40400000, 0xBDCCCCCD, 0x4079999A, 0x3A83126F]
    mxScale 1 (l.map val32) = 0x78 ∧ l.map (fun x => mxCode 1 0x78 none (val32 x)) = [0x7C, 0xD5, 0x7E, 0x20] ∧ mxVal32 1 0x7E 0x78 = 0x40600000 := by decide +kernel
/-- The three rows of Table 2-7 (spec/02 R58). -/
theorem test_firn_update :
    firnUpdate 0x3F80 0x10 0xB9400000 = (0x3F80, 0x0A, false) ∧ firnUpdate 0x3F80 0x78 0x39A00000 = (0x3F81, 0x82, false)
    ∧ firnUpdate 0x3FFF 0 0x3B800000 = (0x4000, 0xC0, false) := by decide +kernel
/-- Of 1.0, a NaN, 2.0, -0, +0 and 2.0 again, the three largest are the two 2.0, the lower index first, and 1.0; the NaN comes last. -/
theorem witness_TopExpertsAreTheLargest :
    let l : List F32 := [0x3F800000, 0x7FC00000, 0x40000000, 0x80000000, 0, 0x40000000]
    3 ≤ l.length ∧ topExperts l 3 = [2, 5, 0] ∧ topExperts l 6 = [2, 5, 0, 3, 4, 1] ∧ topExperts l 0 = [] := by decide +kernel
/-- A GATE.TOPK of two tokens and two choices in the engine; it stores the choices of the second token after the first's record. -/
theorem witness_TopExpertsAreTheLargest_stored :
    let g : CondOp := { stream := .fwd, w := ins 0x38 [(112, 1), (104, 5), (96, 3), (93, 1), (67, 1)], first := 0, dA := { base := spAddr 0 0x20000, fmt := 6, dim0b := 1, dim1b := 1, gdim1b := 1 },
                        dB := { base := spAddr 0 0x40000, dim0b := 1, dim1b := 1, gdim1b := 1 } }
    let s := (base.setFloe 0 { floe0 with vu := .cond g, tags := [(5, { wr := 1 })] }).poke (spAddr 0 0x20042) [0x80, 0x3F, 0, 0x40]
    goodIs s = true ∧ Memory.wf s.mem = true ∧ opOf g.w = 0x38 ∧ s.lostAt (recAt g.dB g.first) = false ∧ gateN g.w = 2 ∧ gateE g.w = 4 ∧ gateK g.w = 2
    ∧ onNext (exec (.gatePackComplete 0 []) s) (fun t => t.byte (spAddr 0 0x40000) == 0 && t.byte (spAddr 0 0x40001) == 1 && t.byte (spAddr 0 0x40002) == 255
        && t.byte (spAddr 0 0x40040) == 2 && t.byte (spAddr 0 0x40041) == 1) = true := by decide +kernel
/-- While an activation is in progress: FW_ACTIVATE, a device reset, an operation and FW_STAGE for the component being activated are answered BUSY. -/
theorem witness_BusyWhileAnotherIsInProgress :
    let b := fun (s : State) => { s with sec := { s.sec with fwAct := some { comp := 3 } } }
    let a := b (asks base (cmd 0x31 15 3 0 []))
    let d := b (asks base (cmd 0x50 15 2 0 []))
    let o := b (asksPriv 3 [] (zeros 256))
    let g := b (asks base (cmd 0x30 15 (3 + 64 * 2 ^ 32) 328 [1, 2]))
    let no := fun (t : State) => answered t 0xB 0 && t.sec.fwAct == some { comp := 3 }
    (a.takeOp (isOp 0x31)).isSome = true ∧ resetOkd 2 (fun c => c.arg0 == 2 && c.arg1 == 0 && c.payload.isEmpty) d = true ∧ (o.takeOp (isPriv 3)).isSome = true ∧ (g.takeOp (isOp 0x30)).isSome = true
    ∧ onNext (exec .fwActivate a) no = true ∧ onNext (exec .resetDevice d) no = true ∧ onNext (exec .debugLock o) no = true ∧ onNext (exec .fwStage g) no = true := by decide +kernel
/-- A command at the front of the queue, on a device that is ready. -/
theorem witness_StepRunsFrontCommand :
    let s := { base with pending := [.pwrCap 1500, .rstWdtKick] }
    s.pending = Instr.pwrCap 1500 :: [.rstWdtKick] ∧ onNext (step s) (fun t => t.power.cap == 1500 && t.pending == [.rstWdtKick]) = true := by decide +kernel
/-- A nanosecond of a device that is ready, one that slews, one that has tripped and one in a cold reset; 0.0001 ns is the unit of the fraction. -/
theorem witness_EmptyQueuePassesOneNanosecond :
    let v := fun (z : Int) (f : Nat) => { base with time := { base.time with slew := z, frac := f } }
    base.pending = [] ∧ base.rst.phase ≠ .tripped ∧ State.reset.rst.phase = .cold ∧ base.time.frac < 10000
    ∧ onNext (step (v 0 0)) (fun t => t.time.systime == 1 && t.time.frac == 0 && t.time.slew == 0) = true
    ∧ onNext (step (v 3 9999)) (fun t => t.time.systime == 2 && t.time.frac == 0 && t.time.slew == 2) = true
    ∧ onNext (step (v (-3) 0)) (fun t => t.time.systime == 0 && t.time.frac == 9999 && t.time.slew == -2) = true
    ∧ onNext (step (base.setRst { base.rst with phase := .tripped })) (fun t => t.time.systime == 0) = true
    ∧ onNext (step State.reset) (fun t => t.time.systime == 1 && t.rst.phase == .cold) = true := by decide +kernel
/-- Canonical memories, empty and not, and lists that are not canonical. -/
theorem witness_StepKeepsMemoryCanonical :
    let s := { base with pending := [.nop 0 .fwd] }
    Memory.wf s.mem = true ∧ Memory.wf (s.poke (spAddr 0 0) [1, 0, 2]).mem = true ∧ (s.poke (spAddr 0 0) [1, 0, 2]).mem ≠ []
    ∧ Memory.wf [⟨spAddr 0 1, 1⟩, ⟨spAddr 0 0, 1⟩] = false ∧ Memory.wf [⟨spAddr 0 0, 0⟩] = false ∧ onNext (step s) (fun t => t.pending == []) = true := by decide +kernel
/-- A command changes a part it may change and leaves one it may not. -/
theorem witness_CommandsChangeOnlyTheirParts :
    onNext (exec (.pwrCap 1500) base) (fun t => t.power.cap == 1500 && t.mem == base.mem) = true := by decide +kernel
/-- Where DEBUG_LOCKED is blown and a floe has a remap record, a step keeps both. -/
theorem witness_StepOnlyBlowsFuses :
    let s := { base with pending := [.pwrCap 1500], fuses := { base.fuses with debugLocked := true, fwKeyValid := 5, rec0 := [(0, 104)] } }
    s.fuses.fwKeyValid.getLsbD 2 = true ∧ onNext (step s) (fun t => t.fuses == s.fuses) = true := by decide +kernel
/-- No word of the table spells a command, so a word places none (spec/opcode_table.json gives no bits). -/
theorem test_table_words : decodeTableWord 64 0x50 = none ∧ State.reset.withFetchWord 64 0x50 = State.reset := ⟨rfl, rfl⟩
/-- The queue is empty at reset. -/
theorem test_reset_queue : State.reset.pending = [] ∧ State.reset.cmdq = [] := by decide +kernel

/-! ## An ill-formed term for each check of WellFormed -/

/-- Operands just outside their ranges. -/
theorem test_ill_formed_floes :
    let l : List Instr := [.salu 208 .fwd, .jump 208 .upd, .mma 208 .fwd {}, .tagWait 208 .fwd, .remoteSignal 208 .fwd 0, .remoteSignal 0 .fwd 208, .sldReturn 208 .fwd 0,
      .sldReturn 0 .fwd 32, .tileRowDrain 208 0 true, .tileRowDrain 0 2 true, .mmaComplete 0 2, .vecPassComplete 208, .fwRehold 208, .xferComplete 0 256 [],
      .readersReleased 0 (.array 2) [], .readersReleased 0 (.transfer 256) [], .readersReleased 208 .push []]
    l.all (fun i => !i.wf) = true := by decide +kernel
theorem test_ill_formed_links :
    let l : List Instr := [.collStepComplete 8 0, .stepTimeout 0 65536, .pauseWaitExpiry 8, .thawDone 8, .meshPacket 12 [], .fc 12 [], .helloSend 12, .laneLock 12, .blockLock 12 0 [], .blockLock 0 64 [], .tail 12 [] true, .alignmentMarker 12 [], .portLossOfLock 12 0,
      .alignmentMarkerSend 12 0, .alignmentMarkerSend 0 64, .oedFrame 4 [] 0 true 0 0, .lldp 4 [], .oedPortCfg 4 0, .oedLinkState 4 0 true, .oedLinkState 0 2 true,
      .laserSample 4 0 0, .laserLockLoss 0 12, .spareReady 0 12, .laserSwapComplete 4, .substrateTempCheck 4 0, .optServiceDrain 4 0, .ringFault 4 0 true false, .ringFault 0 64 false true,
      .wavelengthRecal 4 0, .optLaserCmdSwap 0 8, .optLaserCmdRecal 0 8, .shuttleRemoved 4, .shuttleSeated 4]
    l.all (fun i => !i.wf) = true := by decide +kernel
theorem test_ill_formed_device :
    let z := State.reset.straps
    let l : List Instr := [.nmmapRetire 48, .recalWindow 48 true, .rasCalveGo 224, .resetCtrlGo 2 0, .ctrlHold 0 16384 true, .ctrlFreeze 2 0 true, .blockResetEscalation 2 0, .blockResetComplete 0 16384,
      .fatal 2 0 0 z, .fatal 0 16384 0 z, .fatal 0 0 32 z, .routerBank 2 0, .gwyTxStore 8 0 [] [], .gwyRxLoad 8, .resync 8, .claim 8, .loadChunk 14, .memWrite 16 [], .csrRead 9, .badOpcode 8,
      .thermalSample 2 [], .dvfsLevelChange 2, .voltageDroop 2, .sensorCrossCheck 2 0, .bridgeLaneRetrain 8 0, .cxlLinkDown 2 0, .cxlLinkDown 0 4, .ucieLinkUp 4 true, .ucieLaneRepair 4 true 0, .cxlHotAdd { port := 2, cap := 0 },
      .siteHardFailure 224, .spareSelfTest 224 true, .addUnitTest 7 true]
    l.all (fun i => !i.wf) = true := by decide +kernel
/-- Operands at the ends of their ranges. -/
theorem test_well_formed :
    let l : List Instr := [.salu 207 .fwd, .sldReturn 207 .upd 31, .tileRowDrain 207 1 true, .xferComplete 207 255 [], .stepTimeout 7 65535, .meshPacket 11 [], .alignmentMarkerSend 11 63,
      .oedPortCfg 3 2, .spareReady 3 11, .ringFault 3 63 false false, .blockLock 11 63 [], .optLaserCmdRecal 3 7, .nmmapRetire 47, .rasCalveGo 223, .ctrlHold 1 16383 true, .fatal 1 16383 31 State.reset.straps, .claim 15, .csrRead 7, .ucieLinkUp 3 false, .addUnitTest 6 false]
    l.all (fun i => i.wf) = true := by decide +kernel

end Sys2Proof.Tests
end

section
/-! SUPPORT. BS16 blocks: the rounding that the fitting loop turns on, what the loop can answer, and from them the normal form of every block emitted (spec/02 R48 to R55). -/

namespace Sys2Proof.Machine

/-! ## RNE to an integer -/

/-- A magnitude at or above one unit is rounded exactly. -/
theorem rneAt_natCast_zero (m k : Nat) : rneAt m k 0 = m * 2 ^ k := by
  rw [rneAt, if_pos (Int.natCast_nonneg k), Int.sub_zero, Int.toNat_natCast, Nat.shiftLeft_eq]
/-- A number of u and the remainder below it, rounded to a neighbour that is no farther than the other. -/
theorem near_of_half_le {n r u m : Nat} (hm : u * n + r = m) (hr : r < u) (b : Bool)
    (hup : b = true → u ≤ 2 * r) (hdown : b = false → 2 * r ≤ u) :
    2 * m ≤ (2 * (n + b.toNat) + 1) * u ∧ 2 * (n + b.toNat) * u ≤ 2 * m + u := by
  have hun : u * n = n * u := Nat.mul_comm u n
  cases b with
  | true =>
    have hu := hup rfl
    simp only [Bool.toNat_true, Nat.add_mul, Nat.mul_add, Nat.mul_assoc, Nat.one_mul]
    omega
  | false =>
    have hu := hdown rfl
    simp only [Bool.toNat_false, Nat.add_zero, Nat.add_mul, Nat.mul_assoc, Nat.one_mul]
    omega
/-- RNE is off by half a unit at most (spec/02 R42), said for the rounding of m / 2^k. -/
theorem rneAt_neg_zero_near (m k : Nat) :
    2 * m ≤ (2 * rneAt m (-k) 0 + 1) * 2 ^ k ∧ 2 * rneAt m (-k) 0 * 2 ^ k ≤ 2 * m + 2 ^ k := by
  have hr := Nat.mod_lt m (Nat.two_pow_pos k)
  rcases Nat.eq_zero_or_pos k with rfl | hk
  · have h : rneAt m (-((0 : Nat) : Int)) 0 = m := by
      rw [show -((0 : Nat) : Int) = ((0 : Nat) : Int) from rfl, rneAt_natCast_zero, Nat.pow_zero, Nat.mul_one]
    rw [h, Nat.pow_zero]
    omega
  · have h : rneAt m (-k) 0 = m / 2 ^ k
        + (decide (2 ^ k < 2 * (m % 2 ^ k)) || (2 * (m % 2 ^ k) == 2 ^ k && m / 2 ^ k % 2 == 1)).toNat := by
      rw [rneAt, if_neg (show ¬ (0 : Int) ≤ -k by omega), show ((0 : Int) - -k).toNat = k by omega]
      simp only [Nat.shiftRight_eq_div_pow]
      split
      · rename_i hb; rw [hb, Bool.toNat_true]
      · rename_i hb; rw [eq_false_of_ne_true hb, Bool.toNat_false, Nat.add_zero]
    rw [h]
    refine near_of_half_le (Nat.div_add_mod m (2 ^ k)) hr _ (fun hb => ?_) (fun hb => ?_)
    · simp only [Bool.or_eq_true, Bool.and_eq_true, decide_eq_true_eq, beq_iff_eq] at hb
      omega
    · simp only [Bool.or_eq_false_iff, decide_eq_false_iff_not] at hb
      omega
/-- A value of 2^k or more is rounded to 2^k or more. -/
theorem two_pow_le_rneAt {m n k : Nat} {t : Int} (hm : 2 ^ n ≤ m) (hk : (k : Int) ≤ n + t) : 2 ^ k ≤ rneAt m t 0 := by
  obtain ⟨j, rfl | rfl⟩ := t.eq_nat_or_neg
  · rw [rneAt_natCast_zero]
    calc 2 ^ k ≤ 2 ^ (n + j) := Nat.pow_le_pow_right (by decide) (by omega)
      _ = 2 ^ n * 2 ^ j := Nat.pow_add 2 n j
      _ ≤ m * 2 ^ j := Nat.mul_le_mul_right _ hm
  · have hu : 2 ^ k * 2 ^ j ≤ m := calc
      2 ^ k * 2 ^ j = 2 ^ (k + j) := (Nat.pow_add 2 k j).symm
      _ ≤ 2 ^ n := Nat.pow_le_pow_right (by decide) (by omega)
      _ ≤ m := hm
    have hle : 2 * 2 ^ k * 2 ^ j ≤ (2 * rneAt m (-j) 0 + 1) * 2 ^ j := calc
      2 * 2 ^ k * 2 ^ j = 2 * (2 ^ k * 2 ^ j) := Nat.mul_assoc _ _ _
      _ ≤ 2 * m := Nat.mul_le_mul_left 2 hu
      _ ≤ _ := (rneAt_neg_zero_near m j).1
    have := Nat.le_of_mul_le_mul_right hle (Nat.two_pow_pos j)
    omega
/-- Half of a value that is rounded to 2k or more is rounded to k or more. -/
theorem le_rneAt_sub_one {m k : Nat} {t : Int} (h : 2 * k ≤ rneAt m t 0) : k ≤ rneAt m (t - 1) 0 := by
  by_cases ht : 1 ≤ t
  · obtain ⟨j, rfl⟩ : ∃ j : Nat, t = ((j + 1 : Nat) : Int) := ⟨(t - 1).toNat, by omega⟩
    rw [rneAt_natCast_zero, Nat.pow_succ, ← Nat.mul_assoc] at h
    rw [show ((j + 1 : Nat) : Int) - 1 = (j : Int) by omega, rneAt_natCast_zero]
    omega
  · obtain ⟨j, rfl⟩ : ∃ j : Nat, t = -(j : Int) := ⟨(-t).toNat, by omega⟩
    rw [show -(j : Int) - 1 = -((j + 1 : Nat) : Int) by omega]
    have hle : 4 * k * 2 ^ j ≤ (4 * rneAt m (-((j + 1 : Nat) : Int)) 0 + 3) * 2 ^ j := by
      have hmul := Nat.mul_le_mul_right (2 ^ j) h
      have hnear := (rneAt_neg_zero_near m j).2
      have hhalf := (rneAt_neg_zero_near m (j + 1)).1
      simp only [Nat.pow_succ, Nat.add_mul, Nat.mul_assoc, Nat.mul_comm (2 ^ j) 2] at hmul hnear hhalf ⊢
      rw [Nat.mul_left_comm (rneAt m (-((j + 1 : Nat) : Int)) 0) 2] at hhalf
      omega
    have := Nat.le_of_mul_le_mul_right hle (Nat.two_pow_pos j)
    omega
/-- Rounding at a unit that divides the value gives the quotient. -/
theorem rneAt_mul_two_pow (m k : Nat) : rneAt (m * 2 ^ k) (-k) 0 = m := by
  obtain ⟨hlo, hhi⟩ := rneAt_neg_zero_near (m * 2 ^ k) k
  rw [← Nat.mul_assoc] at hlo hhi
  have hhi' : 2 * rneAt (m * 2 ^ k) (-k) 0 * 2 ^ k ≤ (2 * m + 1) * 2 ^ k := by rwa [Nat.add_mul, Nat.one_mul]
  have h1 := Nat.le_of_mul_le_mul_right hlo (Nat.two_pow_pos k)
  have h2 := Nat.le_of_mul_le_mul_right hhi' (Nat.two_pow_pos k)
  omega

theorem natAbs_rneVal_fin (n : Bool) (m : Nat) (e k : Int) : (rneVal (.fin n m e) k).natAbs = rneAt m (e + k) 0 := by
  cases n with
  | false => rfl
  | true => exact Int.natAbs_neg _
theorem natAbs_rneInt (x e : Int) : (rneInt x e).natAbs = rneAt x.natAbs e 0 := by
  rw [rneInt]
  split
  · exact Int.natAbs_neg _
  · rfl
/-- A mantissa beyond the range becomes one of 16,384 or more at the next exponent, for CVT.BS16. -/
theorem natAbs_rneVal_next {v : FVal} {k : Int} (h : 32767 < (rneVal v k).natAbs) : 16383 < (rneVal v (k - 1)).natAbs := by
  cases v with
  | nan => exact absurd h (by decide : ¬ 32767 < (0 : Int).natAbs)
  | inf n => exact absurd h (by decide : ¬ 32767 < (0 : Int).natAbs)
  | fin n m e =>
    rw [natAbs_rneVal_fin] at h ⊢
    rw [← Int.add_sub_assoc]
    exact le_rneAt_sub_one (k := 16384) h
/-- A mantissa beyond the range becomes one of 16,384 or more at the next exponent, for a sum. -/
theorem natAbs_rneInt_next {x k : Int} (h : 32767 < (rneInt x k).natAbs) : 16383 < (rneInt x (k - 1)).natAbs := by
  rw [natAbs_rneInt] at h ⊢
  exact le_rneAt_sub_one (k := 16384) h
/-- The widening of a sum's operand, undone. -/
theorem rneInt_mul_two_pow (x : Int) (k : Nat) : rneInt (x * ((2 ^ k : Nat) : Int)) (-k) = x := by
  have hk : (0 : Int) < ((2 ^ k : Nat) : Int) := Int.natCast_pos.mpr (Nat.two_pow_pos k)
  rw [rneInt, Int.natAbs_mul, Int.natAbs_natCast, rneAt_mul_two_pow]
  by_cases hx : x < 0
  · rw [if_pos (Int.mul_neg_of_neg_of_pos hx hk), Int.ofNat_eq_natCast]; omega
  · rw [if_neg (Int.not_lt.mpr (Int.mul_nonneg (by omega) (by omega))), Int.ofNat_eq_natCast]; omega

/-! ## The largest magnitude -/

theorem foldl_max_natAbs_le (l : List Int) (a n : Nat) :
    l.foldl (fun a x => max a x.natAbs) a ≤ n ↔ a ≤ n ∧ ∀ x ∈ l, x.natAbs ≤ n := by
  induction l generalizing a with
  | nil => exact ⟨fun h => ⟨h, fun _ hx => absurd hx List.not_mem_nil⟩, And.left⟩
  | cons x r ih => rw [List.foldl_cons, ih, Nat.max_le, and_assoc, List.forall_mem_cons]
theorem maxAbs_le {l : List Int} {n : Nat} : maxAbs l ≤ n ↔ ∀ x ∈ l, x.natAbs ≤ n := by
  rw [maxAbs, foldl_max_natAbs_le]
  exact and_iff_right (Nat.zero_le n)
theorem lt_maxAbs {l : List Int} {n : Nat} : n < maxAbs l ↔ ∃ x ∈ l, n < x.natAbs := by
  rw [← Nat.not_le, maxAbs_le, Classical.not_forall]
  exact exists_congr fun x => by rw [Classical.not_imp, Nat.not_le]
/-- A list that is not all 0 has an element whose leading bit is the leading bit of the largest magnitude. -/
theorem exists_two_pow_log2_maxAbs_le {l : List Int} (h : maxAbs l ≠ 0) : ∃ x ∈ l, 2 ^ (maxAbs l).log2 ≤ x.natAbs := by
  obtain ⟨x, hx, hlt⟩ := lt_maxAbs.mp (Nat.sub_one_lt h)
  exact ⟨x, hx, Nat.le_trans (Nat.log2_self_le h) (by omega)⟩
/-- The model's check that all are 0. -/
theorem all_beq_zero {l : List Int} : l.all (fun x => x == 0) = true ↔ ∀ x ∈ l, x = 0 := by
  simp only [List.all_eq_true, beq_iff_eq]
theorem maxAbs_eq_zero {l : List Int} : maxAbs l = 0 ↔ ∀ x ∈ l, x = 0 := by
  rw [← Nat.le_zero, maxAbs_le]
  exact forall_congr' fun x => by rw [Nat.le_zero, Int.natAbs_eq_zero]
/-- The largest of some magnitudes, if it is not the one given first, is one of theirs. -/
theorem foldl_magMax_cases (l : List FVal) {a : FVal} (ha : a.mag = a) :
    l.foldl magMax a = a ∨ ∃ v ∈ l, l.foldl magMax a = v.mag := by
  induction l generalizing a with
  | nil => exact .inl rfl
  | cons b r ih =>
    have hb : b.mag.mag = b.mag := by cases b <;> rfl
    rw [List.foldl_cons, magMax]
    split
    · rcases ih hb with h | ⟨v, hv, h⟩
      · exact .inr ⟨b, by simp, h⟩
      · exact .inr ⟨v, by simp [hv], h⟩
    · rw [ha]
      rcases ih ha with h | ⟨v, hv, h⟩
      · exact .inl h
      · exact .inr ⟨v, by simp [hv], h⟩
/-- The largest magnitude of finite values that are not all 0 is that of one of them. -/
theorem exists_amaxOf_eq {l : List FVal} (hfin : ∀ v ∈ l, v.nonfinite = false) (hz : (amaxOf l).zero = false) :
    ∃ n m e, FVal.fin n m e ∈ l ∧ m ≠ 0 ∧ flog2 (amaxOf l) = m.log2 + e := by
  rcases foldl_magMax_cases l (a := fzero) rfl with h | ⟨v, hv, h⟩
  · rw [amaxOf, h] at hz; exact absurd hz (by decide)
  · cases v with
    | nan => exact absurd (hfin _ hv) (by decide)
    | inf n => exact absurd (hfin _ hv) (by simp [FVal.nonfinite])
    | fin n m e =>
      rw [amaxOf, h] at hz
      exact ⟨n, m, e, hv, by simpa [FVal.mag, FVal.zero] using hz, by rw [amaxOf, h]; rfl⟩
/-- A finite FP32 value is below 2^128. -/
theorem log2_val32_le {w : F32} {n : Bool} {m : Nat} {e : Int} (h : val32 w = .fin n m e) (hm : m ≠ 0) : (m.log2 : Int) + e ≤ 127 := by
  have hbits {k : Nat} (hk : m < 2 ^ (k + 1)) : m.log2 ≤ k := Nat.lt_succ_iff.mp ((Nat.log2_lt hm).mpr hk)
  simp only [val32] at h
  split at h
  · split at h <;> cases h
  · split at h
    · cases h
      have := hbits (k := 23) (by omega)
      omega
    · cases h
      have := hbits (k := 23) (by omega)
      omega

/-! ## The fitting loop of spec/02 R52 and R54 -/

/-- What the loop answers: it stops at an exponent k, the first one or one after an overflow, with the mantissas as they are where they fit, else at 254 with the mantissas clamped and SAT. -/
theorem bsFit_cases (g : Nat → List Int) (sat : Bool) {n e : Nat} (he : e ≤ 254) (hn : 254 < e + n) :
    ∃ k, e ≤ k ∧ k ≤ 254 ∧ (k = e ∨ ∃ j, k = j + 1 ∧ 32767 < maxAbs (g j))
      ∧ ((maxAbs (g k) ≤ 32767 ∧ bsFit g sat n e = { m := g k, exp := if (g k).all (fun x => x == 0) then 0 else k, sat := sat })
        ∨ bsFit g sat n e = { m := (g k).map clampM, exp := 254, sat := true }) := by
  induction n generalizing e with
  | zero => omega
  | succ n ih =>
    by_cases hfit : maxAbs (g e) ≤ 32767
    · exact ⟨e, Nat.le_refl _, he, .inl rfl, .inl ⟨hfit, by simp [bsFit, hfit]⟩⟩
    · by_cases hmax : e = 254
      · exact ⟨e, Nat.le_refl _, he, .inl rfl, .inr (by subst hmax; simp only [bsFit, hfit, if_true, if_false])⟩
      · obtain ⟨k, hek, hk, hcame, hans⟩ := ih (e := e + 1) (by omega) (by omega)
        rw [show bsFit g sat (n + 1) e = bsFit g sat n (e + 1) by simp [bsFit, hfit, hmax]]
        refine ⟨k, by omega, hk, .inr ?_, hans⟩
        rcases hcame with rfl | hcame
        · exact ⟨e, rfl, by omega⟩
        · exact hcame
/-- The loop ends in a well-formed block. -/
theorem bsFit_blockOk {g : Nat → List Int} (hlen : ∀ k, (g k).length = 32) (sat : Bool) {n e : Nat} (h1 : 1 ≤ e) (he : e ≤ 254) (hn : 254 < e + n) :
    Claims.BlockOk (bsFit g sat n e) := by
  obtain ⟨k, hek, hk, -, ⟨hfit, hb⟩ | hb⟩ := bsFit_cases g sat he hn <;> rw [hb]
  · refine ⟨hlen k, fun x hx => ?_, ?_, ?_⟩
    · have := maxAbs_le.mp hfit x hx; omega
    · dsimp only; split <;> omega
    · intro hz x hx
      have hall : (g k).all (fun x => x == 0) = true := by
        refine Classical.byContradiction fun hne => ?_
        dsimp only at hz
        rw [if_neg hne] at hz
        omega
      exact all_beq_zero.mp hall x hx
  · refine ⟨by simp [hlen], fun x hx => ?_, by simp, by simp⟩
    obtain ⟨y, -, rfl⟩ := List.mem_map.mp hx
    simp only [clampM]; omega
/-- The loop ends in normal form: it starts at EXP 1 or with a mantissa of 16,384 or more, and leaves an exponent only for one where such a mantissa stands. -/
theorem bsFit_normalForm {g : Nat → List Int} (hnext : ∀ k, 32767 < maxAbs (g k) → 16383 < maxAbs (g (k + 1)))
    (sat : Bool) {n e : Nat} (he : e ≤ 254) (hn : 254 < e + n) (hstart : e = 1 ∨ 16383 < maxAbs (g e)) :
    Claims.NormalForm (bsFit g sat n e) := by
  obtain ⟨k, -, -, hcame, ⟨-, hb⟩ | hb⟩ := bsFit_cases g sat he hn <;> rw [hb]
  · have hk : k = 1 ∨ 16383 < maxAbs (g k) := by
      rcases hcame with rfl | ⟨j, rfl, hover⟩
      · exact hstart
      · exact .inr (hnext j hover)
    rcases hk with rfl | hk
    · by_cases hall : (g 1).all (fun x => x == 0) = true
      · exact .inl (all_beq_zero.mp hall)
      · exact .inr (.inr (.inl (if_neg hall)))
    · exact .inr (.inl (lt_maxAbs.mp hk))
  · exact .inr (.inr (.inr rfl))

/-! ## The blocks emitted -/

theorem Bs.none_blockOk (pois sat : Bool) : Claims.BlockOk (Bs.none pois sat) := by
  refine ⟨by simp [Bs.none], fun x hx => ?_, by simp [Bs.none], fun _ x hx => List.eq_of_mem_replicate hx⟩
  rw [List.eq_of_mem_replicate hx]; decide
theorem Bs.none_normalForm (pois sat : Bool) : Claims.NormalForm (Bs.none pois sat) := .inl fun _ hx => List.eq_of_mem_replicate hx

/-- CVT.BS16 of 32 values emits a well-formed block in normal form: at the first exponent the largest value lies in [2^14, 2^15) unless that exponent is 1 (spec/02 R51, R52). -/
theorem bsConvert_blockOk_normalForm {l : List F32} (hl : l.length = 32) :
    Claims.BlockOk (bsConvert (l.map val32)) ∧ Claims.NormalForm (bsConvert (l.map val32)) := by
  simp only [bsConvert]
  split
  · exact ⟨Bs.none_blockOk _ _, Bs.none_normalForm _ _⟩
  rename_i hfin
  split
  · exact ⟨Bs.none_blockOk _ _, Bs.none_normalForm _ _⟩
  rename_i hz
  obtain ⟨n, m, e, hv, hm, hlog⟩ := exists_amaxOf_eq (l := l.map val32) (by simpa using hfin) (by simpa using hz)
  have hmax : (m.log2 : Int) + e ≤ 127 := by
    obtain ⟨w, -, hw⟩ := List.mem_map.mp hv
    exact log2_val32_le hw hm
  rw [hlog]
  refine ⟨bsFit_blockOk (by simp [hl]) _ (by omega) (by omega) (by omega), bsFit_normalForm ?_ _ (by omega) (by omega) ?_⟩
  · intro k hk
    obtain ⟨x, hx, hlt⟩ := lt_maxAbs.mp hk
    obtain ⟨v, hv, rfl⟩ := List.mem_map.mp hx
    refine lt_maxAbs.mpr ⟨_, List.mem_map_of_mem hv, ?_⟩
    rw [show (141 : Int) - ((k + 1 : Nat) : Int) = 141 - (k : Int) - 1 by omega]
    exact natAbs_rneVal_next hlt
  · by_cases h1 : (m.log2 : Int) + e + 127 ≤ 1
    · exact .inl (by omega)
    · refine .inr (lt_maxAbs.mpr ⟨_, List.mem_map_of_mem hv, ?_⟩)
      rw [natAbs_rneVal_fin]
      exact two_pow_le_rneAt (k := 14) (Nat.log2_self_le hm) (by omega)

/-- A sum of aligned mantissas, rounded at an exponent. -/
def bsSumAt (s : List Int) (em e : Nat) : List Int := s.map (fun x => rneInt x (-((e : Int) - (em : Int) + 15)))
/-- The aligned mantissas of two blocks, added (spec/02 R54). -/
def bsSums (a b : Bs) : List Int :=
  List.zipWith (fun x y => bsAlign (max a.exp b.exp) a.exp x + bsAlign (max a.exp b.exp) b.exp y) a.m b.m
/-- The sum of two blocks, by its three cases: poisoned, zero, fitted. -/
theorem bsAdd_eq (a b : Bs) : bsAdd a b =
    if a.pois || b.pois then Bs.none true (a.sat || b.sat)
    else if (bsSums a b).all (fun x => x == 0) then Bs.none false (a.sat || b.sat)
    else bsFit (bsSumAt (bsSums a b) (max a.exp b.exp)) (a.sat || b.sat) 300
      (min 254 (max 1 (max a.exp b.exp + (maxAbs (bsSums a b)).log2 - 29))) := by
  simp only [bsAdd, bsSums]
  rfl

/-- Of a sum that is not 0, a mantissa of 16,384 or more stands at every exponent up to the one its leading bit gives, and so at 254 where the start is held down to it. -/
theorem bsSumAt_start {s : List Int} {em e : Nat} (hs : maxAbs s ≠ 0) (he : e ≤ em + (maxAbs s).log2 - 29) (h1 : 1 < e) :
    16383 < maxAbs (bsSumAt s em e) := by
  obtain ⟨x, hx, hle⟩ := exists_two_pow_log2_maxAbs_le hs
  refine lt_maxAbs.mpr ⟨_, List.mem_map_of_mem hx, ?_⟩
  rw [natAbs_rneInt]
  exact two_pow_le_rneAt (k := 14) hle (by omega)
theorem bsSumAt_next {s : List Int} {em k : Nat} (hk : 32767 < maxAbs (bsSumAt s em k)) : 16383 < maxAbs (bsSumAt s em (k + 1)) := by
  obtain ⟨y, hy, hlt⟩ := lt_maxAbs.mp hk
  obtain ⟨x, hx, rfl⟩ := List.mem_map.mp hy
  refine lt_maxAbs.mpr ⟨_, List.mem_map_of_mem hx, ?_⟩
  rw [show -(((k + 1 : Nat) : Int) - (em : Int) + 15) = -((k : Int) - em + 15) - 1 by omega]
  exact natAbs_rneInt_next hlt
/-- The fitting of a sum that is not 0 ends in a well-formed block in normal form. -/
theorem bsFit_sum {s : List Int} {em e : Nat} (hlen : s.length = 32) (hs : maxAbs s ≠ 0)
    (he : e = min 254 (max 1 (em + (maxAbs s).log2 - 29))) (sat : Bool) :
    Claims.BlockOk (bsFit (bsSumAt s em) sat 300 e) ∧ Claims.NormalForm (bsFit (bsSumAt s em) sat 300 e) := by
  have h1 : 1 ≤ e := by omega
  have hmax : e ≤ 254 := by omega
  have hfuel : 254 < e + 300 := by omega
  have hstart : e = 1 ∨ 16383 < maxAbs (bsSumAt s em e) :=
    Classical.or_iff_not_imp_left.mpr fun h => bsSumAt_start hs (by omega) (by omega)
  exact ⟨bsFit_blockOk (by simp [bsSumAt, hlen]) sat h1 hmax hfuel,
    bsFit_normalForm (g := bsSumAt s em) (fun _ h => bsSumAt_next h) sat hmax hfuel hstart⟩
/-- The adder emits well-formed blocks in normal form (spec/02 R51, R54). -/
theorem bsAdd_blockOk_normalForm {a b : Bs} (ha : a.m.length = 32) (hb : b.m.length = 32) :
    Claims.BlockOk (bsAdd a b) ∧ Claims.NormalForm (bsAdd a b) := by
  rw [bsAdd_eq]
  split
  · exact ⟨Bs.none_blockOk _ _, Bs.none_normalForm _ _⟩
  split
  · exact ⟨Bs.none_blockOk _ _, Bs.none_normalForm _ _⟩
  rename_i hz
  exact bsFit_sum (by simp [bsSums, ha, hb]) (mt (maxAbs_eq_zero.trans all_beq_zero.symm).mp hz) rfl _

/-! ## The sum's laws (spec/02 R54, R55) -/

theorem bsSums_comm (a b : Bs) : bsSums a b = bsSums b a := by
  simp only [bsSums]
  rw [List.zipWith_comm, Nat.max_comm]
  simp only [Int.add_comm]
theorem bsAdd_comm (a b : Bs) : bsAdd a b = bsAdd b a := by
  simp only [bsAdd_eq, bsSums_comm a b, Bool.or_comm a.pois, Bool.or_comm a.sat, Nat.max_comm a.exp]
/-- A poisoned operand poisons the sum. -/
theorem bsAdd_poisoned {a b : Bs} (h : a.pois = true) : bsAdd a b = Bs.none true (a.sat || b.sat) := by
  rw [bsAdd_eq, h, Bool.true_or, if_pos rfl]
theorem bsAlign_zero (em e : Nat) : bsAlign em e 0 = 0 := by simp [bsAlign]
theorem bsAlign_self (e : Nat) (x : Int) : bsAlign e e x = x * ((2 ^ 15 : Nat) : Int) := by simp [bsAlign]
/-- Mantissas widened by 15 bits, as those of the operand with the larger exponent are (spec/02 R54). -/
def bsWiden (l : List Int) : List Int := l.map (fun x => x * ((2 ^ 15 : Nat) : Int))
/-- Widened mantissas are all 0 where the mantissas are. -/
theorem forall_bsWiden_eq_zero {l : List Int} : (∀ x ∈ bsWiden l, x = 0) ↔ ∀ x ∈ l, x = 0 := by
  rw [bsWiden, List.forall_mem_map]
  exact forall_congr' fun x => by rw [Int.mul_eq_zero, or_iff_left (by decide : ((2 ^ 15 : Nat) : Int) ≠ 0)]
/-- A zero block of as many mantissas only widens a block. -/
theorem bsSums_none {a : Bs} (ha : a.m.length = 32) (pois sat : Bool) :
    bsSums a (Bs.none pois sat) = bsWiden a.m := by
  rw [bsSums, show (Bs.none pois sat).m = List.replicate a.m.length 0 by rw [ha]; rfl]
  generalize a.m = l
  simp only [Bs.none, Nat.max_zero, bsAlign_self, bsWiden]
  induction l with
  | nil => rfl
  | cons x r ih => simpa [List.replicate_succ, bsAlign_zero] using ih
theorem bsSumAt_bsWiden (l : List Int) (e : Nat) : bsSumAt (bsWiden l) e e = l := by
  have h (x : Int) : rneInt (x * ((2 ^ 15 : Nat) : Int)) (-((e : Int) - e + 15)) = x := by
    rw [Int.sub_self, Int.zero_add]; exact rneInt_mul_two_pow x 15
  simp only [bsSumAt, bsWiden, List.map_map, Function.comp_def, h, List.map_id']
/-- The sum of a block in normal form with zero starts at the block's own exponent: the largest of its mantissas widened by 2^15 has bit 29 set, and no higher one. -/
theorem bsSum_start_bsWiden {l : List Int} {e : Nat} (hm : ∀ x ∈ l, x.natAbs ≤ 32767) (h1 : 1 ≤ e) (he : e ≤ 254)
    (hz : maxAbs (bsWiden l) ≠ 0) (hn : (∃ x ∈ l, 16384 ≤ x.natAbs) ∨ e = 1) :
    min 254 (max 1 (e + (maxAbs (bsWiden l)).log2 - 29)) = e := by
  generalize hM : maxAbs (bsWiden l) = M at hz ⊢
  have hle : M.log2 < 30 := by
    refine (Nat.log2_lt hz).mpr (Nat.lt_succ_iff.mpr (hM ▸ maxAbs_le.mpr fun y hy => ?_))
    obtain ⟨x, hx, rfl⟩ := List.mem_map.mp hy
    have := hm x hx
    omega
  rcases hn with ⟨x, hx, hbig⟩ | rfl
  · have hge : 29 ≤ M.log2 := by
      refine (Nat.le_log2 hz).mpr (hM ▸ lt_maxAbs.mpr ⟨_, List.mem_map_of_mem hx, ?_⟩ : 2 ^ 29 - 1 < M)
      omega
    omega
  · omega
/-- A block without flags is its mantissas and its exponent. -/
theorem Bs.eq_of_no_flags {b : Bs} (hp : b.pois = false) (hs : b.sat = false) :
    b = { m := b.m, exp := b.exp, pois := false, sat := false } := by
  cases b; cases hp; cases hs; rfl
/-- A zero block without flags adds nothing to a block in normal form. -/
theorem bsAdd_none {a : Bs} (ha : Claims.BlockOk a) (hn : Claims.NormalForm a) (hp : a.pois = false) (hs : a.sat = false)
    (hz : a.exp ≠ 0 → ∃ x ∈ a.m, x ≠ 0) : bsAdd a (Bs.none false false) = a := by
  obtain ⟨hlen, hm, he, hzero⟩ := ha
  have hm' : ∀ x ∈ a.m, x.natAbs ≤ 32767 := fun x hx => by have := hm x hx; omega
  have hpois : (a.pois || (Bs.none false false).pois) = false := by simp [hp, Bs.none]
  have hsat : (a.sat || (Bs.none false false).sat) = false := by simp [hs, Bs.none]
  have hem : max a.exp (Bs.none false false).exp = a.exp := Nat.max_zero _
  rw [bsAdd_eq, bsSums_none hlen, hpois, hsat, hem, if_neg (by decide)]
  by_cases hall : ∀ x ∈ a.m, x = 0
  · have he0 : a.exp = 0 := by
      refine Classical.byContradiction fun h => ?_
      obtain ⟨x, hx, hne⟩ := hz h
      exact hne (hall x hx)
    have hm0 : a.m = List.replicate 32 0 := hlen ▸ List.eq_replicate_of_mem hall
    rw [if_pos (all_beq_zero.mpr (forall_bsWiden_eq_zero.mpr hall))]
    rw [Bs.eq_of_no_flags hp hs, hm0, he0, Bs.none]
  · have he0 : a.exp ≠ 0 := fun h => hall (hzero h)
    have hbig : (∃ x ∈ a.m, 16384 ≤ x.natAbs) ∨ a.exp = 1 := by
      rcases hn with h | h | h | h
      · exact absurd h hall
      · exact .inl h
      · exact .inr h
      · exact absurd h (by simp [hs])
    rw [if_neg (mt (all_beq_zero.trans forall_bsWiden_eq_zero).mp hall), bsSum_start_bsWiden hm' (by omega) he (mt (maxAbs_eq_zero.trans forall_bsWiden_eq_zero).mp hall) hbig,
      bsFit, bsSumAt_bsWiden]
    simp only [if_pos (maxAbs_le.mpr hm'), if_neg (mt all_beq_zero.mp hall)]
    exact (Bs.eq_of_no_flags hp hs).symm

/-! ## A block's bytes (spec/02 R48, R50) -/

/-- The two bytes of a mantissa. -/
theorem mantissa_bytes_toInt {x : Int} (hlo : -32768 ≤ x) (hhi : x ≤ 32767) :
    (BitVec.ofInt 8 (x / 256) ++ BitVec.ofInt 8 x : BitVec 16).toInt = x := by
  have hcat : (BitVec.ofInt 8 (x / 256) ++ BitVec.ofInt 8 x : BitVec 16) = BitVec.ofInt 16 x := by
    apply BitVec.eq_of_toNat_eq
    rw [BitVec.toNat_append, ← Nat.shiftLeft_add_eq_or_of_lt (BitVec.isLt _), Nat.shiftLeft_eq]
    simp only [BitVec.toNat_ofInt]
    omega
  rw [hcat, BitVec.toInt_ofInt, Int.bmod_def]
  omega
/-- The mantissas are read back from their bytes. -/
theorem bsMants_flatMap {m : List Int} (hm : ∀ x ∈ m, -32767 ≤ x ∧ x ≤ 32767) (r : List Byte) :
    bsMants m.length (m.flatMap (fun x => [BitVec.ofInt 8 x, BitVec.ofInt 8 (x / 256)]) ++ r) = m := by
  induction m with
  | nil => rfl
  | cons x t ih =>
    obtain ⟨hlo, hhi⟩ := hm x (by simp)
    simp only [List.length_cons, List.flatMap_cons, List.cons_append, List.nil_append, bsMants]
    rw [mantissa_bytes_toInt (by omega) hhi, ih fun y hy => hm y (by simp [hy])]
theorem bsMantBytes_length (m : List Int) : (m.flatMap (fun x => [BitVec.ofInt 8 x, BitVec.ofInt 8 (x / 256)])).length = 2 * m.length := by
  induction m with
  | nil => rfl
  | cons x t ih => rw [List.flatMap_cons, List.length_append, ih, List.length_cons, List.length_cons, List.length_cons, List.length_nil]; omega
theorem Bs.bytes_length {b : Bs} (h : b.m.length = 32) : b.bytes.length = 68 := by
  rw [Bs.bytes, List.length_append, bsMantBytes_length, h]; rfl
/-- The four bytes behind the mantissas. -/
theorem Bs.bytes_getD {b : Bs} (h : b.m.length = 32) (i : Nat) : b.bytes.getD (64 + i) 0 =
    [BitVec.ofNat 8 b.exp, BitVec.ofNat 8 ((if b.pois then 1 else 0) + (if b.sat then 2 else 0)), BitVec.ofNat 8 b.res, 0].getD i 0 := by
  have hl := bsMantBytes_length b.m
  rw [h] at hl
  rw [Bs.bytes, List.getD_eq_getElem?_getD, List.getElem?_append_right (by omega), hl, Nat.add_sub_cancel_left, List.getD_eq_getElem?_getD]
/-- The flags are read back from their byte. -/
theorem flagBits_pois (p t : Bool) : ((if p then 1 else 0) + (if t then 2 else 0)).testBit 0 = p := by cases p <;> cases t <;> rfl
theorem flagBits_sat (p t : Bool) : ((if p then 1 else 0) + (if t then 2 else 0)).testBit 1 = t := by cases p <;> cases t <;> rfl
theorem flagBits_lt (p t : Bool) : ¬ 4 ≤ (if p then 1 else 0) + (if t then 2 else 0) := by cases p <;> cases t <;> decide
/-- A well-formed block that is received is accepted as it is (spec/02 R50, R51). -/
theorem bsParse_bytes {b : Bs} (hb : Claims.BlockOk b) : bsParse b.bytes = (b, false) := by
  obtain ⟨hlen, hm, he, hzero⟩ := hb
  have hmants : bsMants 32 b.bytes = b.m := by rw [← hlen, Bs.bytes, bsMants_flatMap hm]
  have hexp : (b.bytes.getD 64 0).toNat = b.exp := by
    rw [Bs.bytes_getD hlen 0, List.getD_cons_zero, BitVec.toNat_ofNat]; omega
  have hflags : (b.bytes.getD 65 0).toNat = (if b.pois then 1 else 0) + (if b.sat then 2 else 0) := by
    rw [Bs.bytes_getD hlen 1]; cases b.pois <;> cases b.sat <;> rfl
  have hres : (b.bytes.getD 66 0).toNat + 256 * (b.bytes.getD 67 0).toNat = b.res := by
    have hlt : b.res < 7 := by unfold Bs.res; omega
    rw [Bs.bytes_getD hlen 2, Bs.bytes_getD hlen 3]
    simp only [List.getD_cons_succ, List.getD_cons_zero, BitVec.toNat_ofNat]
    change b.res % 2 ^ 8 + 256 * 0 = b.res
    omega
  have hz : (b.exp == 0 && b.m.any (fun x => x != 0)) = false := by simpa using hzero
  have hmin : b.m.any (fun x => x == -32768) = false := by
    simp only [List.any_eq_false, beq_iff_eq]
    intro x hx; have := hm x hx; omega
  have h255 : (b.exp == 255) = false := beq_false_of_ne (by omega)
  simp only [bsParse, hmants, hexp, hflags, hres, hz, h255, hmin, flagBits_pois, flagBits_sat, flagBits_lt,
    Bool.or_false, bne_self_eq_false, decide_false, Bool.false_eq_true, if_false]

end Sys2Proof.Machine

open Sys2Proof Sys2Proof.Machine

/-- Settles O57: the fitting loop starts at EXP 1 or where a mantissa of 16,384 or more stands, and only ever moves to such an exponent. -/
theorem blocksAreInNormalForm : Obligations.BlocksAreInNormalForm := by
  unfold Obligations.BlocksAreInNormalForm
  exact ⟨⟨fun l hl => bsConvert_blockOk_normalForm hl, fun a b ha hb => bsAdd_blockOk_normalForm ha.1 hb.1,
    fun b hb => ⟨Bs.bytes_length hb.1, bsParse_bytes hb⟩⟩,
    fun a b ha _ => ⟨bsAdd_comm a b, bsAdd_poisoned, bsAdd_none ha⟩⟩
end

section
/-! SUPPORT. The block's step on a queue that holds a command (spec/95). -/

open Sys2Proof Sys2Proof.Machine

/-- Settles O1: of the two cases of a step, a queue with a front command takes the one that runs it. -/
theorem stepRunsFrontCommand : Obligations.StepRunsFrontCommand := by
  unfold Obligations.StepRunsFrontCommand
  intro c rest s hqueue
  rw [step, hqueue]
end

section
/-! SUPPORT. GATE.TOPK: logits in order, the experts chosen by it, and the bytes of the records that the completion stores (spec/04 R107, Table 4-3). -/

namespace Sys2Proof.Machine

/-! ## Values in order (spec/02 R29, R30) -/

/-- A significand taken at a lower exponent is a multiple of itself. -/
theorem signedAt_sub (n : Bool) (m : Nat) {e q : Int} (h : q ≤ e) (k : Nat) : signedAt n m e (q - k) = signedAt n m e q * ((2 ^ k : Nat) : Int) := by
  have hsplit : (e - (q - k)).toNat = (e - q).toNat + k := by omega
  rw [signedAt, signedAt, hsplit, Nat.shiftLeft_eq, Nat.shiftLeft_eq, Nat.pow_add, ← Nat.mul_assoc, Int.natCast_mul (m * _)]
  cases n with
  | false => rfl
  | true => exact (Int.neg_mul _ _).symm
/-- Finite values compare as their significands do at any exponent that is not above theirs. -/
theorem FVal.lt_fin_iff (a b : Bool) (m n : Nat) {e f q : Int} (he : q ≤ e) (hf : q ≤ f) :
    (FVal.fin a m e).lt (.fin b n f) = true ↔ signedAt a m e q < signedAt b n f q := by
  obtain ⟨k, hk⟩ : ∃ k : Nat, q = min e f - k := ⟨(min e f - q).toNat, by omega⟩
  have hpos : (0 : Int) < ((2 ^ k : Nat) : Int) := Int.natCast_pos.mpr (Nat.two_pow_pos k)
  rw [FVal.lt, decide_eq_true_eq, hk, signedAt_sub a m (Int.min_le_left e f), signedAt_sub b n (Int.min_le_right e f), Int.mul_lt_mul_right hpos]
/-- No FP32 value has an exponent below that of the smallest unit. -/
theorem le_exp_of_val32 {w : F32} {n : Bool} {m : Nat} {e : Int} (h : val32 w = .fin n m e) : -149 ≤ e := by
  simp only [val32] at h
  split at h
  · split at h <;> cases h
  · split at h <;> cases h <;> omega
/-- Where a value stands among all values: a NaN, the negative infinity, the numbers by their FP32 units, the positive infinity. -/
def FVal.rank : FVal → Nat × Int
  | .nan => (0, 0)
  | .inf n => (if n then 1 else 3, 0)
  | .fin n m e => (2, signedAt n m e (-149))
/-- A logit stands below another: lexicographically by rank. -/
def StandsBelow (x y : F32) : Prop :=
  (val32 x).rank.1 < (val32 y).rank.1 ∨ ((val32 x).rank.1 = (val32 y).rank.1 ∧ (val32 x).rank.2 < (val32 y).rank.2)
/-- A logit ranks above another where the other stands below it. -/
theorem ranksAbove_iff (x y : F32) : ranksAbove x y = true ↔ StandsBelow y x := by
  unfold ranksAbove StandsBelow
  cases hx : val32 x with
  | nan => cases val32 y with
    | nan => simp [FVal.rank, FVal.isNan]
    | inf b => simp [FVal.rank, FVal.isNan]
    | fin b n f => simp [FVal.rank, FVal.isNan]
  | inf a => cases val32 y with
    | nan => cases a <;> simp [FVal.rank, FVal.isNan]
    | inf b => cases a <;> cases b <;> simp [FVal.rank, FVal.isNan, FVal.lt]
    | fin b n f => cases a <;> simp [FVal.rank, FVal.isNan, FVal.lt]
  | fin a m e => cases hy : val32 y with
    | nan => simp [FVal.rank, FVal.isNan]
    | inf b => cases b <;> simp [FVal.rank, FVal.isNan, FVal.lt]
    | fin b n f => simp [FVal.rank, FVal.isNan, FVal.lt_fin_iff b a n m (le_exp_of_val32 hy) (le_exp_of_val32 hx)]

/-! ## The order of choice (spec/04 R107) -/

/-- Expert d is chosen before expert e of some logits. -/
def Precedes (l : List F32) (d e : Nat) : Prop := Claims.ChosenBefore (l.getD d 0) d (l.getD e 0) e
theorem precedes_iff (l : List F32) (d e : Nat) : Precedes l d e ↔
    StandsBelow (l.getD e 0) (l.getD d 0) ∨ (¬ StandsBelow (l.getD d 0) (l.getD e 0) ∧ d < e) := by
  rw [Precedes, Claims.ChosenBefore, ← Bool.not_eq_true, ranksAbove_iff, ranksAbove_iff]
theorem not_precedes_self (l : List F32) (d : Nat) : ¬ Precedes l d d := by
  rw [precedes_iff, StandsBelow]; omega
/-- The order of choice is lexicographic: the higher rank, then the lower index. -/
theorem Precedes.trans {l : List F32} {d e g : Nat} (h : Precedes l d e) (k : Precedes l e g) : Precedes l d g := by
  rw [precedes_iff, StandsBelow, StandsBelow] at h k ⊢
  omega

/-! ## The best of the experts that are left -/

/-- The experts that are not yet chosen, in ascending order. -/
def unchosen (l : List F32) (chosen : List Nat) : List Nat := (List.range l.length).filter (fun e => !chosen.contains e)
/-- The better of the best so far and the next expert. -/
def betterExpert (l : List F32) (m e : Nat) : Nat := if ranksAbove (l.getD e 0) (l.getD m 0) then e else m
theorem bestExpert_eq (l : List F32) (chosen : List Nat) :
    bestExpert l chosen = (unchosen l chosen).foldl (betterExpert l) ((unchosen l chosen).headD 0) := rfl
theorem mem_unchosen {l : List F32} {chosen : List Nat} {e : Nat} : e ∈ unchosen l chosen ↔ e < l.length ∧ e ∉ chosen := by
  simp [unchosen]
theorem unchosen_pairwise (l : List F32) (chosen : List Nat) : (unchosen l chosen).Pairwise (· < ·) := List.pairwise_lt_range.filter _
/-- A list that holds every number below n has n elements or more. -/
theorem le_length_of_forall_lt_mem {n : Nat} {c : List Nat} (h : ∀ e < n, e ∈ c) : n ≤ c.length := by
  induction n generalizing c with
  | zero => exact Nat.zero_le _
  | succ n ih =>
    have hn := h n (Nat.lt_succ_self n)
    have hpos := List.length_pos_of_mem hn
    have herase := ih (c := c.erase n) fun e he => (List.mem_erase_of_ne (Nat.ne_of_lt he)).mpr (h e (Nat.lt_succ_of_lt he))
    rw [List.length_erase_of_mem hn] at herase
    omega
theorem unchosen_ne_nil {l : List F32} {chosen : List Nat} (h : chosen.length < l.length) : unchosen l chosen ≠ [] := by
  intro hnil
  have hall : ∀ e < l.length, e ∈ chosen := fun e he => Decidable.byContradiction fun hno =>
    List.not_mem_nil (hnil ▸ mem_unchosen.mpr ⟨he, hno⟩)
  exact Nat.not_le_of_lt h (le_length_of_forall_lt_mem hall)
/-- Of two experts, the lower one given first, the better one is the one chosen first. -/
theorem betterExpert_cases (l : List F32) {m e : Nat} (h : m < e) :
    (betterExpert l m e = e ∧ Precedes l e m) ∨ (betterExpert l m e = m ∧ Precedes l m e) := by
  by_cases ha : ranksAbove (l.getD e 0) (l.getD m 0) = true
  · exact .inl ⟨if_pos ha, .inl ha⟩
  · exact .inr ⟨if_neg ha, .inr ⟨eq_false_of_ne_true ha, h⟩⟩
/-- Over ascending experts, the search ends at the one that is chosen before all others. -/
theorem foldl_betterExpert (l : List F32) {c : List Nat} {m : Nat} (hc : (m :: c).Pairwise (· < ·)) :
    c.foldl (betterExpert l) m ∈ m :: c ∧ ∀ e ∈ m :: c, e ≠ c.foldl (betterExpert l) m → Precedes l (c.foldl (betterExpert l) m) e := by
  induction c generalizing m with
  | nil => simp
  | cons x t ih =>
    obtain ⟨hm, hx⟩ := List.pairwise_cons.mp hc
    have hmx := hm x List.mem_cons_self
    have hmt : (m :: t).Pairwise (· < ·) := List.pairwise_cons.mpr ⟨fun e he => hm e (List.mem_cons_of_mem x he), hx.of_cons⟩
    rw [List.foldl_cons]
    obtain ⟨hw, hxm⟩ | ⟨hw, hmx⟩ := betterExpert_cases l hmx <;> rw [hw]
    · obtain ⟨hmem, hbest⟩ := ih hx
      refine ⟨List.mem_cons_of_mem m hmem, List.forall_mem_cons.mpr ⟨fun _ => ?_, hbest⟩⟩
      by_cases hr : x = t.foldl (betterExpert l) x
      · rwa [← hr]
      · exact (hbest x List.mem_cons_self hr).trans hxm
    · obtain ⟨hmem, hbest⟩ := ih hmt
      obtain ⟨hbm, hbt⟩ := List.forall_mem_cons.mp hbest
      refine ⟨(List.cons_subset_cons m (List.subset_cons_self x t)) hmem, List.forall_mem_cons.mpr ⟨hbm, List.forall_mem_cons.mpr ⟨fun _ => ?_, hbt⟩⟩⟩
      by_cases hr : m = t.foldl (betterExpert l) m
      · rwa [← hr]
      · exact (hbm hr).trans hmx
/-- The best expert is one that is left, and is chosen before every other one that is left. -/
theorem bestExpert_spec {l : List F32} {chosen : List Nat} (h : chosen.length < l.length) :
    bestExpert l chosen ∈ unchosen l chosen ∧ ∀ e ∈ unchosen l chosen, e ≠ bestExpert l chosen → Precedes l (bestExpert l chosen) e := by
  have hpw := unchosen_pairwise l chosen
  rw [bestExpert_eq]
  cases hu : unchosen l chosen with
  | nil => exact absurd hu (unchosen_ne_nil h)
  | cons m t =>
    have hself : betterExpert l m m = m := ite_self _
    rw [List.headD_cons, List.foldl_cons, hself]
    exact foldl_betterExpert l (hu ▸ hpw)

/-! ## The experts chosen -/

/-- Experts of some logits in order of choice, before every other expert. -/
structure Topmost (l : List F32) (c : List Nat) : Prop where
  lt_length : ∀ d ∈ c, d < l.length
  sorted : c.Pairwise (Precedes l)
  before : ∀ d ∈ c, ∀ e < l.length, e ∉ c → Precedes l d e

theorem Topmost.nodup {l : List F32} {c : List Nat} (h : Topmost l c) : c.Nodup :=
  h.sorted.imp fun {d e} (hp : Precedes l d e) (he : d = e) => not_precedes_self l d (he ▸ hp)
/-- The best of those left may be chosen next. -/
theorem Topmost.append_bestExpert {l : List F32} {c : List Nat} (h : Topmost l c) (hlen : c.length < l.length) : Topmost l (c ++ [bestExpert l c]) := by
  obtain ⟨hmem, hbest⟩ := bestExpert_spec hlen
  obtain ⟨hlt, hnew⟩ := mem_unchosen.mp hmem
  refine ⟨?_, ?_, ?_⟩
  · exact List.forall_mem_append.mpr ⟨h.lt_length, List.forall_mem_singleton.mpr hlt⟩
  · exact List.pairwise_append.mpr ⟨h.sorted, List.pairwise_singleton _ _,
      fun d hd => List.forall_mem_singleton.mpr (h.before d hd _ hlt hnew)⟩
  · intro d hd e he hec
    rw [List.mem_append, List.mem_singleton, not_or] at hec
    obtain ⟨hec, heb⟩ := hec
    obtain hd | hd := List.mem_append.mp hd
    · exact h.before d hd e he hec
    · rw [List.mem_singleton.mp hd]
      exact hbest e (mem_unchosen.mpr ⟨he, hec⟩) heb
@[simp] theorem topExperts_length (l : List F32) (k : Nat) : (topExperts l k).length = k := by
  induction k with
  | zero => rfl
  | succ k ih => rw [topExperts, List.length_append, ih, List.length_singleton]
theorem topExperts_topmost {l : List F32} {k : Nat} (hk : k ≤ l.length) : Topmost l (topExperts l k) := by
  induction k with
  | zero => exact ⟨by simp [topExperts], List.Pairwise.nil, by simp [topExperts]⟩
  | succ k ih => exact (ih (Nat.le_of_succ_le hk)).append_bestExpert (by rwa [topExperts_length])
theorem Topmost.precedes_getD {l : List F32} {c : List Nat} (h : Topmost l c) {i j : Nat} (hij : i < j) (hj : j < c.length) :
    Precedes l (c.getD i 0) (c.getD j 0) := by
  have hi := Nat.lt_trans hij hj
  rw [List.getD_eq_getElem?_getD, List.getD_eq_getElem?_getD, List.getElem?_eq_getElem hi, List.getElem?_eq_getElem hj]
  exact List.pairwise_iff_getElem.mp h.sorted i j hi hj hij

/-! ## Good storage, and what leaves memory as it is -/

theorem State.allGood_of_good {s : State} (h : Claims.Good s) (a : Nat) : s.allGood [] a = true := by
  obtain ⟨hsp, hpoison, hdue, hcxl⟩ := h
  have hany : s.cxls.any (fun c => !c.2.late.isEmpty || c.2.wins.any (fun w => w.2.lost)) = false := by
    simp only [List.any_eq_false, Bool.or_eq_true, not_or]
    intro c hc
    obtain ⟨hlate, hwins⟩ := hcxl c hc
    simpa [hlate] using hwins
  simp [State.allGood, hsp, hpoison, hdue, hany]
/-- Reading good storage leaves no trace. -/
theorem State.noteRange_of_allGood {s : State} {errs : Errs} {a : Nat} (h : s.allGood errs a = true) (who : Option Nat) (n : Nat) :
    s.noteRange who errs a n = s := if_pos h
/-- A floe's write into good storage is the write of its bytes. -/
theorem State.put_of_allGood {s : State} {a : Nat} (h : s.allGood [] a = true) (hlost : s.lostAt a = false) (f : Nat) (l : List Byte) :
    s.put f a l = s.poke a l := by
  rw [State.put, State.writeMem, h, hlost]; rfl
@[simp] theorem State.setFloe_byte (s : State) (f : Nat) (x : Floe) (a : Nat) : (s.setFloe f x).byte a = s.byte a := rfl
@[simp] theorem State.recordNf_byte (s : State) (f a : Nat) : (s.recordNf f).byte a = s.byte a := by
  unfold State.recordNf
  split
  · split <;> rfl
  · rfl

/-! ## The records of GATE.TOPK (spec/04 Table 4-3) -/

/-- A list of parts of equal length, read at a place of one part. -/
theorem getElem?_flatMap_of_length {α β : Type} (g : α → List β) (w : Nat) {l : List α} (h : ∀ x ∈ l, (g x).length = w)
    {i j : Nat} (hi : i < l.length) (hj : j < w) : (l.flatMap g)[w * i + j]? = (g l[i])[j]? := by
  induction l generalizing i with
  | nil => exact absurd hi (Nat.not_lt_zero i)
  | cons x t ih =>
    obtain ⟨hx, ht⟩ := List.forall_mem_cons.mp h
    rw [List.flatMap_cons]
    cases i with
    | zero => rw [Nat.mul_zero, Nat.zero_add, List.getElem?_append_left (by omega), List.getElem_cons_zero]
    | succ i =>
      have hlen : w * (i + 1) + j - w = w * i + j := by rw [Nat.mul_succ]; omega
      rw [List.getElem?_append_right (by rw [hx, Nat.mul_succ]; omega), hx, hlen, ih ht (Nat.lt_of_succ_lt_succ hi), List.getElem_cons_succ]
theorem routeRecord_length (chosen : List Nat) (gates : List Half) (nf : Bool) : (routeRecord chosen gates nf).length = 64 := rfl
/-- Bytes 0 to 7 of a record name the choices, 255 where there is none. -/
theorem routeRecord_getD {j : Nat} (hj : j < 8) (chosen : List Nat) (gates : List Half) (nf : Bool) :
    (routeRecord chosen gates nf).getD j 0 = BitVec.ofNat 8 (chosen.getD j 255) := by
  have hlen : j < ((List.range 8).map (fun i => BitVec.ofNat 8 (chosen.getD i 255))).length := by
    rw [List.length_map, List.length_range]; exact hj
  rw [routeRecord, List.append_assoc, List.append_assoc, List.append_assoc, List.getD_eq_getElem?_getD, List.getElem?_append_left hlen,
    List.getElem?_map, List.getElem?_range hj]
  rfl
theorem State.gateToken_length (s : State) (errs : Errs) (o : CondOp) (t : Nat) : (s.gateToken errs o t).1.length = 64 := routeRecord_length _ _ _
/-- The bytes that GATE.TOPK stores. -/
def State.gateBytes (s : State) (errs : Errs) (o : CondOp) : List Byte := (o.tokens (gateN o.w)).flatMap (fun t => (s.gateToken errs o t).1)
theorem State.gateBytes_length (s : State) (errs : Errs) (o : CondOp) : (s.gateBytes errs o).length = 64 * gateN o.w := by
  rw [State.gateBytes, List.length_flatMap]
  simp only [State.gateToken_length, List.map_const', List.sum_replicate_nat, CondOp.tokens, List.length_map, List.length_range, Nat.mul_comm]
/-- Bytes 0 to 7 of the record of the instruction's token i. -/
theorem State.gateBytes_getD (s : State) (errs : Errs) (o : CondOp) {i j : Nat} (hi : i < gateN o.w) (hj : j < 8) : (s.gateBytes errs o).getD (64 * i + j) 0
    = BitVec.ofNat 8 ((topExperts (s.logits errs o.dA (gateE o.w) (o.first + i)) (gateK o.w)).getD j 255) := by
  have hlen : i < (o.tokens (gateN o.w)).length := by
    rw [CondOp.tokens, List.length_map, List.length_range]; exact hi
  have htok : (o.tokens (gateN o.w))[i] = o.first + i := by
    simp only [CondOp.tokens, List.getElem_map, List.getElem_range]
  rw [State.gateBytes, List.getD_eq_getElem?_getD, getElem?_flatMap_of_length _ 64 (fun t _ => State.gateToken_length s errs o t) hlen (by omega), htok,
    ← List.getD_eq_getElem?_getD]
  exact routeRecord_getD hj _ _ _

/-- Updates that each leave the state as it is leave it so together. -/
theorem State.each_eq_self {α : Type} {s : State} {g : State → α → State} (h : ∀ x, g s x = s) (l : List α) : s.each l g = s := by
  induction l with
  | nil => rfl
  | cons x t ih => rw [State.each, List.foldl_cons, h]; exact ih
/-- With all storage good, GATE.TOPK only stores its records. -/
theorem State.gateRun_byte {s : State} (hs : Claims.Good s) {o : CondOp} (hlost : s.lostAt (recAt o.dB o.first) = false) (f a : Nat) :
    (s.gateRun f [] o).byte a = (s.poke (recAt o.dB o.first) (s.gateBytes [] o)).byte a := by
  have hnote : s.each ((o.tokens (gateN o.w)).flatMap (fun t => o.dA.rowRanges t)) (fun s r => s.noteRange (some f) [] r.1 r.2) = s :=
    State.each_eq_self (fun r => State.noteRange_of_allGood (State.allGood_of_good hs r.1) (some f) r.2) _
  simp only [State.gateRun, hnote, State.put_of_allGood (State.allGood_of_good hs _) hlost, List.flatMap_map]
  split
  · rfl
  · rw [State.recordNf_byte]; rfl
/-- The completion of GATE.TOPK runs it, and ends its readers and writers. -/
theorem exec_gatePackComplete_gate {s : State} {f : Nat} {o : CondOp} (hvu : (s.floe f).vu = .cond o) (hop : opOf o.w = 0x38) (errs : Errs) :
    ∃ x, exec (.gatePackComplete f errs) s = .next ((s.gateRun f errs o).setFloe f x) := by
  have harm : exec (.gatePackComplete f errs) s = execGatePackComplete f errs s := rfl
  rw [harm, execGatePackComplete, hvu]
  simp only [State.condRun, if_pos hop]
  exact ⟨_, rfl⟩

end Sys2Proof.Machine

open Sys2Proof Sys2Proof.Machine

/-- Settles O59: each choice is the first in a strict order of the experts left, so the experts chosen stand in that order and before the rest; the completion's one write lists them record by record. -/
theorem topExpertsAreTheLargest : Obligations.TopExpertsAreTheLargest := by
  unfold Obligations.TopExpertsAreTheLargest
  refine ⟨fun l k hk => ?_, fun f o s hs hmem hvu hop hlost => ?_⟩
  · have htop := topExperts_topmost hk
    exact ⟨topExperts_length l k, htop.nodup, htop.lt_length, fun i j hij hj => htop.precedes_getD hij (by rwa [topExperts_length]), htop.before⟩
  · obtain ⟨x, hexec⟩ := exec_gatePackComplete_gate hvu hop []
    refine ⟨_, hexec, fun i hi j hj => ?_⟩
    have haddr : recAt o.dB (o.first + i) + j = recAt o.dB o.first + (64 * i + j) := by unfold recAt; omega
    have hlen := State.gateBytes_length s [] o
    rw [State.setFloe_byte, State.gateRun_byte hs hlost, haddr, State.poke_byte_in hmem (Nat.le_add_right _ _) (by omega), Nat.add_sub_cancel_left,
      State.gateBytes_getD s [] o hi hj]
end

section
/-! SUPPORT. Error flags that stay set while an error is told, and the rows of the tile queue: what the drain of a row and the release of a row leave of a floe (spec/05 R123 to R126, spec/16 R541, R542). -/

namespace Sys2Proof.Machine

/-! ## Error flags are set and stay set (spec/16 R541, R542) -/

/-- Every ERR_STATUS bit that is set in s is set in t. -/
structure FlagsStay (s t : State) : Prop where
  stay : ∀ die page bit, (s.hdr die page).errStatus.getLsbD bit = true → (t.hdr die page).errStatus.getLsbD bit = true
theorem FlagsStay.refl (s : State) : FlagsStay s s := ⟨fun _ _ _ h => h⟩
theorem FlagsStay.trans {s t u : State} (h : FlagsStay s t) (k : FlagsStay t u) : FlagsStay s u := ⟨fun d p b e => k.stay d p b (h.stay d p b e)⟩
theorem FlagsStay.ite {s t u : State} {c : Prop} [Decidable c] (h : FlagsStay s t) (k : FlagsStay s u) : FlagsStay s (if c then t else u) := by
  split
  · exact h
  · exact k
/-- An operation whose mask leaves the headers out leaves the flags. -/
theorem Touch.flagsStay {m : Nat} {s t : State} (h : Touch m s t) (hm : m.testBit 32 = false) : FlagsStay s t :=
  ⟨fun d p b e => by rwa [State.hdr, h.hdrs hm]⟩
theorem State.each_flagsStay {α : Type} {g : State → α → State} (h : ∀ s x, FlagsStay s (g s x)) (l : List α) (s : State) : FlagsStay s (s.each l g) := by
  induction l generalizing s with
  | nil => exact .refl s
  | cons x r ih => exact (h s x).trans (ih (g s x))
theorem State.setEp_flagsStay (s : State) (e : Nat) (x : Endpoint) : FlagsStay s (s.setEp e x) :=
  (State.setEp_touch (Sub.refl _) s e x (Touch.refl _ s)).flagsStay rfl
theorem State.rasReport_flagsStay (s : State) (cls : Nat) : FlagsStay s (s.rasReport cls) :=
  (State.rasReport_touch (Sub.refl _) s cls (Touch.refl _ s)).flagsStay rfl
theorem State.siteErr_flagsStay (s : State) (die page : Nat) : FlagsStay s (s.siteErr die page) :=
  (State.siteErr_touch (Sub.refl _) s die page (Touch.refl _ s)).flagsStay rfl
theorem State.pushEvent_flagsStay (s : State) (e part code die : Nat) (pl : List Byte) : FlagsStay s (s.pushEvent e part code die pl) :=
  (State.pushEvent_touch (Sub.refl _) s e part code die pl (Touch.refl _ s)).flagsStay rfl
/-- A new header that keeps the page's flags. -/
theorem State.setHdr_flagsStay {s : State} {d p : Nat} {x : Header}
    (h : ∀ bit, (s.hdr d p).errStatus.getLsbD bit = true → x.errStatus.getLsbD bit = true) : FlagsStay s (s.setHdr d p x) := by
  refine ⟨fun d' p' bit hbit => ?_⟩
  rw [State.hdr] at hbit
  rw [State.hdr, State.setHdr, Tbl.get_put]
  split
  case isTrue hkey => exact h bit (by rwa [State.hdr, ← hkey])
  case isFalse => exact hbit
theorem State.setHdr_intStatus_flagsStay (s : State) (d p : Nat) (v : Word) : FlagsStay s (s.setHdr d p { s.hdr d p with intStatus := v }) :=
  State.setHdr_flagsStay fun _ => id
theorem getLsbD_setBit_true {w : Nat} (v : BitVec w) (i j : Nat) : (setBit v i true).getLsbD j = (v.getLsbD j || decide (i < w) && decide (i = j)) := by
  rw [setBit, if_pos rfl, BitVec.getLsbD_or, ← BitVec.twoPow_eq, BitVec.getLsbD_twoPow]
theorem State.lostError_flagsStay (s : State) : FlagsStay s s.lostError := by
  unfold State.lostError
  extract_lets d h s1 s2 s3 g
  have h1 : FlagsStay s s1 := State.setHdr_flagsStay fun bit hbit => by simp [h, getLsbD_setBit_true, hbit]
  have h2 : FlagsStay s s2 := by
    refine h1.trans ?_
    clear_value s1
    exact .ite (.refl s1) (s1.rasReport_flagsStay 0)
  have h3 : FlagsStay s s3 := by
    refine h2.trans (State.each_flagsStay (fun t _ => ?_) _ s2)
    exact .ite (t.pushEvent_flagsStay ..) (.refl t)
  exact .ite (h3.trans (s3.setHdr_intStatus_flagsStay ..)) h2
theorem State.event_flagsStay (s : State) (e part code die : Nat) (pl : List Byte) : FlagsStay s (s.event e part code die pl) := by
  unfold State.event
  extract_lets x s1 y
  have h1 : FlagsStay s s1 := (s.setEp_flagsStay e _).trans (State.pushEvent_flagsStay ..)
  exact .ite (.refl s) (.ite ((s.setEp_flagsStay e _).trans (State.lostError_flagsStay _)) (.ite (s.pushEvent_flagsStay ..)
    (.ite (h1.trans ((s1.setEp_flagsStay e _).trans (State.lostError_flagsStay _))) (h1.trans (s1.pushEvent_flagsStay ..)))))
theorem State.blockError_flagsStay (s : State) (die page : Nat) : FlagsStay s (s.blockError die page) :=
  State.each_flagsStay (fun t _ => .ite (t.event_flagsStay ..) (.refl t)) _ s
/-- A raised flag is set, whatever events tell of it. -/
theorem State.raise_errStatus (s : State) (die page : Nat) {bit : Nat} (hbit : bit < 32) :
    ((s.raise die page bit).hdr die page).errStatus.getLsbD bit = true := by
  unfold State.raise
  extract_lets h s1 s2 s3 g
  have h1 : (s1.hdr die page).errStatus.getLsbD bit = true :=
    (State.siteErr_flagsStay ..).stay die page bit (by simp [getLsbD_setBit_true, hbit])
  have h2 : FlagsStay s1 s2 := by
    clear_value s1
    exact .ite (.refl s1) (s1.rasReport_flagsStay _)
  have h3 : FlagsStay s1 s3 := h2.trans (s2.blockError_flagsStay die page)
  refine FlagsStay.stay (s := s1) ?_ die page bit h1
  exact .ite (h3.trans (s3.setHdr_intStatus_flagsStay ..)) h2

/-! ## What recording and raising leave of a floe -/

/-- Recording a non-finite value sets at most a bit in the floe's record. -/
theorem State.recordNf_cases (s : State) (f : Nat) : s.recordNf f = s ∨ s.recordNf f = s.setRecord f 0 := by
  unfold State.recordNf
  split
  · split
    · exact .inr rfl
    · exact .inl rfl
  · exact .inl rfl
theorem State.recordNf_mem (s : State) (f : Nat) : (s.recordNf f).mem = s.mem := by
  obtain h | h := s.recordNf_cases f
  · rw [h]
  · rw [h]; rfl
theorem State.recordNf_hdr (s : State) (f die page : Nat) : (s.recordNf f).hdr die page = s.hdr die page := by
  obtain h | h := s.recordNf_cases f
  · rw [h]
  · rw [h]; rfl
theorem State.recordNf_tq (s : State) (f : Nat) : ((s.recordNf f).floe f).tq = (s.floe f).tq := by
  obtain h | h := s.recordNf_cases f
  · rw [h]
  · rw [h, State.setRecord, State.floe_setFloe]
theorem State.recordNf_drains (s : State) (f : Nat) : ((s.recordNf f).floe f).drains = (s.floe f).drains := by
  obtain h | h := s.recordNf_cases f
  · rw [h]
  · rw [h, State.setRecord, State.floe_setFloe]
theorem State.raise_mem (s : State) (die page bit : Nat) : (s.raise die page bit).mem = s.mem :=
  (State.raise_touch (Sub.refl _) s die page bit (Touch.refl _ s)).mem rfl
theorem State.raise_floe (s : State) (die page bit f : Nat) : (s.raise die page bit).floe f = s.floe f := by
  rw [State.floe, State.floe, (State.raise_touch (Sub.refl _) s die page bit (Touch.refl _ s)).floes rfl]
theorem State.setFloe_onlyFloe (s : State) (f : Nat) (x : Floe) : Claims.OnlyFloe f s (s.setFloe f x) :=
  ⟨rfl, fun _ hg => s.floe_setFloe_ne x hg⟩

/-! ## The next row of a draining tile enters the queue (spec/05 R124, R125) -/

/-- The row of a drain that enters next: NaN after a parity error. -/
def Drain.nextRow (d : Drain) (parity : Bool) : List F32 :=
  if parity then (d.rows.getD d.entered []).map (fun _ => nan32) else d.rows.getD d.entered []
/-- The queue once the next row of a drain has entered: its first row makes the tile's entry. -/
def Floe.tqWithRow (x : Floe) (d : Drain) (parity : Bool) : List Tile :=
  (if d.entered = 0 then x.tq ++ [{ tag := d.tag, owner := d.stream, mb := d.mb, nb := d.nb }] else x.tq).map
    (fun u => if u.tag = d.tag then { u with rows := u.rows.put d.entered (d.nextRow parity), entered := u.entered + 1 } else u)
/-- The floe whose drains are those before d, d and those after it, once the next row of d has entered the queue. -/
def Floe.rowEntered (x : Floe) (before after : List Drain) (d : Drain) (parity : Bool) : Floe :=
  { x with tq := x.tqWithRow d parity, drains := before ++ { d with entered := d.entered + 1 } :: after }
theorem draining_iff {b : Nat} {d : Drain} : draining b d = true ↔ d.bank = b ∧ d.entered < d.rows.length := by
  simp [draining]

/-- With room for its tile, the oldest drain of a bank that has rows to come gives the queue its next row. -/
theorem Floe.drainRow_eq {x : Floe} {before after : List Drain} {d : Drain} {bank : Nat} (hdrains : x.drains = before ++ d :: after)
    (hd : draining bank d = true) (hbefore : ∀ e ∈ before, draining bank e = false) (hroom : d.entered = 0 → x.tqUsed + 32 * d.mb ≤ 512)
    (parity : Bool) : x.drainRow bank parity = some (x.rowEntered before after d parity) := by
  have hnot : ∀ e ∈ before, (!draining bank e) = true := fun e he => by rw [hbefore e he]; rfl
  have hfind : x.drains.find? (draining bank) = some d := by
    rw [hdrains, List.find?_append, List.find?_eq_none.mpr (fun e he => by simp [hbefore e he]), List.find?_cons_of_pos hd]; rfl
  have htake : x.drains.takeWhile (fun e => !draining bank e) = before := by
    rw [hdrains, List.takeWhile_append_of_pos hnot]; simp [hd]
  have hdrop : x.drains.dropWhile (fun e => !draining bank e) = d :: after := by
    rw [hdrains, List.dropWhile_append_of_pos hnot]; simp [hd]
  have hfits : (d.entered = 0 && 512 < x.tqUsed + 32 * d.mb) = false := by
    simpa using hroom
  rw [Floe.drainRow, hfind, Floe.rowEntered, Floe.tqWithRow, Drain.nextRow]
  by_cases hfirst : d.entered = 0
  · simp only [hfits, Bool.false_eq_true, if_false, if_pos hfirst, Floe.mapTile, htake, hdrop, List.drop_one, List.tail_cons]
  · simp only [hfits, Bool.false_eq_true, if_false, if_neg hfirst, Floe.mapTile, htake, hdrop, List.drop_one, List.tail_cons]
/-- TILE_ROW_DRAIN with a row to come: the row enters, and after a parity error ARRAY_PARITY is raised and a non-finite value recorded. -/
theorem exec_tileRowDrain {s : State} {f bank : Nat} {before after : List Drain} {d : Drain} (hdrains : (s.floe f).drains = before ++ d :: after)
    (hd : draining bank d = true) (hbefore : ∀ e ∈ before, draining bank e = false)
    (hroom : d.entered = 0 → (s.floe f).tqUsed + 32 * d.mb ≤ 512) (parity : Bool) :
    let s1 := s.setFloe f ((s.floe f).rowEntered before after d parity)
    exec (.tileRowDrain f bank parity) s = .next (if parity then (s1.raise (s.floePage f).1 (s.floePage f).2 0).recordNf f else s1) := by
  have harm : exec (.tileRowDrain f bank parity) s = execTileRowDrain f bank parity s := rfl
  have hany : (s.floe f).drains.any (draining bank) = true := List.any_eq_true.mpr ⟨d, by simp [hdrains], hd⟩
  simp only [harm, execTileRowDrain, hany, if_true, Floe.drainRow_eq hdrains hd hbefore hroom]
  rfl

/-! ## The next row of a popping pass leaves the queue (spec/05 R125) -/

/-- The end of one writer of a tag. -/
theorem Floe.tag_endWriters_one (x : Floe) (t k : Nat) :
    (x.endWriters [t]).tag k = if k = t then { x.tag t with wr := (x.tag t).wr - 1 } else x.tag k := Tbl.get_put ..
/-- The floe after the next row of tile u has left for the chain of pass o: with the tile's last row the tile leaves the queue and its tag's writer ends. -/
def Floe.rowReleased (x : Floe) (o : PassOp) (u : Tile) : Floe :=
  let x1 := { x with vu := .pass { o with src := o.src.put u.released (Tbl.get [] u.rows u.released) } }
  if u.released + 1 = 32 * u.mb then ({ x1 with tq := x1.tq.filter (fun v => v.tag != u.tag) }).endWriters [u.tag]
  else x1.mapTile u.tag (fun v => { v with released := u.released + 1 })
theorem Floe.rowReleased_vu (x : Floe) (o : PassOp) (u : Tile) :
    (x.rowReleased o u).vu = .pass { o with src := o.src.put u.released (Tbl.get [] u.rows u.released) } := by
  unfold Floe.rowReleased
  dsimp only
  split
  · rfl
  · rfl
theorem Floe.rowReleased_more {x : Floe} {u : Tile} (hmore : u.released + 1 ≠ 32 * u.mb) (o : PassOp) :
    (x.rowReleased o u).tags = x.tags ∧ (x.rowReleased o u).tq = x.tq.map (fun v => if v.tag = u.tag then { v with released := u.released + 1 } else v) := by
  rw [Floe.rowReleased, if_neg hmore]
  exact ⟨rfl, rfl⟩
theorem Floe.rowReleased_last {x : Floe} {u : Tile} (hlast : u.released + 1 = 32 * u.mb) (o : PassOp) :
    (x.rowReleased o u).tq = x.tq.filter (fun v => v.tag != u.tag)
      ∧ ∀ k, (x.rowReleased o u).tag k = if k = u.tag then { x.tag k with wr := (x.tag k).wr - 1 } else x.tag k := by
  rw [Floe.rowReleased, if_pos hlast]
  refine ⟨rfl, fun k => ?_⟩
  rw [Floe.tag_endWriters_one]
  split
  case isTrue hk => rw [hk]; rfl
  case isFalse => rfl
/-- TILE_ROW_RELEASE of a popping pass whose tile has a row to release, the last one only once the pass has read. -/
theorem exec_tileRowRelease {s : State} {f : Nat} {o : PassOp} {u : Tile} (hvu : (s.floe f).vu = .pass o) (hqueue : passQueue o.w = true)
    (hpop : passPop o.w = true) (htile : (s.floe f).tile (passSrc o.w) = some u) (hentered : u.released < u.entered)
    (hread : u.released + 1 = 32 * u.mb → o.readDone = true) :
    exec (.tileRowRelease f) s = .next (s.setFloe f ((s.floe f).rowReleased o u)) := by
  have harm : exec (.tileRowRelease f) s = execTileRowRelease f s := rfl
  have hmay : (u.entered ≤ u.released || (u.released + 1 == 32 * u.mb && !o.readDone)) = false := by
    simpa [hentered] using hread
  rw [harm, execTileRowRelease, hvu]
  simp only [hqueue, hpop, htile, hmay, Bool.not_true, Bool.or_self, Bool.false_eq_true, if_false, beq_iff_eq]
  rfl

end Sys2Proof.Machine

open Sys2Proof Sys2Proof.Machine

/-- Settles O16: the oldest drain of the bank is the one the command takes, and telling of a parity error leaves the queue as it is and the flag set; of a popped tile the next row leaves, and only the last one ends the tile. -/
theorem tileRowsEnterAndRelease : Obligations.TileRowsEnterAndRelease := by
  unfold Obligations.TileRowsEnterAndRelease
  refine ⟨fun f bank parity s before after d hdrains hbank hmore holdest hroom => ?_,
    fun f s o u hvu hqueue hpop htile hentered hread => ?_⟩
  · have hbefore : ∀ e ∈ before, draining bank e = false := fun e he => by
      rw [Bool.eq_false_iff, Ne, draining_iff]; exact holdest e he
    refine ⟨_, exec_tileRowDrain hdrains (draining_iff.mpr ⟨hbank, hmore⟩) hbefore hroom parity, ?_⟩
    cases parity with
    | false =>
      rw [if_neg Bool.false_ne_true, State.floe_setFloe]
      exact ⟨rfl, rfl, rfl, fun _ => State.setFloe_onlyFloe .., nofun⟩
    | true =>
      rw [if_pos rfl, State.recordNf_mem, State.recordNf_tq, State.recordNf_drains, State.recordNf_hdr, State.raise_mem, State.raise_floe,
        State.floe_setFloe]
      exact ⟨rfl, rfl, rfl, nofun, fun _ => State.raise_errStatus _ _ _ (by decide)⟩
  · refine ⟨_, exec_tileRowRelease hvu hqueue hpop htile hentered hread, State.setFloe_onlyFloe .., ?_⟩
    rw [State.floe_setFloe]
    exact ⟨Floe.rowReleased_vu .., fun h => Floe.rowReleased_more h o, fun h => Floe.rowReleased_last h o⟩
end

section
/-! SUPPORT. Scalar control flow: what an instruction at its stream's head may rely on, what moving on leaves of the device, and the conditions and targets of BR (spec/06 R157, R162, R167 to R170). -/

namespace Sys2Proof.Machine

/-! ## One stream of a floe, and its registers -/

theorem State.setStream_onlyStream (s : State) (f : Nat) (st : Stream) (y : StreamSt) : Claims.OnlyStream f st s (s.setStream f st y) :=
  ⟨s.setFloe_onlyFloe .., by rw [State.setStream_stream, State.setStream, State.floe_setFloe]⟩
@[simp] theorem Floe.setStream_stream (x : Floe) (st : Stream) (y : StreamSt) : (x.setStream st y).stream st = y := by cases st <;> rfl
@[simp] theorem Floe.setStream_setStream (x : Floe) (st : Stream) (y z : StreamSt) : (x.setStream st y).setStream st z = x.setStream st z := by
  cases st <;> rfl
theorem onlyStream_trans {f : Nat} {st : Stream} {s t u : State} (hst : Claims.OnlyStream f st s t) (htu : Claims.OnlyStream f st t u) :
    Claims.OnlyStream f st s u := by
  obtain ⟨⟨hdev, hothers⟩, hfloe⟩ := hst
  obtain ⟨⟨hdev', hothers'⟩, hfloe'⟩ := htu
  refine ⟨⟨?_, fun g hg => (hothers' g hg).trans (hothers g hg)⟩, ?_⟩
  · rw [hdev', hdev]
  · rw [hfloe', hfloe, Floe.setStream_setStream]
/-- A register reads what was written to it last; S0 reads 0 (spec/06 R157). -/
theorem StreamSt.reg_setReg (y : StreamSt) (rd : Nat) (v : DWord) (r : Nat) :
    (y.setReg rd v).reg r = if r ≠ 0 ∧ r = rd then v else y.reg r := by
  by_cases hr : r = 0
  · simp [hr, StreamSt.reg]
  · by_cases hrd : rd = 0
    · have hne : r ≠ rd := fun h => hr (h.trans hrd)
      rw [StreamSt.setReg, if_pos hrd, if_neg fun h => hne h.2]
    · rw [StreamSt.setReg, if_neg hrd]
      simp [StreamSt.reg, hr, Tbl.get_put]
theorem StreamSt.setReg_eq (y : StreamSt) (rd : Nat) (v : DWord) : y.setReg rd v = { y with regs := (y.setReg rd v).regs } := by
  unfold StreamSt.setReg
  split <;> rfl
@[simp] theorem StreamSt.setReg_pc (y : StreamSt) (rd : Nat) (v : DWord) : (y.setReg rd v).pc = y.pc := by rw [StreamSt.setReg_eq]
/-- No register of the list has a pending write (spec/06 R169). -/
theorem StreamSt.waitsFor_eq_false {y : StreamSt} {l : List Nat} : y.waitsFor l = false ↔ ∀ r ∈ y.pend, r ∉ l := by
  simp only [StreamSt.waitsFor, List.any_eq_false, List.contains_iff_mem]
  exact ⟨fun h r hp hl => h r hl hp, fun h r hl hp => h r hp hl⟩

/-! ## The head of a stream (spec/06 R155, R158) -/

theorem State.headWord_eq_some {s : State} {f : Nat} {st : Stream} {w : IWord} :
    s.headWord f st = some w ↔ (s.floe f).atHead st = true ∧ s.fetchWord f st = some w := Option.ite_none_right_eq_some
theorem Floe.running_of_atHead {x : Floe} {st : Stream} (h : x.atHead st = true) : (x.stream st).st = .running := by
  simp only [Floe.atHead, Bool.and_eq_true, beq_iff_eq] at h
  obtain ⟨⟨⟨hrun, -⟩, -⟩, -⟩ := h
  exact hrun
theorem fetchWord_of_head {op : Nat} {s : State} {f : Nat} {st : Stream} {w : IWord} (h : Claims.Head op s f st w) :
    s.fetchWord f st = some w := (State.headWord_eq_some.mp h.1).2
/-- A step for an opcode at a head of that opcode runs its effect on the head's word. -/
theorem State.inCycle_onHead {op : Nat} {s : State} {f : Nat} {st : Stream} {w : IWord} (h : Claims.Head op s f st w)
    (g : State → IWord → State) : s.inCycle f st (fun s => s.onHead f st (isIns op) (g s)) = g s w := by
  obtain ⟨hword, hop, henc⟩ := h
  have hrun : (s.stream f st).st = .running := Floe.running_of_atHead (State.headWord_eq_some.mp hword).1
  simp [State.inCycle, hrun, State.onHead, hword, isIns, hop, henc]

/-! ## Moving on (spec/06 R154, R162, R193) -/

theorem State.issueTo_onlyStream (s : State) (f : Nat) (st : Stream) (pc : DWord) : Claims.OnlyStream f st s (s.issueTo f st pc) :=
  s.setStream_onlyStream ..
theorem State.issueTo_stream {s : State} {f : Nat} {st : Stream} {w : IWord} (h : s.fetchWord f st = some w) (pc : DWord) :
    (s.issueTo f st pc).stream f st = { s.stream f st with pc := pc, issued := (s.stream f st).issued + 1, fetch := some w } := by
  rw [State.issueTo, State.setStream_stream, h]; rfl
theorem Floe.setStream_pcOk {x : Floe} {st : Stream} {y : StreamSt} (hpc : y.pc = (x.stream st).pc) : (x.setStream st y).pcOk st = x.pcOk st := by
  rw [Floe.pcOk, Floe.setStream_stream, hpc]
  cases st <;> rfl
/-- The fetch at a stream's head depends on no other part of the stream than its PC. -/
theorem State.setStream_fetchWord {s : State} {f : Nat} {st : Stream} {y : StreamSt} (hpc : y.pc = (s.stream f st).pc) :
    (s.setStream f st y).fetchWord f st = s.fetchWord f st := by
  have haddr : (s.setStream f st y).headAddr f st = s.headAddr f st := by rw [State.headAddr, State.setStream_stream, hpc]; rfl
  have hpcOk : ((s.setStream f st y).floe f).pcOk st = (s.floe f).pcOk st := by
    rw [State.setStream, State.floe_setFloe, Floe.setStream_pcOk hpc]
  rw [State.fetchWord, State.fetchWord, haddr, hpcOk]
  rfl

/-! ## Conditions and targets of BR (spec/06 R167, Table 6-7) -/

/-- Row by row of the table. -/
theorem brTaken_iff {cond : Nat} (hcond : cond ≤ 6) (a b : DWord) : brTaken cond a b = true ↔ Claims.branches cond a b := by
  match cond, hcond with
  | 0, _ | 1, _ | 2, _ | 3, _ | 4, _ | 5, _ | 6, _ => simp [brTaken, Claims.branches, BitVec.slt, BitVec.ult]
  | n + 7, h => omega
/-- COND 7 to 15 are reserved. -/
theorem cond_le_of_head {s : State} {f : Nat} {st : Stream} {w : IWord} (h : Claims.Head 0x08 s f st w) : fld w 119 116 ≤ 6 := by
  obtain ⟨-, hop, henc⟩ := h
  simp only [encOk, hop, Bool.and_eq_true, decide_eq_true_eq] at henc
  exact henc.1
/-- The target is the same counted in the integers and in 64 bits. -/
theorem add_ofInt_eq (pc : DWord) (d : Int) : pc + BitVec.ofInt 64 d = BitVec.ofInt 64 (pc.toInt + d) := by
  rw [BitVec.ofInt_add, BitVec.ofInt_toInt]

/-! ## The instructions that issue -/

section
variable {s : State} {f : Nat} {st : Stream} {w : IWord}

/-- BR with its operands ready moves on to the target that its condition gives. -/
theorem exec_br (h : Claims.Head 0x08 s f st w)
    (hready : ∀ r, r ∈ (s.stream f st).pend → r ≠ fld w 114 110 ∧ (flag w 115 = true ∨ r ≠ fld w 109 105)) :
    let y := s.stream f st
    let b := if flag w 115 then BitVec.ofNat 64 (fld w 63 0) else y.reg (fld w 109 105)
    exec (.br f st) s = .next (s.issueTo f st
      (if brTaken (fld w 119 116) (y.reg (fld w 114 110)) b then BitVec.ofInt 64 (y.pc.toInt + 16 * sfld32 w 64) else y.pc + 16)) := by
  have harm : exec (.br f st) s = execBr f st s := rfl
  have hwaits : (s.stream f st).waitsFor ([fld w 114 110] ++ if flag w 115 then [] else [fld w 109 105]) = false := by
    rw [StreamSt.waitsFor_eq_false]
    intro r hr
    obtain ⟨ha, hb⟩ := hready r hr
    rw [List.mem_append, List.mem_singleton, not_or]
    refine ⟨ha, ?_⟩
    split
    case isTrue => exact List.not_mem_nil
    case isFalse himm => simpa [himm] using hb
  simp only [harm, execBr, State.inCycle_onHead h, hwaits, Bool.false_eq_true, if_false, State.issue, add_ofInt_eq]
  rw [← apply_ite (s.issueTo f st)]
/-- JUMP with its registers ready writes the link, then moves on to the target read before it (spec/06 R168). -/
theorem exec_jump (h : Claims.Head 0x09 s f st w) (hready : ∀ r, r ∈ (s.stream f st).pend → r ≠ fld w 119 115 ∧ r ≠ fld w 114 110) :
    let y := s.stream f st
    exec (.jump f st) s = .next ((s.setStream f st (y.setReg (fld w 119 115) (y.pc + 16))).issueTo f st
      (y.reg (fld w 114 110) + BitVec.ofNat 64 (fld w 63 0))) := by
  have harm : exec (.jump f st) s = execJump f st s := rfl
  have hwaits : (s.stream f st).waitsFor [fld w 119 115, fld w 114 110] = false := by
    rw [StreamSt.waitsFor_eq_false]
    intro r hr
    simpa using hready r hr
  simp only [harm, execJump, State.inCycle_onHead h, hwaits, Bool.false_eq_true, if_false]
theorem exec_nop (h : Claims.Head 0x0B s f st w) : exec (.nop f st) s = .next (s.issue f st) := by
  have harm : exec (.nop f st) s = execNop f st s := rfl
  rw [harm, execNop, State.inCycle_onHead h]
theorem exec_halt (h : Claims.Head 0x0A s f st w) :
    let y := s.stream f st
    exec (.halt f st) s = .next (s.setStream f st { y with halting := true, issued := y.issued + 1, fetch := some w }) := by
  have harm : exec (.halt f st) s = execHalt f st s := rfl
  simp only [harm, execHalt, State.inCycle_onHead h, fetchWord_of_head h]
  rfl
end

end Sys2Proof.Machine

open Sys2Proof Sys2Proof.Machine

/-- Settles O8: each of the four runs on the word at its stream's head and replaces that stream; BR by whether Table 6-7's condition holds, JUMP after its link, which leaves PC and so the fetch as they were. -/
theorem controlFlowIssues : Obligations.ControlFlowIssues := by
  unfold Obligations.ControlFlowIssues
  refine ⟨fun f st w s h => ?_, fun f st w s => ⟨fun h hready => ?_, fun h => ?_, fun h => ?_⟩⟩
  · intro y a b hready
    have htaken := brTaken_iff (cond_le_of_head h) a b
    refine ⟨_, exec_br h hready, State.issueTo_onlyStream .., ?_⟩
    rw [State.issueTo_stream (fetchWord_of_head h)]
    exact ⟨rfl, fun hb => if_pos (htaken.mpr hb), fun hb => if_neg (mt htaken.mp hb)⟩
  · have hfetch : (s.setStream f st ((s.stream f st).setReg (fld w 119 115) ((s.stream f st).pc + 16))).fetchWord f st = some w := by
      rw [State.setStream_fetchWord (StreamSt.setReg_pc ..), fetchWord_of_head h]
    refine ⟨_, exec_jump h hready, onlyStream_trans (State.setStream_onlyStream ..) (State.issueTo_onlyStream ..), ?_⟩
    rw [State.issueTo_stream hfetch, State.setStream_stream]
    exact ⟨by rw [StreamSt.setReg_eq], fun r => StreamSt.reg_setReg ..⟩
  · exact ⟨_, exec_nop h, State.issueTo_onlyStream .., State.issueTo_stream (fetchWord_of_head h) _⟩
  · exact ⟨_, exec_halt h, State.setStream_onlyStream .., State.setStream_stream ..⟩
end

section
/-! SUPPORT. Near-memory interfaces: what the queue of retirements does and keeps, what a forced retirement leaves alone, and the counts of patrol reads and recalibration windows (spec/08 R243 to R246, R249 to R252). -/

namespace Sys2Proof.Machine

/-! ## Flags stay set while errors of memory are told (spec/16 R541, R542) -/

theorem State.raise_flagsStay (s : State) (die page bit : Nat) : FlagsStay s (s.raise die page bit) := by
  unfold State.raise
  extract_lets h s1 s2 s3 g
  have h1 : FlagsStay s s1 := (State.setHdr_flagsStay fun b hb => by simp [h, getLsbD_setBit_true, hb]).trans (State.siteErr_flagsStay ..)
  have h2 : FlagsStay s s2 := by
    refine h1.trans ?_
    clear_value s1
    exact .ite (.refl s1) (s1.rasReport_flagsStay _)
  exact .ite ((h2.trans (s2.blockError_flagsStay die page)).trans (s3.setHdr_intStatus_flagsStay ..)) h2
theorem State.eventMgmt_flagsStay (s : State) (code die : Nat) (pl : List Byte) : FlagsStay s (s.eventMgmt code die pl) :=
  State.each_flagsStay (fun t _ => .ite (t.event_flagsStay ..) (.refl t)) _ s
theorem State.retireEvent_flagsStay (s : State) (i phase : Nat) : FlagsStay s (s.retireEvent i phase) := s.eventMgmt_flagsStay ..
theorem State.eventAt_flagsStay (s : State) (p : Option Nat) (code die : Nat) (pl : List Byte) : FlagsStay s (s.eventAt p code die pl) := by
  cases p with
  | none => exact s.eventMgmt_flagsStay ..
  | some q => exact State.each_flagsStay (fun t _ => .ite (t.event_flagsStay ..) (.refl t)) _ s
theorem State.memError_flagsStay (s : State) (b : Nat) : FlagsStay s (s.memError b) :=
  .ite (s.eventAt_flagsStay ..) (s.eventAt_flagsStay ..)

/-! ## The near-memory map, and what telling of an error or a retirement leaves of it -/

/-- Replace the near-memory map. -/
def State.setNm (s : State) (x : NmMap) : State := { s with nm := x }
@[simp] theorem State.setNm_nm (s : State) (x : NmMap) : (s.setNm x).nm = x := rfl
theorem State.setNm_flagsStay (s : State) (x : NmMap) : FlagsStay s (s.setNm x) := ⟨fun _ _ _ h => h⟩
theorem State.raise_nm (s : State) (die page bit : Nat) : (s.raise die page bit).nm = s.nm :=
  (State.raise_touch (Sub.refl _) s die page bit (Touch.refl _ s)).nm rfl
theorem State.raise_flash (s : State) (die page bit : Nat) : (s.raise die page bit).flash = s.flash :=
  (State.raise_touch (Sub.refl _) s die page bit (Touch.refl _ s)).flash rfl
theorem State.retireEvent_nm (s : State) (i phase : Nat) : (s.retireEvent i phase).nm = s.nm :=
  (State.retireEvent_touch (Sub.refl _) s i phase (Touch.refl _ s)).nm rfl
theorem State.retireEvent_flash (s : State) (i phase : Nat) : (s.retireEvent i phase).flash = s.flash :=
  (State.retireEvent_touch (Sub.refl _) s i phase (Touch.refl _ s)).flash rfl

/-! ## RETIRED, and what is kept while retirements go on (spec/08 R250 step 5, R252) -/

/-- Interface i is RETIRED, in the service record too. -/
def State.RetiredOnRecord (s : State) (i : Nat) : Prop := s.nm.retired.getLsbD i = true ∧ i ∈ s.flash.retiredIfs
theorem State.RetiredOnRecord.congr {s t : State} {i : Nat} (h : s.RetiredOnRecord i) (hnm : t.nm.retired = s.nm.retired) (hflash : t.flash = s.flash) :
    t.RetiredOnRecord i := by
  rwa [State.RetiredOnRecord, hnm, hflash]
theorem State.RetiredOnRecord.touch {m : Nat} {s t : State} {i : Nat} (h : s.RetiredOnRecord i) (k : Touch m s t)
    (hnm : m.testBit 16 = false) (hflash : m.testBit 29 = false) : t.RetiredOnRecord i :=
  h.congr (congrArg NmMap.retired (k.nm hnm)) (k.flash hflash)
theorem State.recordRetired_retiredOnRecord (s : State) {i : Nat} (hi : i < 48) : (s.recordRetired i).RetiredOnRecord i := by
  refine ⟨?_, List.mem_append_right _ (List.mem_singleton_self i)⟩
  show (setBit s.nm.retired i true).getLsbD i = true
  simp [getLsbD_setBit_true, hi]

/-- What the queue of retirements keeps: the places of frames, what is RETIRED, and the flags. -/
structure RetireKeeps (s t : State) : Prop where
  moved : t.nm.moved = s.nm.moved
  retired : ∀ i, s.RetiredOnRecord i → t.RetiredOnRecord i
  flags : FlagsStay s t
theorem RetireKeeps.refl (s : State) : RetireKeeps s s := ⟨rfl, fun _ => id, .refl s⟩
theorem RetireKeeps.trans {s t u : State} (h : RetireKeeps s t) (k : RetireKeeps t u) : RetireKeeps s u :=
  ⟨k.moved.trans h.moved, fun i hi => k.retired i (h.retired i hi), h.flags.trans k.flags⟩
theorem State.setNm_keeps (s : State) (x : NmMap) (hmoved : x.moved = s.nm.moved) (hretired : x.retired = s.nm.retired) : RetireKeeps s (s.setNm x) :=
  ⟨hmoved, fun _ hi => hi.congr hretired rfl, s.setNm_flagsStay x⟩
theorem State.raise_keeps (s : State) (die page bit : Nat) : RetireKeeps s (s.raise die page bit) where
  moved := congrArg NmMap.moved (s.raise_nm die page bit)
  retired _ hi := hi.congr (congrArg NmMap.retired (s.raise_nm die page bit)) (s.raise_flash die page bit)
  flags := s.raise_flagsStay die page bit
theorem State.retireEvent_keeps (s : State) (i phase : Nat) : RetireKeeps s (s.retireEvent i phase) where
  moved := congrArg NmMap.moved (s.retireEvent_nm i phase)
  retired _ hj := hj.congr (congrArg NmMap.retired (s.retireEvent_nm i phase)) (s.retireEvent_flash i phase)
  flags := s.retireEvent_flagsStay i phase
theorem State.rasReport_keeps (s : State) (cls : Nat) : RetireKeeps s (s.rasReport cls) :=
  ⟨rfl, fun _ => id, s.rasReport_flagsStay cls⟩
theorem State.recordRetired_keeps (s : State) (i : Nat) : RetireKeeps s (s.recordRetired i) where
  moved := rfl
  retired j hj := by
    obtain ⟨hbit, hmem⟩ := hj
    refine ⟨?_, List.mem_append_left _ hmem⟩
    show (setBit s.nm.retired i true).getLsbD j = true
    simp [getLsbD_setBit_true, hbit]
  flags := ⟨fun _ _ _ h => h⟩

/-! ## The parts of a planned retirement (spec/08 R250) -/

/-- A retirement waits for its units to be given back, or for its next frame to move. -/
def Retire.waits (c : Retire) : Prop := c.blocked = true ∨ c.moves ≠ []

/-- The device as a retirement plans its moves: the capacity withdrawn, the retirement in progress. -/
def State.withdrawFor (s : State) (i : Nat) : State :=
  let w := s.withdraw
  { w with nm := { w.nm with cur := some { iface := i, blocked := false, moves := [] } } }
/-- The map once a retirement has planned its moves. -/
def State.movingNm (s : State) (i : Nat) : NmMap :=
  { s.nm with withdrawn := s.nm.withdrawn + 1, cur := some { iface := i, blocked := false, moves := (s.withdrawFor i).plannedMoves i } }
theorem State.startMoves_eq (s : State) (i : Nat) : s.startMoves i = (s.setNm (s.movingNm i)).retireEvent i 2 := rfl
theorem State.startMoves_nm (s : State) (i : Nat) : (s.startMoves i).nm = s.movingNm i := by
  rw [State.startMoves_eq, State.retireEvent_nm, State.setNm_nm]
theorem State.startMoves_keeps (s : State) (i : Nat) : RetireKeeps s (s.startMoves i) := by
  rw [State.startMoves_eq]
  exact (s.setNm_keeps (s.movingNm i) rfl rfl).trans (State.retireEvent_keeps ..)
theorem State.topUnits_any {s : State} : s.topUnits.any (fun u => s.unitHeld u) = true ↔ ∃ u ∈ s.topUnits, s.unitHeld u = true := List.any_eq_true
/-- The map once a retirement has been blocked. -/
def State.blockedNm (s : State) (i : Nat) : NmMap := { (s.setIf i 1).nm with cur := some { iface := i, blocked := true, moves := [] } }
/-- A unit of the top 20 GiB is held: the retirement is blocked. -/
theorem State.beginRetire_held {s : State} (i : Nat) (h : ∃ u ∈ s.topUnits, s.unitHeld u = true) :
    s.beginRetire i = ((s.setNm (s.blockedNm i)).raise s.lead 0xC5 1).retireEvent i 1 :=
  if_pos (State.topUnits_any (s := s.setIf i 1).mpr h)
/-- No unit of the top 20 GiB is held: the frames begin to move. -/
theorem State.beginRetire_free {s : State} (i : Nat) (h : ¬ ∃ u ∈ s.topUnits, s.unitHeld u = true) : s.beginRetire i = (s.setIf i 1).startMoves i :=
  if_neg (mt (State.topUnits_any (s := s.setIf i 1)).mp h)
theorem State.beginRetire_keeps (s : State) (i : Nat) : RetireKeeps s (s.beginRetire i) := by
  by_cases h : ∃ u ∈ s.topUnits, s.unitHeld u = true
  · rw [State.beginRetire_held i h]
    exact ((s.setNm_keeps (s.blockedNm i) rfl rfl).trans (State.raise_keeps ..)).trans (State.retireEvent_keeps ..)
  · rw [State.beginRetire_free i h]
    exact (s.setNm_keeps (s.setIf i 1).nm rfl rfl).trans (State.startMoves_keeps ..)
theorem State.endRetire_eq (s : State) (i : Nat) :
    s.endRetire i = (((s.recordRetired i).setNm { (s.markRetired i).nm with cur := none }).rasReport 0).retireEvent i 3 := rfl
theorem State.endRetire_nm (s : State) (i : Nat) : (s.endRetire i).nm = { (s.markRetired i).nm with cur := none } := by
  rw [State.endRetire_eq, State.retireEvent_nm]
  rfl
theorem State.recordRetired_endRetire_keeps (s : State) (i : Nat) : RetireKeeps (s.recordRetired i) (s.endRetire i) := by
  rw [State.endRetire_eq]
  exact (((s.recordRetired i).setNm_keeps { (s.markRetired i).nm with cur := none } rfl rfl).trans (State.rasReport_keeps ..)).trans (State.retireEvent_keeps ..)
theorem State.endRetire_retiredOnRecord (s : State) {i : Nat} (hi : i < 48) : (s.endRetire i).RetiredOnRecord i :=
  (s.recordRetired_endRetire_keeps i).retired i (s.recordRetired_retiredOnRecord hi)

/-! ## One step of the queue (spec/08 R252) -/

theorem State.retireStep_waits {s : State} {c : Retire} (hcur : s.nm.cur = some c) (h : c.waits) : s.retireStep = s := by
  have hgo : (!c.blocked && c.moves.isEmpty) = false := by
    obtain h | h := h
    · simp [h]
    · simp [h]
  simp only [State.retireStep, hcur, hgo, Bool.false_eq_true, if_false]
theorem State.retireStep_moved {s : State} {c : Retire} (hcur : s.nm.cur = some c) (h : ¬ c.waits) : s.retireStep = s.endRetire c.iface := by
  simp only [Retire.waits, ne_eq, not_or, Classical.not_not, Bool.not_eq_true] at h
  obtain ⟨hblocked, hmoves⟩ := h
  simp [State.retireStep, hcur, hblocked, hmoves]
theorem State.retireStep_idle {s : State} (hcur : s.nm.cur = none) (hqueue : s.nm.queue = []) : s.retireStep = s := by
  simp only [State.retireStep, hcur, hqueue]
theorem State.retireStep_next {s : State} {j : Nat} {r : List Nat} (hcur : s.nm.cur = none) (hqueue : s.nm.queue = j :: r) :
    s.retireStep = (s.setNm { s.nm with queue := r }).beginRetire j := by
  simp only [State.retireStep, hcur, hqueue, State.setNm]
theorem State.retireStep_keeps (s : State) : RetireKeeps s s.retireStep := by
  match hcur : s.nm.cur, hqueue : s.nm.queue with
  | some c, _ =>
    by_cases h : c.waits
    · rw [State.retireStep_waits hcur h]; exact .refl s
    · rw [State.retireStep_moved hcur h]
      exact (s.recordRetired_keeps c.iface).trans (s.recordRetired_endRetire_keeps c.iface)
  | none, [] => rw [State.retireStep_idle hcur hqueue]; exact .refl s
  | none, j :: r =>
    rw [State.retireStep_next hcur hqueue]
    exact (s.setNm_keeps { s.nm with queue := r } rfl rfl).trans (State.beginRetire_keeps _ j)

/-! ## The queue as far as it goes (spec/08 R252) -/

/-- n steps of the queue. -/
def State.retireSteps (s : State) : Nat → State
  | 0 => s
  | n + 1 => s.retireStep.retireSteps n
theorem State.retireSteps_succ (s : State) (n : Nat) : s.retireSteps (n + 1) = s.retireStep.retireSteps n := rfl
theorem State.retireSteps_eq_self {s : State} (h : s.retireStep = s) (n : Nat) : s.retireSteps n = s := by
  induction n with
  | zero => rfl
  | succ n ih => rw [State.retireSteps_succ, h, ih]
theorem State.retireSteps_keeps (s : State) (n : Nat) : RetireKeeps s (s.retireSteps n) := by
  induction n generalizing s with
  | zero => exact .refl s
  | succ n ih => exact s.retireStep_keeps.trans (ih s.retireStep)
theorem State.each_retireStep {α : Type} (s : State) (l : List α) : s.each l (fun s _ => s.retireStep) = s.retireSteps l.length := by
  induction l generalizing s with
  | nil => rfl
  | cons x r ih => exact ih s.retireStep
theorem State.retireOn_eq_retireSteps (s : State) : s.retireOn = s.retireSteps 97 := by
  unfold State.retireOn
  split
  case h_1 hcur hqueue => exact (State.retireSteps_eq_self (State.retireStep_idle hcur hqueue) 97).symm
  case h_2 => rw [State.each_retireStep, List.length_range]
theorem State.retireOn_keeps (s : State) : RetireKeeps s s.retireOn := by
  rw [State.retireOn_eq_retireSteps]
  exact s.retireSteps_keeps 97
theorem State.retireOn_waits {s : State} {c : Retire} (hcur : s.nm.cur = some c) (h : c.waits) : s.retireOn = s := by
  rw [State.retireOn_eq_retireSteps]
  exact State.retireSteps_eq_self (State.retireStep_waits hcur h) 97
/-- A retirement whose frames have all moved ends, whatever comes after it. -/
theorem State.retireOn_moved {s : State} {c : Retire} (hcur : s.nm.cur = some c) (h : ¬ c.waits) (hi : c.iface < 48) :
    s.retireOn.RetiredOnRecord c.iface := by
  rw [State.retireOn_eq_retireSteps, State.retireSteps_succ, State.retireStep_moved hcur h]
  exact (State.retireSteps_keeps _ 96).retired _ (s.endRetire_retiredOnRecord hi)

/-! ## A planned retirement is asked for, unblocked and moves frames (spec/08 R249, R250) -/

/-- A request bit is set (spec/08 Table 8-9). -/
def State.askRetire (s : State) (i : Nat) : State := { s with nm := { s.nm with req := setBit s.nm.req i true } }
/-- Interface i takes its place in the order of retirements. -/
def State.queueRetire (s : State) (i : Nat) : State := s.setNm { s.nm with queue := s.nm.queue ++ [i] }
theorem State.planRetire_eq_queueRetire {s : State} {i : Nat} (hstate : s.ifState i = 0) (hqueue : i ∉ s.nm.queue) : s.planRetire i = s.queueRetire i := by
  refine if_neg ?_
  rw [Bool.or_eq_true, not_or, decide_eq_true_eq, Classical.not_not, List.contains_iff_mem]
  exact ⟨hstate, hqueue⟩
/-- With none in progress or waiting, the retirement that is queued begins. -/
theorem State.queueRetire_retireStep {s : State} (i : Nat) (hcur : s.nm.cur = none) (hqueue : s.nm.queue = []) :
    (s.queueRetire i).retireStep = s.beginRetire i := by
  have hnext : (s.queueRetire i).nm.queue = [i] := by rw [State.queueRetire, State.setNm_nm, hqueue]; rfl
  have hback : (s.queueRetire i).setNm { (s.queueRetire i).nm with queue := [] } = s := by rw [← hqueue]; rfl
  rw [State.retireStep_next (s := s.queueRetire i) hcur hnext, hback]
theorem exec_nmmapRetire {s : State} {i : Nat} (hstate : s.ifState i = 0) (hqueue : i ∉ s.nm.queue) :
    exec (.nmmapRetire i) s = .next ((s.askRetire i).queueRetire i).retireOn := by
  have harm : exec (.nmmapRetire i) s = execNmmapRetire i s := rfl
  rw [harm, execNmmapRetire, if_neg (by omega), ← State.planRetire_eq_queueRetire (s := s.askRetire i) hstate hqueue]
  rfl
theorem exec_nmmapRetire_alone {s : State} {i : Nat} (hstate : s.ifState i = 0) (hcur : s.nm.cur = none) (hqueue : s.nm.queue = []) :
    exec (.nmmapRetire i) s = .next (((s.askRetire i).beginRetire i).retireSteps 96) := by
  rw [exec_nmmapRetire hstate (by simp [hqueue]), State.retireOn_eq_retireSteps, State.retireSteps_succ,
    State.queueRetire_retireStep (s := s.askRetire i) i hcur hqueue]
/-- A retirement that waits for another is queued. -/
theorem exec_nmmapRetire_queued {s : State} {i : Nat} {c : Retire} (hstate : s.ifState i = 0) (hqueue : i ∉ s.nm.queue) (hcur : s.nm.cur = some c) (h : c.waits) :
    exec (.nmmapRetire i) s = .next ((s.askRetire i).queueRetire i) := by
  rw [exec_nmmapRetire hstate hqueue, State.retireOn_waits (s := (s.askRetire i).queueRetire i) hcur h]
/-- It is blocked while a unit of the top 20 GiB is held. -/
theorem exec_nmmapRetire_held {s : State} {i : Nat} (hstate : s.ifState i = 0) (hcur : s.nm.cur = none) (hqueue : s.nm.queue = [])
    (hheld : ∃ u ∈ s.topUnits, s.unitHeld u = true) :
    ∃ t, exec (.nmmapRetire i) s = .next t ∧ t.nm = (s.askRetire i).blockedNm i ∧ (t.hdr s.lead 0xC5).errStatus.getLsbD 1 = true := by
  have hbegin := State.beginRetire_held (s := s.askRetire i) i hheld
  have hnm : ((s.askRetire i).beginRetire i).nm = (s.askRetire i).blockedNm i := by
    rw [hbegin, State.retireEvent_nm, State.raise_nm, State.setNm_nm]
  refine ⟨(s.askRetire i).beginRetire i, ?_, hnm, ?_⟩
  · rw [exec_nmmapRetire_alone hstate hcur hqueue]
    exact congrArg _ (State.retireSteps_eq_self (State.retireStep_waits (congrArg NmMap.cur hnm) (.inl rfl)) 96)
  · rw [hbegin]
    exact (State.retireEvent_flagsStay ..).stay _ _ _ (State.raise_errStatus _ _ _ (by decide))
/-- Else its frames begin to move, and with none it is RETIRED at once. -/
theorem exec_nmmapRetire_free {s : State} {i : Nat} (hstate : s.ifState i = 0) (hcur : s.nm.cur = none) (hqueue : s.nm.queue = [])
    (hheld : ¬ ∃ u ∈ s.topUnits, s.unitHeld u = true) :
    let l := (((s.askRetire i).setIf i 1).withdrawFor i).plannedMoves i
    ∃ t, exec (.nmmapRetire i) s = .next t ∧ t.nm.withdrawn = s.nm.withdrawn + 1
      ∧ (l ≠ [] → t.nm.cur = some { iface := i, blocked := false, moves := l }) ∧ (l = [] → i < 48 → t.RetiredOnRecord i) := by
  intro l
  have hnm : ((s.askRetire i).beginRetire i).nm = ((s.askRetire i).setIf i 1).movingNm i := by
    rw [State.beginRetire_free (s := s.askRetire i) i hheld, State.startMoves_nm]
  have hexec := exec_nmmapRetire_alone hstate hcur hqueue
  by_cases hl : l = []
  · have hmoved : ¬ Retire.waits { iface := i, blocked := false, moves := l } := by simp [Retire.waits, hl]
    have hstep := State.retireStep_moved (congrArg NmMap.cur hnm) hmoved
    have hend := ((s.askRetire i).beginRetire i).endRetire_nm i
    have hfixed := State.retireStep_idle (s := ((s.askRetire i).beginRetire i).endRetire i) (congrArg NmMap.cur hend)
      ((congrArg NmMap.queue hend).trans ((congrArg NmMap.queue hnm).trans hqueue))
    rw [State.retireSteps_succ, hstep, State.retireSteps_eq_self hfixed] at hexec
    exact ⟨_, hexec, (congrArg NmMap.withdrawn hend).trans (congrArg NmMap.withdrawn hnm), fun h => absurd hl h, fun _ hi => State.endRetire_retiredOnRecord _ hi⟩
  · have hwaits : Retire.waits { iface := i, blocked := false, moves := l } := .inr hl
    rw [State.retireSteps_eq_self (State.retireStep_waits (congrArg NmMap.cur hnm) hwaits)] at hexec
    exact ⟨_, hexec, congrArg NmMap.withdrawn hnm, fun _ => congrArg NmMap.cur hnm, fun h => absurd h hl⟩
/-- A blocked retirement goes on once no unit of the top 20 GiB is held. -/
theorem exec_retirementUnblocked {s : State} {c : Retire} (hcur : s.nm.cur = some c) (hblocked : c.blocked = true)
    (hheld : ¬ ∃ u ∈ s.topUnits, s.unitHeld u = true) : exec .retirementUnblocked s = .next (s.startMoves c.iface).retireOn := by
  have harm : exec .retirementUnblocked s = execRetirementUnblocked s := rfl
  have hany : s.topUnits.any (fun u => s.unitHeld u) = false := Bool.eq_false_iff.mpr (mt State.topUnits_any.mp hheld)
  simp only [harm, execRetirementUnblocked, hcur, hblocked, hany, Bool.not_false, Bool.and_self, if_true]
/-- The next frame switches to its new slot. -/
theorem exec_frameMoveComplete {s : State} {c : Retire} {m : Nat × Nat × Nat} {r : List (Nat × Nat × Nat)} (hcur : s.nm.cur = some c) (hmoves : c.moves = m :: r) :
    exec .frameMoveComplete s = .next (s.setNm { s.nm with moved := s.nm.moved.put m.1 m.2, cur := some { c with moves := r } }).retireOn := by
  have harm : exec .frameMoveComplete s = execFrameMoveComplete s := rfl
  simp only [harm, execFrameMoveComplete, hcur, hmoves, State.setNm]

/-! ## A forced retirement (spec/08 R251) -/

/-- Open steps that fail with their notices reach no memory: only on an ABORT are results applied first (spec/12 R429, R440). -/
theorem State.failOpen_loud_touch {m : Nat} (hm : Sub 0x1441C3C14 m) {s0 : State} (s : State) (p reason : Nat) (h : Touch m s0 s) :
    Touch m s0 (s.failOpen p reason false) := by
  have hverdicts : s.each ((s.part p).steps.filter (fun t => !t.isOpen)) (fun s t => if false then s.endVerdict p t else s) = s :=
    State.each_eq_self (fun _ => if_neg Bool.false_ne_true) _
  rw [State.failOpen, hverdicts]
  exact State.each_touch (fun t x ht => State.failStep_touch (hm.of rfl) _ _ _ _ _ (State.around_touch (hm.of rfl) _ _ _ _ _ _ ht)) h
/-- A partition that becomes DEGRADED leaves the near-memory controllers, the map and the service record. -/
theorem State.degrade_memory_touch {m : Nat} (hm : Sub 0x1441C3C14 m) {s0 : State} (s : State) (p cause : Nat) (h : Touch m s0 s) :
    Touch m s0 (s.degrade p cause) := by
  have h1 : Touch m s0 ((s.stopStreams p).failOpen p 3 false) := State.failOpen_loud_touch hm _ _ _ (State.stopStreams_touch (hm.of rfl) _ _ h)
  unfold State.degrade
  split
  case h_1 | h_2 | h_3 => exact h
  case h_4 | h_5 | h_6 | h_7 | h_8 =>
    exact State.eventBoth_touch (hm.of rfl) _ _ _ _ _ (State.rasReport_touch (hm.of rfl) _ _ (State.answerPause_touch (hm.of rfl) _ _ _ _ _
      (State.setPart_touch (hm.of rfl) _ _ _ h1)))
theorem State.lostMemory_memory_touch {m : Nat} (hm : Sub 0x1441C3C14 m) {s0 : State} (s : State) (p cause : Nat) (lost : Nat → Nat → Bool) (h : Touch m s0 s) :
    Touch m s0 (s.lostMemory p cause lost) :=
  State.loseStash_touch (hm.of rfl) _ _ _ (State.degrade_memory_touch hm _ _ _ h)
theorem State.replanMoves_retired (s : State) : s.replanMoves.nm.retired = s.nm.retired := by
  unfold State.replanMoves
  split
  · split
    · rfl
    · rfl
  · rfl
theorem State.replanMoves_flash (s : State) : s.replanMoves.flash = s.flash := (State.replanMoves_touch (Sub.refl _) s (Touch.refl _ s)).flash rfl
/-- An interface in service is RETIRED once its retirement was forced. -/
theorem State.forceRetire_retiredOnRecord {s : State} {i : Nat} (hstate : s.ifState i < 2) (hi : i < 48) : (s.forceRetire i).RetiredOnRecord i := by
  unfold State.forceRetire
  rw [if_neg (by omega)]
  extract_lets begun d units hit who
  generalize (if begun then s else s.withdraw).remapAway i = r
  obtain ⟨s1, moves⟩ := r
  dsimp -zeta only
  extract_lets s2 s3 s4
  have h2 : s2.RetiredOnRecord i := (State.raise_keeps ..).retired i (State.recordRetired_retiredOnRecord _ hi)
  have h3 : s3.RetiredOnRecord i :=
    (h2.congr s2.replanMoves_retired s2.replanMoves_flash).touch
      (State.each_touch (fun t p ht => State.lostMemory_memory_touch (Sub.refl _) t p 2 _ ht) (Touch.refl _ _)) rfl rfl
  have h4 : s4.RetiredOnRecord i := h3.touch (State.each_touch (fun t p ht => State.setPart_touch (Sub.refl _) t p _ ht) (Touch.refl _ _)) rfl rfl
  exact (State.retireEvent_keeps ..).retired i h4
/-- A forced retirement leaves the near-memory controllers' counts. -/
theorem State.forceRetire_memory_touch {m : Nat} (hm : Sub 0x1641D3E94 m) {s0 : State} (s : State) (i : Nat) (h : Touch m s0 s) : Touch m s0 (s.forceRetire i) := by
  unfold State.forceRetire
  split
  case isTrue => exact h
  case isFalse =>
    extract_lets begun d units hit who
    have h0 : Touch m s0 (if begun then s else s.withdraw) := by
      split
      · exact h
      · exact State.withdraw_touch (hm.of rfl) s h
    have h1 := State.remapAway_touch (hm.of rfl) _ i h0
    generalize (if begun then s else s.withdraw).remapAway i = r at h1 ⊢
    obtain ⟨s1, moves⟩ := r
    dsimp -zeta only
    extract_lets s2 s3 s4
    have h2 : Touch m s0 s2 :=
      State.raise_touch (hm.of rfl) _ _ _ _ (State.recordRetired_touch (hm.of rfl) _ _ (State.losePlaces_touch (hm.of rfl) _ _ _ h1))
    have h3 : Touch m s0 s3 :=
      State.each_touch (fun t p ht => State.lostMemory_memory_touch (hm.of rfl) t p 2 _ ht) (State.replanMoves_touch (hm.of rfl) s2 h2)
    have h4 : Touch m s0 s4 := State.each_touch (fun t p ht => State.setPart_touch (hm.of rfl) t p _ ht) h3
    exact State.retireEvent_touch (hm.of rfl) _ _ _ h4
theorem Touch.nmc {m : Nat} {s t : State} (h : Touch m s t) (hm : m.testBit 15 = false) (d : Nat) : t.nmc d = s.nmc d := by
  rw [State.nmc, h.nmcs hm]
  rfl
theorem State.settle_nmc (s : State) (d : Nat) : s.settle.nmc d = s.nmc d := by
  have hdue := State.each_touch (l := s.nm.due) (fun t i ht => State.forceRetire_memory_touch (m := 0x1641D3E94) (Sub.refl _) t i ht)
    (Touch.refl 0x1641D3E94 (s.setNm { s.nm with due := [] }))
  have hon := State.retireOn_touch (m := 0x1641D3E94) ((Sub.refl _).of rfl) _ hdue
  exact hon.nmc rfl d
/-- With no forced retirement due, what is settled is the queue. -/
theorem State.settle_not_due {s : State} (hdue : s.nm.due = []) : s.settle = s.retireOn := by
  have hself : s.setNm { s.nm with due := [] } = s := by rw [← hdue]; rfl
  have hsettle : s.settle = ((s.setNm { s.nm with due := [] }).each s.nm.due (fun s i => s.forceRetire i)).retireOn := rfl
  rw [hsettle, hself, hdue]
  rfl

/-! ## Patrol reads (spec/08 R243, R244, R246, R249) -/

/-- 48 interfaces carry 20 GiB each at most (spec/08 R242), below CXL memory. -/
theorem State.populated_le (s : State) : s.populated ≤ 960 := by
  have hlen : s.baseIfs.length ≤ 48 := Nat.le_trans (List.length_filter_le ..) (Nat.le_of_eq List.length_range)
  rw [State.populated]
  omega
theorem State.lt_cxlBase_of_populated {s : State} {a : Nat} (ha : a < 2 ^ 30 * s.populated) : a / 64 * 64 < cxlBase := by
  have hpop := s.populated_le
  rw [cxlBase]
  omega
theorem isSp_of_lt_cxlBase {b : Nat} (hb : b < cxlBase) : isSp b = false := by
  have hbase : ¬ spBase ≤ b := by rw [cxlBase] at hb; rw [spBase]; omega
  simp [isSp, hbase]
/-- A line lies in the frame of each of its bytes. -/
theorem State.ifOf_line (s : State) (a : Nat) : s.ifOf (a / 64 * 64) = (s.place (a / 2 ^ 24)).1 := by
  rw [State.ifOf, show a / 64 * 64 / 2 ^ 24 = a / 2 ^ 24 by omega]
/-- The device as the patrol read of a byte finds it: a new period of the interface begins at its first line (spec/08 R249; notes/assumptions/36.md). -/
def State.patrolPeriod (s : State) (a : Nat) : State :=
  if (s.place (a / 2 ^ 24)).2 = 0 ∧ a / 64 * 64 % 2 ^ 24 = 0 then s.newPeriod (s.place (a / 2 ^ 24)).1 else s
/-- Which interface holds an address is the map's alone to say. -/
theorem State.ifOf_congr {s t : State} (hvariant : t.variant = s.variant) (hnm : t.nm = s.nm) (b : Nat) : t.ifOf b = s.ifOf b := by
  simp only [State.ifOf, State.place, State.baseIfs, State.ifFitted, hvariant, hnm]
theorem State.patrolPeriod_touch {m : Nat} (hm : Sub 0x8000 m) {s0 : State} (s : State) (a : Nat) (h : Touch m s0 s) : Touch m s0 (s.patrolPeriod a) := by
  unfold State.patrolPeriod
  split
  · exact State.newPeriod_touch hm s _ h
  · exact h
/-- A new period returns its own counts only to 0. -/
theorem State.patrolPeriod_counts (s : State) (a : Nat) :
    let d := (s.place (a / 2 ^ 24)).1 / 4
    ((s.patrolPeriod a).nmc d).ecc = (s.nmc d).ecc ∧ ((s.patrolPeriod a).nmc d).ue = (s.nmc d).ue := by
  intro d
  rw [State.patrolPeriod]
  split
  · rw [State.newPeriod, State.nmc_setNmc]
    exact ⟨rfl, rfl⟩
  · exact ⟨rfl, rfl⟩
/-- A line with the poison code. -/
def State.poisonLine (s : State) (b : Nat) : State := { s with poison := addRange s.poison b (b + 64) }
theorem exec_patrolRead {s : State} {a : Nat} (ha : a < 2 ^ 30 * s.populated) (errs : Errs) :
    exec (.patrolRead a errs) s =
      if s.unitBad errs (a / 64 * 64) then .next ((((s.patrolPeriod a).noteRetries errs (a / 64 * 64)).poisonLine (a / 64 * 64)).noteUe none true (a / 64 * 64)).settle
      else if (errsAt errs (a / 64 * 64)).any (fun e => errMends (a / 64 * 64) e) then .next (((s.patrolPeriod a).noteRetries errs (a / 64 * 64)).noteCe (a / 64 * 64)).settle
      else .next ((s.patrolPeriod a).noteRetries errs (a / 64 * 64)) := by
  have harm : exec (.patrolRead a errs) s = execPatrolRead a errs s := rfl
  rw [harm, execPatrolRead, if_neg (Nat.not_le.mpr ha)]
  simp only [State.patrolPeriod, State.poisonLine, Bool.and_eq_true, decide_eq_true_eq]

/-! ### Errors of a line -/

theorem errsAt_nil (b : Nat) : errsAt [] b = [] := rfl
theorem errsAt_line {a : Nat} (hb : a / 64 * 64 < cxlBase) (e : ReadErr) : errsAt [(a, e)] (a / 64 * 64) = [e] := by
  have hin : inUnit (a / 64 * 64) a = true := by
    rw [inUnit, unitSize, isSp_of_lt_cxlBase hb]
    simp
  simp [errsAt, hin]
/-- Errors of which no transfer was retried are counted nowhere yet. -/
theorem State.noteRetries_eq_self {s : State} {errs : Errs} {b : Nat} (h : ∀ e ∈ errsAt errs b, errRetries b e = 0) : s.noteRetries errs b = s := by
  have hsum : (errsAt errs b).foldl (fun n e => n + errRetries b e) 0 = 0 := by
    generalize errsAt errs b = l at h
    induction l with
    | nil => rfl
    | cons e r ih =>
      rw [List.foldl_cons, h e (List.mem_cons_self ..)]
      exact ih (fun x hx => h x (List.mem_cons_of_mem _ hx))
  exact if_pos hsum
theorem State.noteRetries_nmc (s : State) (errs : Errs) (b d : Nat) : ∃ n, (s.noteRetries errs b).nmc d = { s.nmc d with edcRetry := n } := by
  unfold State.noteRetries
  extract_lets n i x
  split
  · exact ⟨_, rfl⟩
  · by_cases hd : d = i
    · subst hd
      exact ⟨_, State.nmc_setNmc ..⟩
    · exact ⟨_, State.nmc_setNmc_ne _ _ hd⟩
/-! ### A corrected line -/

/-- The counts of a controller after a corrected line of interface i. -/
def Nmc.corrected (x : Nmc) (i : Nat) : Nmc := { x with ecc := bump x.ecc, ifCe := x.ifCe.put i (min 65535 (Tbl.get 0 x.ifCe i + 1)) }
/-- Whatever its passing of the threshold brings, a corrected line is counted. -/
theorem State.corrected_nmc (s : State) (i : Nat) : ∃ l, (s.corrected i).nmc (i / 4) = { (s.nmc (i / 4)).corrected i with told := l } := by
  unfold State.corrected
  extract_lets x n y s1
  have h1 : s1.nmc (i / 4) = y := State.nmc_setNmc s (i / 4) y
  clear_value s1
  split
  · exact ⟨_, h1⟩
  · split
    · exact ⟨_, ((State.planRetire_touch (Sub.refl _) s1 i (Touch.refl _ s1)).nmc rfl _).trans h1⟩
    · split
      · exact ⟨_, h1⟩
      · exact ⟨_, ((State.retireEvent_touch (Sub.refl _) _ i 1 (Touch.refl _ _)).nmc rfl _).trans (State.nmc_setNmc ..)⟩
/-- One to three wrong bytes of a line that is not bad are corrected. -/
theorem exec_patrolRead_corrected {s : State} {a n : Nat} (ha : a < 2 ^ 30 * s.populated) (hlo : 1 ≤ n) (hhi : n ≤ 3) (hgood : s.unitBad [] (a / 64 * 64) = false) :
    exec (.patrolRead a [(a, .wrong n)]) s = .next ((s.patrolPeriod a).corrected (s.place (a / 2 ^ 24)).1).settle := by
  have hb := State.lt_cxlBase_of_populated ha
  have hsp := isSp_of_lt_cxlBase hb
  have herrs := errsAt_line hb (.wrong n)
  have hretries : (s.patrolPeriod a).noteRetries [(a, .wrong n)] (a / 64 * 64) = s.patrolPeriod a := by
    refine State.noteRetries_eq_self fun e he => ?_
    rw [herrs, List.mem_singleton] at he
    rw [he]; rfl
  have hfatal : errFatal (a / 64 * 64) (.wrong n) = false := by
    simp only [errFatal, hsp, Bool.false_eq_true, if_false, Bool.and_eq_false_iff, decide_eq_false_iff_not]
    omega
  have hmends : errMends (a / 64 * 64) (.wrong n) = true := by simp [errMends, hsp, hlo, hhi, hb]
  have hbad : s.unitBad [(a, .wrong n)] (a / 64 * 64) = false := by
    rw [← hgood, State.unitBad, State.unitBad, herrs, errsAt_nil, List.any_cons, hfatal]
    rfl
  have hperiod := State.patrolPeriod_touch (Sub.refl _) s a (Touch.refl _ s)
  have hplace : (s.patrolPeriod a).ifOf (a / 64 * 64) = (s.place (a / 2 ^ 24)).1 :=
    (State.ifOf_congr (hperiod.variant rfl) (hperiod.nm rfl) _).trans (s.ifOf_line a)
  rw [exec_patrolRead ha, hretries, hbad, herrs, List.any_cons, hmends, Bool.true_or, State.noteCe, hsp, if_pos hb, hplace]
  rfl

/-! ### An uncorrectable line -/

/-- What an uncorrectable line leaves of its interface's controller. -/
def Nmc.uncorrected (x : Nmc) (i : Nat) : Nmc := { x with ue := bump x.ue, ifUe := x.ifUe.put i (Tbl.get 0 x.ifUe i + 1) }
/-- An uncorrectable read that is not the sixteenth of the period is counted, flagged and reported. -/
theorem State.noteUe_patrol {s : State} {b : Nat} (hb : b < cxlBase) (hn : Tbl.get 0 (s.nmc (s.ifOf b / 4)).ifUe (s.ifOf b) + 1 ≠ 16) :
    let d := s.ifOf b / 4
    s.noteUe none true b = ((s.setNmc d ((s.nmc d).uncorrected (s.ifOf b))).raise (nmcPage d).1 (nmcPage d).2 0).memError b := by
  intro d
  have hcount : s.countUe b true = s.setNmc d ((s.nmc d).uncorrected (s.ifOf b)) := by
    refine if_neg ?_
    rw [Bool.true_and, decide_eq_true_eq]
    exact hn
  rw [State.noteUe, isSp_of_lt_cxlBase hb, if_neg Bool.false_ne_true, if_pos hb, hcount]
  rfl
/-- An error of a line is flagged and reported; with no forced retirement due, what is settled then leaves the counts, the poison and the flag. -/
theorem State.raise_memError_settle {s : State} (die page b : Nat) {bit : Nat} (hbit : bit < 32) (hdue : s.nm.due = []) :
    let t := ((s.raise die page bit).memError b).settle
    (∀ d, t.nmc d = s.nmc d) ∧ t.poison = s.poison ∧ (t.hdr die page).errStatus.getLsbD bit = true := by
  have htold {m : Nat} (hm : Sub 0x144001400 m) : Touch m s ((s.raise die page bit).memError b) :=
    State.memError_touch hm _ b (State.raise_touch hm s die page bit (Touch.refl m s))
  have hall := State.retireOn_touch (Sub.refl _) _ (htold ((Sub.refl 0x164011400).of rfl))
  intro t
  have ht : t = ((s.raise die page bit).memError b).retireOn := State.settle_not_due ((congrArg NmMap.due ((htold (Sub.refl _)).nm rfl)).trans hdue)
  rw [ht]
  exact ⟨hall.nmc rfl, hall.poison rfl, ((State.memError_flagsStay ..).trans (State.retireOn_keeps _).flags).stay _ _ _ (State.raise_errStatus s die page hbit)⟩
theorem exec_patrolRead_uncorrectable {s : State} {a : Nat} {errs : Errs} (ha : a < 2 ^ 30 * s.populated) (hbad : s.unitBad errs (a / 64 * 64) = true)
    (hdue : s.nm.due = []) (hn : Tbl.get 0 ((s.patrolPeriod a).nmc ((s.place (a / 2 ^ 24)).1 / 4)).ifUe (s.place (a / 2 ^ 24)).1 + 1 ≠ 16) :
    let d := (s.place (a / 2 ^ 24)).1 / 4
    ∃ t, exec (.patrolRead a errs) s = .next t ∧ (t.nmc d).ue = (s.nmc d).ue + 1 ∧ inRange t.poison (a / 64 * 64) = true
      ∧ (t.hdr (nmcPage d).1 (nmcPage d).2).errStatus.getLsbD 0 = true := by
  intro d
  have hexec := exec_patrolRead ha errs
  rw [hbad, if_pos rfl] at hexec
  have hread : Touch 0x8200 s (((s.patrolPeriod a).noteRetries errs (a / 64 * 64)).poisonLine (a / 64 * 64)) :=
    Touch.upd_poison ((Sub.refl _).of rfl) (State.noteRetries_touch ((Sub.refl _).of rfl) _ errs _ (State.patrolPeriod_touch ((Sub.refl _).of rfl) s a (Touch.refl _ s)))
  have hpoison : inRange (((s.patrolPeriod a).noteRetries errs (a / 64 * 64)).poisonLine (a / 64 * 64)).poison (a / 64 * 64) = true := by
    simp [State.poisonLine, addRange, inRange]
  obtain ⟨n, hnmc⟩ : ∃ n, (((s.patrolPeriod a).noteRetries errs (a / 64 * 64)).poisonLine (a / 64 * 64)).nmc d = { (s.patrolPeriod a).nmc d with edcRetry := n } :=
    State.noteRetries_nmc ..
  generalize ((s.patrolPeriod a).noteRetries errs (a / 64 * 64)).poisonLine (a / 64 * 64) = u at hexec hread hpoison hnmc
  have hif : u.ifOf (a / 64 * 64) = (s.place (a / 2 ^ 24)).1 := (State.ifOf_congr (hread.variant rfl) (hread.nm rfl) _).trans (s.ifOf_line a)
  have hnote := State.noteUe_patrol (s := u) (State.lt_cxlBase_of_populated ha)
  rw [hif] at hnote
  rw [hnote (by rw [hnmc]; exact hn)] at hexec
  obtain ⟨hcounts, hkept, hflag⟩ := State.raise_memError_settle (s := u.setNmc d ((u.nmc d).uncorrected (s.place (a / 2 ^ 24)).1))
    (nmcPage d).1 (nmcPage d).2 (a / 64 * 64) (bit := 0) (by decide) ((congrArg NmMap.due (hread.nm rfl)).trans hdue)
  refine ⟨_, hexec, ?_, by rw [hkept]; exact hpoison, hflag⟩
  rw [hcounts, State.nmc_setNmc, hnmc]
  exact congrArg (· + 1) (s.patrolPeriod_counts a).2

/-! ## Recalibration windows (spec/08 R246, R249) -/

theorem exec_recalWindow_trained {s : State} {i : Nat} (hstate : s.ifState i < 2) :
    exec (.recalWindow i true) s = .next (s.setNmc (i / 4) { s.nmc (i / 4) with trainFails := (s.nmc (i / 4)).trainFails.put i 0, rateNow := (s.nmc (i / 4)).rate }) := by
  have harm : exec (.recalWindow i true) s = execRecalWindow i true s := rfl
  rw [harm, execRecalWindow, if_neg (by omega)]
  rfl
/-- An interface that did not train: one more failure in a row, and the flag of its controller. -/
def State.trainFailed (s : State) (i : Nat) : State :=
  let x := s.nmc (i / 4)
  (s.setNmc (i / 4) { x with trainFails := x.trainFails.put i (Tbl.get 0 x.trainFails i + 1), rateNow := x.rate }).raise (nmcPage (i / 4)).1 (nmcPage (i / 4)).2 2
theorem exec_recalWindow_failed {s : State} {i : Nat} (hstate : s.ifState i < 2) :
    exec (.recalWindow i false) s
      = .next (if Tbl.get 0 (s.nmc (i / 4)).trainFails i + 1 = 3 then ((s.trainFailed i).forceRetire i).retireOn else s.trainFailed i) := by
  have harm : exec (.recalWindow i false) s = execRecalWindow i false s := rfl
  rw [harm, execRecalWindow, if_neg (by omega)]
  rfl
theorem State.trainFailed_ifState (s : State) (i : Nat) : (s.trainFailed i).ifState i = s.ifState i := by
  have h := State.raise_touch (m := 0x14400D400) ((Sub.refl _).of rfl) _ (nmcPage (i / 4)).1 (nmcPage (i / 4)).2 2
    (State.setNmc_touch ((Sub.refl _).of rfl) s (i / 4)
      { s.nmc (i / 4) with trainFails := (s.nmc (i / 4)).trainFails.put i (Tbl.get 0 (s.nmc (i / 4)).trainFails i + 1), rateNow := (s.nmc (i / 4)).rate } (Touch.refl _ s))
  rw [State.ifState, State.ifFitted, State.trainFailed, h.nm rfl, h.variant rfl]
  rfl

end Sys2Proof.Machine

open Sys2Proof Sys2Proof.Machine

/-- Settles O44: a retirement that waits leaves the queue's steps as they are, and the rest of the queue keeps what is RETIRED; what a forced retirement takes along, the DEGRADED partitions with it, touches no count of a controller. -/
theorem interfacesAreRetiredAndPatrolled : Obligations.InterfacesAreRetiredAndPatrolled := by
  unfold Obligations.InterfacesAreRetiredAndPatrolled
  refine ⟨?_, ?_⟩
  · intro retired moving
    refine ⟨fun i s hstate hnot => ?_, fun c s hcur hblocked hfree => ?_, fun c m r s hcur hmoves => ?_⟩
    · intro s1 l
      refine ⟨fun c hcur hwaits => exec_nmmapRetire_queued hstate hnot hcur hwaits, fun hcur hqueue hheld => ?_, fun hcur hqueue hfree => ?_⟩
      · obtain ⟨t, hexec, hnm, hflag⟩ := exec_nmmapRetire_held hstate hcur hqueue hheld
        exact ⟨t, hexec, by rw [hnm]; rfl, by rw [hnm]; rfl, hflag⟩
      · exact exec_nmmapRetire_free hstate hcur hqueue (by simpa using hfree)
    · intro l
      have hnm := s.startMoves_nm c.iface
      refine ⟨_, exec_retirementUnblocked hcur hblocked (by simpa using hfree), fun hl => ?_, fun hl hi => ?_⟩
      · rw [State.retireOn_waits (congrArg NmMap.cur hnm) (.inr hl), hnm]
        exact ⟨rfl, rfl⟩
      · exact State.retireOn_moved (c := { iface := c.iface, blocked := false, moves := l }) (congrArg NmMap.cur hnm) (by simpa [Retire.waits] using hl) hi
    · refine ⟨_, exec_frameMoveComplete hcur hmoves, ?_, fun hwaits => ?_, fun hr hblocked hi => ?_⟩
      · rw [(State.retireOn_keeps _).moved, State.setNm_nm, Tbl.find_put, if_pos rfl]
      · rw [State.retireOn_waits (c := { c with moves := r }) rfl hwaits.symm, State.setNm_nm]
      · exact State.retireOn_moved (c := { c with moves := r }) rfl (by simp [Retire.waits, hr, hblocked]) hi
  · refine ⟨fun a s ha => ?_, fun i s hstate => ?_⟩
    · intro b q d x s1
      refine ⟨fun hgood => ?_, fun n hlo hhi hgood => ?_, fun errs hbad hdue hn => exec_patrolRead_uncorrectable ha hbad hdue hn⟩
      · rw [exec_patrolRead ha, hgood]
        rfl
      · obtain ⟨l, hnmc⟩ := (s.patrolPeriod a).corrected_nmc q.1
        refine ⟨_, exec_patrolRead_corrected ha hlo hhi hgood, ?_⟩
        rw [State.settle_nmc, hnmc]
        exact ⟨congrArg (· + 1) (s.patrolPeriod_counts a).1, Tbl.get_put_same ..⟩
    · intro d x
      refine ⟨exec_recalWindow_trained hstate, fun hn => ?_, fun hn hi => ?_⟩
      · rw [exec_recalWindow_failed hstate, if_neg hn]
        rfl
      · rw [exec_recalWindow_failed hstate, if_pos hn]
        exact ⟨_, rfl, (State.retireOn_keeps _).retired i (State.forceRetire_retiredOnRecord (by rwa [State.trainFailed_ifState]) hi)⟩
end

section
/-! SUPPORT. Mesh ports that send: what passing packets on leaves of the router and of each port, which waiting packet leaves next, and the notices and the end of a link that follow from it (spec/09 R282, R283, R289, R291, R295, R304, R308). -/

namespace Sys2Proof.Machine

/-! ## The first item that satisfies a test -/

theorem takeFirst_eq_some {α : Type} {g : α → Bool} {l r : List α} {a : α} (h : takeFirst g l = some (a, r)) :
    g a = true ∧ ∃ before after, l = before ++ a :: after ∧ r = before ++ after := by
  induction l generalizing r with
  | nil => simp [takeFirst] at h
  | cons b l ih =>
    rw [takeFirst] at h
    split at h
    case isTrue hb =>
      obtain ⟨rfl, rfl⟩ := Prod.mk.inj (Option.some.inj h)
      exact ⟨hb, [], l, rfl, rfl⟩
    case isFalse =>
      obtain ⟨⟨c, r'⟩, hr', heq⟩ := Option.map_eq_some_iff.mp h
      obtain ⟨rfl, rfl⟩ := Prod.mk.inj heq
      obtain ⟨hc, before, after, rfl, rfl⟩ := ih hr'
      exact ⟨hc, b :: before, after, rfl, rfl⟩
theorem takeFirst_isSome {α : Type} {g : α → Bool} {l : List α} {a : α} (ha : a ∈ l) (hg : g a = true) : (takeFirst g l).isSome = true := by
  induction l with
  | nil => simp at ha
  | cons b l ih =>
    rw [takeFirst]
    split
    case isTrue => rfl
    case isFalse hb =>
      rw [Option.isSome_map]
      exact ih ((List.mem_cons.mp ha).resolve_left fun hab => hb (hab ▸ hg))

/-! ## Whether a packet may start (spec/09 R282, R295) -/

/-- Whether a packet may start on port k, were the port as x. -/
def State.mayStartOn (s : State) (k : Nat) (x : Port) (p : MeshPkt) : Bool :=
  (s.chip (k / 4)).prep.foldl (fun m e => m &&& s.changeMask (k / 4) e) x.lanes != 0 && !x.off p.ch p.escClass && (x.filled s.now).hasTokens p
theorem State.mayStart_eq (s : State) (k : Nat) (p : MeshPkt) : s.mayStart k p = s.mayStartOn k (s.port k) p := rfl
/-- Buckets that have been filled up to now hold no more when they are filled again. -/
theorem Port.filled_hasTokens_of_le {x y : Port} {now : DWord} (hat : y.tokAt = now) (h7 : y.tok7 ≤ (x.filled now).tok7) (h0 : y.tok0 ≤ (x.filled now).tok0)
    {p : MeshPkt} (h : (y.filled now).hasTokens p = true) : (x.filled now).hasTokens p = true := by
  have hy7 : (y.filled now).tok7 ≤ y.tok7 := by
    simp only [Port.filled, hat, BitVec.sub_self, BitVec.toNat_zero, Nat.zero_mul, Nat.add_zero]
    exact Nat.min_le_right _ _
  have hy0 : (y.filled now).tok0 ≤ y.tok0 := by
    simp only [Port.filled, hat, BitVec.sub_self, BitVec.toNat_zero, Nat.zero_mul, Nat.add_zero]
    exact Nat.min_le_right _ _
  unfold Port.hasTokens at *
  split at h
  case isTrue h7' => simp only [h7', if_true, decide_eq_true_eq] at h ⊢; omega
  case isFalse h7' =>
    rw [if_neg h7']
    split at h
    case isTrue h0' => simp only [h0', if_true, decide_eq_true_eq] at h ⊢; omega
    case isFalse h0' => rw [if_neg h0']
/-- Of two ports alike but for their buckets, the one whose buckets hold no less lets no less start. -/
theorem State.mayStartOn_of_tokens {s : State} {k : Nat} {x y : Port} {p : MeshPkt} (hlanes : y.lanes = x.lanes)
    (hoff : ∀ ch esc, y.off ch esc = x.off ch esc) (htokens : (y.filled s.now).hasTokens p = true → (x.filled s.now).hasTokens p = true)
    (h : s.mayStartOn k y p = true) : s.mayStartOn k x p = true := by
  simp only [State.mayStartOn, hlanes, hoff, Bool.and_eq_true] at h ⊢
  exact h.imp_right htokens

/-! ## What sending leaves -/

/-- What sending leaves of a port: all but its queue, its turns, its counts and buckets, the packet passing in, and what it told its peer or its neighbours. -/
def Port.fixed (x : Port) : Port :=
  { x with queue := [], passage := .none, wrr := (0, 0), txCount := 0, txLane := 0, tok7 := 0, tok0 := 0, tokAt := 0,
           fcRefresh := 0, myMain := 0, myEsc := 0, announced := false }
/-- The peer that a port shows is kept. -/
theorem Port.fixed_peer {x y : Port} (h : y.fixed = x.fixed) : y.st = x.st ∧ y.feat = x.feat ∧ y.lastHello = x.lastHello ∧ y.peerCoord = x.peerCoord :=
  ⟨(congrArg Port.st h :), (congrArg Port.feat h :), (congrArg Port.lastHello h :), (congrArg Port.peerCoord h :)⟩
/-- The keys of a port are kept, and its count of packets received. -/
theorem Port.fixed_keys {x y : Port} (h : y.fixed = x.fixed) :
    y.keyed = x.keyed ∧ (y.txKey, y.txSalt) = (x.txKey, x.txSalt) ∧ (y.rxKey, y.rxSalt) = (x.rxKey, x.rxSalt) ∧ y.rxCount = x.rxCount :=
  ⟨(congrArg Port.keyed h :), (congrArg (fun x => (x.txKey, x.txSalt)) h :), (congrArg (fun x => (x.rxKey, x.rxSalt)) h :), (congrArg Port.rxCount h :)⟩
/-- The supervised lanes of a port are kept. -/
theorem Port.fixed_lanes {x y : Port} (h : y.fixed = x.fixed) : y.rxPos = x.rxPos ∧ y.rxN = x.rxN :=
  ⟨(congrArg Port.rxPos h :), (congrArg Port.rxN h :)⟩
/-- A packet that a port among P does not send: it is too old, or the link lacks its feature (spec/09 R289, R308). -/
def State.Unfit (s : State) (P : Nat → Prop) (p : MeshPkt) : Prop := s.tooOld p = true ∨ ∃ k, P k ∧ s.linkRefuses k p = true
/-- Port k goes from x to y while the ports among P send: only a packet that is not sent leaves a passage, and what may not start goes on waiting. -/
structure State.Served (s : State) (P : Nat → Prop) (k : Nat) (x y : Port) : Prop where
  fixed : y.fixed = x.fixed
  passage : y.passage = x.passage ∨ ∃ out p, x.passage = .forwarded out p ∧ s.Unfit P p
  queue : ¬ P k → y.queue = x.queue
  slower : ∀ p, s.mayStartOn k y p = true → s.mayStartOn k x p = true
  waits : ∀ e ∈ x.queue, s.mayStartOn k x e.p = false → e ∈ y.queue
/-- From s to t the ports among P send: nothing but the router changes, and nothing of it arrives at the device. -/
structure Serves (P : Nat → Prop) (s t : State) : Prop where
  frame : t = s.setRouter t.router
  inbox : t.router.inbox = s.router.inbox
  ports : ∀ k, s.Served P k (s.port k) (t.port k)

theorem State.Served.refl (s : State) (P : Nat → Prop) (k : Nat) (x : Port) : s.Served P k x x :=
  ⟨rfl, .inl rfl, fun _ => rfl, fun _ => id, fun _ he _ => he⟩
section
variable {P : Nat → Prop} {s t u : State}

theorem Serves.port_fixed (h : Serves P s t) (k : Nat) : (t.port k).fixed = (s.port k).fixed := (h.ports k).fixed
theorem Serves.port_st (h : Serves P s t) (k : Nat) : (t.port k).st = (s.port k).st := (Port.fixed_peer (h.port_fixed k)).1
theorem Serves.tooOld (h : Serves P s t) (p : MeshPkt) : t.tooOld p = s.tooOld p := by rw [h.frame]; rfl
theorem Serves.linkRefuses (h : Serves P s t) (k : Nat) (p : MeshPkt) : t.linkRefuses k p = s.linkRefuses k p := by
  obtain ⟨-, hfeat, -⟩ := Port.fixed_peer (h.port_fixed k)
  rw [State.linkRefuses, State.linkRefuses, hfeat]
theorem Serves.unfit (h : Serves P s t) {p : MeshPkt} (hp : t.Unfit P p) : s.Unfit P p := by
  simpa only [State.Unfit, h.tooOld, h.linkRefuses] using hp
theorem Serves.mayStartOn (h : Serves P s t) (k : Nat) (x : Port) (p : MeshPkt) : t.mayStartOn k x p = s.mayStartOn k x p := by rw [h.frame]; rfl
theorem Serves.refl (P : Nat → Prop) (s : State) : Serves P s s := ⟨rfl, rfl, fun k => .refl s P k _⟩
theorem Serves.trans (h : Serves P s t) (k : Serves P t u) : Serves P s u where
  frame := by rw [k.frame, h.frame]; rfl
  inbox := k.inbox.trans h.inbox
  ports j := {
    fixed := (k.port_fixed j).trans (h.port_fixed j)
    passage := by
      obtain hp | ⟨out, p, hp, hunfit⟩ := (h.ports j).passage
      · rw [← hp]
        obtain hp' | ⟨out, p, hp', hunfit⟩ := (k.ports j).passage
        · exact .inl hp'
        · exact .inr ⟨out, p, hp', h.unfit hunfit⟩
      · exact .inr ⟨out, p, hp, hunfit⟩
    queue := fun hj => ((k.ports j).queue hj).trans ((h.ports j).queue hj)
    slower := fun p hp => (h.ports j).slower p (by rw [← h.mayStartOn]; exact (k.ports j).slower p (by rwa [h.mayStartOn]))
    waits := fun e he hno => by
      refine (k.ports j).waits e ((h.ports j).waits e he hno) ?_
      rw [h.mayStartOn, Bool.eq_false_iff]
      exact fun hyes => Bool.eq_false_iff.mp hno ((h.ports j).slower e.p hyes) }
theorem Serves.mono {Q : Nat → Prop} (h : Serves P s t) (hPQ : ∀ k, P k → Q k) : Serves Q s t where
  frame := h.frame
  inbox := h.inbox
  ports j := {
    fixed := h.port_fixed j
    passage := (h.ports j).passage.imp_right fun ⟨out, p, hp, hunfit⟩ => ⟨out, p, hp, hunfit.imp_right fun ⟨k, hk, hno⟩ => ⟨k, hPQ k hk, hno⟩⟩
    queue := fun hj => (h.ports j).queue fun hPj => hj (hPQ j hPj)
    slower := (h.ports j).slower
    waits := (h.ports j).waits }
theorem Serves.ite {c : Prop} [Decidable c] (ht : Serves P s t) (hu : Serves P s u) : Serves P s (if c then t else u) := by
  split
  · exact ht
  · exact hu
/-- A packet passing in goes on passing in unless it is not sent. -/
theorem Serves.forwarded (h : Serves P s t) {k out : Nat} {p : MeshPkt} (hp : (s.port k).passage = .forwarded out p) (hfit : ¬ s.Unfit P p) :
    (t.port k).passage = .forwarded out p := by
  obtain heq | ⟨out', p', hp', hunfit⟩ := (h.ports k).passage
  · rw [heq, hp]
  · obtain ⟨-, rfl⟩ := Passage.forwarded.inj (hp.symm.trans hp')
    exact absurd hunfit hfit
theorem Serves.passage_none (h : Serves P s t) {k : Nat} (hnone : (s.port k).passage = .none) : (t.port k).passage = .none := by
  obtain heq | ⟨out, p, hp, -⟩ := (h.ports k).passage
  · rw [heq, hnone]
  · rw [hnone] at hp; cases hp
/-- A step for each element of a list. -/
theorem State.each_serves {α : Type} {g : State → α → State} (hg : ∀ t x, Serves P s t → Serves P t (g t x)) (l : List α) : Serves P s (s.each l g) := by
  suffices h : ∀ t, Serves P s t → Serves P s (t.each l g) from h s (.refl P s)
  induction l with
  | nil => exact fun t ht => ht
  | cons x r ih => exact fun t ht => ih (g t x) (ht.trans (hg t x ht))
end

/-- The router changes in what no port and no packet is of. -/
theorem State.setRouter_serves (P : Nat → Prop) (s : State) {r : Router} (hports : r.ports = s.router.ports) (hinbox : r.inbox = s.router.inbox) :
    Serves P s (s.setRouter r) where
  frame := rfl
  inbox := hinbox
  ports k := by
    rw [show (s.setRouter r).port k = s.port k by rw [State.port, State.setRouter_router, hports]; rfl]
    exact .refl ..
theorem State.setPort_serves {P : Nat → Prop} {s : State} {k : Nat} {x : Port} (h : s.Served P k (s.port k) x) : Serves P s (s.setPort k x) where
  frame := rfl
  inbox := rfl
  ports j := by
    by_cases hj : j = k
    · subst hj; rwa [State.port_setPort]
    · rw [State.port_setPort_ne s x hj]; exact .refl ..
theorem State.discard_serves (P : Nat → Prop) (s : State) (code : Nat) : Serves P s (s.discard code) := s.setRouter_serves P rfl rfl
theorem State.dropQueued_serves {P : Nat → Prop} {s : State} {q : Queued} (code : Nat) (h : s.Unfit P q.p) : Serves P s (s.dropQueued q code) := by
  have h1 := s.discard_serves P code
  unfold State.dropQueued
  extract_lets s1
  split
  case h_1 out p hp =>
    split
    case isTrue hmine =>
      obtain ⟨-, hpq⟩ := Bool.and_eq_true_iff.mp hmine
      obtain rfl : p = q.p := eq_of_beq hpq
      exact h1.trans (State.setPort_serves ⟨rfl, .inr ⟨out, q.p, hp, h⟩, fun _ => rfl, fun _ => id, fun _ he _ => he⟩)
    case isFalse => exact h1
  case h_2 => exact h1
  case h_3 => exact h1
  case h_4 => exact h1

/-! ## Which waiting packet leaves next (spec/09 R282, R283) -/

/-- Of eight that take turns, the turn falls to one that has a packet, where any has. -/
theorem nextTurn_has {w : Nat → Nat} {has : Nat → Bool} {c : Nat} (hc : c < 8) (h : has c = true) (cur : Nat × Nat) :
    has (nextTurn w has cur).1 = true := by
  unfold nextTurn
  split
  case isTrue hcur => exact (Bool.and_eq_true_iff.mp hcur).2
  case isFalse =>
    split
    case h_1 d hd => exact List.find?_some hd
    case h_2 hnone =>
      have hmem : c ∈ (List.range 8).map (fun i => (cur.1 + 1 + i) % 8) :=
        List.mem_map.mpr ⟨(c + 7 - cur.1 % 8) % 8, List.mem_range.mpr (by omega), by omega⟩
      exact absurd h (by simpa using List.find?_eq_none.mp hnone c hmem)

section
variable (s : State) (k : Nat)

/-- The test of the packets of port k that go before the weighted turns, where one waits that may start: CH7, CH0, the ESCAPE class. -/
def State.highTest : Option (Queued → Bool) :=
  [fun q => s.mayStart k q.p && q.p.ch == 7, fun q => s.mayStart k q.p && q.p.ch == 0, fun q => s.mayStart k q.p && q.p.escClass].find?
    (fun g => (s.port k).queue.any g)
/-- A waiting packet of port k of the MAIN class of a channel that may start. -/
def State.mainTest (c : Nat) (q : Queued) : Bool := s.mayStart k q.p && !q.p.escClass && q.p.ch == c
/-- A channel that takes turns at port k has a packet that may start. -/
def State.hasMain (c : Nat) : Bool := 1 ≤ c && c ≤ 6 && (s.port k).queue.any (s.mainTest k c)
/-- The channel whose turn it is at port k. -/
def State.mainTurn : Nat × Nat := nextTurn (fun c => bitsOf s.router.chWeight.toNat (4 * (c - 1)) 4) (s.hasMain k) (s.port k).wrr
/-- The test of the packets of port k of which one is sent next. -/
def State.nextTest : Queued → Bool := (s.highTest k).getD (s.mainTest k (s.mainTurn k).1)
/-- The test of those of them in q's channel that belong to a partition. -/
def State.partTest (q : Queued) (p : Nat) (e : Queued) : Bool := s.nextTest k e && e.p.ch == q.p.ch && e.owner == some p
/-- The partition whose turn it is in q's channel. -/
def State.ownTurn (q : Queued) : Nat × Nat :=
  nextTurn (fun p => bitsOf s.router.partWeight.toNat (4 * p) 4) (fun p => (s.port k).queue.any (s.partTest k q p)) (Tbl.get (7, 0) s.router.partTurn q.p.ch)
/-- The test of the packets from which the next is taken, where q is the first that may be next. -/
def State.takeTest (q : Queued) : Queued → Bool := if q.owner.isSome then s.partTest k q (s.ownTurn k q).1 else s.nextTest k
/-- Port k with another queue and turn, and the turns of the partitions. -/
def State.requeue (queue : List Queued) (wrr : Nat × Nat) (turns : Tbl (Nat × Nat)) : State :=
  (s.setRouter { s.router with partTurn := turns }).setPort k { s.port k with queue := queue, wrr := wrr }

theorem State.pick_eq : s.pick k = ((s.port k).queue.find? (s.nextTest k)).bind fun q =>
    (takeFirst (s.takeTest k q) (s.port k).queue).map fun y =>
      (y.1, s.requeue k y.2 (if (s.highTest k).isNone then s.mainTurn k else (s.port k).wrr)
        (if q.owner.isSome then s.router.partTurn.put q.p.ch (s.ownTurn k q) else s.router.partTurn)) := by
  unfold State.pick
  extract_lets x r ok main wrr high g
  split
  case h_1 hnone =>
    have hfind : (s.port k).queue.find? (s.nextTest k) = none := hnone
    rw [hfind, Option.bind_none]
  case h_2 q hq =>
    have hfind : (s.port k).queue.find? (s.nextTest k) = some q := hq
    rw [hfind, Option.bind_some]
    refine congrArg (fun f => Option.map f _) (funext fun y => ?_)
    by_cases howner : q.owner.isSome = true
    · rw [if_pos howner]
      simp only [if_pos howner]
      rfl
    · rw [if_neg howner]
      simp only [if_neg howner]
      rfl
end
section
variable {s t : State} {k : Nat} {q : Queued}

theorem State.mayStart_of_highTest {g : Queued → Bool} (h : s.highTest k = some g) (hq : g q = true) : s.mayStart k q.p = true := by
  have hg := List.mem_of_find?_eq_some h
  simp only [List.mem_cons, List.not_mem_nil, or_false] at hg
  obtain rfl | rfl | rfl := hg
  · exact (Bool.and_eq_true_iff.mp hq).1
  · exact (Bool.and_eq_true_iff.mp hq).1
  · exact (Bool.and_eq_true_iff.mp hq).1
theorem State.mayStart_of_nextTest (h : s.nextTest k q = true) : s.mayStart k q.p = true := by
  unfold State.nextTest at h
  match hhigh : s.highTest k with
  | some g =>
    rw [hhigh] at h
    exact State.mayStart_of_highTest hhigh h
  | none =>
    rw [hhigh] at h
    obtain ⟨hmay, -⟩ := Bool.and_eq_true_iff.mp h
    exact (Bool.and_eq_true_iff.mp hmay).1
theorem State.mayStart_of_takeTest {q0 : Queued} (h : s.takeTest k q0 q = true) : s.mayStart k q.p = true := by
  refine State.mayStart_of_nextTest (s := s) (k := k) ?_
  unfold State.takeTest at h
  split at h
  · exact (Bool.and_eq_true_iff.mp (Bool.and_eq_true_iff.mp h).1).1
  · exact h
/-- The packet taken may start, and the rest of the queue stays. -/
theorem State.pick_eq_some (h : s.pick k = some (q, t)) :
    s.mayStart k q.p = true ∧ ∃ before after wrr turns, (s.port k).queue = before ++ q :: after ∧ t = s.requeue k (before ++ after) wrr turns := by
  rw [State.pick_eq] at h
  obtain ⟨q0, -, htake⟩ := Option.bind_eq_some_iff.mp h
  obtain ⟨⟨q', rest⟩, htake, heq⟩ := Option.map_eq_some_iff.mp htake
  obtain ⟨htest, before, after, hqueue, rfl⟩ := takeFirst_eq_some htake
  obtain ⟨rfl, rfl⟩ := Prod.mk.inj heq
  exact ⟨State.mayStart_of_takeTest htest, before, after, _, _, hqueue, rfl⟩
/-- Some packet is next where one may start: of the MAIN class, its channel has a packet for its turn. -/
theorem State.exists_nextTest (hq : q ∈ (s.port k).queue) (hch : q.p.ch < 8) (h : s.mayStart k q.p = true) :
    ∃ e ∈ (s.port k).queue, s.nextTest k e = true := by
  unfold State.nextTest
  match hhigh : s.highTest k with
  | some g => exact List.any_eq_true.mp (List.find?_some hhigh)
  | none =>
    have hnot := List.find?_eq_none.mp hhigh
    simp only [List.mem_cons, List.not_mem_nil, or_false, forall_eq_or_imp, forall_eq, List.any_eq_true, not_exists, not_and] at hnot
    obtain ⟨hnot7, hnot0, hnotEsc⟩ := hnot
    have h7 : q.p.ch ≠ 7 := fun he => hnot7 q hq (by simp [h, he])
    have h0 : q.p.ch ≠ 0 := fun he => hnot0 q hq (by simp [h, he])
    have hesc : q.p.escClass = false := by simpa [h] using hnotEsc q hq
    have hmain : (s.port k).queue.any (s.mainTest k q.p.ch) = true :=
      List.any_eq_true.mpr ⟨q, hq, by simp [State.mainTest, h, hesc]⟩
    have hturn : s.hasMain k (s.mainTurn k).1 = true := by
      refine nextTurn_has hch ?_ _
      rw [State.hasMain, hmain]
      simp only [Bool.and_true, Bool.and_eq_true, decide_eq_true_eq]
      omega
    exact List.any_eq_true.mp (Bool.and_eq_true_iff.mp hturn).2
theorem Queued.owner_lt {p : Nat} (h : q.owner = some p) : p < 8 := by
  unfold Queued.owner at h
  split at h
  · obtain rfl := Option.some.inj h
    exact Nat.mod_lt _ (by decide)
  · cases h
/-- A port with a packet that may start sends one: of a partition's packets, one of the partition whose turn it is. -/
theorem State.pick_isSome (hq : q ∈ (s.port k).queue) (hch : q.p.ch < 8) (h : s.mayStart k q.p = true) : (s.pick k).isSome = true := by
  obtain ⟨e, he, hnext⟩ := State.exists_nextTest hq hch h
  obtain ⟨q0, hq0⟩ := Option.isSome_iff_exists.mp (List.find?_isSome.mpr ⟨e, he, hnext⟩)
  have hmem := List.mem_of_find?_eq_some hq0
  have hnext0 := List.find?_some hq0
  rw [State.pick_eq, hq0, Option.bind_some, Option.isSome_map]
  unfold State.takeTest
  split
  case isTrue hsome =>
    obtain ⟨p, hp⟩ := Option.isSome_iff_exists.mp hsome
    have hturn : (s.port k).queue.any (s.partTest k q0 (s.ownTurn k q0).1) = true :=
      nextTurn_has (has := fun p => (s.port k).queue.any (s.partTest k q0 p)) (Queued.owner_lt hp)
        (List.any_eq_true.mpr ⟨q0, hmem, by simp [State.partTest, hnext0, hp]⟩) _
    obtain ⟨e, he, hmine⟩ := List.any_eq_true.mp hturn
    exact takeFirst_isSome he hmine
  case isFalse => exact takeFirst_isSome hmem hnext0
end

/-! ## A port sends (spec/09 R279, R282, R289, R295, R308) -/

section
variable {s t : State} {k : Nat} {q : Queued}

theorem State.requeue_serves {queue : List Queued} (h : ∀ e ∈ (s.port k).queue, s.mayStart k e.p = false → e ∈ queue) (wrr : Nat × Nat) (turns : Tbl (Nat × Nat)) :
    Serves (· = k) s (s.requeue k queue wrr turns) :=
  (s.setRouter_serves (r := { s.router with partTurn := turns }) (· = k) rfl rfl).trans
    (State.setPort_serves ⟨rfl, .inl rfl, fun hk => absurd rfl hk, fun _ => id, h⟩)
theorem State.pick_serves (h : s.pick k = some (q, t)) : Serves (· = k) s t := by
  obtain ⟨hmay, before, after, wrr, turns, hqueue, rfl⟩ := State.pick_eq_some h
  refine State.requeue_serves (fun e he hno => ?_) wrr turns
  rw [hqueue] at he
  simp only [List.mem_append, List.mem_cons] at he ⊢
  obtain he | rfl | he := he
  · exact .inl he
  · rw [hmay] at hno; cases hno
  · exact .inr he
/-- A port's buckets are filled, then tokens are taken. -/
theorem Port.filled_spend_eq (x : Port) (now : DWord) (p : MeshPkt) : ∃ a b, a ≤ (x.filled now).tok7 ∧ b ≤ (x.filled now).tok0
    ∧ (x.filled now).spend p = { x with tok7 := a, tok0 := b, tokAt := now } := by
  unfold Port.spend
  split
  · exact ⟨_, _, Nat.sub_le .., Nat.le_refl _, rfl⟩
  · split
    · exact ⟨_, _, Nat.le_refl _, Nat.sub_le .., rfl⟩
    · exact ⟨_, _, Nat.le_refl _, Nat.le_refl _, rfl⟩
/-- Sending takes tokens out of filled buckets, and leaves the queue. -/
theorem State.spend_served (s : State) (k : Nat) (x : Port) (p : MeshPkt) (count : DWord) (lane : Nat) :
    s.Served (· = k) k x { (x.filled s.now).spend p with txCount := count, txLane := lane } ∧ ((x.filled s.now).spend p).queue = x.queue := by
  obtain ⟨a, b, h7, h0, hspend⟩ := x.filled_spend_eq s.now p
  rw [hspend]
  refine ⟨⟨rfl, .inl rfl, fun hk => absurd rfl hk, fun e he => ?_, fun _ he _ => he⟩, rfl⟩
  refine State.mayStartOn_of_tokens ?_ ?_ (fun htokens => ?_) he
  · rfl
  · exact fun _ _ => rfl
  · exact Port.filled_hasTokens_of_le (y := { x with tok7 := a, tok0 := b, tokAt := s.now, txCount := count, txLane := lane }) rfl h7 h0 htokens
theorem State.emit_eq (s : State) (k : Nat) (p : MeshPkt) (stomp : Bool) : ∃ y w, s.Served (· = k) k (s.port k) y ∧ y.queue = (s.port k).queue
    ∧ s.emit k p stomp = (s.setPort k y).setRouter { (s.setPort k y).router with sent := .packet k p stomp w :: s.router.sent } := by
  let x := (s.port k).filled s.now
  obtain ⟨hserved, hqueue⟩ := s.spend_served k (s.port k) p (if x.keyed then bump x.txCount else x.txCount)
    ((x.txLane + p.size / 32 + 1) % max 1 (ones 64 (s.stay k).toNat))
  exact ⟨_, _, hserved, hqueue, rfl⟩
theorem State.emit_serves (s : State) (k : Nat) (p : MeshPkt) (stomp : Bool) : Serves (· = k) s (s.emit k p stomp) := by
  obtain ⟨y, w, hserved, -, hemit⟩ := s.emit_eq k p stomp
  rw [hemit]
  exact (State.setPort_serves hserved).trans (State.setRouter_serves _ _ rfl rfl)
/-- The packet taken is discarded where it is not sent. -/
theorem State.drainOne_serves (s : State) (k : Nat) : Serves (· = k) s (s.drainOne k) := by
  unfold State.drainOne
  split
  case h_1 => exact .refl _ s
  case h_2 q t hpick =>
    refine (State.pick_serves hpick).trans ?_
    split
    case isTrue hold => exact State.dropQueued_serves 2 (.inl hold)
    case isFalse =>
      split
      case isTrue hno => exact State.dropQueued_serves 10 (.inr ⟨k, rfl, (Bool.and_eq_true_iff.mp hno).2⟩)
      case isFalse => exact t.emit_serves k q.p q.stomp
theorem State.drain_serves (s : State) (k : Nat) : Serves (· = k) s (s.drain k) :=
  State.each_serves (fun t _ _ => t.drainOne_serves k) _
/-- A packet has come last in a port's queue. -/
def State.push (s : State) (k : Nat) (q : Queued) : State := s.setPort k { s.port k with queue := (s.port k).queue ++ [q] }
theorem State.enqueue_eq (s : State) (inp k : Nat) (p : MeshPkt) (stomp : Bool) :
    s.enqueue inp k p stomp = (s.push k { inp := inp, p := p, stomp := stomp }).drain k := rfl
theorem State.push_port (s : State) (k : Nat) (q : Queued) : (s.push k q).port k = { s.port k with queue := (s.port k).queue ++ [q] } := State.port_setPort ..
theorem State.push_mayStart (s : State) (k : Nat) (q : Queued) (p : MeshPkt) : (s.push k q).mayStart k p = s.mayStart k p := by
  have hframe : (s.push k q).mayStart k p = s.mayStartOn k ((s.push k q).port k) p := rfl
  rw [hframe, State.push_port]
  rfl
theorem State.push_serves (s : State) (k : Nat) (q : Queued) : Serves (· = k) s (s.push k q) :=
  State.setPort_serves ⟨rfl, .inl rfl, fun hk => absurd rfl hk, fun _ => id, fun _ he _ => List.mem_append_left _ he⟩
theorem State.enqueue_serves (s : State) (inp k : Nat) (p : MeshPkt) (stomp : Bool) : Serves (· = k) s (s.enqueue inp k p stomp) :=
  (s.push_serves k _).trans (State.drain_serves _ k)
theorem State.sendOn_serves (s : State) (inp k : Nat) (p : MeshPkt) (stomp : Bool) : Serves (· = k) s (s.sendOn inp k p stomp) := by
  have hin := s.enqueue_serves inp k p stomp
  unfold State.sendOn
  extract_lets x control
  split
  · exact .ite (s.discard_serves _ 10) hin
  · exact .ite hin (s.discard_serves _ 11)
  · exact .ite hin (.refl _ s)
  · exact .ite hin (s.discard_serves _ 11)
  · exact .ite hin (s.discard_serves _ 11)
  · exact .ite hin (s.discard_serves _ 11)
  · exact .ite hin (s.discard_serves _ 11)
  · exact .refl _ s
  · exact .refl _ s
/-- A packet that may not start waits. -/
theorem State.enqueue_waits {inp : Nat} {p : MeshPkt} {stomp : Bool} (h : s.mayStart k p = false) :
    { inp := inp, p := p, stomp := stomp } ∈ ((s.enqueue inp k p stomp).port k).queue := by
  rw [State.enqueue_eq]
  refine ((State.drain_serves _ k).ports k).waits _ ?_ ?_
  · rw [State.push_port]
    exact List.mem_append_right _ (List.mem_singleton_self _)
  · rw [← State.mayStart_eq, State.push_mayStart]
    exact h
/-- A packet that waits alone leaves if it may start, is not too old, and the link has its feature. -/
theorem State.drainOne_alone (hqueue : (s.port k).queue = [q]) (hch : q.p.ch < 8) (hmay : s.mayStart k q.p = true)
    (hold : s.tooOld q.p = false) (hlink : (s.port k).st = .up → s.linkRefuses k q.p = false) :
    ∃ w, (s.drainOne k).router.sent = .packet k q.p q.stomp w :: s.router.sent ∧ ((s.drainOne k).port k).queue = [] := by
  obtain ⟨⟨q', t⟩, hpick⟩ := Option.isSome_iff_exists.mp (State.pick_isSome (hqueue ▸ List.mem_singleton_self q) hch hmay)
  have hserves := State.pick_serves hpick
  obtain ⟨-, before, after, wrr, turns, hqueue', ht⟩ := State.pick_eq_some hpick
  obtain ⟨rfl, rfl, rfl⟩ : before = [] ∧ q' = q ∧ after = [] := by
    rw [hqueue] at hqueue'
    cases before with
    | nil =>
      obtain ⟨rfl, rfl⟩ := List.cons.inj hqueue'
      exact ⟨rfl, rfl, rfl⟩
    | cons e before => simp at hqueue'
  have hfit : ((t.port k).st == .up && t.linkRefuses k q'.p) = false := by
    rw [hserves.port_st, hserves.linkRefuses]
    simp only [Bool.and_eq_false_imp, beq_iff_eq]
    exact hlink
  have hdrain : s.drainOne k = t.emit k q'.p q'.stomp := by
    unfold State.drainOne
    rw [hpick]
    simp only [hserves.tooOld, hold, Bool.false_eq_true, if_false]
    exact if_neg (Bool.not_eq_true _ ▸ hfit)
  obtain ⟨y, w, -, hy, hemit⟩ := t.emit_eq k q'.p q'.stomp
  have hport : (t.emit k q'.p q'.stomp).port k = y := by
    rw [hemit]
    exact State.port_setPort ..
  rw [hdrain]
  refine ⟨w, ?_, ?_⟩
  · rw [hemit, ht]; rfl
  · rw [hport, hy, ht, State.requeue, State.port_setPort]; rfl
/-- A packet handed to an empty queue leaves at once if it may start. -/
theorem State.enqueue_alone {inp : Nat} {p : MeshPkt} {stomp : Bool} (hqueue : (s.port k).queue = []) (hch : p.ch < 8)
    (hmay : s.mayStart k p = true) (hold : s.tooOld p = false) (hlink : (s.port k).st = .up → s.linkRefuses k p = false) :
    ∃ w, (s.enqueue inp k p stomp).router.sent = .packet k p stomp w :: s.router.sent ∧ ((s.enqueue inp k p stomp).port k).queue = [] := by
  have hserves := s.push_serves k { inp := inp, p := p, stomp := stomp }
  have halone : ((s.push k { inp := inp, p := p, stomp := stomp }).port k).queue = [{ inp := inp, p := p, stomp := stomp }] := by
    rw [State.push_port, hqueue]; rfl
  have hdrain : ∀ u : State, (u.port k).queue.length = 1 → u.drain k = u.drainOne k := fun u hu => by
    rw [State.drain, hu]; rfl
  rw [State.enqueue_eq, hdrain _ (by rw [halone]; rfl)]
  exact State.drainOne_alone halone hch (by rwa [State.push_mayStart]) hold (by rwa [hserves.port_st, hserves.linkRefuses])
end

/-! ## Flow control and notices (spec/09 R291, R292, R295) -/

theorem State.sendFc_serves (P : Nat → Prop) (s : State) (k : Nat) : Serves P s (s.sendFc k) := by
  unfold State.sendFc
  extract_lets x m e s1
  refine Serves.trans (t := s1) (State.setPort_serves ?_) (s1.setRouter_serves P rfl rfl)
  exact ⟨rfl, .inl rfl, fun _ => rfl, fun _ => id, fun _ he _ => he⟩
theorem State.fcChanged_serves (P : Nat → Prop) (s : State) (k : Nat) : Serves P s (s.fcChanged k) :=
  .ite (s.sendFc_serves P k) (.refl P s)
theorem State.fcSweep_serves (P : Nat → Prop) (s : State) : Serves P s s.fcSweep := State.each_serves (fun t k _ => t.fcChanged_serves P k) _
/-- A notice goes out on UP ports alone. -/
theorem State.flood_serves (s : State) (but : Nat) (pl : List Byte) : Serves (fun k => (s.port k).st = .up) s (s.flood but pl) := by
  refine State.each_serves (fun t k ht => ?_) _
  split
  case isTrue hup =>
    simp only [Bool.and_eq_true, beq_iff_eq] at hup
    obtain ⟨⟨-, hup⟩, -⟩ := hup
    exact (t.sendOn_serves 12 k (t.epochPkt pl) false).mono fun j hj => by rw [hj, ← ht.port_st, hup]
  case isFalse => exact .refl _ t
theorem Router.writeInactive_ports (r : Router) : r.writeInactive.ports = r.ports := by
  unfold Router.writeInactive
  dsimp only
  split <;> split <;> rfl
theorem Router.writeInactive_inbox (r : Router) : r.writeInactive.inbox = r.inbox := by
  unfold Router.writeInactive
  dsimp only
  split <;> split <;> rfl
theorem Router.join_ports (r : Router) (now : DWord) (own : List (Nat × Bool)) : (r.join now own).1.ports = r.ports := by
  unfold Router.join
  dsimp only
  split
  · exact Router.writeInactive_ports _
  · split
    · rfl
    · exact Router.writeInactive_ports _
theorem Router.join_inbox (r : Router) (now : DWord) (own : List (Nat × Bool)) : (r.join now own).1.inbox = r.inbox := by
  unfold Router.join
  dsimp only
  split
  · exact Router.writeInactive_inbox _
  · split
    · rfl
    · exact Router.writeInactive_inbox _
theorem State.announced_serves (P : Nat → Prop) (s : State) (k : Nat) (b : Bool) : Serves P s (s.setPort k { s.port k with announced := b }) :=
  State.setPort_serves ⟨rfl, .inl rfl, fun _ => rfl, fun _ => id, fun _ he _ => he⟩
theorem State.announce_serves (s : State) (k : Nat) (up : Bool) : Serves (fun j => (s.port j).st = .up) s (s.announce k up) := by
  have hports := s.router.join_ports s.now [(k, up)]
  have hinbox := s.router.join_inbox s.now [(k, up)]
  unfold State.announce
  generalize s.router.join s.now [(k, up)] = j at hports hinbox ⊢
  obtain ⟨r, t⟩ := j
  dsimp -zeta only
  extract_lets seq pl s1 x s2
  have h2 : ∀ P, Serves P s s2 := fun P =>
    Serves.trans (t := s1) (s.setRouter_serves P hports hinbox) (s1.announced_serves P k up)
  refine (h2 _).trans ((s2.flood_serves 12 pl).mono fun j hj => ?_)
  rw [← (h2 fun _ => True).port_st, hj]
theorem State.notice_serves (s : State) (k : Nat) (up : Bool) : Serves (fun j => (s.port j).st = .up) s (s.notice k up) :=
  .ite (s.announced_serves _ k !up) (s.announce_serves k up)

/-! ## The state of a port (spec/09 R304, R314, Table 9-6) -/

theorem State.linkEvent_router (s : State) (k : Nat) : (s.linkEvent k).router = s.router :=
  (State.linkEvent_touch (Sub.refl _) s k (Touch.refl _ s)).router rfl
theorem State.raiseRouter_router (s : State) (bit : Nat) : (s.raiseRouter bit).router = s.router :=
  (State.raiseRouter_touch (Sub.refl _) s bit (Touch.refl _ s)).router rfl
theorem State.portTo_port (s : State) (k : Nat) (st : PortSt) : (s.portTo k st).port k = { s.port k with st := st } := by
  unfold State.portTo
  extract_lets x
  split
  case isTrue hst => rw [← hst]
  case isFalse =>
    rw [State.port, State.linkEvent_router]
    exact State.port_setPort ..
theorem State.dropQueued_inbox (s : State) (q : Queued) (code : Nat) : (s.dropQueued q code).router.inbox = s.router.inbox := by
  unfold State.dropQueued
  extract_lets s1
  split
  · split <;> rfl
  all_goals rfl
theorem State.stompPassage_inbox (s : State) (k : Nat) : (s.stompPassage k).router.inbox = s.router.inbox := by
  unfold State.stompPassage
  extract_lets x s1
  split
  · dsimp only
    split <;> rfl
  all_goals rfl
theorem State.each_inbox {α : Type} {g : State → α → State} (hg : ∀ t x, (g t x).router.inbox = t.router.inbox) (l : List α) (s : State) :
    (s.each l g).router.inbox = s.router.inbox := by
  induction l generalizing s with
  | nil => rfl
  | cons x r ih => exact (ih (g s x)).trans (hg s x)
/-- A port without a link: in a state, with nothing waiting, nothing passing in and no keys; when it is DOWN, with no lane supervised. -/
structure Port.Unlinked (x : Port) (code : PortSt) : Prop where
  st : x.st = code
  queue : x.queue = []
  passage : x.passage = .none
  keyed : x.keyed = false
  lanes : code = .down → x.rxPos = [] ∧ x.rxN = 0
/-- A port that is taken down has no link from then on; the notice of it goes out on UP ports. -/
theorem State.takeDown_serves (s : State) (k : Nat) (st : PortSt) : ∃ u, Serves (fun j => (u.port j).st = .up) u (s.takeDown k st)
    ∧ (u.port k).Unlinked st ∧ u.router.inbox = s.router.inbox := by
  unfold State.takeDown
  extract_lets x s1 s2 y z s3 r s4 s5 s6
  have h3 : (s3.port k).Unlinked st := by
    rw [State.port_setPort]
    refine ⟨rfl, rfl, rfl, ?_, fun hst => ?_⟩
    · show z.keyed = false
      exact (apply_ite Port.keyed ..).trans (ite_self _)
    · subst hst
      exact ⟨rfl, rfl⟩
  have h4 : s4.router.ports = s3.router.ports ∧ s4.router.inbox = s3.router.inbox := by
    clear_value s3
    unfold s4
    split
    · rw [State.raiseRouter_router]; exact ⟨rfl, rfl⟩
    · exact ⟨rfl, rfl⟩
  have h5 : s5.router = s4.router := by
    clear_value s4
    unfold s5
    split
    · rfl
    · exact s4.linkEvent_router k
  refine ⟨s5, (Serves.ite (s5.notice_serves k false) (.refl _ s5)).trans (State.fcSweep_serves _ s6), ?_, ?_⟩
  · rwa [State.port, h5, h4.1]
  · rw [h5, h4.2]
    exact (State.each_inbox (fun t q => t.dropQueued_inbox q 5) _ s1).trans (s.stompPassage_inbox k)
/-- A port stays without a link while ports that are UP send. -/
theorem Port.Unlinked.serves {s t : State} {k : Nat} {st : PortSt} (h : (s.port k).Unlinked st) (hst : st ≠ .up)
    (hserves : Serves (fun j => (s.port j).st = .up) s t) : (t.port k).Unlinked st where
  st := (hserves.port_st k).trans h.st
  queue := ((hserves.ports k).queue fun hup => hst (h.st.symm.trans hup)).trans h.queue
  passage := hserves.passage_none h.passage
  keyed := (Port.fixed_keys (hserves.port_fixed k)).1.trans h.keyed
  lanes hdown := by
    obtain ⟨hpos, hn⟩ := h.lanes hdown
    rw [← hpos, ← hn]
    exact Port.fixed_lanes (hserves.port_fixed k)
theorem State.takeDown_unlinked (s : State) (k : Nat) {st : PortSt} (hst : st ≠ .up) : ((s.takeDown k st).port k).Unlinked st := by
  obtain ⟨u, hserves, hu, -⟩ := s.takeDown_serves k st
  exact hu.serves hst hserves
theorem State.takeDown_inbox (s : State) (k : Nat) (st : PortSt) : (s.takeDown k st).router.inbox = s.router.inbox := by
  obtain ⟨u, hserves, -, hinbox⟩ := s.takeDown_serves k st
  exact hserves.inbox.trans hinbox
theorem State.takeDown_chip (s : State) (k : Nat) (st : PortSt) (c : Nat) : (s.takeDown k st).chip c = s.chip c := by
  rw [State.chip, (State.takeDown_touch (Sub.refl _) s k st (Touch.refl _ s)).chips rfl]
  rfl

end Sys2Proof.Machine
end

section
/-! SUPPORT. Mesh packets: the way a router half takes on, what a header that passes rules out, and where a packet and its TAIL go (spec/09 R280, R285 to R289, R297 to R300, R308). -/

namespace Sys2Proof.Machine

/-! ## Routing keeps the packet but for its detour (spec/09 R285, R286, R288) -/

/-- A way that takes the packet on as it is but for its detour. -/
def Route.Keeps (p : MeshPkt) (way : Route) : Prop := ∀ k r, way = .out k r → ∃ detour daxis, r = { p with detour := detour, daxis := daxis }
theorem Route.Keeps.out (k : Nat) (p : MeshPkt) (detour : Bool) (daxis : Nat) : (Route.out k { p with detour := detour, daxis := daxis }).Keeps p :=
  fun _ _ h => ⟨detour, daxis, (Route.out.inj h).2.symm⟩
theorem Route.Keeps.drop (p : MeshPkt) (c : Nat) : (Route.drop c).Keeps p := nofun
theorem Route.Keeps.ite {p : MeshPkt} {c : Prop} [Decidable c] {way way' : Route} (h : way.Keeps p) (h' : way'.Keeps p) :
    (if c then way else way').Keeps p := by
  split
  · exact h
  · exact h'
theorem State.dimOrder_keeps (s : State) (half : Nat) (p : MeshPkt) : (s.dimOrder half p).Keeps p := by
  unfold State.dimOrder
  split
  case h_1 => exact nofun
  case h_2 a rest haxes =>
    exact .ite (.out _ p p.detour p.daxis) (.ite (.out _ p p.detour p.daxis)
      (.ite (.drop p 4) (.ite (.out _ p true a) (.ite (.out _ p true a) (.drop p 4)))))
theorem State.orphanGuard_keeps {s : State} {half : Nat} {p : MeshPkt} {way : Route} (h : way.Keeps p) : (s.orphanGuard half p way).Keeps p := by
  unfold State.orphanGuard
  split
  case isTrue =>
    cases way with
    | deliver => exact .drop p 4
    | drop c => exact .drop p c
    | out k q => exact .ite h (.drop p 4)
  case isFalse => exact h
theorem State.route_keeps (s : State) (half : Nat) (p : MeshPkt) : (s.route half p).Keeps p := by
  refine State.orphanGuard_keeps (.ite ?_ (s.dimOrder_keeps half p))
  split
  · exact .out _ p p.detour p.daxis
  · exact s.dimOrder_keeps half p

/-! ## Arriving headers (spec/09 R297, R304) -/

/-- A header that passes is not too old. -/
theorem State.tooOld_of_headerDrop {s : State} {l : List Byte} (h : s.headerDrop l = none) : s.tooOld (readPkt l) = false := by
  unfold State.headerDrop at h
  dsimp only at h
  split at h
  · cases h
  · split at h
    · cases h
    · split at h
      case isTrue => cases h
      case isFalse hnew => exact (Bool.not_eq_true _).mp hnew
theorem readPkt_ch_lt (l : List Byte) : (readPkt l).ch < 8 := Nat.mod_lt _ (by decide)


/-! ## A packet comes in (spec/09 R285, R297, R305, R565) -/

/-- The packet of some bytes, one hop on. -/
def hopped (bytes : List Byte) : MeshPkt := { readPkt bytes with hop := (readPkt bytes).hop - 1 }
/-- A port at which the head of a packet has been handled. -/
def Port.passing (x : Port) (bytes : List Byte) (passage : Passage) : Port := { x with blocks := bytes.length / 32, passage := passage }
/-- The device with the head of a packet handled at port k. -/
def State.passIn (s : State) (k : Nat) (bytes : List Byte) (passage : Passage) : State := s.setPort k ((s.port k).passing bytes passage)
/-- Where a packet goes from port k: HELLO and EPOCH packets end here. -/
def State.wayIn (s : State) (k : Nat) (q : MeshPkt) : Route := if q.typ == 10 || q.typ == 11 then .deliver else s.route (axisDie (k / 4)) q
/-- A packet that passed at port k takes a way. -/
def State.wayTaken (s : State) (k : Nat) (bytes : List Byte) : Route → State
  | .deliver => s.passIn k bytes (.here (hopped bytes))
  | .drop c => (s.discard c).passIn k bytes .dropped
  | .out j r => if s.linkRefuses j r then (s.discard 10).passIn k bytes .dropped else ((s.passIn k bytes (.forwarded j r)).sendOn k j r false).fcChanged k
theorem State.wayIn_here {s : State} {k : Nat} {q : MeshPkt} (h : q.typ = 10 ∨ q.typ = 11) : s.wayIn k q = .deliver := if_pos (by simpa using h)
theorem State.wayIn_route {s : State} {k : Nat} {q : MeshPkt} (h10 : q.typ ≠ 10) (h11 : q.typ ≠ 11) : s.wayIn k q = s.route (axisDie (k / 4)) q :=
  if_neg (by simp [h10, h11])

section
variable {k : Nat} {bytes : List Byte} {s : State} (hport : k < 12) (hfree : (s.port k).passage = .none) (hin : s.admits k (readPkt bytes) = .ok ())
include hport hfree hin

/-- MESH_PACKET at a free port that lets the packet in, whose header fails a check. -/
theorem exec_meshPacket_fails {c : Nat} (hdrop : s.headerDrop bytes = some c) :
    exec (.meshPacket k bytes) s = .next ((s.discard c).passIn k bytes .dropped) := by
  have harm : exec (.meshPacket k bytes) s = execMeshPacket k bytes s := rfl
  have hgo : (decide (12 ≤ k) || (s.port k).passage != .none) = false := by simp [hfree, hport]
  simp only [harm, execMeshPacket, hgo, hin, hdrop, Bool.false_eq_true, if_false]
  rfl
/-- MESH_PACKET at a free port that lets the packet in, whose header passes. -/
theorem exec_meshPacket_passes (hpass : s.headerDrop bytes = none) :
    exec (.meshPacket k bytes) s = .next (s.wayTaken k bytes (s.wayIn k (hopped bytes))) := by
  have harm : exec (.meshPacket k bytes) s = execMeshPacket k bytes s := rfl
  have hgo : (decide (12 ≤ k) || (s.port k).passage != .none) = false := by simp [hfree, hport]
  rw [harm, execMeshPacket, State.wayIn]
  simp only [hgo, hin, hpass, Bool.false_eq_true, if_false]
  split
  case isTrue hhere =>
    rw [if_pos (by exact hhere)]
    rfl
  case isFalse hthere =>
    rw [if_neg (by exact hthere)]
    split
    case h_1 hway => rw [show s.route (axisDie (k / 4)) (hopped bytes) = _ from hway]; rfl
    case h_2 c hway => rw [show s.route (axisDie (k / 4)) (hopped bytes) = _ from hway]; rfl
    case h_3 j r hway =>
      rw [show s.route (axisDie (k / 4)) (hopped bytes) = _ from hway, State.wayTaken]
      split
      · rfl
      · rfl
end

/-! ## A packet goes on (spec/09 R282, R295, R308) -/

section
variable {port k : Nat} {bytes : List Byte} {s : State} {r : MeshPkt}

/-- A packet handed to an UP port whose link has its feature. -/
theorem State.sendOn_up {inp : Nat} {stomp : Bool} (hup : (s.port k).st = .up) (hlink : s.linkRefuses k r = false) :
    s.sendOn inp k r stomp = s.enqueue inp k r stomp := by
  unfold State.sendOn
  simp only [hup]
  exact if_neg (Bool.not_eq_true _ ▸ hlink)
/-- What a port keeps as a packet passes in, every port keeps. -/
theorem State.passIn_port {α : Type} {g : Port → α} {passage : Passage} (h : ∀ x : Port, g (x.passing bytes passage) = g x) (s : State) (port j : Nat) :
    g ((s.passIn port bytes passage).port j) = g (s.port j) := by
  unfold State.passIn
  by_cases hj : j = port
  · rw [hj, State.port_setPort, h]
  · rw [State.port_setPort_ne s _ hj]
theorem State.fcChanged_sent (s : State) (k : Nat) {e : Sent} (h : e ∈ s.router.sent) : e ∈ (s.fcChanged k).router.sent := by
  unfold State.fcChanged
  extract_lets x live
  split
  · exact List.mem_cons_of_mem _ h
  · exact h
/-- A packet that passed and whose way leads to an UP port is in passage, and has left, or waits. -/
theorem State.wayTaken_out (hold : s.tooOld r = false) (hch : r.ch < 8) (hlink : s.linkRefuses k r = false) (hup : (s.port k).st = .up) :
    ((s.wayTaken port bytes (.out k r)).port port).passage = .forwarded k r
      ∧ ((s.port k).queue = [] → s.mayStart k r = true → ((s.wayTaken port bytes (.out k r)).port k).queue = []
          ∧ ∃ w, Sent.packet k r false w ∈ (s.wayTaken port bytes (.out k r)).router.sent)
      ∧ (s.mayStart k r = false → ({ inp := port, p := r, stomp := false } : Queued) ∈ ((s.wayTaken port bytes (.out k r)).port k).queue) := by
  generalize hs1 : s.passIn port bytes (.forwarded k r) = s1
  have hkeeps : ∀ {α : Type} {g : Port → α}, (∀ x : Port, g (x.passing bytes (.forwarded k r)) = g x) → g (s1.port k) = g (s.port k) :=
    fun hg => hs1 ▸ State.passIn_port hg s port k
  have hup1 : (s1.port k).st = .up := (hkeeps fun _ => rfl).trans hup
  have hqueue1 : (s1.port k).queue = (s.port k).queue := hkeeps fun _ => rfl
  have hlink1 : s1.linkRefuses k r = false := by rw [State.linkRefuses, hkeeps (g := Port.feat) fun _ => rfl]; exact hlink
  have hmay1 : s1.mayStart k r = s.mayStart k r := by
    subst hs1
    exact State.passIn_port (g := fun x => s.mayStartOn k x r) (fun _ => rfl) s port k
  have hold1 : s1.tooOld r = false := by rw [← hs1]; exact hold
  have hway : s.wayTaken port bytes (.out k r) = (s1.enqueue port k r false).fcChanged port := by
    rw [State.wayTaken, hlink, if_neg Bool.false_ne_true, hs1, State.sendOn_up hup1 hlink1]
  have hserves := s1.enqueue_serves port k r false
  have hsweep := (s1.enqueue port k r false).fcChanged_serves (· = k) port
  have hqueue := ((s1.enqueue port k r false).fcChanged_serves (fun _ => False) port).ports k
  rw [hway]
  refine ⟨(hserves.trans hsweep).forwarded ?_ ?_, fun hempty hmay => ?_, fun hmay => ?_⟩
  · rw [← hs1]
    exact congrArg Port.passage (State.port_setPort ..)
  · rintro (hnew | ⟨j, rfl, hno⟩)
    · exact Bool.false_ne_true (hold1.symm.trans hnew)
    · exact Bool.false_ne_true (hlink1.symm.trans hno)
  · obtain ⟨w, hsent, hleft⟩ := State.enqueue_alone (inp := port) (stomp := false) (hqueue1.trans hempty) hch (hmay1.trans hmay) hold1 fun _ => hlink1
    exact ⟨(hqueue.queue id).trans hleft, w, State.fcChanged_sent _ _ (hsent ▸ List.mem_cons_self)⟩
  · rw [hqueue.queue id]
    exact State.enqueue_waits (hmay1.trans hmay)
end

/-! ## TAILs (spec/09 R277, R280, R298 to R300) -/

/-- A port once a TAIL has ended the packet passing in. -/
def Port.ended (x : Port) : Port := { x with passage := .none, blocks := 0, rxCount := if x.keyed then bump x.rxCount else x.rxCount }
section
variable {port : Nat} {block : List Byte} {s : State} {p : MeshPkt}

theorem exec_tail_forwarded {k : Nat} (hpass : (s.port port).passage = .forwarded k p) (hok : tailOk (s.port port).blocks block = true)
    (hstomp : tailStomp block = false) : exec (.tail port block true) s = .next (s.setPort port (s.port port).ended) := by
  have harm : exec (.tail port block true) s = execTail port block true s := rfl
  simp only [harm, execTail, hpass, hok, hstomp, Bool.and_self, if_true, Bool.false_eq_true, if_false]
  rfl
theorem exec_tail_stomped (hpass : (s.port port).passage = .here p) (hok : tailOk (s.port port).blocks block = true)
    (hstomp : tailStomp block = true) (h1 : p.typ ≠ 1) (h2 : p.typ ≠ 2) :
    exec (.tail port block true) s = .next ((s.setPort port (s.port port).ended).discard 6) := by
  have harm : exec (.tail port block true) s = execTail port block true s := rfl
  have hadd : (p.typ == 1 || p.typ == 2) = false := by simp [h1, h2]
  simp only [harm, execTail, hpass, hok, hstomp, hadd, Bool.and_self, Bool.not_true, Bool.false_eq_true, if_false, if_true]
  rfl
/-- A TAIL with STOMP lets an ADD or SHIFT packet through. -/
theorem exec_tail_delivers (hpass : (s.port port).passage = .here p) (hok : tailOk (s.port port).blocks block = true)
    (hstomp : tailStomp block = false ∨ p.typ = 1 ∨ p.typ = 2) :
    exec (.tail port block true) s = .next (((s.setPort port (s.port port).ended).deliverTo port p (tailStomp block)).fcChanged port) := by
  have harm : exec (.tail port block true) s = execTail port block true s := rfl
  simp only [harm, execTail, hpass, hok, Bool.and_self, Bool.not_true, Bool.false_eq_true, if_false]
  match hflag : tailStomp block with
  | false =>
    rw [if_neg Bool.false_ne_true]
    rfl
  | true =>
    have hadd : (p.typ == 1 || p.typ == 2) = true := by simpa [hflag] using hstomp
    rw [if_pos rfl, if_pos hadd]
    rfl
/-- A TAIL with a reserved value or another count of blocks. -/
theorem exec_tail_malformed (hpass : (s.port port).passage = .here p) (hok : tailOk (s.port port).blocks block = false) :
    exec (.tail port block true) s = .next ((s.setPort port (s.port port).ended).discard 0) := by
  have harm : exec (.tail port block true) s = execTail port block true s := rfl
  simp only [harm, execTail, hpass, hok, Bool.and_false, Bool.not_false, if_true]
  rfl
theorem exec_tail_badTag (hpass : (s.port port).passage = .here p) :
    exec (.tail port block false) s = .next (((s.setPort port (s.port port).ended).discard 7).tagFail port) := by
  have harm : exec (.tail port block false) s = execTail port block false s := rfl
  simp only [harm, execTail, hpass, Bool.false_and, Bool.not_false, if_true, Bool.false_eq_true, if_false]
  rfl
/-- A packet for the device waits for its row where its age, its payload and its endpoint allow it. -/
theorem State.deliverTo_arrives (hold : s.tooOld p = false) (hnotice : p.typ = 5 → noticeOk p.payload = true)
    (hverdict : p.typ = 4 → verdictOk p.payload = true)
    (hopen : p.typ = 10 ∨ p.typ = 11 ∨ (idMgmt (idOf p.dst) = true ∧ s.rst.phase ≠ .warm)
      ∨ (idMgmt (idOf p.dst) = false ∧ ((s.part p.part).st = .running ∨ (s.part p.part).st = .paused))) (stomp : Bool) :
    s.deliverTo port p stomp = s.arrive port p stomp := by
  have hpayload : (p.typ == 5 && !noticeOk p.payload || p.typ == 4 && !verdictOk p.payload) = false := by
    simp only [Bool.or_eq_false_iff, Bool.and_eq_false_imp, beq_iff_eq, Bool.not_eq_false']
    exact ⟨hnotice, hverdict⟩
  unfold State.deliverTo
  rw [if_neg (Bool.not_eq_true _ ▸ hold), if_neg (Bool.not_eq_true _ ▸ hpayload)]
  obtain h10 | h11 | ⟨hmgmt, hphase⟩ | ⟨hmgmt, hst⟩ := hopen
  · simp [h10]
  · simp [h11]
  · simp [hmgmt, hphase]
  · simp [hmgmt, hst]
/-- A packet that arrives at a port ends its passage and waits last for its row. -/
theorem State.arrive_waits (s : State) (port : Nat) (p : MeshPkt) (stomp : Bool) :
    (((s.setPort port (s.port port).ended).arrive port p stomp).port port).passage = .none
      ∧ ((s.setPort port (s.port port).ended).arrive port p stomp).router.inbox = s.router.inbox ++ [{ port := port, p := p, stomp := stomp }] :=
  ⟨congrArg Port.passage (s.port_setPort port _), rfl⟩
/-- A tag failure leaves a port that has nothing passing in so, and delivers nothing, even where it takes the link down. -/
theorem State.tagFail_delivers (s : State) {port : Nat} (h : (s.port port).passage = .none) :
    ((s.tagFail port).port port).passage = .none ∧ (s.tagFail port).router.inbox = s.router.inbox := by
  unfold State.tagFail
  extract_lets s1 x l s2
  have hrouter : s1.router = s.router := s.raiseRouter_router 0
  have hinbox : s2.router.inbox = s.router.inbox := (congrArg Router.inbox hrouter :)
  split
  · exact ⟨(s2.takeDown_unlinked port (by decide)).passage, (s2.takeDown_inbox port .down).trans hinbox⟩
  · refine ⟨?_, hinbox⟩
    rw [State.port_setPort]
    show (s1.port port).passage = .none
    rwa [State.port, hrouter]
end

end Sys2Proof.Machine

open Sys2Proof Sys2Proof.Machine

/-- Settles O19: a packet in passage is lost to its port only where it is too old or its link lacks its feature, which a header that passed and a link that takes it rule out; a packet that may not start now may not after others have left; and no end of a link delivers. The HEADER discard of a TAIL that is not well formed is log 123's reading. -/
theorem packetsAreRoutedAndDelivered : Obligations.PacketsAreRoutedAndDelivered := by
  unfold Obligations.PacketsAreRoutedAndDelivered
  refine ⟨fun port bytes s => ?_, fun port block s p => ?_⟩
  · intro x p q way hport hfree hin
    refine ⟨fun c hdrop => exec_meshPacket_fails hport hfree hin hdrop, fun hpass => ?_⟩
    have hexec := exec_meshPacket_passes hport hfree hin hpass
    refine ⟨fun hhere => ?_, fun c h10 h11 hway => ?_, fun k r h10 h11 hway hlink hup => ?_⟩
    · have hway : s.wayIn port (hopped bytes) = .deliver := by
        obtain h10 | h11 | hway := hhere
        · exact State.wayIn_here (.inl h10)
        · exact State.wayIn_here (.inr h11)
        · exact (ite_congr rfl (fun _ => rfl) fun _ => hway).trans (ite_self _)
      rw [hway] at hexec
      exact hexec
    · have hway : s.route (axisDie (port / 4)) (hopped bytes) = .drop c := hway
      rw [State.wayIn_route (q := hopped bytes) h10 h11, hway] at hexec
      exact hexec
    · have hway : s.route (axisDie (port / 4)) (hopped bytes) = .out k r := hway
      rw [State.wayIn_route (q := hopped bytes) h10 h11, hway] at hexec
      obtain ⟨detour, daxis, rfl⟩ := s.route_keeps _ _ k r hway
      exact ⟨_, hexec, State.wayTaken_out (State.tooOld_of_headerDrop hpass) (readPkt_ch_lt bytes) hlink hup⟩
  · intro x s1 stomp open9
    refine ⟨fun hpass => ⟨fun hok hold hnotice hverdict hopen hstomp => ?_, fun hok hstomp h1 h2 => exec_tail_stomped hpass hok hstomp h1 h2,
      fun hok => exec_tail_malformed hpass hok, ?_⟩, fun k hpass hok hstomp => exec_tail_forwarded hpass hok hstomp⟩
    · have hexec := exec_tail_delivers hpass hok hstomp
      rw [State.deliverTo_arrives (s := s.setPort port (s.port port).ended) hold hnotice hverdict hopen] at hexec
      obtain ⟨hnone, hinbox⟩ := s.arrive_waits port p (tailStomp block)
      have hserves := State.fcChanged_serves (fun _ => False) ((s.setPort port (s.port port).ended).arrive port p (tailStomp block)) port
      exact ⟨_, hexec, hserves.passage_none hnone, hserves.inbox.trans hinbox⟩
    · obtain ⟨hnone, hinbox⟩ := State.tagFail_delivers ((s.setPort port (s.port port).ended).discard 7) (port := port)
        (congrArg Port.passage (s.port_setPort port _))
      exact ⟨_, exec_tail_badTag hpass, hnone, hinbox⟩
end

section
/-! SUPPORT. Mesh ports that come up: lanes and markers, HELLOs, key exchanges and OED sessions (spec/09 R275, R276, R304 to R310, spec/11 R366 to R368, R389, spec/13 R453, R454). -/

namespace Sys2Proof.Machine

/-! ## Lanes lock, and lose lock (spec/09 R275, R304, spec/11 R368) -/

section
variable {k slot : Nat} {s : State}

theorem exec_laneLock (hk : k < 12) (hdown : (s.port k).st = .down) (hcabled : s.cabled k = true) (hdump : (s.chip (k / 4)).dump = false)
    (hstart : s.linksStart = true) (hsuspended : s.portSuspended k = false) :
    exec (.laneLock k) s = .next (s.setPort k
      { s.port k with st := .training, lanes := s.portLit k, txLane := 0, rxPos := [], rxN := 0, syncErr := [] }) := by
  have harm : exec (.laneLock k) s = execLaneLock k s := rfl
  rw [harm, execLaneLock]
  simp [hk, hdown, hcabled, hdump, hstart, hsuspended]
theorem exec_blockLock {sync : List (BitVec 2)} (hk : k < 12) (hdown : (s.port k).st ≠ .down) (huncabled : (s.port k).st ≠ .uncabled)
    (hslot : (portSlots k &&& ~~~ (s.chip (k / 4)).rxFault).getLsbD slot = true) (hunlocked : (s.chip (k / 4)).rxLocked.getLsbD slot = false)
    (hsome : sync ≠ []) (hgood : ∀ h ∈ sync, h = 1 ∨ h = 2) :
    exec (.blockLock k slot sync) s
      = .next ((s.setChip (k / 4) { s.chip (k / 4) with rxLocked := (s.chip (k / 4)).rxLocked ||| BitVec.ofNat 64 (2 ^ slot) }).setPort k
          { s.port k with syncErr := (s.port k).syncErr.put slot 0 }) := by
  have harm : exec (.blockLock k slot sync) s = execBlockLock k slot sync s := rfl
  have hgo : (decide (12 ≤ k) || (s.port k).st == .down || (s.port k).st == .uncabled || !(portSlots k &&& ~~~ (s.chip (k / 4)).rxFault).getLsbD slot) = false := by
    rw [hslot]
    simp [hk, hdown, huncabled]
  have hall : (!sync.isEmpty && sync.all (fun h => h == 1 || h == 2)) = true := by simpa [hsome] using hgood
  rw [harm, execBlockLock]
  simp only [hgo, hunlocked, hall, Bool.not_false, Bool.false_eq_true, if_false, if_true]

/-- The supervised lanes of a port among some slots. -/
def Port.supervised (x : Port) (lost : DWord) : Nat := (x.rxPos.filter (fun e => lost.getLsbD e.1)).length
theorem exec_portLossOfLock (hk : k < 12) (lost : DWord) : exec (.portLossOfLock k lost) s = .next (s.loseLanes k lost) := if_pos hk
theorem State.loseLanes_supervised {lost : DWord} (hdown : (s.port k).st ≠ .down) (huncabled : (s.port k).st ≠ .uncabled)
    (hn : 0 < (s.port k).supervised lost) : s.loseLanes k lost = s.unlock k ((s.port k).supervised lost) := by
  unfold State.loseLanes
  dsimp only
  rw [if_neg (by simp [hdown, huncabled]), if_pos (by rw [Bool.or_eq_true, decide_eq_true_eq]; exact .inl hn)]
  rfl
theorem State.loseLanes_others {lost : DWord} (hdown : (s.port k).st ≠ .down) (huncabled : (s.port k).st ≠ .uncabled)
    (hn : (s.port k).supervised lost = 0) (htraining : (s.port k).st ≠ .training) :
    s.loseLanes k lost = s.setChip (k / 4) { s.chip (k / 4) with rxLocked := (s.chip (k / 4)).rxLocked &&& ~~~ (lost &&& portSlots k) } := by
  have hn : ((s.port k).rxPos.filter (fun e => lost.getLsbD e.1)).length = 0 := hn
  unfold State.loseLanes
  dsimp only
  rw [if_neg (by simp [hdown, huncabled]), if_neg (by simp [hn, htraining])]
/-- A port that goes out of lock counts lanes on its chiplet, whose slots of the port are out of lock. -/
theorem State.unlock_chip (s : State) (k n : Nat) :
    ((s.unlock k n).chip (k / 4)).rxLocked = (s.chip (k / 4)).rxLocked &&& ~~~ portSlots k
      ∧ ((s.unlock k n).chip (k / 4)).relocks = (s.chip (k / 4)).relocks + BitVec.ofNat 64 n := by
  rw [State.unlock, State.takeDown_chip, State.chip_setChip]
  exact ⟨rfl, rfl⟩
theorem State.unlock_unlinked (s : State) (k n : Nat) : ((s.unlock k n).port k).Unlinked .down := State.takeDown_unlinked _ k (by decide)

/-! ## Markers (spec/09 R276, spec/11 R366, R367) -/

/-- Legal markers of the peer's port on slots in lock. -/
def State.Legal (s : State) (k : Nat) (marks : List (Nat × List Byte)) : Prop :=
  ∀ m ∈ marks, m.1 < 64 ∧ (portSlots k &&& (s.chip (k / 4)).rxLocked).getLsbD m.1 = true ∧ markerOk m.2 = true
    ∧ s.peer k = some (beAt m.2 1 1, beAt m.2 2 1, beAt m.2 3 1) ∧ beAt m.2 4 1 = opposite k
theorem exec_alignmentMarker {marks : List (Nat × List Byte)} (hk : k < 12) (hdown : (s.port k).st ≠ .down) (huncabled : (s.port k).st ≠ .uncabled)
    (hlegal : s.Legal k marks) (hchange : (∃ m ∈ marks, markChange m.2 = true) →
      (s.port k).announcedLanes marks ≤ (marks.filter (fun m => markChange m.2 && markPos m.2 < 16)).length) :
    exec (.alignmentMarker k marks) s = .next ((s.setChip (k / 4) { s.chip (k / 4) with
        rxLocked := (s.chip (k / 4)).rxLocked &&& ~~~ BitVec.ofNat 64 (packBits 64 (fun i => marks.any (fun m => m.1 == i && markPos m.2 == 0xFE))) }).setPort k
      { s.port k with rxPos := (s.port k).placed marks, rxN := (s.port k).announcedLanes marks }) := by
  have harm : exec (.alignmentMarker k marks) s = execAlignmentMarker k marks s := rfl
  have hgot : marks.filter (fun m => m.1 < 64 && (portSlots k &&& (s.chip (k / 4)).rxLocked).getLsbD m.1) = marks :=
    List.filter_eq_self.mpr fun m hm => by
      obtain ⟨hlane, hlocked, -⟩ := hlegal m hm
      rw [hlocked]
      simpa using hlane
  have hbad : marks.filter (fun m => !markerOk m.2) = [] :=
    List.filter_eq_nil_iff.mpr fun m hm => by
      obtain ⟨-, -, hok, -⟩ := hlegal m hm
      simp [hok]
  have hgood : marks.filter (fun m => markerOk m.2) = marks :=
    List.filter_eq_self.mpr fun m hm => by
      obtain ⟨-, -, hok, -⟩ := hlegal m hm
      exact hok
  have hpeer : marks.any (fun m => s.peer k != some (beAt m.2 1 1, beAt m.2 2 1, beAt m.2 3 1) || beAt m.2 4 1 != opposite k) = false :=
    List.any_eq_false.mpr fun m hm => by
      obtain ⟨-, -, -, hpeer, hport⟩ := hlegal m hm
      simp [hpeer, hport]
  have hset : (!(marks.filter (fun m => markChange m.2)).isEmpty
      && ((marks.filter (fun m => markChange m.2)).filter (fun m => markPos m.2 < 16)).length < (s.port k).announcedLanes marks) = false := by
    simp only [Bool.and_eq_false_imp, Bool.not_eq_true', List.isEmpty_eq_false_iff, decide_eq_false_iff_not, Nat.not_lt]
    intro hsome
    obtain ⟨m, hm⟩ := List.exists_mem_of_ne_nil _ hsome
    have hcount := hchange ⟨m, (List.mem_filter.mp hm).1, (List.mem_filter.mp hm).2⟩
    rw [List.filter_filter]
    simpa only [Bool.and_comm] using hcount
  rw [harm, execAlignmentMarker]
  simp only [hgot, hbad, hgood, hpeer, hset, List.isEmpty_nil, Bool.not_true, Bool.and_false, Bool.false_eq_true, if_false]
  exact if_neg (by simp [hk, hdown, huncabled])
theorem exec_alignmentMarkerSend (hk : k < 12) (huncabled : (s.port k).st ≠ .uncabled)
    (hglow : (s.glow (k / 4) &&& portSlots k).getLsbD slot = true) :
    exec (.alignmentMarkerSend k slot) s
      = .next (s.setRouter { s.router with sent := .marker k slot (s.marker k slot false false) :: s.router.sent }) := by
  have harm : exec (.alignmentMarkerSend k slot) s = execAlignmentMarkerSend k slot s := rfl
  rw [harm, execAlignmentMarkerSend]
  exact if_pos (by rw [hglow]; simp [hk, huncabled])
end

/-! ## The device's own packets leave at once (spec/09 R282, R304) -/

section
variable {k : Nat} {s : State} {p : MeshPkt}

/-- A packet made now is not too old. -/
theorem State.tooOld_of_birth (hbirth : p.birth = BitVec.truncate 32 s.now) : s.tooOld p = false := by
  simp [State.tooOld, hbirth]
/-- No link refuses a HELLO or a management packet. -/
theorem State.linkRefuses_control (s : State) (k : Nat) (h : p.typ = 10 ∨ p.typ = 8) : s.linkRefuses k p = false := by
  obtain h | h := h
  · simp [State.linkRefuses, featureOf, h]
  · simp [State.linkRefuses, featureOf, h]
/-- A HELLO or a management packet, made now on CH0, that waits alone and may start leaves. -/
theorem State.enqueue_control {inp : Nat} {stomp : Bool} (hqueue : (s.port k).queue = []) (hch : p.ch = 0) (hmay : s.mayStart k p = true)
    (hbirth : p.birth = BitVec.truncate 32 s.now) (htyp : p.typ = 10 ∨ p.typ = 8) :
    ∃ w, (s.enqueue inp k p stomp).router.sent = .packet k p stomp w :: s.router.sent := by
  obtain ⟨w, hsent, -⟩ := State.enqueue_alone (inp := inp) (stomp := stomp) hqueue (by omega) hmay (State.tooOld_of_birth hbirth)
    fun _ => s.linkRefuses_control k htyp
  exact ⟨w, hsent⟩
theorem State.sendOn_keying (hkeying : (s.port k).st = .keying) {inp : Nat} {stomp : Bool} (htyp : p.typ = 10 ∨ p.typ = 8) :
    s.sendOn inp k p stomp = s.enqueue inp k p stomp := by
  unfold State.sendOn
  simp only [hkeying]
  exact if_pos (by simpa using htyp)
theorem State.sendOn_training (htraining : (s.port k).st = .training) {inp : Nat} {stomp : Bool} (htyp : p.typ = 10) :
    s.sendOn inp k p stomp = s.enqueue inp k p stomp := by
  unfold State.sendOn
  simp only [htraining]
  exact if_pos (by simpa using htyp)
/-- HELLO_SEND on a training port whose lanes are aligned and on an UP port that holds lanes. -/
theorem exec_helloSend (hk : k < 12) (hsuspended : s.portSuspended k = false)
    (hst : ((s.port k).st = .training ∧ (s.port k).isAligned = true) ∨ ((s.port k).st = .up ∧ (s.port k).lanes ≠ 0)) :
    exec (.helloSend k) s = .next (s.enqueue 12 k (s.helloPkt k) false) := by
  have harm : exec (.helloSend k) s = execHelloSend k s := rfl
  rw [harm, execHelloSend]
  obtain ⟨htraining, haligned⟩ | ⟨hup, hlanes⟩ := hst
  · rw [← State.sendOn_training htraining rfl]
    simp [htraining, haligned, hk, hsuspended]
  · rw [← State.sendOn_up hup (s.linkRefuses_control k (.inl rfl))]
    simp only [hup, hk, hsuspended, decide_true, Bool.true_and, Bool.not_false, Bool.and_true]
    exact if_pos (bne_iff_ne.mpr hlanes)
theorem exec_keyingRetry (hkeying : (s.port k).st = .keying) (hsuspended : s.portSuspended k = false) :
    exec (.keyingRetry k) s = .next (({ s with fresh := s.fresh + 1 } : State).enqueue 12 k (s.keyPkt k) false) := by
  have harm : exec (.keyingRetry k) s = execKeyingRetry k s := rfl
  rw [harm, execKeyingRetry, if_pos (by simp [hkeying, hsuspended]), State.sendKey, State.sendOn_keying (by exact hkeying) (.inr rfl)]
end

/-! ## HELLOs (spec/09 R305 to R309) -/

/-- A port that shows the fields of its peer's HELLO. -/
def Port.heard (x : Port) (l : List Byte) (now : DWord) : Port :=
  { x with peerCoord := BitVec.ofNat 24 (packCoord (beAt l 4 1, beAt l 5 1, beAt l 6 1)), peerPort := BitVec.ofNat 4 (beAt l 2 1),
           peerProto := BitVec.ofNat 16 (beAt l 0 1 + 256 * beAt l 1 1), peerMac := BitVec.ofNat 48 (beAt l 32 6),
           peerSerial := BitVec.ofNat 128 (beAt l 8 16), lastHello := now, peerHello := BitVec.ofNat 64 (beAt l 40 8) }
section
variable {s s1 : State} {a : Arrived} (htake : s.takeArrived (fun a => a.p.typ == 10 && !s.portSuspended a.port) = some (a, s1))
  (hok : helloOk a.p.payload = true)
include htake hok

/-- The first HELLO waiting fails a check. -/
theorem exec_hello_fails (hdown : (s1.port a.port).st ≠ .down) (huncabled : (s1.port a.port).st ≠ .uncabled) {q : PortSt}
    (hfails : s1.helloFails a.port a.p.payload = some q) :
    exec .hello s = .next (if (s1.port a.port).st == .up
      then (s1.setPort a.port ((s1.port a.port).heard a.p.payload s1.now)).takeDown a.port q
      else (s1.setPort a.port ((s1.port a.port).heard a.p.payload s1.now)).portTo a.port q) := by
  have harm : exec .hello s = execHello s := rfl
  have hlive : ((s1.port a.port).st == .down || (s1.port a.port).st == .uncabled) = false := by simp [hdown, huncabled]
  simp only [harm, execHello, htake, hlive, hok, hfails, Bool.not_true, Bool.false_eq_true, if_false]
  split
  · rfl
  · rfl
/-- The first HELLO waiting passes on a training port. -/
theorem exec_hello_keys (hpass : s1.helloFails a.port a.p.payload = none) (htraining : (s1.port a.port).st = .training) :
    exec .hello s = .next ((((s1.setPort a.port ((s1.port a.port).heard a.p.payload s1.now)).setPort a.port
      { (s1.port a.port).heard a.p.payload s1.now with feat := s1.linkFeat (beAt a.p.payload 24 8) }).portTo a.port .keying).sendKey a.port) := by
  have harm : exec .hello s = execHello s := rfl
  have hlive : (PortSt.training == .down || PortSt.training == .uncabled) = false := rfl
  simp only [harm, execHello, htake, hlive, hok, hpass, htraining, Port.heard, Bool.not_true, Bool.false_eq_true, if_false]
  rfl
/-- The first HELLO waiting passes on an UP port. -/
theorem exec_hello_refreshes (hpass : s1.helloFails a.port a.p.payload = none) (hup : (s1.port a.port).st = .up) :
    exec .hello s = .next { (s1.setPort a.port ((s1.port a.port).heard a.p.payload s1.now)).setPort a.port
      { (s1.port a.port).heard a.p.payload s1.now with feat := s1.linkFeat (beAt a.p.payload 24 8), rtt := Config.rtt s1.fresh } with
      fresh := s1.fresh + 1 } := by
  have harm : exec .hello s = execHello s := rfl
  have hlive : (PortSt.up == .down || PortSt.up == .uncabled) = false := rfl
  simp only [harm, execHello, htake, hlive, hok, hpass, hup, Port.heard, Bool.not_true, Bool.false_eq_true, if_false]
  rfl
end
theorem State.takeDown_st (s : State) (k : Nat) (st : PortSt) : ((s.takeDown k st).port k).st = st := by
  obtain ⟨u, hserves, hu, -⟩ := s.takeDown_serves k st
  exact (hserves.port_st k).trans hu.st
/-- A key exchange that begins on a port sends on that port. -/
theorem State.sendKey_fixed (s : State) (k j : Nat) : ((s.sendKey k).port j).fixed = (s.port j).fixed :=
  (State.sendOn_serves { s with fresh := s.fresh + 1 } 12 k (s.keyPkt k) false).port_fixed j
/-- The first HELLO waiting passes: its port begins its key exchange or stays UP, and shows the peer. -/
theorem exec_hello_passes {s s1 : State} {a : Arrived}
    (htake : s.takeArrived (fun a => a.p.typ == 10 && !s.portSuspended a.port) = some (a, s1)) (hok : helloOk a.p.payload = true)
    (hpass : s1.helloFails a.port a.p.payload = none) (hst : (s1.port a.port).st = .training ∨ (s1.port a.port).st = .up) :
    ∃ t, exec .hello s = .next t ∧ (t.port a.port).st = (if (s1.port a.port).st = .training then .keying else .up)
      ∧ (t.port a.port).feat = s1.linkFeat (beAt a.p.payload 24 8) ∧ (t.port a.port).lastHello = s1.now
      ∧ (t.port a.port).peerCoord = ((s1.port a.port).heard a.p.payload s1.now).peerCoord := by
  obtain htraining | hup := hst
  · refine ⟨_, exec_hello_keys htake hok hpass htraining, ?_⟩
    have hfixed := State.sendKey_fixed (((s1.setPort a.port ((s1.port a.port).heard a.p.payload s1.now)).setPort a.port
      { (s1.port a.port).heard a.p.payload s1.now with feat := s1.linkFeat (beAt a.p.payload 24 8) }).portTo a.port .keying) a.port a.port
    rw [State.portTo_port, State.port_setPort] at hfixed
    rw [if_pos htraining]
    exact Port.fixed_peer hfixed
  · refine ⟨_, exec_hello_refreshes htake hok hpass hup, ?_⟩
    have hport := State.port_setPort (s1.setPort a.port ((s1.port a.port).heard a.p.payload s1.now)) a.port
      { (s1.port a.port).heard a.p.payload s1.now with feat := s1.linkFeat (beAt a.p.payload 24 8), rtt := Config.rtt s1.fresh }
    rw [if_neg (by rw [hup]; decide)]
    exact ⟨(congrArg Port.st hport).trans hup, congrArg Port.feat hport, congrArg Port.lastHello hport, (congrArg Port.peerCoord hport :)⟩

/-! ## Key exchanges and sessions (spec/09 R304, R310, spec/13 R449, R453, R454) -/

/-- A port with the keys that a shared secret gives. -/
def Port.keyedBy (x : Port) (z : BitVec 528) (own : BitVec 128) : Port :=
  { x with st := .up, keyed := true, txKey := (linkKey z own x.peerSerial).1, txSalt := (linkKey z own x.peerSerial).2, txCount := 0,
           rxKey := (linkKey z x.peerSerial own).1, rxSalt := (linkKey z x.peerSerial own).2, rxCount := 0 }
/-- A port that is brought up has its keys, whatever its notice then sends. -/
theorem State.bringUp_fixed (s : State) (k : Nat) :
    ((s.bringUp k).port k).fixed = ((s.port k).keyedBy (Config.sharedSecret s.fresh) s.fuses.serial).fixed := by
  unfold State.bringUp
  extract_lets x z tx rx u s0 s1 v s2
  have h2 : s2.port k = (s.port k).keyedBy (Config.sharedSecret s.fresh) s.fuses.serial := by
    show s1.port k = _
    rw [State.portTo_port]
    have h0 : s0.port k = _ := s.port_setPort k _
    rw [h0]
    rfl
  rw [← h2]
  split
  · exact (s2.notice_serves k true).port_fixed k
  · rfl
theorem State.oedSend_sessions (s : State) (n : Nat) (f : OedFrame) : (s.oedSend n f).oed.sessions = s.oed.sessions := by
  unfold State.oedSend
  split
  · rfl
  · rfl
theorem State.formSession_sessions (s : State) (port peer : Nat) (p : MeshPkt) :
    (s.formSession port peer p).oed.sessions = { peer := peer, z := Config.sharedSecret s.fresh } :: s.oed.sessions :=
  State.oedSend_sessions ..
section
variable {s s1 : State} {a : Arrived}
  (htake : s.takeArrived (fun a => a.p.typ == 8 && !(s.portSuspended a.port && (s.port a.port).st == .keying)) = some (a, s1))
include htake

theorem exec_mgmt_keyExchange (hport : a.port < 12) (hkeying : (s1.port a.port).st = .keying) (chain own sig : Bool) :
    exec (.mgmt (.keyExchange chain own sig)) s = .next (if chain && own && sig then s1.bringUp a.port else s1.linkEvent a.port) := by
  have harm : exec (.mgmt (.keyExchange chain own sig)) s = execMgmt (.keyExchange chain own sig) s := rfl
  have hkey : (decide (a.port < 12) && (s1.port a.port).st == .keying) = true := by simp [hport, hkeying]
  simp only [harm, execMgmt, htake, hkey, Bool.not_true, Bool.false_eq_true, if_false]
  split
  · rfl
  · rfl
theorem exec_mgmt_oedSession {peer : Nat} (hport : 12 < a.port) (hnew : ∀ e ∈ s1.oed.sessions, e.peer ≠ peer) :
    exec (.mgmt (.oedSession peer true true true)) s = .next (s1.formSession (a.port - 13) peer a.p) := by
  have harm : exec (.mgmt (.oedSession peer true true true)) s = execMgmt (.oedSession peer true true true) s := rfl
  have hkey : (decide (a.port < 12) && (s1.port a.port).st == .keying) = false := by simp [Nat.not_lt.mpr (Nat.le_of_lt hport)]
  have hany : s1.oed.sessions.any (fun e => e.peer == peer) = false := by simpa using hnew
  simp only [harm, execMgmt, htake, hkey, Bool.false_eq_true, if_false]
  exact if_pos (by simp [hport, hany])
end

end Sys2Proof.Machine

open Sys2Proof Sys2Proof.Machine

/-- Settles O20: what a port sends, on its own account or for a notice, leaves its state, its keys and its peer as they are; a port that goes down has no link from then on, since notices go out on UP ports; and a packet made now that waits alone leaves at once. That a slot is in lock when all its sync headers are good is log 124's reading. -/
theorem portsComeUp : Obligations.PortsComeUp := by
  unfold Obligations.PortsComeUp
  refine ⟨fun k s hk => ?_, fun k s hk hsuspended hqueue hmay hst => ?_, fun s s1 a htake => ?_, fun s s1 a htake => ?_,
    fun k s hkeying hsuspended hqueue hmay => ?_⟩
  · intro x c
    refine ⟨fun hdown hcabled hdump hstart hsuspended => exec_laneLock hk hdown hcabled hdump hstart hsuspended,
      fun slot sync hdown huncabled hslot hunlocked hsome hgood => exec_blockLock hk hdown huncabled hslot hunlocked hsome hgood,
      fun lost hdown huncabled => ⟨fun hn => ?_, fun hn htraining => ?_⟩,
      fun marks hdown huncabled hlegal hchange => exec_alignmentMarker hk hdown huncabled hlegal hchange,
      fun slot huncabled hglow => exec_alignmentMarkerSend hk huncabled hglow⟩
    · have hport := s.unlock_unlinked k (x.supervised lost)
      obtain ⟨hpos, hlanes⟩ := hport.lanes rfl
      refine ⟨_, (exec_portLossOfLock hk lost).trans (congrArg _ (State.loseLanes_supervised hdown huncabled hn)), hport.st, hport.keyed, hpos, hlanes,
        hport.queue, s.unlock_chip k _⟩
    · rw [exec_portLossOfLock hk, State.loseLanes_others hdown huncabled hn htraining]
  · obtain ⟨w, hsent⟩ := State.enqueue_control (inp := 12) (stomp := false) hqueue rfl hmay rfl (.inl rfl)
    exact ⟨_, w, exec_helloSend hk hsuspended hst, hsent⟩
  · intro l x hok hdown huncabled
    refine ⟨fun q hfails => ⟨_, exec_hello_fails htake hok hdown huncabled hfails, ?_⟩, fun hpass hst => exec_hello_passes htake hok hpass hst⟩
    split
    · exact State.takeDown_st ..
    · rw [State.portTo_port]
  · refine ⟨fun chain own sig hport hkeying => ?_, fun peer hport hnew => ⟨_, exec_mgmt_oedSession htake hport hnew, State.formSession_sessions ..⟩⟩
    intro z peer
    have hexec := exec_mgmt_keyExchange htake hport hkeying chain own sig
    refine ⟨fun ⟨hchain, hown, hsig⟩ => ?_, fun hnot => ?_⟩
    · subst hchain hown hsig
      have hfixed := s1.bringUp_fixed a.port
      obtain ⟨hup, -⟩ := Port.fixed_peer hfixed
      exact ⟨_, hexec, hup, Port.fixed_keys hfixed⟩
    · rw [hexec, if_neg (by simpa [and_assoc] using hnot)]
  · obtain ⟨w, hsent⟩ := State.enqueue_control (s := { s with fresh := s.fresh + 1 }) (inp := 12) (stomp := false) hqueue rfl hmay rfl (.inr rfl)
    exact ⟨_, w, exec_keyingRetry hkeying hsuspended, hsent⟩
end

section
/-! SUPPORT. Steps of a partition: the step of a tag, what sending, telling and memory operations leave of steps and floes, and how steps complete, move to another attempt and fail (spec/10 R326, R327, R346 to R348, R353, R357). -/

namespace Sys2Proof.Machine

/-! ## What changes the router alone -/

/-- What may touch the router alone answers the state with another router. -/
theorem Touch.exists_setRouter {s t : State} (h : Touch 0x40000 s t) : ∃ r, t = s.setRouter r := by
  refine ⟨t.router, ?_⟩
  obtain ⟨hvariant, hstraps, hfloes, hsignals, hparts, hrejects, hsteer, hmem, hspBad, hpoison, heps, hcmdq, hmsis, hi3c, hucie, hnmcs, hnm, hcxls, -,
    hchips, hoed, hsled, htime, htherms, hpower, hrst, hras, hsec, hfuses, hflash, hproc, hjtag, hhdrs, hlatches, hstaged, hfresh, hpending, -, -⟩ := h
  cases s
  cases t
  simp only [State.setRouter, State.mk.injEq, true_and]
  exact ⟨hvariant rfl, hstraps rfl, hfloes rfl, hsignals rfl, hparts rfl, hrejects rfl, hsteer rfl, hmem rfl, hspBad rfl, hpoison rfl, heps rfl, hcmdq rfl,
    hmsis rfl, hi3c rfl, hucie rfl, hnmcs rfl, hnm rfl, hcxls rfl, hchips rfl, hoed rfl, hsled rfl, htime rfl, htherms rfl, hpower rfl, hrst rfl,
    hras rfl, hsec rfl, hfuses rfl, hflash rfl, hproc rfl, hjtag rfl, hhdrs rfl, hlatches rfl, hstaged rfl, hfresh rfl, hpending rfl⟩
theorem State.around_eq (s : State) (p : Nat) (t : Step) (kind att reason : Nat) : ∃ r, s.around p t kind att reason = s.setRouter r :=
  (State.around_touch (Sub.refl _) s p t kind att reason (.refl _ s)).exists_setRouter
theorem State.unbindAdd_eq (s : State) (t : Step) : ∃ r, s.unbindAdd t = s.setRouter r :=
  (State.unbindAdd_touch (Sub.refl _) s t (.refl _ s)).exists_setRouter
theorem State.sendTo_eq (s : State) (e : Nat) (q : MeshPkt) (stomp : Bool) : ∃ r, s.sendTo e q stomp = s.setRouter r :=
  (State.sendTo_touch (Sub.refl _) s e q stomp (.refl _ s)).exists_setRouter
theorem State.passDone_eq (s : State) (p : Nat) (t : Step) : ∃ r, s.passDone p t = s.setRouter r :=
  (State.passDone_touch (Sub.refl _) s p t (.refl _ s)).exists_setRouter

/-! ## Updates for each element of a list -/

/-- What every update leaves, all of them together leave. -/
theorem State.each_keeps {α β : Type} {v : State → β} {op : State → α → State} (h : ∀ s x, v (op s x) = v s) (l : List α) (s : State) :
    v (s.each l op) = v s := by
  induction l generalizing s with
  | nil => rfl
  | cons x r ih => exact (ih (op s x)).trans (h s x)

/-- What an update of one floe leaves of that floe, it leaves of every floe. -/
theorem State.setFloe_keeps {β : Type} {π : Floe → β} {s : State} {f : Nat} {x : Floe} (h : π x = π (s.floe f)) (g : Nat) :
    π ((s.setFloe f x).floe g) = π (s.floe g) := by
  by_cases hg : g = f
  · rw [hg, State.floe_setFloe, h]
  · rw [State.floe_setFloe_ne _ _ hg]

/-! ## The step of a tag (spec/10 R317, R318) -/

theorem State.part_of_parts {s t : State} (h : t.parts = s.parts) (p : Nat) : t.part p = s.part p := by rw [State.part, State.part, h]
theorem State.floe_of_floes {s t : State} (h : t.floes = s.floes) (f : Nat) : t.floe f = s.floe f := by rw [State.floe, State.floe, h]
theorem State.stepOf_of_steps {s t : State} {p : Nat} (h : (t.part p).steps = (s.part p).steps) (tag : Nat) : t.stepOf p tag = s.stepOf p tag := by
  rw [State.stepOf, State.stepOf, h]
theorem State.stepOf_of_parts {s t : State} (h : t.parts = s.parts) (p tag : Nat) : t.stepOf p tag = s.stepOf p tag :=
  State.stepOf_of_steps (by rw [State.part_of_parts h]) tag
theorem State.tag_of_stepOf {s : State} {p tag : Nat} {t : Step} (h : s.stepOf p tag = some t) : t.tag = tag := by
  simpa using List.find?_some h
/-- The steps of a partition, one of them replaced. -/
def replaceStep (l : List Step) (t : Step) : List Step := l.map (fun u => if u.tag == t.tag then t else u)
theorem State.putStep_part (s : State) (p : Nat) (t : Step) : (s.putStep p t).part p = { s.part p with steps := replaceStep (s.part p).steps t } :=
  State.part_setPart ..
theorem find?_replaceStep {l : List Step} {t u : Step} (h : l.find? (fun v => v.tag == u.tag) = some t) :
    (replaceStep l u).find? (fun v => v.tag == u.tag) = some u := by
  induction l with
  | nil => cases h
  | cons v r ih =>
    rw [replaceStep, List.map_cons]
    by_cases hv : (v.tag == u.tag) = true
    · rw [if_pos hv, List.find?_cons_of_pos (by simp)]
    · rw [if_neg hv, List.find?_cons, eq_false_of_ne_true hv]
      exact ih (by rwa [List.find?_cons, eq_false_of_ne_true hv] at h)
/-- A step that replaces the step of its tag is the step of its tag. -/
theorem State.stepOf_putStep {s : State} {p tag : Nat} {t u : Step} (h : s.stepOf p tag = some t) (hu : u.tag = tag) :
    (s.putStep p u).stepOf p tag = some u := by
  subst hu
  rw [State.stepOf, State.putStep_part]
  exact find?_replaceStep h
theorem State.dropStep_part (s : State) (p tag : Nat) :
    (s.dropStep p tag).part p = { s.part p with steps := (s.part p).steps.filter (fun u => u.tag != tag) } := State.part_setPart ..
theorem State.stepOf_eq_none_of_filter {s t : State} {p tag : Nat} (h : (t.part p).steps = (s.part p).steps.filter (fun u => u.tag != tag)) :
    t.stepOf p tag = none := by
  rw [State.stepOf, h, List.find?_eq_none]
  intro u hu
  simpa using (List.mem_filter.mp hu).2

/-! ## PAUSE is answered (spec/10 R349) -/

theorem State.respond_parts (s : State) (c : GwyPkt) (st det arg0 arg1 : Nat) (pl : List Byte) : (s.respond c st det arg0 arg1 pl).parts = s.parts :=
  (State.respond_touch (Sub.refl _) s c st det arg0 arg1 pl (.refl _ s)).parts rfl
theorem State.answerPause_part (s : State) (p st det arg : Nat) : (s.answerPause p st det arg).part p = { s.part p with pausing := false } := by
  rw [State.answerPause]
  split
  · rw [State.part_of_parts (State.respond_parts ..)]
    exact State.part_setPart ..
  · exact State.part_setPart ..
/-- The answer to a PAUSE changes nothing else of the partition. -/
theorem State.pauseCheck_part (s : State) (p : Nat) : ∃ pausing, (s.pauseCheck p).part p = { s.part p with pausing := pausing } := by
  rw [State.pauseCheck]
  split
  · exact ⟨false, State.answerPause_part ..⟩
  · exact ⟨(s.part p).pausing, rfl⟩
theorem State.pauseCheck_floes (s : State) (p : Nat) : (s.pauseCheck p).floes = s.floes :=
  (State.pauseCheck_touch (Sub.refl _) s p (.refl _ s)).floes rfl

/-! ## Tags of a floe (spec/06 R176, R177) -/

theorem Floe.endReaders_eq (x : Floe) (l : List Nat) : x.endReaders l = { x with tags := (x.endReaders l).tags } := by
  induction l generalizing x with
  | nil => rfl
  | cons t r ih => exact ih _
theorem Floe.endWriters_eq (x : Floe) (l : List Nat) : x.endWriters l = { x with tags := (x.endWriters l).tags } := by
  induction l generalizing x with
  | nil => rfl
  | cons t r ih => exact ih _
/-- The end of readers acts on the tags alone. -/
theorem Floe.endReaders_tags_congr {x y : Floe} (h : y.tags = x.tags) (l : List Nat) : (y.endReaders l).tags = (x.endReaders l).tags := by
  induction l generalizing x y with
  | nil => exact h
  | cons t r ih => exact ih (by simp only [Floe.setTag, Floe.tag, h])
theorem Floe.endWriters_tags_congr {x y : Floe} (h : y.tags = x.tags) (l : List Nat) : (y.endWriters l).tags = (x.endWriters l).tags := by
  induction l generalizing x y with
  | nil => exact h
  | cons t r ih => exact ih (by simp only [Floe.setTag, Floe.tag, h])

/-! ## Floes while memory is read and written (spec/08 R238, R244) -/

/-- A floe but for its record byte and the counts of its scratchpad's errors. -/
def Floe.unmarked (x : Floe) : Floe := { x with record := 0, spCe := 0, spUe := 0 }
/-- From s to t floes change in their record bytes and the counts of their scratchpads' errors at most. -/
structure MarksFloes (s t : State) : Prop where
  floe : ∀ f, (t.floe f).unmarked = (s.floe f).unmarked
theorem MarksFloes.refl (s : State) : MarksFloes s s := ⟨fun _ => rfl⟩
theorem MarksFloes.trans {s t u : State} (h : MarksFloes s t) (k : MarksFloes t u) : MarksFloes s u := ⟨fun f => (k.floe f).trans (h.floe f)⟩
/-- The same, the later change first. -/
theorem MarksFloes.after {s t u : State} (k : MarksFloes t u) (h : MarksFloes s t) : MarksFloes s u := h.trans k
theorem MarksFloes.of_floes {s t : State} (h : t.floes = s.floes) : MarksFloes s t := ⟨fun f => by rw [State.floe_of_floes h]⟩
/-- Floes are not touched afterwards. -/
theorem MarksFloes.frame {s t u : State} (h : MarksFloes s t) (k : u.floes = t.floes) : MarksFloes s u := h.trans (.of_floes k)
theorem MarksFloes.ite {s t u : State} {c : Prop} [Decidable c] (h : MarksFloes s t) (k : MarksFloes s u) : MarksFloes s (if c then t else u) := by
  split
  · exact h
  · exact k
theorem MarksFloes.each {α : Type} {op : State → α → State} (h : ∀ s x, MarksFloes s (op s x)) (l : List α) (s : State) : MarksFloes s (s.each l op) :=
  ⟨fun f => State.each_keeps (v := fun s => (s.floe f).unmarked) (fun s x => (h s x).floe f) l s⟩
theorem MarksFloes.setFloe {s : State} {f : Nat} {x : Floe} (h : x.unmarked = (s.floe f).unmarked) : MarksFloes s (s.setFloe f x) := ⟨State.setFloe_keeps h⟩
theorem MarksFloes.tags {s t : State} (h : MarksFloes s t) (f : Nat) : (t.floe f).tags = (s.floe f).tags := (congrArg Floe.tags (h.floe f) :)
theorem MarksFloes.stream {s t : State} (h : MarksFloes s t) (f : Nat) (st : Stream) : t.stream f st = s.stream f st := by
  cases st
  · exact (congrArg Floe.fwd (h.floe f) :)
  · exact (congrArg Floe.bwd (h.floe f) :)
  · exact (congrArg Floe.upd (h.floe f) :)

theorem State.setRecord_marksFloes (s : State) (f bit : Nat) : MarksFloes s (s.setRecord f bit) := .setFloe rfl
theorem State.recordNf_marksFloes (s : State) (f : Nat) : MarksFloes s (s.recordNf f) := by
  obtain h | h := s.recordNf_cases f
  · rw [h]; exact .refl s
  · rw [h]; exact s.setRecord_marksFloes f 0
theorem State.recordLine_marksFloes (s : State) (who : Option Nat) (a : Nat) : MarksFloes s (s.recordLine who a) := by
  unfold State.recordLine
  split
  · exact s.recordNf_marksFloes _
  · split
    · split
      · exact s.recordNf_marksFloes _
      · exact .refl s
    · exact .refl s
theorem State.raise_marksFloes (s : State) (die page bit : Nat) : MarksFloes s (s.raise die page bit) :=
  .of_floes ((State.raise_touch (Sub.refl _) s die page bit (.refl _ s)).floes rfl)
theorem State.memError_marksFloes (s : State) (b : Nat) : MarksFloes s (s.memError b) :=
  .of_floes ((State.memError_touch (Sub.refl _) s b (.refl _ s)).floes rfl)
theorem State.countUe_marksFloes (s : State) (b : Nat) (read : Bool) : MarksFloes s (s.countUe b read) :=
  .of_floes ((State.countUe_touch (Sub.refl _) s b read (.refl _ s)).floes rfl)
theorem State.noteRetries_marksFloes (s : State) (errs : Errs) (b : Nat) : MarksFloes s (s.noteRetries errs b) :=
  .of_floes ((State.noteRetries_touch (Sub.refl _) s errs b (.refl _ s)).floes rfl)
theorem State.rasReport_marksFloes (s : State) (cls : Nat) : MarksFloes s (s.rasReport cls) := .of_floes rfl
theorem State.noteCe_marksFloes (s : State) (b : Nat) : MarksFloes s (s.noteCe b) := by
  unfold State.noteCe
  split
  · exact .after (State.rasReport_marksFloes ..) (.setFloe rfl)
  · exact .ite (.of_floes ((State.corrected_touch (Sub.refl _) s _ (.refl _ s)).floes rfl)) (.refl s)
theorem State.noteUe_marksFloes (s : State) (who : Option Nat) (patrol : Bool) (b : Nat) : MarksFloes s (s.noteUe who patrol b) := by
  unfold State.noteUe
  split
  · extract_lets f x s1 s2
    have h1 : MarksFloes s s1 := .setFloe rfl
    have h2 : MarksFloes s s2 := h1.frame rfl
    exact .after (State.memError_marksFloes ..) (.after (State.recordNf_marksFloes ..) (h2.trans (s2.raise_marksFloes ..)))
  · split
    · extract_lets s1 pg s2
      have h2 : MarksFloes s s2 := (s.countUe_marksFloes b true).trans (s1.raise_marksFloes ..)
      exact .after (State.memError_marksFloes ..) (.ite h2 (h2.trans (s2.recordLine_marksFloes who b)))
    · extract_lets k c s1
      split
      · exact .after (State.recordLine_marksFloes ..) (.of_floes rfl)
      · have h1 : MarksFloes s s1 := .ite (.refl s) (.after (State.raise_marksFloes ..) (.of_floes rfl))
        exact .after (State.memError_marksFloes ..) (h1.trans (s1.recordLine_marksFloes who b))
theorem State.noteUnit_marksFloes (s : State) (who : Option Nat) (errs : Errs) (b : Nat) : MarksFloes s (s.noteUnit who errs b) := by
  have h1 := s.noteRetries_marksFloes errs b
  unfold State.noteUnit
  exact .ite (h1.trans (State.noteUe_marksFloes ..)) (.ite (h1.trans (State.noteCe_marksFloes ..)) h1)
theorem State.failWrite_marksFloes (s : State) (who : Option Nat) (b : Nat) : MarksFloes s (s.failWrite who b) := by
  unfold State.failWrite
  split
  · exact .after (State.recordLine_marksFloes ..) (.after (State.raise_marksFloes ..) ((s.countUe_marksFloes b false).frame rfl))
  · exact (s.recordLine_marksFloes who b).frame rfl
theorem State.openUnit_marksFloes (s : State) (who : Option Nat) (errs : Errs) (a n b : Nat) : MarksFloes s (s.openUnit who errs a n b).1 := by
  have hretries := s.noteRetries_marksFloes errs b
  unfold State.openUnit
  extract_lets z whole s1 s2 _ s3
  split
  · split
    · have h1 : MarksFloes s s1 := .ite (.refl s) (s.noteUnit_marksFloes ..)
      exact h1.frame rfl
    · exact (s.noteUe_marksFloes (some (spFloe b)) false b).frame rfl
  · split
    · exact s.recordLine_marksFloes who b
    · split
      · exact .ite (.after (State.recordLine_marksFloes ..) (hretries.frame rfl)) (.ite (hretries.trans (s3.failWrite_marksFloes ..)) (hretries.frame rfl))
      · split
        · exact .after (State.failWrite_marksFloes ..) (hretries.trans (s3.noteUe_marksFloes ..))
        · split
          · exact hretries.trans (s3.failWrite_marksFloes ..)
          · exact s.noteUnit_marksFloes ..
theorem State.openUnits_marksFloes (s : State) (who : Option Nat) (errs : Errs) (a n : Nat) (l : List Nat) :
    MarksFloes s (s.openUnits who errs a n l).1 := by
  induction l generalizing s with
  | nil => exact .refl s
  | cons b r ih => exact (s.openUnit_marksFloes who errs a n b).trans (ih _)
/-- A floe's write leaves of floes all but records and error counts. -/
theorem State.put_marksFloes (s : State) (f a : Nat) (l : List Byte) : MarksFloes s (s.put f a l) := by
  unfold State.put State.writeMem
  split
  · exact .of_floes rfl
  · exact (s.openUnits_marksFloes ..).trans (.ite (.refl _) (.of_floes rfl))
theorem State.markOcc_marksFloes (s : State) (f : Nat) (d : Desc) (br bc : Nat) (v : Bool) : MarksFloes s (s.markOcc f d br bc v) := by
  unfold State.markOcc
  exact .ite (s.put_marksFloes ..) (.refl s)
theorem State.markSums_marksFloes (s : State) (t : Step) : MarksFloes s (s.markSums t) := by
  unfold State.markSums
  exact .ite (.each (fun s b => s.markOcc_marksFloes ..) _ s) (.refl s)
end Sys2Proof.Machine
end

section
namespace Sys2Proof.Machine

/-! ## A ring step completes (spec/10 R326, R327) -/

theorem State.eachFloe_ring {t : Step} (h : t.kind.isTree = false) (s : State) (g : Floe → Floe) :
    s.eachFloe t g = s.setFloe t.floe (g (s.floe t.floe)) := by
  rw [State.eachFloe, Step.floes, h]; rfl
/-- A ring step with all its bytes counted: its sums are marked, its writer ends and it is complete. -/
def State.completeStep (s : State) (p : Nat) (t : Step) : State :=
  ((s.markSums t).setFloe t.floe (((s.markSums t).floe t.floe).endWriters [t.tagDst])).putStep p { t with complete := true }
theorem exec_collStepComplete {s : State} {p tag : Nat} {t : Step} (hstep : s.stepOf p tag = some t) (hring : t.kind.isTree = false)
    (hopen : t.complete = false) (hkept : t.abandoned = false) (hcounted : t.counted = true) :
    exec (.collStepComplete p tag) s = .next (if t.group.n ≤ 1 then (s.completeStep p t).closeStep p { t with complete := true }
      else (s.completeStep p t).passDone p { t with complete := true }) := by
  have harm : exec (.collStepComplete p tag) s = execCollStepComplete p tag s := rfl
  rw [harm, execCollStepComplete, hstep]
  exact if_neg (by simp [hring, hopen, hkept, hcounted])
theorem State.completeStep_stepOf {s : State} {p tag : Nat} {t : Step} (h : s.stepOf p tag = some t) :
    (s.completeStep p t).stepOf p tag = some { t with complete := true } := by
  have htag : t.tag = tag := State.tag_of_stepOf h
  exact State.stepOf_putStep ((State.stepOf_of_parts ((State.markSums_touch (Sub.refl _) s t (.refl _ s)).parts rfl) p tag).trans h) htag
theorem State.completeStep_tags (s : State) (p : Nat) (t : Step) :
    ((s.completeStep p t).floe t.floe).tags = ((s.floe t.floe).endWriters [t.tagDst]).tags := by
  rw [State.completeStep, State.putStep, State.setPart_floe, State.floe_setFloe]
  exact Floe.endWriters_tags_congr ((s.markSums_marksFloes t).tags _) _
theorem State.closeStep_part (s : State) (p : Nat) (t : Step) : ∃ pausing, (s.closeStep p t).part p
    = { s.part p with steps := (s.part p).steps.filter (fun u => u.tag != t.tag), pausing := pausing } := by
  unfold State.closeStep
  extract_lets s1
  obtain ⟨r, hr⟩ := s1.unbindAdd_eq t
  obtain ⟨pausing, hpart⟩ := ((s1.unbindAdd t).dropStep p t.tag).pauseCheck_part p
  have h1 : s1.part p = s.part p := State.part_of_parts ((State.eachFloe_touch (Sub.refl _) s t _ (.refl _ s)).parts rfl) p
  exact ⟨pausing, by rw [hpart, State.dropStep_part, hr, State.setRouter_part, h1]⟩
theorem State.closeStep_tags {t : Step} (h : t.kind.isTree = false) (s : State) (p : Nat) :
    ((s.closeStep p t).floe t.floe).tags = ((s.floe t.floe).endReaders t.reads).tags := by
  rw [State.closeStep, State.floe_of_floes (State.pauseCheck_floes ..), State.dropStep, State.setPart_floe]
  obtain ⟨r, hr⟩ := State.unbindAdd_eq _ t
  rw [hr, State.setRouter_floe, State.eachFloe_ring h, State.floe_setFloe]

/-! ## A step moves to an attempt (spec/10 R347) -/

theorem State.report_waits {s : State} {t : Step} (h : t.childReports = none) (p : Nat) : s.report p t = s := by
  rw [State.report, h]
  cases t.mine <;> rfl
theorem Step.childReports_eq_none {t : Step} (hchilds : t.group.childs ≠ []) (hreports : t.reports = []) : t.childReports = none := by
  obtain ⟨c, r, hc⟩ := List.exists_cons_of_ne_nil hchilds
  rw [Step.childReports, hreports, hc, List.length_cons, List.range_succ_eq_map, List.mapM_cons]
  rfl
/-- What a ring step, or a verdict that waits for its children, sends in an attempt changes the router alone. -/
theorem State.originate_eq {t : Step} (h : t.kind.isTree = false ∨ t.childReports = none) (s : State) (p : Nat) : ∃ r, s.originate p t = s.setRouter r := by
  have hrun : ∀ (s : State) (e member off : Nat) (final : Bool) (l : List Byte), Touch 0x40000 s (s.sendRun p t e member off final l) :=
    fun s e member off final l => State.sendRun_touch (Sub.refl _) s p t e member off final l (.refl _ s)
  refine Touch.exists_setRouter ?_
  rw [State.originate]
  extract_lets g
  split
  · split
    · exact .refl _ s
    · exact hrun ..
  · exact hrun ..
  · split
    · exact .refl _ s
    · exact hrun ..
  · split
    · exact .refl _ s
    · exact hrun ..
  · exact State.each_touch (fun u _ hu => hu.trans (hrun u ..)) (.refl _ s)
  all_goals
    rename_i hkind
    rw [State.report_waits (h.resolve_left (by rw [hkind]; decide))]
    exact .refl _ s
/-- A step as attempt a of it begins. -/
def State.restarted (s : State) (t : Step) (a : Nat) : Step :=
  { t with attempt := a, counts := s.ownCounts t, doneHeld := false, reports := [], abandoned := false, begun := s.now, deadline := s.stepDeadline t.group }
theorem State.moveTo_stepOf {s : State} {p tag : Nat} {t : Step} (hstep : s.stepOf p tag = some t)
    (h : t.kind.isTree = false ∨ t.group.childs ≠ []) (a : Nat) : (s.moveTo p t a).stepOf p tag = some (s.restarted t a) := by
  unfold State.moveTo
  extract_lets t1 s1 s2
  have hsaw : (s.sawAttempt p t.tag t.serial a).parts = s.parts := (State.sawAttempt_touch (Sub.refl _) s p t.tag t.serial a (.refl _ s)).parts rfl
  have heach : s1.parts = ((s.sawAttempt p t.tag t.serial a).putStep p t1).parts := (State.eachFloe_touch (Sub.refl _) _ t _ (.refl _ _)).parts rfl
  have h1 : s1.stepOf p tag = some t1 := (State.stepOf_of_parts heach p tag).trans
    (State.stepOf_putStep ((State.stepOf_of_parts hsaw p tag).trans hstep) (State.tag_of_stepOf (t := t) hstep))
  obtain ⟨r, hr⟩ := s1.originate_eq (t := t1) (h.imp_right fun hchilds => Step.childReports_eq_none hchilds rfl) p
  have h2 : s2.stepOf p tag = some t1 := by rw [show s2 = _ from hr, ← h1]; rfl
  split
  · obtain ⟨r, hr⟩ := s2.passDone_eq p t1
    rw [hr]
    exact h2
  · exact h2
theorem exec_stepTimeout_replays {s : State} {p tag : Nat} {t : Step} (htag : tag < 0x10000) (hstep : s.stepOf p tag = some t) (hopen : t.isOpen = true)
    (hkept : t.abandoned = false) (hattempt : t.attempt < 3) :
    exec (.stepTimeout p tag) s = .next ((s.around p { t with attempt := t.attempt + 1 } 2 (t.attempt + 1) 0).moveTo p t (t.attempt + 1)) := by
  have harm : exec (.stepTimeout p tag) s = execStepTimeout p tag s := rfl
  rw [harm, execStepTimeout, if_neg (Nat.not_le.mpr htag), hstep]
  simp only [hopen, hkept, hattempt, Bool.not_true, Bool.or_self, Bool.false_eq_true, if_false, if_true]

/-! ## A step fails (spec/10 R348, R353) -/

theorem State.eventOwner_parts (s : State) (p code die : Nat) (pl : List Byte) : (s.eventOwner p code die pl).parts = s.parts :=
  (State.eventOwner_touch (Sub.refl _) s p code die pl (.refl _ s)).parts rfl
theorem State.eventOwner_floes (s : State) (p code die : Nat) (pl : List Byte) : (s.eventOwner p code die pl).floes = s.floes :=
  (State.eventOwner_touch (Sub.refl _) s p code die pl (.refl _ s)).floes rfl
theorem State.endSteers_part (s : State) (p tag : Nat) : ∃ steers, (s.endSteers p tag).part p = { s.part p with steers := steers } := by
  rw [State.endSteers]
  split
  · have hdrop : ∀ (u : State) g, (u.planDrop g).wakeWl.parts = u.parts := fun u g =>
      ((State.wakeWl_touch (Sub.refl _) _ (.refl _ _)).parts rfl).trans ((State.planDrop_touch (Sub.refl _) u g (.refl _ u)).parts rfl)
    exact ⟨_, (State.part_of_parts (hdrop ..) p).trans (State.part_setPart ..)⟩
  · exact ⟨_, rfl⟩
/-- A lost verdict leaves a partition that runs a step FAULTED. -/
theorem State.verdictLost_part (s : State) (p : Nat) (t : Step) : ∃ pausing, (s.verdictLost p t).part p
    = { s.part p with st := if s.inStep p then .faulted else (s.part p).st, pausing := pausing } := by
  rw [State.verdictLost, State.part_of_parts (State.eventOwner_parts ..)]
  by_cases h : s.inStep p = true
  · have hstop : (s.stopStreams p).part p = s.part p := State.part_of_parts ((State.stopStreams_touch (Sub.refl _) s p (.refl _ s)).parts rfl) p
    refine ⟨false, ?_⟩
    rw [if_pos h, if_pos h]
    refine (State.answerPause_part ..).trans ?_
    rw [State.part_setPart, hstop]
  · rw [if_neg h, if_neg h]
    exact ⟨(s.part p).pausing, rfl⟩
/-- What a step that fails leaves of a floe it runs on. -/
def Step.failFloe (t : Step) (reason : Nat) (x : Floe) : Floe :=
  let y := { x with record := setBit x.record 2 true, collFails := bump x.collFails, collLastFail := t.lastFail reason }
  if t.kind.isTree then y else if t.complete then y.endReaders t.reads else (y.endReaders t.reads).endWriters [t.tagDst]
theorem Step.failFloe_record {t : Step} (h : t.kind.isTree = false) (reason : Nat) (x : Floe) :
    (t.failFloe reason x).record = setBit x.record 2 true ∧ (t.failFloe reason x).collLastFail = t.lastFail reason := by
  rw [Step.failFloe, h, if_neg Bool.false_ne_true]
  split
  · rw [Floe.endReaders_eq]
    exact ⟨rfl, rfl⟩
  · rw [Floe.endWriters_eq, Floe.endReaders_eq]
    exact ⟨rfl, rfl⟩
/-- A step leaves its partition's list and is kept with those gone. -/
def State.loseStep (s : State) (p : Nat) (t : Step) : State :=
  let s1 := ((s.unbindAdd t).freeRreg t).dropStep p t.tag
  s1.setPart p { s1.part p with gone := t :: (s1.part p).gone }
theorem State.loseStep_part (s : State) (p : Nat) (t : Step) : (s.loseStep p t).part p
    = { s.part p with steps := (s.part p).steps.filter (fun u => u.tag != t.tag), gone := t :: (s.part p).gone } := by
  have hfree : ((s.unbindAdd t).freeRreg t).part p = s.part p :=
    State.part_of_parts ((State.freeRreg_touch (m := 0x40004) ((Sub.refl _).of rfl) _ t (State.unbindAdd_touch ((Sub.refl _).of rfl) s t (.refl _ s))).parts rfl) p
  rw [State.loseStep, State.part_setPart, State.dropStep_part, hfree]
/-- A step fails and its owner is told; what a lost verdict does comes after. -/
def State.reportFailure (s : State) (p : Nat) (t : Step) (reason : Nat) : State :=
  let s1 := (s.eachFloe t (t.failFloe reason)).loseStep p t
  (if t.kind.isTree then s1.endSteers p t.tag else s1).eventOwner p 0x05 0xFF (t.failEvent reason)
theorem State.failStep_eq (s : State) (p : Nat) (t : Step) (reason : Nat) : s.failStep p t reason false
    = if t.kind = .commit then (s.reportFailure p t reason).verdictLost p t else s.reportFailure p t reason := by
  rw [State.failStep, if_neg Bool.false_ne_true]
  change (match t.kind with
    | .commit => (s.reportFailure p t reason).verdictLost p t
    | .allgather | .rotate | .reduceScatter | .allreduce | .permute | .norm | .barrier => s.reportFailure p t reason) = _
  cases t.kind <;> rfl
theorem State.reportFailure_part (s : State) (p : Nat) (t : Step) (reason : Nat) : ∃ steers, (s.reportFailure p t reason).part p
    = { s.part p with steps := (s.part p).steps.filter (fun u => u.tag != t.tag), gone := t :: (s.part p).gone, steers := steers } := by
  have hfloe : (s.eachFloe t (t.failFloe reason)).part p = s.part p := State.part_of_parts ((State.eachFloe_touch (Sub.refl _) s t _ (.refl _ s)).parts rfl) p
  rw [State.reportFailure, State.part_of_parts (State.eventOwner_parts ..)]
  split
  · obtain ⟨steers, hsteers⟩ := State.endSteers_part ((s.eachFloe t (t.failFloe reason)).loseStep p t) p t.tag
    exact ⟨steers, by rw [hsteers, State.loseStep_part, hfloe]⟩
  · exact ⟨_, by rw [State.loseStep_part, hfloe]⟩
/-- What a step that fails leaves of its partition. -/
theorem State.failStep_part (s : State) (p : Nat) (t : Step) (reason : Nat) : ∃ steers pausing, (s.failStep p t reason false).part p
    = { s.part p with steps := (s.part p).steps.filter (fun u => u.tag != t.tag), gone := t :: (s.part p).gone, steers := steers, pausing := pausing,
                      st := if t.kind = .commit ∧ s.inStep p = true then .faulted else (s.part p).st } := by
  obtain ⟨steers, hpart⟩ := s.reportFailure_part p t reason
  rw [State.failStep_eq]
  by_cases hkind : t.kind = .commit
  · obtain ⟨pausing, hlost⟩ := (s.reportFailure p t reason).verdictLost_part p t
    have hin : (s.reportFailure p t reason).inStep p = s.inStep p := by rw [State.inStep, State.inStep, hpart]
    exact ⟨steers, pausing, by simp only [hkind, if_true, hlost, hin, hpart, true_and]⟩
  · exact ⟨steers, (s.part p).pausing, by rw [if_neg hkind, if_neg (fun h => hkind h.1), hpart]⟩
theorem State.freeRreg_record (s : State) (t : Step) (f : Nat) :
    (((s.freeRreg t).floe f).record, ((s.freeRreg t).floe f).collLastFail) = ((s.floe f).record, (s.floe f).collLastFail) := by
  refine State.each_keeps (v := fun s => ((s.floe f).record, (s.floe f).collLastFail)) (fun s i => ?_) t.issues s
  exact State.setFloe_keeps (π := fun x => (x.record, x.collLastFail)) (by cases i.stream <;> rfl) f
/-- The floe of a ring step that fails records it. -/
theorem State.failStep_record {t : Step} (h : t.kind.isTree = false) (s : State) (p reason : Nat) :
    (((s.failStep p t reason false).floe t.floe).record, ((s.failStep p t reason false).floe t.floe).collLastFail)
      = (setBit (s.floe t.floe).record 2 true, t.lastFail reason) := by
  have hkind : t.kind ≠ .commit := fun hk => by rw [hk] at h; cases h
  rw [State.failStep_eq, if_neg hkind, State.reportFailure, State.floe_of_floes (State.eventOwner_floes ..), h, if_neg Bool.false_ne_true,
    State.loseStep, State.setPart_floe, State.dropStep, State.setPart_floe, State.freeRreg_record]
  obtain ⟨r, hr⟩ := State.unbindAdd_eq (s.eachFloe t (t.failFloe reason)) t
  rw [hr, State.setRouter_floe, State.eachFloe_ring h, State.floe_setFloe]
  obtain ⟨hrecord, hlast⟩ := Step.failFloe_record h reason (s.floe t.floe)
  rw [hrecord, hlast]
theorem exec_stepTimeout_fails {s : State} {p tag : Nat} {t : Step} (htag : tag < 0x10000) (hstep : s.stepOf p tag = some t) (hopen : t.isOpen = true)
    (hkept : t.abandoned = false) (hattempt : 3 ≤ t.attempt) :
    exec (.stepTimeout p tag) s = .next (((s.around p t 3 t.attempt 1).failStep p t 1 false).pauseCheck p) := by
  have harm : exec (.stepTimeout p tag) s = execStepTimeout p tag s := rfl
  rw [harm, execStepTimeout, if_neg (Nat.not_le.mpr htag), hstep]
  simp only [hopen, hkept, Nat.not_lt.mpr hattempt, Bool.not_true, Bool.or_self, Bool.false_eq_true, if_false]

/-! ## The timer of a mirror transfer (spec/10 R357) -/

theorem exec_stepTimeout_mirror {s : State} {p f : Nat} (h : s.floePart f = some p) :
    exec (.stepTimeout p (0x10000 + f)) s = .next (s.mirrorTimeout p f) := by
  have harm : exec (.stepTimeout p (0x10000 + f)) s = execStepTimeout p (0x10000 + f) s := rfl
  rw [harm, execStepTimeout, if_pos (Nat.le_add_right ..), Nat.add_sub_cancel_left, if_pos h]
/-- The next attempt of a mirror transfer: it is announced and its packets go again, but it is not yet told as sent. -/
def State.resendMirror (s : State) (p f : Nat) : State :=
  let m := (s.floe f).mirTx
  let s1 := s.setFloe f { s.floe f with mirTx := { m with attempt := m.attempt + 1, told := false } }
  (s1.sendTo (s1.buddy p) (s1.mirrorPkt p 5 1 f 0 (m.attempt + 1) 0 (mirrorPayload 2 (m.attempt + 1) 0 f m.sent)) false).each m.runs
    (fun s r => s.sendMirror p f r)
theorem State.resendMirror_eq (s : State) (p f : Nat) : ∃ r, s.resendMirror p f
    = (s.setFloe f { s.floe f with mirTx := { (s.floe f).mirTx with attempt := (s.floe f).mirTx.attempt + 1, told := false } }).setRouter r :=
  (State.each_touch (l := (s.floe f).mirTx.runs) (fun v x hv => hv.trans (State.sendMirror_touch (Sub.refl _) v p f x (.refl _ v)))
    (State.sendTo_touch (Sub.refl _) _ _ _ _ (.refl 0x40000 _))).exists_setRouter
section
variable {s : State} {f : Nat} (hsent : (s.floe f).mirTx.sent ≠ 0)
include hsent
theorem State.tellMirror_mirTx (htold : (s.floe f).mirTx.told = false) (p : Nat) :
    ((s.tellMirror p f).floe f).mirTx = { (s.floe f).mirTx with told := true, deadline := s.now + 200000#64 } := by
  rw [State.tellMirror, if_neg (by simp [hsent, htold])]
  obtain ⟨r, hr⟩ := State.sendTo_eq _ _ _ _
  rw [hr, State.setRouter_floe, State.floe_setFloe]
variable (htold : (s.floe f).mirTx.told = true) (hconfirmed : (s.floe f).mirTx.confirmed = false) (hfailed : (s.floe f).mirTx.failed = false)
include htold hconfirmed hfailed
theorem State.mirrorTimeout_resends (hattempt : (s.floe f).mirTx.attempt < 3) (p : Nat) : ((s.mirrorTimeout p f).floe f).mirTx
    = { (s.floe f).mirTx with attempt := (s.floe f).mirTx.attempt + 1, deadline := s.now + 200000#64 } := by
  have hopen : s.mirrorTimeout p f = (s.resendMirror p f).tellMirror p f :=
    (if_neg (by simp [hsent, htold, hconfirmed, hfailed])).trans (if_neg (Nat.not_le.mpr hattempt))
  obtain ⟨r, hr⟩ := s.resendMirror_eq p f
  have hx : ((s.resendMirror p f).floe f).mirTx = { (s.floe f).mirTx with attempt := (s.floe f).mirTx.attempt + 1, told := false } := by
    rw [hr, State.setRouter_floe, State.floe_setFloe]
  have hnow : (s.resendMirror p f).now = s.now := by rw [hr]; rfl
  rw [hopen, State.tellMirror_mirTx (by rw [hx]; exact hsent) (by rw [hx]), hx, hnow]
  simp only [htold]
theorem State.mirrorTimeout_fails (hattempt : 3 ≤ (s.floe f).mirTx.attempt) (p : Nat) : s.mirrorTimeout p f = s.failMirror f := by
  rw [State.mirrorTimeout]
  simp only [hsent, htold, hconfirmed, hfailed, hattempt, decide_false, Bool.not_true, Bool.or_self, Bool.false_eq_true, if_false, if_true]
end

/-! ## SLOW goes out again (spec/10 R346) -/

theorem exec_slowResend {s : State} {p tag : Nat} {t : Step} (hstep : s.stepOf p tag = some t) (hopen : t.isOpen = true)
    (hslow : s.stepSlowed p t = true ∨ (∃ f ∈ t.floes, (s.floe f).held = true) ∨ (s.part p).st = .paused) :
    exec (.slowResend p tag) s = .next (s.around p t 1 t.attempt 0) := by
  have harm : exec (.slowResend p tag) s = execSlowResend p tag s := rfl
  rw [harm, execSlowResend, hstep]
  refine if_pos ?_
  simpa [hopen, or_assoc] using hslow

end Sys2Proof.Machine

open Sys2Proof Sys2Proof.Machine

/-- Settles O25: what a step sends changes the router alone, so the step of its tag is the one put in place for the next attempt; a step that fails leaves its partition's list and joins those gone, and what follows its failure touches neither. -/
theorem ringStepsCompleteOrReplay : Obligations.RingStepsCompleteOrReplay := by
  unfold Obligations.RingStepsCompleteOrReplay
  refine ⟨fun p tag s t hstep hring hopen hkept hcounted => ?_, fun p s => ⟨fun tag t htag hstep hopen hkept => ⟨fun hattempt h => ?_, fun hattempt => ?_⟩,
    fun f hf => ?_, fun tag t hstep hopen hslow => exec_slowResend hstep hopen hslow⟩⟩
  · intro x
    refine ⟨_, exec_collStepComplete hstep hring hopen hkept hcounted, fun hn => ?_, fun hn => ?_⟩
    · rw [if_neg (Nat.not_le.mpr hn)]
      obtain ⟨r, hr⟩ := (s.completeStep p t).passDone_eq p { t with complete := true }
      rw [hr]
      exact ⟨State.completeStep_stepOf hstep, State.completeStep_tags s p t⟩
    · rw [if_pos hn]
      obtain ⟨pausing, hpart⟩ := (s.completeStep p t).closeStep_part p { t with complete := true }
      refine ⟨State.stepOf_eq_none_of_filter (s := s.completeStep p t) (by rw [hpart, State.tag_of_stepOf hstep]), ?_⟩
      rw [State.closeStep_tags (t := { t with complete := true }) hring]
      exact Floe.endReaders_tags_congr (State.completeStep_tags s p t) _
  · refine ⟨_, exec_stepTimeout_replays htag hstep hopen hkept hattempt, ?_⟩
    obtain ⟨r, hr⟩ := s.around_eq p { t with attempt := t.attempt + 1 } 2 (t.attempt + 1) 0
    rw [hr, State.moveTo_stepOf (s := s.setRouter r) hstep h, State.restarted]
    simp only [hkept]
    rfl
  · refine ⟨_, exec_stepTimeout_fails htag hstep hopen hkept hattempt, ?_⟩
    obtain ⟨r, hr⟩ := s.around_eq p t 3 t.attempt 1
    rw [hr]
    obtain ⟨steers, pausing, hfail⟩ := (s.setRouter r).failStep_part p t 1
    obtain ⟨pausing', hpause⟩ := ((s.setRouter r).failStep p t 1 false).pauseCheck_part p
    rw [hfail, State.tag_of_stepOf hstep] at hpause
    refine ⟨State.stepOf_eq_none_of_filter (s := s) (by rw [hpause]; rfl), by rw [hpause]; exact List.mem_cons_self .., fun hring => ?_, fun hkind hin => ?_⟩
    · obtain ⟨hrecord, hlast⟩ := Prod.mk.inj ((s.setRouter r).failStep_record hring p 1)
      rw [State.floe_of_floes (State.pauseCheck_floes ..), hrecord, hlast]
      exact ⟨by simp [getLsbD_setBit_true], rfl⟩
    · rw [hpause]
      exact if_pos ⟨hkind, hin⟩
  · intro x hsent htold hconfirmed hfailed
    refine ⟨_, exec_stepTimeout_mirror hf, fun hattempt => State.mirrorTimeout_resends hsent htold hconfirmed hfailed hattempt p, fun hattempt => ?_⟩
    rw [State.mirrorTimeout_fails hsent htold hconfirmed hfailed hattempt, State.failMirror, State.floe_setFloe]
    exact ⟨rfl, by simp [getLsbD_setBit_true]⟩
end

section
/-! SUPPORT. SHIFTADD packets: a packet that is taken and fits its armed step, the sums of a chain, and the bytes that a delivery stores (spec/10 R326, R333 to R335, R337 to R340). -/

namespace Sys2Proof.Machine

/-! ## What passing packets leave -/

/-- A step that touches at most floes, the router, error counts and page headers leaves partitions and storage. -/
abbrev Passes (s t : State) : Prop := Touch 0x104040004 s t
section
variable {s t : State} (h : Passes s t)
include h
theorem Passes.good (hs : Claims.Good s) : Claims.Good t := by
  rw [Claims.Good, h.spBad rfl, h.poison rfl, h.nm rfl, h.cxls rfl]
  exact hs
theorem Passes.blank : t.blank = s.blank := by
  funext a
  rw [State.blank, State.blank, State.unitHolder, State.unitHolder]
  simp only [State.part_of_parts (h.parts rfl)]
theorem Passes.byte (a : Nat) : t.byte a = s.byte a := by
  rw [State.byte, State.byte, h.mem rfl, h.blank]
theorem Passes.fill (hs : Claims.Good s) (a n : Nat) : t.fill [] a n = s.fill [] a n := by
  rw [State.fill, State.fill, if_pos (State.allGood_of_good hs a), if_pos (State.allGood_of_good (h.good hs) a), State.bytes, State.bytes, h.mem rfl, h.blank]
theorem Passes.stepOf (p tag : Nat) : t.stepOf p tag = s.stepOf p tag := State.stepOf_of_parts (h.parts rfl) p tag
end
theorem Passes.sawAttempt (s : State) (p tag : Nat) (step : Word) (a : Nat) : Passes s (s.sawAttempt p tag step a) :=
  State.sawAttempt_touch ((Sub.refl 0x104040004).of rfl) s p tag step a (.refl _ s)
theorem Passes.passOn (s : State) (t : Step) (q : MeshPkt) (stomp : Bool) : Passes s (s.passOn t q stomp) := State.passOn_touch ((Sub.refl 0x104040004).of rfl) s t q stomp (.refl _ s)
theorem Passes.setRecord (s : State) (f bit : Nat) : Passes s (s.setRecord f bit) := State.setRecord_touch ((Sub.refl 0x104040004).of rfl) s f bit (.refl _ s)

/-! ## A packet that fits is used (spec/10 R324, R566) -/

theorem State.takePkt_eq_some {s s1 : State} {g : MeshPkt → Bool} {a : Arrived} (h : s.takePkt g = some (a, s1)) : g a.p = true ∧ Passes s s1 := by
  refine ⟨?_, State.takePkt_touch ((Sub.refl 0x104040004).of rfl) h (.refl _ s)⟩
  rw [State.takePkt, State.takeArrived, Option.map_eq_some_iff] at h
  obtain ⟨⟨b, r⟩, hfirst, hb⟩ := h
  obtain ⟨rfl, -⟩ := Prod.mk.inj hb
  exact (takeFirst_eq_some hfirst).1
theorem State.armedPkt_fits {s : State} {p : Nat} {t : Step} {q : MeshPkt} (hstep : s.stepOf p t.tag = some t) (hfits : Claims.Fits q t)
    (hkept : t.abandoned = false) (rime : Bool) :
    s.armedPkt p t q false rime = (s.sawAttempt p t.tag t.serial q.attempt).usePkt p t q false rime := by
  obtain ⟨hattempt, hmatch, hslow, hwithin, -⟩ := hfits
  have hstep0 : (s.sawAttempt p t.tag t.serial t.attempt).stepOf p t.tag = some t := ((Passes.sawAttempt ..).stepOf p t.tag).trans hstep
  rw [State.armedPkt]
  simp only [hkept, hmatch, hslow, hwithin, hattempt, hstep0, Nat.lt_irrefl, decide_false, Bool.or_self, Bool.not_true, Bool.false_eq_true, if_false,
    Option.getD_some]
theorem State.armedFor_eq_some {s : State} {p : Nat} {q : MeshPkt} {t : Step} (h : s.armedFor p q = some t) : s.stepOf p q.tag = some t := by
  rw [State.armedFor] at h
  split at h
  · rename_i u hu
    split at h
    · rw [hu, h]
    · cases h
  · cases h
/-- A SHIFTADD packet that fits its armed step is used. -/
theorem exec_shiftAdd {s s1 : State} {q : MeshPkt} {t : Step} (hfits : Claims.Fits q t) (harmed : Claims.Armed (fun q => q.typ == 2) s s1 q t)
    (htree : s1.tagUse q.part q.tag ≠ some .tree) (rime : Bool) : ∃ u, Passes s u ∧ u.stepOf q.part q.tag = some t
      ∧ exec (.shiftAdd rime) s = .next (u.usePkt q.part t q false rime) := by
  obtain ⟨⟨a, htake, rfl, hstomp⟩, hin, hmirror, htag, hstep, hkept⟩ := harmed
  obtain ⟨htyp, hpass⟩ := State.takePkt_eq_some htake
  have htyp : a.p.typ = 2 := by simpa using htyp
  have hof := State.armedFor_eq_some hstep
  have hsaw := Passes.sawAttempt s1 a.p.part t.tag t.serial a.p.attempt
  refine ⟨s1.sawAttempt a.p.part t.tag t.serial a.p.attempt, hpass.trans hsaw, (hsaw.stepOf _ _).trans hof, ?_⟩
  have harm : exec (.shiftAdd rime) s = execShiftAdd rime s := rfl
  obtain ⟨use, huse⟩ := Option.ne_none_iff_exists'.mp htag
  have hring : (use == TagUse.tree) = false := by
    rw [huse] at htree
    simpa using htree
  rw [harm, execShiftAdd, State.onPkt, htake, ← State.armedPkt_fits (by rwa [State.tag_of_stepOf hof]) hfits hkept]
  simp only [State.collPkt, hin, hmirror, huse, hring, htyp, hstep, hstomp, Bool.not_true, Bool.false_eq_true, if_false]
  rfl

/-! ## A delivery is stored (spec/10 R326) -/

theorem State.lostAt_of_isSp {a : Nat} (h : isSp a = true) (s : State) : s.lostAt a = false := by
  have hbase : spBase ≤ a := of_decide_eq_true (Bool.and_eq_true_iff.mp h).1
  have hhigh : ¬ a < 0x90000000000 := by
    rw [spBase] at hbase
    omega
  simp [State.lostAt, hhigh]
/-- The steps of a partition do not bear on what unlisted bytes read as. -/
theorem State.putStep_blank (s : State) (p : Nat) (t : Step) (a : Nat) : (s.putStep p t).blank a = s.blank a := by
  have hpart : ∀ q, ∃ l, (s.putStep p t).part q = { s.part q with steps := l } := fun q => by
    by_cases hq : q = p
    · exact ⟨_, by rw [hq, State.putStep_part]⟩
    · exact ⟨_, State.part_setPart_ne _ _ hq⟩
  have hheld : ∀ q, ((s.putStep p t).part q).held = (s.part q).held := fun q => by obtain ⟨l, hl⟩ := hpart q; rw [hl]; rfl
  have hholds : ∀ q, ((s.putStep p t).part q).holds a = (s.part q).holds a := fun q => by obtain ⟨l, hl⟩ := hpart q; rw [hl]; rfl
  have hclaim : ∀ q, ((s.putStep p t).part q).claimNo = (s.part q).claimNo := fun q => by obtain ⟨l, hl⟩ := hpart q; rw [hl]
  simp only [State.blank, State.unitHolder, hheld, hholds, hclaim]
theorem State.putStep_byte (s : State) (p : Nat) (t : Step) (a : Nat) : (s.putStep p t).byte a = s.byte a := by
  rw [State.byte, State.byte, State.putStep_blank]
  rfl
/-- Bytes delivered to a scratchpad are counted and stand at their place. -/
theorem State.deliver_stored {s u : State} (h : Passes s u) (hs : Claims.Good s) (hwf : Memory.wf s.mem = true) {p tag : Nat} {t : Step}
    (hstep : u.stepOf p tag = some t) (hopen : t.complete = false) {a : Nat} (ha : isSp a = true) (key n : Nat) (l : List Byte) :
    (u.deliver p t key n (fun s => s.put t.floe a l)).stepOf p tag = some (t.count key n)
      ∧ Claims.Stored a l s (u.deliver p t key n (fun s => s.put t.floe a l)) := by
  have hput : u.put t.floe a l = u.poke a l := State.put_of_allGood (State.allGood_of_good (h.good hs) a) (State.lostAt_of_isSp ha u) ..
  have hwfu : Memory.wf u.mem = true := h.wf hwf
  rw [State.deliver, hopen, if_neg Bool.false_ne_true, hput]
  have htag : t.tag = tag := State.tag_of_stepOf hstep
  refine ⟨State.stepOf_putStep (s := u.poke a l) hstep htag, fun i hi => ?_, fun b hb => ?_⟩
  · rw [State.putStep_byte, State.poke_byte_in hwfu (Nat.le_add_right ..) (Nat.add_lt_add_left hi a), Nat.add_sub_cancel_left,
      List.getD_eq_getElem?_getD, List.getElem?_eq_getElem hi]
    rfl
  · rw [State.putStep_byte, State.poke_byte_other hwfu (hb _ (List.mem_singleton_self _)), h.byte]

/-! ## Sums in passing (spec/10 R333 to R335) -/

theorem State.usePkt_adds {t : Step} (h : t.kind.typ = 2) (s : State) (p : Nat) (q : MeshPkt) (rime : Bool) : s.usePkt p t q false rime
    = if t.gathers q then (if t.up = q.member then s else s.copyOn t q false).deliver p t (q.offset / t.slice) q.payload.length
        (fun s => s.put t.floe (t.dDst.base + q.offset) q.payload)
      else s.addPkt p t q false rime := by
  rw [State.usePkt]
  split
  case h_3 | h_4 => rfl
  all_goals
    rename_i hkind
    rw [hkind] at h
    cases h
theorem Passes.copyOn (s : State) (t : Step) (q : MeshPkt) (stomp : Bool) : Passes s (s.copyOn t q stomp) := State.copyOn_touch ((Sub.refl 0x104040004).of rfl) s t q stomp (.refl _ s)
/-- A packet summed by an add unit that is fit, with good storage: it passes on, and the owner of the slice keeps the sum. -/
theorem State.addPkt_fit {s : State} (hs : Claims.Good s) {p : Nat} {t : Step} {q : MeshPkt} {unit : Nat} (hunit : t.addUnit = some unit)
    (hstep : s.stepOf p t.tag = some t) : ∃ u, Passes s u ∧ s.addPkt p t q false false
      = if q.offset / t.slice = t.group.self then u.deliver p t (q.offset / t.slice) q.payload.length
          (fun u => u.put t.floe (t.addDst q.offset) (addBlocks q.payload (s.fill [] (t.dSrc.base + q.offset) q.payload.length)).1)
        else u := by
  rw [State.addPkt]
  simp only [hunit, State.noteRange_of_allGood (State.allGood_of_good hs _), Bool.or_self, Bool.false_eq_true, if_false]
  generalize hu : State.setRouter _ _ = u
  have hpass : Passes s u := by
    rw [← hu]
    exact State.setRouter_touch ((Sub.refl 0x104040004).of rfl) _ _ (State.each_touch (fun v _ hv => State.countErr_touch ((Sub.refl 0x104040004).of rfl) v _ _ hv) (.refl _ s))
  have hof : u.stepOf p t.tag = some t := (hpass.stepOf p t.tag).trans hstep
  simp only [hof, Option.getD_some]
  by_cases hself : q.offset / t.slice = t.group.self
  · simp only [hself, ne_eq, not_true_eq_false, if_false, if_true]
    refine ⟨_, ?_, rfl⟩
    have hsent : ∀ b, Passes s (if t.kind == .allreduce then u.passOn t b false else u) := fun b => by
      split
      · exact hpass.trans (Passes.passOn ..)
      · exact hpass
    split
    · exact (hsent _).trans (Passes.setRecord ..)
    · exact hsent _
  · simp only [hself, ne_eq, not_false_eq_true, if_true, if_false]
    exact ⟨_, hpass.trans (Passes.passOn ..), rfl⟩

end Sys2Proof.Machine

open Sys2Proof Sys2Proof.Machine

/-- Settles O28: taking, counting and passing packets on leave partitions and storage, so a packet that fits finds its step and good storage; what is delivered is one write of the payload, or of the sum with the member's own bytes, at its place. -/
theorem sumsAreFormedAndStored : Obligations.SumsAreFormedAndStored := by
  unfold Obligations.SumsAreFormedAndStored
  intro rime s s1 q t unit hfits harmed htree hs hwf n k
  obtain ⟨u, hpass, hstep, hexec⟩ := exec_shiftAdd hfits harmed htree rime
  obtain ⟨⟨a, htake, rfl, -⟩, -⟩ := harmed
  obtain ⟨-, -, -, hwithin, hopen⟩ := hfits
  have hadds : t.kind.typ = 2 := by
    have htyp := (State.takePkt_eq_some htake).1
    simp only [Step.within, Bool.and_eq_true, beq_iff_eq] at htyp hwithin
    exact hwithin.1.1.1.symm.trans htyp
  rw [State.usePkt_adds hadds] at hexec
  refine ⟨fun hgathers hsp => ?_, fun hsums hunit hrime => ?_⟩
  · rw [if_pos hgathers] at hexec
    have hcopy : Passes u (if t.up = a.p.member then u else u.copyOn t a.p false) := by
      split
      · exact .refl _ u
      · exact .copyOn ..
    exact ⟨_, hexec, State.deliver_stored (hpass.trans hcopy) hs hwf ((hcopy.stepOf _ _).trans hstep) hopen hsp _ _ _⟩
  · subst hrime
    rw [hsums, if_neg Bool.false_ne_true] at hexec
    obtain ⟨v, hv, hadd⟩ := State.addPkt_fit (q := a.p) (hpass.good hs) hunit (State.tag_of_stepOf hstep ▸ hstep)
    rw [hadd] at hexec
    refine ⟨_, hexec, fun hk => ?_, fun hk hsp => ?_⟩
    · rw [if_neg hk]
      exact ⟨(hv.stepOf _ _).trans hstep, (hpass.trans hv).mem rfl⟩
    · rw [if_pos hk, hpass.fill hs]
      exact State.deliver_stored (hpass.trans hv) hs hwf ((hv.stepOf _ _).trans hstep) hopen hsp _ _ _
end

section
/-! SUPPORT. Verdicts: the value of a partition joined with its children's, the result and its moment, and the end of a verdict in the registers and floes of its partition (spec/10 R350 to R352, spec/07 R226). -/

namespace Sys2Proof.Machine

/-! ## Updates for each element of a list, each at its own place -/

/-- What the update for an element brings about and no other update undoes holds of every element afterwards. -/
theorem State.each_establishes {α : Type} {P : State → α → Prop} {op : State → α → State} (hset : ∀ s x, P (op s x) x)
    (hkeep : ∀ s x y, P s x → P (op s y) x) (l : List α) (s : State) : ∀ x ∈ l, P (s.each l op) x := by
  have hlast : ∀ (l : List α) (s : State) x, P s x → P (s.each l op) x := fun l => by
    induction l with
    | nil => exact fun s x h => h
    | cons y r ih => exact fun s x h => ih (op s y) x (hkeep s x y h)
  induction l generalizing s with
  | nil => exact fun x hx => absurd hx List.not_mem_nil
  | cons y r ih =>
    intro x hx
    obtain rfl | hx := List.mem_cons.mp hx
    · exact hlast r (op s x) x (hset s x)
    · exact ih (op s y) x hx
/-- Updates that each act on one floe, seen through a part π of a floe. -/
theorem State.each_floes {β : Type} {π : Floe → β} {φ : β → β} {op : State → Nat → State} (hself : ∀ s f, π ((op s f).floe f) = φ (π (s.floe f)))
    (hother : ∀ s f g, g ≠ f → π ((op s f).floe g) = π (s.floe g)) {l : List Nat} (hl : l.Nodup) (s : State) (g : Nat) :
    π ((s.each l op).floe g) = if g ∈ l then φ (π (s.floe g)) else π (s.floe g) := by
  induction l generalizing s with
  | nil => rfl
  | cons f r ih =>
    obtain ⟨hf, hr⟩ := List.nodup_cons.mp hl
    refine (ih hr (op s f)).trans ?_
    by_cases hg : g = f
    · rw [hg, if_neg hf, if_pos (List.mem_cons_self ..), hself]
    · simp only [List.mem_cons, hg, false_or, hother s f g hg]
/-- Updates of floes, each of its own floe. -/
theorem State.each_setFloe {φ : Floe → Floe} {l : List Nat} (hl : l.Nodup) (s : State) (g : Nat) :
    (s.each l (fun s f => s.setFloe f (φ (s.floe f)))).floe g = if g ∈ l then φ (s.floe g) else s.floe g :=
  State.each_floes (π := id) (fun _ _ => State.floe_setFloe ..) (fun _ _ _ hg => State.floe_setFloe_ne _ _ hg) hl s g
theorem State.each_setFloe_parts {φ : Floe → Floe} (l : List Nat) (s : State) : (s.each l (fun s f => s.setFloe f (φ (s.floe f)))).parts = s.parts :=
  State.each_keeps (v := State.parts) (op := fun s f => s.setFloe f (φ (s.floe f))) (fun _ _ => rfl) l s
theorem State.partFloes_nodup (s : State) (p : Nat) : (s.partFloes p).Nodup := List.nodup_range.filter _
theorem State.partFloes_of_groups {s t : State} {p : Nat} (h : (t.part p).groups = (s.part p).groups) : t.partFloes p = s.partFloes p := by
  rw [State.partFloes, State.partFloes, h]
theorem Floe.setStream_stream_ne {st st' : Stream} (h : st' ≠ st) (x : Floe) (y : StreamSt) : (x.setStream st y).stream st' = x.stream st' := by
  cases st <;> cases st' <;> simp [Floe.setStream, Floe.stream] at h ⊢
theorem State.setStream_stream_ne {f g : Nat} {st st' : Stream} (h : ¬ (g = f ∧ st' = st)) (s : State) (y : StreamSt) :
    (s.setStream f st y).stream g st' = s.stream g st' := by
  rw [State.setStream, State.stream, State.stream]
  by_cases hg : g = f
  · subst hg
    rw [State.floe_setFloe]
    exact Floe.setStream_stream_ne (fun hst => h ⟨rfl, hst⟩) ..
  · rw [State.floe_setFloe_ne _ _ hg]

/-! ## The own value is joined (spec/10 R350, R351) -/

theorem State.pauseCheck_stepOf (s : State) (p tag : Nat) : (s.pauseCheck p).stepOf p tag = s.stepOf p tag := by
  obtain ⟨pausing, h⟩ := s.pauseCheck_part p
  exact State.stepOf_of_steps (by rw [h]) tag
/-- A result whose moment is not past is kept with its moment. -/
theorem State.gotResult_stepOf {s : State} {p tag : Nat} {t : Step} {tres : DWord} (hstep : s.stepOf p tag = some t)
    (htime : s.now.toNat ≤ tres.toNat) (v : VVal) (origin : Nat) :
    (s.gotResult p t v tres origin).stepOf p tag = some { t with result := some (v, tres) } := by
  have htag : t.tag = tag := State.tag_of_stepOf hstep
  have hsend : ∀ (u : State) (q : State → Nat → MeshPkt), Touch 0xC0004 u (u.each t.group.childs (fun s e => s.sendTo e (q s e) false)) := fun u q =>
    State.each_touch (fun w e hw => State.sendTo_touch ((Sub.refl _).of rfl) w e _ false hw) (.refl _ u)
  rw [State.gotResult]
  simp only [Nat.not_lt.mpr htime, decide_false, Bool.false_eq_true, if_false]
  rw [State.pauseCheck_stepOf]
  refine (State.stepOf_of_parts (Touch.parts (m := 0xC0004) ?_ rfl) p tag).trans (State.stepOf_putStep (u := { t with result := some (v, tres) }) hstep htag)
  have hfloes := State.eachFloe_touch ((Sub.refl 0xC0004).of rfl) _ t (fun x => { x with collSteps := bump x.collSteps }) (.refl _ (s.putStep p { t with result := some (v, tres) }))
  split
  · exact State.planHold_touch ((Sub.refl _).of rfl) _ _ _ _ (hfloes.trans (hsend ..))
  · exact hfloes.trans (hsend ..)
theorem exec_verdictContribution {s : State} {p tag : Nat} {t : Step} (hstep : s.stepOf p tag = some t) (htree : t.kind.isTree = true)
    (hopen : t.isOpen = true) (hmine : t.mine = none) (hkept : t.abandoned = false) (hupd : ∀ i ∈ t.issues, i.upd = false)
    (hall : ∀ f ∈ s.partFloes p, ∃ i ∈ t.issues, i.floe = f) (hmir : t.kind = .commit → ∀ f ∈ s.partFloes p, (s.floe f).mirrorSettled = true) :
    exec (.verdictContribution p tag) s
      = .next ((s.putStep p { t with mine := some (s.contribution p t) }).report p { t with mine := some (s.contribution p t) }) := by
  have harm : exec (.verdictContribution p tag) s = execVerdictContribution p tag s := rfl
  have hno : t.issues.any (fun i => i.upd) = false := by simpa using hupd
  have hissued : (s.partFloes p).all (fun f => t.issues.any (fun i => i.floe == f)) = true := by simpa using hall
  have hsettled : (t.kind == .commit && !(s.partFloes p).all (fun f => (s.floe f).mirrorSettled)) = false := by
    by_cases hk : t.kind = .commit
    · simpa [hk] using hmir hk
    · simp [hk]
  rw [harm, execVerdictContribution, hstep]
  exact if_neg (by rw [htree, hopen, hmine, hkept, hno, hissued, hsettled]; decide)
/-- The root of a verdict with every child's report sets the result and its moment. -/
theorem State.report_root {s : State} {p tag : Nat} {t : Step} {m : VVal} {l : List VVal} (hstep : s.stepOf p tag = some t) (hmine : t.mine = some m)
    (hl : t.childReports = some l) (hroot : t.group.parent = noEp) (htime : s.now.toNat + 60 + 1000 * t.group.guard < 2 ^ 64) :
    (s.report p t).stepOf p tag
      = some { t with result := some (l.foldl VVal.combine m, s.now + BitVec.ofNat 64 (60 + 1000 * t.group.guard)) } := by
  have hset : s.report p t = s.gotResult p t (l.foldl VVal.combine m) (s.now + BitVec.ofNat 64 (60 + 1000 * t.group.guard)) t.group.self := by
    rw [State.report, hmine, hl]
    exact if_pos hroot
  rw [hset]
  refine State.gotResult_stepOf hstep ?_ ..
  rw [BitVec.toNat_add, BitVec.toNat_ofNat]
  omega
/-- A member that is not the root reports to its parent. -/
theorem State.report_member {s : State} {t : Step} {l : List VVal} (hl : t.childReports = some l) (hparent : t.group.parent ≠ noEp) (p : Nat) :
    ∃ r, s.report p t = s.setRouter r := by
  rw [State.report, hl]
  split
  · rename_i heq
    cases heq
    rw [if_neg hparent]
    exact State.sendTo_eq ..
  · exact ⟨s.router, rfl⟩

/-! ## The result registers (spec/10 R352) -/

/-- The step byte and the key of a verdict, as its result register takes them. -/
def VVal.word (v : VVal) : DWord := BitVec.ofNat 64 (v.byte.toNat + v.key.toNat * 2 ^ 32)
/-- The result register of a stream that issued the verdict takes w. -/
def State.answerIssue (w : DWord) (s : State) (i : Issue) : State :=
  s.setStream i.floe i.stream (((s.stream i.floe i.stream).setReg i.rreg w).endPend i.rreg)
/-- The result registers of all streams that issued the verdict take w. -/
def State.answerVerdict (s : State) (t : Step) (w : DWord) : State := s.each t.issues (State.answerIssue w)
theorem State.answerVerdict_parts (s : State) (t : Step) (w : DWord) : (s.answerVerdict t w).parts = s.parts :=
  State.each_keeps (v := State.parts) (op := State.answerIssue w) (fun _ _ => rfl) _ s
theorem State.answerVerdict_reg (s : State) (t : Step) (w : DWord) :
    ∀ i ∈ t.issues, i.rreg ≠ 0 → ((s.answerVerdict t w).stream i.floe i.stream).reg i.rreg = w := by
  have hreg : ∀ (y : StreamSt) rd r, ((y.setReg rd w).endPend rd).reg r = if r ≠ 0 ∧ r = rd then w else y.reg r :=
    fun y rd r => StreamSt.reg_setReg y rd w r
  refine State.each_establishes (P := fun s (i : Issue) => i.rreg ≠ 0 → (s.stream i.floe i.stream).reg i.rreg = w) (fun s i hi => ?_) (fun s i j h hi => ?_) _ s
  · rw [State.answerIssue, State.setStream_stream, hreg, if_pos ⟨hi, rfl⟩]
  · rw [State.answerIssue]
    by_cases hij : i.floe = j.floe ∧ i.stream = j.stream
    · rw [hij.1, hij.2, State.setStream_stream, hreg, ← hij.1, ← hij.2]
      split
      · rfl
      · exact h hi
    · rw [State.setStream_stream_ne hij]
      exact h hi
theorem State.answerVerdict_halves (s : State) (t : Step) (w : DWord) (f : Nat) :
    (((s.answerVerdict t w).floe f).gnCommit, ((s.answerVerdict t w).floe f).mirHalf) = ((s.floe f).gnCommit, (s.floe f).mirHalf) := by
  refine State.each_keeps (v := fun s => ((s.floe f).gnCommit, (s.floe f).mirHalf)) (fun s i => ?_) t.issues s
  exact State.setFloe_keeps (π := fun x => (x.gnCommit, x.mirHalf)) (by cases i.stream <;> rfl) f
theorem State.each_setFloe_stream {φ : Floe → Floe} (hφ : ∀ x st, (φ x).stream st = x.stream st) (l : List Nat) (s : State) (f : Nat) (st : Stream) :
    (s.each l (fun s f => s.setFloe f (φ (s.floe f)))).stream f st = s.stream f st := by
  refine State.each_keeps (v := fun s => s.stream f st) (op := fun s f => s.setFloe f (φ (s.floe f))) (fun s g => ?_) l s
  exact State.setFloe_keeps (π := fun x => x.stream st) (hφ ..) f

/-! ## The verdict's norm, and its end (spec/07 R226, spec/10 R352) -/

/-- A floe takes the norm of a commit or norm verdict. -/
def Step.takeNorm (t : Step) (v : VVal) (x : Floe) : Floe :=
  { x with gnCur := fSqrt v.q, curValid := true, record := if t.kind == StepKind.norm && v.byte != 0 then setBit x.record 4 true else x.record }
/-- The floes of the partition take the norm, where the verdict has one. -/
def State.takeNorm (s : State) (p : Nat) (t : Step) (v : VVal) : State :=
  match t.kind with
  | .commit | .norm => s.each (s.partFloes p) (fun s f => s.setFloe f (t.takeNorm v (s.floe f)))
  | .barrier | .allgather | .rotate | .reduceScatter | .allreduce | .permute => s
theorem State.takeNorm_parts (s : State) (p : Nat) (t : Step) (v : VVal) : (s.takeNorm p t v).parts = s.parts := by
  rw [State.takeNorm]
  split
  case h_1 | h_2 => exact State.each_setFloe_parts ..
  all_goals rfl
theorem State.takeNorm_stream (s : State) (p : Nat) (t : Step) (v : VVal) (f : Nat) (st : Stream) : (s.takeNorm p t v).stream f st = s.stream f st := by
  rw [State.takeNorm]
  split
  case h_1 | h_2 => exact State.each_setFloe_stream (fun _ st => by cases st <;> rfl) ..
  all_goals rfl
theorem State.takeNorm_floe {t : Step} (h : t.kind = .commit ∨ t.kind = .norm) (v : VVal) {s : State} {p f : Nat} (hf : f ∈ s.partFloes p) :
    (s.takeNorm p t v).floe f = t.takeNorm v (s.floe f) := by
  have heach : s.takeNorm p t v = s.each (s.partFloes p) (fun s f => s.setFloe f (t.takeNorm v (s.floe f))) := by
    rw [State.takeNorm]
    obtain h | h := h <;> rw [h]
  rw [heach, State.each_setFloe (s.partFloes_nodup p), if_pos hf]
/-- The end of a verdict but for what a commit or its discard adds. -/
def State.closeVerdict (s : State) (p : Nat) (t : Step) (v : VVal) (tres : DWord) : State :=
  let s1 := ((s.answerVerdict t v.word).takeNorm p t v).eventOwner p 0x03 0xFF (leBytes 4 t.serial.toNat ++ leBytes 1 v.byte.toNat
    ++ leBytes 1 t.kind.code.2 ++ zeros 2 ++ leBytes 4 v.key.toNat ++ leBytes 4 v.q.toNat ++ leBytes 8 tres.toNat)
  (s1.setPart p { s1.part p with lastKey := v.key, verdictDone := t.tag :: (s1.part p).verdictDone }).dropStep p t.tag
section
variable (s : State) (p : Nat) (t : Step) (v : VVal) (tres : DWord)
theorem State.closeVerdict_part : (s.closeVerdict p t v tres).part p = { s.part p with
    lastKey := v.key, verdictDone := t.tag :: (s.part p).verdictDone, steps := (s.part p).steps.filter (fun u => u.tag != t.tag) } := by
  rw [State.closeVerdict, State.dropStep_part, State.part_setPart, State.part_of_parts (State.eventOwner_parts ..),
    State.part_of_parts (State.takeNorm_parts ..), State.part_of_parts (State.answerVerdict_parts ..)]
theorem State.closeVerdict_floes : (s.closeVerdict p t v tres).floes = ((s.answerVerdict t v.word).takeNorm p t v).floes := State.eventOwner_floes ..
theorem State.closeVerdict_stream (f : Nat) (st : Stream) : (s.closeVerdict p t v tres).stream f st = (s.answerVerdict t v.word).stream f st := by
  rw [State.stream, State.floe_of_floes (State.closeVerdict_floes ..)]
  exact State.takeNorm_stream ..
end
theorem State.closeVerdict_floe {s : State} {p f : Nat} {t : Step} (h : t.kind = .commit ∨ t.kind = .norm) (hf : f ∈ s.partFloes p) (v : VVal) (tres : DWord) :
    (s.closeVerdict p t v tres).floe f = t.takeNorm v ((s.answerVerdict t v.word).floe f) := by
  rw [State.floe_of_floes (State.closeVerdict_floes ..)]
  refine State.takeNorm_floe h v ?_
  rwa [State.partFloes_of_groups (s := s) (by rw [State.part_of_parts (State.answerVerdict_parts ..)])]

/-! ## Commits and the end of the step (spec/07 R226, R227) -/

theorem State.swapDescs_marksFloes (s : State) (f : Nat) : MarksFloes s (s.swapDescs f) := by
  unfold State.swapDescs
  exact .each (fun s i => (s.put_marksFloes ..).trans (State.put_marksFloes ..)) _ s
/-- A floe commits: its halves change over and it keeps a current norm that is valid. -/
def Floe.commit (x : Floe) : Floe := { x with gnCommit := if x.curValid then x.gnCur else x.gnCommit, mirHalf := !x.mirHalf }
/-- A floe's descriptors change over and it commits. -/
def State.commitFloe (s : State) (f : Nat) : State := (s.swapDescs f).setFloe f ((s.swapDescs f).floe f).commit
theorem State.commitStep_part (s : State) (p : Nat) : (s.commitStep p).part p
    = { s.part p with stepCount := (s.part p).stepCount + 1, commits := (s.part p).commits + 1, mirHalf := !(s.part p).mirHalf } := by
  have hparts : (s.each (s.partFloes p) State.commitFloe).parts = s.parts :=
    State.each_keeps (v := State.parts) (op := State.commitFloe) (fun s f => (State.swapDescs_touch (Sub.refl _) s f (.refl _ s)).parts rfl) _ s
  refine (State.part_setPart ..).trans ?_
  exact congrArg (fun x : Part => { x with stepCount := x.stepCount + 1, commits := x.commits + 1, mirHalf := !x.mirHalf }) (State.part_of_parts hparts p)
theorem State.commitStep_floe {s : State} {p f : Nat} (hf : f ∈ s.partFloes p) : ((s.commitStep p).floe f).unmarked = (s.floe f).unmarked.commit := by
  have hself : ∀ (s : State) f, ((s.commitFloe f).floe f).unmarked = (s.floe f).unmarked.commit := fun s f => by
    rw [State.commitFloe, State.floe_setFloe, ← (s.swapDescs_marksFloes f).floe f]
    rfl
  have hother : ∀ (s : State) f g, g ≠ f → ((s.commitFloe f).floe g).unmarked = (s.floe g).unmarked := fun s f g hg => by
    rw [State.commitFloe, State.floe_setFloe_ne _ _ hg]
    exact (s.swapDescs_marksFloes f).floe g
  exact (State.each_floes hself hother (s.partFloes_nodup p) s f).trans (if_pos hf)
theorem State.commitStep_stream (s : State) (p f : Nat) (st : Stream) : (s.commitStep p).stream f st = s.stream f st := by
  refine State.each_keeps (v := fun s => s.stream f st) (op := State.commitFloe) (fun s g => ?_) _ s
  refine Eq.trans ?_ ((s.swapDescs_marksFloes g).stream f st)
  exact State.setFloe_keeps (π := fun x => x.stream st) (by cases st <;> rfl) f
/-- A floe as the step of serial number n begins. -/
def Floe.endStep (n : Nat) (x : Floe) : Floe :=
  { x with curValid := false, record := 0, mirTx := {}, tagAttempt := x.tagAttempt.filter (fun e => e.1 / 65536 == n) }
/-- A partition as the step of serial number n begins. -/
def Part.endStep (x : Part) (n : Word) : Part :=
  { x with serial := n, steerPlan := [], verdictDone := [], gone := [], committing := false,
           mirGot := x.mirGot.filter (fun e => e.1 / 2 ^ 34 == n.toNat), mirWant := x.mirWant.filter (fun e => e.1 / 2 ^ 34 == n.toNat) }
theorem State.stepEnd_part (s : State) (p : Nat) : (s.stepEnd p).part p = (s.part p).endStep ((s.part p).serial + 1) := by
  have hpart := State.part_of_parts (State.each_setFloe_parts (φ := Floe.endStep ((s.part p).serial + 1).toNat) (s.partFloes p) s) p
  exact (State.part_setPart ..).trans (congrArg (fun x : Part => x.endStep ((s.part p).serial + 1)) hpart)
theorem State.stepEnd_floe {s : State} {p f : Nat} (hf : f ∈ s.partFloes p) :
    (s.stepEnd p).floe f = (s.floe f).endStep ((s.part p).serial + 1).toNat :=
  (State.each_setFloe (φ := Floe.endStep ((s.part p).serial + 1).toNat) (s.partFloes_nodup p) s f).trans (if_pos hf)
theorem State.stepEnd_stream (s : State) (p f : Nat) (st : Stream) : (s.stepEnd p).stream f st = s.stream f st :=
  State.each_setFloe_stream (φ := Floe.endStep ((s.part p).serial + 1).toNat) (fun _ st => by cases st <;> rfl) (s.partFloes p) s f st

/-! ## Which end a verdict has (spec/10 R352) -/

theorem State.steerNow_floes (s : State) (p tag : Nat) : (s.steerNow p tag).floes = s.floes := (State.steerNow_touch (Sub.refl _) s p tag (.refl _ s)).floes rfl
theorem State.steerNow_part (s : State) (p tag : Nat) : ∃ steers, (s.steerNow p tag).part p = { s.part p with steers := steers } := by
  rw [State.steerNow]
  split
  · exact ⟨_, rfl⟩
  · exact ⟨_, (State.part_of_parts ((State.planSwitch_touch (Sub.refl _) _ tag (.refl _ _)).parts rfl) p).trans (State.part_setPart ..)⟩
/-- The discard of a step is counted. -/
def State.discardStep (s : State) (p : Nat) : State := s.setPart p { s.part p with discards := (s.part p).discards + 1 }
/-- A verdict that does not wait for tags closes, and a commit or its discard ends the step. -/
theorem State.endVerdict_eq {s : State} {p : Nat} {t : Step} {v : VVal} {tres : DWord} (h : t.result = some (v, tres))
    (hgo : ¬ (t.kind = .commit ∧ v.byte = 0 ∧ (s.steerNow p t.tag).ppIdle p = false)) : s.endVerdict p t
      = if t.kind = .commit then
          if v.byte = 0 then (((s.steerNow p t.tag).closeVerdict p t v tres).commitStep p).stepEnd p
          else (((s.steerNow p t.tag).closeVerdict p t v tres).discardStep p).stepEnd p
        else (s.steerNow p t.tag).closeVerdict p t v tres := by
  have hends : s.endVerdict p t = match t.kind with
      | .commit =>
        if v.byte = 0 then (((s.steerNow p t.tag).closeVerdict p t v tres).commitStep p).stepEnd p
        else (((s.steerNow p t.tag).closeVerdict p t v tres).discardStep p).stepEnd p
      | .norm | .barrier | .allgather | .rotate | .reduceScatter | .allreduce | .permute => (s.steerNow p t.tag).closeVerdict p t v tres := by
    rw [State.endVerdict, h]
    exact if_neg (by simpa [and_assoc] using hgo)
  rw [hends]
  cases t.kind <;> rfl
theorem State.endVerdict_waits {s : State} {p : Nat} {t : Step} {v : VVal} {tres : DWord} (h : t.result = some (v, tres)) (hkind : t.kind = .commit)
    (hbyte : v.byte = 0) (hbusy : (s.steerNow p t.tag).ppIdle p = false) :
    s.endVerdict p t = (s.steerNow p t.tag).setPart p { (s.steerNow p t.tag).part p with committing := true } := by
  rw [State.endVerdict, h]
  exact if_pos (by simp [hkind, hbyte, hbusy])
/-- What ends a step after its verdict leaves the streams, the partition's other steps and its last key. -/
structure EndsAfter (p : Nat) (c u : State) : Prop where
  stream : ∀ f st, u.stream f st = c.stream f st
  steps : (u.part p).steps = (c.part p).steps
  lastKey : (u.part p).lastKey = (c.part p).lastKey
theorem EndsAfter.commit (p : Nat) (c : State) : EndsAfter p c ((c.commitStep p).stepEnd p) where
  stream f st := (State.stepEnd_stream ..).trans (State.commitStep_stream ..)
  steps := by rw [State.stepEnd_part, State.commitStep_part]; rfl
  lastKey := by rw [State.stepEnd_part, State.commitStep_part]; rfl
theorem State.discardStep_part (s : State) (p : Nat) : (s.discardStep p).part p = { s.part p with discards := (s.part p).discards + 1 } := State.part_setPart ..
theorem EndsAfter.discard (p : Nat) (c : State) : EndsAfter p c ((c.discardStep p).stepEnd p) where
  stream f st := State.stepEnd_stream ..
  steps := by rw [State.stepEnd_part, State.discardStep_part]; rfl
  lastKey := by rw [State.stepEnd_part, State.discardStep_part]; rfl
theorem exec_verdictComplete {s : State} {p tag : Nat} {t : Step} (h : s.stepOf p tag = some t) : exec (.verdictComplete p tag) s = .next (s.endVerdict p t) := by
  have harm : exec (.verdictComplete p tag) s = execVerdictComplete p tag s := rfl
  rw [harm, execVerdictComplete, h]
section
variable {s : State} {p : Nat} {t : Step} {v : VVal} {tres : DWord}
/-- The floes of a partition after a commit: they keep the norm, and their halves have changed over. -/
theorem State.commitStep_closeVerdict_floe (hkind : t.kind = .commit) {f : Nat} (hf : f ∈ s.partFloes p) :
    let x := ((s.closeVerdict p t v tres).commitStep p).stepEnd p |>.floe f
    x.gnCommit = fSqrt v.q ∧ x.mirHalf = !(s.floe f).mirHalf ∧ x.record = 0 ∧ x.curValid = false := by
  have hfc : f ∈ (s.closeVerdict p t v tres).partFloes p := by rwa [State.partFloes_of_groups (s := s) (by rw [State.closeVerdict_part])]
  have hfe : f ∈ ((s.closeVerdict p t v tres).commitStep p).partFloes p := by
    rwa [State.partFloes_of_groups (s := s.closeVerdict p t v tres) (by rw [State.commitStep_part])]
  have hcommit := State.commitStep_floe hfc
  rw [State.closeVerdict_floe (.inl hkind) hf] at hcommit
  have hnorm : (((s.closeVerdict p t v tres).commitStep p).floe f).gnCommit = fSqrt v.q := (congrArg Floe.gnCommit hcommit :)
  have hhalf : (((s.closeVerdict p t v tres).commitStep p).floe f).mirHalf = !((s.answerVerdict t v.word).floe f).mirHalf := (congrArg Floe.mirHalf hcommit :)
  rw [State.stepEnd_floe hfe]
  refine ⟨hnorm, hhalf.trans ?_, rfl, rfl⟩
  rw [(Prod.mk.inj (s.answerVerdict_halves t v.word f)).2]
/-- The floes of a partition after a discard: they keep their norm and their halves. -/
theorem State.discardStep_closeVerdict_floe (hkind : t.kind = .commit) {f : Nat} (hf : f ∈ s.partFloes p) :
    let x := ((s.closeVerdict p t v tres).discardStep p).stepEnd p |>.floe f
    x.gnCommit = (s.floe f).gnCommit ∧ x.mirHalf = (s.floe f).mirHalf ∧ x.record = 0 ∧ x.curValid = false := by
  have hfd : f ∈ ((s.closeVerdict p t v tres).discardStep p).partFloes p := by
    rwa [State.partFloes_of_groups (s := s) (by rw [State.discardStep_part, State.closeVerdict_part])]
  obtain ⟨hnorm, hhalf⟩ := Prod.mk.inj (s.answerVerdict_halves t v.word f)
  rw [State.stepEnd_floe hfd, State.discardStep, State.setPart_floe, State.closeVerdict_floe (.inl hkind) hf]
  exact ⟨hnorm, hhalf, rfl, rfl⟩
end

end Sys2Proof.Machine

open Sys2Proof Sys2Proof.Machine

/-- Settles O26: the value is joined by one replacement of the step, which the report to the parent leaves and the root's result replaces once more; the end of a verdict is a fixed sequence of updates, each of which is seen in the streams, the floes and the partition apart. -/
theorem verdictsContributeAndComplete : Obligations.VerdictsContributeAndComplete := by
  unfold Obligations.VerdictsContributeAndComplete
  refine ⟨fun p tag s t hstep htree hopen hmine hkept hupd hall hmir => ?_, fun p tag s t v tres hstep hresult => ?_⟩
  · intro own htime
    have htag : t.tag = tag := State.tag_of_stepOf hstep
    let t1 : Step := { t with mine := some own }
    have hjoined : (s.putStep p t1).stepOf p tag = some t1 := State.stepOf_putStep hstep htag
    have hexec := exec_verdictContribution hstep htree hopen hmine hkept hupd hall hmir
    cases hreports : t.childReports with
    | none =>
      have hwaits : (s.putStep p t1).report p t1 = s.putStep p t1 := State.report_waits (t := t1) hreports p
      exact ⟨_, t1, hexec, (congrArg (fun u => u.stepOf p tag) hwaits).trans hjoined, rfl, rfl, fun _ => hwaits, fun l hl => nomatch hl⟩
    | some l =>
      by_cases hroot : t.group.parent = noEp
      · refine ⟨_, _, hexec, State.report_root (t := t1) hjoined rfl hreports hroot (htime (by rw [hreports]; rfl) hroot), rfl, rfl, fun h => (nomatch h),
          fun l' hl => ⟨fun _ => ?_, fun h => absurd hroot h⟩⟩
        cases hl
        rfl
      · obtain ⟨r, hr⟩ := State.report_member (s := s.putStep p t1) (t := t1) hreports hroot p
        have hnone : t.result = none := by simpa [Step.isOpen, htree] using hopen
        exact ⟨_, t1, hexec, hr ▸ hjoined, rfl, rfl, fun h => (nomatch h), fun l' _ => ⟨fun h => absurd h hroot, fun _ => hnone⟩⟩
  · intro x s0
    obtain rfl : t.tag = tag := State.tag_of_stepOf hstep
    have hexec := exec_verdictComplete hstep
    refine ⟨fun hkind hbyte hbusy => by rw [hexec, State.endVerdict_waits hresult hkind hbyte hbusy], fun hgo => ⟨_, hexec, ?_⟩⟩
    rw [State.endVerdict_eq hresult hgo]
    obtain ⟨steers, hsteer⟩ := s.steerNow_part p t.tag
    have hpart := s0.closeVerdict_part p t v tres
    rw [show s0.part p = _ from hsteer] at hpart
    have hmember : ∀ f ∈ s.partFloes p, f ∈ s0.partFloes p := fun f hf => by
      rwa [State.partFloes_of_groups (s := s) (by rw [show s0.part p = _ from hsteer])]
    have hfloe : ∀ f, s0.floe f = s.floe f := State.floe_of_floes (s.steerNow_floes p t.tag)
    have hends : ∀ u, EndsAfter p (s0.closeVerdict p t v tres) u → u.stepOf p t.tag = none ∧ (u.part p).lastKey = v.key
        ∧ ∀ i ∈ t.issues, i.rreg ≠ 0 → (u.stream i.floe i.stream).reg i.rreg = v.word := fun u hu => by
      refine ⟨State.stepOf_eq_none_of_filter (s := s) (by rw [hu.steps, hpart]), by rw [hu.lastKey, hpart], fun i hi hr => ?_⟩
      rw [hu.stream, State.closeVerdict_stream]
      exact State.answerVerdict_reg s0 t v.word i hi hr
    by_cases hkind : t.kind = .commit
    · by_cases hbyte : v.byte = 0
      · rw [if_pos hkind, if_pos hbyte]
        obtain ⟨hgone, hkey, hregs⟩ := hends _ (.commit p _)
        refine ⟨hgone, hkey, hregs, by simp [hkind], by simp [hkind], fun _ _ => ?_, fun _ h => absurd hbyte h⟩
        rw [State.stepEnd_part, State.commitStep_part, show (State.closeVerdict ..).part p = _ from hpart]
        exact ⟨rfl, rfl, rfl, rfl, rfl, fun f hf => by rw [← hfloe]; exact State.commitStep_closeVerdict_floe hkind (hmember f hf)⟩
      · rw [if_pos hkind, if_neg hbyte]
        obtain ⟨hgone, hkey, hregs⟩ := hends _ (.discard p _)
        refine ⟨hgone, hkey, hregs, by simp [hkind], by simp [hkind], fun _ h => absurd h hbyte, fun _ _ => ?_⟩
        rw [State.stepEnd_part, State.discardStep_part, show (State.closeVerdict ..).part p = _ from hpart]
        exact ⟨rfl, rfl, rfl, rfl, fun f hf => by rw [← hfloe]; exact State.discardStep_closeVerdict_floe hkind (hmember f hf)⟩
    · rw [if_neg hkind]
      obtain ⟨hgone, hkey, hregs⟩ := hends _ ⟨fun _ _ => rfl, rfl, rfl⟩
      refine ⟨hgone, hkey, hregs, fun hnorm f hf => ?_, fun _ => ?_, fun h => absurd h hkind, fun h => absurd h hkind⟩
      · rw [State.closeVerdict_floe (.inr hnorm) (hmember f hf)]
        exact ⟨rfl, rfl⟩
      · rw [show (State.closeVerdict ..).part p = _ from hpart]
        exact ⟨rfl, rfl, rfl⟩
end

section
/-! SUPPORT. Lasers: what each operation leaves of a chiplet, the wavelength's moves one state at a time, and failures that stay (spec/11 R374 to R379). -/

namespace Sys2Proof.Machine

/-! ## What leaves the chiplets as they are -/

/-- An operation whose mask leaves the chiplets out leaves each of them. -/
theorem Touch.chip {m : Nat} {s t : State} (h : Touch m s t) (hm : m.testBit 19 = false) (c : Nat) : t.chip c = s.chip c := by
  rw [State.chip, State.chip, h.chips hm]
@[simp] theorem State.raiseOpt_chip (s : State) (k bit c : Nat) : (s.raiseOpt k bit).chip c = s.chip c :=
  (State.raiseOpt_touch (Sub.refl _) s k bit (.refl _ s)).chip rfl c
@[simp] theorem State.laserEvent_chip (s : State) (k w c : Nat) : (s.laserEvent k w).chip c = s.chip c :=
  (State.laserEvent_touch (Sub.refl _) s k w (.refl _ s)).chip rfl c
@[simp] theorem State.recordLasers_chip (s : State) (k c : Nat) : (s.recordLasers k).chip c = s.chip c :=
  (State.recordLasers_touch (Sub.refl _) s k (.refl _ s)).chip rfl c
@[simp] theorem State.relane_chip (s : State) (k c : Nat) : (s.relane k).chip c = s.chip c :=
  (State.relane_touch (Sub.refl _) s k (.refl _ s)).chip rfl c
@[simp] theorem State.oedRestart_chip (s : State) (w c : Nat) : (s.oedRestart w).chip c = s.chip c :=
  (State.oedRestart_touch (Sub.refl _) s w (.refl _ s)).chip rfl c
@[simp] theorem State.relight_chip (s : State) (k w c : Nat) : (s.relight k w).chip c = s.chip c :=
  (State.relight_touch (Sub.refl _) s k w (.refl _ s)).chip rfl c
@[simp] theorem State.each_setPort_chip (s : State) (l : List Nat) (g : State → Nat → Port) (c : Nat) :
    (s.each l (fun s k => s.setPort k (g s k))).chip c = s.chip c :=
  (State.each_touch (fun _ k => State.setPort_touch (Sub.refl _) _ k _) (.refl _ s)).chip rfl c
@[simp] theorem State.wlTo_chip (s : State) (c w st : Nat) : (s.wlTo c w st).chip c = (s.chip c).setWl w st := by
  simp [State.wlTo]

/-! ## Wavelengths and lasers of a chiplet -/

theorem Chip.setWl_wl (x : Chip) (w st v : Nat) : (x.setWl w st).wl v = if v = w then st else x.wl v := Tbl.get_put ..
@[simp] theorem Chip.setWl_wl_same (x : Chip) (w st : Nat) : (x.setWl w st).wl w = st := Tbl.get_put_same ..
theorem Chip.setLaser_laser (x : Chip) (l st k : Nat) : (x.setLaser l st).laser k = if k = l then st else x.laser k := by
  rw [Chip.laser, Chip.setLaser, Tbl.get_put, Chip.laser]
@[simp] theorem Chip.setLaser_wl (x : Chip) (l st w : Nat) : (x.setLaser l st).wl w = x.wl w := rfl
@[simp] theorem Chip.feedFrom_laser (x : Chip) (w l k : Nat) : (x.feedFrom w l).laser k = if k = l then 0 else x.laser k := x.setLaser_laser l 0 k

theorem Chip.laser_of_spare {x : Chip} {w st l : Nat} (h : x.spare w st = some l) : x.laser l = st := by
  have htest := List.find?_some h
  simp only [Bool.and_eq_true, beq_iff_eq] at htest
  exact htest.1
theorem Chip.laser_of_freeSpare {x : Chip} {l : Nat} (h : x.freeSpare = some l) : x.laser l = 1 := by
  simpa using List.find?_some h

@[simp] theorem Chip.tune_wl (x : Chip) (w v : Nat) : (x.tune w).wl v = x.wl v := by
  rw [Chip.tune]
  split
  · rfl
  · split <;> rfl

theorem Chip.foldl_setLaser_wl (st : Nat) (ls : List Nat) (x : Chip) (w : Nat) : (ls.foldl (fun x l => x.setLaser l st) x).wl w = x.wl w := by
  induction ls generalizing x with
  | nil => rfl
  | cons l ls ih => rw [List.foldl_cons, ih, Chip.setLaser_wl]
theorem Chip.foldl_setLaser_laser {st k : Nat} {ls : List Nat} (h : k ∉ ls) (x : Chip) : (ls.foldl (fun x l => x.setLaser l st) x).laser k = x.laser k := by
  induction ls generalizing x with
  | nil => rfl
  | cons l ls ih =>
    obtain ⟨hl, hls⟩ := not_or.mp (mt List.mem_cons.mpr h)
    rw [List.foldl_cons, ih hls, Chip.setLaser_laser, if_neg hl]
@[simp] theorem Chip.retireIdle_wl (x : Chip) (w : Nat) : x.retireIdle.wl w = x.wl w := Chip.foldl_setLaser_wl ..

/-! ## Failed lasers stay failed (spec/11 R379) -/

/-- Every laser that is FAILED on x is FAILED on y. -/
def Chip.FailedStay (x y : Chip) : Prop := ∀ l, x.laser l = 5 → y.laser l = 5
theorem Chip.FailedStay.refl (x : Chip) : x.FailedStay x := fun _ h => h
theorem Chip.FailedStay.trans {x y z : Chip} (h : x.FailedStay y) (k : y.FailedStay z) : x.FailedStay z := fun l e => k l (h l e)
theorem Chip.tune_failedStay (x : Chip) (w : Nat) : x.FailedStay (x.tune w) := by
  rw [Chip.tune]
  split
  · exact .refl x
  · cases hfree : x.freeSpare with
    | none => exact .refl x
    | some k =>
      intro l hl
      have hne : l ≠ k := by
        rintro rfl
        simp [Chip.laser_of_freeSpare hfree] at hl
      exact (x.setLaser_laser k 2 l).trans ((if_neg hne).trans hl)
theorem Chip.feedFrom_failedStay {x : Chip} {k : Nat} (hk : x.laser k ≠ 5) (w : Nat) : x.FailedStay (x.feedFrom w k) := by
  intro l hl
  have hne : l ≠ k := fun h => hk (h ▸ hl)
  rwa [Chip.feedFrom_laser, if_neg hne]
theorem Chip.retireIdle_failedStay (x : Chip) : x.FailedStay x.retireIdle := fun l hl =>
  (Chip.foldl_setLaser_laser (by simp [hl]) x).trans hl

/-! ## A swap or recalibration begins (spec/11 R376, R377) -/

/-- The chiplet on which a swap or a recalibration of a wavelength has begun. -/
def Chip.beginWl (x : Chip) (w : Nat) (swap : Bool) : Chip :=
  let y := { x.setWl w (if swap then 3 else 4) with busy := some (w, swap) }
  match x.spare w 3 with
  | some l => if swap then y.feedFrom w l else y
  | none => y
theorem State.beginWl_chip {s : State} {c : Nat} (hbusy : (s.chip c).busy = none) (hsteer : (s.chip c).steering = false) (hsus : s.suspended c = false)
    (w : Nat) (swap : Bool) : (s.beginWl c w swap).chip c = (s.chip c).beginWl w swap := by
  simp only [State.beginWl, hbusy, hsteer, hsus, Option.isSome_none, Bool.or_self, Bool.false_eq_true, if_false, Chip.beginWl]
  cases (s.chip c).spare w 3 <;> cases swap <;> simp
theorem State.beginWl_setChip_chip {s : State} {c : Nat} {x : Chip} (hbusy : x.busy = none) (hsteer : x.steering = false) (hsus : s.suspended c = false)
    (w : Nat) (swap : Bool) : ((s.setChip c x).beginWl c w swap).chip c = x.beginWl w swap := by
  simpa using State.beginWl_chip (s := s.setChip c x) (by simpa using hbusy) (by simpa using hsteer) hsus w swap
theorem Chip.beginWl_swap {x : Chip} {w : Nat} (h : (x.spare w 3).isSome = true) : (x.beginWl w true).wl w = 3 ∧ (x.beginWl w true).busy = some (w, true) := by
  obtain ⟨l, hl⟩ := Option.isSome_iff_exists.mp h
  rw [Chip.beginWl, hl]
  exact ⟨x.setWl_wl_same w 3, rfl⟩
theorem Chip.beginWl_wl_ne (x : Chip) {w v : Nat} (h : v ≠ w) (swap : Bool) : (x.beginWl w swap).wl v = x.wl v := by
  have hset : ∀ st, (x.setWl w st).wl v = x.wl v := fun st => (x.setWl_wl w st v).trans (if_neg h)
  rw [Chip.beginWl]
  split
  · split
    · exact hset _
    · exact hset _
  · exact hset _
theorem Chip.beginWl_failedStay (x : Chip) (w : Nat) (swap : Bool) : x.FailedStay (x.beginWl w swap) := by
  cases hspare : x.spare w 3 with
  | none =>
    rw [Chip.beginWl, hspare]
    exact .refl x
  | some l =>
    rw [Chip.beginWl, hspare]
    cases swap with
    | false => exact .refl x
    | true =>
      refine Chip.feedFrom_failedStay (x := { x.setWl w 3 with busy := some (w, true) }) (fun h5 => ?_) w
      have h3 : x.laser l = 3 := Chip.laser_of_spare hspare
      exact absurd (h3.symm.trans h5) (by decide)

/-- What waits begins on a chiplet where it can, or only the requests change. -/
theorem State.nextWl_chip_cases (s : State) (c : Nat) : ∃ q a b,
    let y := { s.chip c with waiting := q, swapReq := a, recalReq := b }
    (s.nextWl c).chip c = y ∨ ∃ e, y.canBegin e = true ∧ (s.nextWl c).chip c = y.beginWl e.1 e.2 := by
  rw [State.nextWl]
  split
  case isTrue => exact ⟨_, _, _, .inl rfl⟩
  case isFalse hidle =>
    simp only [Bool.or_eq_true, not_or, Bool.not_eq_true, Option.isSome_eq_false_iff, Option.isNone_iff_eq_none] at hidle
    obtain ⟨⟨hbusy, hsteer⟩, hsus⟩ := hidle
    dsimp only
    split
    case h_1 => exact ⟨_, _, _, .inl (State.chip_setChip ..)⟩
    case h_2 e r hwait =>
      have hdrop : (s.chip c).waiting.dropWhile (fun e => !(s.chip c).canBegin e) = e :: r :=
        ((congrArg (List.drop _) List.takeWhile_append_dropWhile.symm).trans List.drop_left).symm.trans hwait
      have hcan : (s.chip c).canBegin e = true := by
        have hhead := List.head?_dropWhile_not (fun e => !(s.chip c).canBegin e) (s.chip c).waiting
        simpa [hdrop] using hhead
      refine ⟨_, _, _, .inr ⟨e, ?_, State.beginWl_setChip_chip ?_ ?_ hsus e.1 e.2⟩⟩
      · exact hcan
      · exact hbusy
      · exact hsteer
theorem State.nextWl_failedStay (s : State) (c : Nat) : (s.chip c).FailedStay ((s.nextWl c).chip c) := by
  obtain ⟨q, a, b, hsame | ⟨e, -, hbegun⟩⟩ := s.nextWl_chip_cases c
  · rw [hsame]
    exact .refl _
  · rw [hbegun]
    exact Chip.beginWl_failedStay { s.chip c with waiting := q, swapReq := a, recalReq := b } e.1 e.2
/-- A wavelength that is RETIRED is no one's turn (spec/11 R375). -/
theorem State.nextWl_retired {s : State} {c w : Nat} (h : (s.chip c).wl w = 5) : ((s.nextWl c).chip c).wl w = 5 := by
  obtain ⟨q, a, b, hsame | ⟨e, hcan, hbegun⟩⟩ := s.nextWl_chip_cases c
  · rwa [hsame]
  · have hlit : (s.chip c).wl e.1 < 3 := by
      simp only [Chip.canBegin, Bool.and_eq_true, decide_eq_true_eq] at hcan
      exact hcan.1
    have hne : w ≠ e.1 := by
      rintro rfl
      omega
    rw [hbegun, Chip.beginWl_wl_ne _ hne]
    exact h

/-! ## A wavelength is retired or fed anew (spec/11 R375, R378) -/

/-- The chiplet on which a wavelength has been retired. -/
def Chip.retireWl (x : Chip) (w : Nat) : Chip := ({ (x.forget w).setWl w 5 with wlLaser := (x.forget w).wlLaser.put w 15 } : Chip).retireIdle
theorem Chip.retireWl_wl (x : Chip) (w : Nat) : (x.retireWl w).wl w = 5 := by
  rw [Chip.retireWl, Chip.retireIdle_wl]
  exact Chip.setWl_wl_same _ w 5
theorem Chip.retireWl_failedStay (x : Chip) (w : Nat) : x.FailedStay (x.retireWl w) :=
  Chip.retireIdle_failedStay { (x.forget w).setWl w 5 with wlLaser := (x.forget w).wlLaser.put w 15 }
/-- A retirement ends by giving the turn to what waits. -/
theorem State.retireWl_eq_nextWl (s : State) (c w : Nat) : ∃ u : State, s.retireWl c w = u.nextWl c ∧ u.chip c = (s.chip c).retireWl w := by
  rw [State.retireWl]
  refine ⟨_, rfl, ?_⟩
  dsimp only
  split <;> simp [Chip.retireWl]
theorem State.retireWl_wl (s : State) (c w : Nat) : ((s.retireWl c w).chip c).wl w = 5 := by
  obtain ⟨u, hu, hchip⟩ := s.retireWl_eq_nextWl c w
  rw [hu]
  exact State.nextWl_retired (by rw [hchip, Chip.retireWl_wl])
theorem State.retireWl_failedStay (s : State) (c w : Nat) : (s.chip c).FailedStay ((s.retireWl c w).chip c) := by
  obtain ⟨u, hu, hchip⟩ := s.retireWl_eq_nextWl c w
  rw [hu]
  exact (Chip.retireWl_failedStay _ w).trans (hchip ▸ u.nextWl_failedStay c)
theorem State.refeed_failedStay (s : State) (c w : Nat) : (s.chip c).FailedStay ((s.refeed c w).chip c) := by
  rw [State.refeed]
  split
  case h_1 l hspare =>
    have hready : (s.chip c).laser l ≠ 5 := by simp [Chip.laser_of_spare hspare]
    rw [State.relane_chip, State.recordLasers_chip, State.laserEvent_chip, State.chip_setChip]
    exact Chip.feedFrom_failedStay hready w
  case h_2 =>
    split
    · exact s.retireWl_failedStay c w
    · simpa using Chip.tune_failedStay (s.chip c) w

/-! ## A laser fails (spec/11 R378) -/

/-- The lanes of a wavelength go dark without LEAVING. -/
def State.darkenWl (s : State) (c w : Nat) : State :=
  let t := s.each (chipPorts c) (fun s k => s.setPort k { s.port k with lanes := (s.port k).lanes &&& ~~~ wlMask c w })
  if c = 3 then t.oedRestart w else t
@[simp] theorem State.darkenWl_chip (s : State) (k w c : Nat) : (s.darkenWl k w).chip c = s.chip c := by
  rw [State.darkenWl]
  split <;> simp
/-- A swap or recalibration of a wavelength in progress ends. -/
def Chip.endWork (x : Chip) (w : Nat) : Chip := if x.busy.any (fun b => b.1 == w) then ((x.forget w).setWl w 0).retireIdle else x
theorem Chip.endWork_failedStay (x : Chip) (w : Nat) : x.FailedStay (x.endWork w) := by
  rw [Chip.endWork]
  split
  · exact Chip.retireIdle_failedStay ((x.forget w).setWl w 0)
  · exact .refl x

/-- A laser is marked FAILED, and the chiplet's flag is raised. -/
def State.markFailed (s : State) (c l : Nat) : State :=
  (s.setChip c { (s.chip c).setLaser l 5 with spareFor := (s.chip c).spareFor.del l }).raiseOpt c 0
theorem State.markFailed_laser (s : State) (c l : Nat) : ((s.markFailed c l).chip c).laser l = 5 := by
  rw [State.markFailed, State.raiseOpt_chip, State.chip_setChip]
  exact ((s.chip c).setLaser_laser l 5 l).trans (if_pos rfl)
/-- What follows a failure feeds, tunes or begins: none of it takes a FAILED laser. -/
theorem State.failLaser_laser {s : State} {c l : Nat} (h4 : (s.chip c).laser l ≠ 4) (h5 : (s.chip c).laser l ≠ 5) :
    ((s.failLaser c l).chip c).laser l = 5 := by
  suffices hstay : ((s.markFailed c l).chip c).FailedStay ((s.failLaser c l).chip c) from hstay l (s.markFailed_laser c l)
  have hrecorded : ((s.markFailed c l).chip c).FailedStay (((s.markFailed c l).recordLasers c).chip c) :=
    State.recordLasers_chip (s.markFailed c l) c c ▸ .refl _
  rw [State.failLaser]
  simp only [h4, h5, decide_false, Bool.or_self, Bool.false_eq_true, if_false]
  split
  case h_1 =>
    split
    case h_1 => exact hrecorded
    case h_2 w _ =>
      split
      · exact (s.markFailed c l).refeed_failedStay c w
      · split
        · rw [State.recordLasers_chip, State.chip_setChip]
          exact ((s.markFailed c l).chip c).tune_failedStay w
        · exact hrecorded
  case h_2 w _ =>
    let dark := (s.markFailed c l).darkenWl c w
    have hended : ((s.markFailed c l).chip c).FailedStay ((dark.chip c).endWork w) := by
      rw [State.darkenWl_chip]
      exact Chip.endWork_failedStay _ w
    have hfed := (dark.setChip c ((dark.chip c).endWork w)).refeed_failedStay c w
    rw [State.chip_setChip] at hfed
    exact (hended.trans hfed).trans (State.nextWl_failedStay _ c)

/-! ## A wavelength moves by its laser's average (spec/11 R374, R375) -/

section
variable {s : State} {c w : Nat} {d : Int}

theorem State.moveWl_normal (hwl : (s.chip c).wl w = 0) (hd : -100 < d) (crossed : Bool) : s.moveWl c w d crossed = s := by
  simp [State.moveWl, hwl, Int.not_le.mpr hd]
theorem State.moveWl_normal_warns (hwl : (s.chip c).wl w = 0) (hd : d ≤ -100) (crossed : Bool) :
    s.moveWl c w d crossed = (s.wlTo c w 1).moveWl c w d crossed := by
  simp [State.moveWl, hwl, hd]
theorem State.moveWl_warn (hwl : (s.chip c).wl w = 1) (hd : -150 < d) (crossed : Bool) :
    s.moveWl c w d crossed = if -75 ≤ d then s.setChip c ((s.chip c).setWl w 0) else s := by
  simp [State.moveWl, hwl, Int.not_le.mpr hd]
theorem State.moveWl_warn_prepares (hwl : (s.chip c).wl w = 1) (hd : d ≤ -150) (crossed : Bool) :
    s.moveWl c w d crossed = ((s.setChip c ((s.chip c).tune w)).wlTo c w 2).moveWl c w d crossed := by
  simp [State.moveWl, hwl, hd]
theorem State.moveWl_prepared (hwl : (s.chip c).wl w = 2) (hd : -200 < d) (crossed : Bool) :
    s.moveWl c w d crossed = if -125 ≤ d then
        (if -75 ≤ d then (s.wlTo c w 1).setChip c (((s.wlTo c w 1).chip c).setWl w 0) else s.wlTo c w 1) else s := by
  simp [State.moveWl, hwl, Int.not_le.mpr hd]
theorem State.moveWl_retires (hwl : (s.chip c).wl w = 2) (hd : d ≤ -200) (hspare : (s.chip c).noSpare w = true) (crossed : Bool) :
    s.moveWl c w d crossed = s.retireWl c w := by
  simp [State.moveWl, hwl, hd, hspare]
theorem State.moveWl_swaps (hwl : (s.chip c).wl w = 2) (hd : d ≤ -200) (hready : ((s.chip c).spare w 3).isSome = true)
    (hauto : (s.chip c).autoSwap = true) (crossed : Bool) : s.moveWl c w d crossed = s.beginWl c w true := by
  have hspare : (s.chip c).noSpare w = false := by simp [Chip.noSpare, Option.isNone_eq_false_iff.mpr hready]
  simp [State.moveWl, hwl, hd, hspare, hready, hauto]

theorem State.moveWl_wl_warn (hwl : (s.chip c).wl w = 0) (hlo : -150 < d) (hhi : d ≤ -100) (crossed : Bool) :
    ((s.moveWl c w d crossed).chip c).wl w = 1 := by
  have hwarn : ((s.wlTo c w 1).chip c).wl w = 1 := by simp
  rw [State.moveWl_normal_warns hwl hhi, State.moveWl_warn hwarn hlo, if_neg (by omega), hwarn]
/-- From WARN at -1.5 dB; from NORMAL by way of WARN. -/
theorem State.moveWl_wl_prepared (hwl : (s.chip c).wl w < 2) (hlo : -200 < d) (hhi : d ≤ -150) (crossed : Bool) :
    ((s.moveWl c w d crossed).chip c).wl w = 2 := by
  have hfromWarn : ∀ t : State, (t.chip c).wl w = 1 → ((t.moveWl c w d crossed).chip c).wl w = 2 := fun t ht => by
    have hprep : (((t.setChip c ((t.chip c).tune w)).wlTo c w 2).chip c).wl w = 2 := by simp
    rw [State.moveWl_warn_prepares ht hhi, State.moveWl_prepared hprep hlo, if_neg (by omega), hprep]
  obtain hnormal | hwarn : (s.chip c).wl w = 0 ∨ (s.chip c).wl w = 1 := by omega
  · rw [State.moveWl_normal_warns hnormal (by omega)]
    exact hfromWarn _ (by simp)
  · exact hfromWarn s hwarn
theorem State.moveWl_wl_swapping (hwl : (s.chip c).wl w = 2) (hd : d ≤ -200) (hready : ((s.chip c).spare w 3).isSome = true)
    (hauto : (s.chip c).autoSwap = true) (hbusy : (s.chip c).busy = none) (hsteer : (s.chip c).steering = false) (hsus : s.suspended c = false) (crossed : Bool) :
    ((s.moveWl c w d crossed).chip c).wl w = 3 ∧ ((s.moveWl c w d crossed).chip c).busy = some (w, true) := by
  rw [State.moveWl_swaps hwl hd hready hauto, State.beginWl_chip hbusy hsteer hsus]
  exact Chip.beginWl_swap hready
theorem State.moveWl_wl_backToWarn (hwl : (s.chip c).wl w = 2) (hlo : -125 ≤ d) (hhi : d < -75) (crossed : Bool) :
    ((s.moveWl c w d crossed).chip c).wl w = 1 := by
  rw [State.moveWl_prepared hwl (by omega), if_pos hlo, if_neg (by omega)]
  simp
theorem State.moveWl_wl_backToNormal (hwl : (s.chip c).wl w = 1 ∨ (s.chip c).wl w = 2) (hd : -75 ≤ d) (crossed : Bool) :
    ((s.moveWl c w d crossed).chip c).wl w = 0 := by
  obtain hwarn | hprep := hwl
  · rw [State.moveWl_warn hwarn (by omega), if_pos hd]
    simp
  · rw [State.moveWl_prepared hprep (by omega), if_pos (by omega), if_pos hd]
    simp
end

/-! ## A sample (spec/11 R374, R378) -/

/-- The window of a laser's samples with a new one. -/
def State.sampleWindow (s : State) (c l : Nat) (v : Int) : List Int := (v :: Tbl.get [] (s.chip c).window l).take 100
/-- The average of the window with a new sample, against the laser's reference. -/
def State.sampleDb (s : State) (c l : Nat) (v : Int) : Int := averageOf (s.sampleWindow c l v) - s.laserRef c l
/-- A sample is kept in the laser's window and its average. -/
def State.sampled (s : State) (c l : Nat) (v : Int) : State :=
  s.setChip c { s.chip c with window := (s.chip c).window.put l (s.sampleWindow c l v), laserDb := (s.chip c).laserDb.put l (s.sampleDb c l v) }
theorem State.sampled_chip (s : State) (c l : Nat) (v : Int) : (s.sampled c l v).chip c
    = { s.chip c with window := (s.chip c).window.put l (s.sampleWindow c l v), laserDb := (s.chip c).laserDb.put l (s.sampleDb c l v) } := State.chip_setChip ..
@[simp] theorem State.sampled_wl (s : State) (c l : Nat) (v : Int) (w : Nat) : ((s.sampled c l v).chip c).wl w = (s.chip c).wl w := by
  rw [State.sampled_chip]
  rfl
@[simp] theorem State.sampled_laser (s : State) (c l : Nat) (v : Int) (k : Nat) : ((s.sampled c l v).chip c).laser k = (s.chip c).laser k := by
  rw [State.sampled_chip]
  rfl

section
variable {c l : Nat} {s : State}

theorem exec_laserSample (hc : c < 4) (hl : l < 12) (h4 : (s.chip c).laser l ≠ 4) (h5 : (s.chip c).laser l ≠ 5) (v : Int) :
    exec (.laserSample c l v) s =
      if (s.chip c).laser l = 1 then .next (s.sampled c l v)
      else if v - s.laserRef c l ≤ -600 then .next ((s.sampled c l v).failLaser c l)
      else if (s.chip c).laser l ≠ 0 || s.suspended c then .next (s.sampled c l v)
      else match (List.range 8).find? (fun w => (s.chip c).feeds w == l) with
        | some w => .next ((s.sampled c l v).moveWl c w (s.sampleDb c l v) (decide (-200 < Tbl.get 0 (s.chip c).laserDb l)))
        | none => .next (s.sampled c l v) := by
  have harm : exec (.laserSample c l v) s = execLaserSample c l v s := rfl
  have hgo : (decide (4 ≤ c) || decide (12 ≤ l) || (s.chip c).laser l == 4 || (s.chip c).laser l == 5) = false := by
    simp [hc, hl, h4, h5]
  rw [harm, execLaserSample, hgo]
  rfl
theorem exec_laserSample_moves (hc : c < 4) (hl : l < 12) (hactive : (s.chip c).laser l = 0) {v : Int} (hpower : -600 < v - s.laserRef c l)
    (hsus : s.suspended c = false) {w : Nat} (hfeeds : (List.range 8).find? (fun w => (s.chip c).feeds w == l) = some w) :
    exec (.laserSample c l v) s = .next ((s.sampled c l v).moveWl c w (s.sampleDb c l v) (decide (-200 < Tbl.get 0 (s.chip c).laserDb l))) := by
  rw [exec_laserSample hc hl (by omega) (by omega), if_neg (by omega), if_neg (by omega), if_neg (by simp [hactive, hsus]), hfeeds]
theorem exec_laserLockLoss (hc : c < 4) (hl : l < 12) : exec (.laserLockLoss c l) s = .next (s.failLaser c l) := by
  have harm : exec (.laserLockLoss c l) s = execLaserLockLoss c l s := rfl
  simp [harm, execLaserLockLoss, hc, hl]
end

end Sys2Proof.Machine

open Sys2Proof Sys2Proof.Machine

/-- Settles O39: a sample is one of four cases of the laser and its power; a move by the average is one equation for each state of the wavelength, and what follows a failure or a retirement leaves a FAILED laser and a RETIRED wavelength as they are. -/
theorem laserAveragesMoveWavelengths : Obligations.LaserAveragesMoveWavelengths := by
  unfold Obligations.LaserAveragesMoveWavelengths
  intro c l v s hc hl h4 h5 x win d s1
  have hexec := exec_laserSample hc hl h4 h5 v
  refine ⟨fun hspare => ?_, fun hspare hlow => ?_, fun hactive hspare hpower => ?_, fun w hactive hpower hsus hfeeds => ?_, ?_⟩
  · rw [hexec, if_pos hspare]
    rfl
  · rw [hexec, if_neg hspare, if_pos hlow]
    exact ⟨_, rfl, State.failLaser_laser (by rwa [State.sampled_laser]) (by rwa [State.sampled_laser])⟩
  · rw [hexec, if_neg hspare, if_neg (Int.not_le.mpr hpower), if_pos (by simpa using .inl hactive)]
    rfl
  · have hmoves := exec_laserSample_moves hc hl hactive hpower hsus hfeeds
    have hchip : s1.chip c = { x with window := x.window.put l win, laserDb := x.laserDb.put l d } := State.sampled_chip s c l v
    have hwl : (s1.chip c).wl w = x.wl w := State.sampled_wl s c l v w
    refine ⟨fun h hd => ?_, fun h hlo hhi => ⟨_, hmoves, State.moveWl_wl_warn (hwl.trans h) hlo hhi _⟩,
      fun h hlo hhi => ⟨_, hmoves, State.moveWl_wl_prepared (hwl.symm ▸ h) hlo hhi _⟩,
      fun h hd hready hauto hbusy hsteer => ⟨_, hmoves, ?_⟩,
      fun h hd hspare => ⟨_, hmoves, ?_⟩,
      fun h hlo hhi => ⟨_, hmoves, State.moveWl_wl_backToWarn (hwl.trans h) hlo hhi _⟩,
      fun h hd => ⟨_, hmoves, State.moveWl_wl_backToNormal (hwl.symm ▸ h) hd _⟩⟩
    · rw [hmoves]
      exact congrArg _ (State.moveWl_normal (hwl.trans h) hd _)
    · exact State.moveWl_wl_swapping (hwl.trans h) hd (hchip ▸ hready) (hchip ▸ hauto) (hchip ▸ hbusy) (hchip ▸ hsteer) hsus _
    · exact State.moveWl_retires (hwl.trans h) hd (hchip ▸ hspare) _ ▸ s1.retireWl_wl c w
  · exact ⟨_, exec_laserLockLoss hc hl, State.failLaser_laser h4 h5⟩
end

section
/-! SUPPORT. A command is taken from the queue and answered: what that leaves of the device, and which answer comes while an activation or a device reset is in progress (spec/12 R414, R416, R434). -/

namespace Sys2Proof.Machine

/-! ## A command that is taken and answered -/

/-- Taking a command and answering it touches at most the queue, the endpoints, their interrupts, the I3C target and the processor die. -/
abbrev Answers (s t : State) : Prop := Touch 0x40003C00 s t

theorem Answers.runs {s s1 : State} {op pv : Nat} {fields : GwyPkt → Bool} {onPart onDev : Bool} {ok : PState → Bool} {c : GwyPkt}
    (h : Claims.Runs op pv fields onPart onDev ok s c s1) : Answers s s1 :=
  State.takeCmd_touch ((Sub.refl 0x40003C00).of rfl) h.1 (.refl _ s)
theorem Answers.takeOp {s s1 : State} {g : GwyPkt → Bool} {c : GwyPkt} (h : s.takeOp g = some (c, s1)) : Answers s s1 :=
  State.takeOp_touch ((Sub.refl 0x40003C00).of rfl) h (.refl _ s)
theorem Answers.respond (s : State) (c : GwyPkt) (st det arg0 arg1 : Nat) (pl : List Byte) : Answers s (s.respond c st det arg0 arg1 pl) :=
  State.respond_touch ((Sub.refl 0x40003C00).of rfl) s c st det arg0 arg1 pl (.refl _ s)

section
variable {s t : State} (h : Answers s t)
include h
theorem Answers.allGood (errs : Errs) (a : Nat) : t.allGood errs a = s.allGood errs a := by
  rw [State.allGood, State.allGood, h.spBad rfl, h.poison rfl, h.nm rfl, h.cxls rfl]
theorem Answers.lostAt (a : Nat) : t.lostAt a = s.lostAt a := by
  rw [State.lostAt, State.lostAt, State.window, State.window, State.cxl, State.cxl, h.cxls rfl]
theorem Answers.bytes (a n : Nat) : t.bytes a n = s.bytes a n := by
  have hblank : t.blank = s.blank := by
    funext b
    simp only [State.blank, State.unitHolder, State.part_of_parts (h.parts rfl)]
  rw [State.bytes, State.bytes, h.mem rfl, hblank]
end

/-! ## Answered BUSY (spec/12 R434) -/

/-- An activation is in progress, or a device reset is to start. -/
def State.exclusive (s : State) : Prop := s.sec.fwAct ≠ none ∨ s.rst.devPending = true
theorem State.exclusive_iff (s : State) : (s.sec.fwAct.isSome || s.rst.devPending) = true ↔ s.exclusive := by
  rw [Bool.or_eq_true, ← Option.ne_none_iff_isSome, State.exclusive]
/-- Taking a command neither begins nor ends what is in progress. -/
theorem State.takeOp_exclusive {s s1 : State} {g : GwyPkt → Bool} {c : GwyPkt} (h : s.takeOp g = some (c, s1)) (hs : s.exclusive) :
    (s1.sec.fwAct.isSome || s1.rst.devPending) = true := by
  have htaken := Answers.takeOp h
  rw [htaken.sec rfl, htaken.rst rfl]
  exact (State.exclusive_iff s).mpr hs

section
variable {s s1 : State} {c : GwyPkt}

theorem exec_fwActivate_busy (h : Claims.RunsOp 0x31 (fun c => isComp c.arg0.toNat && c.arg1 == 0 && c.payload.isEmpty) s c s1) (hs : s.exclusive) :
    exec .fwActivate s = .next (s1.respond c 0x0B 0 0 0 []) := by
  obtain ⟨htake, haccept⟩ := h
  have harm : exec .fwActivate s = execFwActivate s := rfl
  rw [harm, execFwActivate, htake]
  simp only [haccept, State.takeOp_exclusive htake hs, if_true]
theorem exec_resetDevice_busy (h : Claims.RunsReset 2 (fun c => c.arg0 == 2 && c.arg1 == 0 && c.payload.isEmpty) s c s1) (hs : s.exclusive) :
    exec .resetDevice s = .next (s1.respond c 0x0B 0 0 0 []) := by
  obtain ⟨htake, haccept⟩ := h
  have harm : exec .resetDevice s = execResetDevice s := rfl
  rw [harm, execResetDevice, htake]
  simp only [haccept, State.takeOp_exclusive htake hs, if_true]
/-- The component that is being activated takes no bytes. -/
theorem exec_fwStage_busy (h : Claims.RunsOp 0x30 (fun c => bitsOf c.arg0.toNat 8 24 == 0 && isComp (bitsOf c.arg0.toNat 0 8)) s c s1)
    {a : FwAct} (hact : s.sec.fwAct = some a) (hcomp : a.comp = bitsOf c.arg0.toNat 0 8) : exec .fwStage s = .next (s1.respond c 0x0B 0 0 0 []) := by
  obtain ⟨htake, haccept⟩ := h
  have hsec : s1.sec = s.sec := (Answers.takeOp htake).sec rfl
  have harm : exec .fwStage s = execFwStage s := rfl
  rw [harm, execFwStage, htake]
  simp only [haccept, hsec, hact, hcomp, Option.any_some, beq_self_eq_true, if_true]
/-- The check for what is in progress comes before the operation's own. -/
theorem State.runPriv_busy {op n k : Nat}
    (haccept : s.acceptCmd c (bitsOf c.arg0.toNat 8 56 == 0 && c.arg1 == 0 && privOk op n k c.payload) false true (fun _ => true) = none)
    (hs : (s.sec.fwAct.isSome || s.rst.devPending) = true) (needs signed : Bool) (limits : Option (Nat × Nat)) (effect : State → State) :
    s.runPriv c op n k needs signed limits effect = s.respond c 0x0B 0 0 0 [] := by
  simp only [State.runPriv, haccept, hs, if_true]
/-- Every operation of spec/13 Table 13-7 runs by the same checks. -/
theorem exec_priv {op n k : Nat} {i : Instr}
    (hi : (op, n, k, i) ∈ [(1, 136, 1, Instr.ownerChange), (2, 4, 1, .debugEnable), (3, 0, 1, .debugLock), (4, 4, 1, .keyRevoke),
      (5, 0, 2, .mfgMode), (6, 140, 1, .imageKeyEnroll), (7, 8, 1, .imageMinVersion)])
    (htake : s.takeOp (isPriv op) = some (c, s1)) :
    ∃ needs signed limits effect, exec i s = .next (s1.runPriv c op n k needs signed limits effect) := by
  simp only [List.mem_cons, Prod.mk.injEq, List.not_mem_nil, or_false] at hi
  obtain ⟨rfl, rfl, rfl, rfl⟩ | ⟨rfl, rfl, rfl, rfl⟩ | ⟨rfl, rfl, rfl, rfl⟩ | ⟨rfl, rfl, rfl, rfl⟩ | ⟨rfl, rfl, rfl, rfl⟩ | ⟨rfl, rfl, rfl, rfl⟩
    | ⟨rfl, rfl, rfl, rfl⟩ := hi
  · exact ⟨_, _, _, _, (show execOwnerChange s = _ by rw [execOwnerChange, htake])⟩
  · exact ⟨_, _, _, _, (show execDebugEnable s = _ by rw [execDebugEnable, htake])⟩
  · exact ⟨_, _, _, _, (show execDebugLock s = _ by rw [execDebugLock, htake])⟩
  · exact ⟨_, _, _, _, (show execKeyRevoke s = _ by rw [execKeyRevoke, htake])⟩
  · exact ⟨_, _, _, _, (show execMfgMode s = _ by rw [execMfgMode, htake])⟩
  · exact ⟨_, _, _, _, (show execImageKeyEnroll s = _ by rw [execImageKeyEnroll, htake])⟩
  · exact ⟨_, _, _, _, (show execImageMinVersion s = _ by rw [execImageMinVersion, htake])⟩
end

end Sys2Proof.Machine

open Sys2Proof Sys2Proof.Machine

/-- Settles O60: taking the command leaves what is in progress, and each operation looks for it before it does anything. -/
theorem busyWhileAnotherIsInProgress : Obligations.BusyWhileAnotherIsInProgress := by
  unfold Obligations.BusyWhileAnotherIsInProgress
  intro s s1 c
  refine ⟨fun hs => ⟨fun h => exec_fwActivate_busy h hs, fun h => exec_resetDevice_busy h hs, fun op n k i hi htake haccept => ?_⟩,
    fun a hact hcomp h => exec_fwStage_busy h hact hcomp⟩
  obtain ⟨needs, signed, limits, effect, hexec⟩ := exec_priv hi htake
  rw [hexec, State.runPriv_busy haccept (State.takeOp_exclusive htake hs)]
end

section
/-! SUPPORT. MEM_WRITE, MEM_READ and TELEM: an access of good storage, and its answer (spec/12 R431, R436). -/

namespace Sys2Proof.Machine

/-- A write by the host into good storage is the write of its bytes. -/
theorem State.devWrite_of_allGood {s : State} {errs : Errs} {a : Nat} (h : s.allGood errs a = true) (hlost : s.lostAt a = false) (l : List Byte) :
    s.devWrite a l errs = (s.poke a l, true) := by
  rw [State.devWrite, State.writeMem, h, hlost]
  rfl
/-- A read by the host of good storage leaves no trace. -/
theorem State.devRead_of_allGood {s : State} {errs : Errs} {a : Nat} (h : s.allGood errs a = true) (n : Nat) :
    s.devRead a n errs = (s, s.bytes a n, true) := by
  rw [State.devRead, State.readMem, State.noteRange_of_allGood h, State.fill, if_pos h, h, Bool.true_or]

section
variable {pv : Nat} {s s1 : State} {c : GwyPkt}

theorem exec_memWrite (h : Claims.Runs 0x10 pv (fun c => c.arg1 == 0) true false legalMem s c s1) (halign : c.arg0.toNat % 4 = 0)
    (hmay : s1.hostMay pv c.arg0.toNat c.payload.length true = true) (hheld : s1.memHeld c.arg0.toNat c.payload.length = false) (errs : Errs) :
    exec (.memWrite pv errs) s
      = .next ((s1.memAnswer c (s1.devWrite c.arg0.toNat c.payload errs).2 0 []).devWrite c.arg0.toNat c.payload errs).1.settle := by
  obtain ⟨htake, haccept⟩ := h
  have harm : exec (.memWrite pv errs) s = execMemWrite pv errs s := rfl
  rw [harm, execMemWrite, htake]
  simp only [haccept, halign, hmay, hheld]
  rfl
theorem exec_memRead (h : Claims.Runs 0x11 pv (fun c => c.payload.isEmpty) true false legalMem s c s1)
    (hlow : 4 ≤ c.arg1.toNat) (hhigh : c.arg1.toNat ≤ 65536) (hwords : c.arg1.toNat % 4 = 0) (halign : c.arg0.toNat % 4 = 0)
    (hmay : s1.hostMay pv c.arg0.toNat c.arg1.toNat false = true) (hheld : s1.memHeld c.arg0.toNat c.arg1.toNat = false) (errs : Errs) :
    exec (.memRead pv errs) s
      = .next ((s1.memAnswer c (s1.devRead c.arg0.toNat c.arg1.toNat errs).2.2 0 (s1.devRead c.arg0.toNat c.arg1.toNat errs).2.1).devRead
          c.arg0.toNat c.arg1.toNat errs).1.settle := by
  obtain ⟨htake, haccept⟩ := h
  have harm : exec (.memRead pv errs) s = execMemRead pv errs s := rfl
  rw [harm, execMemRead, htake]
  simp only [haccept, Nat.not_lt.mpr hlow, Nat.not_lt.mpr hhigh, hwords, halign, hmay, hheld]
  rfl
theorem exec_telem (h : Claims.Runs 0x40 pv (fun c => c.arg1 == 0 && c.payload.isEmpty && c.arg0 == (if pv = 15 then 0 else 1)) true true
      (fun st => st != .free) s c s1) :
    exec (.telem pv) s = .next (s1.respond c 0 0 0 0 (if pv = 15 then s1.telemDevice none else s1.telemPart pv)) := by
  obtain ⟨htake, haccept⟩ := h
  have harm : exec (.telem pv) s = execTelem pv s := rfl
  rw [harm, execTelem, htake]
  simp only [haccept]
end

end Sys2Proof.Machine

open Sys2Proof Sys2Proof.Machine

/-- Settles O35: taking and answering the command leaves memory and its errors as they are, so the access is the one of the good storage there was. -/
theorem hostReadsAndWritesMemory : Obligations.HostReadsAndWritesMemory := by
  unfold Obligations.HostReadsAndWritesMemory
  intro pv s s1 c a
  refine ⟨fun h halign hmay hheld hgood hlost => ?_, fun h hlow hhigh hwords halign hmay hheld hgood => ?_, exec_telem⟩
  · have htaken : Answers s s1 := .runs h
    have hanswered : Answers s _ := htaken.trans (Answers.respond s1 c 0 0 0 0 [])
    rw [exec_memWrite h halign hmay hheld, State.devWrite_of_allGood ((htaken.allGood [] a).trans hgood) ((htaken.lostAt a).trans hlost)]
    simp only [State.memAnswer, if_true]
    rw [State.devWrite_of_allGood ((hanswered.allGood [] a).trans hgood) ((hanswered.lostAt a).trans hlost), State.poke, hanswered.mem rfl]
  · have htaken : Answers s s1 := .runs h
    have hanswered : Answers s _ := htaken.trans (Answers.respond s1 c 0 0 0 0 (s.bytes a c.arg1.toNat))
    rw [exec_memRead h hlow hhigh hwords halign hmay hheld, State.devRead_of_allGood ((htaken.allGood [] a).trans hgood), htaken.bytes]
    simp only [State.memAnswer, if_true]
    rw [State.devRead_of_allGood ((hanswered.allGood [] a).trans hgood)]
end

section
/-! SUPPORT. CLAIM, RELEASE and the end of a thaw: what a grant, a partition's reset and a scrub leave of partitions, floes and memory (spec/12 R420 to R422, R438, spec/13 R471). -/

namespace Sys2Proof.Machine

/-! ## Ranges of memory are forgotten one after the other -/

/-- What the update for an element brings about in a state that meets Q holds afterwards, where every update keeps Q and no other update undoes it. -/
theorem State.each_establishes_of_kept {α : Type} {Q : State → Prop} {P : State → α → Prop} {op : State → α → State} (hQ : ∀ s x, Q s → Q (op s x))
    (hset : ∀ s x, Q s → P (op s x) x) (hkeep : ∀ s x y, P s x → P (op s y) x) (l : List α) {s : State} (hs : Q s) : ∀ x ∈ l, P (s.each l op) x := by
  intro x hx
  obtain ⟨before, after, rfl⟩ := List.append_of_mem hx
  rw [State.each, List.foldl_append, List.foldl_cons]
  have hbefore : Q (before.foldl op s) := List.foldlRecOn before op hs (fun t ht y _ => hQ t y ht)
  exact List.foldlRecOn after op (hset _ x hbefore) (fun t ht y _ => hkeep t x y ht)
theorem cellAt_eq_none_iff {m : List Host.Cell} {x : Nat} : cellAt m x = none ↔ ∀ c ∈ m, c.1 ≠ x := by
  refine ⟨fun h => ?_, cellAt_none⟩
  induction m with
  | nil => simp
  | cons c r ih =>
    rw [cellAt] at h
    split at h
    · cases h
    · exact List.forall_mem_cons.mpr ⟨‹_›, ih h⟩
/-- A byte that is not listed is not listed after a range is forgotten. -/
theorem cellAt_dropBytes_of_none {m : List Host.Cell} {x : Nat} (h : cellAt m x = none) (a n : Nat) : cellAt (dropBytes m a n) x = none := by
  rw [cellAt_eq_none_iff] at h ⊢
  intro c hc
  obtain hc | hc := List.mem_append.mp hc
  · exact h c ((cellsBelow_sublist _ _).subset hc)
  · exact h c ((cellsFrom_sublist _ _).subset hc)
/-- No byte of a range that is forgotten is listed. -/
theorem cellAt_dropBytes {m : List Host.Cell} (hm : Memory.wf m = true) {a n x : Nat} (hlow : a ≤ x) (hhigh : x < a + n) :
    cellAt (dropBytes m a n) x = none := by
  obtain ⟨hsorted, -⟩ := (Memory.wf_iff m).mp hm
  refine cellAt_none fun c hc => ?_
  obtain hc | hc := List.mem_append.mp hc
  · have := cellsBelow_lt hc
    omega
  · have := cellsFrom_ge hsorted hc
    omega
/-- After updates that each forget a range, no byte of these ranges is listed. -/
theorem State.each_dropBytes {α : Type} {op : State → α → State} {lo : α → Nat} {n : Nat} (hop : ∀ s x, (op s x).mem = dropBytes s.mem (lo x) n)
    (l : List α) {s : State} (hs : Memory.wf s.mem = true) : ∀ x ∈ l, ∀ i < n, cellAt (s.each l op).mem (lo x + i) = none := by
  refine State.each_establishes_of_kept (Q := fun s => Memory.wf s.mem = true) (P := fun s x => ∀ i < n, cellAt s.mem (lo x + i) = none)
    (fun s x h => ?_) (fun s x h i hi => ?_) (fun s x y h i hi => ?_) l hs <;> rw [hop]
  · exact dropBytes_wf _ _ h
  · exact cellAt_dropBytes h (Nat.le_add_right ..) (Nat.add_lt_add_left hi _)
  · exact cellAt_dropBytes_of_none (h i hi) ..

/-! ## CLAIM (spec/12 R420, R421) -/

section
variable {p : Nat} {s s1 : State} {c : GwyPkt}
  (h : Claims.Runs 0x01 p (fun c => c.arg0 == 0 && c.arg1 == 0 && claimZeros c.payload) true false (fun st => st == .free) s c s1)
  (hready : s.rst.phase = .ready) (hrecord : claimOk c.payload = true) (hmfg : s.sec.mfg = false)
include h hready hrecord hmfg

theorem exec_claim : exec (.claim p) s = .next ((s1.claimMisfit c.payload).elim ((s1.claimGrant p c.src c.payload).respond c 0 0 0 0 [])
    (fun code => s1.respond c 0x03 code 0 0 [])) := by
  have hmfg1 : s1.sec.mfg = false := by rw [(Answers.runs h).sec rfl, hmfg]
  obtain ⟨htake, haccept⟩ := h
  have harm : exec (.claim p) s = execClaim p s := rfl
  rw [harm, execClaim, if_neg (not_not_intro hready), htake]
  cases hmisfit : s1.claimMisfit c.payload <;>
    simp only [haccept, hrecord, hmfg1, hmisfit, Bool.not_true, Bool.false_eq_true, if_false, Option.elim]
end

/-- A partition as the claim record l leaves it, bound to endpoint e by claim n. -/
def claimedPart (e : Nat) (n : Nat) (l : List Byte) : Part :=
  { st := .claimed, owner := some e, groups := BitVec.ofNat 26 (leAt l 0 4), near := unitsOf (readRanges (leAt l 8 2) (l.drop 16)),
    cxl := unitsOf (readRanges (leAt l 10 2) (l.drop (16 + 8 * leAt l 8 2))), claimNo := n, keys := true }
theorem State.claimGrant_part (s : State) (p e : Nat) (l : List Byte) : (s.claimGrant p e l).part p = claimedPart e (s.sec.claims + 1) l :=
  State.part_setPart ..
theorem State.claimGrant_part_ne (s : State) {p q : Nat} (h : q ≠ p) (e : Nat) (l : List Byte) : (s.claimGrant p e l).part q = s.part q :=
  State.part_setPart_ne _ _ h
theorem State.claimGrant_steer (s : State) (p e : Nat) (l : List Byte) : (s.claimGrant p e l).steer = if leAt l 4 1 = 1 then some p else s.steer := rfl
theorem State.claimGrant_claims (s : State) (p e : Nat) (l : List Byte) : (s.claimGrant p e l).sec.claims = s.sec.claims + 1 := rfl

/-! ## A partition's floes are reset (spec/12 R438, spec/15 R498) -/

theorem State.resetFloe_floe (s : State) (f : Nat) : (s.resetFloe f).floe f = {} := State.floe_setFloe s f {}
theorem State.resetFloe_floe_ne (s : State) {f g : Nat} (h : g ≠ f) : (s.resetFloe f).floe g = s.floe g := State.floe_setFloe_ne s {} h
theorem State.resetFloe_mem (s : State) (f : Nat) : (s.resetFloe f).mem = dropBytes s.mem (spAddr f 0) spStride := rfl
/-- The accepted instructions of a partition's floes are abandoned. -/
def State.abandonFloes (s : State) (p : Nat) : State := s.each (s.partFloes p) (fun s f => s.abandonFloe f)
theorem State.abandonFloes_touch (s : State) (p : Nat) : Touch 0x800000080 s (s.abandonFloes p) :=
  State.each_touch (fun s f h => State.abandonFloe_touch (Sub.refl _) s f h) (.refl _ s)
/-- The floes of a partition are reset once what they had accepted is abandoned. -/
def State.resetFloes (s : State) (p : Nat) : State := (s.abandonFloes p).each (s.partFloes p) (fun s f => s.resetFloe f)
theorem State.resetFloes_parts (s : State) (p : Nat) : (s.resetFloes p).parts = s.parts :=
  (State.each_touch (fun s f h => State.resetFloe_touch (m := 0xF0000018C) ((Sub.refl _).of rfl) s f h)
    ((State.each_touch (fun s f h => State.abandonFloe_touch ((Sub.refl _).of rfl) s f h) (.refl _ s)))).parts rfl
theorem State.resetPart_eq (s : State) (p : Nat) : s.resetPart p = (s.resetFloes p).setPart p (s.part p).cleared :=
  congrArg (fun x : Part => (s.resetFloes p).setPart p x.cleared) (State.part_of_parts (s.resetFloes_parts p) p)
theorem State.resetPart_part (s : State) (p : Nat) : (s.resetPart p).part p = (s.part p).cleared := by
  rw [State.resetPart_eq, State.part_setPart]
theorem State.resetPart_floe (s : State) (p : Nat) : ∀ f ∈ s.partFloes p, (s.resetPart p).floe f = {} := by
  rw [State.resetPart_eq]
  refine State.each_establishes (P := fun s f => s.floe f = {}) State.resetFloe_floe (fun s f g h => ?_) _ _
  by_cases hf : f = g
  · rw [hf, State.resetFloe_floe]
  · rw [State.resetFloe_floe_ne s hf, h]
theorem State.resetPart_cellAt {s : State} (hs : Memory.wf s.mem = true) (p : Nat) :
    ∀ f ∈ s.partFloes p, ∀ off < spStride, cellAt (s.resetPart p).mem (spAddr f off) = none := by
  rw [State.resetPart_eq]
  exact State.each_dropBytes State.resetFloe_mem _ ((s.abandonFloes_touch p).wf hs)
/-- A place of a scratchpad that is not listed reads 0. -/
theorem State.byte_spAddr {s : State} {p f off : Nat} (hf : f ∈ s.partFloes p) (hoff : off < spStride) (t : State)
    (h : cellAt t.mem (spAddr f off) = none) : t.byte (spAddr f off) = 0 := by
  have hfloe : f < 208 := List.mem_range.mp (List.mem_filter.mp hf).1
  have hsp : isSp (spAddr f off) = true := by
    rw [isSp, Bool.and_eq_true, decide_eq_true_eq, decide_eq_true_eq, spAddr]
    rw [spStride] at *
    omega
  rw [State.byte, h, State.blank, if_pos hsp]
  rfl

/-! ## RELEASE begins the thaw (spec/12 R422, spec/13 R471) -/

theorem exec_release {p : Nat} {s s1 : State} {c : GwyPkt} (h : Claims.Runs 0x02 p Claims.bare true false (fun st => st != .free && st != .thawing) s c s1)
    (hcalving : s.calving p = false) : exec (.release p) s = .next ((s1.respond c 0x01 0 0 0 []).beginThaw p) := by
  obtain ⟨htake, haccept⟩ := h
  have harm : exec (.release p) s = execRelease p s := rfl
  rw [Claims.bare] at haccept
  rw [harm, execRelease, hcalving, htake]
  simp only [haccept, Bool.false_eq_true, if_false]
/-- What was steered for a partition is released at its thaw. -/
def State.returnSteer (s : State) (p : Nat) : State := if s.steer = some p then { s with steer := none }.planRelease else s
theorem State.returnSteer_touch {m : Nat} (hm : Sub 0xC0040 m) (s : State) (p : Nat) : Touch m s (s.returnSteer p) := by
  rw [State.returnSteer]
  split
  · exact State.planRelease_touch (hm.of rfl) _ (Touch.upd_steer (hm.of rfl) (.refl m s))
  · exact .refl m s
theorem State.returnSteer_steer (s : State) (p : Nat) : (s.returnSteer p).steer ≠ some p := by
  rw [State.returnSteer]
  split
  · rw [(State.planRelease_touch (Sub.refl _) _ (.refl _ _)).steer rfl]
    simp
  · assumption
/-- A partition's keys are destroyed and its scrub begins. -/
def State.beginScrub (s : State) (p : Nat) : State :=
  let t := (s.destroyKeys p).newScrub
  t.setPart p { t.part p with st := .thawing, thawWeight := bitsOf t.nm.weight.toNat (4 * p) 4 }
theorem State.beginScrub_touch {m : Nat} (hm : Sub 0x8100010 m) {s0 s : State} (h : Touch m s0 s) (p : Nat) : Touch m s0 (s.beginScrub p) :=
  State.setPart_touch (hm.of rfl) _ _ _ (State.newScrub_touch (hm.of rfl) _ (State.destroyKeys_touch (hm.of rfl) s p h))
theorem State.beginScrub_part (s : State) (p : Nat) :
    (s.beginScrub p).part p = { s.part p with keys := false, st := .thawing, thawWeight := bitsOf s.nm.weight.toNat (4 * p) 4 } := by
  have hkeys : ((s.destroyKeys p).newScrub).part p = { s.part p with keys := false } := State.part_setPart ..
  rw [State.beginScrub, State.part_setPart, hkeys]
  rfl
theorem State.beginThaw_eq (s : State) (p : Nat) : s.beginThaw p = (((s.abandonOpen p).resetPart p).returnSteer p).beginScrub p := rfl
/-- Once the partition is reset, only steering, its entry and the keys change. -/
theorem State.beginThaw_touch_resetPart (s : State) (p : Nat) : Touch 0x81C0050 ((s.abandonOpen p).resetPart p) (s.beginThaw p) :=
  State.beginScrub_touch ((Sub.refl _).of rfl) (State.returnSteer_touch ((Sub.refl _).of rfl) _ p) p
theorem State.abandonOpen_part (s : State) (p q : Nat) : (s.abandonOpen p).part q = s.part q :=
  State.part_of_parts ((State.abandonOpen_touch (Sub.refl _) s p (.refl _ s)).parts rfl) q
theorem State.abandonOpen_partFloes (s : State) (p q : Nat) : (s.abandonOpen p).partFloes q = s.partFloes q :=
  State.partFloes_of_groups (by rw [State.abandonOpen_part])
theorem State.beginThaw_part (s : State) (p : Nat) :
    ∃ weight, (s.beginThaw p).part p = { (s.part p).cleared with keys := false, st := .thawing, thawWeight := weight } := by
  have hparts := (State.returnSteer_touch (Sub.refl _) ((s.abandonOpen p).resetPart p) p).parts rfl
  rw [State.beginThaw_eq, State.beginScrub_part, State.part_of_parts hparts, State.resetPart_part, State.abandonOpen_part]
  exact ⟨_, rfl⟩
theorem State.beginThaw_steer (s : State) (p : Nat) : (s.beginThaw p).steer ≠ some p := by
  rw [State.beginThaw_eq, (State.beginScrub_touch (Sub.refl _) (.refl _ _) p).steer rfl]
  exact State.returnSteer_steer _ p
theorem State.beginThaw_floe (s : State) (p : Nat) : ∀ f ∈ s.partFloes p, (s.beginThaw p).floe f = {} := by
  intro f hf
  rw [State.floe_of_floes ((s.beginThaw_touch_resetPart p).floes rfl)]
  exact State.resetPart_floe _ p f (by rwa [State.abandonOpen_partFloes])
theorem State.beginThaw_byte {s : State} (hs : Memory.wf s.mem = true) {p f off : Nat} (hf : f ∈ s.partFloes p) (hoff : off < spSize) :
    (s.beginThaw p).byte (spAddr f off) = 0 := by
  have hwindow : off < spStride := Nat.lt_trans hoff (by decide)
  refine State.byte_spAddr hf hwindow _ ?_
  rw [(s.beginThaw_touch_resetPart p).mem rfl]
  exact State.resetPart_cellAt ((State.abandonOpen_touch (Sub.refl _) s p (.refl _ s)).wf hs) p f (by rwa [State.abandonOpen_partFloes]) off hwindow

/-! ## The thaw ends (spec/13 R471) -/

theorem exec_thawDone {p : Nat} {s : State} (h : (s.part p).st = .thawing) : exec (.thawDone p) s = .next (s.endThaw p) := by
  have harm : exec (.thawDone p) s = execThawDone p s := rfl
  rw [harm, execThawDone, h]
/-- A partition's units are scrubbed. -/
def State.scrubUnits (s : State) (p : Nat) : State := s.each (s.part p).unitBases (fun s a => s.scrubUnit a)
theorem State.scrubUnit_mem (s : State) (a : Nat) : (s.scrubUnit a).mem = dropBytes s.mem a (2 ^ 30) := by
  rw [State.scrubUnit]
  split <;> rfl
theorem State.scrubUnits_cellAt {s : State} (hs : Memory.wf s.mem = true) (p : Nat) :
    ∀ b ∈ (s.part p).unitBases, ∀ i < 2 ^ 30, cellAt (s.scrubUnits p).mem (b + i) = none :=
  State.each_dropBytes (lo := id) State.scrubUnit_mem _ hs
/-- A partition is FREE: its units scrubbed, its weights and its entry at their reset values, a new measurement epoch begun. -/
def State.freePart (s : State) (p : Nat) : State :=
  let s1 := s.scrubUnits p
  let s2 := { s1 with nm := { s1.nm with weight := setNibble s1.nm.weight p 4 } }
  let s3 := s2.setRouter { s2.router with partWeight := setNibble s2.router.partWeight p 4 }
  s3.newEpoch.setPart p { claimNo := (s.part p).claimNo }
theorem State.freePart_part (s : State) (p : Nat) : (s.freePart p).part p = { claimNo := (s.part p).claimNo } := State.part_setPart ..
theorem State.freePart_mem (s : State) (p : Nat) : (s.freePart p).mem = (s.scrubUnits p).mem := rfl
/-- What follows tells the hosts, and leaves partitions and memory. -/
theorem State.endThaw_touch_freePart (s : State) (p : Nat) : Touch 0x144021400 (s.freePart p) (s.endThaw p) := by
  have hm := Sub.refl 0x144021400
  rw [State.endThaw]
  cases (s.part p).owner with
  | none => exact State.attestReady_touch (hm.of rfl) _ (State.afterThaw_touch (hm.of rfl) _ (State.clearSeq_touch (hm.of rfl) _ p (.refl _ (s.freePart p))))
  | some e =>
    exact State.attestReady_touch (hm.of rfl) _ (State.afterThaw_touch (hm.of rfl) _ (State.clearSeq_touch (hm.of rfl) _ p
      (State.event_touch (hm.of rfl) (s.freePart p) e p 0x08 0xFF [] (.refl _ _))))

end Sys2Proof.Machine

open Sys2Proof Sys2Proof.Machine

/-- Settles O32: a claim that fits is the grant it names, a release is the reset of the partition's floes with keys and steering gone, and the scrub of each unit outlasts those of the others. -/
theorem claimsAndReleases : Obligations.ClaimsAndReleases := by
  unfold Obligations.ClaimsAndReleases
  intro p s s1 c
  refine ⟨fun h hready hrecord hmfg => ?_, fun h hcalving => ?_, fun hthawing => ?_⟩
  · have hexec := exec_claim h hready hrecord hmfg
    refine ⟨fun code hmisfit => by rw [hexec, hmisfit, Option.elim], fun hmisfit => ⟨_, by rw [hexec, hmisfit, Option.elim], ?_⟩⟩
    have htaken : Answers s s1 := .runs h
    have hanswered : Answers (s1.claimGrant p c.src c.payload) _ := .respond _ c 0 0 0 0 []
    have hpart := State.part_of_parts (hanswered.parts rfl)
    have hown := (hpart p).trans (State.claimGrant_part ..)
    have hsteer := hanswered.steer rfl
    rw [State.claimGrant_steer, htaken.steer rfl] at hsteer
    rw [htaken.sec rfl] at hown
    refine ⟨congrArg Part.st hown, congrArg Part.owner hown, congrArg Part.keys hown, congrArg Part.groups hown, congrArg Part.near hown,
      congrArg Part.claimNo hown, ?_, fun h => ?_, fun h => ?_, fun q hq => ?_⟩
    · rw [hanswered.sec rfl, State.claimGrant_claims, htaken.sec rfl]
    · rw [hsteer, if_pos h]
    · rw [hsteer, if_neg h]
    · rw [hpart q, State.claimGrant_part_ne s1 hq, State.part_of_parts (htaken.parts rfl)]
  · have hanswered : Answers s (s1.respond c 0x01 0 0 0 []) := Touch.trans (Answers.runs h) (Answers.respond s1 c 0x01 0 0 0 [])
    have hfloes : (s1.respond c 0x01 0 0 0 []).partFloes p = s.partFloes p :=
      State.partFloes_of_groups (by rw [State.part_of_parts (hanswered.parts rfl)])
    obtain ⟨weight, hpart⟩ := (s1.respond c 0x01 0 0 0 []).beginThaw_part p
    refine ⟨_, exec_release h hcalving, congrArg Part.st hpart, congrArg Part.keys hpart, congrArg Part.image hpart, congrArg Part.steps hpart,
      State.beginThaw_steer _ p, fun f hf => ?_⟩
    rw [← hfloes] at hf
    exact ⟨State.beginThaw_floe _ p f hf, fun hs off hoff => State.beginThaw_byte (hanswered.wf hs) hf hoff⟩
  · have hfreed := s.endThaw_touch_freePart p
    refine ⟨_, exec_thawDone hthawing, (State.part_of_parts (hfreed.parts rfl) p).trans (s.freePart_part p), fun hs => ?_⟩
    rw [hfreed.mem rfl, State.freePart_mem]
    exact State.scrubUnits_cellAt hs p
end

section
/-! SUPPORT. ATTEST and CERT_GET, and the seal: evidence waits for what would mix states, and an opening is counted, audited and raised (spec/12 R433, spec/13 R455 to R457, R465, R470). -/

namespace Sys2Proof.Machine

/-! ## Evidence and certificates (spec/12 R433, spec/13 R455 to R457) -/

/-- Taking a command neither begins nor ends what evidence waits for. -/
theorem Answers.busyAttest {s t : State} (h : Answers s t) : t.busyAttest = s.busyAttest := by
  simp only [State.busyAttest, h.sec rfl, h.hdrs rfl, State.part_of_parts (h.parts rfl)]

section
variable {pv : Nat} {s s1 : State} {c : GwyPkt}

theorem exec_attest (h : Claims.Runs 0x20 pv (fun c => c.arg0 == 0 && c.arg1 == 0 && c.payload.length == 64) true true legalMem s c s1) :
    exec (.attest pv) s = .next (if s.busyAttest then s1.tellBusy c else ({ s1 with fresh := s.fresh + 1 }).respond c 0 0 0 0
      (s1.evidence pv c.payload ++ beBytes 132 (Config.signature s.fresh).toNat ++ zeros 4)) := by
  have htaken : Answers s s1 := .runs h
  obtain ⟨htake, haccept⟩ := h
  have harm : exec (.attest pv) s = execAttest pv s := rfl
  rw [harm, execAttest, htake]
  simp only [haccept, htaken.busyAttest, State.sign, htaken.fresh rfl, apply_ite Host.Outcome.next]
/-- Only the certificate of index 1 waits as evidence does. -/
theorem exec_certGet (h : Claims.RunsOp 0x21 (fun c => c.arg1 == 0 && c.payload.isEmpty) s c s1) :
    exec .certGet s = .next (if c.arg0 = 1 ∧ s.busyAttest = true then s1.tellBusy c
      else (s1.certificate c.arg0.toNat).elim (s1.respond c 0x06 4 0 0 []) (s1.respond c 0 0 0 0)) := by
  obtain ⟨htake, haccept⟩ := h
  have harm : exec .certGet s = execCertGet s := rfl
  rw [harm, execCertGet, htake]
  simp only [haccept, (Answers.takeOp htake).busyAttest, Bool.and_eq_true, decide_eq_true_eq]
  split
  · rfl
  · cases s1.certificate c.arg0.toNat <;> rfl
end

/-! ## The seal (spec/13 R465) -/

/-- The seal after a change of the pattern that the loop returned at SYSTIME now. -/
def Sec.sealMatched (x : Sec) (now : DWord) : Sec :=
  { x with sealA := Config.sealPattern x.sealBit, sealBit := x.sealBit + 1, sealSince := some (x.sealSince.getD now)
           intact := x.intact || decide (1000000000 ≤ now.toNat - (x.sealSince.getD now).toNat) }
/-- The seal after a change of the pattern that the loop did not return. -/
def Sec.sealMissed (x : Sec) : Sec :=
  { x with sealA := Config.sealPattern x.sealBit, sealBit := x.sealBit + 1, sealSince := none, intact := false }
/-- An opening of the seal is counted and audited. -/
def State.auditOpening (s : State) : State := (s.setFlash { s.flash with sealCount := satInc s.flash.sealCount }).audit 3 0 15 0xFF [] [] []
/-- It is told by SEC.ERR_STATUS[0] SEAL_OPEN, and by an event that is always sent (spec/16 R542). -/
def State.noteOpening (s : State) : State := s.auditOpening.raiseSure s.lead 0xC4 0

section
variable {s : State}
theorem exec_sealPatternChange_true (h : s.secRuns = true) : exec (.sealPatternChange true) s = .next (s.setSec (s.sec.sealMatched s.now)) := by
  have harm : exec (.sealPatternChange true) s = execSealPatternChange true s := rfl
  rw [harm, execSealPatternChange, h]
  rfl
theorem exec_sealPatternChange_false (h : s.secRuns = true) : exec (.sealPatternChange false) s
    = .next (if s.sec.intact then (s.setSec s.sec.sealMissed).noteOpening else s.setSec s.sec.sealMissed) := by
  have harm : exec (.sealPatternChange false) s = execSealPatternChange false s := rfl
  rw [harm, execSealPatternChange, h, apply_ite Host.Outcome.next]
  rfl
end

theorem Sec.sealMatched_intact (x : Sec) (now : DWord) :
    (x.sealMatched now).intact = true ↔ x.intact = true ∨ 1000000000 ≤ now.toNat - (x.sealSince.getD now).toNat := by
  rw [Sec.sealMatched, Bool.or_eq_true, decide_eq_true_eq]

/-- A flag whose event is always sent is set as any other is. -/
theorem State.raiseSure_errStatus (s : State) (die page : Nat) {bit : Nat} (hbit : bit < 32) :
    ((s.raiseSure die page bit).hdr die page).errStatus.getLsbD bit = true := by
  have hstay : FlagsStay (s.raise die page bit) (s.raiseSure die page bit) := .ite (.refl _) (State.blockError_flagsStay ..)
  exact hstay.stay die page bit (s.raise_errStatus die page hbit)
/-- Telling of an opening leaves the seal, its count and the audit log. -/
theorem State.auditOpening_touch_noteOpening (s : State) : Touch 0x144001400 s.auditOpening s.noteOpening :=
  State.raiseSure_touch (Sub.refl _) _ s.lead 0xC4 0 (.refl _ _)
theorem State.noteOpening_sec (s : State) : s.noteOpening.sec = s.sec := s.auditOpening_touch_noteOpening.sec rfl
theorem State.noteOpening_sealCount (s : State) : s.noteOpening.flash.sealCount = satInc s.flash.sealCount :=
  congrArg Flash.sealCount (s.auditOpening_touch_noteOpening.flash rfl)
theorem State.noteOpening_auditCount (s : State) : s.noteOpening.flash.auditCount = s.flash.auditCount + 1 :=
  congrArg Flash.auditCount (s.auditOpening_touch_noteOpening.flash rfl)
theorem State.noteOpening_errStatus (s : State) : (s.noteOpening.hdr s.lead 0xC4).errStatus.getLsbD 0 = true :=
  State.raiseSure_errStatus _ s.lead 0xC4 (by decide)

end Sys2Proof.Machine

open Sys2Proof Sys2Proof.Machine

/-- Settles O51: taking the command leaves what evidence waits for; the event that tells of an opening leaves the seal, its count and the audit log as they are, and its flag set. That the ownership certificate without an owner is an index that holds nothing, and an audit record not written one that reads 0, is log 41's reading; the order of the evidence's bytes is log 39's. -/
theorem evidenceAndSeal : Obligations.EvidenceAndSeal := by
  unfold Obligations.EvidenceAndSeal
  refine ⟨fun pv s s1 c h => ?_, fun s s1 c h => ?_, fun s => ⟨rfl, rfl, fun hruns => ⟨?_, ?_⟩⟩⟩
  · rw [exec_attest h]
    exact ⟨fun hbusy => by rw [if_pos hbusy], fun hfree => by rw [hfree]; rfl⟩
  · rw [exec_certGet h]
    refine ⟨fun hindex hbusy => by rw [if_pos ⟨hindex, hbusy⟩], fun hfree => ?_⟩
    rw [if_neg fun ⟨hindex, hbusy⟩ => Bool.false_ne_true ((hfree hindex).symm.trans hbusy)]
    exact ⟨fun b hb => by rw [hb, Option.elim], fun hnone => by rw [hnone, Option.elim]⟩
  · exact ⟨_, exec_sealPatternChange_true hruns, rfl, Sec.sealMatched_intact .., rfl⟩
  · cases hintact : s.sec.intact with
    | true =>
      refine ⟨_, by rw [exec_sealPatternChange_false hruns, if_pos hintact], ?_⟩
      rw [State.noteOpening_sec]
      exact ⟨rfl, rfl, rfl, fun _ => ⟨State.noteOpening_sealCount _, State.noteOpening_auditCount _, State.noteOpening_errStatus _⟩, nofun⟩
    | false => exact ⟨s.setSec s.sec.sealMissed, by rw [exec_sealPatternChange_false hruns, hintact]; rfl, rfl, rfl, rfl, nofun, fun _ => rfl⟩
end

section
/-! SUPPORT. Every command keeps what its row of `touches` leaves out: the parts named there as a mask, and each command's own law of what it touches (spec/95). -/

namespace Sys2Proof

/-- The mask of a list of parts: a part's bit is its place among the fields of State. -/
def Field.mask : List Field → Nat
  | [] => 0
  | φ :: l => 2 ^ φ.ctorIdx ||| Field.mask l
theorem Field.mask_testBit (l : List Field) (φ : Field) : (Field.mask l).testBit φ.ctorIdx = decide (φ ∈ l) := by
  have hidx : ∀ ψ : Field, decide (ψ.ctorIdx = φ.ctorIdx) = decide (φ = ψ) := fun ψ => by
    cases ψ <;> cases φ <;> rfl
  induction l with
  | nil => exact Nat.zero_testBit _
  | cons ψ l ih => rw [Field.mask, Nat.testBit_or, ih, Nat.testBit_two_pow, hidx, ← Bool.decide_or, decide_eq_decide, List.mem_cons]

namespace Machine

/-- A part outside the mask is the same in both states. -/
theorem Touch.same {m : Nat} {s t : State} (h : Touch m s t) {φ : Field} (hbit : m.testBit φ.ctorIdx = false) : φ.same s t := by
  cases φ with
  | variant => exact h.variant hbit
  | straps => exact h.straps hbit
  | floes => exact h.floes hbit
  | signals => exact h.signals hbit
  | parts => exact h.parts hbit
  | rejects => exact h.rejects hbit
  | steer => exact h.steer hbit
  | mem => exact h.mem hbit
  | spBad => exact h.spBad hbit
  | poison => exact h.poison hbit
  | eps => exact h.eps hbit
  | cmdq => exact h.cmdq hbit
  | msis => exact h.msis hbit
  | i3c => exact h.i3c hbit
  | ucie => exact h.ucie hbit
  | nmcs => exact h.nmcs hbit
  | nm => exact h.nm hbit
  | cxls => exact h.cxls hbit
  | router => exact h.router hbit
  | chips => exact h.chips hbit
  | oed => exact h.oed hbit
  | sled => exact h.sled hbit
  | time => exact h.time hbit
  | therms => exact h.therms hbit
  | power => exact h.power hbit
  | rst => exact h.rst hbit
  | ras => exact h.ras hbit
  | sec => exact h.sec hbit
  | fuses => exact h.fuses hbit
  | flash => exact h.flash hbit
  | proc => exact h.proc hbit
  | jtag => exact h.jtag hbit
  | hdrs => exact h.hdrs hbit
  | latches => exact h.latches hbit
  | staged => exact h.staged hbit
  | fresh => exact h.fresh hbit
  | pending => exact h.pending hbit

/-- Every command stays within the parts that its row of `touches` names. -/
theorem exec_touch (c : Instr) (s : State) : TouchO (Field.mask (touches c)) s (exec c s) := by
  cases c <;> dsimp only [touches]
  case salu => exact execSalu_touch (by exact rfl) _ _ s (.refl _ s)
  case sld => exact execSld_touch (by exact rfl) _ _ _ s (.refl _ s)
  case sst => exact execSst_touch (by exact rfl) _ _ _ s (.refl _ s)
  case br => exact execBr_touch (by exact rfl) _ _ s (.refl _ s)
  case jump => exact execJump_touch (by exact rfl) _ _ s (.refl _ s)
  case halt => exact execHalt_touch (by exact rfl) _ _ s (.refl _ s)
  case nop => exact execNop_touch (by exact rfl) _ _ s (.refl _ s)
  case mma => exact execMma_touch (by exact rfl) _ _ _ s (.refl _ s)
  case mmaT => exact execMmaT_touch (by exact rfl) _ _ _ s (.refl _ s)
  case mmaSp => exact execMmaSp_touch (by exact rfl) _ _ _ s (.refl _ s)
  case xfer => exact execXfer_touch (by exact rfl) _ _ _ s (.refl _ s)
  case vec => exact execVec_touch (by exact rfl) _ _ _ s (.refl _ s)
  case red => exact execRed_touch (by exact rfl) _ _ _ s (.refl _ s)
  case cvtBs16 => exact execCvtBs16_touch (by exact rfl) _ _ _ s (.refl _ s)
  case stashPush => exact execStashPush_touch (by exact rfl) _ _ _ s (.refl _ s)
  case stashPop => exact execStashPop_touch (by exact rfl) _ _ _ s (.refl _ s)
  case updAdamw => exact execUpdAdamw_touch (by exact rfl) _ _ _ s (.refl _ s)
  case updSgdm => exact execUpdSgdm_touch (by exact rfl) _ _ _ s (.refl _ s)
  case gateTopk => exact execGateTopk_touch (by exact rfl) _ _ _ s (.refl _ s)
  case packAssign => exact execPackAssign_touch (by exact rfl) _ _ _ s (.refl _ s)
  case packGather => exact execPackGather_touch (by exact rfl) _ _ _ s (.refl _ s)
  case packCombine => exact execPackCombine_touch (by exact rfl) _ _ _ s (.refl _ s)
  case collShiftAllgather => exact execCollShiftAllgather_touch (by exact rfl) _ _ _ s (.refl _ s)
  case collShiftRotate => exact execCollShiftRotate_touch (by exact rfl) _ _ _ s (.refl _ s)
  case collReduceScatter => exact execCollReduceScatter_touch (by exact rfl) _ _ _ s (.refl _ s)
  case collAllreduce => exact execCollAllreduce_touch (by exact rfl) _ _ _ s (.refl _ s)
  case collPermute => exact execCollPermute_touch (by exact rfl) _ _ _ s (.refl _ s)
  case collSteer => exact execCollSteer_touch (by exact rfl) _ _ _ s (.refl _ s)
  case collVerdictCommit => exact execCollVerdictCommit_touch (by exact rfl) _ _ _ s (.refl _ s)
  case collVerdictNorm => exact execCollVerdictNorm_touch (by exact rfl) _ _ _ s (.refl _ s)
  case collVerdictBarrier => exact execCollVerdictBarrier_touch (by exact rfl) _ _ _ s (.refl _ s)
  case tagWait => exact execTagWait_touch (by exact rfl) _ _ s (.refl _ s)
  case tagSignal => exact execTagSignal_touch (by exact rfl) _ _ s (.refl _ s)
  case tagWaitComplete => exact execTagWaitComplete_touch (by exact rfl) _ _ s (.refl _ s)
  case remoteSignal => exact execRemoteSignal_touch (by exact rfl) _ _ _ s (.refl _ s)
  case sldReturn => exact execSldReturn_touch (by exact rfl) _ _ _ s (.refl _ s)
  case tileRowDrain => exact execTileRowDrain_touch (by exact rfl) _ _ _ s (.refl _ s)
  case mmaComplete => exact execMmaComplete_touch (by exact rfl) _ _ s (.refl _ s)
  case vecPassComplete => exact execVecPassComplete_touch (by exact rfl) _ s (.refl _ s)
  case gatePackComplete => exact execGatePackComplete_touch (by exact rfl) _ _ s (.refl _ s)
  case updComplete => exact execUpdComplete_touch (by exact rfl) _ _ s (.refl _ s)
  case xferComplete => exact execXferComplete_touch (by exact rfl) _ _ _ s (.refl _ s)
  case stashCopyComplete => exact execStashCopyComplete_touch (by exact rfl) _ _ _ s (.refl _ s)
  case haltComplete => exact execHaltComplete_touch (by exact rfl) _ _ s (.refl _ s)
  case streamStall => exact execStreamStall_touch (by exact rfl) _ _ s (.refl _ s)
  case collStepComplete => exact execCollStepComplete_touch (by exact rfl) _ _ s (.refl _ s)
  case verdictContribution => exact execVerdictContribution_touch (by exact rfl) _ _ s (.refl _ s)
  case verdictComplete => exact execVerdictComplete_touch (by exact rfl) _ _ s (.refl _ s)
  case steerComplete => exact execSteerComplete_touch (by exact rfl) s (.refl _ s)
  case stepTimeout => exact execStepTimeout_touch (by exact rfl) _ _ s (.refl _ s)
  case slowResend => exact execSlowResend_touch (by exact rfl) _ _ s (.refl _ s)
  case pauseWaitExpiry => exact execPauseWaitExpiry_touch (by exact rfl) _ s (.refl _ s)
  case meshPacket => exact execMeshPacket_touch (by exact rfl) _ _ s (.refl _ s)
  case shift => exact execShift_touch (by exact rfl) s (.refl _ s)
  case shiftAdd => exact execShiftAdd_touch (by exact rfl) _ s (.refl _ s)
  case permute => exact execPermute_touch (by exact rfl) s (.refl _ s)
  case verdict => exact execVerdict_touch (by exact rfl) s (.refl _ s)
  case noticeSlow => exact execNoticeSlow_touch (by exact rfl) s (.refl _ s)
  case noticeReplay => exact execNoticeReplay_touch (by exact rfl) s (.refl _ s)
  case noticeFail => exact execNoticeFail_touch (by exact rfl) s (.refl _ s)
  case noticeMismatch => exact execNoticeMismatch_touch (by exact rfl) s (.refl _ s)
  case noticeDone => exact execNoticeDone_touch (by exact rfl) s (.refl _ s)
  case noticeClose => exact execNoticeClose_touch (by exact rfl) s (.refl _ s)
  case mirror => exact execMirror_touch (by exact rfl) s (.refl _ s)
  case bulk => exact execBulk_touch (by exact rfl) s (.refl _ s)
  case mgmt => exact execMgmt_touch (by exact rfl) _ s (.refl _ s)
  case time => exact execTime_touch (by exact rfl) _ s (.refl _ s)
  case hello => exact execHello_touch (by exact rfl) s (.refl _ s)
  case epoch => exact execEpoch_touch (by exact rfl) s (.refl _ s)
  case fc => exact execFc_touch (by exact rfl) _ _ s (.refl _ s)
  case alignmentMarker => exact execAlignmentMarker_touch (by exact rfl) _ _ s (.refl _ s)
  case tail => exact execTail_touch (by exact rfl) _ _ _ s (.refl _ s)
  case alignmentMarkerSend => exact execAlignmentMarkerSend_touch (by exact rfl) _ _ s (.refl _ s)
  case helloSend => exact execHelloSend_touch (by exact rfl) _ s (.refl _ s)
  case fcRefresh => exact execFcRefresh_touch (by exact rfl) _ s (.refl _ s)
  case fcTimeout => exact execFcTimeout_touch (by exact rfl) _ s (.refl _ s)
  case escapeTimeout => exact execEscapeTimeout_touch (by exact rfl) _ s (.refl _ s)
  case lifetime => exact execLifetime_touch (by exact rfl) s (.refl _ s)
  case eject => exact execEject_touch (by exact rfl) s (.refl _ s)
  case epochSwitch => exact execEpochSwitch_touch (by exact rfl) s (.refl _ s)
  case epochBankFree => exact execEpochBankFree_touch (by exact rfl) s (.refl _ s)
  case keyingRetry => exact execKeyingRetry_touch (by exact rfl) _ s (.refl _ s)
  case laneLock => exact execLaneLock_touch (by exact rfl) _ s (.refl _ s)
  case portLossOfLock => exact execPortLossOfLock_touch (by exact rfl) _ _ s (.refl _ s)
  case oedFrame => exact execOedFrame_touch (by exact rfl) _ _ _ _ _ _ s (.refl _ s)
  case lldp => exact execLldp_touch (by exact rfl) _ _ s (.refl _ s)
  case pfcFrame => exact execPfcFrame_touch (by exact rfl) _ _ _ s (.refl _ s)
  case icmpv6 => exact execIcmpv6_touch (by exact rfl) _ _ _ s (.refl _ s)
  case laserSample => exact execLaserSample_touch (by exact rfl) _ _ _ s (.refl _ s)
  case laserLockLoss => exact execLaserLockLoss_touch (by exact rfl) _ _ s (.refl _ s)
  case spareReady => exact execSpareReady_touch (by exact rfl) _ _ s (.refl _ s)
  case laserSwapComplete => exact execLaserSwapComplete_touch (by exact rfl) _ s (.refl _ s)
  case ringFault => exact execRingFault_touch (by exact rfl) _ _ _ _ s (.refl _ s)
  case wavelengthRecal => exact execWavelengthRecal_touch (by exact rfl) _ _ s (.refl _ s)
  case wavelengthRecalComplete => exact execWavelengthRecalComplete_touch (by exact rfl) _ _ _ s (.refl _ s)
  case shuttleRemoved => exact execShuttleRemoved_touch (by exact rfl) _ s (.refl _ s)
  case shuttleSeated => exact execShuttleSeated_touch (by exact rfl) _ s (.refl _ s)
  case sledFrame => exact execSledFrame_touch (by exact rfl) s (.refl _ s)
  case oedDrainSafe => exact execOedDrainSafe_touch (by exact rfl) _ s (.refl _ s)
  case optLaserCmdSwap => exact execOptLaserCmdSwap_touch (by exact rfl) _ _ s (.refl _ s)
  case optLaserCmdRecal => exact execOptLaserCmdRecal_touch (by exact rfl) _ _ s (.refl _ s)
  case optServiceDrain => exact execOptServiceDrain_touch (by exact rfl) _ _ s (.refl _ s)
  case oedPortCfg => exact execOedPortCfg_touch (by exact rfl) _ _ s (.refl _ s)
  case nmmapRetire => exact execNmmapRetire_touch (by exact rfl) _ s (.refl _ s)
  case rasCalveGo => exact execRasCalveGo_touch (by exact rfl) _ s (.refl _ s)
  case resetCtrlGo => exact execResetCtrlGo_touch (by exact rfl) _ _ s (.refl _ s)
  case ctrlHold => exact execCtrlHold_touch (by exact rfl) _ _ _ s (.refl _ s)
  case ctrlFreeze => exact execCtrlFreeze_touch (by exact rfl) _ _ _ s (.refl _ s)
  case rstWdtKick => exact execRstWdtKick_touch (by exact rfl) s (.refl _ s)
  case timeSet => exact execTimeSet_touch (by exact rfl) _ s (.refl _ s)
  case routerBank => exact execRouterBank_touch (by exact rfl) _ _ s (.refl _ s)
  case pwrCap => exact execPwrCap_touch (by exact rfl) _ s (.refl _ s)
  case registerWrite => exact execRegisterWrite_touch (by exact rfl) _ _ _ s (.refl _ s)
  case gwyTxStore => exact execGwyTxStore_touch (by exact rfl) _ _ _ _ s (.refl _ s)
  case gwyRxLoad => exact execGwyRxLoad_touch (by exact rfl) _ s (.refl _ s)
  case resync => exact execResync_touch (by exact rfl) _ s (.refl _ s)
  case claim => exact execClaim_touch (by exact rfl) _ s (.refl _ s)
  case release => exact execRelease_touch (by exact rfl) _ s (.refl _ s)
  case loadBegin => exact execLoadBegin_touch (by exact rfl) _ s (.refl _ s)
  case loadChunk => exact execLoadChunk_touch (by exact rfl) _ s (.refl _ s)
  case loadEnd => exact execLoadEnd_touch (by exact rfl) _ s (.refl _ s)
  case start => exact execStart_touch (by exact rfl) _ s (.refl _ s)
  case pause => exact execPause_touch (by exact rfl) _ s (.refl _ s)
  case resume => exact execResume_touch (by exact rfl) _ s (.refl _ s)
  case abort => exact execAbort_touch (by exact rfl) _ s (.refl _ s)
  case memWrite => exact execMemWrite_touch (by exact rfl) _ _ s (.refl _ s)
  case memRead => exact execMemRead_touch (by exact rfl) _ _ s (.refl _ s)
  case csrWrite => exact execCsrWrite_touch (by exact rfl) _ s (.refl _ s)
  case csrRead => exact execCsrRead_touch (by exact rfl) _ s (.refl _ s)
  case attest => exact execAttest_touch (by exact rfl) _ s (.refl _ s)
  case certGet => exact execCertGet_touch (by exact rfl) s (.refl _ s)
  case fwStage => exact execFwStage_touch (by exact rfl) s (.refl _ s)
  case fwActivate => exact execFwActivate_touch (by exact rfl) s (.refl _ s)
  case fwStatus => exact execFwStatus_touch (by exact rfl) s (.refl _ s)
  case telem => exact execTelem_touch (by exact rfl) _ s (.refl _ s)
  case snapshot => exact execSnapshot_touch (by exact rfl) _ s (.refl _ s)
  case resetPartition => exact execResetPartition_touch (by exact rfl) _ s (.refl _ s)
  case resetBlock => exact execResetBlock_touch (by exact rfl) s (.refl _ s)
  case resetDevice => exact execResetDevice_touch (by exact rfl) s (.refl _ s)
  case ownerChange => exact execOwnerChange_touch (by exact rfl) s (.refl _ s)
  case debugEnable => exact execDebugEnable_touch (by exact rfl) s (.refl _ s)
  case debugLock => exact execDebugLock_touch (by exact rfl) s (.refl _ s)
  case keyRevoke => exact execKeyRevoke_touch (by exact rfl) s (.refl _ s)
  case mfgMode => exact execMfgMode_touch (by exact rfl) s (.refl _ s)
  case imageKeyEnroll => exact execImageKeyEnroll_touch (by exact rfl) s (.refl _ s)
  case imageMinVersion => exact execImageMinVersion_touch (by exact rfl) s (.refl _ s)
  case thawDone => exact execThawDone_touch (by exact rfl) _ s (.refl _ s)
  case fwActivated => exact execFwActivated_touch (by exact rfl) s (.refl _ s)
  case fwQuietPoint => exact execFwQuietPoint_touch (by exact rfl) _ s (.refl _ s)
  case fwHoldTimeout => exact execFwHoldTimeout_touch (by exact rfl) _ s (.refl _ s)
  case fwRehold => exact execFwRehold_touch (by exact rfl) _ s (.refl _ s)
  case por => exact execPor_touch (by exact rfl) _ _ s (.refl _ s)
  case resetN => exact execResetN_touch (by exact rfl) _ s (.refl _ s)
  case warmResetN => exact execWarmResetN_touch (by exact rfl) s (.refl _ s)
  case watchdog => exact execWatchdog_touch (by exact rfl) s (.refl _ s)
  case warmResetStart => exact execWarmResetStart_touch (by exact rfl) s (.refl _ s)
  case fatal => exact execFatal_touch (by exact rfl) _ _ _ _ s (.refl _ s)
  case regulatorPhaseLoss => exact execRegulatorPhaseLoss_touch (by exact rfl) _ _ s (.refl _ s)
  case coldResetReady => exact execColdResetReady_touch (by exact rfl) _ _ _ s (.refl _ s)
  case warmResetReady => exact execWarmResetReady_touch (by exact rfl) s (.refl _ s)
  case blockResetEscalation => exact execBlockResetEscalation_touch (by exact rfl) _ _ s (.refl _ s)
  case blockResetComplete => exact execBlockResetComplete_touch (by exact rfl) _ _ s (.refl _ s)
  case thermalSample => exact execThermalSample_touch (by exact rfl) _ _ s (.refl _ s)
  case powerSample => exact execPowerSample_touch (by exact rfl) _ s (.refl _ s)
  case dvfsLevelChange => exact execDvfsLevelChange_touch (by exact rfl) _ s (.refl _ s)
  case voltageDroop => exact execVoltageDroop_touch (by exact rfl) _ s (.refl _ s)
  case sensorCrossCheck => exact execSensorCrossCheck_touch (by exact rfl) _ _ s (.refl _ s)
  case refclkLoss => exact execRefclkLoss_touch (by exact rfl) s (.refl _ s)
  case refclkRelock => exact execRefclkRelock_touch (by exact rfl) s (.refl _ s)
  case timeExchange => exact execTimeExchange_touch (by exact rfl) s (.refl _ s)
  case presenceAssertion => exact execPresenceAssertion_touch (by exact rfl) s (.refl _ s)
  case sealPatternChange => exact execSealPatternChange_touch (by exact rfl) _ s (.refl _ s)
  case heartbeatLoss => exact execHeartbeatLoss_touch (by exact rfl) s (.refl _ s)
  case controlLaneRetrain => exact execControlLaneRetrain_touch (by exact rfl) _ s (.refl _ s)
  case orphanRejoin => exact execOrphanRejoin_touch (by exact rfl) s (.refl _ s)
  case bridgeDataLaneLoss => exact execBridgeDataLaneLoss_touch (by exact rfl) s (.refl _ s)
  case bridgeLaneRetrain => exact execBridgeLaneRetrain_touch (by exact rfl) _ _ s (.refl _ s)
  case patrolRead => exact execPatrolRead_touch (by exact rfl) _ _ s (.refl _ s)
  case recalWindow => exact execRecalWindow_touch (by exact rfl) _ _ s (.refl _ s)
  case retirementUnblocked => exact execRetirementUnblocked_touch (by exact rfl) s (.refl _ s)
  case frameMoveComplete => exact execFrameMoveComplete_touch (by exact rfl) s (.refl _ s)
  case cxlHotAdd => exact execCxlHotAdd_touch (by exact rfl) _ s (.refl _ s)
  case cxlLinkDown => exact execCxlLinkDown_touch (by exact rfl) _ _ s (.refl _ s)
  case cxlTimeout => exact execCxlTimeout_touch (by exact rfl) _ _ s (.refl _ s)
  case ucieLinkUp => exact execUcieLinkUp_touch (by exact rfl) _ _ s (.refl _ s)
  case ucieLinkDown => exact execUcieLinkDown_touch (by exact rfl) s (.refl _ s)
  case calveQuietPoint => exact execCalveQuietPoint_touch (by exact rfl) s (.refl _ s)
  case calveHoldTimeout => exact execCalveHoldTimeout_touch (by exact rfl) s (.refl _ s)
  case calveRetry => exact execCalveRetry_touch (by exact rfl) s (.refl _ s)
  case calveCopyComplete => exact execCalveCopyComplete_touch (by exact rfl) s (.refl _ s)
  case siteHardFailure => exact execSiteHardFailure_touch (by exact rfl) _ s (.refl _ s)
  case spareSelfTest => exact execSpareSelfTest_touch (by exact rfl) _ _ s (.refl _ s)
  case addUnitTest => exact execAddUnitTest_touch (by exact rfl) _ _ s (.refl _ s)
  case i3cBootRead => exact execI3cBootRead_touch (by exact rfl) s (.refl _ s)
  case i3cCommand => exact execI3cCommand_touch (by exact rfl) _ s (.refl _ s)
  case i3cResponseRead => exact execI3cResponseRead_touch (by exact rfl) s (.refl _ s)
  case jtagBoundaryScan => exact execJtagBoundaryScan_touch (by exact rfl) _ s (.refl _ s)
  case readersReleased => exact execReadersReleased_touch (by exact rfl) _ _ _ s (.refl _ s)
  case tileRowRelease => exact execTileRowRelease_touch (by exact rfl) _ s (.refl _ s)
  case illegalOp => exact execIllegalOp_touch (by exact rfl) _ _ _ s (.refl _ s)
  case pcRange => exact execPcRange_touch (by exact rfl) _ _ s (.refl _ s)
  case badOpcode => exact execBadOpcode_touch (by exact rfl) _ s (.refl _ s)
  case blockLock => exact execBlockLock_touch (by exact rfl) _ _ _ s (.refl _ s)
  case oedLinkState => exact execOedLinkState_touch (by exact rfl) _ _ _ s (.refl _ s)
  case ucieLaneRepair => exact execUcieLaneRepair_touch (by exact rfl) _ _ _ s (.refl _ s)
  case substrateTempCheck => exact execSubstrateTempCheck_touch (by exact rfl) _ _ s (.refl _ s)
  case presenceExpiry => exact execPresenceExpiry_touch (by exact rfl) s (.refl _ s)
  case i3cDynamicAddress => exact execI3cDynamicAddress_touch (by exact rfl) _ s (.refl _ s)
  case trstN => exact execTrstN_touch (by exact rfl) s (.refl _ s)
  case jtagDebugAccess => exact execJtagDebugAccess_touch (by exact rfl) _ s (.refl _ s)

/-- A step, of a command or of time on an empty queue, keeps memory's canonical form and only blows fuses. -/
theorem step_keeps {s t : State} (h : step s = .next t) : (Memory.wf s.mem = true → Memory.wf t.mem = true) ∧ FuseLe s.fuses t.fuses := by
  unfold step at h
  split at h
  · cases h
    have hidle := idle_touch (Sub.refl _) s (.refl _ s)
    exact ⟨hidle.wf, hidle.fuseLe⟩
  next c rest _ =>
    have hrun := (exec_touch c { s with pending := rest }).out t h
    exact ⟨hrun.wf, hrun.fuseLe⟩

end Machine
end Sys2Proof

open Sys2Proof Sys2Proof.Machine

/-- Settles O3: a part that `touches` leaves out of a command's row is a bit outside the mask of the command's law. -/
theorem commandsChangeOnlyTheirParts : Obligations.CommandsChangeOnlyTheirParts := by
  unfold Obligations.CommandsChangeOnlyTheirParts
  intro c s t h φ hφ
  refine ((exec_touch c s).out t h).same ?_
  rw [Field.mask_testBit, decide_eq_false hφ]

/-- Settles O4: every command's law keeps memory's canonical form, and so does time passing. -/
theorem stepKeepsMemoryCanonical : Obligations.StepKeepsMemoryCanonical := by
  unfold Obligations.StepKeepsMemoryCanonical
  exact fun s t hwf h => (step_keeps h).1 hwf

/-- Settles O6: what every command's law says of fuses, read off count by count and record by record. -/
theorem stepOnlyBlowsFuses : Obligations.StepOnlyBlowsFuses := by
  unfold Obligations.StepOnlyBlowsFuses
  intro s t h
  obtain ⟨howner, hroll, hdebug, hkeys, ⟨l0, hrec0⟩, ⟨l1, hrec1⟩⟩ := (step_keeps h).2
  exact ⟨howner, hroll, hdebug, hkeys, ⟨l0, hrec0.symm⟩, ⟨l1, hrec1.symm⟩⟩
end

section
/-! SUPPORT. Time passes on an empty queue: one nanosecond of the time base, and in which phases what has come due happens (spec/15 R510, R516). -/

namespace Sys2Proof.Machine

/-- One tick of the slew goes toward 0 by one tenth of a picosecond. -/
theorem slew_sub_slewStep (d : Int) : d - slewStep d = if 0 < d then d - 1 else if d < 0 then d + 1 else 0 := by
  unfold slewStep
  grind
theorem TimeSt.tick_frac_lt (t : TimeSt) : t.tick.frac < 10000 := Nat.mod_lt _ (by decide)
/-- A tick passes 10,000 tenths of a picosecond and what is slewed: what SYSTIME and its fraction then hold is the sum. -/
theorem TimeSt.tick_systime (t : TimeSt) (h : t.frac < 10000) :
    ∃ k : Nat, k ≤ 2 ∧ t.tick.systime = t.systime + BitVec.ofNat 64 k
      ∧ (10000 * k + t.tick.frac : Int) = t.frac + 10000 + (t.slew - t.tick.slew) := by
  have hslew : -1 ≤ slewStep t.slew ∧ slewStep t.slew ≤ 1 := by
    unfold slewStep
    grind
  refine ⟨((t.frac : Int) + 10000 + slewStep t.slew).toNat / 10000, by omega, rfl, ?_⟩
  simp only [TimeSt.tick]
  omega

theorem idle_pending (s : State) : (idle s).pending = s.pending := (idle_touch (Sub.refl _) s (.refl _ s)).pending rfl
theorem idle_of_tripped {s : State} (h : s.rst.phase = .tripped) : idle s = s := by rw [idle, h]
theorem idle_of_notReady {s : State} (h : s.rst.phase = .cold ∨ s.rst.phase = .warm ∨ s.rst.phase = .halted) :
    idle s = { s with time := s.time.tick } := by
  rcases h with h | h | h <;> rw [idle, h]
/-- What has come due leaves the time base. -/
theorem idle_time {s : State} (h : s.rst.phase ≠ .tripped) : (idle s).time = s.time.tick := by
  have hdue : s.duties.liveStep.time = s.time := by
    have htouch := State.liveStep_touch (m := 0x1661FBF94) (by exact rfl) _ (State.duties_touch (Sub.refl _) s (.refl _ s))
    exact htouch.time rfl
  cases hphase : s.rst.phase with
  | tripped => exact absurd hphase h
  | ready => rw [idle, hphase, ← hdue]
  | cold => rw [idle_of_notReady (.inl hphase)]
  | warm => rw [idle_of_notReady (.inr (.inl hphase))]
  | halted => rw [idle_of_notReady (.inr (.inr hphase))]

end Sys2Proof.Machine

open Sys2Proof Sys2Proof.Machine

/-- Settles O2: the phase says what a step of time does, and a tick what SYSTIME then holds. -/
theorem emptyQueuePassesOneNanosecond : Obligations.EmptyQueuePassesOneNanosecond := by
  unfold Obligations.EmptyQueuePassesOneNanosecond
  intro s hqueue
  refine ⟨idle s, by rw [step, hqueue], (idle_pending s).trans hqueue, idle_of_tripped, fun h => by rw [idle_of_notReady h], fun h => ?_⟩
  rw [idle_time h]
  exact ⟨slew_sub_slewStep s.time.slew, fun hfrac => ⟨s.time.tick_frac_lt, s.time.tick_systime hfrac⟩⟩
end

section
/-! SUPPORT. Rounding at any multiple: RNE below its unit is a quotient and a carry, a tie goes to the even one, and stochastic rounding to a neighbour (spec/02 R42, R43). -/

namespace Sys2Proof.Machine

theorem rneAt_of_le (m : Nat) {e q : Int} (h : q ≤ e) : rneAt m e q = m * 2 ^ (e - q).toNat := by rw [rneAt, if_pos h, Nat.shiftLeft_eq]
theorem srAt_of_le (m d : Nat) {e q : Int} (h : q ≤ e) : srAt m e q d = m * 2 ^ (e - q).toNat := by rw [srAt, if_pos h, Nat.shiftLeft_eq]
/-- RNE of a quotient n and remainder r of a unit u carries past the half, and at the half where n is odd. -/
def rneCarry (n r u : Nat) : Bool := decide (u < 2 * r) || (2 * r == u && n % 2 == 1)
theorem rneAt_of_lt (m : Nat) {e q : Int} (h : e < q) :
    let u := 2 ^ (q - e).toNat
    rneAt m e q = m / u + (rneCarry (m / u) (m % u) u).toNat := by
  simp only [rneAt, if_neg (Int.not_le.mpr h), Nat.shiftRight_eq_div_pow, rneCarry]
  split
  · rename_i hb; rw [hb, Bool.toNat_true]
  · rename_i hb; rw [eq_false_of_ne_true hb, Bool.toNat_false, Nat.add_zero]
theorem rneCarry_true {n r u : Nat} : rneCarry n r u = true ↔ u < 2 * r ∨ (2 * r = u ∧ n % 2 = 1) := by
  simp only [rneCarry, Bool.or_eq_true, Bool.and_eq_true, decide_eq_true_eq, beq_iff_eq]
/-- The result is off by half a unit at most, and where two multiples are equally near it is the even one. -/
theorem rneCarry_nearest {n r u m : Nat} (hm : u * n + r = m) (hr : r < u) :
    let k := n + (rneCarry n r u).toNat
    (2 * m ≤ (2 * k + 1) * u ∧ 2 * k * u ≤ 2 * m + u) ∧ (2 * m = (2 * k + 1) * u ∨ 2 * k * u = 2 * m + u → k % 2 = 0) := by
  have hun : u * n = n * u := Nat.mul_comm u n
  cases hb : rneCarry n r u with
  | true =>
    have hcarry := rneCarry_true.mp hb
    refine ⟨near_of_half_le hm hr true (fun _ => by omega) nofun, fun htie => ?_⟩
    simp only [Bool.toNat_true, Nat.add_mul, Nat.mul_add, Nat.mul_assoc, Nat.one_mul] at htie ⊢
    omega
  | false =>
    have hcarry := mt rneCarry_true.mpr (ne_true_of_eq_false hb)
    refine ⟨near_of_half_le hm hr false nofun (fun _ => by omega), fun htie => ?_⟩
    simp only [Bool.toNat_false, Nat.add_zero, Nat.add_mul, Nat.mul_assoc, Nat.one_mul] at htie ⊢
    omega
/-- Stochastic rounding goes up only from between two multiples: a draw below 2^16 never carries an exact value. -/
theorem srAt_of_lt (m d : Nat) {e q : Int} (h : e < q) (hd : d < 65536) :
    let u := 2 ^ (q - e).toNat
    srAt m e q d = m / u ∨ (srAt m e q d = m / u + 1 ∧ m % u ≠ 0) := by
  simp only [srAt, if_neg (Int.not_le.mpr h), Nat.shiftRight_eq_div_pow]
  split
  · rename_i hup
    refine .inr ⟨rfl, fun hexact => ?_⟩
    rw [hexact, Nat.zero_mul, Nat.zero_div] at hup
    omega
  · exact .inl rfl

end Sys2Proof.Machine

open Sys2Proof Sys2Proof.Machine

/-- Settles O58: at or above the unit nothing is rounded; below it the quotient and its carry are the nearest multiple. -/
theorem roundingIsToNearest : Obligations.RoundingIsToNearest := by
  unfold Obligations.RoundingIsToNearest
  refine fun m e q => ⟨fun h => ⟨rneAt_of_le m h, fun d => srAt_of_le m d h⟩, fun h => ?_, fun v => rfl⟩
  have hnear := rneCarry_nearest (Nat.div_add_mod m (2 ^ (q - e).toNat)) (Nat.mod_lt m (Nat.two_pow_pos _))
  rw [← rneAt_of_lt m h] at hnear
  exact ⟨hnear.1.1, hnear.1.2, hnear.2, fun d => srAt_of_lt m d h⟩
end

section
/-! SUPPORT. Replay windows, and what a device holds right after power-on reset: its memory and the values of its Reset columns (spec/13 R454, spec/08 R236, spec/15 Tables 15-11 to 15-13). -/

namespace Sys2Proof.Machine

theorem isSp_spAddr {f off : Nat} (hf : f < 208) (hoff : off < spSize) : isSp (spAddr f off) = true := by
  have hwindow : spBase ≤ spAddr f off ∧ spAddr f off < spBase + 208 * spStride := by
    simp only [spAddr, spSize, spBase, spStride] at hoff ⊢
    omega
  simp only [isSp, hwindow, decide_true, Bool.and_self]
theorem State.reset_byte_sp {f off : Nat} (hf : f < 208) (hoff : off < spSize) : State.reset.byte (spAddr f off) = 0 := by
  rw [State.byte, State.blank, if_pos (isSp_spAddr hf hoff)]
  rfl

theorem State.reset_therm (die : Nat) : State.reset.therm die = {} := rfl
/-- Before the power registers, a thermal page holds 0. -/
theorem State.reset_thermReg (die off : Nat) (h : off < 0x60) : State.reset.thermReg die off = 0 := by
  unfold State.thermReg
  rw [State.reset_therm]
  split
  case h_6 | h_7 => exact absurd h (by decide)
  all_goals rfl

/-- A window does not accept its highest counter, nor one that it lists. -/
theorem Replay.accepts_of_got {r : Replay} {c : Nat} (h : r.any = true) (hc : c = r.high ∨ (c < r.high ∧ c ∈ r.got)) :
    r.accepts c = false := by
  rw [accepts, h]
  rcases hc with rfl | ⟨hlt, hmem⟩
  · simp
  · simp [Nat.lt_asymm hlt, hmem]

end Sys2Proof.Machine

open Sys2Proof Sys2Proof.Machine

/-- Settles O43: the counter taken is the window's highest, or listed among those below it. -/
theorem replayedCountersAreRefused : Obligations.ReplayedCountersAreRefused := by
  unfold Obligations.ReplayedCountersAreRefused
  intro r c h
  unfold Replay.take
  split
  · exact Replay.accepts_of_got rfl (.inl rfl)
  · split
    · next hany _ => exact Replay.accepts_of_got (by simpa using hany) (.inl rfl)
    · next hany hhigh =>
      have hany : r.any = true := by simpa using hany
      simp only [Replay.accepts, hany, hhigh] at h
      exact Replay.accepts_of_got hany (.inr ⟨by simp_all, List.mem_cons_self⟩)

/-- Settles O5: reset memory lists nothing, and an unlisted scratchpad byte reads 0. -/
theorem resetMemoryCanonical : Obligations.ResetMemoryCanonical := by
  unfold Obligations.ResetMemoryCanonical
  exact ⟨rfl, fun f off hf hoff => State.reset_byte_sp hf hoff⟩

/-- Settles O56: every page's registers are read off the reset state. -/
theorem resetColumnsHold : Obligations.ResetColumnsHold := by
  unfold Obligations.ResetColumnsHold
  refine ⟨State.reset_thermReg, rfl, rfl, rfl, rfl, rfl, rfl, rfl, rfl, rfl, rfl, rfl, rfl, rfl, rfl, by decide, rfl, rfl, rfl, rfl, rfl, rfl,
    rfl, rfl, rfl, rfl, fun f st => ?_, fun die page => ⟨rfl, rfl, rfl, rfl, rfl, rfl, rfl, rfl⟩, fun e => ⟨rfl, rfl⟩, fun m => ⟨rfl, rfl⟩⟩
  cases st <;> exact ⟨rfl, rfl, rfl, rfl, fun i => ⟨rfl, rfl⟩⟩
end

section
/-! SUPPORT. SYSTIME alignment: the parent is asked for the time, what a reply's offset does to the time base, and the reference clock (spec/15 R514 to R517). -/

namespace Sys2Proof.Machine

theorem State.axisPort_up {s : State} {a k : Nat} (h : s.axisPort a = some k) : (s.port k).st = .up := by
  unfold State.axisPort at h
  dsimp only at h
  split at h
  · cases h
  · split at h
    · next hfar => cases h; exact beq_iff_eq.mp (Bool.and_eq_true_iff.mp hfar).2
    · split at h
      · next hnear => cases h; exact beq_iff_eq.mp hnear
      · cases h
theorem State.parentPort_up {s : State} {k : Nat} (h : s.parentPort = some k) : (s.port k).st = .up := by
  obtain ⟨a, _, ha⟩ := List.exists_of_findSome?_eq_some h
  exact State.axisPort_up ha

/-- The device names its parent port and the hops to the root. -/
def State.withParent (s : State) (k : Nat) : State := { s with time := { s.time with parent := BitVec.ofNat 4 k, hops := BitVec.ofNat 6 s.rootHops } }
theorem exec_timeExchange {s : State} {k : Nat} (hroot : s.isRoot = false) (hparent : s.parentPort = some k) :
    exec .timeExchange s = .next (if s.drained k then s.withParent k else (s.withParent k).sendOn 12 k (s.timePkt k) false) := by
  have harm : exec .timeExchange s = execTimeExchange s := rfl
  rw [harm, execTimeExchange, hroot, hparent]
  rfl
/-- Sending leaves the time base. -/
theorem State.sendOn_time (s : State) (inp k : Nat) (p : MeshPkt) (stomp : Bool) : (s.sendOn inp k p stomp).time = s.time := by
  rw [(s.sendOn_serves inp k p stomp).frame]
  rfl
/-- A request for the time that may start leaves at once on a link with TIME. -/
theorem State.sendOn_timePkt {s : State} {k : Nat} (hup : (s.port k).st = .up) (hfeat : (s.port k).feat.getLsbD 4 = true)
    (hqueue : (s.port k).queue = []) (hmay : s.mayStart k (s.timePkt k) = true) :
    ∃ w, Sent.packet k (s.timePkt k) false w ∈ (s.sendOn 12 k (s.timePkt k) false).router.sent := by
  have hlink : s.linkRefuses k (s.timePkt k) = false := by
    rw [State.linkRefuses, State.timePkt]
    simp [featureOf, hfeat]
  obtain ⟨w, hsent, -⟩ := State.enqueue_alone (inp := 12) (stomp := false) hqueue (by exact (by decide : 7 < 8)) hmay (State.tooOld_of_birth rfl) fun _ => hlink
  exact ⟨w, by rw [State.sendOn_up hup hlink, hsent]; exact List.mem_cons_self⟩

theorem exec_time_request {s s1 : State} {a : Arrived} (h : s.takePkt (fun p => p.typ == 9) = some (a, s1)) (hport : a.port < 12)
    (hdrain : s1.drained a.port = false) (t1 : Int) : exec (.time (.request t1)) s = .next (s1.sendOn 12 a.port (s1.timePkt a.port) false) := by
  have harm : exec (.time (.request t1)) s = execTime (.request t1) s := rfl
  simp [harm, execTime, h, hport, hdrain]
theorem exec_time_reply {s s1 : State} {a : Arrived} (h : s.takePkt (fun p => p.typ == 9) = some (a, s1)) (hroot : s1.isRoot = false)
    (hparent : s1.parentPort = some a.port) (t1 t2 t3 t4 : Int) (ep : Word) (sw : DWord) :
    exec (.time (.reply t1 t2 t3 t4 ep sw)) s = .next (s1.exchange (thetaOf t1 t2 t3 t4) ep sw) := by
  have harm : exec (.time (.reply t1 t2 t3 t4 ep sw)) s = execTime (.reply t1 t2 t3 t4 ep sw) s := rfl
  simp [harm, execTime, h, hroot, hparent]

/-- What an offset does to the time base: slewed once aligned, stepped and counted before. -/
def TimeSt.exchanged (t : TimeSt) (th : Int) : TimeSt :=
  let t := { t with offset := BitVec.ofInt 32 th }
  let g := if th.natAbs < 1000 then t.good + 1 else 0
  if t.aligned then { t with slew := th * 10 } else { t.shift (th * 10) with good := g, aligned := decide (3 ≤ g) }
theorem State.time_ite_announceAll (s : State) (r : Router) (b : Bool) : (if b then (s.setRouter r).announceAll else s).time = s.time := by
  split
  · exact (State.announceAll_touch (Sub.refl _) _ (.refl _ (s.setRouter r))).time rfl
  · rfl
/-- Adopting the parent's epoch and flooding notices leave the time base. -/
theorem State.exchange_time (s : State) (th : Int) (ep : Word) (sw : DWord) : (s.exchange th ep sw).time = s.time.exchanged th := by
  unfold State.exchange TimeSt.exchanged
  dsimp only
  by_cases haligned : s.time.aligned = true
  · rw [if_pos haligned, if_pos haligned]
  · rw [if_neg haligned, if_neg haligned]
    exact State.time_ite_announceAll ..

theorem exec_refclkLoss {s : State} (h : s.time.refLost = false) :
    exec .refclkLoss s = .next (({ s with time := { s.time with refLost := true } } : State).raise s.lead 0xC2 0) := by
  have harm : exec .refclkLoss s = execRefclkLoss s := rfl
  rw [harm, execRefclkLoss, h]
  rfl

end Sys2Proof.Machine

open Sys2Proof Sys2Proof.Machine

/-- Settles O38: an exchange with the parent changes the time base as its offset says, and sending leaves it. -/
theorem timeIsExchanged : Obligations.TimeIsExchanged := by
  unfold Obligations.TimeIsExchanged
  refine ⟨fun s k hroot hparent => ⟨_, exec_timeExchange hroot hparent, ?_⟩, fun s s1 a htake => ⟨fun t1 hport hdrain =>
    exec_time_request htake hport hdrain t1, fun t1 t2 t3 t4 ep sw hroot hparent => ⟨_, exec_time_reply htake hroot hparent t1 t2 t3 t4 ep sw, ?_⟩⟩,
    fun s => ⟨fun h => ⟨_, exec_refclkLoss h, ?_, State.raise_errStatus _ _ _ (by decide)⟩, rfl⟩⟩
  · have htime : (if s.drained k then s.withParent k else (s.withParent k).sendOn 12 k (s.timePkt k) false).time = (s.withParent k).time := by
      split <;> [rfl; exact State.sendOn_time ..]
    refine ⟨by rw [htime]; rfl, by rw [htime]; rfl, fun hdrain hfeat hqueue hmay => ?_⟩
    · rw [hdrain]
      exact State.sendOn_timePkt (s := s.withParent k) (State.parentPort_up hparent) hfeat hqueue hmay
  · have htime : s1.time = s.time := (State.takePkt_touch (Sub.refl _) htake (.refl _ s)).time rfl
    rw [State.exchange_time, htime, TimeSt.exchanged]
    refine ⟨by split <;> rfl, fun h => ?_, fun h => ?_⟩
    · rw [if_pos (by exact h)]
      exact ⟨rfl, rfl, h⟩
    · rw [if_neg (by simp [h])]
      exact ⟨rfl, decide_eq_true_iff, rfl⟩
  · exact (State.raise_touch (Sub.refl _) _ _ _ _ (.refl _ _)).time rfl
end

section
/-! SUPPORT. What telling of an error leaves of the RAS page: its pending bits stay set, and only they, its counts and the sites' error times change (spec/14 R482, R486, spec/12 R443). -/

namespace Sys2Proof.Machine

/-- The RAS page but for what reports of errors change. -/
def Ras.untold (x : Ras) : Ras := { x with pending := 0, counts := [], siteErrs := [] }
/-- From s to t errors are reported to the RAS page, nothing else of it changes, and every error flag stays set. -/
structure TellsRas (s t : State) : Prop where
  untold : t.ras.untold = s.ras.untold
  pending : ∀ i, s.ras.pending.getLsbD i = true → t.ras.pending.getLsbD i = true
  flags : FlagsStay s t
theorem State.setRas_flagsStay (s : State) (x : Ras) : FlagsStay s (s.setRas x) := ⟨fun _ _ _ => id⟩
theorem TellsRas.refl (s : State) : TellsRas s s := ⟨rfl, fun _ => id, .refl s⟩
theorem TellsRas.trans {s t u : State} (h : TellsRas s t) (k : TellsRas t u) : TellsRas s u :=
  ⟨k.untold.trans h.untold, fun i hi => k.pending i (h.pending i hi), h.flags.trans k.flags⟩
/-- The same, the later change first. -/
theorem TellsRas.after {s t u : State} (k : TellsRas t u) (h : TellsRas s t) : TellsRas s u := h.trans k
theorem TellsRas.of_ras {s t : State} (h : t.ras = s.ras) (hhdrs : t.hdrs = s.hdrs := by rfl) : TellsRas s t :=
  ⟨by rw [h], fun _ => by rw [h]; exact id, ⟨fun _ _ _ hbit => by rwa [State.hdr, hhdrs]⟩⟩
/-- An operation whose mask leaves the RAS page and the headers out. -/
theorem Touch.tellsRas {m : Nat} {s t : State} (h : Touch m s t) (hm : m.testBit 26 = false) (hhdr : m.testBit 32 = false := by rfl) : TellsRas s t :=
  .of_ras (h.ras hm) (h.hdrs hhdr)
theorem TellsRas.ite {s t u : State} {c : Prop} [Decidable c] (h : TellsRas s t) (k : TellsRas s u) : TellsRas s (if c then t else u) := by
  split
  · exact h
  · exact k
theorem TellsRas.each {α : Type} {g : State → α → State} (h : ∀ s x, TellsRas s (g s x)) (l : List α) (s : State) : TellsRas s (s.each l g) := by
  induction l generalizing s with
  | nil => exact .refl s
  | cons x r ih => exact (h s x).trans (ih (g s x))
/-- Which sites carry which floes, and how calvings and the bridge stand, is kept. -/
theorem TellsRas.kept {s t : State} (h : TellsRas s t) : t.ras.calve = s.ras.calve ∧ t.ras.moved = s.ras.moved ∧ t.ras.failed = s.ras.failed
    ∧ t.ras.deferred = s.ras.deferred ∧ t.ras.lost = s.ras.lost ∧ t.ras.orphan = s.ras.orphan ∧ t.ras.ctrlUp = s.ras.ctrlUp
    ∧ t.ras.orphans = s.ras.orphans :=
  have h := h.untold
  ⟨(congrArg Ras.calve h :), (congrArg Ras.moved h :), (congrArg Ras.failed h :), (congrArg Ras.deferred h :), (congrArg Ras.lost h :),
    (congrArg Ras.orphan h :), (congrArg Ras.ctrlUp h :), (congrArg Ras.orphans h :)⟩

theorem State.rasReport_pending (s : State) {cls : Nat} (hcls : cls < 5) : (s.rasReport cls).ras.pending.getLsbD cls = true := by
  show (setBit s.ras.pending cls true).getLsbD cls = true
  simp [getLsbD_setBit_true, hcls]
theorem State.rasReport_tellsRas (s : State) (cls : Nat) : TellsRas s (s.rasReport cls) where
  untold := rfl
  pending i hi := by
    show (setBit s.ras.pending cls true).getLsbD i = true
    rw [getLsbD_setBit_true, hi, Bool.true_or]
  flags := s.rasReport_flagsStay cls
theorem State.siteErr_tellsRas (s : State) (die page : Nat) : TellsRas s (s.siteErr die page) :=
  .ite ⟨rfl, fun _ => id, s.setRas_flagsStay _⟩ (.refl s)
theorem State.setHdr_tellsRas {s : State} {die page : Nat} {x : Header} (h : FlagsStay s (s.setHdr die page x)) : TellsRas s (s.setHdr die page x) :=
  ⟨rfl, fun _ => id, h⟩
/-- A flag that is set. -/
theorem State.setHdr_flag_tellsRas (s : State) (die page bit : Nat) (count : Word) :
    TellsRas s (s.setHdr die page { s.hdr die page with errStatus := setBit (s.hdr die page).errStatus bit true, errCount := count }) :=
  State.setHdr_tellsRas (State.setHdr_flagsStay fun b hb => by simp [getLsbD_setBit_true, hb])
theorem State.setHdr_intStatus_tellsRas (s : State) (die page : Nat) (v : Word) : TellsRas s (s.setHdr die page { s.hdr die page with intStatus := v }) :=
  State.setHdr_tellsRas (s.setHdr_intStatus_flagsStay die page v)
theorem State.countErr_tellsRas (s : State) (die page : Nat) : TellsRas s (s.countErr die page) :=
  have hcount : TellsRas s (s.setHdr die page { s.hdr die page with errCount := satInc (s.hdr die page).errCount }) :=
    State.setHdr_tellsRas (State.setHdr_flagsStay fun _ => id)
  hcount.trans (State.siteErr_tellsRas ..)
theorem State.lostError_tellsRas (s : State) : TellsRas s s.lostError := by
  unfold State.lostError
  extract_lets d h s1 s2 s3 g
  have h2 : TellsRas s s2 := by
    have h1 : TellsRas s s1 := s.setHdr_flag_tellsRas d 0xC3 0 _
    refine h1.trans ?_
    clear_value s1
    exact .ite (.refl s1) (s1.rasReport_tellsRas 0)
  have h3 : TellsRas s s3 := h2.trans (TellsRas.each (fun t _ => .ite
    ((State.pushEvent_touch (Sub.refl _) t _ _ _ _ _ (.refl _ t)).tellsRas rfl) (.refl t)) _ s2)
  exact .ite (h3.trans (s3.setHdr_intStatus_tellsRas ..)) h2
theorem State.event_tellsRas (s : State) (e part code die : Nat) (pl : List Byte) : TellsRas s (s.event e part code die pl) := by
  have hpush (t : State) (part code die : Nat) (pl : List Byte) : TellsRas t (t.pushEvent e part code die pl) :=
    (State.pushEvent_touch (Sub.refl _) t e part code die pl (.refl _ t)).tellsRas rfl
  have hset (t : State) (x : Endpoint) : TellsRas t (t.setEp e x) := .of_ras rfl
  unfold State.event
  extract_lets x s1 y
  have h1 : TellsRas s s1 := (hset s _).trans (hpush ..)
  exact .ite (.refl s) (.ite ((hset s _).trans (State.lostError_tellsRas _)) (.ite (hpush ..)
    (.ite (h1.trans ((hset s1 _).trans (State.lostError_tellsRas _))) (h1.trans (hpush ..)))))
theorem State.eventMgmt_tellsRas (s : State) (code die : Nat) (pl : List Byte) : TellsRas s (s.eventMgmt code die pl) :=
  TellsRas.each (fun t _ => .ite (t.event_tellsRas ..) (.refl t)) _ s
theorem State.eventBoth_tellsRas (s : State) (p code die : Nat) (pl : List Byte) : TellsRas s (s.eventBoth p code die pl) :=
  TellsRas.each (fun t _ => .ite (t.event_tellsRas ..) (.refl t)) _ s
theorem State.eventOwner_tellsRas (s : State) (p code die : Nat) (pl : List Byte) : TellsRas s (s.eventOwner p code die pl) := by
  unfold State.eventOwner
  split
  · exact s.event_tellsRas ..
  · exact .refl s
theorem State.blockError_tellsRas (s : State) (die page : Nat) : TellsRas s (s.blockError die page) := s.eventMgmt_tellsRas ..
theorem State.raise_tellsRas (s : State) (die page bit : Nat) : TellsRas s (s.raise die page bit) := by
  unfold State.raise
  extract_lets h s1 s2 s3 g
  have h1 : TellsRas s s1 := (s.setHdr_flag_tellsRas die page bit _).trans (State.siteErr_tellsRas ..)
  have h2 : TellsRas s s2 := by
    refine h1.trans ?_
    clear_value s1
    exact .ite (.refl s1) (s1.rasReport_tellsRas _)
  exact .ite ((h2.trans (s2.blockError_tellsRas die page)).trans (s3.setHdr_intStatus_tellsRas ..)) h2

end Sys2Proof.Machine
end

section
/-! SUPPORT. A partition's work ends: what the failure of its steps and its becoming DEGRADED leave of the other partitions, of its grant and of the RAS page (spec/12 R440, spec/10 R348, R353). -/

namespace Sys2Proof.Machine

/-- A partition but for its state and its work: its grant, owner, keys, image and counts. -/
def Part.still (x : Part) : Part := { x with st := .free, load := none, steps := [], steers := [], gone := [], pausing := false }
/-- From s to t work of partition p ends: of partitions only it changes, and not its grant; of the RAS page only the reports of errors. -/
structure Ends (p : Nat) (s t : State) : Prop where
  tells : TellsRas s t
  other : ∀ q, q ≠ p → t.part q = s.part q
  still : (t.part p).still = (s.part p).still
theorem Ends.refl (p : Nat) (s : State) : Ends p s s := ⟨.refl s, fun _ _ => rfl, rfl⟩
theorem Ends.trans {p : Nat} {s t u : State} (h : Ends p s t) (k : Ends p t u) : Ends p s u :=
  ⟨h.tells.trans k.tells, fun q hq => (k.other q hq).trans (h.other q hq), k.still.trans h.still⟩
/-- The same, the later change first. -/
theorem Ends.after {p : Nat} {s t u : State} (k : Ends p t u) (h : Ends p s t) : Ends p s u := h.trans k
theorem Ends.ite {p : Nat} {s t u : State} {c : Prop} [Decidable c] (h : Ends p s t) (k : Ends p s u) : Ends p s (if c then t else u) := by
  split
  · exact h
  · exact k
/-- What tells of errors at most, and leaves the partitions. -/
theorem TellsRas.ends {p : Nat} {s t : State} (h : TellsRas s t) (hparts : t.parts = s.parts) : Ends p s t :=
  ⟨h, fun q _ => State.part_of_parts hparts q, by rw [State.part_of_parts hparts]⟩
theorem Touch.ends {m p : Nat} {s t : State} (h : Touch m s t) (hparts : m.testBit 4 = false) (hras : m.testBit 26 = false)
    (hhdr : m.testBit 32 = false := by rfl) : Ends p s t :=
  (h.tellsRas hras hhdr).ends (h.parts hparts)
theorem Ends.each {α : Type} {p : Nat} {g : State → α → State} (h : ∀ s x, Ends p s (g s x)) (l : List α) (s : State) : Ends p s (s.each l g) := by
  induction l generalizing s with
  | nil => exact .refl p s
  | cons x r ih => exact (h s x).trans (ih (g s x))
theorem State.setPart_ends {p : Nat} {s : State} {x : Part} (h : x.still = (s.part p).still) : Ends p s (s.setPart p x) :=
  ⟨.of_ras rfl, fun _ hq => State.part_setPart_ne s x hq, by rw [State.part_setPart, h]⟩
/-- What a partition holds is kept. -/
theorem Ends.grant {p : Nat} {s t : State} (h : Ends p s t) (q : Nat) : (t.part q).groups = (s.part q).groups ∧ (t.part q).near = (s.part q).near
    ∧ (t.part q).cxl = (s.part q).cxl ∧ (t.part q).owner = (s.part q).owner := by
  by_cases hq : q = p
  · have h := h.still
    rw [hq]
    exact ⟨(congrArg Part.groups h :), (congrArg Part.near h :), (congrArg Part.cxl h :), (congrArg Part.owner h :)⟩
  · rw [h.other q hq]
    exact ⟨rfl, rfl, rfl, rfl⟩

theorem State.beginWl_tellsRas (s : State) (c w : Nat) (swap : Bool) : TellsRas s (s.beginWl c w swap) := by
  have hset (t : State) (x : Chip) : TellsRas t (t.setChip c x) := .of_ras rfl
  unfold State.beginWl
  extract_lets x y s1 s2 s3
  have h3 : TellsRas s s3 := by
    have h2 : TellsRas s s2 := .ite ((s1.eventMgmt_tellsRas ..).after (hset s _)) (hset s _)
    exact ((State.relight_touch (Sub.refl _) s2 c w (.refl _ s2)).tellsRas rfl).after h2
  clear_value s3
  refine .ite (.ite (.refl s) (hset s _)) ?_
  split
  · exact .ite ((hset s3 _).after h3) h3
  · exact h3
theorem State.nextWl_tellsRas (s : State) (c : Nat) : TellsRas s (s.nextWl c) := by
  have hset (x : Chip) : TellsRas s (s.setChip c x) := .of_ras rfl
  unfold State.nextWl
  extract_lets x out y
  refine .ite (.refl s) ?_
  split
  · exact hset y
  · exact (State.beginWl_tellsRas ..).after (hset y)
theorem State.wakeWl_ends (s : State) (p : Nat) : Ends p s s.wakeWl :=
  (TellsRas.each (fun t c => t.nextWl_tellsRas c) _ s).ends ((State.wakeWl_touch (Sub.refl _) s (.refl _ s)).parts rfl)
theorem State.answerPause_ends (s : State) (p st det arg : Nat) : Ends p s (s.answerPause p st det arg) := by
  refine ⟨(State.answerPause_touch (Sub.refl _) s p st det arg (.refl _ s)).tellsRas rfl, fun q hq => ?_, by rw [State.answerPause_part]; rfl⟩
  have hset : (s.setPart p { s.part p with pausing := false }).part q = s.part q := State.part_setPart_ne s _ hq
  unfold State.answerPause
  extract_lets hit s1
  split
  · rw [State.part_of_parts (State.respond_parts ..)]
    exact hset
  · exact hset
theorem State.rasReport_ends (s : State) (cls p : Nat) : Ends p s (s.rasReport cls) := (s.rasReport_tellsRas cls).ends rfl
theorem State.eventOwner_ends (s : State) (p code die : Nat) (pl : List Byte) : Ends p s (s.eventOwner p code die pl) :=
  (s.eventOwner_tellsRas p code die pl).ends (State.eventOwner_parts ..)
theorem State.eventBoth_ends (s : State) (p code die : Nat) (pl : List Byte) : Ends p s (s.eventBoth p code die pl) :=
  (s.eventBoth_tellsRas p code die pl).ends ((State.eventBoth_touch (Sub.refl _) s p code die pl (.refl _ s)).parts rfl)
theorem State.stopStreams_ends (s : State) (p : Nat) : Ends p s (s.stopStreams p) := (State.stopStreams_touch (Sub.refl _) s p (.refl _ s)).ends rfl rfl
theorem State.endSteers_ends (s : State) (p tag : Nat) : Ends p s (s.endSteers p tag) := by
  refine .ite ?_ (.refl p s)
  have hset : Ends p s (s.setPart p { s.part p with steers := (s.part p).steers.filter (fun z => z.rtag != tag) }) := State.setPart_ends rfl
  exact (State.wakeWl_ends _ p).after (((State.planDrop_touch (Sub.refl _) _ _ (.refl _ _)).ends rfl rfl).after hset)
theorem State.verdictLost_ends (s : State) (p : Nat) (t : Step) : Ends p s (s.verdictLost p t) := by
  have hfault : Ends p (s.stopStreams p) (((s.stopStreams p).setPart p { (s.stopStreams p).part p with st := .faulted }).answerPause p 0x0E 3 0) :=
    (State.answerPause_ends ..).after (State.setPart_ends rfl)
  exact ((Ends.ite ((s.stopStreams_ends p).trans hfault) (.refl p s)).trans (State.rasReport_ends ..)).trans (State.eventOwner_ends ..)
theorem State.loseStep_ends (s : State) (p : Nat) (t : Step) : Ends p s (s.loseStep p t) := by
  have hfree : Ends p s ((s.unbindAdd t).freeRreg t) :=
    (State.freeRreg_touch (m := 0x40004) ((Sub.refl _).of rfl) _ t (State.unbindAdd_touch ((Sub.refl _).of rfl) s t (.refl _ s))).ends rfl rfl
  have hdrop : Ends p ((s.unbindAdd t).freeRreg t) (((s.unbindAdd t).freeRreg t).dropStep p t.tag) := State.setPart_ends rfl
  exact (hfree.trans hdrop).trans (State.setPart_ends rfl)
theorem State.reportFailure_ends (s : State) (p : Nat) (t : Step) (reason : Nat) : Ends p s (s.reportFailure p t reason) := by
  have hfloes : Ends p s (s.eachFloe t (t.failFloe reason)) := (State.eachFloe_touch (Sub.refl _) s t _ (.refl _ s)).ends rfl rfl
  have hlose := hfloes.trans (State.loseStep_ends _ p t)
  exact (Ends.ite (hlose.trans (State.endSteers_ends ..)) hlose).trans (State.eventOwner_ends ..)
theorem State.failStep_ends (s : State) (p : Nat) (t : Step) (reason : Nat) : Ends p s (s.failStep p t reason false) := by
  rw [State.failStep_eq]
  exact .ite ((s.reportFailure_ends p t reason).trans (State.verdictLost_ends ..)) (s.reportFailure_ends p t reason)
theorem State.failOpen_ends (s : State) (p reason : Nat) : Ends p s (s.failOpen p reason false) := by
  have hverdicts : s.each ((s.part p).steps.filter (fun t => !t.isOpen)) (fun s t => if false then s.endVerdict p t else s) = s :=
    State.each_eq_self (fun _ => if_neg Bool.false_ne_true) _
  rw [State.failOpen, hverdicts]
  exact .each (fun t x => (State.failStep_ends ..).after ((State.around_touch (Sub.refl _) t p x 3 x.attempt reason (.refl _ t)).ends rfl rfl)) _ s
/-- A partition becomes DEGRADED: its work has ended, and it waits for no load. -/
theorem State.degrade_ends (s : State) (p cause : Nat) : Ends p s (s.degrade p cause) := by
  have hfail : Ends p s ((s.stopStreams p).failOpen p 3 false) := (s.stopStreams_ends p).trans (State.failOpen_ends ..)
  have hset : ∀ u : State, Ends p u (u.setPart p { u.part p with st := .degraded, load := none }) := fun u => State.setPart_ends rfl
  unfold State.degrade
  split
  case h_1 | h_2 | h_3 => exact .refl p s
  case h_4 | h_5 | h_6 | h_7 | h_8 =>
    exact (State.eventBoth_ends ..).after ((State.rasReport_ends ..).after ((State.answerPause_ends ..).after ((hset _).after hfail)))
theorem State.degrade_st {s : State} {p : Nat} (hheld : (s.part p).st ≠ .free) (hthaw : (s.part p).st ≠ .thawing) (cause : Nat) :
    ((s.degrade p cause).part p).st = .degraded := by
  have hdone : ∀ u : State, (((((u.setPart p { u.part p with st := .degraded, load := none }).answerPause p 0x0E 3 0).rasReport 2).eventBoth p 0x07 0xFF
      (leBytes 1 cause ++ zeros 3)).part p).st = .degraded := fun u => by
    rw [State.part_of_parts ((State.eventBoth_touch (Sub.refl _) _ p _ _ _ (.refl _ _)).parts rfl), State.rasReport, State.setRas_part,
      State.answerPause_part, State.part_setPart]
  unfold State.degrade
  split
  case h_1 h => exact absurd h hheld
  case h_2 h => exact absurd h hthaw
  case h_3 h => exact h
  case h_4 | h_5 | h_6 | h_7 | h_8 => exact hdone _

end Sys2Proof.Machine
end

section
/-! SUPPORT. Calving and sites that fail: which sites are spare, how a failed site is recorded, and what the end of a calving, the move of a floe and the loss of a group leave (spec/14 R480 to R485). -/

namespace Sys2Proof.Machine

/-! ## Sites, spares and records -/

/-- Which site a floe runs on, and which sites are spare, is said by the RAS page's maps. -/
theorem State.floeAt_congr {s t : State} (hvariant : t.variant = s.variant) (hmoved : t.ras.moved = s.ras.moved) (site : Nat) :
    t.floeAt site = s.floeAt site := by
  simp only [State.floeAt, State.siteOf, State.baseSite, State.floeDie, hvariant, hmoved]
theorem State.spares_congr {s t : State} (hvariant : t.variant = s.variant) (hmoved : t.ras.moved = s.ras.moved)
    (hfailed : t.ras.failed = s.ras.failed) (hcalve : t.ras.calve = s.ras.calve) (die : Nat) : t.spares die = s.spares die := by
  simp only [State.spares, State.floeAt_congr hvariant hmoved, hfailed, hcalve]
theorem State.writeRecord_ras (s : State) (site dst : Nat) : (s.writeRecord site dst).ras = { s.ras with failed := s.ras.failed ++ [site] } := by
  unfold State.writeRecord
  extract_lets s1
  split <;> split <;> rfl
/-- A fuse of the site's die takes the record while one is left. -/
theorem State.writeRecord_fuses (s : State) (site dst : Nat) :
    (site / 112 = 0 → s.fuses.rec0.length < 32 → (s.writeRecord site dst).fuses.rec0 = s.fuses.rec0 ++ [(site, dst)])
    ∧ (site / 112 ≠ 0 → s.fuses.rec1.length < 32 → (s.writeRecord site dst).fuses.rec1 = s.fuses.rec1 ++ [(site, dst)])
    ∧ (32 ≤ (if site / 112 = 0 then s.fuses.rec0 else s.fuses.rec1).length →
        (s.writeRecord site dst).fuses = s.fuses ∧ (s.writeRecord site dst).flash.remap = s.flash.remap ++ [(site, dst)]) := by
  unfold State.writeRecord
  extract_lets s1
  by_cases hdie : site / 112 = 0
  · rw [if_pos hdie]
    refine ⟨fun _ hroom => by rw [if_pos hroom]; rfl, fun h => absurd hdie h, fun hfull => ?_⟩
    rw [if_pos hdie] at hfull
    rw [if_neg (Nat.not_lt.mpr hfull)]
    exact ⟨rfl, rfl⟩
  · rw [if_neg hdie]
    refine ⟨fun h => absurd h hdie, fun _ hroom => by rw [if_pos hroom]; rfl, fun hfull => ?_⟩
    rw [if_neg hdie] at hfull
    rw [if_neg (Nat.not_lt.mpr hfull)]
    exact ⟨rfl, rfl⟩
/-- The RAS page after a failure of a site has ended the calving that it belongs to. -/
theorem State.dropCalve_ras (s : State) (site : Nat) :
    (s.dropCalve site).ras = { s.ras with calve := s.ras.calve.filter (fun j => !(j.site = site || j.dst = site)) } := by
  unfold State.dropCalve
  cases hcalve : s.ras.calve with
  | none => exact congrArg (fun c => ({ s.ras with calve := c } : Ras)) hcalve
  | some j =>
    dsimp only
    rw [Option.filter_some]
    split
    · next hsite => rw [hsite]; rfl
    · next hsite => rw [eq_false_of_ne_true hsite]; exact congrArg (fun c => ({ s.ras with calve := c } : Ras)) hcalve
theorem State.dropCalve_calve (s : State) (site : Nat) :
    (s.dropCalve site).ras.calve = s.ras.calve.filter (fun j => !(j.site = site || j.dst = site)) := by rw [State.dropCalve_ras]
/-- No calving of the site: nothing ends. -/
theorem State.dropCalve_eq_self {s : State} {site : Nat} (h : ∀ j, s.ras.calve = some j → j.site ≠ site ∧ j.dst ≠ site) : s.dropCalve site = s := by
  unfold State.dropCalve
  split
  · next j hcalve => rw [if_neg]; simp [h j hcalve]
  · rfl

/-! ## A planned calving (spec/14 R482, Table 14-2) -/

theorem State.each_some {α : Type} (s : State) (x : α) (g : State → α → State) : s.each (some x).toList g = g s x := rfl
theorem State.holdFloe_floe (s : State) (f : Nat) : (s.holdFloe f).floe f = { s.floe f with held := true } := by
  rw [State.holdFloe, State.floe_of_floes ((State.slowWhere_touch (Sub.refl _) _ _ (.refl _ _)).floes rfl), State.floe_setFloe]
theorem State.holdFloe_ras (s : State) (f : Nat) : (s.holdFloe f).ras = s.ras := (State.holdFloe_touch (Sub.refl _) s f (.refl _ s)).ras rfl

section
variable {s : State} {site : Byte}
theorem exec_rasCalveGo (s : State) (site : Byte) :
    exec (.rasCalveGo site) s = .next ((s.setRas { s.ras with site := site }).calveGo site.toNat) := rfl
theorem State.calveGo_begins {f d : Nat} {r : List Nat} (hfloe : s.floeAt site.toNat = some f) (hcalve : s.ras.calve = none)
    (hfailed : site.toNat ∉ s.ras.failed) (hspares : s.spares (site.toNat / 112) = d :: r) :
    let s1 := s.setRas { s.ras with site := site }
    s1.calveGo site.toNat = (s1.setRas { s1.ras with calve := some { site := site.toNat, dst := d, floe := some f }, deferred := false }).holdFloe f := by
  intro s1
  have hfloe1 : s1.floeAt site.toNat = some f := (State.floeAt_congr rfl rfl _).trans hfloe
  have hspares1 : s1.spares (site.toNat / 112) = d :: r := (State.spares_congr rfl rfl rfl rfl _).trans hspares
  have hcalve1 : s1.ras.calve = none := hcalve
  have hfailed1 : s1.ras.failed.contains site.toNat = false := eq_false_of_ne_true (mt List.contains_iff_mem.mp hfailed)
  simp only [State.calveGo, hfloe1, hcalve1, hfailed1, State.beginCalve, hspares1, Option.isSome_none, Bool.or_self, Bool.false_eq_true, if_false]
theorem State.calveGo_refused (h : s.floeAt site.toNat = none ∨ s.ras.calve ≠ none ∨ site.toNat ∈ s.ras.failed) :
    let s1 := s.setRas { s.ras with site := site }
    s1.calveGo site.toNat = s1.countErr s.lead 0xC0 := by
  intro s1
  have hfloe1 : s1.floeAt site.toNat = s.floeAt site.toNat := State.floeAt_congr rfl rfl _
  rw [State.calveGo, hfloe1]
  cases hfloe : s.floeAt site.toNat with
  | none => rfl
  | some f =>
    rw [hfloe] at h
    have hbusy : (s1.ras.calve.isSome || s1.ras.failed.contains site.toNat) = true := by
      simp only [Bool.or_eq_true, List.contains_iff_mem, Option.isSome_iff_ne_none]
      exact h.resolve_left nofun
    exact if_pos hbusy
end

section
variable {s : State} {j : Calve} {f : Nat} (hcalve : s.ras.calve = some j) (hfloe : j.floe = some f)
include hcalve hfloe
theorem exec_calveQuietPoint (hcopy : j.copying = false) (hwait : j.waiting = false) (hfirst : s.fwFirst f = false) (hquiet : s.quiet f = true) :
    exec .calveQuietPoint s
      = .next ((s.setFloe f { s.floe f with copying := true }).setRas { s.ras with calve := some { j with copying := true } }) := by
  have harm : exec .calveQuietPoint s = execCalveQuietPoint s := rfl
  rw [harm, execCalveQuietPoint, hcalve]
  dsimp only
  rw [hfloe]
  simp only [hcopy, hwait, hfirst, hquiet, Bool.not_true, Bool.or_self, Bool.false_eq_true, if_false]
theorem exec_calveHoldTimeout (hcopy : j.copying = false) (hwait : j.waiting = false) (hfirst : s.fwFirst f = false) :
    exec .calveHoldTimeout s = .next ((s.setFloe f { s.floe f with held := false, copying := false }).setRas
      { s.ras with calve := some { j with waiting := true }, deferred := true }) := by
  have harm : exec .calveHoldTimeout s = execCalveHoldTimeout s := rfl
  rw [harm, execCalveHoldTimeout, hcalve]
  dsimp only
  rw [if_neg (by simp [hcopy, hwait, hfloe, hfirst]), hfloe, State.each_some]
  rfl
theorem exec_calveRetry (hwait : j.waiting = true) :
    exec .calveRetry s = .next ((s.setRas { s.ras with calve := some { j with waiting := false } }).holdFloe f) := by
  have harm : exec .calveRetry s = execCalveRetry s := rfl
  rw [harm, execCalveRetry, hcalve]
  dsimp only
  rw [if_pos hwait, hfloe, State.each_some]
/-- The maps name the new site, the floe is released and the failed site is recorded. -/
def State.calved (s : State) (j : Calve) (f : Nat) : State :=
  ((s.setRas { s.ras with calve := none, moved := s.ras.moved.put f j.dst }).freeFloe f).writeRecord j.site j.dst
theorem exec_calveCopyComplete (hcopy : j.copying = true) :
    exec .calveCopyComplete s = .next (((s.calved j f).rasReport 0).calvedEvent j.site f) := by
  have harm : exec .calveCopyComplete s = execCalveCopyComplete s := rfl
  rw [harm, execCalveCopyComplete, hcalve]
  dsimp only
  rw [hfloe]
  dsimp only
  rw [if_pos hcopy]
  rfl
end
theorem State.calved_ras (s : State) (j : Calve) (f : Nat) :
    (s.calved j f).ras = { s.ras with calve := none, moved := s.ras.moved.put f j.dst, failed := s.ras.failed ++ [j.site] } := by
  rw [State.calved, State.writeRecord_ras]
  rfl
theorem State.calved_floe (s : State) (j : Calve) (f : Nat) : (s.calved j f).floe f = { s.floe f with held := false, copying := false } := by
  rw [State.calved, State.floe_of_floes ((State.writeRecord_touch (Sub.refl _) _ _ _ (.refl _ _)).floes rfl)]
  exact State.floe_setFloe ..
/-- FLOE_CALVED is told. -/
theorem State.calvedEvent_tellsRas (s : State) (site f : Nat) : TellsRas s (s.calvedEvent site f) := s.eventMgmt_tellsRas ..
theorem State.calvedEvent_told (s : State) (site f : Nat) : Touch 0x144001400 s (s.calvedEvent site f) :=
  State.calvedEvent_touch (Sub.refl _) s site f (.refl _ s)

/-! ## Sites that fail (spec/14 R482, R483) -/

theorem State.groupHolder_held {s : State} {g p : Nat} (h : s.groupHolder g = some p) : (s.part p).held = true ∧ (s.part p).groups.getLsbD g = true :=
  Bool.and_eq_true_iff.mp (List.find?_some (p := fun p => (s.part p).held && (s.part p).groups.getLsbD g) h)
theorem State.floePart_groupHolder {s : State} {f p : Nat} (h : s.floePart f = some p) : s.groupHolder (f / 8) = some p := by
  unfold State.floePart at h
  split at h
  · exact h
  · cases h
theorem State.floePart_st {s : State} {f p : Nat} (h : s.floePart f = some p) : (s.part p).st ≠ .free :=
  bne_iff_ne.mp (State.groupHolder_held (State.floePart_groupHolder h)).1
/-- The partition that holds the floe becomes DEGRADED. -/
def State.degradeHolder (s : State) (f : Nat) : State :=
  match s.floePart f with
  | some p => s.degrade p 1
  | none => s
theorem State.degradeHolder_tellsRas (s : State) (f : Nat) : TellsRas s (s.degradeHolder f) := by
  unfold State.degradeHolder
  split
  · exact (State.degrade_ends ..).tells
  · exact .refl s
theorem State.degradeHolder_touch (s : State) (f : Nat) : Touch 0x1441C3C14 s (s.degradeHolder f) := by
  unfold State.degradeHolder
  split
  · exact State.degrade_memory_touch (Sub.refl _) s _ _ (.refl _ s)
  · exact .refl _ s
theorem State.degradeHolder_part {s : State} {f p : Nat} (h : s.floePart f = some p) (hthaw : (s.part p).st ≠ .thawing) :
    ((s.degradeHolder f).part p).st = .degraded ∧ (s.degradeHolder f).groupHolder (f / 8) = some p := by
  have heq : s.degradeHolder f = s.degrade p 1 := by rw [State.degradeHolder, h]
  have hends := s.degrade_ends p 1
  have hst := State.degrade_st (State.floePart_st h) hthaw 1
  have hholder := State.floePart_groupHolder h
  have hheld : ∀ q, (((s.degrade p 1).part q).held && ((s.degrade p 1).part q).groups.getLsbD (f / 8)) = ((s.part q).held && (s.part q).groups.getLsbD (f / 8)) := by
    intro q
    rw [(hends.grant q).1]
    by_cases hq : q = p
    · rw [hq, (State.groupHolder_held hholder).1, Part.held, hst]
      rfl
    · rw [hends.other q hq]
  rw [heq]
  exact ⟨hst, by rw [State.groupHolder, funext hheld]; exact hholder⟩

theorem getLsbD_setBit_false {w : Nat} (v : BitVec w) (i : Nat) : (setBit v i false).getLsbD i = false := by
  rw [setBit, if_neg Bool.false_ne_true, BitVec.getLsbD_and, BitVec.getLsbD_not, ← BitVec.twoPow_eq, BitVec.getLsbD_twoPow]
  by_cases hi : i < w <;> simp [hi]
/-- A failed site's floe moves to a spare site and begins anew there. -/
def State.moveToSpare (s : State) (site f d : Nat) : State :=
  ((((s.setRas { s.ras with moved := s.ras.moved.put f d }).writeRecord site d).abandonFloe f).resetFloe f).calvedEvent site f
theorem State.moveToSpare_ras (s : State) (site f d : Nat) : ∃ u : State,
    u.ras = { s.ras with moved := s.ras.moved.put f d, failed := s.ras.failed ++ [site] } ∧ TellsRas u (s.moveToSpare site f d) := by
  refine ⟨_, ?_, State.calvedEvent_tellsRas ..⟩
  rw [(State.resetFloe_touch (Sub.refl _) _ f (.refl _ _)).ras rfl, (State.abandonFloe_touch (Sub.refl _) _ f (.refl _ _)).ras rfl, State.writeRecord_ras]
  rfl
theorem State.moveToSpare_floe (s : State) (site f d : Nat) : (s.moveToSpare site f d).floe f = {} := by
  rw [State.moveToSpare, State.floe_of_floes ((State.calvedEvent_told _ site f).floes rfl), State.resetFloe_floe]
theorem State.moveToSpare_part (s : State) (site f d p : Nat) : (s.moveToSpare site f d).part p = s.part p := by
  rw [State.moveToSpare, State.part_of_parts ((State.calvedEvent_told _ site f).parts rfl),
    State.part_of_parts ((State.resetFloe_touch (Sub.refl _) _ f (.refl _ _)).parts rfl),
    State.part_of_parts ((State.abandonFloe_touch (Sub.refl _) _ f (.refl _ _)).parts rfl),
    State.part_of_parts ((State.writeRecord_touch (Sub.refl _) _ site d (.refl _ _)).parts rfl)]
  rfl
theorem State.loseGroup_ras (s : State) (g : Nat) : (s.loseGroup g).ras = { s.ras with lost := g :: s.ras.lost } := by
  unfold State.loseGroup
  extract_lets s1
  split <;> rfl
/-- A lost group leaves the grant of the partition that holds it. -/
theorem State.loseGroup_part {s : State} {g p : Nat} (h : s.groupHolder g = some p) :
    (s.loseGroup g).part p = { s.part p with groups := setBit (s.part p).groups g false } := by
  have hholder : (s.setRas { s.ras with lost := g :: s.ras.lost }).groupHolder g = some p := h
  simp only [State.loseGroup, hholder, State.part_setPart]
  rfl

/-- What follows the failure of a site, once a calving of it has ended. -/
def State.failSite (s : State) (site : Nat) : State :=
  if s.ras.failed.contains site then s
  else match s.floeAt site with
    | none => s.failSpare site
    | some f =>
      match (s.degradeHolder f).spares (site / 112) with
      | d :: _ => (s.degradeHolder f).moveToSpare site f d
      | [] => ((s.degradeHolder f).writeRecord site 0xFF).loseGroup (f / 8)
theorem exec_siteHardFailure (s : State) (site : Nat) : exec (.siteHardFailure site) s = .next ((s.dropCalve site).failSite site) := by
  have harm : exec (.siteHardFailure site) s = execSiteHardFailure site s := rfl
  rw [harm, execSiteHardFailure, State.failSite]
  generalize s.dropCalve site = u
  rw [apply_ite Host.Outcome.next]
  refine if_congr Iff.rfl rfl ?_
  cases u.floeAt site with
  | none => rfl
  | some f =>
    dsimp only
    change (match (u.degradeHolder f).spares (site / 112) with
      | d :: _ => Host.Outcome.next ((u.degradeHolder f).moveToSpare site f d)
      | [] => Host.Outcome.next (((u.degradeHolder f).writeRecord site 0xFF).loseGroup (f / 8))) = _
    cases (u.degradeHolder f).spares (site / 112) <;> rfl
theorem State.degradeHolder_spares (s : State) (f die : Nat) : (s.degradeHolder f).spares die = s.spares die := by
  obtain ⟨hcalve, hmoved, hfailed, -⟩ := (s.degradeHolder_tellsRas f).kept
  exact State.spares_congr ((s.degradeHolder_touch f).variant rfl) hmoved hfailed hcalve die
section
variable {s : State} {site f : Nat} (hworks : site ∉ s.ras.failed) (hfloe : s.floeAt site = some f)
include hworks hfloe
theorem State.failSite_moves {d : Nat} {r : List Nat} (h : s.spares (site / 112) = d :: r) :
    s.failSite site = (s.degradeHolder f).moveToSpare site f d := by
  simp only [State.failSite, List.contains_eq_mem, hworks, hfloe, State.degradeHolder_spares, h, decide_false, Bool.false_eq_true, if_false]
theorem State.failSite_loses (h : s.spares (site / 112) = []) :
    s.failSite site = ((s.degradeHolder f).writeRecord site 0xFF).loseGroup (f / 8) := by
  simp only [State.failSite, List.contains_eq_mem, hworks, hfloe, State.degradeHolder_spares, h, decide_false, Bool.false_eq_true, if_false]
end
theorem State.failSpare_ras (s : State) (site : Nat) :
    (s.failSpare site).ras = if s.ras.failed.contains site then s.ras else { s.ras with failed := s.ras.failed ++ [site] } := by
  rw [State.failSpare, apply_ite State.ras, State.writeRecord_ras]
/-- A failure begins and ends no calving. -/
theorem State.failSite_calve (s : State) (site : Nat) : (s.failSite site).ras.calve = s.ras.calve := by
  rw [State.failSite]
  split
  · rfl
  · split
    · rw [State.failSpare_ras]
      split <;> rfl
    · next f _ =>
      have hdegrade : (s.degradeHolder f).ras.calve = s.ras.calve := (s.degradeHolder_tellsRas f).kept.1
      split
      · next d _ _ =>
        obtain ⟨u, hu, htells⟩ := (s.degradeHolder f).moveToSpare_ras site f d
        rw [htells.kept.1, hu, ← hdegrade]
      · rw [State.loseGroup_ras, State.writeRecord_ras, ← hdegrade]

end Sys2Proof.Machine

open Sys2Proof Sys2Proof.Machine

/-- Settles O46: the calving in progress says which step does what; a failed site's floe moves once its partition is DEGRADED, and what tells of it leaves the maps. That a failure of the site or its target ends the calving is the model's inference from spec/14 R482 and R483. -/
theorem calvingAndFailedSites : Obligations.CalvingAndFailedSites := by
  unfold Obligations.CalvingAndFailedSites
  refine ⟨⟨fun site s => ⟨fun f d r hfloe hcalve hfailed hspares => ?_, fun h => ?_⟩, fun j f s hcalve hfloe => ⟨?_, ?_, fun hwait => ?_, fun hcopy => ?_⟩⟩,
    fun site f s hfree hworks hfloe => ⟨fun d r hspares => ?_, fun hspares => ?_⟩, fun site j s hcalve hsite => ?_, fun site s => ⟨rfl, fun hfloe hworks => ?_⟩,
    fun u s hu hfailed hin hkept => ⟨?_, ?_⟩⟩
  · refine ⟨_, by rw [exec_rasCalveGo, State.calveGo_begins hfloe hcalve hfailed hspares], ?_⟩
    rw [State.holdFloe_ras, State.holdFloe_floe]
    exact ⟨rfl, rfl, rfl⟩
  · rw [exec_rasCalveGo, State.calveGo_refused h]
  · exact exec_calveQuietPoint hcalve hfloe
  · exact exec_calveHoldTimeout hcalve hfloe
  · refine ⟨_, exec_calveRetry hcalve hfloe hwait, ?_⟩
    rw [State.holdFloe_ras, State.holdFloe_floe]
    exact ⟨rfl, rfl⟩
  · refine ⟨_, exec_calveCopyComplete hcalve hfloe hcopy, ?_⟩
    obtain ⟨hnone, hmoved, hfailed, -⟩ := ((State.rasReport_tellsRas (s.calved j f) 0).trans (State.calvedEvent_tellsRas _ j.site f)).kept
    have htold := State.calvedEvent_told ((s.calved j f).rasReport 0) j.site f
    have hfuses : (((s.calved j f).rasReport 0).calvedEvent j.site f).fuses = (s.calved j f).fuses := htold.fuses rfl
    have hflash : (((s.calved j f).rasReport 0).calvedEvent j.site f).flash = (s.calved j f).flash := htold.flash rfl
    rw [hnone, hmoved, hfailed, State.floe_of_floes (htold.floes rfl), hfuses, hflash, State.calved_ras]
    exact ⟨rfl, by rw [Tbl.find_put, if_pos rfl], rfl, State.calved_floe .., State.writeRecord_fuses ((s.setRas { s.ras with calve := none, moved := s.ras.moved.put f j.dst }).freeFloe f) j.site j.dst⟩
  · refine ⟨_, exec_siteHardFailure s site, ?_⟩
    rw [State.dropCalve_eq_self hfree, State.failSite_moves hworks hfloe hspares]
    obtain ⟨hcalve, hmoved, hfailed, -⟩ := (s.degradeHolder_tellsRas f).kept
    obtain ⟨v, hv, htells⟩ := (s.degradeHolder f).moveToSpare_ras site f d
    obtain ⟨hcalve', hmoved', hfailed', -⟩ := htells.kept
    rw [hcalve', hmoved', hfailed', hv, hcalve, hmoved, hfailed]
    exact ⟨by rw [Tbl.find_put, if_pos rfl], rfl, State.moveToSpare_floe .., rfl, fun p hp hthaw => by
      rw [State.moveToSpare_part, (State.degradeHolder_part hp hthaw).1]⟩
  · refine ⟨_, exec_siteHardFailure s site, ?_⟩
    rw [State.dropCalve_eq_self hfree, State.failSite_loses hworks hfloe hspares, State.loseGroup_ras, State.writeRecord_ras]
    obtain ⟨-, -, hfailed, -⟩ := (s.degradeHolder_tellsRas f).kept
    refine ⟨List.mem_cons_self, by rw [hfailed], fun p hp hthaw => ?_⟩
    obtain ⟨hst, hholder⟩ := State.degradeHolder_part hp hthaw
    have hparts := (State.writeRecord_touch (Sub.refl _) (s.degradeHolder f) site 0xFF (.refl _ _)).parts rfl
    have hholder' : ((s.degradeHolder f).writeRecord site 0xFF).groupHolder (f / 8) = some p := by
      rw [← hholder, State.groupHolder, State.groupHolder]
      simp only [State.part_of_parts hparts]
    rw [State.loseGroup_part hholder', State.part_of_parts hparts]
    exact ⟨hst, getLsbD_setBit_false ..⟩
  · refine ⟨_, exec_siteHardFailure s site, ?_⟩
    rw [State.failSite_calve, State.dropCalve_calve, hcalve, Option.filter_some, if_neg]
    simpa [← or_iff_not_imp_left] using hsite
  · have hdrop : (s.dropCalve site).floeAt site = none := by
      rw [State.floeAt_congr ((State.dropCalve_touch (Sub.refl _) s site (.refl _ s)).variant rfl) (by rw [State.dropCalve_ras]), hfloe]
    refine ⟨(s.dropCalve site).failSpare site, ?_, ?_⟩
    · have harm : exec (.spareSelfTest site false) s = execSpareSelfTest site false s := rfl
      rw [harm, execSpareSelfTest, hfloe]
      rfl
    · rw [State.failSpare_ras, State.dropCalve_ras, if_neg (mt List.contains_iff_mem.mp hworks)]
      refine ⟨rfl, rfl, fun j hj => ?_⟩
      obtain ⟨hj, hsite⟩ := Option.filter_eq_some_iff.mp hj
      simp at hsite
      exact ⟨hj, hsite⟩
  · have harm : exec (.addUnitTest u true) s = execAddUnitTest u true s := rfl
    simp [harm, execAddUnitTest, hfailed, hin, hkept, Nat.not_le.mpr hu]
  · have harm : exec (.addUnitTest u false) s = execAddUnitTest u false s := rfl
    simp [harm, execAddUnitTest, hfailed, hin, hkept, Nat.not_le.mpr hu]
end

section
/-! SUPPORT. The dies separate and rejoin: partitions with groups on the orphaned die, the memory lost with the data lanes, and the way back (spec/14 R488 to R491). -/

namespace Sys2Proof.Machine

/-! ## A lost heartbeat (spec/14 R489) -/

/-- A bit of a mask from which the bits of a list are taken. -/
theorem getLsbD_clearBits {w : Nat} (l : List Nat) (v : BitVec w) {i : Nat} (h : i ∈ l ∨ v.getLsbD i = false) :
    (l.foldl (fun m g => setBit m g false) v).getLsbD i = false := by
  induction l generalizing v with
  | nil => exact h.resolve_left List.not_mem_nil
  | cons g r ih =>
    refine ih (setBit v g false) ?_
    by_cases hg : i = g
    · exact .inr (hg ▸ getLsbD_setBit_false v g)
    · refine (h.imp_left fun hi => (List.mem_cons.mp hi).resolve_left hg).imp_right fun hv => ?_
      rw [setBit, if_neg Bool.false_ne_true, BitVec.getLsbD_and, hv, Bool.false_and]
/-- The partitions that hold a group of die d. -/
def State.holdersOn (s : State) (d : Nat) : List Nat :=
  (List.range 8).filter (fun p => (s.part p).held && (s.dieGroups d).any (fun g => (s.part p).groups.getLsbD g))
/-- The RAS page shows the orphan. -/
def State.orphanMarked (s : State) : State :=
  (s.setRas { s.ras with orphan := true, ctrlUp := false, beatSince := none, orphans := bump s.ras.orphans }).rasReport 3
/-- The other die is an orphan, and its partitions are DEGRADED. -/
def State.orphaned (s : State) : State :=
  (s.orphanMarked.each (s.holdersOn s.otherDie) (fun s p => s.degrade p 4)).each ((List.range 12).filter (fun k => axisDie (k / 4) == s.otherDie)) (fun s k => s.linkEvent k)
/-- The groups of a die leave a partition's grant, unless it thaws. -/
def State.ungrant (s : State) (gs : List Nat) (p : Nat) : State :=
  if (s.part p).st = .thawing then s else s.setPart p { s.part p with groups := gs.foldl (fun m g => setBit m g false) (s.part p).groups }
theorem exec_heartbeatLoss {s : State} (h : s.ras.orphan = false) :
    exec .heartbeatLoss s = .next (s.orphaned.each (s.holdersOn s.otherDie) (fun t p => t.ungrant (s.dieGroups s.otherDie) p)) := by
  have harm : exec .heartbeatLoss s = execHeartbeatLoss s := rfl
  rw [harm, execHeartbeatLoss, h]
  rfl
theorem State.ungrant_ras (s : State) (gs l : List Nat) : (s.each l (fun t p => t.ungrant gs p)).ras = s.ras :=
  State.each_keeps (v := State.ras) (fun t p => by rw [State.ungrant]; split <;> rfl) l s
theorem State.linkEvent_tellsRas (s : State) (k : Nat) : TellsRas s (s.linkEvent k) := s.eventMgmt_tellsRas ..
theorem State.orphaned_ras (s : State) : s.orphaned.ras.orphan = true ∧ s.orphaned.ras.ctrlUp = false ∧ s.orphaned.ras.orphans = s.ras.orphans + 1
    ∧ s.orphaned.ras.pending.getLsbD 3 = true := by
  have htells : TellsRas s.orphanMarked s.orphaned :=
    (TellsRas.each (fun t k => t.linkEvent_tellsRas k) _ _).after (TellsRas.each (fun t p => (t.degrade_ends p 4).tells) _ _)
  obtain ⟨-, -, -, -, -, horphan, hctrl, horphans⟩ := htells.kept
  exact ⟨horphan, hctrl, horphans, htells.pending 3 (State.rasReport_pending _ (by decide))⟩
/-- Of the partitions that hold a group there, those that do not thaw are DEGRADED. -/
theorem State.each_degrade_part {s : State} (l : List Nat) (cause : Nat) {p : Nat} (hp : p ∈ l) (hheld : (s.part p).st ≠ .free) (hthaw : (s.part p).st ≠ .thawing) :
    ((s.each l (fun s p => s.degrade p cause)).part p).st = .degraded ∧ ((s.each l (fun s p => s.degrade p cause)).part p).groups = (s.part p).groups := by
  have hrest : ∀ (l : List Nat) (s : State), (s.part p).st = .degraded →
      ((s.each l (fun s p => s.degrade p cause)).part p).st = .degraded ∧ ((s.each l (fun s p => s.degrade p cause)).part p).groups = (s.part p).groups := by
    intro l
    induction l with
    | nil => exact fun s h => ⟨h, rfl⟩
    | cons q r ih =>
      intro s h
      have hq : (s.degrade q cause).part p = s.part p := by
        by_cases hqp : p = q
        · rw [← hqp, State.degrade, h]
        · exact (s.degrade_ends q cause).other p hqp
      have := ih (s.degrade q cause) (by rw [hq, h])
      rwa [hq] at this
  induction l generalizing s with
  | nil => exact absurd hp List.not_mem_nil
  | cons q r ih =>
    by_cases hqp : p = q
    · obtain ⟨hst, hgroups⟩ := hrest r (s.degrade p cause) (State.degrade_st hheld hthaw cause)
      rw [← hqp]
      exact ⟨hst, hgroups.trans ((s.degrade_ends p cause).grant p).1⟩
    · have hq := (s.degrade_ends q cause).other p hqp
      have := ih (s := s.degrade q cause) ((List.mem_cons.mp hp).resolve_left hqp) (by rwa [hq]) (by rwa [hq])
      rwa [hq] at this
theorem State.orphaned_part {s : State} {p : Nat} (hp : p ∈ s.holdersOn s.otherDie) (hheld : (s.part p).st ≠ .free) (hthaw : (s.part p).st ≠ .thawing) :
    (s.orphaned.part p).st = .degraded ∧ (s.orphaned.part p).groups = (s.part p).groups := by
  have hlinks : ∀ (l : List Nat) (u : State), (u.each l (fun s k => s.linkEvent k)).part p = u.part p := fun l u =>
    State.each_keeps (v := fun s => s.part p) (fun t k => State.part_of_parts ((State.linkEvent_touch (Sub.refl _) t k (.refl _ t)).parts rfl) p) l u
  rw [State.orphaned, hlinks]
  exact State.each_degrade_part (s := s.orphanMarked) _ 4 hp hheld hthaw
theorem State.ungrant_part {s : State} {p : Nat} (hst : (s.part p).st ≠ .thawing) (gs : List Nat) :
    (s.ungrant gs p).part p = { s.part p with groups := gs.foldl (fun m g => setBit m g false) (s.part p).groups } := by
  rw [State.ungrant, if_neg hst, State.part_setPart]
theorem State.ungrant_part_ne (s : State) {p q : Nat} (h : p ≠ q) (gs : List Nat) : (s.ungrant gs q).part p = s.part p := by
  rw [State.ungrant]
  split
  · rfl
  · exact State.part_setPart_ne _ _ h
/-- A DEGRADED partition stays so as groups leave grants, and a group that has left does not come back. -/
theorem State.each_ungrant_part {s : State} {gs l : List Nat} {p g : Nat} (hp : p ∈ l) (hg : g ∈ gs) (hst : (s.part p).st = .degraded) :
    ((s.each l (fun t p => t.ungrant gs p)).part p).st = .degraded ∧ ((s.each l (fun t p => t.ungrant gs p)).part p).groups.getLsbD g = false := by
  have hstep : ∀ t : State, (t.part p).st = .degraded →
      ((t.ungrant gs p).part p).st = .degraded ∧ ((t.ungrant gs p).part p).groups.getLsbD g = false := fun t ht => by
    rw [State.ungrant_part (by rw [ht]; decide)]
    exact ⟨ht, getLsbD_clearBits gs _ (.inl hg)⟩
  have hrest : ∀ (l : List Nat) (t : State), (t.part p).st = .degraded → (t.part p).groups.getLsbD g = false →
      ((t.each l (fun t p => t.ungrant gs p)).part p).st = .degraded ∧ ((t.each l (fun t p => t.ungrant gs p)).part p).groups.getLsbD g = false := by
    intro l
    induction l with
    | nil => exact fun t ht hbit => ⟨ht, hbit⟩
    | cons q r ih =>
      intro t ht hbit
      by_cases hq : p = q
      · obtain ⟨h1, h2⟩ := hstep t ht
        exact ih (t.ungrant gs q) (by rw [← hq]; exact h1) (by rw [← hq]; exact h2)
      · exact ih (t.ungrant gs q) (by rw [State.ungrant_part_ne t hq, ht]) (by rw [State.ungrant_part_ne t hq, hbit])
  induction l generalizing s with
  | nil => exact absurd hp List.not_mem_nil
  | cons q r ih =>
    by_cases hq : p = q
    · obtain ⟨h1, h2⟩ := hstep s hst
      rw [← hq]
      exact hrest r (s.ungrant gs p) h1 h2
    · exact ih ((List.mem_cons.mp hp).resolve_left hq) (by rw [State.ungrant_part_ne s hq, hst])

/-! ## The rejoin (spec/14 R491) -/

theorem exec_controlLaneRetrain {s : State} (h : s.ras.orphan = true) (up : Bool) : exec (.controlLaneRetrain up) s
    = .next (s.setRas { s.ras with ctrlUp := up, beatSince := if up then some (s.ras.beatSince.getD s.now) else none }) := by
  have harm : exec (.controlLaneRetrain up) s = execControlLaneRetrain up s := rfl
  rw [harm, execControlLaneRetrain, if_pos h]
/-- The orphan is rejoined under a new bridge key, before the notices of its ports go out. -/
def State.rejoined (s : State) : State :=
  (s.setRas { s.ras with orphan := false, ctrlUp := true, beatSince := none }).setSec { s.sec with bridgeKey := true }
theorem exec_orphanRejoin {s : State} (h : s.ras.orphan = true) (hbeat : s.ras.beatSince ≠ none) :
    ∃ t, exec .orphanRejoin s = .next t ∧ t.ras = s.rejoined.ras ∧ t.sec = s.rejoined.sec := by
  have harm : exec .orphanRejoin s = execOrphanRejoin s := rfl
  have hgo : (s.ras.orphan && s.ras.beatSince.isSome) = true := Bool.and_eq_true_iff.mpr ⟨h, Option.isSome_iff_ne_none.mpr hbeat⟩
  rw [harm, execOrphanRejoin, if_pos hgo]
  refine ⟨_, rfl, ?_⟩
  have hnotices := State.each_touch (m := 0x40000) (s := s.rejoined) (l := List.range 12)
    (g := fun u k => if axisDie (k / 4) = u.otherDie && (u.port k).st = .up && u.time.aligned && !u.drained k then u.notice k true else u)
    (fun u k hu => by split <;> [exact State.notice_touch (Sub.refl _) u k true hu; exact hu]) (.refl _ _)
  exact ⟨hnotices.ras rfl, hnotices.sec rfl⟩

/-! ## The memory lost with the data lanes (spec/14 R490) -/

theorem State.ifState_retired {s : State} {i : Nat} (h : s.nm.retired.getLsbD i = true) : 2 ≤ s.ifState i := by
  rw [State.ifState, h, if_pos rfl]
  split <;> omega
theorem Tbl.get_del_ne {α : Type} (d : α) (t : Tbl α) {k j : Nat} (h : j ≠ k) : Tbl.get d (t.del k) j = Tbl.get d t j := by
  unfold Tbl.get
  congr 1
  induction t with
  | nil => rfl
  | cons e r ih =>
    by_cases hk : e.1 = k
    · have hj : e.1 ≠ j := fun hj => h (hj.symm.trans hk)
      rw [show Tbl.find (e :: r) j = Tbl.find r j from if_neg hj, ← ih, Tbl.del, Tbl.del, List.filter_cons_of_neg (by simpa using hk)]
    · rw [Tbl.del, List.filter_cons_of_pos (by simpa using hk)]
      show (if e.1 = j then _ else _) = if e.1 = j then _ else _
      rw [← ih]
      rfl
theorem State.replanMoves_ifs (s : State) : s.replanMoves.nm.ifs = s.nm.ifs := by
  unfold State.replanMoves
  split
  · split <;> rfl
  · rfl
/-- What a forced retirement changes of the map's interfaces: the one that it retires. -/
theorem State.forceRetire_map {s : State} {i : Nat} (h : ¬ 2 ≤ s.ifState i) :
    (s.forceRetire i).nm.retired = setBit s.nm.retired i true ∧ ∀ j, j ≠ i → Tbl.get 0 (s.forceRetire i).nm.ifs j = Tbl.get 0 s.nm.ifs j := by
  unfold State.forceRetire
  rw [if_neg h]
  extract_lets begun d units hit who
  have h0 : (if begun then s else s.withdraw).nm.retired = s.nm.retired ∧ (if begun then s else s.withdraw).nm.ifs = s.nm.ifs := by
    split <;> exact ⟨rfl, rfl⟩
  clear_value who
  generalize (if begun then s else s.withdraw) = s0 at h0
  have h1 : (s0.remapAway i).1.nm.retired = s.nm.retired ∧ ∀ j, j ≠ i → Tbl.get 0 (s0.remapAway i).1.nm.ifs j = Tbl.get 0 s.nm.ifs j :=
    ⟨h0.1, fun j hj => by rw [← h0.2]; exact Tbl.get_put_ne 0 _ _ hj⟩
  generalize s0.remapAway i = r at h1
  obtain ⟨s1, moves⟩ := r
  dsimp -zeta only at h1 ⊢
  extract_lets s2 s3 s4
  have hlose : (s1.losePlaces (moves.map (fun (m : Nat × Nat × Nat) => m.1)) units).nm = s1.nm :=
    (State.losePlaces_touch (Sub.refl _) s1 _ units (.refl _ s1)).nm rfl
  have h2 : s2.nm = ((s1.losePlaces (moves.map (fun (m : Nat × Nat × Nat) => m.1)) units).recordRetired i).nm := State.raise_nm ..
  have h3 : s3.nm = s2.replanMoves.nm :=
    (State.each_touch (fun t p ht => State.lostMemory_memory_touch (Sub.refl _) t p 2 _ ht) (Touch.refl _ s2.replanMoves)).nm rfl
  have h4 : s4.nm = s3.nm := (State.each_touch (fun t p ht => State.setPart_touch (Sub.refl _) t p _ ht) (Touch.refl _ s3)).nm rfl
  rw [State.retireEvent_nm, h4, h3, State.replanMoves_retired, State.replanMoves_ifs, h2]
  constructor
  · show setBit (s1.losePlaces (moves.map (fun (m : Nat × Nat × Nat) => m.1)) units).nm.retired i true = _
    rw [hlose, h1.1]
  · intro j hj
    show Tbl.get 0 ((s1.losePlaces (moves.map (fun (m : Nat × Nat × Nat) => m.1)) units).nm.ifs.del i) j = _
    rw [Tbl.get_del_ne 0 _ hj, hlose, h1.2 j hj]
/-- A forced retirement brings no interface back, and takes its own out of service. -/
theorem State.forceRetire_ifState (s : State) {i j : Nat} (h : 2 ≤ s.ifState j ∨ (j = i ∧ i < 48)) : 2 ≤ (s.forceRetire i).ifState j := by
  by_cases hi : 2 ≤ s.ifState i
  · rw [State.forceRetire, if_pos hi]
    exact h.elim id fun hj => hj.1 ▸ hi
  · obtain ⟨hretired, hifs⟩ := State.forceRetire_map hi
    by_cases hj : j = i
    · refine State.ifState_retired ?_
      have hlt : i < 48 := h.elim (fun hs => absurd (hj ▸ hs) hi) And.right
      rw [hretired, getLsbD_setBit_true, hj, decide_eq_true hlt, decide_eq_true rfl, Bool.and_self, Bool.or_true]
    · have hs := h.resolve_right fun h => hj h.1
      have hvariant := (State.forceRetire_touch (Sub.refl _) s i (.refl _ s)).variant rfl
      have hbit : (setBit s.nm.retired i true).getLsbD j = s.nm.retired.getLsbD j := by
        rw [getLsbD_setBit_true, decide_eq_false (Ne.symm hj), Bool.and_false, Bool.or_false]
      rwa [State.ifState, State.ifFitted, hvariant, hretired, hbit, hifs j hj]

/-- A lost window leaves the near-memory map. -/
theorem State.loseWindow_nm (s : State) (port win : Nat) : (s.loseWindow port win).nm = s.nm := by
  have htouch : Touch 0x1441E3C14 s (s.loseWindow port win) := by
    unfold State.loseWindow
    extract_lets c
    split
    · exact .refl _ s
    · split
      · exact .refl _ s
      · refine State.unmapLost_touch (Sub.refl _ |>.of rfl) _ (State.each_touch (fun t p ht => State.lostMemory_memory_touch (Sub.refl _ |>.of rfl) t p 3 _ ht) ?_)
        exact State.cxlEvent_touch (Sub.refl _ |>.of rfl) _ _ _ _ (State.raise_touch (Sub.refl _ |>.of rfl) _ _ _ _ (State.setCxl_touch (Sub.refl _ |>.of rfl) _ _ _ (.refl _ s)))
  exact htouch.nm rfl
/-- Once its data lanes are lost, no interface of the orphan is in service. -/
theorem State.loseOrphanMemory_ifState (s : State) {die : Nat} (hdie : die < 2) : ∀ i < 24, 2 ≤ (s.loseOrphanMemory die).ifState (24 * die + i) := by
  intro i hi
  have hretire : ∀ j ∈ (List.range 24).map (fun i => 24 * die + i), j < 48 →
      2 ≤ (s.each ((List.range 24).map (fun i => 24 * die + i)) (fun s i => s.forceRetire i)).ifState j :=
    State.each_establishes (P := fun s j => j < 48 → 2 ≤ s.ifState j) (fun s j hj => s.forceRetire_ifState (.inr ⟨rfl, hj⟩))
      (fun s j k h hj => s.forceRetire_ifState (.inl (h hj))) _ s
  have hwindows : ∀ u : State, (u.each [0, 1, 2, 3] (fun s k => s.loseWindow die k)).ifState (24 * die + i) = u.ifState (24 * die + i) := fun u =>
    State.each_keeps (v := fun s => s.ifState (24 * die + i)) (fun t k => by
      rw [State.ifState, State.ifState, t.loseWindow_nm, State.ifFitted, State.ifFitted, (State.loseWindow_touch (Sub.refl _) t die k (.refl _ t)).variant rfl]) _ u
  rw [State.loseOrphanMemory]
  rw [hwindows]
  exact hretire _ (List.mem_map_of_mem (List.mem_range.mpr hi)) (by omega)

end Sys2Proof.Machine

open Sys2Proof Sys2Proof.Machine

/-- Settles O47: partitions with a group on the orphaned die are DEGRADED one by one, and none of it touches what the RAS page shows of the bridge; the rejoin's notices leave it. That the groups leave their grants at the loss, and that a lane group's report carries its total, is log 91's reading; that its third lost lane is reported by class alone, log 90's. -/
theorem diesSeparateAndRejoin : Obligations.DiesSeparateAndRejoin := by
  unfold Obligations.DiesSeparateAndRejoin
  refine fun s => ⟨fun h => ⟨_, exec_heartbeatLoss h, ?_⟩, fun h => ⟨exec_controlLaneRetrain h true, exec_controlLaneRetrain h false, fun hbeat => ?_, ?_⟩,
    fun g n => ⟨fun hn => ?_, fun hn hold => ?_⟩⟩
  · rw [State.ungrant_ras]
    obtain ⟨horphan, hctrl, horphans, hpending⟩ := s.orphaned_ras
    refine ⟨horphan, hctrl, horphans, hpending, fun p hp g hg hheld hthaw hgroup => ?_⟩
    have hmem : p ∈ s.holdersOn s.otherDie :=
      List.mem_filter.mpr ⟨List.mem_range.mpr hp, Bool.and_eq_true_iff.mpr ⟨bne_iff_ne.mpr hheld, List.any_eq_true.mpr ⟨g, hg, hgroup⟩⟩⟩
    exact State.each_ungrant_part hmem hg (State.orphaned_part hmem hheld hthaw).1
  · obtain ⟨t, ht, hras, hsec⟩ := exec_orphanRejoin h hbeat
    exact ⟨t, ht, by rw [hras]; rfl, by rw [hras]; rfl, by rw [hsec]; rfl⟩
  · have harm : exec .bridgeDataLaneLoss s = execBridgeDataLaneLoss s := rfl
    refine ⟨_, by rw [harm, execBridgeDataLaneLoss, if_pos h], s.loseOrphanMemory_ifState ?_⟩
    rw [State.otherDie]
    omega
  · have harm : exec (.bridgeLaneRetrain g n) s = execBridgeLaneRetrain g n s := rfl
    rw [harm, execBridgeLaneRetrain, if_neg]
    simpa [Nat.not_lt, Nat.not_le, or_iff_not_imp_left] using hn
  · have harm : exec (.bridgeLaneRetrain g n) s = execBridgeLaneRetrain g n s := rfl
    rw [harm, execBridgeLaneRetrain, if_pos (by simp [hn, hold])]
end

section
/-! SUPPORT. SALU: its operands, its integer functions over the integers, and the step on its head (spec/06 R164, R169, Table 6-6). -/

namespace Sys2Proof.Machine

/-- No pending write holds back an instruction whose registers, the last one only where it is no immediate, are ready (spec/06 R169). -/
theorem StreamSt.waitsFor_operands {y : StreamSt} {l : List Nat} {rb : Nat} {imm : Bool}
    (hready : ∀ r ∈ y.pend, r ∉ l ∧ (imm = true ∨ r ≠ rb)) : y.waitsFor (l ++ if imm then [] else [rb]) = false := by
  rw [StreamSt.waitsFor_eq_false]
  intro r hr
  obtain ⟨hl, hb⟩ := hready r hr
  rw [List.mem_append, not_or]
  refine ⟨hl, ?_⟩
  cases imm
  case true => exact List.not_mem_nil
  case false => simpa using hb

theorem bitsOf_zero_six (v : Nat) : bitsOf v 0 6 = v % 64 := by
  simp [bitsOf]
theorem shiftLeft_eq_ofNat (a : DWord) (n : Nat) : a <<< n = BitVec.ofNat 64 (a.toNat * 2 ^ n) := by
  apply BitVec.eq_of_toNat_eq
  simp [Nat.shiftLeft_eq]
theorem ushiftRight_eq_ofNat (a : DWord) (n : Nat) : a >>> n = BitVec.ofNat 64 (a.toNat / 2 ^ n) := by
  apply BitVec.eq_of_toNat_eq
  rw [BitVec.toNat_ushiftRight, BitVec.toNat_ofNat, Nat.shiftRight_eq_div_pow, Nat.mod_eq_of_lt]
  exact Nat.lt_of_le_of_lt (Nat.div_le_self ..) a.isLt
theorem sshiftRight_eq_ofInt (a : DWord) (n : Nat) : a.sshiftRight n = BitVec.ofInt 64 (a.toInt / 2 ^ n) := by
  rw [BitVec.sshiftRight, Int.shiftRight_eq_div_pow]
  simp

theorem sub_eq_ofInt (a b : DWord) : a - b = BitVec.ofInt 64 (a.toInt - b.toInt) := by
  apply BitVec.eq_of_toInt_eq
  rw [BitVec.toInt_sub, BitVec.toInt_ofInt]

/-- Each integer function of Table 6-6 is the model's operation on 64 bits. -/
theorem saluFn_of_saluInt {fn : Nat} {a b x : DWord} (h : Claims.saluInt fn a b = some x) : saluFn fn a b = x := by
  unfold Claims.saluInt at h
  split at h
  case h_14 => exact nomatch h
  all_goals rw [← Option.some.inj h]
  case h_1 => exact show a + b = _ by rw [BitVec.ofInt_add, BitVec.ofInt_toInt, BitVec.ofInt_toInt]
  case h_2 => exact show a - b = _ by rw [sub_eq_ofInt]
  case h_3 => exact show a * b = _ by rw [BitVec.ofInt_mul, BitVec.ofInt_toInt, BitVec.ofInt_toInt]
  case h_4 | h_5 | h_6 => rfl
  case h_7 => exact show a <<< bitsOf b.toNat 0 6 = _ by rw [bitsOf_zero_six, shiftLeft_eq_ofNat]
  case h_8 => exact show a >>> bitsOf b.toNat 0 6 = _ by rw [bitsOf_zero_six, ushiftRight_eq_ofNat]
  case h_9 => exact show a.sshiftRight (bitsOf b.toNat 0 6) = _ by rw [bitsOf_zero_six, sshiftRight_eq_ofInt]
  case h_10 => exact show ofBool64 (a.slt b) = _ by simp only [ofBool64, BitVec.slt, decide_eq_true_eq]
  case h_11 => exact show ofBool64 (a.ult b) = _ by simp only [ofBool64, BitVec.ult, decide_eq_true_eq]
  case h_12 => exact show (if a.slt b then a else b) = _ by simp only [BitVec.slt, decide_eq_true_eq]
  case h_13 => exact show (if a.slt b then b else a) = _ by simp only [BitVec.slt, decide_eq_true_eq]

/-- SALU with its operands ready writes RD and moves on. -/
theorem exec_salu {s : State} {f : Nat} {st : Stream} {w : IWord} (h : Claims.Head 0x01 s f st w)
    (hready : ∀ r, r ∈ (s.stream f st).pend → r ≠ fld w 119 115 ∧ r ≠ fld w 114 110 ∧ (flag w 104 = true ∨ r ≠ fld w 109 105)) :
    let y := s.stream f st
    let b := if flag w 104 then BitVec.ofNat 64 (fld w 63 0) else y.reg (fld w 109 105)
    exec (.salu f st) s = .next ((s.setStream f st (y.setReg (fld w 119 115) (saluFn (fld w 103 96) (y.reg (fld w 114 110)) b))).issue f st) := by
  have harm : exec (.salu f st) s = execSalu f st s := rfl
  have hwaits : (s.stream f st).waitsFor ([fld w 119 115, fld w 114 110] ++ if flag w 104 then [] else [fld w 109 105]) = false :=
    StreamSt.waitsFor_operands fun r hr => by
      obtain ⟨hd, ha, hb⟩ := hready r hr
      exact ⟨by simp [hd, ha], hb⟩
  simp only [harm, execSalu, State.inCycle_onHead h, hwaits, Bool.false_eq_true, if_false]

end Sys2Proof.Machine

open Sys2Proof Sys2Proof.Machine

/-- Settles O7: the write of RD leaves PC and so the fetch as they were, and each integer function is the operation on 64 bits that narrows it. -/
theorem saluResult : Obligations.SaluResult := by
  unfold Obligations.SaluResult
  intro f st w s h y rd b hready
  have hfetch : (s.setStream f st (y.setReg rd (saluFn (fld w 103 96) (y.reg (fld w 114 110)) b))).fetchWord f st = some w := by
    rw [State.setStream_fetchWord (StreamSt.setReg_pc ..), fetchWord_of_head h]
  refine ⟨_, saluFn (fld w 103 96) (y.reg (fld w 114 110)) b, exec_salu h hready,
    onlyStream_trans (State.setStream_onlyStream ..) (State.issueTo_onlyStream ..), ?_⟩
  rw [State.issue, State.issueTo_stream hfetch, State.setStream_stream]
  exact ⟨by rw [StreamSt.setReg_eq]; rfl, fun r => StreamSt.reg_setReg .., fun x hx => saluFn_of_saluInt hx, fun _ => rfl⟩
end

section
/-! SUPPORT. Scalar loads and stores: the bytes of a number, a value in flight, and a floe replaced in two steps (spec/06 R164 to R166). -/

namespace Sys2Proof.Machine

@[simp] theorem length_leBytes (n v : Nat) : (leBytes n v).length = n := by
  induction n generalizing v with
  | zero => rfl
  | succ n ih => rw [leBytes, List.length_cons, ih]
theorem takeFirst_append {α : Type} {g : α → Bool} {before after : List α} {a : α} (hbefore : ∀ e ∈ before, g e = false) (ha : g a = true) :
    takeFirst g (before ++ a :: after) = some (a, before ++ after) := by
  induction before with
  | nil => rw [List.nil_append, takeFirst, if_pos ha]; rfl
  | cons b l ih =>
    have hb : g b = false := hbefore b List.mem_cons_self
    rw [List.cons_append, takeFirst, if_neg (by simp [hb]), ih fun e he => hbefore e (List.mem_cons_of_mem _ he)]
    rfl

theorem onlyFloe_trans {f : Nat} {s t u : State} (hst : Claims.OnlyFloe f s t) (htu : Claims.OnlyFloe f t u) : Claims.OnlyFloe f s u := by
  obtain ⟨hdev, hothers⟩ := hst
  obtain ⟨hdev', hothers'⟩ := htu
  exact ⟨by rw [hdev', hdev], fun g hg => (hothers' g hg).trans (hothers g hg)⟩
/-- A run of bytes written into canonical memory reads back. -/
theorem State.poke_byte_getElem? {s : State} (hm : Memory.wf s.mem = true) {a i : Nat} {l : List Byte} (hi : i < l.length) :
    some ((s.poke a l).byte (a + i)) = l[i]? := by
  rw [State.poke_byte_in hm (Nat.le_add_right ..) (Nat.add_lt_add_left hi a), Nat.add_sub_cancel_left, List.getD_eq_getElem?_getD,
    List.getElem?_eq_getElem hi, Option.getD_some]
theorem State.issueTo_stream_fetch (s : State) (f : Nat) (st : Stream) (pc : DWord) :
    (s.issueTo f st pc).stream f st =
      { s.stream f st with pc := pc, issued := (s.stream f st).issued + 1, fetch := ((s.issueTo f st pc).stream f st).fetch } := by
  rw [State.issueTo, State.setStream_stream]; rfl
/-- Moving on to the next instruction leaves the stream as one issued. -/
theorem State.issue_stream (s : State) (f : Nat) (st : Stream) :
    (s.issue f st).stream f st = Claims.issued (s.stream f st) ((s.issue f st).stream f st).fetch := s.issueTo_stream_fetch ..
theorem State.writeMem_of_allGood {s : State} {errs : Errs} {a : Nat} (h : s.allGood errs a = true) (hlost : s.lostAt a = false) (who : Option Nat)
    (l : List Byte) : s.writeMem who errs a l = (s.poke a l, true) := by
  rw [State.writeMem, h, hlost]; rfl

/-- The device once SLD's value is in flight to a register that waits. -/
def State.putInFlight (s : State) (f : Nat) (st : Stream) (rd : Nat) (v : DWord) : State :=
  (s.setFloe f { s.floe f with slds := (s.floe f).slds ++ [{ stream := st, rd := rd, value := v }] }).setStream f st ((s.stream f st).addPend rd)
theorem State.putInFlight_onlyFloe (s : State) (f : Nat) (st : Stream) (rd : Nat) (v : DWord) : Claims.OnlyFloe f s (s.putInFlight f st rd v) :=
  onlyFloe_trans (State.setFloe_onlyFloe ..) (State.setStream_onlyStream ..).1
theorem State.putInFlight_floe (s : State) (f : Nat) (st : Stream) (rd : Nat) (v : DWord) :
    (s.putInFlight f st rd v).floe f =
      ({ s.floe f with slds := (s.floe f).slds ++ [{ stream := st, rd := rd, value := v }] } : Floe).setStream st ((s.stream f st).addPend rd) := by
  rw [State.putInFlight, State.setStream, State.floe_setFloe, State.floe_setFloe]
theorem StreamSt.addPend_eq (y : StreamSt) (r : Nat) : y.addPend r = { y with pend := if r = 0 then y.pend else r :: y.pend } := by
  unfold StreamSt.addPend
  split <;> rfl

section
variable {s : State} {f : Nat} {st : Stream} {w : IWord} {errs : Errs}

theorem waitsFor_pair {y : StreamSt} {a b : Nat} (hready : ∀ r, r ∈ y.pend → r ≠ a ∧ r ≠ b) : y.waitsFor [a, b] = false := by
  rw [StreamSt.waitsFor_eq_false]
  intro r hr
  simpa using hready r hr
/-- SLD whose access is allowed and not held notes what it meets and puts its value in flight (spec/06 R166). -/
theorem exec_sld (h : Claims.Head 0x04 s f st w) (hready : ∀ r, r ∈ (s.stream f st).pend → r ≠ fld w 119 115 ∧ r ≠ fld w 114 110)
    (hfault : s.scalarFault f (ldstAddr (s.stream f st) w) (2 ^ fld w 109 108) false = none)
    (hheld : s.memHeld (ldstAddr (s.stream f st) w) (2 ^ fld w 109 108) = false) :
    let a := ldstAddr (s.stream f st) w
    let n := 2 ^ fld w 109 108
    let v := ofLe (s.fill errs a n)
    let s1 := s.noteRange (some f) errs a n
    exec (.sld f st errs) s = .next ((s1.putInFlight f st (fld w 119 115)
      (if flag w 107 then BitVec.signExtend 64 (BitVec.ofNat (8 * n) v) else BitVec.ofNat 64 v)).issue f st) := by
  have harm : exec (.sld f st errs) s = execSld f st errs s := rfl
  simp only [harm, execSld, State.inCycle_onHead h, waitsFor_pair hready, hfault, hheld, Bool.false_eq_true, if_false, State.readMem]
  rfl
/-- SST whose access is allowed and not held writes RS's low bytes. -/
theorem exec_sst (h : Claims.Head 0x05 s f st w) (hready : ∀ r, r ∈ (s.stream f st).pend → r ≠ fld w 119 115 ∧ r ≠ fld w 114 110)
    (hfault : s.scalarFault f (ldstAddr (s.stream f st) w) (2 ^ fld w 109 108) true = none)
    (hheld : s.memHeld (ldstAddr (s.stream f st) w) (2 ^ fld w 109 108) = false) :
    exec (.sst f st errs) s = .next ((s.writeMem (some f) errs (ldstAddr (s.stream f st) w)
      (leBytes (2 ^ fld w 109 108) ((s.stream f st).reg (fld w 119 115)).toNat)).1.issue f st) := by
  have harm : exec (.sst f st errs) s = execSst f st errs s := rfl
  simp only [harm, execSst, State.inCycle_onHead h, waitsFor_pair hready, hfault, hheld, Bool.false_eq_true, if_false]
end

end Sys2Proof.Machine

open Sys2Proof Sys2Proof.Machine

/-- Settles O9: a load puts its value in flight on the floe that noting the read left, its return takes the oldest value of the register, and a store moves on from what its write left; over good storage that write is the run of its bytes. -/
theorem scalarLoadsAndStores : Obligations.ScalarLoadsAndStores := by
  unfold Obligations.ScalarLoadsAndStores
  refine ⟨⟨fun f st errs w s h => ?_, fun f st rd s before after o hslds hst hrd hbefore => ?_⟩, fun f st errs w s h => ?_⟩
  · intro rd a n v x hready hfault hheld s1
    refine ⟨_, exec_sld h hready hfault hheld, onlyFloe_trans (State.putInFlight_onlyFloe ..) (State.issueTo_onlyStream ..).1, ?_⟩
    obtain ⟨-, hfloe⟩ := State.issueTo_onlyStream (s1.putInFlight f st rd x) f st (((s1.putInFlight f st rd x).stream f st).pc + 16)
    have hstream : (s1.putInFlight f st rd x).stream f st = (s1.stream f st).addPend rd := State.setStream_stream ..
    rw [← State.issue] at hfloe
    refine hfloe.trans ?_
    rw [State.issue_stream, hstream, State.putInFlight_floe, Floe.setStream_setStream, StreamSt.addPend_eq]
    rfl
  · have harm : exec (.sldReturn f st rd) s = execSldReturn f st rd s := rfl
    have htake := takeFirst_append (g := fun o => o.stream == st && o.rd == rd) (before := before) (after := after) (a := o)
      (fun e he => by simpa using hbefore e he) (by simp [hst, hrd])
    rw [harm, execSldReturn]
    dsimp only
    rw [hslds, htake]
    refine ⟨_, rfl, onlyFloe_trans (State.setFloe_onlyFloe ..) (State.setStream_onlyStream ..).1, ?_, ?_, fun r => ?_⟩
    · rw [State.setStream_stream, State.setStream, State.floe_setFloe, State.floe_setFloe]
    · rw [State.setStream_stream, StreamSt.setReg_eq]; rfl
    · rw [State.setStream_stream]; exact StreamSt.reg_setReg ..
  · intro y a n l hready hfault hheld s1
    refine ⟨_, exec_sst h hready hfault hheld, State.issueTo_onlyStream .., State.issue_stream .., fun hgood hlost hwf => ?_⟩
    rw [State.writeMem_of_allGood hgood hlost]
    refine ⟨rfl, State.issue_stream .., (State.issueTo_onlyStream (s.poke a l) ..).1, fun i hi => ?_, fun b hb => ?_⟩
    · exact State.poke_byte_getElem? hwf (by rw [length_leBytes]; exact hi)
    · exact State.poke_byte_other hwf (by rw [length_leBytes]; exact hb)
end

section
/-! SUPPORT. Tags awaited and signalled (spec/06 R181 to R183). -/

namespace Sys2Proof.Machine

theorem Floe.tag_setTag (x : Floe) (t : Nat) (c : TagCount) (k : Nat) : (x.setTag t c).tag k = if k = t then c else x.tag k := by
  rw [Floe.setTag, Floe.tag, Tbl.get_put]; rfl
theorem State.signal_onlyFloe (s : State) (f t : Nat) (n : Half) : Claims.OnlyFloe f s (s.signal f t n) := s.setFloe_onlyFloe ..
/-- A signal changes the tags of its floe. -/
theorem State.signal_floe (s : State) (f t : Nat) (n : Half) :
    (s.signal f t n).floe f = (s.floe f).setTag t { (s.floe f).tag t with seq := ((s.floe f).tag t).seq + n } := by
  rw [State.signal, State.floe_setFloe]
/-- A signal adds to the count of its tag and of no other. -/
theorem State.signal_tag (s : State) (f t : Nat) (n : Half) (k : Nat) :
    ((s.signal f t n).floe f).tag k = if k = t then { (s.floe f).tag t with seq := ((s.floe f).tag t).seq + n } else (s.floe f).tag k := by
  rw [State.signal_floe, Floe.tag_setTag]
theorem Floe.setTag_stream (x : Floe) (t : Nat) (c : TagCount) (st : Stream) : (x.setTag t c).stream st = x.stream st := by cases st <;> rfl
theorem State.signal_stream (s : State) (f t : Nat) (n : Half) (st : Stream) : (s.signal f t n).stream f st = s.stream f st := by
  rw [State.stream, State.signal_floe, Floe.setTag_stream]; rfl
theorem Floe.setTag_pcOk (x : Floe) (t : Nat) (c : TagCount) (st : Stream) : (x.setTag t c).pcOk st = x.pcOk st := by
  rw [Floe.pcOk, Floe.setTag_stream]; rfl
/-- A signal leaves what a stream fetches. -/
theorem State.signal_fetchWord (s : State) (f t : Nat) (n : Half) (st : Stream) : (s.signal f t n).fetchWord f st = s.fetchWord f st := by
  have haddr : (s.signal f t n).headAddr f st = s.headAddr f st := by rw [State.headAddr, State.signal_stream]; rfl
  have hpcOk : ((s.signal f t n).floe f).pcOk st = (s.floe f).pcOk st := by rw [State.signal_floe, Floe.setTag_pcOk]
  rw [State.fetchWord, State.fetchWord, haddr, hpcOk]
  rfl
theorem Floe.setStream_tags (x : Floe) (st : Stream) (y : StreamSt) : (x.setStream st y).tags = x.tags := by cases st <;> rfl
theorem Floe.setStream_tag (x : Floe) (st : Stream) (y : StreamSt) (k : Nat) : (x.setStream st y).tag k = x.tag k := by
  rw [Floe.tag, Floe.setStream_tags]; rfl
/-- The conditions that a wait selects (spec/06 R181). -/
theorem waitHolds_iff {v : Waiting} {c : TagCount} :
    waitHolds v c = true ↔ (v.ww = true → c.wr = 0) ∧ (v.wr = true → c.rd = 0) ∧ (v.ws = true → (c.seq - v.target).toNat < 2 ^ 15) := by
  cases hww : v.ww <;> cases hwr : v.wr <;> cases hws : v.ws <;> simp [waitHolds, hww, hwr, hws, and_assoc]
theorem ofNat_regLow (y : StreamSt) (r : Nat) : (BitVec.ofNat 16 (y.regLow 16 r) : Half) = BitVec.truncate 16 (y.reg r) := by
  apply BitVec.eq_of_toNat_eq
  simp [StreamSt.regLow, bitsOf]

theorem State.setStream_issue_stream (s : State) (f : Nat) (st : Stream) (y : StreamSt) :
    ((s.setStream f st y).issue f st).stream f st = Claims.issued y (((s.setStream f st y).issue f st).stream f st).fetch :=
  (State.issue_stream ..).trans (by rw [State.setStream_stream])

section
variable {s : State} {f : Nat} {st : Stream} {w : IWord}

theorem exec_tagWait (h : Claims.Head 0x50 s f st w) (hready : flag w 109 = true → fld w 108 104 ∉ (s.stream f st).pend)
    (hcommit : s.commitHolds f [fld w 119 112] = false) :
    let y := s.stream f st
    let v : Waiting :=
      { tag := fld w 119 112, ww := flag w 111, wr := flag w 110, ws := flag w 109, target := BitVec.truncate 16 (y.reg (fld w 108 104)) }
    exec (.tagWait f st) s = .next (s.setStream f st { y with wait := some v }) := by
  have harm : exec (.tagWait f st) s = execTagWait f st s := rfl
  have hwaits : (flag w 109 && (s.stream f st).waitsFor [fld w 108 104]) = false := by
    rw [Bool.and_eq_false_imp]
    intro hs
    rw [StreamSt.waitsFor_eq_false]
    intro r hr hmem
    exact hready hs (List.mem_singleton.mp hmem ▸ hr)
  simp only [harm, execTagWait, State.inCycle_onHead h, hwaits, hcommit, Bool.or_false, Bool.false_eq_true, if_false, ofNat_regLow]
/-- A wait that its tag fulfils ends, and then the stream issues it. -/
theorem exec_tagWaitComplete {v : Waiting} (hwait : (s.stream f st).wait = some v) (hrun : (s.stream f st).st = .running)
    (hheld : (s.floe f).held = true → (s.floe f).holdsBank st = true) :
    exec (.tagWaitComplete f st) s = .next (if waitHolds v ((s.floe f).tag v.tag) then (s.setStream f st { s.stream f st with wait := none }).issue f st else s) := by
  have harm : exec (.tagWaitComplete f st) s = execTagWaitComplete f st s := rfl
  have hfree : (!(s.floe f).held || (s.floe f).holdsBank st) = true := by
    cases hh : (s.floe f).held
    case false => rfl
    case true => exact hheld hh
  rw [harm, execTagWaitComplete]
  simp only [hwait, hrun, hfree, beq_self_eq_true, Bool.true_and, Bool.and_true]
  split <;> rfl
/-- TAG.SIGNAL that nothing holds acts here, or sends its addition to a floe of its own partition. -/
theorem exec_tagSignal (h : Claims.Head 0x51 s f st w) (hfence : flag w 110 = true → s.streamDone f st = true)
    (hcommit : s.commitHolds (if flag w 111 then fld w 103 96 else f) [fld w 119 112] = false) :
    let n : Half := BitVec.ofNat 16 (fld w 95 80)
    let d := fld w 103 96
    (flag w 111 = false → exec (.tagSignal f st) s = .next ((s.signal f (fld w 119 112) n).issue f st))
    ∧ (flag w 111 = true → (s.floePart d).isSome = true → s.floePart d = s.floePart f → exec (.tagSignal f st) s =
        .next (({ s with signals := s.signals ++ [{ src := f, stream := st, dst := d, tag := fld w 119 112, amount := n }] } : State).issue f st)) := by
  have harm : exec (.tagSignal f st) s = execTagSignal f st s := rfl
  have hgo : (flag w 110 && !s.streamDone f st) = false := by
    rw [Bool.and_eq_false_imp]
    intro hf
    rw [hfence hf]; rfl
  rw [harm, execTagSignal]
  simp only [State.inCycle_onHead h, hgo, hcommit, Bool.or_false, Bool.false_eq_true, if_false]
  refine ⟨fun hhere => by simp [hhere], fun hremote hsome hsame => ?_⟩
  have hnone : (s.floePart (fld w 103 96)).isNone = false := by rw [← Option.not_isSome, hsome]; rfl
  rw [if_neg (by simp [hremote]), hnone, hsame, bne_self_eq_false, Bool.or_false, if_neg Bool.false_ne_true]
end

end Sys2Proof.Machine

open Sys2Proof Sys2Proof.Machine

/-- Settles O13: waits and signals act on the stream and the tags alone, the oldest signal of a pair first. That a TAG.WAIT counts as issued when it completes is log 75's choice. -/
theorem tagsWaitAndSignal : Obligations.TagsWaitAndSignal := by
  unfold Obligations.TagsWaitAndSignal
  refine ⟨fun f st s => ⟨fun w h hready hcommit => ?_, fun v hwait hrun hheld => ⟨fun hall => ?_, fun hsome => ?_⟩⟩,
    fun f st s => ⟨fun w h hfence hcommit => ⟨fun hhere => ?_, fun hremote hpart hsame => ?_⟩, fun dst before after g hsignals hsrc hst hdst hbefore => ?_⟩⟩
  · exact ⟨_, exec_tagWait h hready hcommit, State.setStream_onlyStream .., State.setStream_stream ..⟩
  · rw [exec_tagWaitComplete hwait hrun hheld, if_pos (waitHolds_iff.mpr hall)]
    refine ⟨_, rfl, onlyStream_trans (State.setStream_onlyStream ..) (State.issueTo_onlyStream ..), ?_⟩
    exact State.setStream_issue_stream ..
  · rw [exec_tagWaitComplete hwait hrun hheld, if_neg]
    rw [waitHolds_iff]
    rintro ⟨hw, hr, hs⟩
    rcases hsome with ⟨hww, hne⟩ | ⟨hwr, hne⟩ | ⟨hws, hle⟩
    · exact hne (hw hww)
    · exact hne (hr hwr)
    · exact absurd (hs hws) (Nat.not_lt.mpr hle)
  · obtain ⟨hother, hfloe⟩ := State.issueTo_onlyStream (s.signal f (fld w 119 112) (BitVec.ofNat 16 (fld w 95 80))) f st
      (((s.signal f (fld w 119 112) (BitVec.ofNat 16 (fld w 95 80))).stream f st).pc + 16)
    have hword := (State.signal_fetchWord s f (fld w 119 112) (BitVec.ofNat 16 (fld w 95 80)) st).trans (fetchWord_of_head h)
    refine ⟨_, (exec_tagSignal h hfence hcommit).1 hhere, onlyFloe_trans (State.signal_onlyFloe ..) hother, ?_, ?_, fun k => ?_⟩
    · rw [State.issue, State.issueTo_stream hword, State.signal_stream]; rfl
    · have htags : (((s.signal f (fld w 119 112) (BitVec.ofNat 16 (fld w 95 80))).issue f st).floe f).tags =
          ((s.signal f (fld w 119 112) (BitVec.ofNat 16 (fld w 95 80))).floe f).tags := by rw [State.issue, hfloe, Floe.setStream_tags]
      rw [htags, State.signal_floe]
      exact hfloe.trans (by rw [State.signal_floe]; rfl)
    · rw [State.issue, hfloe, Floe.setStream_tag, State.signal_tag]
      split
      · next hk => rw [hk]
      · rfl
  · have hword : ({ s with signals := s.signals ++ [{ src := f, stream := st, dst := fld w 103 96, tag := fld w 119 112, amount := BitVec.ofNat 16 (fld w 95 80) }] } : State).fetchWord f st = some w :=
      fetchWord_of_head h
    exact ⟨_, (exec_tagSignal h hfence hcommit).2 hremote hpart hsame, State.issueTo_onlyStream .., State.issueTo_stream hword _⟩
  · have harm : exec (.remoteSignal f st dst) s = execRemoteSignal f st dst s := rfl
    have htake := takeFirst_append (g := fun g => g.src == f && g.stream == st && g.dst == dst) (before := before) (after := after) (a := g)
      (fun e he => by simpa [and_assoc] using hbefore e he) (by simp [hsrc, hst, hdst])
    rw [harm, execRemoteSignal, hsignals, htake]
    refine ⟨_, rfl, State.signal_onlyFloe .., by rw [State.signal_floe]; rfl, fun k => ?_⟩
    rw [State.signal_tag]
    split
    · next hk => rw [hk]; rfl
    · rfl
end

section
/-! SUPPORT. What a unit's acceptance is: the grant that ends in it, and what each unit does of an accepted head (spec/06 R159, R169, R177, R187 to R190). -/

namespace Sys2Proof.Machine

/-! ## Parts of a floe -/

theorem Floe.addReaders_eq (x : Floe) (l : List Nat) : x.addReaders l = { x with tags := (x.addReaders l).tags } := by
  induction l generalizing x with
  | nil => rfl
  | cons t r ih => exact ih _
theorem Floe.addWriters_eq (x : Floe) (l : List Nat) : x.addWriters l = { x with tags := (x.addWriters l).tags } := by
  induction l generalizing x with
  | nil => rfl
  | cons t r ih => exact ih _
/-- Taking tags changes nothing but the tags. -/
theorem Floe.take_eq (x : Floe) (reads writes : List Nat) : x.take reads writes = { x with tags := (x.take reads writes).tags } := by
  rw [Floe.take, Floe.addWriters_eq, Floe.addReaders_eq]
theorem Floe.addReaders_tags_congr {x y : Floe} (h : y.tags = x.tags) (l : List Nat) : (y.addReaders l).tags = (x.addReaders l).tags := by
  induction l generalizing x y with
  | nil => exact h
  | cons t r ih => exact ih (by simp only [Floe.setTag, Floe.tag, h])
theorem Floe.addWriters_tags_congr {x y : Floe} (h : y.tags = x.tags) (l : List Nat) : (y.addWriters l).tags = (x.addWriters l).tags := by
  induction l generalizing x y with
  | nil => exact h
  | cons t r ih => exact ih (by simp only [Floe.setTag, Floe.tag, h])
theorem Floe.take_tags_congr {x y : Floe} (h : y.tags = x.tags) (reads writes : List Nat) : (y.take reads writes).tags = (x.take reads writes).tags :=
  Floe.addWriters_tags_congr (Floe.addReaders_tags_congr h _) _
theorem Floe.take_stream (x : Floe) (reads writes : List Nat) (st : Stream) : (x.take reads writes).stream st = x.stream st := by
  rw [Floe.take_eq]
  cases st <;> rfl
/-- A stream replaced is one of three fields replaced. -/
theorem Floe.setStream_fields (x : Floe) (st : Stream) (y : StreamSt) : ∃ a b c, x.setStream st y = { x with fwd := a, bwd := b, upd := c } := by
  cases st <;> exact ⟨_, _, _, rfl⟩

/-! ## The grant (spec/06 R171, R187 to R190) -/

section
variable {f unit : Nat} {st : Stream} {arb : Arb} {tags : List Nat} {s s1 : State} {x : Floe} {w : IWord}

/-- A granted head that meets no fault is accepted on the floe with the grant's counters. -/
theorem grant_of_granted (h : Claims.Granted f unit st arb tags s s1 x) {fault : State → Option Nat} (hfault : fault s1 = none) (accept : State → State) :
    s.grant f unit st arb tags fault accept = accept (s1.setFloe f x) := by
  obtain ⟨hreads, weights, harb, rfl⟩ := h
  simp only [State.grant, harb, ← hreads, hfault]
theorem granted_stream (h : Claims.Granted f unit st arb tags s s1 x) (u : Stream) : x.stream u = s1.stream f u := by
  obtain ⟨-, weights, -, rfl⟩ := h
  cases u <;> rfl
/-- The grant leaves the descriptors. -/
theorem granted_desc (h : Claims.Granted f unit st arb tags s s1 x) (t : Nat) : (s1.setFloe f x).desc f t = s1.desc f t := by
  obtain ⟨-, weights, -, rfl⟩ := h
  have haddr : (s1.setFloe f { s1.floe f with weights := weights }).descAddr f t = s1.descAddr f t := by
    rw [State.descAddr, State.floe_setFloe]; rfl
  rw [State.desc, State.desc, State.descBytes, State.descBytes, haddr]
  rfl
/-- An accepted head whose floe is replaced and which then moves on. -/
theorem accepts_issue (s : State) (f : Nat) (st : Stream) (x y : Floe) :
    Claims.Accepts f st s (((s.setFloe f x).setFloe f y).issue f st) y := by
  obtain ⟨hother, hfloe⟩ := State.issueTo_onlyStream ((s.setFloe f x).setFloe f y) f st ((((s.setFloe f x).setFloe f y).stream f st).pc + 16)
  refine ⟨onlyFloe_trans (onlyFloe_trans (State.setFloe_onlyFloe ..) (State.setFloe_onlyFloe ..)) hother, ?_⟩
  rw [State.floe_setFloe] at hfloe
  refine hfloe.trans ?_
  rw [← State.issue, State.issue_stream, State.stream, State.floe_setFloe]
  rfl
/-- A step for instructions that satisfy a test at a head of one runs its effect on the head's word. -/
theorem State.inCycle_onHead_of {op : Nat} {ok : IWord → Bool} (h : Claims.Head op s f st w) (hok : ok w = true) (g : State → IWord → State) :
    s.inCycle f st (fun s => s.onHead f st ok (g s)) = g s w := by
  obtain ⟨hword, hop, henc⟩ := h
  have hrun : (s.stream f st).st = .running := Floe.running_of_atHead (State.headWord_eq_some.mp hword).1
  simp [State.inCycle, hrun, State.onHead, hword, hok, henc]
end

/-! ## Descriptor reads and the floe -/

theorem State.noteRange_marksFloes (s : State) (who : Option Nat) (errs : Errs) (a n : Nat) : MarksFloes s (s.noteRange who errs a n) := by
  unfold State.noteRange
  exact .ite (.refl s) (MarksFloes.each (fun s b => s.noteUnit_marksFloes ..) _ _)
theorem State.readDescs_marksFloes (s : State) (f : Nat) (errs : Errs) (tags : List Nat) : MarksFloes s (s.readDescs f errs tags) := by
  unfold State.readDescs
  exact .ite (.refl s) (.after (MarksFloes.each (fun s t => s.noteRange_marksFloes ..) _ _) (.of_floes rfl))

/-! ## The array accepts an MMA (spec/03 R83, R87, R88) -/

theorem Floe.bank_setBank (x : Floe) (b : Nat) (y : Bank) : (x.setBank b y).bank b = y := by
  by_cases h : b = 0
  · simp [Floe.bank, Floe.setBank, h]
  · simp [Floe.bank, Floe.setBank, h]
theorem Floe.bank_setBank_other (x : Floe) (b : Nat) (y : Bank) : (x.setBank b y).bank (1 - b) = x.bank (1 - b) := by
  by_cases h : b = 0
  · simp [Floe.bank, Floe.setBank, h]
  · simp [Floe.bank, Floe.setBank, h, Nat.sub_eq_zero_of_le (Nat.one_le_iff_ne_zero.mpr h)]
theorem Floe.setBank_fields (x : Floe) (b : Nat) (y : Bank) : ∃ p q, x.setBank b y = { x with bank0 := p, bank1 := q } := by
  unfold Floe.setBank
  split
  · exact ⟨_, _, rfl⟩
  · exact ⟨_, _, rfl⟩

/-- The floe whose array takes an MMA. -/
def Floe.takeMma (x : Floe) (st : Stream) (w : IWord) (m0 n0 k0 : Nat) : Floe :=
  (x.take (mmaReads w) (mmaWrites w)).setBank (mmaBank w)
    { x.bank (mmaBank w) with st := .opened, owner := st, m0 := m0, n0 := n0, mb := mmaMb w, nb := mmaNb w, kEnd := k0 + mmaKn w }
/-- The floe whose array has read the operands of an MMA. -/
def Floe.readMma (x : Floe) (w : IWord) : Floe :=
  let y := x.endReaders (readersOf (mmaReads w) (mmaWrites w))
  if mmaDrain w then y.setBank (mmaBank w) { y.bank (mmaBank w) with st := .draining } else y

/-- What taking an MMA leaves of the floe. -/
theorem Floe.takeMma_keeps (x : Floe) (st : Stream) (w : IWord) (m0 n0 k0 : Nat) :
    ∃ p q, x.takeMma st w m0 n0 k0 = { x with tags := (x.take (mmaReads w) (mmaWrites w)).tags, bank0 := p, bank1 := q } := by
  obtain ⟨p, q, h⟩ := Floe.setBank_fields (x.take (mmaReads w) (mmaWrites w)) (mmaBank w)
    { x.bank (mmaBank w) with st := .opened, owner := st, m0 := m0, n0 := n0, mb := mmaMb w, nb := mmaNb w, kEnd := k0 + mmaKn w }
  exact ⟨p, q, h.trans (by rw [Floe.take_eq])⟩
/-- What reading an MMA's operands leaves of the floe. -/
theorem Floe.readMma_keeps (x : Floe) (w : IWord) :
    ∃ p q, x.readMma w = { x with tags := (x.endReaders (readersOf (mmaReads w) (mmaWrites w))).tags, bank0 := p, bank1 := q } := by
  unfold Floe.readMma
  split
  · obtain ⟨p, q, h⟩ := Floe.setBank_fields (x.endReaders (readersOf (mmaReads w) (mmaWrites w))) (mmaBank w)
      { (x.endReaders (readersOf (mmaReads w) (mmaWrites w))).bank (mmaBank w) with st := .draining }
    exact ⟨p, q, h.trans (by rw [Floe.endReaders_eq])⟩
  · exact ⟨x.bank0, x.bank1, Floe.endReaders_eq ..⟩
theorem Floe.endReaders_bank (x : Floe) (l : List Nat) (b : Nat) : (x.endReaders l).bank b = x.bank b := by
  rw [Floe.endReaders_eq]; rfl
theorem Floe.readMma_bank (x : Floe) (w : IWord) :
    (x.readMma w).bank (mmaBank w) = { x.bank (mmaBank w) with st := if mmaDrain w then .draining else (x.bank (mmaBank w)).st } := by
  unfold Floe.readMma
  split
  · rw [Floe.bank_setBank, Floe.endReaders_bank]
  · exact Floe.endReaders_bank ..
theorem Floe.readMma_bank_other (x : Floe) (w : IWord) : (x.readMma w).bank (1 - mmaBank w) = x.bank (1 - mmaBank w) := by
  unfold Floe.readMma
  split
  · rw [Floe.bank_setBank_other, Floe.endReaders_bank]
  · exact Floe.endReaders_bank ..

/-- An MMA whose k-units are all skipped reads nothing. -/
theorem State.mmaRead_of_skipped {s : State} {o : MmaOp} (h : (mmaUnits o).all (fun q => s.skips o q) = true) (f : Nat) (errs : Errs) :
    ∃ blocks contrib skipped, s.mmaRead f errs o = (s.setFloe f ((s.floe f).readMma o.w),
      { o with readDone := true, blocks := blocks, contrib := contrib, kRun := 0, kSkipped := mmaKn o.w, bSkipped := skipped }) := by
  have hrun : s.runUnits o = [] := by
    rw [State.runUnits, List.filter_eq_nil_iff]
    intro q hq
    simpa using List.all_eq_true.mp h q hq
  have hranges : s.mmaRanges o = [] := by rw [State.mmaRanges, hrun]; rfl
  exact ⟨_, _, _, by rw [State.mmaRead, hranges, hrun]; rfl⟩

/-- The floe on which an MMA is accepted: its stream moved on, its operands already read where all its k-units are skipped, and the MMA among those in the array. -/
def Floe.acceptMma (x : Floe) (st : Stream) (y : StreamSt) (o : MmaOp) : Floe :=
  let z := (x.takeMma st o.w o.m0 o.n0 o.k0).setStream st y
  { if o.readDone then z.readMma o.w else z with mmas := x.mmas ++ [o] }

theorem Floe.takeMma_stream (x : Floe) (st : Stream) (w : IWord) (m0 n0 k0 : Nat) (u : Stream) : (x.takeMma st w m0 n0 k0).stream u = x.stream u := by
  obtain ⟨p, q, h⟩ := x.takeMma_keeps st w m0 n0 k0
  rw [h]
  cases u <;> rfl
theorem Floe.readMma_stream (x : Floe) (w : IWord) (u : Stream) : (x.readMma w).stream u = x.stream u := by
  obtain ⟨p, q, h⟩ := x.readMma_keeps w
  rw [h]
  cases u <;> rfl
theorem Floe.readMma_mmas (x : Floe) (w : IWord) : (x.readMma w).mmas = x.mmas := by
  obtain ⟨p, q, h⟩ := x.readMma_keeps w
  rw [h]
theorem Floe.setStream_mmas (x : Floe) (st : Stream) (y : StreamSt) : (x.setStream st y).mmas = x.mmas := by cases st <;> rfl
theorem Floe.takeMma_mmas (x : Floe) (st : Stream) (w : IWord) (m0 n0 k0 : Nat) : (x.takeMma st w m0 n0 k0).mmas = x.mmas := by
  obtain ⟨p, q, h⟩ := x.takeMma_keeps st w m0 n0 k0
  rw [h]

theorem State.mmaAccept_floe (s : State) (f : Nat) (st : Stream) (w : IWord) (m0 n0 k0 : Nat) (a b : Desc) :
    ∃ o fetch, Claims.OnlyFloe f s (s.mmaAccept f st w m0 n0 k0 a b)
      ∧ (s.mmaAccept f st w m0 n0 k0 a b).floe f = (s.floe f).acceptMma st (Claims.issued (s.stream f st) fetch) o
      ∧ o.stream = st ∧ o.w = w ∧ o.m0 = m0 ∧ o.n0 = n0 ∧ o.k0 = k0 ∧ o.dA = a ∧ o.dB = b ∧ (o.readDone = true → o.kRun = 0 ∧ o.kSkipped = mmaKn w) := by
  let o : MmaOp := { stream := st, w := w, m0 := m0, n0 := n0, k0 := k0, dA := a, dB := b }
  let s1 := (s.setFloe f ((s.floe f).takeMma st w m0 n0 k0)).issue f st
  have hissue : Claims.OnlyFloe f s s1 := onlyFloe_trans (State.setFloe_onlyFloe ..) (State.issueTo_onlyStream ..).1
  have hfloe : s1.floe f = ((s.floe f).takeMma st w m0 n0 k0).setStream st (Claims.issued (s.stream f st) (s1.stream f st).fetch) := by
    obtain ⟨-, hstream⟩ := State.issueTo_onlyStream (s.setFloe f ((s.floe f).takeMma st w m0 n0 k0)) f st
      (((s.setFloe f ((s.floe f).takeMma st w m0 n0 k0)).stream f st).pc + 16)
    have hst : s1.stream f st = Claims.issued (s.stream f st) (s1.stream f st).fetch := by
      refine (State.issue_stream ..).trans ?_
      rw [State.stream, State.floe_setFloe, Floe.takeMma_stream]; rfl
    rw [State.floe_setFloe] at hstream
    exact hstream.trans (congrArg _ hst)
  have haccept : s.mmaAccept f st w m0 n0 k0 a b =
      let r := if (mmaUnits o).all (fun q => s1.skips o q) then s1.mmaRead f [] o else (s1, o)
      r.1.setFloe f { r.1.floe f with mmas := (r.1.floe f).mmas ++ [r.2] } := rfl
  by_cases hall : (mmaUnits o).all (fun q => s1.skips o q) = true
  · obtain ⟨blocks, contrib, skipped, hread⟩ := State.mmaRead_of_skipped hall f []
    refine ⟨{ o with readDone := true, blocks := blocks, contrib := contrib, kRun := 0, kSkipped := mmaKn w, bSkipped := skipped },
      (s1.stream f st).fetch, ?_, ?_, rfl, rfl, rfl, rfl, rfl, rfl, rfl, fun _ => ⟨rfl, rfl⟩⟩
    all_goals rw [haccept, if_pos hall, hread]
    · exact onlyFloe_trans hissue (onlyFloe_trans (State.setFloe_onlyFloe ..) (State.setFloe_onlyFloe ..))
    · dsimp only
      rw [State.floe_setFloe, State.floe_setFloe, hfloe, Floe.readMma_mmas, Floe.setStream_mmas, Floe.takeMma_mmas]
      rfl
  · refine ⟨o, (s1.stream f st).fetch, ?_, ?_, rfl, rfl, rfl, rfl, rfl, rfl, rfl, fun h => nomatch h⟩
    all_goals rw [haccept, if_neg hall]
    · exact onlyFloe_trans hissue (State.setFloe_onlyFloe ..)
    · dsimp only
      rw [State.floe_setFloe, hfloe, Floe.setStream_mmas, Floe.takeMma_mmas]
      rfl

/-! ### What the accepted floe holds -/

section
variable (x : Floe) (st : Stream) (y : StreamSt) (o : MmaOp)

theorem Floe.acceptMma_stream : (x.acceptMma st y o).stream st = y := by
  have hmmas : ∀ (z : Floe) l, ({ z with mmas := l } : Floe).stream st = z.stream st := fun z l => by cases st <;> rfl
  rw [Floe.acceptMma, hmmas]
  split
  · rw [Floe.readMma_stream, Floe.setStream_stream]
  · rw [Floe.setStream_stream]
/-- Acceptance leaves the weights, the drains and the tile queue. -/
theorem Floe.acceptMma_keeps : (x.acceptMma st y o).weights = x.weights ∧ (x.acceptMma st y o).drains = x.drains ∧ (x.acceptMma st y o).tq = x.tq := by
  obtain ⟨p, q, htake⟩ := x.takeMma_keeps st o.w o.m0 o.n0 o.k0
  obtain ⟨a, b, c, hset⟩ := (x.takeMma st o.w o.m0 o.n0 o.k0).setStream_fields st y
  obtain ⟨p', q', hread⟩ := ((x.takeMma st o.w o.m0 o.n0 o.k0).setStream st y).readMma_keeps o.w
  rw [Floe.acceptMma]
  dsimp only
  rw [hread, hset, htake]
  split
  · exact ⟨rfl, rfl, rfl⟩
  · exact ⟨rfl, rfl, rfl⟩
theorem Floe.setStream_bank (z : Floe) (b : Nat) : (z.setStream st y).bank b = z.bank b := by cases st <;> rfl
theorem Floe.takeMma_bank (w : IWord) (m0 n0 k0 : Nat) : (x.takeMma st w m0 n0 k0).bank (mmaBank w) =
    { x.bank (mmaBank w) with st := .opened, owner := st, m0 := m0, n0 := n0, mb := mmaMb w, nb := mmaNb w, kEnd := k0 + mmaKn w } := Floe.bank_setBank ..
theorem Floe.takeMma_bank_other (w : IWord) (m0 n0 k0 : Nat) : (x.takeMma st w m0 n0 k0).bank (1 - mmaBank w) = x.bank (1 - mmaBank w) := by
  rw [Floe.takeMma, Floe.bank_setBank_other, Floe.take_eq]; rfl
/-- The named bank is OPEN for the tile, or DRAINING where its MMA drains and is read at once; the other bank stays. -/
theorem Floe.acceptMma_bank :
    (x.acceptMma st y o).bank (mmaBank o.w) = { x.bank (mmaBank o.w) with
      st := if mmaDrain o.w && o.readDone then .draining else .opened, owner := st, m0 := o.m0, n0 := o.n0, mb := mmaMb o.w, nb := mmaNb o.w, kEnd := o.k0 + mmaKn o.w }
    ∧ (x.acceptMma st y o).bank (1 - mmaBank o.w) = x.bank (1 - mmaBank o.w) := by
  have hbank : ∀ b, (x.acceptMma st y o).bank b =
      (if o.readDone then ((x.takeMma st o.w o.m0 o.n0 o.k0).setStream st y).readMma o.w else (x.takeMma st o.w o.m0 o.n0 o.k0).setStream st y).bank b :=
    fun _ => rfl
  rw [hbank, hbank]
  cases hread : o.readDone
  case false =>
    rw [if_neg Bool.false_ne_true, Floe.setStream_bank, Floe.takeMma_bank, Floe.setStream_bank, Floe.takeMma_bank_other, Bool.and_false]
    exact ⟨rfl, rfl⟩
  case true =>
    rw [if_pos rfl, Floe.readMma_bank, Floe.readMma_bank_other, Floe.setStream_bank, Floe.takeMma_bank, Floe.setStream_bank, Floe.takeMma_bank_other, Bool.and_true]
    exact ⟨rfl, rfl⟩
/-- The tags are taken, and given back where the operands are read at once. -/
theorem Floe.acceptMma_tags :
    (o.readDone = false → (x.acceptMma st y o).tags = (x.take (mmaReads o.w) (mmaWrites o.w)).tags)
    ∧ (o.readDone = true → (x.acceptMma st y o).tags =
        ((x.take (mmaReads o.w) (mmaWrites o.w)).endReaders (readersOf (mmaReads o.w) (mmaWrites o.w))).tags) := by
  have htags : ((x.takeMma st o.w o.m0 o.n0 o.k0).setStream st y).tags = (x.take (mmaReads o.w) (mmaWrites o.w)).tags := by
    obtain ⟨p, q, h⟩ := x.takeMma_keeps st o.w o.m0 o.n0 o.k0
    rw [Floe.setStream_tags, h]
  refine ⟨fun h => ?_, fun h => ?_⟩
  · rw [Floe.acceptMma, h]; exact htags
  · obtain ⟨p, q, hread⟩ := ((x.takeMma st o.w o.m0 o.n0 o.k0).setStream st y).readMma_keeps o.w
    rw [Floe.acceptMma, h]
    dsimp only
    rw [if_pos rfl, hread]
    exact Floe.endReaders_tags_congr htags _
end

section
variable {f : Nat} {st : Stream} {arb : Arb} {w : IWord} {s s1 : State} {x : Floe} {m0 n0 k0 : Nat} {a b : Desc}

theorem mmaFault_of_noDescs (h : s.mmaDescs f w = none) : s.mmaFault f st w m0 n0 k0 = some 0x03 := by
  unfold State.mmaFault
  dsimp only
  rw [h]
theorem mmaDescs_of_noFault (h : s.mmaFault f st w m0 n0 k0 = none) : ∃ a b, s.mmaDescs f w = some (a, b) := by
  match hdescs : s.mmaDescs f w with
  | none => exact absurd ((mmaFault_of_noDescs hdescs).symm.trans h) (Option.some_ne_none _)
  | some (a, b) => exact ⟨a, b, rfl⟩
/-- The grant leaves the operand descriptors. -/
theorem granted_mmaDescs (hgranted : Claims.Granted f 0 st arb (mmaReads w) s s1 x) : (s1.setFloe f x).mmaDescs f w = s1.mmaDescs f w := by
  unfold State.mmaDescs
  rw [granted_desc hgranted, granted_desc hgranted, granted_desc hgranted]
/-- A granted MMA that meets no fault goes to the array. -/
theorem mmaHead_of_granted (hwaits : s.mmaWaits f st w = false) (hgranted : Claims.Granted f 0 st arb (mmaReads w) s s1 x)
    (hplace : mmaPlace (s.stream f st) w = (m0, n0, k0)) (hfault : s1.mmaFault f st w m0 n0 k0 = none)
    (hdescs : (s1.setFloe f x).mmaDescs f w = some (a, b)) : s.mmaHead f st arb w = (s1.setFloe f x).mmaAccept f st w m0 n0 k0 a b := by
  rw [State.mmaHead, hplace]
  dsimp only
  rw [hwaits, if_neg Bool.false_ne_true, grant_of_granted hgranted hfault, hdescs]
end

/-- Each of the three instructions at a head of its opcode does what an MMA at its head does. -/
theorem exec_mma {f op : Nat} {st : Stream} {arb : Arb} {w : IWord} {s : State} {c : Instr}
    (hc : (op = 0x10 ∧ c = .mma f st arb) ∨ (op = 0x11 ∧ c = .mmaT f st arb) ∨ (op = 0x12 ∧ c = .mmaSp f st arb)) (h : Claims.Head op s f st w) :
    exec c s = .next (s.mmaHead f st arb w) := by
  rcases hc with ⟨rfl, rfl⟩ | ⟨rfl, rfl⟩ | ⟨rfl, rfl⟩
  · exact congrArg Host.Outcome.next (State.inCycle_onHead h _)
  · exact congrArg Host.Outcome.next (State.inCycle_onHead h _)
  · exact congrArg Host.Outcome.next (State.inCycle_onHead h _)

end Sys2Proof.Machine

open Sys2Proof Sys2Proof.Machine

/-- Settles O10: the granted head goes to the array, whose floe after it is the one that took the MMA, its operands read at once where nothing of them is fetched. That the bank is OPEN from acceptance on (log 77), and DRAINING once its draining MMA has read its operands (log 108), are the model's choices. -/
theorem mmaAccepted : Obligations.MmaAccepted := by
  unfold Obligations.MmaAccepted
  intro f st arb w s s1 x c op hc h hwaits hgranted at14 m0 n0 k0 hfault
  obtain ⟨a, b, hdescs⟩ := mmaDescs_of_noFault hfault
  have hdescs' := (granted_mmaDescs hgranted).trans hdescs
  have hhead : s.mmaHead f st arb w = (s1.setFloe f x).mmaAccept f st w m0 n0 k0 a b := by
    have hplace : mmaPlace (s.stream f st) w = (m0, n0, k0) := rfl
    exact mmaHead_of_granted hwaits hgranted hplace hfault hdescs'
  clear_value m0 n0 k0
  obtain ⟨o, fetch, hother, hfloe, hst, hw, hm, hn, hk, ha, hb, hdone⟩ := (s1.setFloe f x).mmaAccept_floe f st w m0 n0 k0 a b
  subst hst hw hm hn hk
  have hstream : (s1.setFloe f x).stream f o.stream = s1.stream f o.stream := by
    rw [State.stream, State.floe_setFloe, granted_stream hgranted]
  rw [hstream, State.floe_setFloe] at hfloe
  obtain ⟨hweights, hdrains, htq⟩ := x.acceptMma_keeps o.stream (Claims.issued (s1.stream f o.stream) fetch) o
  obtain ⟨hbank, hbank'⟩ := x.acceptMma_bank o.stream (Claims.issued (s1.stream f o.stream) fetch) o
  obtain ⟨htags, htags'⟩ := x.acceptMma_tags o.stream (Claims.issued (s1.stream f o.stream) fetch) o
  refine ⟨a, b, _, o, hdescs, (exec_mma hc h).trans (congrArg _ hhead), onlyFloe_trans (State.setFloe_onlyFloe ..) hother, ?_⟩
  rw [State.stream, hfloe]
  refine ⟨?_, rfl, hweights, rfl, rfl, rfl, rfl, rfl, ha, hb, hbank, hbank', hdrains, htq, htags, fun hread => ⟨htags' hread, hdone hread⟩⟩
  rw [Floe.acceptMma_stream]
  rfl
end

section
/-! SUPPORT. The vector engine, the transfer engine and the stash unit accept (spec/05 R128, R133, spec/04 R105, R113, spec/07 R203, R204, R221, spec/06 R185). -/

namespace Sys2Proof.Machine

theorem Floe.setStream_self (x : Floe) (st : Stream) : x.setStream st (x.stream st) = x := by cases st <;> rfl
theorem Floe.take_tq (x : Floe) (reads writes : List Nat) : (x.take reads writes).tq = x.tq := by rw [Floe.take_eq]
/-- Acceptance over the floe that the grant left. -/
theorem Accepts.congr {f : Nat} {st : Stream} {s t : State} {x y : Floe} (h : Claims.Accepts f st s t x) (hxy : x = y) : Claims.Accepts f st s t y := hxy ▸ h

section
variable {f unit : Nat} {st : Stream} {arb : Arb} {tags : List Nat} {w : IWord} {s s1 : State} {x : Floe}

theorem granted_state_stream (h : Claims.Granted f unit st arb tags s s1 x) (u : Stream) : (s1.setFloe f x).stream f u = s1.stream f u := by
  rw [State.stream, State.floe_setFloe, granted_stream h]

/-! ## The vector engine -/

theorem passFault_of_noDescs {m0 n0 : Nat} (h : s.passDescs f w = none) : s.passFault f st w m0 n0 = some 0x03 := by
  unfold State.passFault
  dsimp only
  rw [h]
theorem passDescs_of_noFault {m0 n0 : Nat} (h : s.passFault f st w m0 n0 = none) : ∃ a b ops, s.passDescs f w = some (a, b, ops) := by
  match hdescs : s.passDescs f w with
  | none => exact absurd ((passFault_of_noDescs hdescs).symm.trans h) (Option.some_ne_none _)
  | some (a, b, ops) => exact ⟨a, b, ops, rfl⟩
theorem granted_passDescs (h : Claims.Granted f unit st arb tags s s1 x) : (s1.setFloe f x).passDescs f w = s1.passDescs f w := by
  unfold State.passDescs
  simp only [granted_desc h]
/-- The pass that the engine takes. -/
def State.passOp (s : State) (f : Nat) (st : Stream) (w : IWord) (m0 n0 : Nat) (a b : Option Desc) (ops : Tbl Desc) : PassOp :=
  let y := s.stream f st
  { stream := st, w := w, m0 := m0, n0 := n0, dSrc := a.getD {}, dDst := b.getD {}, dOps := ops,
    scal := (passRegs w).eraseDups.map (fun r => (r, y.reg r)), ra0 := y.ra0, ra1 := y.ra1, readDone := (passReads w).isEmpty }
/-- The floe whose engine takes a pass. -/
def Floe.takePass (x : Floe) (w : IWord) (o : PassOp) : Floe :=
  { x.take (passReads w) (passWrites w) with
    vu := .pass o, tq := if passQueue w then x.tq.map (fun u => if u.tag = passSrc w then { u with kept := !passPop w } else u) else x.tq }
theorem Floe.takePass_stream (x : Floe) (w : IWord) (o : PassOp) (st : Stream) : (x.takePass w o).stream st = x.stream st := by
  rw [Floe.takePass, Floe.take_eq]
  cases st <;> rfl
theorem Floe.takePass_eq (x : Floe) (w : IWord) (o : PassOp) :
    x.takePass w o = if passQueue w then ({ x.take (passReads w) (passWrites w) with vu := .pass o } : Floe).mapTile (passSrc w) (fun t => { t with kept := !passPop w })
      else { x.take (passReads w) (passWrites w) with vu := .pass o } := by
  unfold Floe.takePass Floe.mapTile
  dsimp only
  rw [← Floe.take_tq x (passReads w) (passWrites w)]
  cases passQueue w <;> rfl
theorem passAccept_eq (s : State) (f : Nat) (st : Stream) (w : IWord) (m0 n0 : Nat) (a b : Option Desc) (ops : Tbl Desc) :
    s.passAccept f st w m0 n0 a b ops =
      let x1 := (s.floe f).takePass w (s.passOp f st w m0 n0 a b ops)
      (s.setFloe f (if passToScalar w then x1.setStream st ((x1.stream st).addPend (passReg w)) else x1)).issue f st := by
  dsimp only
  rw [Floe.takePass_eq]
  rfl
theorem passAccept_accepts (h : Claims.Granted f unit st arb tags s s1 x) (m0 n0 : Nat) (a b : Option Desc) (ops : Tbl Desc) :
    let x1 := x.takePass w (s1.passOp f st w m0 n0 a b ops)
    Claims.Accepts f st s1 ((s1.setFloe f x).passAccept f st w m0 n0 a b ops)
      (if passToScalar w then x1.setStream st ((s1.stream f st).addPend (passReg w)) else x1) := by
  intro x1
  have hop : (s1.setFloe f x).passOp f st w m0 n0 a b ops = s1.passOp f st w m0 n0 a b ops := by
    rw [State.passOp, State.passOp, granted_state_stream h]
  rw [passAccept_eq, State.floe_setFloe, hop]
  refine Accepts.congr (accepts_issue ..) ?_
  rw [Floe.takePass_stream, granted_stream h]
theorem exec_pass {op : Nat} {c : Instr}
    (hc : (op = 0x20 ∧ c = .vec f st arb) ∨ (op = 0x21 ∧ c = .red f st arb) ∨ (op = 0x22 ∧ c = .cvtBs16 f st arb)) (h : Claims.Head op s f st w) :
    exec c s = .next (s.passHead f st arb w) := by
  rcases hc with ⟨rfl, rfl⟩ | ⟨rfl, rfl⟩ | ⟨rfl, rfl⟩
  · exact congrArg Host.Outcome.next (State.inCycle_onHead h _)
  · exact congrArg Host.Outcome.next (State.inCycle_onHead h _)
  · exact congrArg Host.Outcome.next (State.inCycle_onHead h _)
/-- A granted pass that meets no fault goes to the engine. -/
theorem passHead_of_granted {a b : Option Desc} {ops : Tbl Desc} {m0 n0 : Nat} (hwaits : s.passWaits f st w = false)
    (hgranted : Claims.Granted f 1 st arb (passReads w ++ passWrites w) s s1 x)
    (hm : m0 = fld w 101 90 + if passUseS w then (s.stream f st).regLow 12 26 else 0)
    (hn : n0 = fld w 89 78 + if passUseS w then (s.stream f st).regLow 12 27 else 0)
    (hfault : s1.passFault f st w m0 n0 = none) (hdescs : s1.passDescs f w = some (a, b, ops)) :
    s.passHead f st arb w = (s1.setFloe f x).passAccept f st w m0 n0 a b ops := by
  subst hm hn
  unfold State.passHead
  dsimp only
  rw [hwaits, if_neg Bool.false_ne_true, grant_of_granted hgranted hfault, granted_passDescs hgranted, hdescs]

/-! ## GATE.TOPK and PACK.CAP -/

theorem condFault_of_noOp (h : s.condOp f st w = none) : s.condFault f st w = some 0x03 := by
  unfold State.condFault
  rw [h]
theorem condOp_of_noFault (h : s.condFault f st w = none) : ∃ o, s.condOp f st w = some o := by
  match hop : s.condOp f st w with
  | none => exact absurd ((condFault_of_noOp hop).symm.trans h) (Option.some_ne_none _)
  | some o => exact ⟨o, rfl⟩
theorem granted_condOp (h : Claims.Granted f unit st arb tags s s1 x) : (s1.setFloe f x).condOp f st w = s1.condOp f st w := by
  unfold State.condOp
  simp only [granted_desc h, granted_state_stream h]
theorem exec_cond {c : Instr}
    (hc : (opOf w = 0x38 ∧ c = .gateTopk f st arb) ∨ (opOf w = 0x39 ∧ packMode w = 0 ∧ c = .packAssign f st arb)
      ∨ (opOf w = 0x39 ∧ packMode w = 1 ∧ c = .packGather f st arb) ∨ (opOf w = 0x39 ∧ packMode w = 2 ∧ c = .packCombine f st arb))
    (h : Claims.Head (opOf w) s f st w) : exec c s = .next (s.condHead f st arb w) := by
  rcases hc with ⟨hop, rfl⟩ | ⟨hop, hmode, rfl⟩ | ⟨hop, hmode, rfl⟩ | ⟨hop, hmode, rfl⟩
  · exact congrArg Host.Outcome.next (State.inCycle_onHead_of h (by simp [isIns, hop]) _)
  · exact congrArg Host.Outcome.next (State.inCycle_onHead_of h (by simp [isPack, hop, hmode]) _)
  · exact congrArg Host.Outcome.next (State.inCycle_onHead_of h (by simp [isPack, hop, hmode]) _)
  · exact congrArg Host.Outcome.next (State.inCycle_onHead_of h (by simp [isPack, hop, hmode]) _)
theorem condHead_accepts {o : CondOp} (hwaits : s.condWaits f st w = false) (hgranted : Claims.Granted f 1 st arb (condReads w ++ condWrites w) s s1 x)
    (hfault : s1.condFault f st w = none) (hop : s1.condOp f st w = some o) :
    Claims.Accepts f st s1 (s.condHead f st arb w) { x.take (condReads w) (condWrites w) with vu := .cond o } := by
  unfold State.condHead
  rw [hwaits, if_neg Bool.false_ne_true, grant_of_granted hgranted hfault, granted_condOp hgranted, hop]
  dsimp only
  rw [State.floe_setFloe]
  exact accepts_issue ..

/-! ## The updates -/

theorem exec_upd {op : Nat} {c : Instr} (hc : (op = 0x30 ∧ c = .updAdamw f st arb) ∨ (op = 0x31 ∧ c = .updSgdm f st arb)) (h : Claims.Head op s f st w) :
    exec c s = .next (s.updHead f st arb w) := by
  rcases hc with ⟨rfl, rfl⟩ | ⟨rfl, rfl⟩
  · exact congrArg Host.Outcome.next (State.inCycle_onHead h _)
  · exact congrArg Host.Outcome.next (State.inCycle_onHead h _)
/-- Reading the descriptors and the grant leave the number of current tags. -/
theorem granted_ppCount (h : Claims.Granted f unit st arb tags s s1 x) : x.ppCount = (s.floe f).ppCount := by
  obtain ⟨rfl, weights, -, rfl⟩ := h
  exact (congrArg Floe.ppCount ((s.readDescs_marksFloes f arb.errs tags).floe f) :)
/-- The update that the engine takes. -/
def State.updOp (s : State) (f : Nat) (st : Stream) (w : IWord) (m0 n0 n : Nat) (y : StreamSt) (kappa : F32) : UpdOp :=
  let get := fun (k : Nat) => (s.desc f k).getD {}
  { stream := st, w := w, m0 := m0, n0 := n0, dG := get (updG w),
    cur := (updSet w).map (fun i => (i, get (updS w + i))), alt := (updSet w).map (fun i => (i, get (updS w + i + n))),
    hp := (updRegs w).eraseDups.map (fun r => (r, y.reg r)), kappa := kappa }
theorem Floe.take_vu_stream (x : Floe) (reads writes : List Nat) (v : VecUnit) (st : Stream) :
    ({ x.take reads writes with vu := v } : Floe).stream st = x.stream st := by
  rw [Floe.take_eq]
  cases st <;> rfl
theorem updHead_accepts (hwaits : s.updWaits f st w = false) {m0 n0 : Nat}
    (hm : m0 = fld w 103 92 + if updUseS w then (s.stream f st).regLow 12 26 else 0)
    (hn : n0 = fld w 91 80 + if updUseS w then (s.stream f st).regLow 12 27 else 0)
    (hgranted : Claims.Granted f 1 st arb ((updG w :: updCur w) ++ updAlt w (s.floe f).ppCount.toNat) s s1 x) (hfault : s1.updFault f w m0 n0 = none) :
    let x1 : Floe := { x.take (updG w :: updCur w) (updAlt w (s.floe f).ppCount.toNat) with
      vu := .upd (s1.updOp f st w m0 n0 (s.floe f).ppCount.toNat (s.stream f st) (x.kappa w)) }
    Claims.Accepts f st s1 (s.updHead f st arb w) (if updNreg w = 0 then x1 else x1.setStream st ((s1.stream f st).addPend (updNreg w))) := by
  intro x1
  subst hm hn
  have hstream : x1.stream st = s1.stream f st := (Floe.take_vu_stream ..).trans (granted_stream hgranted st)
  unfold State.updHead
  dsimp only
  rw [hwaits, if_neg Bool.false_ne_true, grant_of_granted hgranted hfault]
  refine Accepts.congr (accepts_issue ..) ?_
  simp only [State.floe_setFloe, granted_desc hgranted, granted_ppCount hgranted]
  show x1.setStream st (if updNreg w = 0 then x1.stream st else (x1.stream st).addPend (updNreg w)) = _
  rw [hstream]
  split
  · rw [← hstream, Floe.setStream_self]
  · rfl

end

end Sys2Proof.Machine

open Sys2Proof Sys2Proof.Machine

/-- Settles O11: what an instruction names is read before the grant, which leaves descriptors and streams, so the engine takes the instruction as its head and those descriptors give it. -/
theorem vectorEngineAccepts : Obligations.VectorEngineAccepts := by
  unfold Obligations.VectorEngineAccepts
  refine fun f st arb w s s1 x => ⟨fun c op hc h hwaits hgranted => ?_, fun c hc h hwaits hgranted hfault => ?_, fun c op hc h => ?_⟩
  · intro m0 n0 hfault
    obtain ⟨a, b, ops, hdescs⟩ := passDescs_of_noFault hfault
    exact ⟨a, b, ops, _, _, hdescs, (exec_pass hc h).trans (congrArg _ (passHead_of_granted hwaits hgranted rfl rfl hfault hdescs)), rfl,
      passAccept_accepts hgranted ..⟩
  · obtain ⟨o, hop⟩ := condOp_of_noFault hfault
    exact ⟨o, _, hop, exec_cond hc h, condHead_accepts hwaits hgranted hfault hop⟩
  · intro y n m0 n0 reads hwaits hgranted hfault get o
    exact ⟨_, exec_upd hc h, updHead_accepts hwaits rfl rfl hgranted hfault⟩
end

section
/-! SUPPORT. The transfer engine and the stash unit accept (spec/06 R185, spec/07 R203, R204). -/

namespace Sys2Proof.Machine

section
variable {f unit : Nat} {st : Stream} {arb : Arb} {tags : List Nat} {w : IWord} {s s1 : State} {x : Floe} {k : Nat}

theorem xfer_accepts (h : Claims.Head 0x18 s f st w) (hwaits : s.xferWaits f w = false)
    (hgranted : Claims.Granted f 2 st arb [xferSrc w, xferDst w] s s1 x) (hfault : s1.xferFault f w = none) :
    ∃ t, exec (.xfer f st arb) s = .next t ∧ Claims.Accepts f st s1 t { x.take [xferSrc w] [xferDst w] with
      xfers := x.xfers ++ [{ stream := st, w := w, dSrc := (s1.desc f (xferSrc w)).getD {}, dDst := (s1.desc f (xferDst w)).getD {} }] } := by
  have harm : exec (.xfer f st arb) s = execXfer f st arb s := rfl
  rw [harm, execXfer, State.inCycle_onHead h]
  refine ⟨_, rfl, ?_⟩
  rw [hwaits, if_neg Bool.false_ne_true, grant_of_granted hgranted hfault]
  dsimp only
  rw [State.floe_setFloe, granted_desc hgranted, granted_desc hgranted]
  exact accepts_issue ..

/-! ## A push -/

theorem granted_pushEntry (h : Claims.Granted f unit st arb tags s s1 x) (d : Desc) : (s1.setFloe f x).pushEntry f w k d = s1.pushEntry f w k d := by
  obtain ⟨-, weights, -, rfl⟩ := h
  unfold State.pushEntry
  rw [State.floe_setFloe]
  rfl
/-- The floe whose stash unit takes a push. -/
def Floe.takePush (x : Floe) (st : Stream) (w : IWord) (k : Nat) (e : StashEntry) (d : Desc) : Floe :=
  let x1 : Floe := { x with stashed := x.stashed.put k (e :: x.stack k) }
  if e.hole then { x1 with pushCount := x.pushCount + 1, holeCount := x.holeCount + 1 }
  else { x1.take [stashTag w] [] with
    push := some { stream := st, stack := k, entry := e, d := d, tag := stashTag w }, spillCount := if e.tier = 0 then x.spillCount else x.spillCount + 1 }
theorem pushAccept_accepts (hgranted : Claims.Granted f unit st arb tags s s1 x) (d : Desc) :
    Claims.Accepts f st s1 ((s1.setFloe f x).pushAccept f st w k d) (x.takePush st w k (s1.pushEntry f w k d) d) := by
  unfold State.pushAccept
  rw [granted_pushEntry hgranted, State.floe_setFloe]
  exact accepts_issue ..
theorem push_accepts (h : Claims.Head 0x28 s f st w) (hwaits : s.pushWaits f st w = false) (hgranted : Claims.Granted f 3 st arb [stashTag w] s s1 x)
    (hfault : s1.pushFault f w (stashStack (s.stream f st) w) = none) :
    let k := stashStack (s.stream f st) w
    let d := (s1.desc f (stashTag w)).getD {}
    ∃ t, exec (.stashPush f st arb) s = .next t ∧ Claims.Accepts f st s1 t (x.takePush st w k (s1.pushEntry f w k d) d) := by
  have harm : exec (.stashPush f st arb) s = execStashPush f st arb s := rfl
  rw [harm, execStashPush, State.inCycle_onHead h]
  refine ⟨_, rfl, ?_⟩
  dsimp only
  rw [hwaits, if_neg Bool.false_ne_true, grant_of_granted hgranted hfault, granted_desc hgranted]
  exact pushAccept_accepts hgranted _

/-! ## A pop -/

theorem exec_stashPop (h : Claims.Head 0x29 s f st w) (hwaits : s.popWaits f st w = false) (hgranted : Claims.Granted f 3 st arb (popTags w) s s1 x)
    (hfault : s1.popFault f w (stashStack (s.stream f st) w) = none) :
    exec (.stashPop f st arb) s = .next ((s1.setFloe f x).popAccept f st w (stashStack (s.stream f st) w)) := by
  have harm : exec (.stashPop f st arb) s = execStashPop f st arb s := rfl
  rw [harm, execStashPop, State.inCycle_onHead h]
  dsimp only
  rw [hwaits, if_neg Bool.false_ne_true, grant_of_granted hgranted hfault]

variable {e : StashEntry} {r : List StashEntry} (hgranted : Claims.Granted f unit st arb tags s s1 x) (htop : x.stack k = e :: r)

include htop in
/-- A discarded entry only leaves its stack. -/
theorem popAccept_discard (hbit : stashBit w = true) : Claims.Accepts f st s1 ((s1.setFloe f x).popAccept f st w k) { x with stashed := x.stashed.put k r } := by
  unfold State.popAccept
  rw [State.floe_setFloe]
  dsimp only
  rw [htop]
  dsimp only
  rw [if_pos hbit]
  exact accepts_issue ..
include hgranted htop in
/-- A stored entry is copied to its tag. -/
theorem popAccept_copy (hbit : stashBit w = false) (hhole : e.hole = false) :
    Claims.Accepts f st s1 ((s1.setFloe f x).popAccept f st w k) { ({ x with stashed := x.stashed.put k r } : Floe).take [] [stashTag w] with
      pop := some { stream := st, stack := k, entry := e, d := (s1.desc f (stashTag w)).getD {}, tag := stashTag w } } := by
  unfold State.popAccept
  rw [State.floe_setFloe, granted_desc hgranted]
  dsimp only
  rw [htop]
  dsimp only
  rw [if_neg (Bool.not_eq_true _ ▸ hbit), if_neg (Bool.not_eq_true _ ▸ hhole)]
  exact accepts_issue ..
/-- The floe whose stream goes on at the code that recomputes the hole on top of its stack. -/
def Floe.takeHole (x : Floe) (st : Stream) (k : Nat) (r : List StashEntry) : Floe :=
  let x1 : Floe := { x with stashed := x.stashed.put k r, recompCount := x.recompCount + 1 }
  x1.setStream st ((x.stream st).setReg 28 ((x.stream st).pc + 16))
include htop in
/-- A hole branches to its recompute code (spec/07 R208). -/
theorem popAccept_hole (hbit : stashBit w = false) (hhole : e.hole = true) :
    (s1.setFloe f x).popAccept f st w k =
      ((s1.setFloe f x).setFloe f (x.takeHole st k r)).issueTo f st ((x.stream st).pc + BitVec.ofInt 64 (16 * stashRoff w)) := by
  have hstream : ({ x with stashed := x.stashed.put k r } : Floe).stream st = x.stream st := by cases st <;> rfl
  unfold State.popAccept
  rw [State.floe_setFloe]
  dsimp only
  rw [htop]
  dsimp only
  rw [if_neg (Bool.not_eq_true _ ▸ hbit), if_pos hhole, Floe.setStack, hstream]
  rfl
end

theorem Floe.setStream_stack (x : Floe) (st : Stream) (y : StreamSt) (k : Nat) : (x.setStream st y).stack k = x.stack k := by cases st <;> rfl
theorem Floe.setStream_recompCount (x : Floe) (st : Stream) (y : StreamSt) : (x.setStream st y).recompCount = x.recompCount := by cases st <;> rfl
theorem Floe.takeHole_stack (x : Floe) (st : Stream) (k : Nat) (r : List StashEntry) : (x.takeHole st k r).stack k = r := by
  rw [Floe.takeHole, Floe.setStream_stack, Floe.stack, Tbl.get_put_same]
theorem Floe.takeHole_recompCount (x : Floe) (st : Stream) (k : Nat) (r : List StashEntry) : (x.takeHole st k r).recompCount = x.recompCount + 1 := by
  rw [Floe.takeHole, Floe.setStream_recompCount]
theorem Floe.takeHole_stream (x : Floe) (st : Stream) (k : Nat) (r : List StashEntry) :
    (x.takeHole st k r).stream st = (x.stream st).setReg 28 ((x.stream st).pc + 16) := Floe.setStream_stream ..

end Sys2Proof.Machine

open Sys2Proof Sys2Proof.Machine

/-- Settles O12: the granted head is accepted as the descriptors and the stack give it. That a push which makes a hole counts in PUSH_COUNT too, and reads nothing, is log 83's choice. -/
theorem transferAndStashAccept : Obligations.TransferAndStashAccept := by
  unfold Obligations.TransferAndStashAccept
  refine fun f st arb w s s1 x => ⟨fun h hwaits hgranted hfault => xfer_accepts h hwaits hgranted hfault,
    fun h hwaits hgranted hfault => push_accepts h hwaits hgranted hfault, fun e r h hwaits hgranted hfault htop => ?_⟩
  refine ⟨_, exec_stashPop h hwaits hgranted hfault, fun hbit => popAccept_discard htop hbit,
    fun hbit hhole => popAccept_copy hgranted htop hbit hhole, fun hbit hhole => ?_⟩
  rw [popAccept_hole htop hbit hhole, granted_stream hgranted]
  obtain ⟨hother, hfloe⟩ := State.issueTo_onlyStream ((s1.setFloe f x).setFloe f (x.takeHole st (stashStack (s.stream f st) w) r)) f st
    ((s1.stream f st).pc + BitVec.ofInt 64 (16 * stashRoff w))
  refine ⟨onlyFloe_trans (onlyFloe_trans (State.setFloe_onlyFloe ..) (State.setFloe_onlyFloe ..)) hother, ?_⟩
  have hstream : ((s1.setFloe f x).setFloe f (x.takeHole st (stashStack (s.stream f st) w) r)).stream f st =
      (s1.stream f st).setReg 28 ((s1.stream f st).pc + 16) := by
    rw [State.stream, State.floe_setFloe, Floe.takeHole_stream, granted_stream hgranted]
  rw [hfloe, State.issueTo_stream_fetch, hstream, State.floe_setFloe, Floe.setStream_stack, Floe.setStream_recompCount, Floe.takeHole_stack,
    Floe.takeHole_recompCount]
  refine ⟨rfl, rfl, ?_, rfl, ?_, fun i hi => ?_⟩
  · exact StreamSt.reg_setReg .. |>.trans (if_pos ⟨by decide, rfl⟩)
  · rw [StreamSt.setReg_eq]
  · exact StreamSt.reg_setReg .. |>.trans (if_neg fun h => hi h.2)
end

section
/-! SUPPORT. Streams halt, programs end, and streams fault (spec/06 R170, R189, R190, spec/12 R430). -/

namespace Sys2Proof.Machine

/-! ## Halting -/

/-- A partition's streams are all HALTED (spec/06 R170). -/
theorem State.allHalted_iff {s : State} {p : Nat} : s.allHalted p = true ↔ ∀ g ∈ s.partFloes p, ∀ u, (s.stream g u).st = .halted := by
  simp only [State.allHalted, List.all_eq_true, beq_iff_eq]
  exact ⟨fun h g hg u => h g hg u (by cases u <;> decide), fun h g hg u _ => h g hg u⟩
theorem State.floePart_of_parts {s t : State} (hv : t.variant = s.variant) (hp : t.parts = s.parts) (f : Nat) : t.floePart f = s.floePart f := by
  have hheld : ∀ g, t.groupHolder g = s.groupHolder g := fun g => by
    simp only [State.groupHolder, State.part_of_parts hp]
  rw [State.floePart, State.floePart, hv, hheld]
theorem exec_haltComplete {s : State} {f : Nat} {st : Stream} (hrun : (s.stream f st).st = .running) (hhalting : (s.stream f st).halting = true)
    (hdone : s.streamDone f st = true) :
    let s1 := s.setStream f st { s.stream f st with st := .halted, halting := false }
    exec (.haltComplete f st) s = .next (match s.floePart f with | some p => s1.programEnd p | none => s1) := by
  have harm : exec (.haltComplete f st) s = execHaltComplete f st s := rfl
  rw [harm, execHaltComplete]
  dsimp only
  rw [hrun, hhalting, hdone]
  rfl
theorem State.programEnd_floes (s : State) (p : Nat) : (s.programEnd p).floes = s.floes :=
  (State.programEnd_touch (Sub.refl _) s p (.refl _ s)).floes rfl
theorem State.programEnd_mem (s : State) (p : Nat) : (s.programEnd p).mem = s.mem := (State.programEnd_touch (Sub.refl _) s p (.refl _ s)).mem rfl

/-! ## The streams of a partition stop at a fault (spec/06 R189) -/

theorem State.each_congr_of_kept {α : Type} {Q : State → Prop} {op op' : State → α → State} (hQ : ∀ s x, Q s → Q (op s x))
    (h : ∀ s x, Q s → op s x = op' s x) (l : List α) {s : State} (hs : Q s) : s.each l op = s.each l op' := by
  induction l generalizing s with
  | nil => rfl
  | cons x r ih =>
    show (op s x).each r op = (op' s x).each r op'
    rw [ih (hQ s x hs), h s x hs]
/-- The floe whose streams all stop in the cycle of another's fault. -/
def Floe.cutAll (now : DWord) (x : Floe) : Floe := { x with fwd := x.fwd.cutOff now, bwd := x.bwd.cutOff now, upd := x.upd.cutOff now }
theorem Floe.cutAll_stream (now : DWord) (x : Floe) (st : Stream) : (x.cutAll now).stream st = (x.stream st).cutOff now := by cases st <;> rfl
theorem State.cutStreams_eq (s : State) (p : Nat) : s.cutStreams p = s.each (s.partFloes p) (fun t f => t.setFloe f ((t.floe f).cutAll s.now)) := by
  rw [State.cutStreams]
  refine State.each_congr_of_kept (Q := fun t => t.now = s.now) ?_ ?_ _ rfl
  · exact fun t f h => h
  · intro t f h
    rw [h]
    rfl
theorem State.cutStreams_stream (s : State) (p g : Nat) (u : Stream) :
    (s.cutStreams p).stream g u = if g ∈ s.partFloes p then (s.stream g u).cutOff s.now else s.stream g u := by
  rw [State.cutStreams_eq, State.stream, State.each_setFloe (s.partFloes_nodup p)]
  split
  · exact Floe.cutAll_stream ..
  · rfl
theorem State.cutStreams_parts (s : State) (p : Nat) : (s.cutStreams p).parts = s.parts := by
  rw [State.cutStreams_eq, State.each_setFloe_parts]
theorem StreamSt.stop_st (y : StreamSt) : y.stop.st = if y.st = .running ∨ y.st = .paused then .stopped else y.st := by
  unfold StreamSt.stop
  cases h : y.st <;> simp [h]
theorem StreamSt.cutOff_st (y : StreamSt) (now : DWord) : (y.cutOff now).st = if y.st = .running ∨ y.st = .paused then .stopped else y.st := by
  unfold StreamSt.cutOff
  split
  · exact StreamSt.stop_st y
  · exact StreamSt.stop_st y
/-- A FAULTED stream stays as it is. -/
theorem StreamSt.cutOff_of_faulted {y : StreamSt} (h : y.st = .faulted) (now : DWord) : y.cutOff now = y := by
  simp [StreamSt.cutOff, StreamSt.stop, h]

/-! ## The fault (spec/06 R189, R190) -/

section
variable (s : State) (f : Nat) (st : Stream) (code : Nat)

/-- The device with the stream FAULTED and nothing else done yet. -/
def State.markFaulted : State :=
  s.setStream f st { s.stream f st with st := .faulted, fault := BitVec.ofNat 8 code, wait := none, fetch := s.fetchWord f st }
theorem State.markFaulted_stream : (s.markFaulted f st code).stream f st =
    { s.stream f st with st := .faulted, fault := BitVec.ofNat 8 code, wait := none, fetch := s.fetchWord f st } := State.setStream_stream ..
theorem State.faultStream_mem : (s.faultStream f st code).mem = s.mem := (State.faultStream_touch (Sub.refl _) s f st code (.refl _ s)).mem rfl
/-- Where no partition holds the floe, the stream alone is FAULTED. -/
theorem State.faultStream_floes_of_free (h : s.floePart f = none) : (s.faultStream f st code).floes = (s.markFaulted f st code).floes := by
  have hpart : (s.markFaulted f st code).floePart f = none := h
  unfold State.markFaulted at hpart ⊢
  unfold State.faultStream
  dsimp only
  rw [hpart]
  exact (State.raise_touch (Sub.refl _) _ _ _ _ (.refl _ _)).floes rfl
/-- The streams of its partition stop, and it is FAULTED where it was RUNNING. -/
theorem State.faultStream_held {p : Nat} (h : s.floePart f = some p) :
    (s.faultStream f st code).floes = ((s.markFaulted f st code).cutStreams p).floes
    ∧ (s.faultStream f st code).part p = if (s.part p).st = .running then { s.part p with st := .faulted } else s.part p := by
  have hpart : (s.markFaulted f st code).floePart f = some p := h
  have hcut : ((s.markFaulted f st code).cutStreams p).part p = s.part p := State.part_of_parts (State.cutStreams_parts ..) p
  unfold State.markFaulted at hpart hcut ⊢
  unfold State.faultStream
  dsimp only
  rw [hpart]
  dsimp only
  rw [State.eventOwner_floes, State.part_of_parts (State.eventOwner_parts ..), hcut]
  refine ⟨?_, ?_⟩
  · refine ((State.raise_touch (Sub.refl _) _ _ _ _ (.refl _ _)).floes rfl).trans ?_
    split <;> rfl
  · refine (State.part_of_parts ((State.raise_touch (Sub.refl _) _ _ _ _ (.refl _ _)).parts rfl) p).trans ?_
    split
    · exact State.part_setPart ..
    · exact hcut
theorem State.faultStream_stream_of_held {p : Nat} (h : s.floePart f = some p) (g : Nat) (u : Stream) : (s.faultStream f st code).stream g u =
    if g ∈ s.partFloes p then ((s.markFaulted f st code).stream g u).cutOff s.now else (s.markFaulted f st code).stream g u := by
  obtain ⟨hfloes, -⟩ := s.faultStream_held f st code h
  rw [State.stream, State.floe_of_floes hfloes]
  exact State.cutStreams_stream ..
/-- The stream is FAULTED with its PC kept. -/
theorem State.faultStream_stream : (s.faultStream f st code).stream f st =
    { s.stream f st with st := .faulted, fault := BitVec.ofNat 8 code, wait := none, fetch := s.fetchWord f st } := by
  rw [← s.markFaulted_stream f st code]
  match h : s.floePart f with
  | none => rw [State.stream, State.floe_of_floes (s.faultStream_floes_of_free f st code h)]; rfl
  | some p =>
    rw [s.faultStream_stream_of_held f st code h, StreamSt.cutOff_of_faulted (by rw [s.markFaulted_stream]), ite_self]
end

/-! ## The steps that fault (spec/06 R158, R160, R192) -/

section
variable {s : State} {f : Nat} {st : Stream}

/-- A step at a RUNNING stream is not held to the cycle of another's fault. -/
theorem State.inCycle_of_running (h : (s.stream f st).st = .running) (g : State → State) : s.inCycle f st g = g s := by
  simp [State.inCycle, h]
theorem exec_illegalOp {errs : Errs} {w : IWord} (hword : (s.strike errs).headWord f st = some w) (henc : encOk w = false) :
    exec (.illegalOp f st errs) s = .next (((s.strike errs).noteRange (some f) errs (s.headAddr f st) 16).faultStream f st 0x01) := by
  have harm : exec (.illegalOp f st errs) s = execIllegalOp f st errs s := rfl
  have hrun : (s.stream f st).st = .running := Floe.running_of_atHead (State.headWord_eq_some.mp hword).1
  rw [harm, execIllegalOp, State.inCycle_of_running hrun]
  simp only [hword, henc, Bool.false_eq_true, if_false]
theorem exec_pcRange (hhead : (s.floe f).atHead st = true) (hpc : (s.floe f).pcOk st = false) :
    exec (.pcRange f st) s = .next (s.faultStream f st 0x02) := by
  have harm : exec (.pcRange f st) s = execPcRange f st s := rfl
  have hrun : (s.stream f st).st = .running := Floe.running_of_atHead hhead
  rw [harm, execPcRange, State.inCycle_of_running hrun]
  simp only [hhead, hpc, Bool.not_false, Bool.and_self, if_true]
theorem exec_streamStall (hrun : (s.stream f st).st = .running) (hhalting : (s.stream f st).halting = false)
    (hstall : bitsOf (s.floe f).streamCtl.toNat 24 6 ≠ 0) : exec (.streamStall f st) s = .next (s.faultStream f st 0x06) := by
  have harm : exec (.streamStall f st) s = execStreamStall f st s := rfl
  rw [harm, execStreamStall, State.inCycle_of_running hrun]
  simp [hrun, hhalting, hstall]
/-- Each of the three is a fault of the stream, of the device but for what the fetch's errors leave. -/
theorem exec_fault {errs : Errs} {c : Instr} {code : Byte}
    (h : (c = .illegalOp f st errs ∧ code = 0x01 ∧ ∃ w, (s.strike errs).headWord f st = some w ∧ encOk w = false)
      ∨ (c = .pcRange f st ∧ code = 0x02 ∧ (s.floe f).atHead st = true ∧ (s.floe f).pcOk st = false)
      ∨ (c = .streamStall f st ∧ code = 0x06 ∧ (s.stream f st).st = .running ∧ (s.stream f st).halting = false
          ∧ bitsOf (s.floe f).streamCtl.toNat 24 6 ≠ 0)) :
    ∃ u : State, exec c s = .next (u.faultStream f st code.toNat) ∧ u.mem = s.mem ∧ u.variant = s.variant ∧ u.parts = s.parts
      ∧ ∀ g v, u.stream g v = s.stream g v := by
  rcases h with ⟨rfl, rfl, w, hword, henc⟩ | ⟨rfl, rfl, hhead, hpc⟩ | ⟨rfl, rfl, hrun, hhalting, hstall⟩
  · have htouch := State.noteRange_touch (Sub.refl _) (s.strike errs) (some f) errs (s.headAddr f st) 16 (.refl _ (s.strike errs))
    exact ⟨_, exec_illegalOp hword henc, htouch.mem rfl, htouch.variant rfl, htouch.parts rfl,
      fun g v => ((s.strike errs).noteRange_marksFloes (some f) errs (s.headAddr f st) 16).stream g v⟩
  · exact ⟨s, exec_pcRange hhead hpc, rfl, rfl, rfl, fun _ _ => rfl⟩
  · exact ⟨s, exec_streamStall hrun hhalting hstall, rfl, rfl, rfl, fun _ _ => rfl⟩
end

end Sys2Proof.Machine

open Sys2Proof Sys2Proof.Machine

/-- Settles O14: a halt writes its stream, and a program's end only the partition and its events; a fault stops the partition's streams from the state that the fetch left, in which streams and partitions are as they were. That a fault leaves IDLE, HALTED and FAULTED streams as they are is log 26's reading. -/
theorem streamsHaltAndFault : Obligations.StreamsHaltAndFault := by
  unfold Obligations.StreamsHaltAndFault
  refine ⟨fun f st s => ?_, fun f st errs s c code => ?_⟩
  · intro y s1 hrun hhalting hdone
    refine ⟨_, exec_haltComplete hrun hhalting hdone, ?_⟩
    have hother : ∀ t : State, t.floes = s1.floes → ∀ g u, (g, u) ≠ (f, st) → t.stream g u = s.stream g u := fun t ht g u hne => by
      rw [State.stream, State.floe_of_floes ht]
      exact State.setStream_stream_ne (fun h => hne (by rw [h.1, h.2])) ..
    match hpart : s.floePart f with
    | none => exact ⟨rfl, rfl, hother s1 rfl, fun p hp => nomatch hp⟩
    | some p =>
      refine ⟨State.programEnd_floes .., State.programEnd_mem .., hother _ (State.programEnd_floes ..), fun q hq => ?_⟩
      obtain rfl := Option.some.inj hq
      have hend : ((s.part p).st = .running && s1.allHalted p) = true ↔ (s.part p).st = .running ∧ ∀ g ∈ s.partFloes p, ∀ u, (s1.stream g u).st = .halted := by
        rw [Bool.and_eq_true, decide_eq_true_eq, State.allHalted_iff]
        rfl
      refine ⟨fun hall => ?_, fun hall => if_neg (mt hend.mp hall)⟩
      have hprogram : s1.programEnd p = (s1.setPart p { s.part p with st := .loaded }).eventOwner p 0x01 0xFF [] := if_pos (hend.mpr hall)
      refine ⟨?_, hprogram⟩
      show ((s1.programEnd p).part p).st = _
      rw [hprogram, State.part_of_parts (State.eventOwner_parts ..), State.part_setPart]
  · intro y h
    obtain ⟨u, hexec, hmem, hvariant, hparts, hstreams⟩ := exec_fault h
    refine ⟨_, hexec, (u.faultStream_mem ..).trans hmem, ?_⟩
    rw [u.faultStream_stream, hstreams]
    refine ⟨rfl, by simp, rfl, rfl, fun p hp => ?_⟩
    have hheld : u.floePart f = some p := (State.floePart_of_parts hvariant hparts f).trans hp
    obtain ⟨-, hpart⟩ := u.faultStream_held f st code.toNat hheld
    refine ⟨fun g hg v hne => ?_, ?_⟩
    · have hg' : g ∈ u.partFloes p := by rwa [State.partFloes_of_groups (congrArg Part.groups (State.part_of_parts hparts p))]
      have hmark : (u.markFaulted f st code.toNat).stream g v = s.stream g v :=
        (State.setStream_stream_ne (fun h => hne (by rw [h.1, h.2])) ..).trans (hstreams g v)
      rw [u.faultStream_stream_of_held f st _ hheld, if_pos hg', hmark, StreamSt.cutOff_st]
    · rw [hpart, State.part_of_parts hparts]
      split <;> rfl
end

section
/-! SUPPORT. An MMA completes: a drained tile leaves its bank, a last product forms its sums (spec/03 R79, R80, R88). -/

namespace Sys2Proof.Machine

theorem takeFirst_eq_none {α : Type} {g : α → Bool} {l : List α} (h : ∀ e ∈ l, g e = false) : takeFirst g l = none := by
  induction l with
  | nil => rfl
  | cons b r ih =>
    have hb : g b = false := h b List.mem_cons_self
    rw [takeFirst, if_neg (by simp [hb]), ih fun e he => h e (List.mem_cons_of_mem _ he)]
    rfl

/-! ## A drained tile -/

/-- The floe once the tile of a drain is complete. -/
def Floe.endDrain (x : Floe) (sp : Bool) (r : List Drain) (b : Nat) : Floe :=
  let x1 := ({ x with drains := r } : Floe).countMma sp
  if (r.any (fun e => e.bank == b) || x.mmas.any (fun o => mmaBank o.w == b)) || (x.bank b).st != .draining then x1
  else x1.setBank b { x.bank b with st := .free }
theorem Floe.bank_countMma (x : Floe) (sp : Bool) (b : Nat) : (x.countMma sp).bank b = x.bank b := rfl
theorem Floe.endDrain_keeps (x : Floe) (sp : Bool) (r : List Drain) (b : Nat) :
    ∃ p q, x.endDrain sp r b = { ({ x with drains := r } : Floe).countMma sp with bank0 := p, bank1 := q } := by
  unfold Floe.endDrain
  split
  · exact ⟨x.bank0, x.bank1, rfl⟩
  · exact Floe.setBank_fields ..
theorem Floe.endDrain_bank_other (x : Floe) (sp : Bool) (r : List Drain) (b : Nat) : (x.endDrain sp r b).bank (1 - b) = x.bank (1 - b) := by
  unfold Floe.endDrain
  split
  · exact Floe.bank_countMma ..
  · exact (Floe.bank_setBank_other ..).trans (Floe.bank_countMma ..)
/-- A DRAINING bank with no other tile on it is FREE then; any other stays. -/
theorem Floe.endDrain_bank (x : Floe) (sp : Bool) (r : List Drain) (b : Nat) :
    ((x.bank b).st = .draining ∧ (∀ e ∈ r, e.bank ≠ b) ∧ (∀ o ∈ x.mmas, mmaBank o.w ≠ b) → (x.endDrain sp r b).bank b = { x.bank b with st := .free })
    ∧ (¬ ((x.bank b).st = .draining ∧ (∀ e ∈ r, e.bank ≠ b) ∧ ∀ o ∈ x.mmas, mmaBank o.w ≠ b) → (x.endDrain sp r b).bank b = x.bank b) := by
  have hstays : ((r.any (fun e => e.bank == b) || x.mmas.any (fun o => mmaBank o.w == b)) || (x.bank b).st != .draining) = false ↔
      (x.bank b).st = .draining ∧ (∀ e ∈ r, e.bank ≠ b) ∧ ∀ o ∈ x.mmas, mmaBank o.w ≠ b := by
    simp only [Bool.or_eq_false_iff, List.any_eq_false, beq_iff_eq, bne_eq_false_iff_eq]
    exact ⟨fun h => ⟨h.2, h.1.1, h.1.2⟩, fun h => ⟨⟨h.2.1, h.2.2⟩, h.1⟩⟩
  unfold Floe.endDrain
  refine ⟨fun h => ?_, fun h => ?_⟩
  · rw [hstays.mpr h]
    exact Floe.bank_setBank ..
  · rw [(Bool.not_eq_false _).mp (mt hstays.mp h), if_pos rfl]
    exact Floe.bank_countMma ..

/-! ## A last product -/

/-- The floe once the oldest MMA of a bank has reached its last product. -/
def Floe.endProducts (x : Floe) (o : MmaOp) (r : List MmaOp) (b : Nat) : Floe :=
  let x1 := { x with mmas := r, arrayBusy := x.arrayBusy + BitVec.ofNat 64 (mmaCycles o), arraySkip := x.arraySkip + BitVec.ofNat 64 o.bSkipped,
                     skipKunits := x.skipKunits + BitVec.ofNat 64 o.kSkipped }
  if mmaDrain o.w then
    { x1.setBank b { x.bank b with vals := [], block := none } with
      drains := x.drains ++ [{ sp := mmaSp o.w, bank := b, stream := o.stream, tag := fld o.w 30 23, mb := mmaMb o.w, nb := mmaNb o.w,
                               rows := (tileRows o (x.bank b)).1 }] }
  else (x1.setBank b { x.bank b with vals := (tileRows o (x.bank b)).1, block := (tileRows o (x.bank b)).2 }).countMma (mmaSp o.w)

section
variable {s : State} {f bank : Nat}

theorem exec_mmaComplete_drained {before after : List Drain} {d : Drain} (hdrains : (s.floe f).drains = before ++ d :: after) (hbank : d.bank = bank)
    (hall : d.entered = d.rows.length) (hbefore : ∀ e ∈ before, ¬ (e.bank = bank ∧ e.entered = e.rows.length)) :
    exec (.mmaComplete f bank) s = .next (s.setFloe f ((s.floe f).endDrain d.sp (before ++ after) bank)) := by
  have harm : exec (.mmaComplete f bank) s = execMmaComplete f bank s := rfl
  have htake := takeFirst_append (g := drained bank) (before := before) (after := after) (a := d)
    (fun e he => by simpa [drained] using hbefore e he) (by simp [drained, hbank, hall])
  rw [harm, execMmaComplete]
  dsimp only
  rw [hdrains, htake]
  rfl
theorem exec_mmaComplete_product {before after : List MmaOp} {o : MmaOp} (hdrains : ∀ e ∈ (s.floe f).drains, e.bank ≠ bank)
    (hmmas : (s.floe f).mmas = before ++ o :: after) (hbank : mmaBank o.w = bank) (hbefore : ∀ e ∈ before, mmaBank e.w ≠ bank) (hread : o.readDone = true) :
    exec (.mmaComplete f bank) s = .next (s.setFloe f ((s.floe f).endProducts o (before ++ after) bank)) := by
  have harm : exec (.mmaComplete f bank) s = execMmaComplete f bank s := rfl
  have hnone : takeFirst (drained bank) (s.floe f).drains = none := takeFirst_eq_none fun e he => by simp [drained, hdrains e he]
  have hdraining : (s.floe f).drains.any (draining bank) = false := by
    rw [List.any_eq_false]
    exact fun e he => by simp [draining, hdrains e he]
  have htake := takeFirst_append (g := fun o => mmaBank o.w == bank) (before := before) (after := after) (a := o)
    (fun e he => by simpa using hbefore e he) (by simp [hbank])
  rw [harm, execMmaComplete]
  dsimp only
  rw [hnone]
  dsimp only [Floe.lastProduct]
  rw [hmmas, htake]
  dsimp only
  rw [hread, hdraining]
  unfold Floe.endProducts
  cases hdrain : mmaDrain o.w
  · simp only [Bool.not_true, Bool.or_self, Bool.false_eq_true, if_false, hdrain]
  · simp only [Bool.not_true, Bool.or_self, Bool.false_eq_true, if_false, if_true, hdrain]
end

section
variable (x : Floe) (o : MmaOp) (r : List MmaOp) (b : Nat)

theorem Floe.endProducts_keeps :
    (x.endProducts o r b).mmas = r ∧ (x.endProducts o r b).skipKunits = x.skipKunits + BitVec.ofNat 64 o.kSkipped := by
  have hmmas : ∀ (z : Floe) y, (z.setBank b y).mmas = z.mmas ∧ (z.setBank b y).skipKunits = z.skipKunits := fun z y => by
    obtain ⟨p, q, h⟩ := z.setBank_fields b y
    rw [h]
    exact ⟨rfl, rfl⟩
  unfold Floe.endProducts
  split
  · exact hmmas ..
  · exact hmmas ..
variable {o}
/-- With DRAIN 0 the sums stay in the bank, and the MMA ends. -/
theorem Floe.endProducts_stays (h : mmaDrain o.w = false) :
    (x.endProducts o r b).bank b = { x.bank b with vals := (tileRows o (x.bank b)).1, block := (tileRows o (x.bank b)).2 }
    ∧ (x.endProducts o r b).drains = x.drains ∧ (x.endProducts o r b).mmaCount = x.mmaCount + 1 := by
  have hdrains : ∀ (z : Floe) y, (z.setBank b y).drains = z.drains ∧ (z.setBank b y).mmaCount + 1 = z.mmaCount + 1 := fun z y => by
    obtain ⟨p, q, h⟩ := z.setBank_fields b y
    rw [h]
    exact ⟨rfl, rfl⟩
  unfold Floe.endProducts
  rw [h]
  exact ⟨Floe.bank_setBank .., hdrains ..⟩
/-- With DRAIN 1 they begin to drain. -/
theorem Floe.endProducts_drains (h : mmaDrain o.w = true) :
    (x.endProducts o r b).bank b = { x.bank b with vals := [], block := none } ∧ (x.endProducts o r b).mmaCount = x.mmaCount
    ∧ (x.endProducts o r b).drains = x.drains ++ [{ sp := mmaSp o.w, bank := b, stream := o.stream, tag := fld o.w 30 23,
                                                    mb := mmaMb o.w, nb := mmaNb o.w, rows := (tileRows o (x.bank b)).1 }] := by
  have hcount : ∀ (z : Floe) y, (z.setBank b y).mmaCount = z.mmaCount := fun z y => by
    obtain ⟨p, q, h⟩ := z.setBank_fields b y
    rw [h]
  unfold Floe.endProducts
  rw [h]
  exact ⟨Floe.bank_setBank .., hcount .., rfl⟩
end

end Sys2Proof.Machine

open Sys2Proof Sys2Proof.Machine

/-- Settles O15: the first drained tile of the bank, or else its oldest MMA, decides what replaces the floe. -/
theorem mmaCompletes : Obligations.MmaCompletes := by
  unfold Obligations.MmaCompletes
  refine fun f bank s _ => ⟨fun before after d hdrains hbank hall hbefore => ?_, fun before after o hdrains hmmas hbank hbefore hread => ?_⟩
  · refine ⟨_, exec_mmaComplete_drained hdrains hbank hall hbefore, State.setFloe_onlyFloe .., ?_⟩
    rw [State.floe_setFloe]
    obtain ⟨p, q, hkeeps⟩ := (s.floe f).endDrain_keeps d.sp (before ++ after) bank
    obtain ⟨hfree, hstays⟩ := (s.floe f).endDrain_bank d.sp (before ++ after) bank
    refine ⟨?_, ?_, ?_, Floe.endDrain_bank_other .., hfree, hstays⟩
    all_goals rw [hkeeps]; rfl
  · refine ⟨_, exec_mmaComplete_product hdrains hmmas hbank hbefore hread, State.setFloe_onlyFloe .., ?_⟩
    rw [State.floe_setFloe]
    obtain ⟨hrest, hskip⟩ := (s.floe f).endProducts_keeps o (before ++ after) bank
    exact ⟨hrest, hskip, fun h => Floe.endProducts_stays _ _ _ h, fun h => Floe.endProducts_drains _ _ _ h⟩
end

section
/-! SUPPORT. The units read their sources and complete: what their memory accesses leave of the floes, and the counts that end (spec/06 R177, R186, spec/05 R149, spec/07 R203 to R208, R222). -/

namespace Sys2Proof.Machine

/-! ## What accesses leave of the floes -/

theorem State.writeMem_marksFloes (s : State) (who : Option Nat) (errs : Errs) (a : Nat) (l : List Byte) : MarksFloes s (s.writeMem who errs a l).1 := by
  unfold State.writeMem
  split
  · exact .of_floes rfl
  · exact (s.openUnits_marksFloes ..).trans (.ite (.refl _) (.of_floes rfl))
theorem State.noteEnded_marksFloes (s : State) (who : Option Nat) (ended : List (Nat × Nat)) (errs : Errs) (a n : Nat) :
    MarksFloes s (s.noteEnded who ended errs a n) := by
  unfold State.noteEnded
  exact .ite (s.noteRange_marksFloes ..) (.each (fun s b => s.noteUnit_marksFloes ..) _ s)
theorem State.writeEnded_marksFloes (s : State) (who : Option Nat) (ended : List (Nat × Nat)) (errs : Errs) (a : Nat) (l : List Byte) :
    MarksFloes s (s.writeEnded who ended errs a l) := by
  unfold State.writeEnded
  exact .ite (s.writeMem_marksFloes ..) (.each (fun s b => s.writeMem_marksFloes ..) _ s)
theorem State.putOcc_marksFloes (s : State) (f : Nat) (d : Desc) (b : Nat) (v : Bool) : MarksFloes s (s.putOcc f d b v) := s.put_marksFloes ..
theorem State.countErr_marksFloes (s : State) (die page : Nat) : MarksFloes s (s.countErr die page) :=
  .of_floes ((State.countErr_touch (Sub.refl _) s die page (.refl _ s)).floes rfl)
theorem State.countMalformed_marksFloes (s : State) (f n : Nat) : MarksFloes s (s.countMalformed f n) := .each (fun s _ => s.countErr_marksFloes ..) _ s
theorem State.writeBlock_marksFloes (s : State) (f : Nat) (d : Desc) (sr : Bool) (br bc : Nat) (rows : List (List FVal)) :
    MarksFloes s (s.writeBlock f d sr br bc rows).1 := by
  unfold State.writeBlock
  dsimp only
  split
  · exact (s.put_marksFloes ..).trans (State.markOcc_marksFloes ..)
  · exact ((s.put_marksFloes ..).trans (State.put_marksFloes ..)).trans (State.markOcc_marksFloes ..)
theorem State.writeBsBlock_marksFloes (s : State) (f : Nat) (d : Desc) (br bc : Nat) (rows : List (List FVal)) :
    MarksFloes s (s.writeBsBlock f d br bc rows).1 :=
  (MarksFloes.each (fun s _ => s.put_marksFloes ..) _ s).trans (State.markOcc_marksFloes ..)
/-- A fold whose first part is a device keeps what each of its steps keeps. -/
theorem foldl_marksFloes {α β : Type} {g : State × β → α → State × β} (h : ∀ a x, MarksFloes a.1 (g a x).1) (l : List α) (a : State × β) :
    MarksFloes a.1 (l.foldl g a).1 := by
  induction l generalizing a with
  | nil => exact .refl _
  | cons x r ih => exact (h a x).trans (ih (g a x))
theorem State.sink_marksFloes (s : State) (f : Nat) (o : PassOp) (rows : List (List (Option F32))) : MarksFloes s (s.sink f o rows).1 := by
  unfold State.sink
  refine foldl_marksFloes (fun a p => ?_) _ (s, false, false)
  dsimp only
  split
  · exact State.writeBsBlock_marksFloes ..
  · exact State.writeBlock_marksFloes ..
theorem MarksFloes.ofPair {β : Type} {s t : State} {r : State × β} {x : β} (e : r = (t, x)) (h : MarksFloes s r.1) : MarksFloes s t := by rwa [e] at h
theorem State.updWrite_marksFloes (s : State) (f : Nat) (o : UpdOp) (br bc : Nat) (rows : List (List UpdEl)) : MarksFloes s (s.updWrite f o br bc rows).1 := by
  unfold State.updWrite
  extract_lets ws
  split
  next s1 n0 h1 =>
  extract_lets s2
  split
  next s3 n2 h3 =>
  split
  next s4 n3 h4 =>
  split
  next s5 n4 h5 =>
  have hk1 : MarksFloes s s1 := .ofPair h1 (s.writeBlock_marksFloes ..)
  have hk2 : MarksFloes s1 s2 := (s1.put_marksFloes ..).trans (State.markOcc_marksFloes ..)
  have hk3 : MarksFloes s2 s3 := .ofPair h3 (s2.writeBlock_marksFloes ..)
  have hk5 : MarksFloes s4 s5 := .ofPair h5 (s4.writeBlock_marksFloes ..)
  have hk4 : MarksFloes s3 s4 := by
    refine .ofPair h4 ?_
    dsimp only
    split
    · exact ((s3.put_marksFloes ..).trans (State.put_marksFloes ..)).trans (State.markOcc_marksFloes ..)
    · exact .refl s3
  exact (((hk1.trans hk2).trans hk3).trans hk4).trans hk5

/-! ## Sources read -/

section
variable {f : Nat} {errs : Errs} {s : State}

/-- The array reads the operands of an MMA: its readers end, and a draining MMA's bank is DRAINING. -/
theorem mmaRead_spec (s : State) (f : Nat) (errs : Errs) (o : MmaOp) :
    ∃ u, MarksFloes s u ∧ u.mem = s.mem ∧ (s.mmaRead f errs o).1 = u.setFloe f ((u.floe f).readMma o.w) := by
  refine ⟨s.each (s.mmaRanges o) (fun s r => s.noteRange (some f) errs r.1 r.2), .each (fun s r => s.noteRange_marksFloes ..) _ s, ?_, rfl⟩
  exact (State.each_touch (fun t r ht => State.noteRange_touch (Sub.refl _) t (some f) errs r.1 r.2 ht) (.refl _ s)).mem rfl
theorem MarksFloes.endReaders {s t : State} (h : MarksFloes s t) (f : Nat) (l : List Nat) : ((t.floe f).endReaders l).tags = ((s.floe f).endReaders l).tags :=
  Floe.endReaders_tags_congr (h.tags f) l
theorem takeWhile_before {α : Type} {g : α → Bool} {before after : List α} {a : α} (hbefore : ∀ e ∈ before, g e = false) (ha : g a = true) :
    (before ++ a :: after).takeWhile (fun e => !g e) = before := by
  rw [List.takeWhile_append_of_pos (fun e he => by simp [hbefore e he]), List.takeWhile_cons_of_neg (by simp [ha]), List.append_nil]
theorem exec_readersReleased_array {bank : Nat} {before after : List MmaOp} {o : MmaOp} (hmmas : (s.floe f).mmas = before ++ o :: after)
    (hbank : mmaBank o.w = bank) (hread : o.readDone = false) (hbefore : ∀ e ∈ before, ¬ (mmaBank e.w = bank ∧ e.readDone = false)) :
    let r := s.mmaRead f errs o
    exec (.readersReleased f (.array bank) errs) s = .next (r.1.setFloe f { r.1.floe f with mmas := before ++ r.2 :: after }) := by
  have harm : exec (.readersReleased f (.array bank) errs) s = execReadersReleased f (.array bank) errs s := rfl
  have hpass : ∀ e ∈ before, (mmaBank e.w == bank && !e.readDone) = false := fun e he => by simpa using hbefore e he
  have ho : (mmaBank o.w == bank && !o.readDone) = true := by simp [hbank, hread]
  have htake := takeFirst_append (g := fun o : MmaOp => mmaBank o.w == bank && !o.readDone) (before := before) (after := after) (a := o) hpass ho
  obtain ⟨u, hu, -, hread⟩ := mmaRead_spec s f errs o
  have hkept : ((s.mmaRead f errs o).1.floe f).mmas = before ++ o :: after := by
    rw [hread, State.floe_setFloe, Floe.readMma_mmas, ← hmmas]
    exact (congrArg Floe.mmas (hu.floe f) :)
  have hdrop : (before ++ o :: after).drop (before.length + 1) = after := by simp [List.drop_append]
  rw [harm, execReadersReleased]
  dsimp only
  rw [hmmas, htake]
  dsimp only
  rw [hkept, takeWhile_before (g := fun o : MmaOp => mmaBank o.w == bank && !o.readDone) hpass ho, hdrop]
theorem exec_readersReleased_vector {o : PassOp} (hvu : (s.floe f).vu = .pass o) (hread : o.readDone = false) (htile : (s.floe f).tileWhole o.w = true) :
    exec (.readersReleased f .vector errs) s = .next (s.passRead f errs o) := by
  have harm : exec (.readersReleased f .vector errs) s = execReadersReleased f .vector errs s := rfl
  simp only [harm, execReadersReleased, hvu, hread, htile, Bool.not_true, Bool.or_self, Bool.false_eq_true, if_false]
/-- The vector engine reads the sources of a pass. -/
theorem passRead_spec (s : State) (f : Nat) (errs : Errs) (o : PassOp) :
    ∃ u o1, MarksFloes s u ∧ o1.readDone = true ∧ o1.w = o.w ∧ o1.dDst = o.dDst
      ∧ s.passRead f errs o = u.setFloe f { (u.floe f).endReaders (readersOf (passReads o.w) (passWrites o.w)) with vu := .pass o1 } := by
  unfold State.passRead
  extract_lets mb nb all src ops ranges s1 x o1
  exact ⟨s1, o1, (MarksFloes.each (fun s r => s.noteRange_marksFloes ..) _ s).trans (State.countMalformed_marksFloes ..), rfl, rfl, rfl, rfl⟩
theorem exec_readersReleased_transfer {before after : List XferOp} {o : XferOp} (hxfers : (s.floe f).xfers = before ++ o :: after)
    (hread : o.readDone = false) (hheld : s.planesHeld o.dSrc = false) (hbefore : ∀ e ∈ before, ¬ (xferDst e.w = xferDst o.w ∧ e.readDone = false)) :
    let r := s.xferRead f errs o
    exec (.readersReleased f (.transfer (xferDst o.w)) errs) s = .next (r.1.setFloe f { r.1.floe f with xfers := before ++ after ++ [r.2] }) := by
  have harm : exec (.readersReleased f (.transfer (xferDst o.w)) errs) s = execReadersReleased f (.transfer (xferDst o.w)) errs s := rfl
  have htake := takeFirst_append (g := fun e : XferOp => xferDst e.w == xferDst o.w && !e.readDone) (before := before) (after := after) (a := o)
    (fun e he => by simpa using hbefore e he) (by simp [hread])
  rw [harm, execReadersReleased]
  dsimp only
  rw [hxfers, htake]
  dsimp only
  rw [hheld]
  rfl
theorem exec_readersReleased_push {o : StashOp} (hpush : (s.floe f).push = some o) (hread : o.readDone = false) :
    exec (.readersReleased f .push errs) s = .next (s.pushRead f errs o) := by
  have harm : exec (.readersReleased f .push errs) s = execReadersReleased f .push errs s := rfl
  simp only [harm, execReadersReleased, hpush, hread, Bool.false_eq_true, if_false]

/-! ## Completions -/

theorem MarksFloes.endWriters {s t : State} (h : MarksFloes s t) (f : Nat) (l : List Nat) : ((t.floe f).endWriters l).tags = ((s.floe f).endWriters l).tags :=
  Floe.endWriters_tags_congr (h.tags f) l
theorem exec_vecPassComplete {o : PassOp} (hvu : (s.floe f).vu = .pass o) (hready : (s.floe f).passReady o = true) :
    exec (.vecPassComplete f) s = .next (s.passComplete f o) := by
  have harm : exec (.vecPassComplete f) s = execVecPassComplete f s := rfl
  simp only [harm, execVecPassComplete, hvu, hready, if_true]
/-- What a completed pass leaves: the engine idle, its pass counted, its writer ended; a reduction changes nothing but the floe. -/
theorem passComplete_spec (s : State) (f : Nat) (o : PassOp) :
    ∃ u z, MarksFloes s u ∧ z.vu = .idle ∧ z.vecCount = (u.floe f).vecCount + 1 ∧ z.tags = ((u.floe f).endWriters (passWrites o.w)).tags
      ∧ (s.passComplete f o = u.setFloe f z ∨ s.passComplete f o = (u.setFloe f z).recordNf f)
      ∧ (passIsRed o.w = true → s.passComplete f o = s.setFloe f z) := by
  unfold State.passComplete
  extract_lets n src lanes vals fl
  split
  next s1 sat stored hsink =>
  have hmarks : MarksFloes s s1 := by
    split at hsink
    · cases hsink; exact .refl s
    · exact .ofPair hsink (s.sink_marksFloes ..)
  extract_lets g x y src1 x1 s2
  refine ⟨s1, x1, hmarks, rfl, rfl, Floe.endWriters_tags_congr (Floe.setStream_tags ..) _, ?_, fun hred => ?_⟩
  · split
    · exact .inr rfl
    · exact .inl rfl
  · rw [if_pos hred] at hsink
    cases hsink
    rw [if_neg (by simp [hred])]

theorem exec_gatePackComplete {o : CondOp} (hvu : (s.floe f).vu = .cond o) :
    exec (.gatePackComplete f errs) s = .next ((s.condRun f errs o).setFloe f
      { (((s.condRun f errs o).floe f).endReaders (readersOf (condReads o.w) (condWrites o.w))).endWriters (condWrites o.w) with vu := .idle }) := by
  have harm : exec (.gatePackComplete f errs) s = execGatePackComplete f errs s := rfl
  simp only [harm, execGatePackComplete, hvu]
theorem MarksFloes.vecCount {s t : State} (h : MarksFloes s t) (f : Nat) : (t.floe f).vecCount = (s.floe f).vecCount := (congrArg Floe.vecCount (h.floe f) :)
theorem MarksFloes.pushCount {s t : State} (h : MarksFloes s t) (f : Nat) : (t.floe f).pushCount = (s.floe f).pushCount := (congrArg Floe.pushCount (h.floe f) :)
theorem MarksFloes.gateTokens {s t : State} (h : MarksFloes s t) (f : Nat) : (t.floe f).gateTokens = (s.floe f).gateTokens :=
  (congrArg Floe.gateTokens (h.floe f) :)
/-- GATE.TOPK keeps the tags and counts its tokens. -/
theorem gateRun_floe (s : State) (f : Nat) (errs : Errs) (o : CondOp) :
    ((s.gateRun f errs o).floe f).tags = (s.floe f).tags
      ∧ ((s.gateRun f errs o).floe f).gateTokens = (s.floe f).gateTokens + BitVec.ofNat 64 (gateN o.w) := by
  unfold State.gateRun
  extract_lets n recs s1 s2 k x s3
  have hmarks : MarksFloes s s2 := (MarksFloes.each (fun s r => s.noteRange_marksFloes ..) _ s).trans (s1.put_marksFloes ..)
  have hlast : MarksFloes s3 (if k = 0 then s3 else s3.recordNf f) := .ite (.refl s3) (s3.recordNf_marksFloes f)
  have htags : (s3.floe f).tags = (s.floe f).tags := by rw [State.floe_setFloe]; exact hmarks.tags f
  have htokens : (s3.floe f).gateTokens = (s.floe f).gateTokens + BitVec.ofNat 64 n := by
    rw [← hmarks.gateTokens f, State.floe_setFloe]
  exact ⟨(hlast.tags f).trans htags, (hlast.gateTokens f).trans htokens⟩
/-- Each of the conditional instructions keeps the tags. -/
theorem condRun_tags (s : State) (f : Nat) (errs : Errs) (o : CondOp) : ((s.condRun f errs o).floe f).tags = (s.floe f).tags := by
  unfold State.condRun
  split
  · exact (gateRun_floe s f errs o).1
  · split
    · unfold State.assignRun
      extract_lets a s1 s2 x
      have hmarks : MarksFloes s s2 := (s.noteRange_marksFloes ..).trans (.each (fun s e => s.put_marksFloes ..) _ _)
      rw [State.floe_setFloe]
      exact hmarks.tags f
    · unfold State.packRun
      extract_lets rows s1
      split
      next s2 nf hfold =>
      have hblocks : MarksFloes s1 s2 := by
        refine .ofPair hfold (foldl_marksFloes (fun a e => ?_) _ (s1, false))
        refine foldl_marksFloes (fun a bc => ?_) _ a
        exact State.writeBlock_marksFloes ..
      have hmarks : MarksFloes s s2 := (MarksFloes.each (fun s r => s.noteRange_marksFloes ..) _ s).trans hblocks
      exact (hmarks.trans (.ite (s2.recordNf_marksFloes f) (.refl s2))).tags f
theorem endReaders_endWriters_tags {x y : Floe} (h : y.tags = x.tags) (l m : List Nat) : ((y.endReaders l).endWriters m).tags = ((x.endReaders l).endWriters m).tags :=
  Floe.endWriters_tags_congr (Floe.endReaders_tags_congr h l) m
theorem exec_xferComplete {before after : List XferOp} {o : XferOp} (hxfers : (s.floe f).xfers = before ++ o :: after)
    (hread : o.readDone = true) (hheld : s.planesHeld o.dDst = false) (hbefore : ∀ e ∈ before, ¬ (xferDst e.w = xferDst o.w ∧ e.readDone = true)) :
    ∃ u, MarksFloes s u ∧ exec (.xferComplete f (xferDst o.w) errs) s = .next (u.setFloe f { (u.floe f).endWriters [xferDst o.w] with xfers := before ++ after }) := by
  have harm : exec (.xferComplete f (xferDst o.w) errs) s = execXferComplete f (xferDst o.w) errs s := rfl
  have htake := takeFirst_append (g := fun e : XferOp => xferDst e.w == xferDst o.w && e.readDone) (before := before) (after := after) (a := o)
    (fun e he => by simpa using hbefore e he) (by simp [hread])
  rw [harm, execXferComplete]
  dsimp only
  rw [hxfers, htake]
  dsimp only
  rw [hheld, if_neg Bool.false_ne_true]
  exact ⟨_, (MarksFloes.each (fun s e => s.writeEnded_marksFloes ..) _ s).trans (.each (fun s e => s.putOcc_marksFloes ..) _ _), rfl⟩
theorem pushDone_spec (s : State) (f : Nat) (errs : Errs) (o : StashOp) :
    ∃ u, MarksFloes s u ∧ s.pushDone f errs o = u.setFloe f { u.floe f with push := none, pushCount := (u.floe f).pushCount + 1 } := by
  unfold State.pushDone
  extract_lets x a s1 z
  exact ⟨s1, .ite (.refl s) (.each (fun s e => s.writeEnded_marksFloes ..) _ s), rfl⟩
theorem exec_stashCopyComplete_push {o : StashOp} (hpush : (s.floe f).push = some o) (hread : o.readDone = true)
    (hheld : s.memHeld ((s.floe f).stashAddr f o.entry.tier o.stack o.entry.off) o.entry.fp = false) :
    exec (.stashCopyComplete f false errs) s = .next (s.pushDone f errs o) := by
  have harm : exec (.stashCopyComplete f false errs) s = execStashCopyComplete f false errs s := rfl
  simp only [harm, execStashCopyComplete, hpush, hread, hheld, Bool.not_false, Bool.and_self, if_true]
theorem popDone_spec (s : State) (f : Nat) (errs : Errs) (o : StashOp) :
    ∃ u, MarksFloes s u ∧ s.popDone f errs o = u.setFloe f { (u.floe f).endWriters [o.tag] with pop := none } := by
  unfold State.popDone
  extract_lets x a gone s1 s2
  have hread : MarksFloes s s1 := .ite (s.recordNf_marksFloes f) (.each (fun s p => s.noteEnded_marksFloes ..) _ s)
  exact ⟨s2, hread.trans (.each (fun s e => s.writeEnded_marksFloes ..) _ s1), rfl⟩
theorem exec_stashCopyComplete_pop {o : StashOp} (hpop : (s.floe f).pop = some o)
    (hheld : s.memHeld ((s.floe f).stashAddr f o.entry.tier o.stack o.entry.off) o.entry.fp = false) :
    exec (.stashCopyComplete f true errs) s = .next (s.popDone f errs o) := by
  have harm : exec (.stashCopyComplete f true errs) s = execStashCopyComplete f true errs s := rfl
  simp only [harm, execStashCopyComplete, hpop, hheld, Bool.false_eq_true, if_false]

/-! ### An update completes -/

/-- A floe but for what it has sent to its buddy. -/
def Floe.unsent (x : Floe) : Floe := { x with mirTx := {} }
/-- Sending to the buddy leaves all of the floes but that. -/
theorem mirrorOut_unsent (s : State) (p f : Nat) (l : List (Nat × Nat × Nat × Nat)) (g : Nat) : ((s.mirrorOut p f l).floe g).unsent = (s.floe g).unsent := by
  unfold State.mirrorOut
  refine State.each_keeps (v := fun s => (s.floe g).unsent) (fun t r => ?_) l s
  dsimp only
  rw [State.floe_of_floes ((State.sendMirror_touch (Sub.refl _) _ p f r (.refl _ _)).floes rfl)]
  exact State.setFloe_keeps (π := Floe.unsent) (by rfl) g
theorem tellMirror_unsent (s : State) (p f g : Nat) : ((s.tellMirror p f).floe g).unsent = (s.floe g).unsent := by
  unfold State.tellMirror
  dsimp only
  split
  · rfl
  · rw [State.floe_of_floes ((State.sendTo_touch (Sub.refl _) _ _ _ _ (.refl _ _)).floes rfl)]
    exact State.setFloe_keeps (π := Floe.unsent) (by rfl) g
theorem updSettled_unsent (s : State) (p f g : Nat) : ((s.updSettled p f).floe g).unsent = (s.floe g).unsent := by
  unfold State.updSettled
  dsimp only
  split
  · exact tellMirror_unsent ..
  · rfl
theorem exec_updComplete {o : UpdOp} (hvu : (s.floe f).vu = .upd o) (hg : s.planesHeld o.dG = false) (hall : ∀ e ∈ o.cur ++ o.alt, s.planesHeld e.2 = false) :
    exec (.updComplete f errs) s = .next (s.updRun f errs o) := by
  have harm : exec (.updComplete f errs) s = execUpdComplete f errs s := rfl
  have hcur : o.cur.any (fun e => s.planesHeld e.2) = false := List.any_eq_false.mpr fun e he => by simp [hall e (List.mem_append_left _ he)]
  have halt : o.alt.any (fun e => s.planesHeld e.2) = false := List.any_eq_false.mpr fun e he => by simp [hall e (List.mem_append_right _ he)]
  simp only [harm, execUpdComplete, hvu, hg, hcur, halt, Bool.or_self, Bool.false_eq_true, if_false]
/-- Floes that differ in records, error counts and what goes to the buddy at most agree in the rest. -/
theorem floe_of_unsent {x z : Floe} (h : x.unsent.unmarked = z.unsent.unmarked) :
    x.vu = z.vu ∧ x.updElements = z.updElements ∧ x.tags = z.tags ∧ ∀ st, x.stream st = z.stream st := by
  refine ⟨(congrArg Floe.vu h :), (congrArg Floe.updElements h :), (congrArg Floe.tags h :), fun st => ?_⟩
  have hstream := congrArg (Floe.stream · st) h
  cases st <;> exact hstream
theorem endReaders_endWriters_eq (x : Floe) (l m : List Nat) : (x.endReaders l).endWriters m = { x with tags := ((x.endReaders l).endWriters m).tags } := by
  rw [Floe.endWriters_eq, Floe.endReaders_eq]
/-- The scalar result of an update arrives at its register. -/
theorem endPend_setReg_pend (y : StreamSt) (r : Nat) (v : DWord) : ((y.setReg r v).endPend r).pend = y.pend.erase r := by
  rw [StreamSt.setReg_eq]; rfl
/-- What a completed update leaves of its floe, but for its record, its error counts and what goes to the buddy. -/
theorem updRun_floe (s : State) (f : Nat) (errs : Errs) (o : UpdOp) :
    let x := s.floe f
    let alt := updAlt o.w x.ppCount.toNat
    ∃ z : Floe, ((s.updRun f errs o).floe f).unsent.unmarked = z.unsent.unmarked
      ∧ z.vu = .idle ∧ z.updElements = x.updElements + BitVec.ofNat 64 (1024 * updMb o.w * updNb o.w)
      ∧ z.tags = ((x.endReaders (readersOf (updG o.w :: updCur o.w) alt)).endWriters alt).tags
      ∧ (updNreg o.w ≠ 0 → (z.stream o.stream).pend = (x.stream o.stream).pend.erase (updNreg o.w)) := by
  intro x0 alt0
  unfold State.updRun
  extract_lets mb nb blocks rows s1 s2
  split
  next s3 nf0 hfold =>
  have hmarks : MarksFloes s s3 := by
    have hread : MarksFloes s s2 := (MarksFloes.each (fun s r => s.noteRange_marksFloes ..) _ s).trans (s1.countMalformed_marksFloes ..)
    refine hread.trans (.ofPair hfold (foldl_marksFloes (fun a b => ?_) _ (s2, false)))
    exact State.updWrite_marksFloes ..
  extract_lets nf x y y1 alt x1 s4 s5
  have hmarks5 : MarksFloes s4 s5 := .ite (s4.recordNf_marksFloes f) (.refl s4)
  have hcount : x.ppCount = x0.ppCount := (congrArg Floe.ppCount (hmarks.floe f) :)
  have halt : alt = alt0 := congrArg (fun c : BitVec 8 => updAlt o.w c.toNat) hcount
  have hstream : y = x0.stream o.stream := hmarks.stream f o.stream
  have hx1 : x1 = { x.setStream o.stream y1 with tags := x1.tags } := endReaders_endWriters_eq ..
  have hset : x1.updElements = x.updElements ∧ x1.stream o.stream = y1 := by
    obtain ⟨a, b, c, hfields⟩ := x.setStream_fields o.stream y1
    refine ⟨by rw [hx1, hfields], ?_⟩
    rw [hx1]
    exact Floe.setStream_stream ..
  obtain ⟨helements, hreg⟩ := hset
  have hz : ∀ u, s4 = s3.setFloe f u → s4.floe f = u := fun u hu => by rw [hu, State.floe_setFloe]
  refine ⟨s4.floe f, ?_, ?_⟩
  · have hlast : ∀ u : State, (u.floe f).unsent = (s5.floe f).unsent → (u.floe f).unsent.unmarked = (s4.floe f).unsent.unmarked := fun u hu => by
      rw [hu]
      exact congrArg Floe.unsent (hmarks5.floe f)
    split
    · exact hlast s5 rfl
    · refine hlast _ ((updSettled_unsent ..).trans ?_)
      split
      · exact mirrorOut_unsent ..
      · rfl
  · rw [hz _ rfl]
    refine ⟨rfl, ?_, ?_, fun hreg0 => ?_⟩
    · show x1.updElements + _ = _
      rw [helements]
      exact congrArg (· + _) (congrArg Floe.updElements (hmarks.floe f) :)
    · show x1.tags = _
      rw [← halt]
      exact endReaders_endWriters_tags ((Floe.setStream_tags ..).trans (hmarks.tags f)) ..
    · have hstreams : ∀ (u : Floe) v e vf nf, ({ u with vu := v, updElements := e, vflags := vf, vecNf := nf } : Floe).stream o.stream = u.stream o.stream :=
        fun u _ _ _ _ => by cases o.stream <;> rfl
      rw [hstreams, hreg]
      show (if updNreg o.w = 0 then y else _).pend = _
      rw [if_neg hreg0, endPend_setReg_pend, hstream]

end

end Sys2Proof.Machine

open Sys2Proof Sys2Proof.Machine

/-- Settles O17: reads and writes of memory leave of the floes all but records and error counts, so what a unit's step leaves of its floe is what its last part puts there. That a draining MMA's bank is DRAINING once its readers are released is log 108's choice. -/
theorem readersReleaseAndUnitsComplete : Obligations.ReadersReleaseAndUnitsComplete := by
  unfold Obligations.ReadersReleaseAndUnitsComplete
  refine ⟨fun f errs s => ?_, fun f errs s => ?_⟩
  · intro x
    refine ⟨fun bank before after o hmmas hbank hread hbefore => ?_, fun o hvu hread htile => ?_, fun before after o hxfers hread hheld hbefore => ?_,
      fun o hpush hread => ?_⟩
    · obtain ⟨u, hmarks, hmem, hspec⟩ := mmaRead_spec s f errs o
      refine ⟨_, (s.mmaRead f errs o).2, exec_readersReleased_array hmmas hbank hread hbefore, ?_⟩
      rw [hspec, State.floe_setFloe, State.floe_setFloe]
      refine ⟨hmem, rfl, rfl, rfl, fun hbf => ?_, fun hbf => ?_, rfl, fun hdrain => ?_, ?_⟩
      · exact ⟨if_pos (by simp [hbf]), if_pos (by simp [hbf])⟩
      · exact ⟨if_neg (by simp [hbf]), if_neg (by simp [hbf])⟩
      · have hb := congrArg Bank.st ((u.floe f).readMma_bank o.w)
        rw [hdrain, hbank] at hb
        exact hb
      · obtain ⟨p, q, hkeeps⟩ := (u.floe f).readMma_keeps o.w
        rw [hkeeps]
        exact hmarks.endReaders f _
    · obtain ⟨u, o1, hmarks, hdone, hw, hdst, hspec⟩ := passRead_spec s f errs o
      refine ⟨_, o1, exec_readersReleased_vector hvu hread htile, (State.passRead_touch (Sub.refl _) s f errs o (.refl _ s)).mem rfl, ?_⟩
      rw [hspec, State.floe_setFloe]
      exact ⟨rfl, hdone, hw, hdst, hmarks.endReaders f _⟩
    · refine ⟨_, exec_readersReleased_transfer hxfers hread hheld hbefore, (State.xferRead_touch (Sub.refl _) s f errs o (.refl _ s)).mem rfl, ?_⟩
      rw [State.floe_setFloe]
      refine ⟨rfl, ?_⟩
      have hmarks : MarksFloes s (s.each (xferReads o.w o.dSrc) (fun s r => s.noteEnded (some f) o.ended errs r.1 r.2)) :=
        .each (fun s r => s.noteEnded_marksFloes ..) _ s
      rw [State.xferRead, State.floe_setFloe]
      exact hmarks.endReaders f _
    · refine ⟨_, exec_readersReleased_push hpush hread, (State.pushRead_touch (Sub.refl _) s f errs o (.refl _ s)).mem rfl, ?_⟩
      have hmarks : MarksFloes s (s.each (stashPlanes o.d) (fun s p => s.noteEnded (some f) o.ended errs p.2.1 p.2.2)) :=
        .each (fun s p => s.noteEnded_marksFloes ..) _ s
      rw [State.pushRead, State.floe_setFloe]
      exact ⟨rfl, hmarks.endReaders f _⟩
  · intro x
    refine ⟨fun o hvu hready => ?_, fun o hvu => ?_, fun o hvu hg hall => ?_, fun before after o hxfers hread hheld hbefore => ?_,
      fun o hpush hread hheld => ?_, fun o hpop hheld => ?_⟩
    · obtain ⟨u, z, hmarks, hvu', hcount, htags, hspec, hred⟩ := passComplete_spec s f o
      have hlast : MarksFloes (u.setFloe f z) (s.passComplete f o) := by
        rcases hspec with h | h
        · rw [h]; exact .refl _
        · rw [h]; exact State.recordNf_marksFloes ..
      have hfloe := hlast.floe f
      rw [State.floe_setFloe] at hfloe
      refine ⟨_, exec_vecPassComplete hvu hready, ?_, ?_, ?_, fun h => ?_⟩
      · exact (congrArg Floe.vu hfloe :).trans hvu'
      · refine (congrArg Floe.vecCount hfloe :).trans (hcount.trans ?_)
        rw [hmarks.vecCount f]
      · exact (congrArg Floe.tags hfloe :).trans (htags.trans (hmarks.endWriters f _))
      · rw [hred h]
        exact ⟨rfl, State.setFloe_onlyFloe ..⟩
    · refine ⟨_, exec_gatePackComplete hvu, ?_⟩
      rw [State.floe_setFloe]
      refine ⟨rfl, endReaders_endWriters_tags (condRun_tags s f errs o) .., fun hop => ?_⟩
      have hgate : s.condRun f errs o = s.gateRun f errs o := if_pos hop
      rw [hgate, endReaders_endWriters_eq]
      exact (gateRun_floe s f errs o).2
    · obtain ⟨z, hfloe, hvu', helements, htags, hpend⟩ := updRun_floe s f errs o
      obtain ⟨hsamevu, hsameels, hsametags, hsamestream⟩ := floe_of_unsent hfloe
      refine ⟨_, exec_updComplete hvu hg hall, hsamevu.trans hvu', hsameels.trans helements, hsametags.trans htags, fun hreg => ?_⟩
      rw [State.stream, hsamestream, hpend hreg]
      rfl
    · obtain ⟨u, hmarks, hexec⟩ := exec_xferComplete (errs := errs) hxfers hread hheld hbefore
      refine ⟨_, hexec, ?_⟩
      rw [State.floe_setFloe]
      exact ⟨rfl, hmarks.endWriters f _⟩
    · obtain ⟨u, hmarks, hspec⟩ := pushDone_spec s f errs o
      refine ⟨_, exec_stashCopyComplete_push hpush hread hheld, ?_⟩
      rw [hspec, State.floe_setFloe]
      exact ⟨rfl, congrArg (· + 1) (hmarks.pushCount f)⟩
    · obtain ⟨u, hmarks, hspec⟩ := popDone_spec s f errs o
      refine ⟨_, exec_stashCopyComplete_pop hpop hheld, ?_⟩
      rw [hspec, State.floe_setFloe]
      exact ⟨rfl, hmarks.endWriters f _⟩
end

section
/-! SUPPORT. Heat and power: the hottest sensor of a sample, the thermal page of a die after it, the trip, and the level that a die takes (spec/15 R511 to R513, R521 to R525, spec/14 R475). -/

namespace Sys2Proof.Machine

/-! ## The hottest sensor in service -/

theorem numbered_sorted {α : Type} (k : Nat) (l : List α) : (numbered k l).Pairwise (fun a b => a.1 < b.1) ∧ ∀ e ∈ numbered k l, k ≤ e.1 := by
  induction l generalizing k with
  | nil => exact ⟨List.Pairwise.nil, fun e he => absurd he List.not_mem_nil⟩
  | cons a r ih =>
    obtain ⟨hsorted, hlow⟩ := ih (k + 1)
    refine ⟨List.pairwise_cons.mpr ⟨fun e he => hlow e he, hsorted⟩, fun e he => ?_⟩
    rcases List.mem_cons.mp he with rfl | he
    · exact Nat.le_refl k
    · exact Nat.le_of_succ_le (hlow e he)
theorem inService_sorted (ex : DWord) (temps : List Int) : (inService ex temps).Pairwise (fun a b => a.1 < b.1) :=
  (numbered_sorted 0 _).1.filter _
theorem hottest_mem {l : List (Nat × Int)} {h : Nat × Int} (hl : hottest l = some h) : h ∈ l := by
  induction l generalizing h with
  | nil => cases hl
  | cons e r ih =>
    rw [hottest] at hl
    split at hl
    case h_1 => exact List.mem_cons.mpr (.inl (Option.some.inj hl).symm)
    case h_2 g hg =>
      split at hl
      · exact List.mem_cons.mpr (.inl (Option.some.inj hl).symm)
      · exact List.mem_cons_of_mem _ (Option.some.inj hl ▸ ih hg)
/-- Of readings in the order of their sensors, the hottest is the first of the highest value. -/
theorem hottest_eq {l : List (Nat × Int)} (hl : l.Pairwise (fun a b => a.1 < b.1)) {k : Nat} {v : Int} (hmem : (k, v) ∈ l)
    (hmax : ∀ e ∈ l, e.2 < v ∨ e.2 = v ∧ k ≤ e.1) : hottest l = some (k, v) := by
  induction l with
  | nil => cases hmem
  | cons e r ih =>
    obtain ⟨hlow, hr⟩ := List.pairwise_cons.mp hl
    rcases List.mem_cons.mp hmem with rfl | hmem'
    · rw [hottest]
      split
      case h_1 => rfl
      case h_2 g hg =>
        have hle : g.2 ≤ v := by rcases hmax g (List.mem_cons_of_mem _ (hottest_mem hg)) with h | ⟨h, -⟩ <;> omega
        exact if_pos hle
    · have hlt : e.2 < v := by
        have hfst : e.1 < k := hlow (k, v) hmem'
        rcases hmax e List.mem_cons_self with h | ⟨-, h⟩
        · exact h
        · omega
      rw [hottest, ih hr hmem' fun e he => hmax e (List.mem_cons_of_mem _ he)]
      exact if_neg (by simpa using hlt)

/-! ## The thermal page after a sample (spec/15 R523, R524) -/

/-- The warning of a page at a reading. -/
def Therm.warn (x : Therm) (v : Int) : Therm :=
  if 95 * 16 ≤ v && !x.warned then { x with warned := true } else if v < 93 * 16 then { x with warned := false } else x
/-- The throttling of a page at a reading. -/
def Therm.throttle (x : Therm) (most : Nat) (v : Int) : Therm :=
  if 100 * 16 ≤ v then
    { (if x.hotRun % 10 = 0 then { x with hotLevel := min most (x.hotLevel + 1) } else x) with throttling := true, hotRun := x.hotRun + 1, coolRun := 0 }
  else if v ≤ 97 * 16 && x.throttling then
    let up := if (x.coolRun + 1) % 100 = 0 then x.hotLevel - 1 else x.hotLevel
    { x with hotRun := 0, coolRun := x.coolRun + 1, hotLevel := up, throttling := up != 0 }
  else { x with hotRun := 0, coolRun := 0 }

/-- From s to t the thermal page of a die becomes x; the other dies' pages, the power page and the variant are as they were. -/
structure ThermTo (die : Nat) (x : Therm) (s t : State) : Prop where
  self : t.therm die = x
  other : ∀ d, d ≠ die → t.therm d = s.therm d
  power : t.power = s.power
  variant : t.variant = s.variant
theorem ThermTo.setTherm (s : State) (die : Nat) (x : Therm) : ThermTo die x s (s.setTherm die x) :=
  ⟨s.therm_setTherm .., fun _ hd => s.therm_setTherm_ne _ hd, rfl, rfl⟩
theorem ThermTo.trans {die : Nat} {x y : Therm} {s t u : State} (h : ThermTo die x s t) (k : ThermTo die y t u) : ThermTo die y s u :=
  ⟨k.self, fun d hd => (k.other d hd).trans (h.other d hd), k.power.trans h.power, k.variant.trans h.variant⟩
theorem ThermTo.pages {die : Nat} {x : Therm} {s t : State} (h : ThermTo die x s t) : (∀ d, d ≠ die → t.therm d = s.therm d) ∧ t.therm die = x := ⟨h.other, h.self⟩
/-- What tells of it leaves the pages as they are. -/
theorem ThermTo.told {die : Nat} {x : Therm} {s t u : State} {m : Nat} (h : ThermTo die x s t) (k : Touch m t u) (htherms : m.testBit 23 = false)
    (hpower : m.testBit 24 = false) (hvariant : m.testBit 0 = false) : ThermTo die x s u := by
  have htherm : ∀ d, u.therm d = t.therm d := fun d => by rw [State.therm, State.therm, k.therms htherms]
  exact ⟨(htherm die).trans h.self, fun d hd => (htherm d).trans (h.other d hd), (k.power hpower).trans h.power, (k.variant hvariant).trans h.variant⟩

section
variable (s : State) (die k : Nat) (v : Int)

theorem State.warn_to : ThermTo die ((s.therm die).warn v) s (s.warn die k v) := by
  unfold State.warn Therm.warn
  dsimp only
  split
  · exact (ThermTo.setTherm ..).told (State.thermalEvent_touch (Sub.refl _) _ 1 die k (.refl _ _)) rfl rfl rfl
  · split
    · exact ThermTo.setTherm ..
    · exact ⟨rfl, fun _ _ => rfl, rfl, rfl⟩
theorem State.throttle_to : ThermTo die ((s.therm die).throttle s.maxLevel v) s (s.throttle die k v) := by
  unfold State.throttle Therm.throttle
  dsimp only
  by_cases hhot : 100 * 16 ≤ v
  · rw [if_pos hhot, if_pos hhot]
    cases (s.therm die).throttling
    · exact ((ThermTo.setTherm ..).told (State.thermalEvent_touch (Sub.refl _) _ 2 die k (.refl _ _)) rfl rfl rfl).told
        (State.raise_touch (Sub.refl _) _ die 0xB0 1 (.refl _ _)) rfl rfl rfl
    · exact ThermTo.setTherm ..
  · rw [if_neg hhot, if_neg hhot]
    by_cases hcool : (v ≤ 97 * 16 && (s.therm die).throttling) = true
    · rw [if_pos hcool, if_pos hcool]
      exact ThermTo.setTherm ..
    · rw [if_neg hcool, if_neg hcool]
      exact ThermTo.setTherm ..
/-- Beginning to throttle raises the page's flag. -/
theorem State.throttle_errStatus (hv : 1600 ≤ v) (h : (s.therm die).throttling = false) :
    ((s.throttle die k v).hdr die 0xB0).errStatus.getLsbD 1 = true := by
  unfold State.throttle
  dsimp only
  rw [if_pos (show 100 * 16 ≤ v from hv), h, if_neg Bool.false_ne_true]
  exact State.raise_errStatus _ _ _ (by decide)
end

/-- The page of a die after a sample whose hottest sensor k reads v. -/
def Therm.sampled (x : Therm) (most level : Nat) (hotSet : List Nat) (k : Nat) (v : Int) : Therm :=
  let y := ({ x with hotSet := hotSet, first := false, hot := ofInt16 v, sensor := BitVec.ofNat 6 k }.warn v).throttle most v
  { y with level := y.stage, target := max y.hotLevel level }

/-! ### What it holds -/

section
variable (x : Therm) (most level : Nat) (hotSet : List Nat) (k : Nat) (v : Int)

theorem Therm.warn_eq : x.warn v = { x with warned := decide (1520 ≤ v) || (x.warned && decide (1488 ≤ v)) } := by
  have hsame : ∀ b, b = x.warned → x = { x with warned := b } := fun b hb => by rw [hb]
  unfold Therm.warn
  by_cases hhigh : (1520 : Int) ≤ v
  · cases hw : x.warned
    · rw [if_pos (by simp [hhigh])]
      simp [hhigh]
    · rw [if_neg (by simp), if_neg (by omega)]
      exact hsame _ (by simp [hhigh, hw])
  · rw [if_neg (by simp [hhigh])]
    by_cases hlow : v < 93 * 16
    · rw [if_pos hlow]
      simp [hhigh, show ¬ (1488 : Int) ≤ v by omega]
    · rw [if_neg hlow]
      exact hsame _ (by simp [hhigh, show (1488 : Int) ≤ v by omega])
theorem Therm.throttle_keeps : ∃ a b c d, x.throttle most v = { x with hotRun := a, coolRun := b, hotLevel := c, throttling := d } := by
  unfold Therm.throttle
  by_cases hhot : 100 * 16 ≤ v
  · rw [if_pos hhot]
    split
    · exact ⟨_, _, _, _, rfl⟩
    · exact ⟨_, _, x.hotLevel, _, rfl⟩
  · rw [if_neg hhot]
    by_cases hcool : (v ≤ 97 * 16 && x.throttling) = true
    · rw [if_pos hcool]
      exact ⟨_, _, _, _, rfl⟩
    · rw [if_neg hcool]
      exact ⟨_, _, x.hotLevel, x.throttling, rfl⟩
theorem Therm.throttle_hot (hv : 1600 ≤ v) : (x.throttle most v).throttling = true ∧ (x.throttle most v).hotRun = x.hotRun + 1
    ∧ (x.throttle most v).hotLevel = if x.hotRun % 10 = 0 then min most (x.hotLevel + 1) else x.hotLevel := by
  unfold Therm.throttle
  rw [if_pos (show 100 * 16 ≤ v from hv)]
  refine ⟨rfl, rfl, ?_⟩
  split <;> rfl
theorem Therm.throttle_cool (hv : v ≤ 1552) (h : x.throttling = true) : (x.throttle most v).coolRun = x.coolRun + 1
    ∧ (x.throttle most v).hotLevel = if (x.coolRun + 1) % 100 = 0 then x.hotLevel - 1 else x.hotLevel := by
  unfold Therm.throttle
  rw [if_neg (show ¬ 100 * 16 ≤ v by omega), if_pos (by simp [h, hv])]
  exact ⟨rfl, rfl⟩
theorem Therm.throttle_between (hv : v < 1600) (h : ¬ (v ≤ 1552 ∧ x.throttling = true)) :
    (x.throttle most v).hotLevel = x.hotLevel ∧ (x.throttle most v).throttling = x.throttling := by
  unfold Therm.throttle
  rw [if_neg (show ¬ 100 * 16 ≤ v by omega), if_neg (by simpa using h)]
  exact ⟨rfl, rfl⟩
end

/-! ## The sample -/

/-- The sensors at or above 110.0 degrees. -/
def hotSensors (l : List (Nat × Int)) : List Nat := (l.filter (fun e => 110 * 16 ≤ e.2)).map (fun e => e.1)
theorem mem_hotSensors {l : List (Nat × Int)} {m : Nat} : m ∈ hotSensors l ↔ ∃ e ∈ l, e.1 = m ∧ 1760 ≤ e.2 := by
  simp only [hotSensors, List.mem_map, List.mem_filter, decide_eq_true_eq]
  exact ⟨fun ⟨e, ⟨he, hv⟩, hm⟩ => ⟨e, he, hm, hv⟩, fun ⟨e, he, hm, hv⟩ => ⟨e, ⟨he, hv⟩, hm⟩⟩
/-- The device with the hottest sensor k of a sample and its value shown. -/
def State.showHot (s : State) (die : Nat) (hotSet : List Nat) (k : Nat) (v : Int) : State :=
  s.setTherm die { s.therm die with hotSet := hotSet, first := false, hot := ofInt16 v, sensor := BitVec.ofNat 6 k }
/-- The device with the stage of a die's page shown. -/
def State.showStage (s : State) (die : Nat) : State := s.setTherm die { s.therm die with level := (s.therm die).stage }
/-- The device after a sample whose hottest sensor k reads v. -/
def State.takeSampleHeat (s : State) (die : Nat) (hotSet : List Nat) (k : Nat) (v : Int) : State :=
  ((((s.showHot die hotSet k v).warn die k v).throttle die k v).showStage die).retarget die
/-- The device after a sample that does not trip. -/
def State.sampleHeat (s : State) (die : Nat) (l : List (Nat × Int)) : State :=
  match hottest l with
  | none => s.setTherm die { s.therm die with hotSet := hotSensors l, first := false }
  | some (k, v) => s.takeSampleHeat die (hotSensors l) k v
/-- A sample trips where a sensor reads 110.0 degrees or above twice in a row, or 105.0 on the first sample after a trip. -/
theorem exec_thermalSample {s : State} (hrun : s.clocksRun = true) (die : Nat) (temps : List Int) :
    let x := s.therm die
    let l := inService x.excluded temps
    let trips := (∃ e ∈ l, 1760 ≤ e.2 ∧ e.1 ∈ x.hotSet) ∨ x.first = true ∧ s.rst.cause.getLsbD 2 = true ∧ ∃ e ∈ l, 1680 ≤ e.2
    (trips → exec (.thermalSample die temps) s = .next (s.thermTrip die))
    ∧ (¬ trips → exec (.thermalSample die temps) s = .next (s.sampleHeat die l)) := by
  intro x l trips
  have harm : exec (.thermalSample die temps) s = execThermalSample die temps s := rfl
  have hcause : (s.rst.cause &&& causeTrip != 0) = s.rst.cause.getLsbD 2 := by
    generalize s.rst.cause = c
    revert c
    decide
  have htrips : ((hotSensors l).any (fun k => x.hotSet.contains k) ||
      (x.first && s.rst.cause &&& causeTrip != 0 && l.any (fun e => 105 * 16 ≤ e.2))) = true ↔ trips := by
    rw [hcause]
    simp only [Bool.or_eq_true, Bool.and_eq_true, List.any_eq_true, mem_hotSensors, List.contains_iff_mem, decide_eq_true_eq, and_assoc]
    refine or_congr ⟨?_, ?_⟩ Iff.rfl
    · rintro ⟨m, ⟨e, he, rfl, hv⟩, hm⟩
      exact ⟨e, he, hv, hm⟩
    · rintro ⟨e, he, hv, hm⟩
      exact ⟨e.1, ⟨e, he, rfl, hv⟩, hm⟩
  rw [harm, execThermalSample, hrun]
  refine ⟨fun h => if_pos (htrips.mpr h), fun h => (if_neg (mt htrips.mp h)).trans ?_⟩
  unfold State.sampleHeat
  cases hottest l
  · rfl
  · rfl
/-- The trip latches, and the service record names it. -/
theorem State.thermTrip_rst (s : State) (die : Nat) :
    (s.thermTrip die).rst.phase = .tripped ∧ (s.thermTrip die).rst.trip = true ∧ (s.thermTrip die).flash = { s.flash with fatal := some (die, 0xB0, 32) } :=
  ⟨rfl, rfl, (State.coldReset_touch (Sub.refl _) (s.setFlash { s.flash with fatal := some (die, 0xB0, 32) }) causeTrip s.straps true (.refl _ _)).flash rfl⟩
section
variable (s : State) (die : Nat) (hotSet : List Nat) (k : Nat) (v : Int)

theorem State.takeSampleHeat_to : ThermTo die ((s.therm die).sampled s.maxLevel s.power.level hotSet k v) s (s.takeSampleHeat die hotSet k v) := by
  let u2 := (s.showHot die hotSet k v).warn die k v
  let u3 := u2.throttle die k v
  have h2 := (ThermTo.setTherm s die { s.therm die with hotSet := hotSet, first := false, hot := ofInt16 v, sensor := BitVec.ofNat 6 k }).trans
    (State.warn_to _ die k v)
  have h3 := h2.trans (State.throttle_to u2 die k v)
  have h4 := h3.trans (ThermTo.setTherm u3 die { u3.therm die with level := (u3.therm die).stage })
  have h5 := h4.trans (ThermTo.setTherm (u3.showStage die) die
    { (u3.showStage die).therm die with target := max ((u3.showStage die).therm die).hotLevel (u3.showStage die).power.level })
  refine ⟨h5.self.trans ?_, h5.other, h5.power, h5.variant⟩
  have hmost : u2.maxLevel = s.maxLevel := congrArg (fun v : Variant => if v.isM then 4 else 5) h2.variant
  have hlevel : (u3.showStage die).power.level = s.power.level := congrArg Power.level h4.power
  have hstage : (u3.showStage die).therm die = { u3.therm die with level := (u3.therm die).stage } := State.therm_setTherm ..
  have hthrottle : u3.therm die = (u2.therm die).throttle s.maxLevel v := h3.self.trans (by rw [hmost])
  have hwarn : u2.therm die = ({ s.therm die with hotSet := hotSet, first := false, hot := ofInt16 v, sensor := BitVec.ofNat 6 k } : Therm).warn v :=
    h2.self.trans (by rw [State.therm_setTherm])
  rw [hlevel, hstage, hthrottle, hwarn]
  rfl
/-- A sample at 100.0 degrees or above raises the flag of a page that was not throttling. -/
theorem State.takeSampleHeat_errStatus (hv : 1600 ≤ v) (h : (s.therm die).throttling = false) :
    ((s.takeSampleHeat die hotSet k v).hdr die 0xB0).errStatus.getLsbD 1 = true := by
  refine State.throttle_errStatus ((s.showHot die hotSet k v).warn die k v) die k v hv ?_
  rw [(State.warn_to ..).self, Therm.warn_eq, State.showHot, State.therm_setTherm]
  exact h
end

/-! ## Power, levels, droops and sensors that disagree -/

/-- The sampled page, read part by part. -/
theorem Therm.sampled_eq (x : Therm) (most level : Nat) (hotSet : List Nat) (k : Nat) (v : Int) :
    ∃ z : Therm, z = { x with hotSet := hotSet, first := false, hot := ofInt16 v, sensor := BitVec.ofNat 6 k,
                              warned := decide (1520 ≤ v) || (x.warned && decide (1488 ≤ v)) }
      ∧ x.sampled most level hotSet k v =
        { z.throttle most v with level := (z.throttle most v).stage, target := max (z.throttle most v).hotLevel level } :=
  ⟨_, (Therm.warn_eq ..), rfl⟩
/-- The power page after an average of a, in 0.1 W, under a cap. -/
def Power.stepped (p : Power) (most a cap : Nat) : Power :=
  let n := if 100 * a < 97 * cap then p.lowRun + 1 else 0
  if cap < a then { p with level := min most (p.level + 1), lowRun := 0 }
  else { p with level := if n != 0 && n % 10 = 0 then p.level - 1 else p.level, lowRun := n }
theorem Power.stepped_eq (p : Power) (most a cap : Nat) : p.stepped most a cap = { p with
    lowRun := if 100 * a < 97 * cap then p.lowRun + 1 else 0,
    level := if cap < a then min most (p.level + 1) else if 100 * a < 97 * cap ∧ (p.lowRun + 1) % 10 = 0 then p.level - 1 else p.level } := by
  unfold Power.stepped
  dsimp only
  by_cases hover : cap < a
  · rw [if_pos hover, if_pos hover, if_neg (by omega)]
  · rw [if_neg hover, if_neg hover]
    by_cases hlow : 100 * a < 97 * cap
    · simp [hlow]
    · simp [hlow]
theorem exec_powerSample {s : State} (hrun : s.clocksRun = true) (w : Nat) :
    let window := (w :: s.power.window).take 10
    let a := averageNat window
    exec (.powerSample w) s = .next ((({ s with power := { s.power.stepped s.maxLevel a (10 * s.power.cap.toNat) with
      now := BitVec.ofNat 32 a, window := window } } : State).retarget 0).retarget 1) := by
  have harm : exec (.powerSample w) s = execPowerSample w s := rfl
  rw [harm, execPowerSample, hrun]
  rfl
/-- Both dies take a level, each the more restrictive of its own and the power's. -/
theorem State.retarget_both (u : State) : (((u.retarget 0).retarget 1).power = u.power)
    ∧ ∀ d < 2, ((u.retarget 0).retarget 1).therm d = { u.therm d with target := max (u.therm d).hotLevel u.power.level } := by
  refine ⟨rfl, fun d hd => ?_⟩
  have hd' : d = 0 ∨ d = 1 := by omega
  rcases hd' with rfl | rfl
  · refine (State.therm_setTherm_ne _ _ (by decide)).trans (State.therm_setTherm ..)
  · refine (State.therm_setTherm ..).trans ?_
    have hother : (u.retarget 0).therm 1 = u.therm 1 := State.therm_setTherm_ne _ _ (by decide)
    rw [hother]
    rfl
/-- A die's decided level comes into force; the time that it ran below level 0 is counted. -/
def Therm.takeLevel (x : Therm) (now : DWord) : Therm :=
  { x with dvfs := x.target, throttleNs := if x.dvfs = 0 then x.throttleNs else x.throttleNs + (now - x.since), since := now }
/-- The state in which a die's decided level has come into force, told of where the mesh clock slows. -/
def State.takeLevel (s : State) (die : Nat) : State :=
  let s1 := s.setTherm die ((s.therm die).takeLevel s.now)
  if s1.slowed die && !s.slowed die then s1.slowDie die else s1
theorem State.takeLevel_to (s : State) (die : Nat) : ThermTo die ((s.therm die).takeLevel s.now) s (s.takeLevel die) := by
  have hto := ThermTo.setTherm s die ((s.therm die).takeLevel s.now)
  unfold State.takeLevel
  extract_lets s1
  by_cases hslow : (s1.slowed die && !s.slowed die) = true
  · rw [if_pos hslow]
    exact hto.told (State.slowDie_touch (Sub.refl _) _ die (.refl _ _)) rfl rfl rfl
  · rw [if_neg hslow]
    exact hto
theorem exec_dvfsLevelChange {s : State} (hrun : s.clocksRun = true) (die : Nat) :
    exec (.dvfsLevelChange die) s = .next (s.takeLevel die) := by
  have harm : exec (.dvfsLevelChange die) s = execDvfsLevelChange die s := rfl
  rw [harm, execDvfsLevelChange, hrun]
  rfl
theorem exec_sensorCrossCheck {s : State} (hrun : s.clocksRun = true) (die : Nat) (m : DWord) :
    let x := s.therm die
    exec (.sensorCrossCheck die m) s = .next ((s.setTherm die { x with excluded := x.excluded ||| m }).each (List.range 64)
      (fun s k => if (m &&& ~~~ x.excluded).getLsbD k then s.raise die 0xB0 0 else s)) := by
  have harm : exec (.sensorCrossCheck die m) s = execSensorCrossCheck die m s := rfl
  rw [harm, execSensorCrossCheck, hrun]
  rfl
/-- A flag raised for some of the elements is set, and stays. -/
theorem State.each_raise_errStatus {c : Nat → Bool} {l : List Nat} {k : Nat} (hk : k ∈ l) (hc : c k = true) (die page : Nat) {bit : Nat} (hbit : bit < 32) (s : State) :
    ((s.each l (fun s k => if c k then s.raise die page bit else s)).hdr die page).errStatus.getLsbD bit = true := by
  refine State.each_establishes (P := fun s j => c j = true → (s.hdr die page).errStatus.getLsbD bit = true)
    (fun s j hj => ?_) (fun s j i h hj => ?_) l s k hk hc
  · rw [if_pos hj]
    exact State.raise_errStatus s die page hbit
  · exact (FlagsStay.ite (s.raise_flagsStay die page bit) (.refl s)).stay die page bit (h hj)
theorem exists_getLsbD {m : DWord} (h : m ≠ 0) : ∃ k < 64, m.getLsbD k = true := by
  by_contra hnone
  push Not at hnone
  exact h (BitVec.eq_of_getLsbD_eq fun i hi => by simpa using hnone i hi)

end Sys2Proof.Machine

open Sys2Proof Sys2Proof.Machine

/-- Settles O52: a sample writes its die's thermal page alone, and the events and errors that tell of it leave every thermal page. That throttling goes on with every 10th sample and eases with every 100th, and that one first sample at 105 degrees trips again, are log 97's reading; that an excluded sensor stays out, log 46's. -/
theorem heatAndPowerSetTheLevel : Obligations.HeatAndPowerSetTheLevel := by
  unfold Obligations.HeatAndPowerSetTheLevel
  refine ⟨fun die temps s hrun => ?_, fun s hrun => ⟨fun w => ?_, fun die => ?_⟩⟩
  · intro x l again twice
    obtain ⟨htrip, hkeep⟩ := exec_thermalSample hrun die temps
    refine ⟨fun h => ?_, fun hnot hnot' => ?_⟩
    · obtain ⟨hphase, htripped, hflash⟩ := s.thermTrip_rst die
      refine ⟨_, htrip h, hphase, htripped, ?_⟩
      rw [hflash]
      exact ⟨rfl, rfl⟩
    · have hexec := hkeep (not_or.mpr ⟨hnot, hnot'⟩)
      refine ⟨fun hl => ?_, fun k v hmem hmax => ?_⟩
      · have hnone : s.sampleHeat die l = s.setTherm die { x with hotSet := [], first := false } := by
          rw [hl]; rfl
        exact hexec.trans (congrArg _ hnone)
      · have hsome : s.sampleHeat die l = s.takeSampleHeat die (hotSensors l) k v := by
          rw [State.sampleHeat, hottest_eq (inService_sorted ..) hmem hmax]
        obtain ⟨hself, hother, hpower, -⟩ := s.takeSampleHeat_to die (hotSensors l) k v
        obtain ⟨z, hz, hsampled⟩ := (s.therm die).sampled_eq s.maxLevel s.power.level (hotSensors l) k v
        obtain ⟨a, b, c, d, hkeeps⟩ := z.throttle_keeps s.maxLevel v
        refine ⟨_, hexec.trans (congrArg _ hsome), hother, ?_⟩
        rw [hself, hsampled]
        refine ⟨?_, ?_, fun m => ?_, ?_, fun hv => ?_, fun hv hthr => ?_, fun hv hthr => ?_, fun hv hbetween => ?_, rfl, ?_⟩
        · show (z.throttle s.maxLevel v).hot = _
          rw [hkeeps, hz]
        · show (z.throttle s.maxLevel v).sensor = _
          rw [hkeeps, hz]
        · show m ∈ (z.throttle s.maxLevel v).hotSet ↔ _
          rw [hkeeps, hz]
          exact mem_hotSensors
        · show (z.throttle s.maxLevel v).warned = _
          rw [hkeeps, hz]
        · obtain ⟨hthrottling, hrun', hlevel⟩ := z.throttle_hot s.maxLevel v hv
          refine ⟨hthrottling, if_pos hthrottling, hrun'.trans (by rw [hz]), hlevel.trans (by rw [hz])⟩
        · exact s.takeSampleHeat_errStatus die (hotSensors l) k v hv hthr
        · obtain ⟨hcool, hlevel⟩ := z.throttle_cool s.maxLevel v hv (by rw [hz]; exact hthr)
          exact ⟨hcool.trans (by rw [hz]), hlevel.trans (by rw [hz])⟩
        · obtain ⟨hlevel, hthrottling⟩ := z.throttle_between s.maxLevel v hv (by rw [hz]; exact hbetween)
          exact ⟨hlevel.trans (by rw [hz]), hthrottling.trans (by rw [hz])⟩
        · show (z.throttle s.maxLevel v).dvfs = _
          rw [hkeeps, hz]
  · intro a cap
    refine ⟨_, exec_powerSample hrun w, ?_⟩
    obtain ⟨hpower, htherm⟩ := State.retarget_both _
    rw [hpower]
    refine ⟨rfl, rfl, ?_⟩
    rw [Power.stepped_eq] at htherm ⊢
    exact ⟨rfl, rfl, rfl, htherm⟩
  · intro x
    refine ⟨⟨_, exec_dvfsLevelChange hrun die, ?_⟩, ?_, fun m => ⟨_, exec_sensorCrossCheck hrun die m, ?_⟩⟩
    · exact ThermTo.pages (s.takeLevel_to die)
    · have harm : exec (.voltageDroop die) s = execVoltageDroop die s := rfl
      rw [harm, execVoltageDroop, if_pos hrun]
    · have hto := ThermTo.setTherm s die { x with excluded := x.excluded ||| m }
      have htouch : Touch 0x144001400 (s.setTherm die { x with excluded := x.excluded ||| m }) _ :=
        State.each_touch (l := List.range 64) (g := fun s k => if (m &&& ~~~ x.excluded).getLsbD k then s.raise die 0xB0 0 else s)
          (fun t k ht => by
            split
            · exact State.raise_touch (Sub.refl _) t die 0xB0 0 ht
            · exact ht) (.refl _ _)
      obtain ⟨hself, hother, -, -⟩ := hto.told htouch rfl rfl rfl
      refine ⟨hother, hself, fun hsome => ?_, fun hnone => ?_⟩
      · obtain ⟨k, hk, hbit⟩ := exists_getLsbD hsome
        exact State.each_raise_errStatus (List.mem_range.mpr hk) hbit die 0xB0 (by decide) _
      · exact State.each_eq_self (fun k => if_neg (by rw [hnone]; simp)) _
end

section
/-! SUPPORT. What a partition's becoming DEGRADED and the loss of a CXL window leave: memory is not among what they reach (spec/12 R440, spec/08 R255). -/

namespace Sys2Proof.Machine

/-- From s to t the view v of the state stays. -/
structure Stays {β : Type} (v : State → β) (s t : State) : Prop where
  eq : v t = v s
section
variable {β : Type} {v : State → β} {s t u : State}
theorem Stays.refl (s : State) : Stays v s s := ⟨rfl⟩
theorem Stays.trans (h : Stays v s t) (k : Stays v t u) : Stays v s u := ⟨k.eq.trans h.eq⟩
/-- The same, the later change first. -/
theorem Stays.after (k : Stays v t u) (h : Stays v s t) : Stays v s u := h.trans k
theorem Stays.ite {c : Prop} [Decidable c] (h : Stays v s t) (k : Stays v s u) : Stays v s (if c then t else u) := by
  split
  · exact h
  · exact k
theorem Stays.each {α : Type} {g : State → α → State} (h : ∀ s x, Stays v s (g s x)) (l : List α) (s : State) : Stays v s (s.each l g) :=
  ⟨State.each_keeps (fun s x => (h s x).eq) l s⟩
end

theorem State.failOpen_false_touch {m : Nat} (hm : Sub 0x1441C3C14 m) {s0 : State} (s : State) (p reason : Nat) (h : Touch m s0 s) :
    Touch m s0 (s.failOpen p reason false) := by
  have hverdicts : s.each ((s.part p).steps.filter (fun t => !t.isOpen)) (fun s t => if false then s.endVerdict p t else s) = s :=
    State.each_eq_self (fun _ => if_neg Bool.false_ne_true) _
  rw [State.failOpen, hverdicts]
  exact State.each_touch (fun t x ht => State.failStep_touch (hm.of rfl) _ _ _ _ _ (State.around_touch (hm.of rfl) t _ _ _ _ _ ht)) h
/-- A partition that becomes DEGRADED: memory, poison and the parts of the mesh that carry no notice stay. -/
theorem State.degrade_touch_narrow {m : Nat} (hm : Sub 0x1441C3C14 m) {s0 : State} (s : State) (p cause : Nat) (h : Touch m s0 s) :
    Touch m s0 (s.degrade p cause) := by
  unfold State.degrade
  split
  case h_1 | h_2 | h_3 => exact h
  case h_4 | h_5 | h_6 | h_7 | h_8 =>
    exact State.eventBoth_touch (hm.of rfl) _ _ _ _ _ (State.rasReport_touch (hm.of rfl) _ _ (State.answerPause_touch (hm.of rfl) _ _ _ _ _
      (State.setPart_touch (hm.of rfl) _ _ _ (State.failOpen_false_touch (hm.of rfl) _ _ _ (State.stopStreams_touch (hm.of rfl) _ _ h)))))
theorem State.lostMemory_touch_narrow {m : Nat} (hm : Sub 0x1441C3C14 m) {s0 : State} (s : State) (p cause : Nat) (lost : Nat → Nat → Bool)
    (h : Touch m s0 s) : Touch m s0 (s.lostMemory p cause lost) :=
  State.loseStash_touch (hm.of rfl) _ _ _ (State.degrade_touch_narrow (hm.of rfl) s p cause h)
theorem State.loseWindow_touch_narrow {m : Nat} (hm : Sub 0x1441E3C14 m) {s0 : State} (s : State) (port window : Nat) (h : Touch m s0 s) :
    Touch m s0 (s.loseWindow port window) := by
  unfold State.loseWindow
  extract_lets c
  split
  · exact h
  · next w hw =>
    split
    · exact h
    · extract_lets wins c1 s1 s2 who
      have h1 : Touch m s0 s1 := State.setCxl_touch (hm.of rfl) _ _ _ h
      have h2 : Touch m s0 s2 := State.cxlEvent_touch (hm.of rfl) _ _ _ _ (State.raise_touch (hm.of rfl) _ _ _ _ h1)
      exact State.unmapLost_touch (hm.of rfl) _ (State.each_touch (fun t p ht => State.lostMemory_touch_narrow (hm.of rfl) t p _ _ ht) h2)
theorem State.retrainCxl_touch_narrow {m : Nat} (hm : Sub 0x1441E3C14 m) {s0 : State} (s : State) (port : Nat) (h : Touch m s0 s) :
    Touch m s0 (s.retrainCxl port) := by
  unfold State.retrainCxl
  extract_lets c a b s1
  split
  · exact h
  · split
    · exact State.setCxl_touch (hm.of rfl) _ _ _ h
    · exact State.setCxl_touch (hm.of rfl) _ _ _ (State.each_touch (fun t k ht => State.loseWindow_touch_narrow (hm.of rfl) t port k ht) h)

/-! ## CXLn_PERST_N -/

/-- How CXLn_PERST_N is driven at each port. -/
def State.perst (s : State) (k : Nat) : Bool := (s.cxl k).perst
theorem Stays.perst_of_cxls {s t : State} (h : t.cxls = s.cxls) : Stays State.perst s t := by
  constructor
  funext k
  rw [State.perst, State.perst, State.cxl, State.cxl, h]
theorem State.setCxl_perst {s : State} {k : Nat} {x : Cxl} (h : x.perst = (s.cxl k).perst) : Stays State.perst s (s.setCxl k x) := by
  constructor
  funext j
  by_cases hj : j = k
  · rw [hj, State.perst, State.cxl_setCxl, h, State.perst]
  · rw [State.perst, State.cxl_setCxl_ne _ _ hj, State.perst]
theorem State.setPerst_perst (s : State) (k : Nat) (low : Bool) : (s.setPerst k low).perst k = low := by
  rw [State.perst, State.setPerst, State.cxl_setCxl]
theorem State.setPerst_perst_ne (s : State) {j k : Nat} (h : j ≠ k) (low : Bool) : (s.setPerst k low).perst j = s.perst j := by
  rw [State.perst, State.setPerst, State.cxl_setCxl_ne _ _ h, State.perst]
theorem State.unmapLost_perst (s : State) : Stays State.perst s s.unmapLost :=
  .each (fun t _ => .ite (State.setCxl_perst (by rfl)) (.refl t)) _ s
theorem State.loseWindow_perst (s : State) (port window : Nat) : Stays State.perst s (s.loseWindow port window) := by
  unfold State.loseWindow
  extract_lets c
  split
  · exact .refl s
  · next w hw =>
    split
    · exact .refl s
    · extract_lets wins c1 s1 s2 who
      have h1 : Stays State.perst s s1 := State.setCxl_perst (by split <;> rfl)
      have h2 : Stays State.perst s s2 := h1.trans (.perst_of_cxls
        ((State.cxlEvent_touch ((Sub.refl 0x144001400).of rfl) _ _ _ _ (State.raise_touch ((Sub.refl _).of rfl) _ _ _ _ (.refl _ s1))).cxls rfl))
      clear_value s2
      refine (State.unmapLost_perst _).after (h2.trans (.each (fun t p => .perst_of_cxls ?_) _ s2))
      exact (State.lostMemory_touch_narrow (Sub.refl _) t p _ _ (.refl _ t)).cxls rfl
theorem State.retrainCxl_perst (s : State) (port : Nat) : Stays State.perst s (s.retrainCxl port) := by
  unfold State.retrainCxl
  extract_lets c a b s1
  have h1 : Stays State.perst s s1 := .each (fun t k => t.loseWindow_perst port k) _ s
  exact .ite (.refl s) (.ite (State.setCxl_perst (by rfl)) (h1.trans (State.setCxl_perst (by rfl))))

/-! ## LINK_RESET -/

/-- LINK_RESET of each endpoint. -/
def State.linkResets (s : State) (e : Nat) : Bool := (s.ep e).linkReset
theorem State.setEp_linkResets {s : State} {e : Nat} {x : Endpoint} (h : x.linkReset = (s.ep e).linkReset) :
    Stays State.linkResets s (s.setEp e x) := by
  constructor
  funext j
  by_cases hj : j = e
  · rw [hj, State.linkResets, State.ep_setEp, h, State.linkResets]
  · rw [State.linkResets, State.ep_setEp_ne _ _ hj, State.linkResets]
theorem State.msi_linkResets (s : State) (x : Endpoint) : Stays State.linkResets s (s.msi x) := ⟨rfl⟩
theorem State.pushRx_linkResets (s : State) (e : Nat) (ev : Bool) (l : List Byte) (credit : Option (Nat × Nat)) :
    Stays State.linkResets s (s.pushRx e ev l credit) := by
  unfold State.pushRx
  extract_lets x b s1
  have h1 : Stays State.linkResets s s1 := State.setEp_linkResets (by rfl)
  exact .ite (.ite (h1.trans (s1.msi_linkResets x)) h1) (State.setEp_linkResets (by rfl))
theorem State.pushEvent_linkResets (s : State) (e part code die : Nat) (pl : List Byte) : Stays State.linkResets s (s.pushEvent e part code die pl) :=
  (State.pushRx_linkResets ..).after (State.setEp_linkResets (by rfl))
theorem State.lostError_linkResets (s : State) : Stays State.linkResets s s.lostError := by
  unfold State.lostError
  extract_lets d h s1 s2 s3 g
  have h2 : Stays State.linkResets s s2 := .ite ⟨rfl⟩ ⟨rfl⟩
  clear_value s2
  have h3 : Stays State.linkResets s s3 := h2.trans (.each (fun t _ => .ite (State.pushEvent_linkResets ..) (.refl t)) _ s2)
  clear_value s3
  exact .ite (h3.trans ⟨rfl⟩) h2
theorem State.event_linkResets (s : State) (e part code die : Nat) (pl : List Byte) : Stays State.linkResets s (s.event e part code die pl) := by
  have hset (t : State) (x : Endpoint) (h : x.linkReset = (t.ep e).linkReset) : Stays State.linkResets t (t.setEp e x) := State.setEp_linkResets h
  unfold State.event
  extract_lets x s1 y
  have h1 : Stays State.linkResets s s1 := (State.pushEvent_linkResets ..).after (hset s _ (by rfl))
  exact .ite (.refl s) (.ite ((State.lostError_linkResets _).after (hset s _ (by rfl))) (.ite (State.pushEvent_linkResets ..)
    (.ite (h1.trans ((State.lostError_linkResets _).after (hset s1 _ (by rfl)))) (h1.trans (State.pushEvent_linkResets ..)))))
theorem State.resetDone_linkResets (s : State) (scope block : Nat) : Stays State.linkResets s (s.resetDone scope block) :=
  .each (fun t _ => .ite (State.event_linkResets ..) (.refl t)) _ s
theorem State.attestReady_linkResets (s : State) : Stays State.linkResets s s.attestReady :=
  .ite (.refl s) (.each (fun t _ => .ite ((State.event_linkResets ..).after (State.setEp_linkResets (by rfl))) (.refl t)) _ s)
theorem State.linkReset_self (s : State) (e : Nat) : (s.linkReset e).linkResets e = true := by
  have h1 : (s.setEp e { s.ep e with linkReset := true }).linkResets e = true := by
    rw [State.linkResets, State.ep_setEp]
  unfold State.linkReset
  extract_lets x s1
  split
  · exact h1
  · exact h1
theorem State.linkReset_other (s : State) {j e : Nat} (h : j ≠ e) : (s.linkReset e).linkResets j = s.linkResets j := by
  have h1 : (s.setEp e { s.ep e with linkReset := true }).linkResets j = s.linkResets j := by
    rw [State.linkResets, State.ep_setEp_ne _ _ h, State.linkResets]
  unfold State.linkReset
  extract_lets x s1
  split
  · exact h1
  · exact h1
/-- LINK_RESET sets on every endpoint. -/
theorem State.each_linkReset (s : State) {e : Nat} (he : e < 8) : (s.each (List.range 8) (fun s e => s.linkReset e)).linkResets e = true := by
  refine State.each_establishes (P := fun (s : State) e => s.linkResets e = true) (fun s x => s.linkReset_self x) (fun s x y h => ?_) _ s e (List.mem_range.mpr he)
  by_cases hxy : x = y
  · rw [hxy, State.linkReset_self]
  · rw [State.linkReset_other s hxy, h]

end Sys2Proof.Machine
end

section
/-! SUPPORT. A warm reset: what its beginning empties and drives, and what its end thaws, releases and shows (spec/15 R502 to R506). -/

namespace Sys2Proof.Machine

/-! ## The beginning -/

/-- The links are down, every partition's steps and keys are gone, and nothing is steered. -/
def State.severed (s : State) : State :=
  let s1 := s.linkDown.each ((List.range 8).filter (fun p => (s.part p).held)) (fun s p => (s.abandonOpen p).destroyKeys p)
  if s1.steer.isSome then ({ s1 with steer := none }).planRelease else s1
theorem State.severed_touch (s : State) : Touch 0x1441C5C50 s s.severed := by
  unfold State.severed
  extract_lets s1
  have h1 : Touch 0x1441C5C50 s s1 := State.each_touch
    (fun t p ht => State.destroyKeys_touch ((Sub.refl _).of rfl) _ p (State.abandonOpen_touch ((Sub.refl _).of rfl) t p ht))
    (State.linkDown_touch ((Sub.refl _).of rfl) s (.refl _ s))
  split
  · exact State.planRelease_touch ((Sub.refl _).of rfl) _ (Touch.upd_steer ((Sub.refl _).of rfl) h1)
  · exact h1
theorem State.severed_steer (s : State) : s.severed.steer = none := by
  unfold State.severed
  extract_lets s1
  split
  · rw [(State.planRelease_touch (Sub.refl _) _ (.refl _ _)).steer rfl]
  · next h => simpa using h
/-- Floes, streams, partitions, commands, links and scratchpads hold nothing. -/
def State.emptied (s : State) : State :=
  { s with floes := [], parts := [], signals := [], cmdq := [], ucie := [], i3c := { lastRead := s.i3c.lastRead }
           mem := dropBytes s.mem (spAddr 0 0) (208 * spStride), spBad := [] }
theorem State.emptied_fields (s : State) : s.emptied.floes = [] ∧ s.emptied.parts = [] ∧ s.emptied.signals = [] ∧ s.emptied.cmdq = []
    ∧ s.emptied.ucie = [] ∧ s.emptied.spBad = [] :=
  ⟨rfl, rfl, rfl, rfl, rfl, rfl⟩
theorem State.newScrub_emptied_fields (s : State) : s.newScrub.emptied.rst = s.rst ∧ s.newScrub.emptied.sec.scrub = s.sec.scrub + 1
    ∧ s.newScrub.emptied.steer = s.steer ∧ s.newScrub.emptied.mem = dropBytes s.mem (spAddr 0 0) (208 * spStride) := ⟨rfl, rfl, rfl, rfl⟩
/-- Security holds no measurement for use, and an activation in progress no floes. -/
def State.sealBroken (s : State) : State :=
  s.setSec { s.sec with intact := false, sealSince := none, fwAct := s.sec.fwAct.map (fun a => { a with todo := [], released := [] }) }
/-- No calving goes on, and the pins of old are held. -/
def State.calveEnded (s old : State) : State := s.setRas { s.ras with calve := none, heldAlert := old.alertLow, heldErr := old.errLow }
/-- The pages of a warm reset are reset. -/
def State.warmPagesReset (s : State) : State := s.each warmPages (fun s g => s.resetPage g.1 g.2)
theorem State.warmPagesReset_touch (s : State) : Touch 0x700000000 s s.warmPagesReset :=
  State.each_touch (fun t g ht => State.resetPage_touch ((Sub.refl _).of rfl) t g.1 g.2 ht) (.refl _ s)
theorem State.sealEnded_touch (s old : State) : Touch 0xC000000 s (s.sealBroken.calveEnded old) :=
  State.setRas_touch ((Sub.refl _).of rfl) _ _ (State.setSec_touch ((Sub.refl _).of rfl) _ _ (.refl _ s))
theorem State.sealEnded_fields (s old : State) : (s.sealBroken.calveEnded old).sec.scrub = s.sec.scrub ∧ (s.sealBroken.calveEnded old).sec.intact = false
    ∧ (s.sealBroken.calveEnded old).ras.calve = none := ⟨rfl, rfl, rfl⟩
/-- The state from which a warm reset's last actions begin. -/
def State.warmEmptied (s : State) : State := s.severed.newScrub.emptied.warmPagesReset.sealBroken.calveEnded s
/-- The reset entry while units are held for their thaw. -/
def Rst.holding (x : Rst) (units : List Nat) : Rst := { x with heldUnits := units, devPending := false }
/-- Units are held for their thaw. -/
def State.holdUnits (s : State) (units : List Nat) : State := s.setRst (s.rst.holding units)
theorem State.holdUnits_touch {m : Nat} (hm : Sub 0x2000000 m) {s0 : State} (s : State) (units : List Nat) (h : Touch m s0 s) : Touch m s0 (s.holdUnits units) :=
  State.setRst_touch (hm.of rfl) _ _ h
theorem State.holdUnits_rst (s : State) (units : List Nat) : (s.holdUnits units).rst = s.rst.holding units := rfl
theorem State.holdUnits_perst (s : State) (units : List Nat) : (s.holdUnits units).perst = s.perst := rfl
theorem State.warmSteps_eq (s : State) : s.warmSteps = (s.warmEmptied.each [0, 1] (fun s k => s.setPerst k true)).holdUnits s.heldBases := rfl
theorem State.each_setPerst_touch (s : State) (low : Bool) : Touch 0x20000 s (s.each [0, 1] (fun s k => s.setPerst k low)) :=
  State.each_touch (fun t k ht => State.setPerst_touch (Sub.refl _) t k low ht) (.refl _ s)
theorem State.each_setPerst_perst (s : State) (low : Bool) {k : Nat} (hk : k < 2) : (s.each [0, 1] (fun s k => s.setPerst k low)).perst k = low := by
  have hmem : k ∈ [0, 1] := by simp; omega
  refine State.each_establishes (P := fun s k => s.perst k = low) (fun s k => s.setPerst_perst k low) (fun s k j h => ?_) _ s k hmem
  by_cases hkj : k = j
  · rw [hkj, State.setPerst_perst]
  · rw [State.setPerst_perst_ne s hkj, h]
/-- A warm reset's first state: the reset entry of a state, with its cause. -/
def State.warmNoted (t : State) (cause : BitVec 7) : State :=
  let s1 := t.atStep 0x83
  s1.setRst { s1.rst with phase := .warm, cause := cause, warms := bump s1.rst.warms }
theorem State.warmReset_ready {s : State} (h : s.rst.phase = .ready) (cause : BitVec 7) : s.warmReset cause = s.warmSteps.warmNoted cause := by
  rw [State.warmReset, h]
  rfl
theorem State.warmNoted_touch (s : State) (cause : BitVec 7) : Touch 0x2000000 s (s.warmNoted cause) :=
  State.setRst_touch (Sub.refl _) _ _ (State.atStep_touch (Sub.refl _) s _ (.refl _ s))
theorem State.warmNoted_rst (s : State) (cause : BitVec 7) : (s.warmNoted cause).rst
    = { s.rst with step := 0x83, stepTime := s.now.setWidth 32, phase := .warm, cause := cause, warms := bump s.rst.warms } := rfl
/-- What the last actions of a warm reset's beginning leave: all but the CXL ports, the reset entry, the headers, security and the RAS page. -/
theorem State.warmSteps_touch_emptied (s : State) (cause : BitVec 7) : Touch 0x70E020000 s.severed.newScrub.emptied (s.warmSteps.warmNoted cause) := by
  have hempty : Touch 0x70E020000 s.severed.newScrub.emptied s.warmEmptied :=
    State.setRas_touch ((Sub.refl _).of rfl) _ _ (State.setSec_touch ((Sub.refl _).of rfl) _ _
      (State.each_touch (fun t g ht => State.resetPage_touch ((Sub.refl _).of rfl) t g.1 g.2 ht) (.refl _ _)))
  rw [State.warmSteps_eq]
  exact State.setRst_touch ((Sub.refl _).of rfl) _ _ (State.atStep_touch ((Sub.refl _).of rfl) _ _ (State.holdUnits_touch ((Sub.refl _).of rfl) _ _
    (State.each_touch (fun t k ht => State.setPerst_touch ((Sub.refl _).of rfl) t k true ht) hempty)))
/-- Of security and the RAS page, the last actions leave what the warm reset emptied. -/
theorem State.warmSteps_touch_last (s : State) (cause : BitVec 7) : Touch 0x2020000 s.warmEmptied (s.warmSteps.warmNoted cause) := by
  rw [State.warmSteps_eq]
  exact State.setRst_touch ((Sub.refl _).of rfl) _ _ (State.atStep_touch ((Sub.refl _).of rfl) _ _ (State.holdUnits_touch ((Sub.refl _).of rfl) _ _
    (State.each_touch (fun t k ht => State.setPerst_touch ((Sub.refl _).of rfl) t k true ht) (.refl _ _))))
theorem State.warmEmptied_rst (s : State) : s.warmEmptied.rst = s.rst := by
  obtain ⟨hempty, -, -, -⟩ := s.severed.newScrub_emptied_fields
  exact ((State.sealEnded_touch _ s).rst rfl).trans (((State.warmPagesReset_touch _).rst rfl).trans (hempty.trans (s.severed_touch.rst rfl)))
theorem State.warmSteps_rst (s : State) : s.warmSteps.rst = s.rst.holding s.heldBases := by
  rw [State.warmSteps_eq, State.holdUnits_rst, (s.warmEmptied.each_setPerst_touch true).rst rfl, s.warmEmptied_rst]
theorem State.warmSteps_perst (s : State) {k : Nat} (hk : k < 2) : s.warmSteps.perst k = true := by
  rw [State.warmSteps_eq, State.holdUnits_perst, s.warmEmptied.each_setPerst_perst true hk]
/-- What a warm reset's beginning leaves of security and of the RAS page. -/
theorem State.warmEmptied_fields (s : State) : s.warmEmptied.sec.scrub = s.sec.scrub + 1 ∧ s.warmEmptied.sec.intact = false ∧ s.warmEmptied.ras.calve = none := by
  obtain ⟨hscrub, hintact, hcalve⟩ := s.severed.newScrub.emptied.warmPagesReset.sealEnded_fields s
  obtain ⟨-, hempty, -, -⟩ := s.severed.newScrub_emptied_fields
  refine ⟨?_, hintact, hcalve⟩
  rw [State.warmEmptied, hscrub, (State.warmPagesReset_touch _).sec rfl, hempty, s.severed_touch.sec rfl]
theorem State.byte_of_noCell {t : State} {f off : Nat} (hf : f < 208) (hoff : off < spSize) :
    t.byte (spAddr f off) = (cellAt t.mem (spAddr f off)).getD 0 := by
  rw [State.byte, State.blank, if_pos (isSp_spAddr hf hoff)]
theorem State.emptied_cellAt {s : State} (hs : Memory.wf s.mem = true) {f off : Nat} (hf : f < 208) (hoff : off < spSize) :
    cellAt s.severed.newScrub.emptied.mem (spAddr f off) = none := by
  obtain ⟨-, -, -, hempty⟩ := s.severed.newScrub_emptied_fields
  rw [hempty, s.severed_touch.mem rfl]
  refine cellAt_dropBytes hs ?_ ?_ <;> rw [spAddr, spAddr, spStride] at * <;> rw [spSize] at hoff <;> omega
/-- A ready device begins a warm reset. -/
theorem State.warmReset_begun {s : State} (h : s.rst.phase = .ready) (cause : BitVec 7) : Claims.WarmBegun cause s (s.warmReset cause) := by
  rw [State.warmReset_ready h]
  have htouch := s.warmSteps_touch_emptied cause
  have hlast := s.warmSteps_touch_last cause
  have hrst := s.warmSteps.warmNoted_rst cause
  rw [s.warmSteps_rst] at hrst
  have hperst : (s.warmSteps.warmNoted cause).perst = s.warmSteps.perst := (Stays.perst_of_cxls ((s.warmSteps.warmNoted_touch cause).cxls rfl)).eq
  obtain ⟨hscrub, hintact, hcalve⟩ := s.warmEmptied_fields
  obtain ⟨hfloes, hparts, hsignals, hcmdq, hucie, hbad⟩ := s.severed.newScrub.emptied_fields
  obtain ⟨-, -, hsteer, -⟩ := s.severed.newScrub_emptied_fields
  have hcell : Memory.wf s.mem = true → ∀ f off, f < 208 → off < spSize → cellAt s.severed.newScrub.emptied.mem (spAddr f off) = none :=
    fun hwf f off hf hoff => State.emptied_cellAt hwf hf hoff
  have hsteer := hsteer.trans s.severed_steer
  have hunits := fun k (hk : k < 2) => s.warmSteps_perst hk
  generalize s.warmSteps.warmNoted cause = t at *
  unfold Claims.WarmBegun
  rw [hrst, htouch.floes rfl, htouch.parts rfl, htouch.signals rfl, htouch.cmdq rfl, htouch.ucie rfl, htouch.spBad rfl, htouch.steer rfl, hlast.sec rfl, hlast.ras rfl]
  refine ⟨rfl, rfl, rfl, rfl, rfl, rfl, rfl, hfloes, hparts, hsignals, hsteer, hcmdq, hucie, hbad, fun hwf f off hf hoff => ?_, hscrub, hintact, hcalve, fun k hk => ?_⟩
  · rw [State.byte_of_noCell hf hoff, htouch.mem rfl, hcell hwf f off hf hoff]
    rfl
  · exact (congrFun hperst k).trans (hunits k hk)
theorem TellsRas.calve {s t : State} (h : TellsRas s t) : t.ras.calve = s.ras.calve :=
  show t.ras.untold.calve = s.ras.untold.calve from congrArg Ras.calve h.untold
/-- An error raised as a warm reset begins leaves what it began. -/
theorem WarmBegun.raise {cause : BitVec 7} {s t : State} (h : Claims.WarmBegun cause s t) (die page bit : Nat) :
    Claims.WarmBegun cause s (t.raise die page bit) := by
  obtain ⟨hphase, hstep, hcause, hwarms, hwdt, hpending, hheld, hfloes, hparts, hsignals, hsteer, hcmdq, hucie, hbad, hbytes, hscrub, hintact, hcalve, hperst⟩ := h
  have htouch : Touch 0x144001400 t (t.raise die page bit) := State.raise_touch (Sub.refl _) t die page bit (.refl _ t)
  have hcalve' : (t.raise die page bit).ras.calve = t.ras.calve := (t.raise_tellsRas die page bit).calve
  rw [← htouch.rst rfl] at hphase hstep hcause hwarms hwdt hpending hheld
  rw [← htouch.sec rfl] at hscrub hintact
  refine ⟨hphase, hstep, hcause, hwarms, hwdt, hpending, hheld, (htouch.floes rfl).trans hfloes, (htouch.parts rfl).trans hparts,
    (htouch.signals rfl).trans hsignals, (htouch.steer rfl).trans hsteer, (htouch.cmdq rfl).trans hcmdq, (htouch.ucie rfl).trans hucie,
    (htouch.spBad rfl).trans hbad, fun hwf f off hf hoff => ?_, hscrub, hintact, hcalve'.trans hcalve, fun k hk => ?_⟩
  · rw [State.byte_of_noCell hf hoff, htouch.mem rfl, ← State.byte_of_noCell hf hoff, hbytes hwf f off hf hoff]
  · exact (congrFun (Stays.perst_of_cxls (htouch.cxls rfl)).eq k).trans (hperst k hk)
theorem exec_warmResetN (s : State) : exec .warmResetN s = .next (s.warmReset 16) := rfl
theorem exec_watchdog (s : State) : exec .watchdog s
    = if s.rst.wdt = 0 || s.rst.phase = .cold || s.rst.phase = .halted || s.rst.phase = .tripped then .next s
      else .next ((s.warmReset 32).raise s.lead 0xC1 1) := rfl
theorem exec_warmResetStart (s : State) : exec .warmResetStart s
    = if s.rst.devPending then .next ((s.setRst { s.rst with devPending := false }).warmReset 64) else .next s := rfl

/-! ## The end -/

/-- What was held is thawed, the controllers run at their configured rates, the CXL resets are released and their links retrain. -/
def State.thawed (s : State) : State :=
  let s1 := s.each s.rst.heldUnits (fun s a => s.scrubUnit a)
  ((s1.each (List.range 12) (fun s d => s.setNmc d { s.nmc d with rateNow := (s.nmc d).rate })).each [0, 1] (fun s k => (s.setPerst k false).retrainCxl k)).unmapLost
/-- The bridge key is fresh, and a measurement epoch begins. -/
def State.rekeyed (s : State) : State := (s.setSec { s.sec with bridgeKey := true }).newEpoch.atStep 10
theorem State.rekeyed_fields (s : State) : s.rekeyed.rst.step = 10 ∧ s.rekeyed.now = s.now ∧ s.rekeyed.mem = s.mem ∧ s.rekeyed.cxls = s.cxls
    ∧ s.rekeyed.sec.bridgeKey = true ∧ s.rekeyed.sec.epoch = s.sec.epoch + 1 := ⟨rfl, rfl, rfl, rfl, rfl, rfl⟩
/-- The device is ready after a warm reset. -/
def State.warmDone (s : State) : State :=
  let s3 := s.rekeyed
  s3.setRst { s3.rst with phase := .ready, readyTime := s3.now, kicked := s3.now, heldUnits := [] }
theorem State.warmDone_fields (s : State) : s.warmDone.rst.phase = .ready ∧ s.warmDone.rst.step = 10 ∧ s.warmDone.rst.readyTime = s.now
    ∧ s.warmDone.rst.kicked = s.now ∧ s.warmDone.rst.heldUnits = [] ∧ s.warmDone.mem = s.mem ∧ s.warmDone.cxls = s.cxls
    ∧ s.warmDone.sec.bridgeKey = true ∧ s.warmDone.sec.epoch = s.sec.epoch + 1 := by
  unfold State.warmDone
  obtain ⟨hstep, hnow, hmem, hcxls, hsec⟩ := s.rekeyed_fields
  generalize s.rekeyed = t at *
  exact ⟨rfl, hstep, hnow, hnow, rfl, hmem, hcxls, hsec⟩
theorem exec_warmResetReady {s : State} (h : s.rst.phase = .warm) : exec .warmResetReady s
    = .next ((s.thawed.warmDone.each (List.range 8) (fun s e => s.linkReset e)).resetDone 2 0).attestReady := by
  have harm : exec .warmResetReady s = execWarmResetReady s := rfl
  rw [harm, execWarmResetReady, h, State.thawed, State.warmDone, State.rekeyed]
theorem State.thawed_touch (s : State) : Touch 0x1441FBE94 s s.thawed := by
  have h1 : Touch 0x1441FBE94 s (s.each s.rst.heldUnits (fun s a => s.scrubUnit a)) :=
    State.each_touch (fun t a ht => State.scrubUnit_touch ((Sub.refl _).of rfl) t a ht) (.refl _ s)
  exact State.unmapLost_touch ((Sub.refl _).of rfl) _
    (State.each_touch (fun t k ht => State.retrainCxl_touch_narrow ((Sub.refl _).of rfl) _ k (State.setPerst_touch ((Sub.refl _).of rfl) t k false ht))
      (State.each_touch (fun t d ht => State.setNmc_touch ((Sub.refl _).of rfl) t d _ ht) h1))
theorem State.thawed_cellAt {s : State} (hs : Memory.wf s.mem = true) : ∀ a ∈ s.rst.heldUnits, ∀ i < 2 ^ 30, cellAt s.thawed.mem (a + i) = none := by
  have hscrubbed := State.each_dropBytes (op := fun (s : State) a => s.scrubUnit a) (lo := id) State.scrubUnit_mem s.rst.heldUnits hs
  have hafter : Touch 0x1441EBC14 (s.each s.rst.heldUnits (fun s a => s.scrubUnit a)) s.thawed := State.unmapLost_touch ((Sub.refl _).of rfl) _
    (State.each_touch (fun t k ht => State.retrainCxl_touch_narrow ((Sub.refl _).of rfl) _ k (State.setPerst_touch ((Sub.refl _).of rfl) t k false ht))
      (State.each_touch (fun t d ht => State.setNmc_touch ((Sub.refl _).of rfl) t d _ ht) (.refl _ _)))
  rw [hafter.mem rfl]
  exact hscrubbed
theorem State.thawed_perst (s : State) {k : Nat} (hk : k < 2) : s.thawed.perst k = false := by
  have hmem : k ∈ [0, 1] := by simp; omega
  rw [State.thawed]
  rw [(State.unmapLost_perst _).eq]
  refine State.each_establishes (P := fun s k => s.perst k = false) (fun s k => ?_) (fun s k j h => ?_) _ _ k hmem
  · rw [(State.retrainCxl_perst _ k).eq, State.setPerst_perst]
  · rw [(State.retrainCxl_perst _ j).eq]
    by_cases hkj : k = j
    · rw [hkj, State.setPerst_perst]
    · rw [State.setPerst_perst_ne s hkj, h]

end Sys2Proof.Machine

open Sys2Proof Sys2Proof.Machine

/-- Settles O54: a warm reset's beginning keeps what its first part emptied, its end releases each port by itself, and what tells of either reaches neither. That the partitions are gone at once is log 95's reading; that the measurement epoch advances at its end is the model's own, which no rule and no log row gives. -/
theorem warmResetsBeginAndEnd : Obligations.WarmResetsBeginAndEnd := by
  unfold Obligations.WarmResetsBeginAndEnd
  refine fun s => ⟨fun h => ⟨⟨_, exec_warmResetN s, State.warmReset_begun h 16⟩, fun hwdt => ?_, fun hpending => ?_⟩, fun hwdt => ?_, fun hpending => ?_,
    fun h => ?_, fun h => ⟨?_, ?_⟩, fun h => ?_⟩
  · refine ⟨_, (exec_watchdog s).trans (if_neg (by simpa [h] using hwdt)), WarmBegun.raise (State.warmReset_begun h 32) _ _ _, ?_⟩
    have hlead : ((s.warmReset 32).raise s.lead 0xC1 1).lead = s.lead := by
      have htouch : Touch 0x74E1E7DDC s ((s.warmReset 32).raise s.lead 0xC1 1) :=
        State.raise_touch ((Sub.refl _).of rfl) _ _ _ _ (State.warmReset_touch (Sub.refl _) s 32 (.refl _ s))
      rw [State.lead, htouch.straps rfl, State.lead]
    rw [hlead]
    exact State.raise_errStatus _ _ _ (by decide)
  · exact ⟨_, (exec_warmResetStart s).trans (if_pos hpending), State.warmReset_begun (s := s.setRst { s.rst with devPending := false }) h 64⟩
  · rw [exec_watchdog, hwdt]
    rfl
  · rw [exec_warmResetStart, hpending]
    rfl
  · rw [exec_warmResetN, State.warmReset, h]
  · rw [exec_warmResetN, State.warmReset]
    obtain h | h | h := h <;> rw [h]
  · rw [exec_watchdog, if_pos]
    obtain h | h | h := h <;> simp [h]
  · set u := s.thawed.warmDone.each (List.range 8) (fun s e => s.linkReset e) with hu
    have hlinks : Touch 0x40001400 s.thawed.warmDone u := State.each_touch (fun t e ht => State.linkReset_touch (Sub.refl _) t e ht) (.refl _ _)
    have htail : Touch 0x144001400 s.thawed.warmDone (u.resetDone 2 0).attestReady :=
      State.attestReady_touch (Sub.refl _) _ (State.resetDone_touch (Sub.refl _) _ _ _ (State.each_touch (fun t e ht => State.linkReset_touch ((Sub.refl _).of rfl) t e ht) (.refl _ _)))
    have hnow : s.thawed.now = s.now := by rw [State.now, s.thawed_touch.time rfl, State.now]
    obtain ⟨hphase, hstep, hreadyTime, hkicked, hheld, hmem, hcxls, hkey, hepoch⟩ := s.thawed.warmDone_fields
    refine ⟨_, exec_warmResetReady h, ?_⟩
    rw [htail.rst rfl, htail.sec rfl, htail.mem rfl, hmem, hepoch, s.thawed_touch.sec rfl]
    refine ⟨hphase, hstep, hreadyTime.trans hnow, hkicked.trans hnow, hheld, State.thawed_cellAt, fun e he => ?_, fun k hk => ?_, hkey, rfl⟩
    · exact (congrFun ((State.resetDone_linkResets u 2 0).trans (State.attestReady_linkResets _)).eq e).trans (State.each_linkReset _ he)
    · exact (congrFun (Stays.perst_of_cxls ((htail.cxls rfl).trans hcxls)).eq k).trans (s.thawed_perst hk)
end

section
/-! SUPPORT. A device whose management endpoint has 256 events undelivered: the event that tells of a block reset is lost, which sets EVENT_LOST in the header of the PART page itself (spec/12 R443, spec/16 R542). -/

namespace Sys2Proof.Machine

/-- A device with one module up and 256 undelivered events in endpoint 0, whose PART page of the lead die is in reset. -/
def crowded : State :=
  { State.reset with
    eps := [(0, { enable := true, mgmt := true, rx := List.replicate 256 { event := true, bytes := [] } })]
    ucie := [(0, { up := true })]
    hdrs := [(hdrKey 0 0xC3, { resetState := 2 })] }
/-- ERR_STATUS of the PART page after an outcome. -/
def partErrors (r : Host.Outcome State Fault Refusal) : Word :=
  match r with
  | .next t => (t.hdr 0 0xC3).errStatus
  | .fault _ | .refused _ => 0
theorem partErrors_crowded : partErrors (exec (.blockResetComplete 0 0xC3) crowded) = 1 := by decide +kernel

end Sys2Proof.Machine

open Sys2Proof Sys2Proof.Machine

/-- Refutes O55: at the end of a reset of the lead die's PART page the RESET_DONE event of a full management endpoint is lost, and EVENT_LOST sets in the very header that the statement says is reset but for its record of resets. (The statement excludes pages of type 5, but not this one of type 12.) -/
theorem not_partitionBlockAndDeviceResets : ¬ Obligations.PartitionBlockAndDeviceResets := by
  unfold Obligations.PartitionBlockAndDeviceResets
  rintro ⟨-, -, hblock, -⟩
  obtain ⟨-, -, -, hdone⟩ := hblock 0 0xC3 crowded
  obtain ⟨t, ht, -, -, -, hheader, -⟩ := hdone (by decide)
  have herrors := partErrors_crowded
  rw [ht] at herrors
  have hclear : (t.hdr 0 0xC3).errStatus = 0 := by rw [hheader (by decide)]
  exact absurd (hclear.symm.trans herrors) (by decide)
end

section
/-! SUPPORT. CXL windows come and go: what the loss of a window leaves of the partitions and of the other windows, and which lost windows stay mapped (spec/08 R253 to R255). -/

namespace Sys2Proof.Machine

/-! ## A partition that lost memory -/

/-- Which partitions are FREE, which THAWING, and the CXL units of each. -/
def State.cxlGrants (s : State) (p : Nat) : Bool × Bool × List Nat := ((s.part p).st == .free, (s.part p).st == .thawing, (s.part p).cxl)
theorem Stays.cxlGrants_of_parts {s t : State} (h : t.parts = s.parts) : Stays State.cxlGrants s t :=
  ⟨funext fun p => by rw [State.cxlGrants, State.cxlGrants, State.part_of_parts h]⟩
theorem State.degrade_idle {s : State} {p : Nat} (h : (s.part p).st = .free ∨ (s.part p).st = .thawing) (cause : Nat) : s.degrade p cause = s := by
  rw [State.degrade]
  obtain h | h := h <;> rw [h]
theorem State.degrade_cxlGrants (s : State) (p cause : Nat) : Stays State.cxlGrants s (s.degrade p cause) := by
  constructor
  funext q
  by_cases hq : q = p
  · by_cases hidle : (s.part p).st = .free ∨ (s.part p).st = .thawing
    · rw [State.degrade_idle hidle]
    · obtain ⟨hfree, hthaw⟩ := not_or.mp hidle
      obtain ⟨-, -, hcxl, -⟩ := (s.degrade_ends p cause).grant p
      rw [hq, State.cxlGrants, State.cxlGrants, State.degrade_st hfree hthaw, hcxl, beq_eq_false_iff_ne.mpr hfree, beq_eq_false_iff_ne.mpr hthaw]
      rfl
  · rw [State.cxlGrants, (s.degrade_ends p cause).other q hq, State.cxlGrants]
theorem State.lostMemory_parts (s : State) (p cause : Nat) (lost : Nat → Nat → Bool) : (s.lostMemory p cause lost).parts = (s.degrade p cause).parts :=
  (State.loseStash_touch (Sub.refl _) _ p lost (.refl _ _)).parts rfl
theorem State.lostMemory_cxlGrants (s : State) (p cause : Nat) (lost : Nat → Nat → Bool) : Stays State.cxlGrants s (s.lostMemory p cause lost) :=
  (s.degrade_cxlGrants p cause).trans (.cxlGrants_of_parts (s.lostMemory_parts p cause lost))
/-- A partition that lost memory is DEGRADED unless it is FREE or THAWING. -/
theorem State.each_lostMemory_st {s : State} {l : List Nat} (cause : Nat) (lost : Nat → Nat → Bool) {p : Nat} (hp : p ∈ l)
    (hfree : (s.part p).st ≠ .free) (hthaw : (s.part p).st ≠ .thawing) : ((s.each l (fun s p => s.lostMemory p cause lost)).part p).st = .degraded := by
  have hself : ∀ (s : State) p, (s.part p).st = .free ∨ (s.part p).st = .thawing ∨ ((s.lostMemory p cause lost).part p).st = .degraded := fun s p => by
    rw [State.part_of_parts (s.lostMemory_parts p cause lost)]
    by_cases hidle : (s.part p).st = .free ∨ (s.part p).st = .thawing
    · exact hidle.imp_right .inl
    · obtain ⟨hfree, hthaw⟩ := not_or.mp hidle
      exact .inr (.inr (State.degrade_st hfree hthaw cause))
  have hkept : ∀ (s : State) p q, ((s.lostMemory q cause lost).cxlGrants p) = s.cxlGrants p := fun s p q => congrFun (s.lostMemory_cxlGrants q cause lost).eq p
  have hidle : ∀ (s : State) p, (s.part p).st = .free ∨ (s.part p).st = .thawing ↔ (s.cxlGrants p).1 = true ∨ (s.cxlGrants p).2.1 = true := fun s p => by
    simp [State.cxlGrants]
  have hdone := State.each_establishes (P := fun s p => ((s.part p).st = .free ∨ (s.part p).st = .thawing) ∨ (s.part p).st = .degraded)
    (op := fun s p => s.lostMemory p cause lost)
    (fun s p => by
      rw [hidle, hkept, ← hidle]
      exact or_assoc.mpr (hself s p))
    (fun s p q h => by
      rw [hidle, hkept, ← hidle]
      by_cases hpq : p = q
      · rw [← hpq]
        exact or_assoc.mpr (hself s p)
      · rwa [State.part_of_parts (s.lostMemory_parts q cause lost), (s.degrade_ends q cause).other p hpq]) l s p hp
  have hgrants : (s.each l (fun s p => s.lostMemory p cause lost)).cxlGrants p = s.cxlGrants p :=
    congrFun (Stays.each (fun t q => t.lostMemory_cxlGrants q cause lost) l s).eq p
  rw [hidle, hgrants, ← hidle] at hdone
  exact hdone.resolve_left (not_or.mpr ⟨hfree, hthaw⟩)
theorem State.loseStash_flagsStay (s : State) (p : Nat) (lost : Nat → Nat → Bool) : FlagsStay s (s.loseStash p lost) := by
  refine State.each_flagsStay (fun t f => ?_) _ s
  extract_lets x n x1
  have hfloe : FlagsStay t (t.setFloe f x1) := ⟨fun _ _ _ => id⟩
  clear_value x1
  refine .ite (.refl t) (hfloe.trans (State.each_flagsStay (l := [1, 2]) (fun u k => ?_) _))
  exact .ite (.refl u) (u.eventOwner_tellsRas ..).flags
theorem State.lostMemory_flagsStay (s : State) (p cause : Nat) (lost : Nat → Nat → Bool) : FlagsStay s (s.lostMemory p cause lost) :=
  (s.degrade_ends p cause).tells.flags.trans (State.loseStash_flagsStay ..)

/-! ## Lost windows are unmapped -/

/-- A partition that exists holds units of a window. -/
def State.windowHeld (s : State) (w : CxlWin) : Bool := (List.range 8).any (fun p => (s.part p).held && (s.part p).cxl.any (fun u => w.covers (cxlBase + 2 ^ 30 * u)))
/-- Of the windows of a port, those that are not lost, or held, stay mapped. -/
def State.unmapAt (held : CxlWin → Bool) (s : State) (k : Nat) : State :=
  let c := s.cxl k
  if c.wins.any (fun w => w.2.lost && !held w.2) then s.setCxl k { c with wins := c.wins.filter (fun w => !w.2.lost || held w.2) } else s
theorem State.unmapLost_eq (s : State) : s.unmapLost = (s.unmapAt s.windowHeld 0).unmapAt s.windowHeld 1 := rfl
theorem State.windowHeld_iff {s : State} {w : CxlWin} :
    s.windowHeld w = true ↔ ∃ p < 8, (s.part p).held = true ∧ ∃ u ∈ (s.part p).cxl, w.covers (cxlBase + 2 ^ 30 * u) = true := by
  simp only [State.windowHeld, List.any_eq_true, List.mem_range, Bool.and_eq_true]
theorem State.windowHeld_congr {s t : State} (h : Stays State.cxlGrants s t) (w : CxlWin) : t.windowHeld w = s.windowHeld w := by
  have hpart : ∀ p, (t.part p).held = (s.part p).held ∧ (t.part p).cxl = (s.part p).cxl := fun p => by
    have hp := congrFun h.eq p
    rw [State.cxlGrants, State.cxlGrants, Prod.mk.injEq, Prod.mk.injEq] at hp
    obtain ⟨hfree, -, hcxl⟩ := hp
    exact ⟨congrArg not hfree, hcxl⟩
  simp only [State.windowHeld, hpart]
theorem State.unmapAt_wins (held : CxlWin → Bool) (s : State) (k : Nat) :
    ((s.unmapAt held k).cxl k).wins = (s.cxl k).wins.filter (fun w => !w.2.lost || held w.2) := by
  rw [State.unmapAt]
  split
  · rw [State.cxl_setCxl]
  · next hnone =>
    refine (List.filter_eq_self.mpr fun w hw => ?_).symm
    have hkeep := List.any_eq_false.mp (Bool.eq_false_iff.mpr hnone) w hw
    cases hl : w.2.lost <;> simp_all
theorem State.unmapAt_cxl_ne (held : CxlWin → Bool) (s : State) {j k : Nat} (h : j ≠ k) : (s.unmapAt held k).cxl j = s.cxl j := by
  rw [State.unmapAt]
  split
  · rw [State.cxl_setCxl_ne _ _ h]
  · rfl
theorem State.unmapLost_wins (s : State) {k : Nat} (hk : k < 2) :
    (s.unmapLost.cxl k).wins = (s.cxl k).wins.filter (fun w => !w.2.lost || s.windowHeld w.2) := by
  rw [State.unmapLost_eq]
  obtain rfl | rfl : k = 0 ∨ k = 1 := by omega
  · rw [State.unmapAt_cxl_ne _ _ (by decide), State.unmapAt_wins]
  · rw [State.unmapAt_wins, State.unmapAt_cxl_ne _ _ (by decide)]
theorem Tbl.find_filter {α : Type} {q : Nat × α → Bool} {k : Nat} {v : α} (hq : q (k, v) = true) {t : Tbl α} (h : Tbl.find t k = some v) :
    Tbl.find (t.filter q) k = some v := by
  induction t with
  | nil => cases h
  | cons e r ih =>
    obtain ⟨j, w⟩ := e
    rw [Tbl.find] at h
    split at h
    · next hj =>
      cases h
      rw [List.filter_cons_of_pos (by rw [hj]; exact hq), Tbl.find, if_pos hj]
    · next hj =>
      by_cases hkeep : q (j, w) = true
      · rw [List.filter_cons_of_pos hkeep, Tbl.find, if_neg hj]
        exact ih h
      · rw [List.filter_cons_of_neg hkeep]
        exact ih h

/-! ## CXL_LINK_DOWN -/

/-- A port after its window is lost. -/
def Cxl.lose (c : Cxl) (window : Nat) (w : CxlWin) : Cxl :=
  let wins := c.wins.put window { w with lost := true }
  let c1 := { c with wins := wins, late := c.late.filter (fun b => !w.covers b) }
  if wins.all (fun v => v.2.lost || v.2.sub != w.sub) then c1.setLink w.sub 0 0 else c1
theorem Cxl.lose_wins (c : Cxl) (window : Nat) (w : CxlWin) : (c.lose window w).wins = c.wins.put window { w with lost := true } := by
  unfold Cxl.lose
  dsimp only
  split <;> rfl
/-- The loss of a window is told of. -/
def State.tellLoss (s : State) (port window : Nat) (w : CxlWin) : State :=
  ((s.setCxl port ((s.cxl port).lose window w)).raise port 0x88 2).cxlEvent port window 2
/-- The partitions that hold units of a window. -/
def State.windowHolders (s : State) (w : CxlWin) : List Nat :=
  (List.range 8).filter (fun p => (s.part p).held && (s.part p).cxl.any (fun u => w.covers (cxlBase + 2 ^ 30 * u)))
theorem State.loseWindow_eq {s : State} {port window : Nat} {w : CxlWin} (hport : port < 2) (hw : Tbl.find (s.cxl port).wins window = some w) (hlost : w.lost = false) :
    s.loseWindow port window = ((s.tellLoss port window w).each ((s.tellLoss port window w).windowHolders w)
      (fun s p => s.lostMemory p 3 (fun a n => meets a n w.base (2 ^ 30 * w.gib)))).unmapLost := by
  have hcond : ¬ (w.lost || 2 ≤ port) = true := by simp [hlost]; omega
  rw [State.loseWindow, hw]
  exact if_neg hcond
theorem State.tellLoss_touch (s : State) (port window : Nat) (w : CxlWin) :
    Touch 0x144001400 (s.setCxl port ((s.cxl port).lose window w)) (s.tellLoss port window w) :=
  State.cxlEvent_touch (Sub.refl _) _ _ _ _ (State.raise_touch (Sub.refl _) _ _ _ _ (.refl _ _))
theorem State.tellLoss_cxl (s : State) (port window : Nat) (w : CxlWin) : (s.tellLoss port window w).cxl port = (s.cxl port).lose window w := by
  rw [State.cxl, (s.tellLoss_touch port window w).cxls rfl]
  exact State.cxl_setCxl ..
theorem State.tellLoss_parts (s : State) (port window : Nat) (w : CxlWin) : (s.tellLoss port window w).parts = s.parts := by
  rw [(s.tellLoss_touch port window w).parts rfl]
  rfl
theorem State.windowHolders_congr {s t : State} (h : t.parts = s.parts) (w : CxlWin) : t.windowHolders w = s.windowHolders w := by
  simp only [State.windowHolders, State.part_of_parts h]
theorem State.tellLoss_errStatus (s : State) (port window : Nat) (w : CxlWin) : ((s.tellLoss port window w).hdr port 0x88).errStatus.getLsbD 2 = true := by
  have hflag : (((s.setCxl port ((s.cxl port).lose window w)).raise port 0x88 2).hdr port 0x88).errStatus.getLsbD 2 = true :=
    State.raise_errStatus _ _ _ (by decide)
  rw [State.tellLoss]
  generalize (s.setCxl port ((s.cxl port).lose window w)).raise port 0x88 2 = u at *
  exact (u.eventMgmt_flagsStay ..).stay _ _ _ hflag
theorem State.unmapLost_hdr (s : State) (die page : Nat) : s.unmapLost.hdr die page = s.hdr die page := by
  rw [State.hdr, (State.unmapLost_touch (Sub.refl _) s (.refl _ s)).hdrs rfl, State.hdr]

/-! ## CXL_HOT_ADD and CXL_TIMEOUT -/

theorem State.cxlEvent_cxl (s : State) (port window cause k : Nat) : (s.cxlEvent port window cause).cxl k = s.cxl k := by
  rw [State.cxl, (State.cxlEvent_touch (Sub.refl _) s port window cause (.refl _ s)).cxls rfl, State.cxl]
theorem exec_cxlHotAdd {dev : CxlDev} (h : dev.port < 2) (s : State) : exec (.cxlHotAdd dev) s = .next (s.addCxl dev) := by
  have harm : exec (.cxlHotAdd dev) s = execCxlHotAdd dev s := rfl
  rw [harm, execCxlHotAdd, if_pos h]
/-- A request's line is awaited. -/
def Cxl.await (c : Cxl) (b : Nat) : Cxl := { c with timeout := bump c.timeout, late := if c.late.contains b then c.late else b :: c.late }
theorem Cxl.mem_await_late (c : Cxl) (b : Nat) : b ∈ (c.await b).late := by
  rw [Cxl.await]
  split
  · next h => exact List.contains_iff_mem.mp h
  · exact List.mem_cons_self
/-- The state in which an unanswered request is noted. -/
def State.timedOut (s : State) (a : Nat) : State :=
  (s.setCxl (cxlPort a) ((s.cxl (cxlPort a)).await (a / 64 * 64))).raise (cxlPort a) 0x88 1
theorem State.timedOut_cxl (s : State) (a : Nat) : (s.timedOut a).cxl (cxlPort a) = (s.cxl (cxlPort a)).await (a / 64 * 64) := by
  rw [State.cxl, State.timedOut, (State.raise_touch (Sub.refl _) _ _ _ _ (.refl _ _)).cxls rfl]
  exact State.cxl_setCxl ..
theorem exec_cxlTimeout {s : State} {a : Nat} (hlow : cxlBase ≤ a) (hwin : s.window a ≠ none) (wr : Bool) : exec (.cxlTimeout a wr) s
    = .next (if wr then { s.timedOut a with poison := addRange (s.timedOut a).poison (a / 64 * 64) (a / 64 * 64 + 64) } else (s.timedOut a).memError (a / 64 * 64)) := by
  have harm : exec (.cxlTimeout a wr) s = execCxlTimeout a wr s := rfl
  have hcond : ¬ ((s.window a).isNone || decide (a < cxlBase)) = true := by
    simp only [Bool.or_eq_true, Option.isNone_iff_eq_none, decide_eq_true_eq, not_or]
    exact ⟨hwin, Nat.not_lt.mpr hlow⟩
  rw [harm, execCxlTimeout, if_neg hcond]
  rfl

end Sys2Proof.Machine

open Sys2Proof Sys2Proof.Machine

/-- Settles O45: the loss of a window leaves every other port entry and the grants of the partitions, of which its holders alone become DEGRADED; what stays mapped of the lost windows follows from the grants. That a device without a window is counted, and that a lost window's registers go only with its last holder, are log 37's and log 136's readings; that the line of a request that timed out is marked and its requester waits, log 140's. -/
theorem cxlDevicesComeAndGo : Obligations.CxlDevicesComeAndGo := by
  unfold Obligations.CxlDevicesComeAndGo
  refine ⟨fun dev s hport => ?_, fun port win w s hport hw hlost => ?_, fun a wr s hlow hwin => ?_⟩
  · intro sub c gib slot
    refine ⟨fun hdown => ?_, fun i b g hup hslot hgib hfit => ?_, fun hup hnone => ?_⟩
    · rw [exec_cxlHotAdd hport, State.addCxl, if_pos hdown]
    · refine ⟨_, exec_cxlHotAdd hport s, ?_⟩
      have hplaced : s.addCxl dev = let s1 := s.setCxl dev.port { c with wins := c.wins.put i { base := b, gib := g, sub := sub } }
          if g < gib then s1.cxlEvent dev.port i 1 else s1 := by
        rw [State.addCxl, if_neg hup, if_neg hgib]
        simp only [hslot, hfit, c, gib, slot, sub]
      rw [hplaced]
      dsimp only
      split
      · rw [State.cxlEvent_cxl, State.cxl_setCxl]
      · rw [State.cxl_setCxl]
    · refine ⟨_, exec_cxlHotAdd hport s, ?_⟩
      have hunplaced : s.addCxl dev = (s.setCxl dev.port { c with unplaced := c.unplaced + 1 }).cxlEvent dev.port 0xFF 1 := by
        rw [State.addCxl, if_neg hup]
        obtain hnone | hnone | hnone := hnone
        · simp only [hnone, c, slot]
        · rw [if_pos hnone]
          split
          case h_1 heq => cases heq
          case h_2 => rfl
        · have hfit : (if gib = 0 then none else c.fit dev.port gib) = none := by rw [hnone, ite_self]
          rw [hfit]
          split
          case h_1 heq => cases heq
          case h_2 => rfl
      rw [hunplaced, State.cxlEvent_cxl, State.cxl_setCxl]
  · intro holds
    have hexec : exec (.cxlLinkDown port win) s = .next (s.loseWindow port win) := rfl
    rw [State.loseWindow_eq hport hw hlost, State.windowHolders_congr (s.tellLoss_parts port win w)] at hexec
    have htold := s.tellLoss_errStatus port win w
    have hcxl := s.tellLoss_cxl port win w
    have hparts := s.tellLoss_parts port win w
    generalize s.tellLoss port win w = u at *
    set lost : Nat → Nat → Bool := fun a n => meets a n w.base (2 ^ 30 * w.gib)
    set v := u.each (s.windowHolders w) (fun s p => s.lostMemory p 3 lost) with hv
    have hcxls : v.cxls = u.cxls := (State.each_touch (fun t p ht => State.lostMemory_touch_narrow (Sub.refl _) t p 3 lost ht) (.refl _ u)).cxls rfl
    have hgrants : Stays State.cxlGrants s v := (Stays.cxlGrants_of_parts hparts).trans (.each (fun t p => t.lostMemory_cxlGrants p 3 lost) _ u)
    have hwins : (v.unmapLost.cxl port).wins = ((s.cxl port).wins.put win { w with lost := true }).filter (fun e => !e.2.lost || v.windowHeld e.2) := by
      rw [v.unmapLost_wins hport, State.cxl, hcxls]
      have hu : Tbl.get {} u.cxls port = (s.cxl port).lose win w := hcxl
      rw [hu, Cxl.lose_wins]
    have hheld : v.windowHeld { w with lost := true } = true ↔ ∃ p < 8, holds p := by
      rw [State.windowHeld_congr hgrants]
      exact State.windowHeld_iff
    refine ⟨_, hexec, ?_, fun hsome => ?_, fun hnone e he => ?_, fun p hp hholds hthaw => ?_⟩
    · rw [State.unmapLost_hdr]
      exact (State.each_flagsStay (fun t p => t.lostMemory_flagsStay p 3 lost) _ u).stay _ _ _ htold
    · rw [hwins]
      refine Tbl.find_filter ?_ (by rw [Tbl.find_put, if_pos rfl])
      rw [hheld.mpr hsome, Bool.or_true]
    · rw [hwins, List.mem_filter] at he
      intro heq
      obtain ⟨-, hkeep⟩ := he
      rw [heq, Bool.not_true, Bool.false_or] at hkeep
      exact hnone (hheld.mp hkeep)
    · have hunmap : v.unmapLost.part p = v.part p := State.part_of_parts ((State.unmapLost_touch (Sub.refl _) v (.refl _ v)).parts rfl) p
      have hupart : u.part p = s.part p := State.part_of_parts hparts p
      obtain ⟨hheldp, x, hx, hcovers⟩ := hholds
      have hmem : p ∈ s.windowHolders w :=
        List.mem_filter.mpr ⟨List.mem_range.mpr hp, Bool.and_eq_true_iff.mpr ⟨hheldp, List.any_eq_true.mpr ⟨x, hx, hcovers⟩⟩⟩
      rw [hunmap]
      exact State.each_lostMemory_st 3 lost hmem (by rw [hupart]; simpa [Part.held] using hheldp) (by rwa [hupart])
  · refine ⟨_, exec_cxlTimeout hlow hwin wr, ?_⟩
    have hcxl := s.timedOut_cxl a
    have hflag : ((s.timedOut a).hdr (cxlPort a) 0x88).errStatus.getLsbD 1 = true := State.raise_errStatus _ _ _ (by decide)
    generalize s.timedOut a = u at *
    cases wr with
    | true =>
      have hpoisoned : inRange (addRange u.poison (a / 64 * 64) (a / 64 * 64 + 64)) (a / 64 * 64) = true := by
        simp [addRange, inRange]
      exact ⟨by rw [if_pos rfl]; exact congrArg Cxl.timeout hcxl, hflag, by rw [if_pos rfl]; exact hcxl ▸ Cxl.mem_await_late .., fun _ => hpoisoned⟩
    | false =>
      have htold : (u.memError (a / 64 * 64)).cxl (cxlPort a) = u.cxl (cxlPort a) := by
        rw [State.cxl, (State.memError_touch (Sub.refl _) u _ (.refl _ u)).cxls rfl, State.cxl]
      rw [if_neg Bool.false_ne_true, htold, hcxl]
      exact ⟨rfl, (u.memError_flagsStay _).stay _ _ _ hflag, Cxl.mem_await_late .., fun h => absurd h Bool.false_ne_true⟩
end

section
/-! SUPPORT. Register writes: which page and word an address names, what raised error flags leave of the others, and the bits of a routing bank (spec/16 R538 to R543). -/

namespace Sys2Proof.Machine

/-! ## Packed bits -/

theorem packBits_succ (n : Nat) (g : Nat → Bool) : packBits (n + 1) g = packBits n g + b2n (g n) * 2 ^ n := by
  rw [packBits, packBits, List.range_succ, List.foldl_append]
  rfl
theorem packBits_lt (n : Nat) (g : Nat → Bool) : packBits n g < 2 ^ n := by
  induction n with
  | zero => exact Nat.zero_lt_one
  | succ n ih =>
    rw [packBits_succ, Nat.pow_succ]
    have hbit : b2n (g n) ≤ 1 := by cases g n <;> decide
    have := Nat.mul_le_mul_right (2 ^ n) hbit
    omega
theorem testBit_packBits {n k : Nat} (hk : k < n) (g : Nat → Bool) : (packBits n g).testBit k = g k := by
  induction n with
  | zero => exact absurd hk (Nat.not_lt_zero k)
  | succ n ih =>
    rw [packBits_succ, Nat.add_comm, Nat.mul_comm]
    obtain hlt | rfl := Nat.lt_succ_iff_lt_or_eq.mp hk
    · rw [Nat.testBit_two_pow_mul_add _ (packBits_lt n g), if_pos hlt, ih hlt]
    · rw [Nat.testBit_two_pow_mul_add _ (packBits_lt k g), if_neg (Nat.lt_irrefl k), Nat.sub_self]
      cases g k <;> decide

/-! ## A flag that other flags leave -/

/-- ERR_STATUS bit n of a page. -/
def State.flag (die page n : Nat) (s : State) : Bool := (s.hdr die page).errStatus.getLsbD n
section
variable {die page n : Nat}
theorem State.setHdr_flag {s : State} {d p : Nat} {x : Header}
    (h : hdrKey die page = hdrKey d p → x.errStatus.getLsbD n = (s.hdr d p).errStatus.getLsbD n) : Stays (State.flag die page n) s (s.setHdr d p x) := by
  constructor
  rw [State.flag, State.flag, State.hdr, State.setHdr, Tbl.get_put]
  split
  case isTrue hkey =>
    rw [h hkey, State.hdr, State.hdr, hkey]
  case isFalse => rfl
theorem Touch.flag {m : Nat} {s t : State} (h : Touch m s t) (hm : m.testBit 32 = false) : Stays (State.flag die page n) s t :=
  ⟨by rw [State.flag, State.hdr, h.hdrs hm, State.flag, State.hdr]⟩
/-- EVENT_LOST is another flag. -/
def NotEventLost (die page n : Nat) : Prop := n ≠ 0 ∨ ∀ lead, hdrKey die page ≠ hdrKey lead 0xC3
theorem getLsbD_setBit_ne {w : Nat} (v : BitVec w) {i j : Nat} (h : i ≠ j) : (setBit v i true).getLsbD j = v.getLsbD j := by
  rw [getLsbD_setBit_true, decide_eq_false h, Bool.and_false, Bool.or_false]
theorem State.setHdr_intStatus_flag (s : State) (d p : Nat) (v : Word) : Stays (State.flag die page n) s (s.setHdr d p { s.hdr d p with intStatus := v }) :=
  State.setHdr_flag fun _ => rfl
theorem State.lostError_flag (h : NotEventLost die page n) (s : State) : Stays (State.flag die page n) s s.lostError := by
  have hlost : Stays (State.flag die page n) s (s.setHdr s.lead 0xC3 { s.hdr s.lead 0xC3 with
      errStatus := setBit (s.hdr s.lead 0xC3).errStatus 0 true, errCount := satInc (s.hdr s.lead 0xC3).errCount }) :=
    State.setHdr_flag fun hkey => getLsbD_setBit_ne _ (h.resolve_right (fun hne => hne _ hkey)).symm
  unfold State.lostError
  extract_lets d h s1 s2 s3 g
  have h2 : Stays (State.flag die page n) s s2 := by
    have h1 : Stays (State.flag die page n) s s1 := hlost
    clear_value s1
    exact .ite h1 (h1.trans ((State.rasReport_touch (Sub.refl _) s1 0 (.refl _ s1)).flag rfl))
  have h3 : Stays (State.flag die page n) s s3 := h2.trans (.each (fun t _ => .ite ((State.pushEvent_touch (Sub.refl _) t _ _ _ _ _ (.refl _ t)).flag rfl) (.refl t)) _ s2)
  clear_value s3 s2
  exact .ite (h3.trans (s3.setHdr_intStatus_flag ..)) h2
theorem State.event_flag (h : NotEventLost die page n) (s : State) (e part code die' : Nat) (pl : List Byte) :
    Stays (State.flag die page n) s (s.event e part code die' pl) := by
  have hpush (t : State) (part code die' : Nat) (pl : List Byte) : Stays (State.flag die page n) t (t.pushEvent e part code die' pl) :=
    (State.pushEvent_touch (Sub.refl _) t e part code die' pl (.refl _ t)).flag rfl
  have hset (t : State) (x : Endpoint) : Stays (State.flag die page n) t (t.setEp e x) := (State.setEp_touch (Sub.refl _) t e x (.refl _ t)).flag rfl
  unfold State.event
  extract_lets x s1 y
  have h1 : Stays (State.flag die page n) s s1 := (hset s _).trans (hpush ..)
  exact .ite (.refl s) (.ite ((hset s _).trans (State.lostError_flag h _)) (.ite (hpush ..)
    (.ite (h1.trans ((hset s1 _).trans (State.lostError_flag h _))) (h1.trans (hpush ..)))))
theorem State.raise_flag (h : NotEventLost die page n) (s : State) {bit : Nat} (hbit : bit ≠ n) : Stays (State.flag die page n) s (s.raise die page bit) := by
  have hflag : Stays (State.flag die page n) s (s.setHdr die page { s.hdr die page with
      errStatus := setBit (s.hdr die page).errStatus bit true, errCount := satInc (s.hdr die page).errCount }) :=
    State.setHdr_flag fun _ => getLsbD_setBit_ne _ hbit
  unfold State.raise
  extract_lets g s1 s2 s3 g'
  have h1 : Stays (State.flag die page n) s s1 := hflag.trans ((State.siteErr_touch (Sub.refl _) _ die page (.refl _ _)).flag rfl)
  have h2 : Stays (State.flag die page n) s s2 := by
    clear_value s1
    exact .ite h1 (h1.trans ((State.rasReport_touch (Sub.refl _) s1 _ (.refl _ s1)).flag rfl))
  have h3 : Stays (State.flag die page n) s s3 := h2.trans (.each (fun t e => .ite (t.event_flag h ..) (.refl t)) _ s2)
  clear_value s3 s2
  exact .ite (h3.trans (s3.setHdr_intStatus_flag ..)) h2
end
theorem notEventLost_of_page {die page n : Nat} (hpage : page < 0x4000) (h : n ≠ 0 ∨ page ≠ 0xC3) : NotEventLost die page n := by
  refine h.imp_right fun hne lead hkey => ?_
  rw [hdrKey, hdrKey] at hkey
  split at hkey <;> simp at hkey <;> omega
/-- The flags that hardware sets in a cycle are set; every other flag of the page is as it was. -/
theorem State.raiseBits_flag {die page : Nat} (hpage : page < 0x4000) (s : State) (hw : Nat) {n : Nat} (hn : n < 32) :
    (s.raiseBits die page hw).flag die page n = (s.flag die page n || (bitOf hw n && bitOf (errBits (pageType page)) n)) := by
  by_cases hset : (bitOf hw n && bitOf (errBits (pageType page)) n) = true
  · rw [hset, Bool.or_true]
    refine State.each_establishes (P := fun t k => k < 32 → (bitOf hw k && bitOf (errBits (pageType page)) k) = true → t.flag die page k = true)
      (fun t k hk hc => ?_) (fun t k j ht hk hc => ?_) _ s n (List.mem_range.mpr hn) hn hset
    · rw [if_pos hc]
      exact t.raise_errStatus die page hk
    · exact (FlagsStay.ite (t.raise_flagsStay die page j) (.refl t)).stay die page k (ht hk hc)
  · rw [Bool.eq_false_iff.mpr hset, Bool.or_false]
    by_cases hother : n ≠ 0 ∨ page ≠ 0xC3
    · refine (Stays.each (fun t k => ?_) _ s).eq
      by_cases hk : k = n
      · rw [hk, if_neg hset]
        exact .refl t
      · exact .ite (t.raise_flag (notEventLost_of_page hpage hother) hk) (.refl t)
    · obtain ⟨hzero, hpart⟩ := not_or.mp hother
      rw [not_not] at hzero hpart
      rw [hzero, hpart] at hset
      refine congrArg (State.flag die page n) (State.each_eq_self (fun k => if_neg ?_) _)
      rw [hpart]
      cases k with
      | zero => exact hset
      | succ k =>
        have hone : bitOf (errBits (pageType 0xC3)) (k + 1) = false := by
          show Nat.testBit 1 (k + 1) = false
          rw [Nat.testBit_succ]
          exact Nat.zero_testBit k
        rw [hone, Bool.and_false]
        exact Bool.false_ne_true


/-! ## REGISTER_WRITE -/

theorem csrPage_lt (a : Nat) : csrPage a < 0x4000 := by
  rw [csrPage]
  omega
section
variable {a : Nat} {s : State} (hreg : epReg a = none) (hlow : csrBase 0 ≤ a) (hhigh : a < csrBase 2) (halign : a % 4 = 0)
  (hpresent : s.present (csrDie a) (csrPage a) = true)
include hreg hlow hhigh halign hpresent
theorem exec_registerWrite (v hw : Word) : exec (.registerWrite a v hw) s
    = if s.legalWord 9 a v then .next (s.writeWord 9 a v hw) else .next (s.countErr (csrDie a) (csrPage a)) := by
  have harm : exec (.registerWrite a v hw) s = execRegisterWrite a v hw s := rfl
  have hfar : 0xFF000000000 ≤ a := hlow
  have hmem : ¬ (isHostMem a || isImsic a) = true := by
    simp only [isHostMem, isImsic, Bool.or_eq_true, Bool.and_eq_true, decide_eq_true_eq]
    omega
  have hends : ¬ (decide (0x1000000000 ≤ a) && decide (a < 0x1000800000)) = true := by
    simp only [Bool.and_eq_true, decide_eq_true_eq]
    omega
  have hin : ¬ (decide (a < csrBase 0) || decide (csrBase 2 ≤ a)) = true := by
    simp only [Bool.or_eq_true, decide_eq_true_eq, not_or]
    exact ⟨Nat.not_lt.mpr hlow, Nat.not_le.mpr hhigh⟩
  have hpage : (decide (csrBase 0 ≤ a) && decide (a < csrBase 2) && decide (a % 4 = 0) && s.present (csrDie a) (csrPage a)) = true := by
    simp [hlow, hhigh, halign, hpresent]
  rw [harm, execRegisterWrite, hreg]
  dsimp only
  rw [if_neg hmem, if_neg hends, if_neg hin, if_pos hpage]
/-- A word of a page's header. -/
theorem exec_registerWrite_header (hoff : csrOff a < 0x40) (v hw : Word) :
    exec (.registerWrite a v hw) s = .next (s.writeHeader (csrDie a) (csrPage a) (csrOff a) v hw) := by
  have hlegal : s.legalWord 9 a v = true := by
    rw [State.legalWord]
    exact if_pos hoff
  rw [exec_registerWrite hreg hlow hhigh halign hpresent, if_pos hlegal, State.writeWord]
  exact congrArg _ (if_pos hoff)
/-- A 32-bit register of a block out of reset. -/
theorem exec_registerWrite_block (hoff : 0x40 ≤ csrOff a) (hwl : wideLow a = false) (hwh : wideHigh a = false)
    (hreset : (s.hdr (csrDie a) (csrPage a)).resetState = 0) (v hw : Word) : exec (.registerWrite a v hw) s
      = if s.legalReg (csrPage a) (csrOff a) v.toNat then .next (s.writeBlk (csrDie a) (csrPage a) (csrOff a) v.toNat hw)
        else .next (s.countErr (csrDie a) (csrPage a)) := by
  have hoff' : ¬ csrOff a < 0x40 := Nat.not_lt.mpr hoff
  have hlegal : s.legalWord 9 a v = s.legalReg (csrPage a) (csrOff a) v.toNat := by
    simp only [State.legalWord, if_neg hoff', hwl, hwh, Bool.false_eq_true, if_false]
  have hword : s.writeWord 9 a v hw = s.writeBlk (csrDie a) (csrPage a) (csrOff a) v.toNat hw := by
    simp only [State.writeWord, if_neg hoff', hwl, hwh, hreset, bne_self_eq_false, Bool.false_eq_true, if_false]
  rw [exec_registerWrite hreg hlow hhigh halign hpresent, hlegal, hword]
end
/-- An outbound stream that holds nothing is not framed. -/
theorem State.frameTx_of_empty {s : State} {e : Nat} (h : (s.ep e).tx = []) (route : List Nat) (n : Nat) : s.frameTx e route n = s := by
  cases n with
  | zero => rfl
  | succ n =>
    rw [State.frameTx]
    exact if_pos (by simp [h])
theorem exec_registerWrite_ep {a e : Nat} {s : State} (hreg : epReg a = some (e, 0)) (htx : (s.ep e).tx = []) (v hw : Word) :
    let x := s.ep e
    let y := if x.lock then x else { x with enable := v.getLsbD 0, mgmt := v.getLsbD 1 }
    exec (.registerWrite a v hw) s = .next (s.setEp e (if x.cfgDone then y else { y with lock := v.getLsbD 31, cfgDone := true })) := by
  intro x y
  have harm : exec (.registerWrite a v hw) s = execRegisterWrite a v hw s := rfl
  have hy : y.tx = [] := by
    show (if x.lock then x else { x with enable := v.getLsbD 0, mgmt := v.getLsbD 1 }).tx = []
    split <;> exact htx
  rw [harm, execRegisterWrite, hreg]
  refine congrArg _ (State.frameTx_of_empty ?_ [] _)
  rw [State.ep_setEp]
  split <;> exact hy

/-! ## Routing banks -/

/-- A bank that a write has set. -/
def RBank.written (old : RBank) (s : State) (v : Word) : RBank :=
  { usable := BitVec.ofNat 12 (packBits 12 (fun k => v.getLsbD k && (old.usable.getLsbD k || !s.drained k))), adapt := BitVec.ofNat 3 (v.toNat / 4096) }
theorem RBank.written_usable (old : RBank) (s : State) (v : Word) {k : Nat} (hk : k < 12) :
    (old.written s v).usable.getLsbD k = (v.getLsbD k && (old.usable.getLsbD k || !s.drained k)) := by
  rw [RBank.written, BitVec.getLsbD_ofNat, decide_eq_true hk, Bool.true_and, testBit_packBits hk]

end Sys2Proof.Machine

open Sys2Proof Sys2Proof.Machine

/-- Settles O37: a header's flags are set one by one, each leaving the others, and a block's register goes by its own row. That an invalid LOC makes no root is log 73's reading. -/
theorem registerRowsTakeEffect : Obligations.RegisterRowsTakeEffect := by
  unfold Obligations.RegisterRowsTakeEffect
  refine ⟨⟨fun a v hw s => ?_, fun a e v hw s hreg htx => exec_registerWrite_ep hreg htx v hw⟩, fun s => ⟨rfl, fun v => ?_, fun w => ⟨fun h => ?_, fun h => ?_⟩, fun v => ⟨fun h => ?_, fun h => ?_⟩⟩⟩
  · intro die page off h hreg hlow hhigh halign hpresent
    have hheader := exec_registerWrite_header (s := s) hreg hlow hhigh halign hpresent
    refine ⟨fun hoff => ?_, fun hoff => ?_, fun hoff => ?_, fun hoff hwl hwh hreset => ⟨fun hlegal => ?_, fun hlegal => ?_⟩⟩
    · have hoff : csrOff a = 0x018 := hoff
      refine ⟨_, hheader (by rw [hoff]; decide) v hw, fun n hn => ?_⟩
      rw [hoff]
      have hbits := (s.setHdr die page { h with errStatus := h.errStatus &&& ~~~ v }).raiseBits_flag (die := die) (csrPage_lt a) hw.toNat hn
      refine Eq.trans hbits ?_
      rw [State.flag, State.hdr_setHdr, BitVec.getLsbD_and, BitVec.getLsbD_not, decide_eq_true hn, Bool.true_and]
    · have hoff : csrOff a = 0x01C := hoff
      rw [hheader (by rw [hoff]; decide), hoff]
      rfl
    · have hoff : csrOff a = 0x028 := hoff
      rw [hheader (by rw [hoff]; decide), hoff]
      rfl
    · rw [exec_registerWrite_block hreg hlow hhigh halign hpresent hoff hwl hwh hreset, if_pos hlegal]
    · rw [exec_registerWrite_block hreg hlow hhigh halign hpresent hoff hwl hwh hreset, if_neg (Bool.eq_false_iff.mp hlegal)]
  · intro set
    have harm : ∀ bank < 2, exec (.routerBank bank v) s = .next (s.writeBank s.lead bank v) := fun bank h => by
      have harm : exec (.routerBank bank v) s = execRouterBank bank v s := rfl
      rw [harm, execRouterBank, if_pos h]
    have hset : ∀ old : RBank, set old (old.written s v) := fun old => ⟨rfl, fun k hk => RBank.written_usable old s v hk⟩
    refine ⟨fun h => ⟨s.router.bank0.written s v, hset _, ?_⟩, fun h => ⟨s.router.bank1.written s v, hset _, ?_⟩, fun h => ?_, fun h => ?_⟩
    · rw [harm 0 (by decide)]
      exact congrArg _ (if_neg (not_not_intro h))
    · rw [harm 1 (by decide)]
      exact congrArg _ (if_neg (not_not_intro h))
    · rw [harm 0 (by decide)]
      exact congrArg _ (if_pos h)
    · rw [harm 1 (by decide)]
      exact congrArg _ (if_pos h)
  · have hlegal : s.legalReg 0xB0 0x060 w.toNat = true := by
      show (decide (1000 ≤ bitsOf w.toNat 0 16) && decide (bitsOf w.toNat 0 16 ≤ s.variant.maxWatts)) = true
      rw [Bool.and_eq_true, decide_eq_true_eq, decide_eq_true_eq]
      exact h
    have harm : exec (.pwrCap w) s = execPwrCap w s := rfl
    rw [harm, execPwrCap, if_pos hlegal]
    rfl
  · have hlegal : ¬ s.legalReg 0xB0 0x060 w.toNat = true := by
      show ¬ (decide (1000 ≤ bitsOf w.toNat 0 16) && decide (bitsOf w.toNat 0 16 ≤ s.variant.maxWatts)) = true
      rw [Bool.and_eq_true, decide_eq_true_eq, decide_eq_true_eq]
      exact h
    have harm : exec (.pwrCap w) s = execPwrCap w s := rfl
    rw [harm, execPwrCap, if_neg hlegal]
  · have harm : exec (.timeSet v) s = .next (s.writeTimeSet v) := rfl
    rw [harm, State.writeTimeSet, if_pos (by simpa [and_assoc] using h)]
  · have harm : exec (.timeSet v) s = .next (s.writeTimeSet v) := rfl
    rw [harm, State.writeTimeSet, if_neg (by simpa [and_assoc] using h)]
end

section
/-! SUPPORT. CSR commands and header controls: of a header, errors and events change only its flags, its error count and what it has told; how HOLD, GO and FREEZE act (spec/16 R534 to R537, spec/12 R432, R437). -/

namespace Sys2Proof.Machine

/-! ## What errors leave of a header -/

/-- A header but for its flags, its error count and what it has told. -/
def Header.controls (h : Header) : Header := { h with errStatus := 0, errCount := 0, intStatus := 0 }
/-- The headers but for their flags, error counts and what they have told. -/
def State.controls (s : State) (die page : Nat) : Header := (s.hdr die page).controls
theorem State.setHdr_controls {s : State} {d p : Nat} {x : Header} (h : x.controls = (s.hdr d p).controls) : Stays State.controls s (s.setHdr d p x) := by
  constructor
  funext d' p'
  rw [State.controls, State.controls, State.hdr, State.setHdr, Tbl.get_put]
  split
  case isTrue hkey => rw [h, State.hdr, State.hdr, hkey]
  case isFalse => rfl
theorem State.setHdr_flagged_controls (s : State) (d p : Nat) (v c : Word) : Stays State.controls s (s.setHdr d p { s.hdr d p with errStatus := v, errCount := c }) :=
  State.setHdr_controls rfl
theorem State.setHdr_told_controls (s : State) (d p : Nat) (v : Word) : Stays State.controls s (s.setHdr d p { s.hdr d p with intStatus := v }) :=
  State.setHdr_controls rfl
theorem Touch.controls {m : Nat} {s t : State} (h : Touch m s t) (hm : m.testBit 32 = false := by rfl) : Stays State.controls s t :=
  ⟨funext fun d => funext fun p => by rw [State.controls, State.hdr, h.hdrs hm, State.controls, State.hdr]⟩
/-- HOLD, ISOLATE and the state of a reset stay. -/
theorem Stays.hdr {s t : State} (h : Stays State.controls s t) (die page : Nat) : (t.hdr die page).hold = (s.hdr die page).hold
    ∧ (t.hdr die page).isolate = (s.hdr die page).isolate ∧ (t.hdr die page).resetState = (s.hdr die page).resetState := by
  have hcontrols : (t.hdr die page).controls = (s.hdr die page).controls := congrFun (congrFun h.eq die) page
  exact ⟨(congrArg Header.hold hcontrols :), (congrArg Header.isolate hcontrols :), (congrArg Header.resetState hcontrols :)⟩
theorem State.lostError_controls (s : State) : Stays State.controls s s.lostError := by
  unfold State.lostError
  extract_lets d h s1 s2 s3 g
  have h2 : Stays State.controls s s2 := by
    have h1 : Stays State.controls s s1 := s.setHdr_flagged_controls ..
    clear_value s1
    exact .ite h1 (h1.trans (State.rasReport_touch (Sub.refl _) s1 0 (.refl _ s1)).controls)
  have h3 : Stays State.controls s s3 := h2.trans (.each (fun t _ => .ite (State.pushEvent_touch (Sub.refl _) t _ _ _ _ _ (.refl _ t)).controls (.refl t)) _ s2)
  clear_value s2
  exact .ite (h3.trans (s3.setHdr_told_controls ..)) h2
theorem State.event_controls (s : State) (e part code die : Nat) (pl : List Byte) : Stays State.controls s (s.event e part code die pl) := by
  have hpush (t : State) (part code die : Nat) (pl : List Byte) : Stays State.controls t (t.pushEvent e part code die pl) :=
    (State.pushEvent_touch (Sub.refl _) t e part code die pl (.refl _ t)).controls
  have hset (t : State) (x : Endpoint) : Stays State.controls t (t.setEp e x) := (State.setEp_touch (Sub.refl _) t e x (.refl _ t)).controls
  unfold State.event
  extract_lets x s1 y
  have h1 : Stays State.controls s s1 := (hset s _).trans (hpush ..)
  exact .ite (.refl s) (.ite ((hset s _).trans (State.lostError_controls _)) (.ite (hpush ..)
    (.ite (h1.trans ((hset s1 _).trans (State.lostError_controls _))) (h1.trans (hpush ..)))))
theorem State.raise_controls (s : State) (die page bit : Nat) : Stays State.controls s (s.raise die page bit) := by
  unfold State.raise
  extract_lets h s1 s2 s3 g
  have h1 : Stays State.controls s s1 := (State.siteErr_touch (Sub.refl _) _ die page (.refl _ _)).controls.after (s.setHdr_flagged_controls ..)
  have h2 : Stays State.controls s s2 := by
    clear_value s1
    exact .ite h1 (h1.trans (State.rasReport_touch (Sub.refl _) s1 _ (.refl _ s1)).controls)
  have h3 : Stays State.controls s s3 := h2.trans (.each (fun t e => .ite (t.event_controls ..) (.refl t)) _ s2)
  clear_value s2
  exact .ite (h3.trans (s3.setHdr_told_controls ..)) h2
theorem State.respond_controls (s : State) (c : GwyPkt) (st det arg0 arg1 : Nat) (pl : List Byte) : Stays State.controls s (s.respond c st det arg0 arg1 pl) :=
  (State.respond_touch (Sub.refl _) s c st det arg0 arg1 pl (.refl _ s)).controls

/-! ## Packets go on -/

theorem State.arriveCmd_controls (s : State) (src m : Nat) (l : List Byte) : Stays State.controls s (s.arriveCmd src m l) := by
  unfold State.arriveCmd
  extract_lets c x m' s1 m2 s2 s3
  have h1 : Stays State.controls s s1 := (State.setMod_touch (Sub.refl _) s m _ (.refl _ s)).controls
  have h2 : Stays State.controls s s2 := h1.trans (State.setMod_touch (Sub.refl _) s1 m _ (.refl _ s1)).controls
  have h3 : Stays State.controls s s3 := h1.trans (State.setEp_touch (Sub.refl _) s1 src _ (.refl _ s1)).controls
  have hqueue : ∀ u : State, Stays State.controls u { u with cmdq := u.cmdq ++ [c] } := fun u => ⟨rfl⟩
  clear_value s1 s2 s3
  exact .ite (.ite (h1.trans (State.respond_controls ..)) (h1.trans (State.respond_controls ..))) (.ite (h1.trans (State.respond_controls ..))
    (.ite ((h2.trans (State.respond_controls ..)).trans (State.raise_controls ..)) (.ite (h1.trans (State.respond_controls ..))
      (.ite (h3.trans (State.respond_controls ..)) (h3.trans (hqueue s3))))))
theorem State.arrivals_controls (s : State) (e n : Nat) : Stays State.controls s (s.arrivals e n) := by
  induction n generalizing s with
  | zero => exact .refl s
  | succ n ih =>
    rw [State.arrivals]
    split
    · exact .refl s
    · exact (ih _).after ((State.arriveCmd_controls ..).after (State.setEp_touch (Sub.refl _) s e _ (.refl _ s)).controls)
theorem State.frameTx_controls (s : State) (e : Nat) (route : List Nat) (n : Nat) : Stays State.controls s (s.frameTx e route n) := by
  have hset (t : State) (x : Endpoint) : Stays State.controls t (t.setEp e x) := (State.setEp_touch (Sub.refl _) t e x (.refl _ t)).controls
  induction n generalizing s route with
  | zero => exact .refl s
  | succ n ih =>
    rw [State.frameTx]
    extract_lets x len size q
    exact .ite (.refl s) (.ite (hset s _) (.ite (.refl s) ((ih _ _).after ((State.arrivals_controls ..).after (hset s _)))))
theorem State.frameAll_controls (s : State) : Stays State.controls s s.frameAll :=
  .each (fun t e => (State.frameTx_controls ..).after (t.arrivals_controls e _)) _ s

/-! ## Isolation -/

theorem State.isolateBlock_controls (s : State) (die page : Nat) : Stays State.controls s (s.isolateBlock die page) := by
  have hfloe (t : State) (f : Nat) : Stays State.controls t (t.isolateFloe f (die, page)) := by
    unfold State.isolateFloe
    extract_lets l s1
    have h1 : Stays State.controls t s1 := (State.setFloe_touch (Sub.refl _) t f _ (.refl _ t)).controls
    have hnf (u : State) : Stays State.controls u (u.recordNf f) := (State.recordNf_touch (Sub.refl _) u f (.refl _ u)).controls
    clear_value s1
    have hdrop (u : State) (b : Nat) : Stays State.controls u (u.dropWrite f (die, page) b) :=
      (hnf _).after (.ite ((State.raise_controls ..).after (State.countUe_touch (Sub.refl _) u b false (.refl _ u)).controls) (.refl u))
    exact (Stays.each hdrop _ _).after (.ite h1 (h1.trans (hnf s1)))
  have hcmds (t : State) : Stays State.controls t (t.isolateCmds (die, page)) := by
    refine .each (fun u p => ?_) _ t
    split
    · next c s1 h => exact (State.respond_controls ..).after (State.takeCmd_touch (Sub.refl _) h (.refl _ u)).controls
    · exact .refl u
  exact .ite ((hcmds _).after (.each (fun t f => hfloe t f) _ s)) (.refl s)

/-! ## HOLD, FREEZE and GO -/

section
variable {die page : Nat} {s : State} (hpresent : s.present die page = true)
include hpresent
theorem exec_ctrlHold (v : Bool) : exec (.ctrlHold die page v) s = .next (s.writeHold die page v) := by
  have harm : exec (.ctrlHold die page v) s = execCtrlHold die page v s := rfl
  rw [harm, execCtrlHold, if_pos hpresent]
theorem exec_ctrlFreeze (v : Bool) : exec (.ctrlFreeze die page v) s = .next (s.writeFreeze die page v) := by
  have harm : exec (.ctrlFreeze die page v) s = execCtrlFreeze die page v s := rfl
  rw [harm, execCtrlFreeze, if_pos hpresent]
theorem exec_resetCtrlGo : exec (.resetCtrlGo die page) s = .next (s.writeResetCtrl die page true (s.hdr die page).isolate) := by
  have harm : exec (.resetCtrlGo die page) s = execResetCtrlGo die page s := rfl
  rw [harm, execResetCtrlGo, if_pos hpresent]
end
/-- A block reset that begins keeps the page's HOLD and ISOLATE. -/
theorem State.beginBlock_hdr (s : State) (die page : Nat) (iso : Bool) : ((s.beginBlock die page iso).hdr die page).resetState = (if iso then 2 else 1)
    ∧ ((s.beginBlock die page iso).hdr die page).isolate = (s.hdr die page).isolate ∧ ((s.beginBlock die page iso).hdr die page).hold = (s.hdr die page).hold := by
  unfold State.beginBlock
  extract_lets s0 x s1
  have h0 : Stays State.controls s s0 := .ite (s.isolateBlock_controls die page) (.refl s)
  obtain ⟨hhold, hisolate, -⟩ := h0.hdr die page
  have h1 : (s1.hdr die page).resetState = (if iso then 2 else 1) ∧ (s1.hdr die page).isolate = (s0.hdr die page).isolate
      ∧ (s1.hdr die page).hold = (s0.hdr die page).hold := by
    rw [State.hdr_setHdr]
    exact ⟨rfl, rfl, rfl⟩
  rw [hisolate, hhold] at h1
  clear_value s1
  split
  · rw [State.hdr, (State.setPerst_touch (Sub.refl _) s1 die true (.refl _ s1)).hdrs rfl]
    exact h1
  · exact h1

/-! ## CSR_WRITE, CSR_READ and SNAPSHOT -/

section
variable {pv : Nat} {s s1 : State} {c : GwyPkt}

theorem exec_csrWrite (h : Claims.Runs 0x12 pv (fun _ => true) true true legalMem s c s1) (hlow : 0 < c.arg1.toNat) (hhigh : c.arg1.toNat ≤ 16)
    (hlen : c.payload.length = 4 * c.arg1.toNat) (hreach : s1.csrReach c c.arg0.toNat c.arg1.toNat = true)
    (hpresent : ∀ b ∈ csrAddrs c.arg0.toNat c.arg1.toNat, s1.present (csrDie b) (csrPage b) = true)
    (hmay : (s1.ep c.src).mgmt = true ∨ ∀ b ∈ csrAddrs c.arg0.toNat c.arg1.toNat, partWritable b = true)
    (hfree : s1.csrWaits (csrAddrs c.arg0.toNat c.arg1.toNat) = false) :
    let ws := (List.range c.arg1.toNat).map (fun i => (BitVec.ofNat 32 (leAt c.payload (4 * i) 4) : Word))
    exec (.csrWrite pv) s = match s1.badWord c.src c.arg0.toNat ws with
      | some b => .next ((s1.countErr (csrDie b) (csrPage b)).respond c 0x06 4 0 0 [])
      | none => .next ((s1.respond c 0 0 0 0 []).writeWords c.src c.arg0.toNat ws) := by
  intro ws
  obtain ⟨htake, haccept⟩ := h
  have harm : exec (.csrWrite pv) s = execCsrWrite pv s := rfl
  have hsize : ¬ (decide (c.arg1.toNat = 0) || decide (16 < c.arg1.toNat) || decide (c.payload.length ≠ 4 * c.arg1.toNat)) = true := by
    simp only [Bool.or_eq_true, decide_eq_true_eq, hlen]
    omega
  have hall : (csrAddrs c.arg0.toNat c.arg1.toNat).all (fun b => s1.present (csrDie b) (csrPage b)) = true := List.all_eq_true.mpr hpresent
  have hreg : (!(s1.ep c.src).mgmt && !(csrAddrs c.arg0.toNat c.arg1.toNat).all partWritable) = false := by
    obtain hmgmt | hpart := hmay
    · rw [hmgmt]
      rfl
    · rw [List.all_eq_true.mpr hpart, Bool.not_true, Bool.and_false]
  have hgo : ¬ (!s1.csrReach c c.arg0.toNat c.arg1.toNat || !(csrAddrs c.arg0.toNat c.arg1.toNat).all (fun b => s1.present (csrDie b) (csrPage b))
      || (!(s1.ep c.src).mgmt && !(csrAddrs c.arg0.toNat c.arg1.toNat).all partWritable)) = true := by
    rw [hreach, hall, hreg]
    decide
  rw [harm, execCsrWrite, htake]
  simp only [haccept]
  rw [if_neg hsize, if_neg hgo]
  exact if_neg (Bool.eq_false_iff.mp hfree)
theorem exec_csrRead (h : Claims.Runs 0x13 pv (fun c => c.payload.isEmpty) true true legalMem s c s1) (hlow : 0 < c.arg1.toNat) (hhigh : c.arg1.toNat ≤ 16)
    (hreach : s1.csrReach c c.arg0.toNat c.arg1.toNat = true) :
    exec (.csrRead pv) s = .next ((s1.readWords c.src c.arg1.toNat c.arg0.toNat false).1.respond c 0 0 0 0
      ((s1.readWords c.src c.arg1.toNat c.arg0.toNat false).2.flatMap (leBytes 4))) := by
  obtain ⟨htake, haccept⟩ := h
  have harm : exec (.csrRead pv) s = execCsrRead pv s := rfl
  have hsize : ¬ (decide (c.arg1.toNat = 0) || decide (16 < c.arg1.toNat)) = true := by
    simp only [Bool.or_eq_true, decide_eq_true_eq]
    omega
  rw [harm, execCsrRead, htake]
  simp only [haccept]
  rw [if_neg hsize, hreach]
  rfl
/-- One word that is no half of a register of 64 bits is read as it stands. -/
theorem State.readWords_one (s : State) (req a : Nat) (hl : wideLow a = false) (hh : wideHigh a = false) : s.readWords req 1 a false = (s, [s.csrWord a]) := by
  simp only [State.readWords, hl, hh, Bool.false_and, Bool.false_eq_true, if_false]
theorem exec_snapshot (h : Claims.Runs 0x41 pv (fun c => c.arg1 == 0 && c.payload.isEmpty) true false
      (fun st => st == .loaded || st == .paused || st == .degraded || st == .faulted) s c s1)
    (hend : c.arg0.toNat + 1024 * (s1.partFloes pv).length < cxlBase)
    (hmay : s1.hostMay pv c.arg0.toNat (1024 * (s1.partFloes pv).length) true = true)
    (hheld : s1.memHeld c.arg0.toNat (1024 * (s1.partFloes pv).length) = false) :
    let bytes := (s1.partFloes pv).flatMap (fun f => s1.pageImage (s1.floePage f).1 (s1.floePage f).2)
    exec (.snapshot pv) s = .next ((s1.memAnswer c (s1.devWrite c.arg0.toNat bytes []).2 (1024 * (s1.partFloes pv).length) []).devWrite c.arg0.toNat bytes []).1.settle := by
  intro bytes
  obtain ⟨htake, haccept⟩ := h
  have harm : exec (.snapshot pv) s = execSnapshot pv s := rfl
  have hgo : ¬ (decide (cxlBase ≤ c.arg0.toNat + 1024 * (s1.partFloes pv).length) || !s1.hostMay pv c.arg0.toNat (1024 * (s1.partFloes pv).length) true) = true := by
    rw [hmay, decide_eq_false (Nat.not_le.mpr hend)]
    decide
  rw [harm, execSnapshot, htake]
  simp only [haccept]
  rw [if_neg hgo, if_neg (Bool.eq_false_iff.mp hheld)]
end

end Sys2Proof.Machine

open Sys2Proof Sys2Proof.Machine

/-- Settles O36: the CSR commands act once their checks have passed, and isolation and events leave a header's controls. That one illegal value counts once, on the first offending page, and what FREEZE keeps, are log 86's readings. -/
theorem registersAndHeadersAct : Obligations.RegistersAndHeadersAct := by
  unfold Obligations.RegistersAndHeadersAct
  refine ⟨fun pv s s1 c => ?_, fun die page s hpresent => ?_⟩
  · intro a n
    refine ⟨fun h hlow hhigh hlen hreach hpresent hmay hfree => ?_, fun h hlow hhigh hreach => ?_, fun h => ?_⟩
    · intro ws
      have hexec := exec_csrWrite h hlow hhigh hlen hreach hpresent hmay hfree
      exact ⟨fun hgood => by rw [hexec, hgood], fun b hbad => by rw [hexec, hbad]⟩
    · have hexec := exec_csrRead h hlow hhigh hreach
      refine ⟨hexec, fun hone hl hh => ?_⟩
      have hone : c.arg1.toNat = 1 := hone
      rw [hexec, hone, State.readWords_one s1 c.src _ hl hh]
      rfl
    · intro len hend hmay hheld hgood hlost
      have htaken : Answers s s1 := .runs h
      have hfloes : s1.partFloes pv = s.partFloes pv := State.partFloes_of_groups (by rw [State.part_of_parts (htaken.parts rfl)])
      have hanswered : Answers s _ := htaken.trans (Answers.respond s1 c 0 0 len 0 [])
      have hexec := exec_snapshot h (by rw [hfloes]; exact hend) (by rw [hfloes]; exact hmay) (by rw [hfloes]; exact hheld)
      intro bytes
      rw [hexec, hfloes, State.devWrite_of_allGood ((htaken.allGood [] a).trans hgood) ((htaken.lostAt a).trans hlost)]
      simp only [State.memAnswer, if_true]
      rw [State.devWrite_of_allGood ((hanswered.allGood [] a).trans hgood) ((hanswered.lostAt a).trans hlost), State.poke, hanswered.mem rfl]
  · intro h
    refine ⟨fun hok => ⟨fun hidle => ⟨_, exec_resetCtrlGo hpresent, ?_⟩, ?_, _, exec_ctrlHold hpresent false, ?_⟩, fun hok => ⟨?_, ?_, ?_⟩, fun hfreeze => ?_, ?_⟩
    · have hidle' : ¬ ((s.hdr die page).resetState != 0) = true := by
        rw [show (s.hdr die page).resetState = 0 from hidle]
        decide
      have hbegun : s.writeResetCtrl die page true h.isolate = (s.setHdr die page { s.hdr die page with isolate := h.isolate }).beginBlock die page h.isolate := by
        rw [State.writeResetCtrl, if_pos hok]
        exact if_neg hidle'
      obtain ⟨hstate, hisolate, hhold⟩ := State.beginBlock_hdr (s.setHdr die page { s.hdr die page with isolate := h.isolate }) die page h.isolate
      rw [State.hdr_setHdr] at hisolate hhold
      rw [hbegun]
      exact ⟨hstate, hisolate, hhold⟩
    · rw [exec_ctrlHold hpresent, State.writeHold, if_pos hok]
      rfl
    · rw [State.writeHold, if_pos hok]
      obtain ⟨hhold, -, -⟩ := (s.setHdr die page { s.hdr die page with hold := false }).frameAll_controls.hdr die page
      rw [State.hdr_setHdr] at hhold
      exact hhold
    · rw [exec_resetCtrlGo hpresent, State.writeResetCtrl, if_neg (Bool.eq_false_iff.mp hok)]
      rfl
    · rw [exec_ctrlHold hpresent, State.writeHold, if_neg (Bool.eq_false_iff.mp hok)]
      rfl
    · rw [exec_ctrlHold hpresent, State.writeHold, if_neg (Bool.eq_false_iff.mp hok)]
      rfl
    · rw [exec_ctrlFreeze hpresent, State.writeFreeze]
      exact congrArg _ (if_neg (by rw [show (s.hdr die page).freeze = false from hfreeze]; decide))
    · rw [exec_ctrlFreeze hpresent, State.writeFreeze]
      rfl
end

section
/-! SUPPORT. Flow control: an FC block lets packets of its classes leave, and the oldest packet that is stuck takes the ESCAPE class (spec/09 R287, R293 to R295). -/

namespace Sys2Proof.Machine

/-! ## FC blocks -/

theorem State.fcSweep_sent (s : State) {e : Sent} (h : e ∈ s.router.sent) : e ∈ s.fcSweep.router.sent := by
  unfold State.fcSweep
  generalize List.range 12 = l
  induction l generalizing s with
  | nil => exact h
  | cons k l ih => exact ih (s.fcChanged k) (s.fcChanged_sent k h)
theorem State.fcSweep_queue (s : State) (k : Nat) : (s.fcSweep.port k).queue = (s.port k).queue :=
  ((s.fcSweep_serves (fun _ => False)).ports k).queue id
/-- The OFF bits of a port, and whether its peer is silent, are kept. -/
theorem Port.fixed_off {x y : Port} (h : y.fixed = x.fixed) : y.offMain = x.offMain ∧ y.offEsc = x.offEsc ∧ y.fcSilent = x.fcSilent :=
  ⟨(congrArg Port.offMain h :), (congrArg Port.offEsc h :), (congrArg Port.fcSilent h :)⟩
/-- A port that has heard its peer's OFF bits. -/
def Port.hearOff (x : Port) (main esc : Byte) : Port := { x with offMain := main, offEsc := esc, fcSilent := false }
theorem exec_fc {s : State} {k : Nat} (hup : (s.port k).st = .up) (main esc refresh : Byte) :
    exec (.fc k (fcBlock main esc refresh)) s = .next (((s.setPort k ((s.port k).hearOff main esc)).drain k).fcSweep) := by
  have harm : exec (.fc k (fcBlock main esc refresh)) s = execFc k (fcBlock main esc refresh) s := rfl
  have hblock : beAt (fcBlock main esc refresh) 0 1 = 0x4B ∧ ((fcBlock main esc refresh).drop 4).all (fun b => b == 0) = true := ⟨rfl, rfl⟩
  have hmain : (fcBlock main esc refresh).getD 1 0 = main := rfl
  have hesc : (fcBlock main esc refresh).getD 2 0 = esc := rfl
  simp only [harm, execFc, hup, Port.hearOff]
  rw [if_pos hblock, hmain, hesc]
/-- A packet of a class that is OFF may not start. -/
theorem State.mayStartOn_of_off (s : State) (k : Nat) {x : Port} {p : MeshPkt} (h : x.off p.ch p.escClass = true) : s.mayStartOn k x p = false := by
  rw [State.mayStartOn, h, Bool.not_true, Bool.and_false, Bool.false_and]
theorem exec_fcRefresh {s : State} {k : Nat} (hup : (s.port k).st = .up) : exec (.fcRefresh k) s = .next (s.sendFc k) := by
  have harm : exec (.fcRefresh k) s = execFcRefresh k s := rfl
  simp only [harm, execFcRefresh, hup]
theorem exec_fcTimeout {s : State} {k : Nat} (hup : (s.port k).st = .up) :
    exec (.fcTimeout k) s = .next (s.setPort k { s.port k with fcSilent := true }) := by
  have harm : exec (.fcTimeout k) s = execFcTimeout k s := rfl
  simp only [harm, execFcTimeout, hup]

/-! ## The ESCAPE class -/

/-- Every productive port of a packet is OFF for it. -/
def State.stuck (s : State) (k : Nat) (e : Queued) : Bool :=
  s.adaptive e.p && (s.productive (axisDie (k / 4)) e.p).all (fun j => (s.port j).off e.p.ch e.p.escClass)
/-- The half of the router in which a packet came. -/
def State.halfOf (s : State) (q : Queued) : Nat := if q.inp < 12 then axisDie (q.inp / 4) else s.localHalf
/-- What still passes in of a packet follows it to another port. -/
def State.redirect (s : State) (q : Queued) (j : Nat) (r : MeshPkt) : State :=
  match (if q.inp < 12 then (s.port q.inp).passage else .none) with
  | .forwarded _ p2 => if p2 == q.p then s.setPort q.inp { s.port q.inp with passage := .forwarded j r } else s
  | _ => s
/-- Only a passage changes. -/
theorem State.redirect_port {α : Type} {g : Port → α} (h : ∀ (x : Port) v, g { x with passage := v } = g x) (s : State) (q : Queued) (j : Nat) (r : MeshPkt) (i : Nat) :
    g ((s.redirect q j r).port i) = g (s.port i) := by
  rw [State.redirect]
  split
  · split
    · by_cases hi : i = q.inp
      · rw [hi, State.port_setPort, h]
      · rw [State.port_setPort_ne s _ hi]
    · rfl
  · rfl
theorem State.redirect_frame (s : State) (q : Queued) (j : Nat) (r : MeshPkt) : s.redirect q j r = s.setRouter (s.redirect q j r).router := by
  rw [State.redirect]
  split
  · split <;> rfl
  · rfl
/-- A packet that takes the ESCAPE class. -/
def MeshPkt.escaped (p : MeshPkt) : MeshPkt := { p with esc := true }
/-- A port with another queue. -/
def Port.queued (x : Port) (l : List Queued) : Port := { x with queue := l }
theorem exec_escapeTimeout {s : State} {k j : Nat} {before after : List Queued} {q : Queued} {r : MeshPkt} (hqueue : (s.port k).queue = before ++ q :: after)
    (hbefore : ∀ e ∈ before, s.stuck k e = false) (hq : s.stuck k q = true)
    (hway : (s.setPort k ((s.port k).queued (before ++ after))).orphanGuard (s.halfOf q) q.p.escaped
      ((s.setPort k ((s.port k).queued (before ++ after))).dimOrder (s.halfOf q) q.p.escaped) = .out j r) :
    exec (.escapeTimeout k) s
      = .next (((s.setPort k ((s.port k).queued (before ++ after))).redirect q j r).sendOn q.inp j r q.stomp).fcSweep := by
  have htake : takeFirst (s.stuck k) (s.port k).queue = some (q, before ++ after) := by rw [hqueue, takeFirst_append hbefore hq]
  have harm : exec (.escapeTimeout k) s = match takeFirst (s.stuck k) (s.port k).queue with
      | none => .next s
      | some (q, rest) =>
        match (s.setPort k ((s.port k).queued rest)).orphanGuard (s.halfOf q) q.p.escaped
            ((s.setPort k ((s.port k).queued rest)).dimOrder (s.halfOf q) q.p.escaped) with
        | .out j r => .next (((s.setPort k ((s.port k).queued rest)).redirect q j r).sendOn q.inp j r q.stomp).fcSweep
        | .deliver => .next ((s.setPort k ((s.port k).queued rest)).arrive q.inp q.p.escaped q.stomp)
        | .drop c => .next ((s.setPort k ((s.port k).queued rest)).dropQueued q c).fcSweep := rfl
  rw [harm, htake]
  dsimp only
  rw [hway]

end Sys2Proof.Machine

open Sys2Proof Sys2Proof.Machine

/-- Settles O21: what a port sends leaves what it has heard of its peer, and a packet of an OFF class may not start. That each block counts as one refresh is log 142's reading; a port that is silent has every class OFF by `Port.off`. -/
theorem flowControlHoldsAndReleases : Obligations.FlowControlHoldsAndReleases := by
  unfold Obligations.FlowControlHoldsAndReleases
  intro k s hup x
  refine ⟨fun main esc refresh b hb => ?_, exec_fcRefresh hup, exec_fcTimeout hup, fun before after q j r hqueue => ?_⟩
  · intro y
    set u := s.setPort k y with hu
    have hport : u.port k = y := State.port_setPort ..
    have hserves : Serves (· = k) u (u.drain k).fcSweep := (State.drain_serves u k).trans (State.fcSweep_serves _ _)
    obtain ⟨hmain, hesc, hsilent⟩ := Port.fixed_off (hserves.port_fixed k)
    rw [hport] at hmain hesc hsilent
    have hexec : exec (.fc k b) s = .next (u.drain k).fcSweep := hb ▸ exec_fc hup main esc refresh
    refine ⟨_, hexec, hmain, hesc, hsilent, fun q hq hoff => ?_, fun q hq hch hmay hold hlink => ?_⟩
    · refine (hserves.ports k).waits q (by rw [hport]; exact hq) ?_
      rw [hport]
      exact u.mayStartOn_of_off k hoff
    · have halone : (u.port k).queue = [q] := by rw [hport]; exact hq
      obtain ⟨w, hsent, hempty⟩ := State.drainOne_alone halone hch hmay hold (fun _ => by rw [State.linkRefuses, hport]; exact hlink)
      have hdrain : u.drain k = u.drainOne k := by rw [State.drain, halone]; rfl
      rw [State.fcSweep_queue, hdrain]
      exact ⟨hempty, w, State.fcSweep_sent _ (hsent ▸ List.mem_cons_self)⟩
  · intro s1 half stuck hbefore hq hway hupj hch hlink hold hempty hmay
    have hs1 : ∀ {α : Type} {g : Port → α}, (∀ (x : Port) l, g (x.queued l) = g x) → g (s1.port j) = g (s.port j) := fun {α g} hg => by
      by_cases hj : j = k
      · rw [hj]
        exact (congrArg g (State.port_setPort ..)).trans (hg ..)
      · exact congrArg g (State.port_setPort_ne s _ hj)
    have hport1 : s1.port k = x.queued (before ++ after) := State.port_setPort ..
    have hexec : exec (.escapeTimeout k) s = .next (((s1.redirect q j r).sendOn q.inp j r q.stomp).fcSweep) := exec_escapeTimeout hqueue hbefore hq hway
    have hframe : s1.redirect q j r = s1.setRouter (s1.redirect q j r).router := s1.redirect_frame q j r
    have hkeeps : ∀ {α : Type} {g : Port → α}, (∀ (x : Port) v, g { x with passage := v } = g x) → ∀ i, g ((s1.redirect q j r).port i) = g (s1.port i) :=
      fun hg i => State.redirect_port hg s1 q j r i
    have hkeep : Route.Keeps q.p.escaped (.out j r) := hway ▸ State.orphanGuard_keeps (s1.dimOrder_keeps half q.p.escaped)
    have hold1 : s1.tooOld r = false ∧ r.ch < 8 := by
      obtain ⟨detour, daxis, rfl⟩ := hkeep j r rfl
      exact ⟨hold, hch⟩
    obtain ⟨hold1, hch1⟩ := hold1
    clear_value s1
    generalize s1.redirect q j r = s2 at *
    have hup2 : (s2.port j).st = .up := (hkeeps (g := Port.st) (fun _ _ => rfl) j).trans ((hs1 (g := Port.st) fun _ _ => rfl).trans hupj)
    have hfeat2 : (s2.port j).feat = (s.port j).feat := (hkeeps (g := Port.feat) (fun _ _ => rfl) j).trans (hs1 (g := Port.feat) fun _ _ => rfl)
    have hlink2 : s2.linkRefuses j r = false := by rw [State.linkRefuses, hfeat2]; exact hlink
    have hempty2 : (s2.port j).queue = [] := (hkeeps (g := Port.queue) (fun _ _ => rfl) j).trans hempty
    have hmay2 : s2.mayStart j r = true := by
      have hon : s2.mayStart j r = s1.mayStartOn j (s2.port j) r := by rw [State.mayStart_eq, hframe]; rfl
      rw [hon, hkeeps (g := fun x => s1.mayStartOn j x r) (fun _ _ => rfl) j]
      exact hmay
    have hold2 : s2.tooOld r = false := by rw [hframe]; exact hold1
    obtain ⟨w, hsent, hleft⟩ := State.enqueue_alone (inp := q.inp) (stomp := q.stomp) hempty2 hch1 hmay2 hold2 fun _ => hlink2
    rw [← State.sendOn_up hup2 hlink2] at hsent hleft
    refine ⟨_, w, hexec, (State.fcSweep_queue _ j).trans hleft, State.fcSweep_sent _ (hsent ▸ List.mem_cons_self), fun hjk => ?_⟩
    rw [State.fcSweep_queue, ((s2.sendOn_serves q.inp j r q.stomp).ports k).queue (fun h => hjk h.symm), hkeeps (g := Port.queue) (fun _ _ => rfl) k, hport1]
    rfl
end

section
/-! SUPPORT. Packets that wait too long, and epochs: what the sending of notices leaves of the router's switches, and how a notice names one (spec/09 R289 to R292, R300, R565). -/

namespace Sys2Proof.Machine

/-! ## LIFETIME -/

/-- An update of each of some indices, which acts on the view of its own index alone. -/
theorem State.each_once {β : Type} {Q : State → Prop} {v : State → Nat → β} {φ : β → β} {op : State → Nat → State} (hQ : ∀ t k, Q t → Q (op t k))
    (hself : ∀ t k, Q t → v (op t k) k = φ (v t k)) (hother : ∀ t k j, Q t → j ≠ k → v (op t k) j = v t j) {l : List Nat} (hl : l.Nodup)
    {s : State} (hs : Q s) (j : Nat) : v (s.each l op) j = if j ∈ l then φ (v s j) else v s j := by
  induction l generalizing s with
  | nil => rfl
  | cons k r ih =>
    obtain ⟨hk, hr⟩ := List.nodup_cons.mp hl
    refine (ih hr (hQ s k hs)).trans ?_
    by_cases hj : j = k
    · rw [hj, if_neg hk, if_pos List.mem_cons_self, hself s k hs]
    · simp only [List.mem_cons, hj, false_or, hother s k j hs hj]
/-- The head of a port's queue is discarded where it is too old. -/
def State.expireHead (s : State) (k : Nat) : State :=
  match (s.port k).queue with
  | [] => s
  | q :: r => if s.tooOld q.p then (s.setPort k { s.port k with queue := r }).dropQueued q 2 else s
/-- A queue without its head, where that is too old in s. -/
def State.youngQueue (s : State) : List Queued → List Queued
  | [] => []
  | q :: r => if s.tooOld q.p then r else q :: r
/-- The router alone has changed, and not what waits for its row. -/
structure State.Expires (s t : State) : Prop where
  frame : t = s.setRouter t.router
  inbox : t.router.inbox = s.router.inbox
theorem State.Expires.refl (s : State) : s.Expires s := ⟨rfl, rfl⟩
theorem State.Expires.trans {s t u : State} (h : s.Expires t) (k : t.Expires u) : s.Expires u :=
  ⟨by rw [k.frame, h.frame]; rfl, k.inbox.trans h.inbox⟩
theorem Serves.expires {P : Nat → Prop} {s t : State} (h : Serves P s t) : s.Expires t := ⟨h.frame, h.inbox⟩
theorem State.Expires.tooOld {s t : State} (h : s.Expires t) (p : MeshPkt) : t.tooOld p = s.tooOld p := by rw [h.frame]; rfl
theorem State.dropQueued_old {s : State} {q : Queued} (h : s.tooOld q.p = true) : Serves (fun _ => False) s (s.dropQueued q 2) := State.dropQueued_serves 2 (.inl h)
theorem State.expireHead_expires (s : State) (k : Nat) : s.Expires (s.expireHead k) := by
  unfold State.expireHead
  split
  · exact .refl s
  · next q r hqueue =>
    split
    · next hold =>
      have hset : s.Expires (s.setPort k { s.port k with queue := r }) := ⟨rfl, rfl⟩
      exact hset.trans (State.dropQueued_old (s := s.setPort k { s.port k with queue := r }) hold).expires
    · exact .refl s
theorem State.expireHead_self (s : State) (k : Nat) : ((s.expireHead k).port k).queue = s.youngQueue (s.port k).queue := by
  unfold State.expireHead
  split
  · next hqueue => rw [hqueue]; rfl
  · next q r hqueue =>
    rw [hqueue, State.youngQueue]
    split
    · next hold => rw [((State.dropQueued_old (s := s.setPort k { s.port k with queue := r }) hold).ports k).queue id, State.port_setPort]
    · exact hqueue
theorem State.expireHead_other (s : State) {j k : Nat} (h : j ≠ k) : ((s.expireHead k).port j).queue = (s.port j).queue := by
  unfold State.expireHead
  split
  · rfl
  · next q r hqueue =>
    split
    · next hold => rw [((State.dropQueued_old (s := s.setPort k { s.port k with queue := r }) hold).ports j).queue id, State.port_setPort_ne s _ h]
    · rfl
/-- The heads of all queues. -/
def State.expired (s : State) : State := s.each (List.range 12) (fun s k => s.expireHead k)
theorem State.expired_expires (s : State) : s.Expires s.expired :=
  List.foldlRecOn _ _ (motive := fun t : State => s.Expires t) (.refl s) fun t ht k _ => ht.trans (t.expireHead_expires k)
theorem State.expired_queue (s : State) {k : Nat} (hk : k < 12) : (s.expired.port k).queue = s.youngQueue (s.port k).queue := by
  have hyoung : ∀ t : State, s.Expires t → t.youngQueue = s.youngQueue := fun t ht => by
    funext l
    cases l with
    | nil => rfl
    | cons q r => rw [State.youngQueue, State.youngQueue, ht.tooOld]
  have hall := State.each_once (Q := s.Expires) (v := fun t k => (t.port k).queue) (φ := s.youngQueue) (op := fun t k => t.expireHead k)
    (fun t k ht => ht.trans (t.expireHead_expires k)) (fun t k ht => by rw [t.expireHead_self k, hyoung t ht])
    (fun t k j ht hjk => t.expireHead_other hjk) (l := List.range 12) List.nodup_range (State.Expires.refl s) k
  exact hall.trans (if_pos (List.mem_range.mpr hk))
/-- What waits for its row, but for the packets too old. -/
def State.youngInbox (s : State) : State := s.setRouter { s.router with inbox := s.router.inbox.filter (fun a => !s.tooOld a.p) }
theorem State.youngInbox_inbox (s : State) : s.youngInbox.router.inbox = s.router.inbox.filter (fun a => !s.tooOld a.p) := rfl
theorem State.youngInbox_port (s : State) (k : Nat) : s.youngInbox.port k = s.port k := rfl
theorem exec_lifetime (s : State) : exec .lifetime s
    = .next (s.expired.youngInbox.each (s.expired.router.inbox.filter (fun a => s.expired.tooOld a.p)) (fun s _ => s.discard 2)).fcSweep := by
  have harm : exec .lifetime s = execLifetime s := rfl
  rw [harm]
  unfold execLifetime
  extract_lets s1 old r s2
  have h1 : s1 = s.expired := rfl
  have h2 : s2 = s.expired.youngInbox := by
    show s1.youngInbox = _
    rw [h1]
  have hold : old = s.expired.router.inbox.filter (fun a => s.expired.tooOld a.p) := by
    show s1.router.inbox.filter (fun a => s1.tooOld a.p) = _
    rw [h1]
  rw [h2, hold]
theorem State.each_discard_serves {α : Type} (P : Nat → Prop) (l : List α) (s : State) (code : Nat) : Serves P s (s.each l (fun s _ => s.discard code)) :=
  State.each_serves (g := fun s _ => s.discard code) (fun t _ _ => t.discard_serves P code) l

/-! ## EPOCH -/

/-- What the router knows of switches: the notices seen, the pending ones, and the source epoch. -/
def Router.epochs (r : Router) : List (Nat × Nat) × DWord × DWord × Bool := (r.seen, r.tsw, r.tswNext, r.srcEpoch)
/-- What the router knows of switches. -/
def State.epochs (s : State) : List (Nat × Nat) × DWord × DWord × Bool := s.router.epochs
theorem State.setRouter_epochs {s : State} {r : Router} (h : r.epochs = s.router.epochs) : Stays State.epochs s (s.setRouter r) := ⟨h⟩
theorem State.setPort_epochs (s : State) (k : Nat) (x : Port) : Stays State.epochs s (s.setPort k x) := ⟨rfl⟩
theorem State.discard_epochs (s : State) (code : Nat) : Stays State.epochs s (s.discard code) := ⟨rfl⟩
theorem State.dropQueued_epochs (s : State) (q : Queued) (code : Nat) : Stays State.epochs s (s.dropQueued q code) := by
  unfold State.dropQueued
  extract_lets s1
  have h1 : Stays State.epochs s s1 := s.discard_epochs code
  split
  · exact .ite (h1.trans (State.setPort_epochs ..)) h1
  all_goals exact h1
theorem State.drainOne_epochs (s : State) (k : Nat) : Stays State.epochs s (s.drainOne k) := by
  unfold State.drainOne
  split
  case h_1 => exact .refl s
  case h_2 q t hpick =>
    obtain ⟨-, before, after, wrr, turns, -, ht⟩ := State.pick_eq_some hpick
    have hpicked : Stays State.epochs s t := ht ▸ ⟨rfl⟩
    exact .ite (hpicked.trans (State.dropQueued_epochs ..)) (.ite (hpicked.trans (State.dropQueued_epochs ..)) (hpicked.trans ⟨rfl⟩))
theorem State.sendOn_epochs (s : State) (inp k : Nat) (p : MeshPkt) (stomp : Bool) : Stays State.epochs s (s.sendOn inp k p stomp) := by
  have hin : Stays State.epochs s (s.enqueue inp k p stomp) :=
    (Stays.each (fun t _ => t.drainOne_epochs k) _ _).after (State.setPort_epochs ..)
  unfold State.sendOn
  extract_lets x control
  split
  · exact .ite (s.discard_epochs 10) hin
  · exact .ite hin (s.discard_epochs 11)
  · exact .ite hin (.refl s)
  · exact .ite hin (s.discard_epochs 11)
  · exact .ite hin (s.discard_epochs 11)
  · exact .ite hin (s.discard_epochs 11)
  · exact .ite hin (s.discard_epochs 11)
  · exact .refl s
  · exact .refl s
theorem State.flood_epochs (s : State) (but : Nat) (pl : List Byte) : Stays State.epochs s (s.flood but pl) :=
  .each (fun t _ => .ite (t.sendOn_epochs ..) (.refl t)) _ s
theorem Router.writeInactive_epochs (r : Router) : r.writeInactive.epochs = r.epochs := by
  unfold Router.writeInactive
  extract_lets src b
  split <;> split <;> rfl
theorem Router.writeInactive_uses (r : Router) : r.writeInactive.use0 = r.use0 ∧ r.writeInactive.use1 = r.use1 := by
  unfold Router.writeInactive
  extract_lets src b
  split <;> split <;> exact ⟨rfl, rfl⟩
/-- The switches that a router knows after a notice. -/
theorem Router.hear_epochs (r : Router) {sw : Nat} (hsw : sw < 2 ^ 64) :
    let later := max sw (r.tsw.toNat + 51000)
    (r.hear (BitVec.ofNat 64 sw)).epochs = (r.seen, (if r.tsw = 0 then BitVec.ofNat 64 sw else r.tsw),
      (if r.tsw = 0 ∨ sw ≤ r.tsw.toNat + 15000 ∨ (r.tswNext ≠ 0 ∧ later ≤ r.tswNext.toNat + 15000) then r.tswNext else BitVec.ofNat 64 later), r.srcEpoch) := by
  intro later
  have hnat : (BitVec.ofNat 64 sw).toNat = sw := by rw [BitVec.toNat_ofNat, Nat.mod_eq_of_lt hsw]
  unfold Router.hear
  by_cases hnone : r.tsw = 0
  · rw [if_pos (beq_iff_eq.mpr hnone), Router.writeInactive_epochs, if_pos hnone, if_pos (.inl hnone)]
    rfl
  · rw [if_neg (mt beq_iff_eq.mp hnone), if_neg hnone, hnat]
    by_cases hjoin : sw ≤ r.tsw.toNat + 15000
    · rw [if_pos (by simp; omega), if_pos (.inr (.inl hjoin))]
      rfl
    · rw [if_neg (by simp; omega)]
      by_cases hnext : r.tswNext ≠ 0 ∧ later ≤ r.tswNext.toNat + 15000
      · have hlate : (r.tswNext != 0 && decide (later - 15000 ≤ r.tswNext.toNat)) = true := by
          rw [Bool.and_eq_true, decide_eq_true_eq, bne_iff_ne]
          exact ⟨hnext.1, by omega⟩
        refine (congrArg Router.epochs (if_pos hlate)).trans ?_
        rw [if_pos (.inr (.inr hnext))]
        rfl
      · have hlate : ¬ (r.tswNext != 0 && decide (later - 15000 ≤ r.tswNext.toNat)) = true := by
          rw [Bool.and_eq_true, decide_eq_true_eq, bne_iff_ne]
          exact fun h => hnext ⟨h.1, by omega⟩
        refine (congrArg Router.epochs (if_neg hlate)).trans ?_
        rw [if_neg (not_or.mpr ⟨hnone, not_or.mpr ⟨hjoin, hnext⟩⟩)]
        rfl
theorem ofLe_lt (l : List Byte) : ofLe l < 2 ^ (8 * l.length) := by
  induction l with
  | nil => decide
  | cons b r ih =>
    rw [ofLe, List.length_cons, Nat.mul_add, Nat.pow_add]
    have := b.isLt
    omega
theorem beAt_lt (l : List Byte) (i n : Nat) : beAt l i n < 2 ^ (8 * n) := by
  refine Nat.lt_of_lt_of_le (ofLe_lt _) (Nat.pow_le_pow_right (by decide) (Nat.mul_le_mul_left 8 ?_))
  rw [List.length_reverse]
  exact List.length_take_le ..
/-- A notice that is heard of for the first time. -/
def State.noticed (s : State) (key : Nat × Nat) (t : DWord) : State := s.setRouter ({ s.router with seen := key :: s.router.seen }.hear t)
section
variable {s s1 : State} {a : Arrived}
theorem exec_epoch (htake : s.takePkt (fun p => p.typ == 11) = some (a, s1)) (hok : epochOk a.p.payload = true) :
    let l := a.p.payload
    let key := (packCoord (beAt l 4 1, beAt l 5 1, beAt l 6 1), beAt l 8 4)
    exec .epoch s = .next (if s1.router.seen.contains key then s1 else (s1.noticed key (BitVec.ofNat 64 (beAt l 16 8))).flood a.port l) := by
  intro l key
  have harm : exec .epoch s = execEpoch s := rfl
  rw [harm, execEpoch, htake]
  dsimp only
  rw [hok, Bool.not_true, if_neg Bool.false_ne_true]
  exact (apply_ite Host.Outcome.next ..).symm
theorem exec_eject (htake : s.takePkt (fun p => !idMgmt (idOf p.dst) && p.typ != 10 && p.typ != 11) = some (a, s1)) :
    exec .eject s = .next (s1.discard 13) := by
  have harm : exec .eject s = execEject s := rfl
  rw [harm, execEject, htake]
end

/-! ## Switching and freeing banks -/

theorem exec_epochSwitch {s : State} (htsw : s.router.tsw ≠ 0) (hother : (if s.router.use0 = .active then s.router.use1 else s.router.use0) = .free) :
    exec .epochSwitch s = .next (s.setRouter { s.router with
      srcEpoch := !s.router.srcEpoch, use0 := if s.router.use0 = .active then .draining else .active, use1 := if s.router.use0 = .active then .active else .draining,
      freeAt := s.router.tsw + 51000, tsw := s.router.tswNext, tswNext := 0, changes := s.router.changesNext, changesNext := [] }) := by
  have harm : exec .epochSwitch s = execEpochSwitch s := rfl
  rw [harm, execEpochSwitch]
  dsimp only
  rw [if_neg (not_or.mpr ⟨htsw, not_not_intro hother⟩)]
  simp only [decide_eq_true_eq]
/-- The draining banks are FREE. -/
def Router.freed (r : Router) : Router :=
  { r with use0 := if r.use0 = .draining then .free else r.use0, use1 := if r.use1 = .draining then .free else r.use1 }
/-- The FREE bank takes the changes of a pending switch. -/
def Router.refilled (r : Router) : Router := if r.tsw = 0 then r else r.writeInactive
theorem Router.refilled_keeps (r : Router) : r.refilled.epochs = r.epochs ∧ r.refilled.use0 = r.use0 ∧ r.refilled.use1 = r.use1 := by
  unfold Router.refilled
  split
  · exact ⟨rfl, rfl, rfl⟩
  · exact ⟨r.writeInactive_epochs, r.writeInactive_uses⟩
theorem exec_epochBankFree {s : State} (h : s.router.use0 = .draining ∨ s.router.use1 = .draining) :
    ∃ t, exec .epochBankFree s = .next t ∧ t.router = s.router.freed.refilled := by
  have harm : exec .epochBankFree s = execEpochBankFree s := rfl
  rw [harm]
  unfold execEpochBankFree
  extract_lets r r1 r2 act
  refine ⟨_, if_neg (fun hnone => h.elim hnone.1 hnone.2), ?_⟩
  refine State.each_keeps (v := State.router) (fun t k => ?_) _ (s.setRouter r2)
  dsimp only
  split <;> rfl

end Sys2Proof.Machine

open Sys2Proof Sys2Proof.Machine

/-- Settles O22: each queue loses its own head alone, and a notice sent on leaves what the router knows of switches. -/
theorem oldPacketsDropAndEpochsSwitch : Obligations.OldPacketsDropAndEpochsSwitch := by
  unfold Obligations.OldPacketsDropAndEpochsSwitch
  refine ⟨⟨fun s => ⟨_, exec_lifetime s, ?_, fun k hk => ?_⟩, fun s s1 a htake => exec_eject htake⟩,
    fun s s1 a htake hok => ?_, fun s htsw hbanks => exec_epochSwitch htsw ?_, fun s hdrain => ?_⟩
  · have hold : ∀ p, s.expired.tooOld p = s.tooOld p := s.expired_expires.tooOld
    rw [(State.fcSweep_serves (fun _ => False) _).inbox, (State.each_discard_serves (fun _ => False) _ _ 2).inbox, State.youngInbox_inbox, s.expired_expires.inbox]
    simp only [hold]
  · rw [State.fcSweep_queue, ((State.each_discard_serves (fun _ => False) _ _ 2).ports k).queue id, State.youngInbox_port, s.expired_queue hk]
    cases (s.port k).queue <;> rfl
  · intro l key sw r later
    have hexec := exec_epoch htake hok
    refine ⟨fun hseen => ?_, fun hnew => ⟨_, hexec, ?_⟩⟩
    · rw [hexec, if_pos (List.contains_iff_mem.mpr hseen)]
    · rw [if_neg (mt List.contains_iff_mem.mp hnew)]
      have hepochs := ((s1.noticed key (BitVec.ofNat 64 sw)).flood_epochs a.port l).eq.trans
        ({ s1.router with seen := key :: s1.router.seen }.hear_epochs (beAt_lt l 16 8))
      rw [State.epochs, Router.epochs] at hepochs
      obtain ⟨hseen, htsw, hnext, hsrc⟩ : _ ∧ _ ∧ _ ∧ _ := by simpa only [Prod.mk.injEq] using hepochs
      exact ⟨hseen, htsw, hnext, hsrc⟩
  · obtain ⟨h0, h1⟩ | ⟨h0, h1⟩ := hbanks
    · rw [if_pos h0, h1]
    · rw [h0]
      rfl
  · obtain ⟨t, hexec, hrouter⟩ := exec_epochBankFree hdrain
    obtain ⟨hepochs, huse0, huse1⟩ := s.router.freed.refilled_keeps
    rw [Router.epochs, Router.epochs] at hepochs
    obtain ⟨-, htsw, -, hsrc⟩ : _ ∧ _ ∧ _ ∧ _ := by simpa only [Prod.mk.injEq] using hepochs
    refine ⟨t, hexec, ?_⟩
    rw [hrouter]
    exact ⟨huse0, huse1, hsrc, htsw⟩
end

section
/-! SUPPORT. PAUSE, RESUME and ABORT: every stream of a partition's floes changes alike, and a floe is left idle as a partition reset leaves it (spec/12 R428, R429, spec/06 R189, R191). -/

namespace Sys2Proof.Machine

/-! ## Every stream of a partition -/

/-- A floe with each of its streams changed. -/
def Floe.mapStreams (g : StreamSt → StreamSt) (x : Floe) : Floe := { x with fwd := g x.fwd, bwd := g x.bwd, upd := g x.upd }
theorem Floe.mapStreams_stream (g : StreamSt → StreamSt) (x : Floe) (st : Stream) : (x.mapStreams g).stream st = g (x.stream st) := by
  cases st <;> rfl
theorem State.mapStreams_eq (s : State) (p : Nat) (g : StreamSt → StreamSt) :
    s.mapStreams p g = s.each (s.partFloes p) (fun t f => t.setFloe f ((t.floe f).mapStreams g)) := rfl
theorem State.mapStreams_parts (s : State) (p : Nat) (g : StreamSt → StreamSt) : (s.mapStreams p g).parts = s.parts :=
  (State.mapStreams_touch (Sub.refl _) s p g (.refl _ s)).parts rfl
theorem State.mapStreams_stream {s : State} {p f : Nat} (hf : f ∈ s.partFloes p) (g : StreamSt → StreamSt) (st : Stream) :
    (s.mapStreams p g).stream f st = g (s.stream f st) := by
  rw [State.stream, State.mapStreams_eq, State.each_setFloe (s.partFloes_nodup p), if_pos hf, Floe.mapStreams_stream, State.stream]
theorem State.stream_of_floes {s t : State} (h : t.floes = s.floes) (f : Nat) (st : Stream) : t.stream f st = s.stream f st := by
  rw [State.stream, State.floe_of_floes h, State.stream]

/-! ## PAUSE and its end -/

/-- The streams of a partition stop at their boundaries. -/
def State.pauseStreams (s : State) (p : Nat) : State := (s.mapStreams p StreamSt.pause).setPart p { (s.mapStreams p StreamSt.pause).part p with st := .paused }
/-- PAUSE waits for the steps to close, and they send SLOW. -/
def State.pauseWaits (s : State) (p : Nat) (c : GwyPkt) : State :=
  let s4 := (s.setPart p { s.part p with pausing := true }).slowPart p
  { s4 with cmdq := { c with busy := true } :: s4.cmdq }
theorem State.pauseStreams_part (s : State) (p : Nat) : (s.pauseStreams p).part p = { s.part p with st := .paused } := by
  rw [State.pauseStreams, State.part_setPart, State.part_of_parts (s.mapStreams_parts p _)]
theorem State.pauseStreams_stream {s : State} {p f : Nat} (hf : f ∈ s.partFloes p) (st : Stream) :
    (s.pauseStreams p).stream f st = (s.stream f st).pause := State.mapStreams_stream hf StreamSt.pause st
theorem State.pauseWaits_fields (s : State) (p : Nat) (c : GwyPkt) : (s.pauseWaits p c).part p = { s.part p with pausing := true }
    ∧ (s.pauseWaits p c).floes = s.floes ∧ (s.pauseWaits p c).cmdq = { c with busy := true } :: s.cmdq := by
  have htouch := State.slowPart_touch (Sub.refl _) (s.setPart p { s.part p with pausing := true }) p (.refl _ _)
  unfold State.pauseWaits
  extract_lets x s4
  have hpart : s4.part p = { s.part p with pausing := true } := (State.part_of_parts (htouch.parts rfl) p).trans (State.part_setPart ..)
  have hfloes : s4.floes = s.floes := htouch.floes rfl
  have hcmdq : s4.cmdq = s.cmdq := htouch.cmdq rfl
  clear_value s4
  exact ⟨hpart, hfloes, by rw [hcmdq]⟩
section
variable {p : Nat} {s s1 : State} {c : GwyPkt}

theorem exec_pause (h : Claims.Runs 0x07 p Claims.bare true false (fun st => st == .running) s c s1) (hcalving : s.calving p = false) :
    exec (.pause p) s = .next (if (s1.part p).openSteps.isEmpty then (s1.pauseStreams p).respond c 0 0 0 0 [] else (s1.pauseStreams p).pauseWaits p c) := by
  obtain ⟨htake, haccept⟩ := h
  have hparts : (s1.mapStreams p StreamSt.pause).part p = s1.part p := State.part_of_parts (s1.mapStreams_parts p _) p
  have harm : exec (.pause p) s = execPause p s := rfl
  rw [Claims.bare] at haccept
  rw [harm, execPause, hcalving, htake]
  simp only [haccept, Bool.false_eq_true, if_false, State.pauseStreams, hparts]
  exact (apply_ite Host.Outcome.next ..).symm
theorem exec_pauseWaitExpiry (h : (s.part p).pausing = true) : exec (.pauseWaitExpiry p) s
    = .next ((s.setPart p { s.part p with steps := (s.part p).steps.map (fun t => if t.isOpen then { t with abandoned := true } else t) }).answerPause p 0 0
      (s.part p).openSteps.length) := by
  have harm : exec (.pauseWaitExpiry p) s = execPauseWaitExpiry p s := rfl
  rw [harm, execPauseWaitExpiry]
  exact if_pos h

/-! ## RESUME -/

/-- The streams of a partition run again. -/
def State.resumeStreams (s : State) (p : Nat) : State := (s.mapStreams p StreamSt.resume).setPart p { (s.mapStreams p StreamSt.resume).part p with st := .running }
theorem State.replayOpen_of_none {s : State} {p : Nat} (h : ∀ t ∈ (s.part p).steps, t.abandoned = false) : s.replayOpen p = s := by
  rw [State.replayOpen, List.filter_eq_nil_iff.mpr fun t ht => by rw [h t ht]; exact Bool.false_ne_true]
  rfl
theorem exec_resume (h : Claims.Runs 0x08 p Claims.bare true false (fun st => st == .paused) s c s1) :
    exec (.resume p) s = .next (((s1.resumeStreams p).respond c 0 0 0 0 []).replayOpen p) := by
  obtain ⟨htake, haccept⟩ := h
  have harm : exec (.resume p) s = execResume p s := rfl
  rw [Claims.bare] at haccept
  rw [harm, execResume, htake]
  simp only [haccept]
  rfl

/-! ## ABORT -/

/-- The floes of a partition are left idle. -/
def State.idleFloes (s : State) (p : Nat) : State := s.each (s.partFloes p) (fun s f => s.setFloe f (s.floe f).idled)
/-- The partition is LOADED, or stays DEGRADED. -/
def State.reloaded (s : State) (p : Nat) : State := s.setPart p { s.part p with st := if (s.part p).st = .degraded then .degraded else .loaded }
theorem State.reloaded_part (s : State) (p : Nat) :
    (s.reloaded p).part p = { s.part p with st := if (s.part p).st = .degraded then .degraded else .loaded } := State.part_setPart ..
theorem State.failOpen_of_none {s : State} {p : Nat} (h : (s.part p).steps = []) (reason : Nat) (quiet : Bool) : s.failOpen p reason quiet = s := by
  have hnone : s.each ((s.part p).steps.filter (fun t => !t.isOpen)) (fun s t => if quiet then s.endVerdict p t else s) = s := by
    rw [h]
    rfl
  rw [State.failOpen, hnone, h]
  rfl
theorem State.stopStreams_parts (s : State) (p : Nat) : (s.stopStreams p).parts = s.parts := (State.stopStreams_touch (Sub.refl _) s p (.refl _ s)).parts rfl
theorem exec_abort (h : Claims.Runs 0x09 p Claims.bare true false (fun st => st == .running || st == .paused || st == .degraded || st == .faulted) s c s1)
    (hcalving : s.calving p = false) (hsteps : (s1.part p).steps = []) : exec (.abort p) s
      = .next (if (s1.stopStreams p).floesIdle p then ((((s1.stopStreams p).startFloes p).idleFloes p).reloaded p).respond c 0 0 0 0 []
        else { s1.stopStreams p with cmdq := c :: (s1.stopStreams p).cmdq }) := by
  obtain ⟨htake, haccept⟩ := h
  have hnone : (s1.stopStreams p).failOpen p 4 true = s1.stopStreams p :=
    State.failOpen_of_none (by rw [State.part_of_parts (s1.stopStreams_parts p), hsteps]) 4 true
  have harm : exec (.abort p) s = execAbort p s := rfl
  rw [Claims.bare] at haccept
  rw [harm, execAbort, hcalving, htake]
  simp only [haccept, Bool.false_eq_true, if_false, hnone]
  exact (apply_ite Host.Outcome.next ..).symm
end
/-- A floe in which nothing is in flight, as START finds it. -/
def Floe.started (x : Floe) : Floe :=
  let clear := fun (y : StreamSt) => { y with ra0 := [], ra1 := [], pend := [], halting := false, wait := none }
  { x with fwd := clear x.fwd, bwd := clear x.bwd, upd := clear x.upd, tags := [], bank0 := {}, bank1 := {}, mmas := [], drains := [], tq := [],
           vu := .idle, xfers := [], push := none, pop := none, slds := [], stashed := [], early := [], tagAttempt := [],
           record := 0, curValid := false, mirTx := {} }
/-- A partition without steps or choices. -/
def Part.started (x : Part) : Part :=
  { x with steps := [], steers := [], steerPlan := [], verdictDone := [], committing := false, gone := [], mirGot := [], mirWant := [] }
/-- Every floe of a partition has nothing in flight. -/
def State.startEach (s : State) (p : Nat) : State := s.each (s.partFloes p) (fun s f => s.setFloe f (s.floe f).started)
theorem State.startFloes_eq (s : State) (p : Nat) : s.startFloes p = (s.startEach p).setPart p ((s.startEach p).part p).started := rfl
theorem State.startEach_parts (s : State) (p : Nat) : (s.startEach p).parts = s.parts := State.each_setFloe_parts (φ := Floe.started) _ s
theorem State.startFloes_part (s : State) (p : Nat) : (s.startFloes p).part p = (s.part p).started := by
  rw [State.startFloes_eq, State.part_setPart, State.part_of_parts (s.startEach_parts p)]
theorem State.startFloes_floe {s : State} {p f : Nat} (hf : f ∈ s.partFloes p) : (s.startFloes p).floe f = (s.floe f).started := by
  have hset : (s.startFloes p).floe f = (s.startEach p).floe f := rfl
  rw [hset, State.startEach, State.each_setFloe (φ := Floe.started) (s.partFloes_nodup p), if_pos hf]
theorem State.idleFloes_parts (s : State) (p : Nat) : (s.idleFloes p).parts = s.parts := State.each_setFloe_parts (φ := Floe.idled) _ s
theorem State.idleFloes_floe {s : State} {p f : Nat} (hf : f ∈ s.partFloes p) : (s.idleFloes p).floe f = (s.floe f).idled := by
  rw [State.idleFloes, State.each_setFloe (φ := Floe.idled) (s.partFloes_nodup p), if_pos hf]
/-- What an ABORT leaves of a stream. -/
theorem Floe.idled_started_stream (x : Floe) (st : Stream) : (x.stopAll.started.idled).stream st = { issued := (x.stream st).issued } := by
  have hstop : ∀ y : StreamSt, y.stop.issued = y.issued := fun y => by
    unfold StreamSt.stop
    split <;> rfl
  cases st
  · exact congrArg (fun n => ({ issued := n } : StreamSt)) (hstop x.fwd)
  · exact congrArg (fun n => ({ issued := n } : StreamSt)) (hstop x.bwd)
  · exact congrArg (fun n => ({ issued := n } : StreamSt)) (hstop x.upd)
theorem State.stopStreams_floe {s : State} {p f : Nat} (hf : f ∈ s.partFloes p) : (s.stopStreams p).floe f = (s.floe f).stopAll := by
  rw [State.stopStreams, State.each_setFloe (φ := Floe.stopAll) (s.partFloes_nodup p), if_pos hf]

end Sys2Proof.Machine

open Sys2Proof Sys2Proof.Machine

/-- Settles O34: each of the three changes the partition's entry and, alike, every stream of its floes. That ABORT leaves a stream IDLE with its PC and registers cleared, and VFLAGS 0, is log 49's reading. -/
theorem pauseResumeAbort : Obligations.PauseResumeAbort := by
  unfold Obligations.PauseResumeAbort
  intro p s s1 c
  refine ⟨fun h hcalving => ⟨_, exec_pause h hcalving, ?_⟩, fun h => ⟨_, exec_pauseWaitExpiry h, ?_⟩, fun h hnone => ⟨_, exec_resume h, ?_⟩, fun h hcalving hsteps => ?_⟩
  · have htaken : Answers s s1 := .runs h
    have hpart : s1.part p = s.part p := State.part_of_parts (htaken.parts rfl) p
    have hfloes : s1.partFloes p = s.partFloes p := State.partFloes_of_groups (by rw [hpart])
    have hpaused := s1.pauseStreams_part p
    have hstream : ∀ f ∈ s.partFloes p, ∀ st, (s1.pauseStreams p).stream f st = (s.stream f st).pause := fun f hf st => by
      rw [State.pauseStreams_stream (hfloes ▸ hf), State.stream_of_floes (htaken.floes rfl)]
    have hcmdq : (s1.pauseStreams p).cmdq = s1.cmdq := (State.mapStreams_touch (Sub.refl _) s1 p _ (.refl _ s1)).cmdq rfl
    have hset : s1.pauseStreams p = (s1.mapStreams p StreamSt.pause).setPart p { s.part p with st := .paused } := by
      rw [State.pauseStreams, State.part_of_parts (s1.mapStreams_parts p _), hpart]
    rw [hpart] at hpaused ⊢
    by_cases hopen : (s.part p).openSteps = []
    · rw [hopen, List.isEmpty_nil, if_pos rfl]
      have hanswer : Answers (s1.pauseStreams p) _ := Answers.respond _ c 0 0 0 0 []
      rw [State.part_of_parts (hanswer.parts rfl), hpaused]
      exact ⟨rfl, rfl, fun f hf st => (State.stream_of_floes (hanswer.floes rfl) f st).trans (hstream f hf st), fun _ => by rw [hset], fun hne => absurd rfl hne⟩
    · obtain ⟨hwaits, hwaitFloes, hwaitQueue⟩ := (s1.pauseStreams p).pauseWaits_fields p c
      rw [if_neg (by rwa [List.isEmpty_iff]), hwaits, hpaused, hwaitQueue, hcmdq]
      exact ⟨rfl, rfl, fun f hf st => (State.stream_of_floes hwaitFloes f st).trans (hstream f hf st), fun h => absurd h hopen, fun _ => ⟨rfl, rfl⟩⟩
  · rw [State.answerPause_part, State.part_setPart]
    exact ⟨rfl, rfl⟩
  · have htaken : Answers s s1 := .runs h
    have hpart : s1.part p = s.part p := State.part_of_parts (htaken.parts rfl) p
    have hfloes : s1.partFloes p = s.partFloes p := State.partFloes_of_groups (by rw [hpart])
    have hset : s1.resumeStreams p = (s1.mapStreams p StreamSt.resume).setPart p { s.part p with st := .running } := by
      rw [State.resumeStreams, State.part_of_parts (s1.mapStreams_parts p _), hpart]
    have hanswer : Answers (s1.resumeStreams p) _ := Answers.respond _ c 0 0 0 0 []
    have hrun : ((s1.resumeStreams p).respond c 0 0 0 0 []).part p = { s.part p with st := .running } := by
      rw [State.part_of_parts (hanswer.parts rfl), hset, State.part_setPart]
    rw [State.replayOpen_of_none (by rw [hrun]; exact hnone), hrun]
    refine ⟨rfl, fun f hf st => ?_, by rw [hset]⟩
    rw [State.stream_of_floes (hanswer.floes rfl), ← State.stream_of_floes (htaken.floes rfl)]
    exact State.mapStreams_stream (hfloes ▸ hf) StreamSt.resume st
  · have htaken : Answers s s1 := .runs h
    have hpart : s1.part p = s.part p := State.part_of_parts (htaken.parts rfl) p
    have hfloes : s1.partFloes p = s.partFloes p := State.partFloes_of_groups (by rw [hpart])
    have hexec := exec_abort h hcalving (by rw [hpart, hsteps])
    refine ⟨fun hidle => ?_, fun hbusy => ?_⟩
    · rw [if_pos hidle] at hexec
      set u := s1.stopStreams p with hu
      have hupart : u.part p = s.part p := (State.part_of_parts (s1.stopStreams_parts p) p).trans hpart
      have hufloes : u.partFloes p = s.partFloes p := State.partFloes_of_groups (by rw [hupart])
      have hidled : ((u.startFloes p).idleFloes p).part p = (s.part p).started := by
        rw [State.part_of_parts (State.idleFloes_parts ..), State.startFloes_part, hupart]
      have hstarted : (u.startFloes p).partFloes p = s.partFloes p := State.partFloes_of_groups (by rw [State.startFloes_part, hupart]; rfl)
      have hanswer : Answers (((u.startFloes p).idleFloes p).reloaded p) _ := Answers.respond _ c 0 0 0 0 []
      have hfloe : ∀ f ∈ s.partFloes p, (((u.startFloes p).idleFloes p).reloaded p).floe f = ((s.floe f).stopAll.started).idled := fun f hf => by
        have hreload : (((u.startFloes p).idleFloes p).reloaded p).floe f = ((u.startFloes p).idleFloes p).floe f := rfl
        rw [hreload, State.idleFloes_floe (hstarted ▸ hf), State.startFloes_floe (hufloes ▸ hf), hu, State.stopStreams_floe (hfloes ▸ hf),
          State.floe_of_floes (htaken.floes rfl)]
      refine ⟨_, hexec, ?_⟩
      rw [State.part_of_parts (hanswer.parts rfl), State.reloaded_part, hidled]
      refine ⟨rfl, rfl, fun f hf st => ?_⟩
      have hf' := (State.floe_of_floes (hanswer.floes rfl) f).trans (hfloe f hf)
      refine ⟨?_, congrArg Floe.vflags hf', congrArg Floe.tags hf'⟩
      exact (congrArg (fun x : Floe => x.stream st) hf').trans (Floe.idled_started_stream ..)
    · rw [if_neg (Bool.eq_false_iff.mp hbusy), (State.stopStreams_touch (Sub.refl _) s1 p (.refl _ s1)).cmdq rfl] at hexec
      exact hexec
end

section
/-! SUPPORT. Images load and start: each command of a load as one function of the state that it is taken in, and each floe of a partition begins by its number in it (spec/12 R423 to R427, spec/06 R156, R157). -/

namespace Sys2Proof.Machine

/-! ## Updates by the number of a floe -/

/-- Updates of numbered floes that do not name a floe leave it. -/
theorem State.each_numbered_other {φ : Nat → Nat → Floe → Floe} {l : List Nat} {f : Nat} (hf : f ∉ l) (k : Nat) (s : State) :
    (s.each (numbered k l) (fun s e => s.setFloe e.2 (φ e.1 e.2 (s.floe e.2)))).floe f = s.floe f := by
  induction l generalizing k s with
  | nil => rfl
  | cons g r ih =>
    obtain ⟨hg, hr⟩ := not_or.mp (List.mem_cons.not.mp hf)
    exact (ih hr (k + 1) _).trans (State.floe_setFloe_ne _ _ hg)
/-- Each of the numbered floes takes the update of its number. -/
theorem State.each_numbered {φ : Nat → Nat → Floe → Floe} {l : List Nat} (hl : l.Nodup) {i f : Nat} (hi : l[i]? = some f) (k : Nat) (s : State) :
    (s.each (numbered k l) (fun s e => s.setFloe e.2 (φ e.1 e.2 (s.floe e.2)))).floe f = φ (k + i) f (s.floe f) := by
  induction l generalizing k s i with
  | nil => exact absurd hi (by simp)
  | cons g r ih =>
    obtain ⟨hg, hr⟩ := List.nodup_cons.mp hl
    cases i with
    | zero =>
      obtain rfl : g = f := by simpa using hi
      exact (State.each_numbered_other hg (k + 1) _).trans (State.floe_setFloe ..)
    | succ i =>
      have hi : r[i]? = some f := by simpa using hi
      have hne : f ≠ g := fun h => hg (h ▸ List.mem_of_getElem? hi)
      refine (ih hr hi (k + 1) _).trans ?_
      rw [State.floe_setFloe_ne _ _ hne, Nat.add_right_comm, Nat.add_assoc]

/-! ## START -/

/-- A floe whose streams begin at their entry points. -/
def Floe.entered (im : Image) (floes i f : Nat) (x : Floe) : Floe :=
  let pcs := Tbl.get [] im.entries i
  let regs : Tbl DWord := [(1, BitVec.ofNat 64 f), (2, BitVec.ofNat 64 i), (3, BitVec.ofNat 64 floes), (4, im.step.setWidth 64)]
  { x with fwd := x.fwd.start (pcs.getD 0 0xFFFFFFFF) regs, bwd := x.bwd.start (pcs.getD 1 0xFFFFFFFF) regs,
           upd := x.upd.start (pcs.getD 2 0xFFFFFFFF) regs, gnCommit := im.gn, curValid := false, locked := true }
theorem State.startStreams_floe {s : State} {p i f : Nat} (hi : (s.partFloes p)[i]? = some f) (im : Image) :
    (s.startStreams p im).floe f = (s.floe f).entered im (s.partFloes p).length i f := by
  have hnumbered := State.each_numbered (φ := Floe.entered im (s.partFloes p).length) (s.partFloes_nodup p) hi 0 s
  rw [Nat.zero_add] at hnumbered
  exact hnumbered
theorem State.startStreams_parts (s : State) (p : Nat) (im : Image) : (s.startStreams p im).parts = s.parts :=
  State.each_keeps (v := State.parts) (op := fun t (e : Nat × Nat) => t.setFloe e.2 ((t.floe e.2).entered im (s.partFloes p).length e.1 e.2)) (fun _ _ => rfl) _ s
/-- The state in which START leaves a partition's floes and its entry. -/
def State.starts (s : State) (p : Nat) (im : Image) : State :=
  let s2 := (s.startFloes p).startStreams p im
  s2.setPart p { s2.part p with st := .running, stepCount := im.step, serial := 0 }
theorem State.starts_part (s : State) (p : Nat) (im : Image) :
    (s.starts p im).part p = { (s.part p).started with st := .running, stepCount := im.step, serial := 0 } := by
  rw [State.starts, State.part_setPart, State.part_of_parts (State.startStreams_parts ..), State.startFloes_part]
theorem State.starts_floe {s : State} {p i f : Nat} (hi : (s.partFloes p)[i]? = some f) (im : Image) :
    (s.starts p im).floe f = (s.floe f).started.entered im (s.partFloes p).length i f := by
  have hfloes : (s.startFloes p).partFloes p = s.partFloes p := State.partFloes_of_groups (by rw [State.startFloes_part]; rfl)
  have hset : (s.starts p im).floe f = ((s.startFloes p).startStreams p im).floe f := rfl
  rw [hset, State.startStreams_floe (hfloes ▸ hi), State.startFloes_floe (List.mem_of_getElem? hi), hfloes]
/-- What a stream with an entry point has at START. -/
theorem StreamSt.start_of_entry {pc : Word} (h : pc ≠ 0xFFFFFFFF#32) (x : StreamSt) (regs : Tbl DWord) :
    x.start pc regs = { x with st := .running, pc := pc.setWidth 64, fault := 0, regs := regs } := if_neg h
/-- A partition in which a stream runs has not ended its program. -/
theorem State.programEnd_of_running {s : State} {p f : Nat} {u : Stream} (hf : f ∈ s.partFloes p) (h : (s.stream f u).st = .running) : s.programEnd p = s := by
  refine if_neg fun hend => ?_
  have hhalted := State.allHalted_iff.mp (Bool.and_eq_true_iff.mp hend).2 f hf u
  rw [h] at hhalted
  exact absurd hhalted (by decide)

/-! ## The four commands -/

section
variable {p : Nat} {s s1 : State} {c : GwyPkt}

/-- The state in which LOAD_BEGIN opens its load. -/
def State.unloaded (s : State) (p : Nat) : State := if (s.part p).st = .claimed then s else s.resetPart p
/-- A load of n bytes is open. -/
def State.opensLoad (s : State) (p n : Nat) : State := s.setPart p { s.part p with st := .claimed, image := none, load := some { len := n } }
theorem exec_loadBegin (h : Claims.Runs 0x03 p (fun c => c.arg1 == 0 && c.payload.isEmpty) true false
      (fun st => st == .claimed || st == .loaded || st == .degraded) s c s1) (hcalving : s.calving p = false)
    (hlow : 4096 ≤ c.arg0.toNat) (hhigh : c.arg0.toNat ≤ 2 ^ 32) :
    exec (.loadBegin p) s = .next (((s1.unloaded p).opensLoad p c.arg0.toNat).respond c 0 0 0 0 []) := by
  obtain ⟨htake, haccept⟩ := h
  have harm : exec (.loadBegin p) s = execLoadBegin p s := rfl
  have hlen : ¬(c.arg0.toNat < 4096 ∨ 2 ^ 32 < c.arg0.toNat) := by omega
  rw [harm, execLoadBegin, hcalving, htake]
  simp only [haccept, Bool.false_eq_true, if_false, Bool.or_eq_true, decide_eq_true_iff, if_neg hlen]
  rfl
/-- A load's bytes are those that have come. -/
def State.hasLoaded (s : State) (p : Nat) (ld : Load) (all : List Byte) : State := s.setPart p { s.part p with load := some { ld with bytes := all } }
theorem exec_loadChunk {ld : Load} (h : Claims.Runs 0x04 p (fun c => c.arg1 == 0) true false (fun st => st == .claimed && (s1.part p).load.isSome) s c s1)
    (hload : (s1.part p).load = some ld) {all : List Byte} (hall : all = ld.bytes ++ c.payload) {rs : List (Section × Nat × Nat)}
    (hrs : rs = chunkRuns all ld.bytes.length all.length) (hnext : c.arg0.toNat = ld.bytes.length) (hlen : all.length ≤ ld.len)
    (hfirst : ld.bytes = [] → 64 ≤ all.length) (hheader : imgHeaderOk all ld.len = true)
    (hentries : ∀ i < imgArrived all, imgEntryOk all ld.len (s1.partFloes p).length i = true) (hinside : ∀ r ∈ rs, s1.runOk p r = true)
    (hfree : ∀ r ∈ rs, ∀ a, secTarget (s1.partFloes p) r.1 r.2.1 = some a → s1.memHeld a r.2.2 = false) (hstored : (s1.writeRuns p all rs).2 = true) :
    exec (.loadChunk p) s = .next (((s1.hasLoaded p ld all).respond c 0 0 0 0 []).writeRuns p all rs).1 := by
  obtain ⟨htake, haccept⟩ := h
  have harm : exec (.loadChunk p) s = execLoadChunk p s := rfl
  have hplace : (decide (c.arg0.toNat ≠ ld.bytes.length) || decide (ld.len < all.length)) = false := by simp [hnext, hlen]
  have hwhole : (decide (ld.bytes.length = 0) && decide (all.length < 64)) = false := by
    simpa [List.length_eq_zero_iff] using hfirst
  have hlisted : ((List.range (imgArrived all)).all fun i => imgEntryOk all ld.len (s1.partFloes p).length i) = true := by
    simpa [List.all_eq_true] using hentries
  have hruns : (rs.all fun r => s1.runOk p r) = true := List.all_eq_true.mpr hinside
  have hnone : (rs.any fun r => ((secTarget (s1.partFloes p) r.1 r.2.1).map (fun a => s1.memHeld a r.2.2)).getD false) = false := by
    refine List.any_eq_false.mpr fun r hr => ?_
    cases htarget : secTarget (s1.partFloes p) r.1 r.2.1 with
    | none => exact Bool.false_ne_true
    | some a =>
      rw [Option.map_some, Option.getD_some, hfree r hr a htarget]
      exact Bool.false_ne_true
  rw [harm, execLoadChunk, htake]
  simp only [haccept]
  simp only [hload, ← hall, ← hrs, hplace, hwhole, hheader, hlisted, hruns, hnone, hstored, Bool.not_true, Bool.or_self, Bool.false_eq_true,
    if_false, if_true]
  rfl
theorem exec_loadEnd {ld : Load} {slot : Nat} (h : Claims.Runs 0x05 p Claims.bare true false (fun st => st == .claimed && (s1.part p).load.isSome) s c s1)
    (hfirst : ∀ d, s.loaderNext = some d → d.part = p) (hload : (s1.part p).load = some ld) (hwhole : ld.len ≤ ld.bytes.length)
    (hsigned : s1.imageSigner ld.bytes = some slot) (hmin : (Tbl.get 0 s1.flash.mins slot).toNat ≤ leAt ld.bytes 48 4)
    (htables : tablesOk ld.bytes (s1.partFloes p).length = true) (himage : s1.imageMisfit p ld.bytes = none) (hcoll : s1.collMisfit p ld.bytes = none)
    (hmem : s1.memMisfit p ld.bytes = none) : exec (.loadEnd p) s = .next ((s1.installImage p ld.bytes).respond c 0 0 0 0 []) := by
  obtain ⟨htake, haccept⟩ := h
  have harm : exec (.loadEnd p) s = execLoadEnd p s := rfl
  have hturn : (s.loaderNext.any fun d => d.part != p) = false := by
    cases hnext : s.loaderNext with
    | none => rfl
    | some d => rw [Option.any_some, hfirst d hnext, bne_self_eq_false]
  rw [Claims.bare] at haccept
  rw [harm, execLoadEnd, hturn, htake]
  simp only [haccept]
  simp only [hload, hsigned, htables, himage, hcoll, hmem, if_neg (Nat.not_lt.mpr hwhole), if_neg (Nat.not_lt.mpr hmin), Bool.not_true,
    Bool.false_eq_true, if_false, Option.orElse_none]
theorem exec_start {im : Image} (h : Claims.Runs 0x06 p Claims.bare true false (fun st => st == .loaded) s c s1) (himage : (s1.part p).image = some im) :
    exec (.start p) s = .next (((s1.starts p im).respond c 0 0 0 0 []).programEnd p) := by
  obtain ⟨htake, haccept⟩ := h
  have harm : exec (.start p) s = execStart p s := rfl
  rw [Claims.bare] at haccept
  rw [harm, execStart, htake]
  simp only [haccept, himage, Option.getD_some]
  rfl
end
theorem State.installImage_part (s : State) (p : Nat) (l : List Byte) : ((s.installImage p l).part p).st = .loaded
    ∧ ((s.installImage p l).part p).load = none
    ∧ ((s.installImage p l).part p).image = some (readImage l (s.imageFloes p l).length) := by
  rw [State.installImage, State.part_setPart]
  exact ⟨rfl, rfl, rfl⟩
theorem State.unloaded_floe {s : State} {p f : Nat} (h : (s.part p).st ≠ .claimed) (hf : f ∈ s.partFloes p) : (s.unloaded p).floe f = {} := by
  rw [State.unloaded, if_neg h, s.resetPart_floe p f hf]

end Sys2Proof.Machine

open Sys2Proof Sys2Proof.Machine

/-- Settles O33: each command taken and accepted has one result, and what it leaves of the partition and of its floes is read off it. -/
theorem imagesLoadAndStart : Obligations.ImagesLoadAndStart := by
  unfold Obligations.ImagesLoadAndStart
  intro p s s1 c
  refine ⟨fun h hcalving hlow hhigh => ⟨_, exec_loadBegin h hcalving hlow hhigh, ?_⟩, ?_, fun ld slot h hfirst hload hwhole hsigned hmin htables hi hc hm =>
    ⟨_, exec_loadEnd h hfirst hload hwhole hsigned hmin htables hi hc hm, ?_⟩, fun im i f h himage hi hentry => ?_⟩
  · have htaken : Answers s s1 := .runs h
    have hfloes : s1.partFloes p = s.partFloes p := State.partFloes_of_groups (by rw [State.part_of_parts (htaken.parts rfl) p])
    have hanswer : Answers ((s1.unloaded p).opensLoad p c.arg0.toNat) _ := Answers.respond _ c 0 0 0 0 []
    rw [State.part_of_parts (hanswer.parts rfl), State.opensLoad, State.part_setPart]
    exact ⟨rfl, rfl, rfl, fun hst f hf => (State.floe_of_floes (hanswer.floes rfl) f).trans (State.unloaded_floe hst (hfloes ▸ hf))⟩
  · intro ld h hload all rs hnext hlen hfirst hheader hentries hinside hfree hstored
    have hexec := exec_loadChunk h hload rfl rfl hnext hlen hfirst hheader hentries hinside hfree hstored
    refine ⟨_, hexec, ?_, rfl⟩
    have hwrites := State.writeRuns_touch (Sub.refl _) ((s1.hasLoaded p ld all).respond c 0 0 0 0 []) p all rs (.refl _ _)
    rw [State.part_of_parts (hwrites.parts rfl), State.part_of_parts (State.respond_parts ..), State.hasLoaded, State.part_setPart]
  · obtain ⟨hst, hnone, hinstalled⟩ := s1.installImage_part p ld.bytes
    rw [State.part_of_parts (State.respond_parts ..)]
    exact ⟨hst, hnone, hinstalled⟩
  · have htaken : Answers s s1 := .runs h
    have hfloes : s1.partFloes p = s.partFloes p := State.partFloes_of_groups (by rw [State.part_of_parts (htaken.parts rfl) p])
    have hanswer : Answers (s1.starts p im) _ := Answers.respond _ c 0 0 0 0 []
    have hpart := (State.part_of_parts (hanswer.parts rfl) p).trans (s1.starts_part p im)
    have hfloe := (State.floe_of_floes (hanswer.floes rfl) f).trans (State.starts_floe (hfloes ▸ hi) im)
    have hfwd : (((s1.starts p im).respond c 0 0 0 0 []).floe f).fwd = _ := (congrArg Floe.fwd hfloe).trans (StreamSt.start_of_entry hentry ..)
    have hnow : ((s1.starts p im).respond c 0 0 0 0 []).partFloes p = s.partFloes p :=
      State.partFloes_of_groups (by rw [hpart, State.part_of_parts (htaken.parts rfl)]; rfl)
    have hends : ((s1.starts p im).respond c 0 0 0 0 []).programEnd p = _ :=
      State.programEnd_of_running (u := .fwd) (hnow ▸ List.mem_of_getElem? hi) (congrArg StreamSt.st hfwd)
    refine ⟨_, (exec_start h himage).trans (congrArg _ hends), ?_⟩
    rw [hpart, hfwd, ← hfloes]
    exact ⟨rfl, rfl, rfl, rfl, rfl, rfl, rfl, rfl, rfl, rfl, congrArg Floe.gnCommit hfloe, congrArg Floe.tags hfloe⟩
end

section
/-! SUPPORT. The endpoints' buffers: the packet that a store completes is framed, arrives alone and joins the commands that wait (spec/12 R404 to R418). -/

namespace Sys2Proof.Machine

/-! ## What the checks on arrival read -/

theorem State.modOpen_of_mods {s t : State} (hmods : t.ucie = s.ucie) (hhdrs : t.hdrs = s.hdrs) (m : Nat) : t.modOpen m = s.modOpen m := by
  simp only [State.modOpen, State.mod, State.hdr, hmods, hhdrs]
theorem State.modOpen_setEp (s : State) (e : Nat) (y : Endpoint) (m : Nat) : (s.setEp e y).modOpen m = s.modOpen m := State.modOpen_of_mods rfl rfl m
theorem State.upModule_setEp (s : State) (e : Nat) (y : Endpoint) (want : Option Nat) : (s.setEp e y).upModule want = s.upModule want := rfl
theorem State.linkUp_of_modOpen {s : State} {m : Nat} (hm : m < 4) (h : s.modOpen m = true) : s.linkUp = true := by
  have hup : (s.mod m).up = true := by
    simp only [State.modOpen, Bool.and_eq_true] at h
    exact h.1.1
  exact List.any_eq_true.mpr ⟨m, List.mem_range.mpr hm, hup⟩
/-- The credit in use is read off the held responses and the commands that wait. -/
theorem State.creditUsed_congr {s t : State} (hheld : ∀ e, (t.ep e).heldRx = (s.ep e).heldRx) (hcmdq : t.cmdq = s.cmdq) (c : GwyPkt) :
    t.creditUsed c = s.creditUsed c := by
  simp only [State.creditUsed, hheld, hcmdq]
theorem State.heldRx_setEp {s : State} {e : Nat} {y : Endpoint} (h : y.heldRx = (s.ep e).heldRx) (i : Nat) : ((s.setEp e y).ep i).heldRx = (s.ep i).heldRx := by
  by_cases hi : i = e
  · rw [hi, State.ep_setEp, h]
  · rw [State.ep_setEp_ne _ _ hi]

/-! ## A packet is framed and arrives -/

section
variable {s : State} {e m : Nat} {l : List Byte}

/-- The endpoint after the packet of a command has come. -/
def Endpoint.heard (x : Endpoint) (c : GwyPkt) : Endpoint := { x with expSeq := x.expSeq.put c.part (c.seq + 1) }
/-- A command has come from endpoint e on module m. -/
def State.hears (s : State) (e m : Nat) (c : GwyPkt) : State :=
  let s2 := (s.setMod m { s.mod m with packets := bump (s.mod m).packets }).setEp e ((s.ep e).heard c)
  { s2 with cmdq := s2.cmdq ++ [c] }
theorem State.hears_cmdq (s : State) (e m : Nat) (c : GwyPkt) : (s.hears e m c).cmdq = s.cmdq ++ [c] := rfl
theorem State.arriveCmd_of_valid (horphan : s.orphanModule m = false) (hcredit : s.creditUsed (readCmd e l) + (readCmd e l).cost ≤ 262144)
    (hcrc : crcOk l = true) (hseq : (readCmd e l).seq = Tbl.get 0 (s.ep e).expSeq (readCmd e l).part)
    (hpart : (readCmd e l).part < 8 ∨ (readCmd e l).part = 15) : s.arriveCmd e m l = s.hears e m (readCmd e l) := by
  generalize hc : readCmd e l = c at *
  have hreserved : (decide (8 ≤ c.part) && decide (c.part < 15)) = false := by
    rw [Bool.and_eq_false_iff, decide_eq_false_iff_not, decide_eq_false_iff_not]
    omega
  unfold State.arriveCmd
  extract_lets c' x m' s1 m2 s2 s3
  have hcc : c' = c := hc
  have horphan1 : s1.orphanModule m = false := horphan
  have hsame : s1.creditUsed c = s.creditUsed c := State.creditUsed_congr (fun _ => rfl) rfl c
  have hcredit1 : ¬262144 < s1.creditUsed c + c.cost := by omega
  rw [horphan1, hcc, if_neg Bool.false_ne_true, if_neg hcredit1, hcrc, if_neg (by simp), if_neg (not_not.mpr hseq), hreserved, if_neg Bool.false_ne_true]
  subst hcc
  rfl
/-- The one packet on its way from an endpoint arrives where its module takes packets and its number is the next. -/
theorem State.arrivals_one (htransit : (s.ep e).transit = [(m, l)]) (hopen : s.modOpen m = true)
    (hseq : (readCmd e l).seq = Tbl.get 0 (s.ep e).expSeq (readCmd e l).part) :
    s.arrivals e 1 = (s.setEp e { s.ep e with transit := [] }).arriveCmd e m l := by
  have hnext : s.nextArrival e = some (m, l) := by
    simp only [State.nextArrival, htransit, List.filter_cons, hopen, if_true, List.filter_nil, List.find?_cons, hseq, beq_self_eq_true]
  rw [State.arrivals, hnext]
  simp only [htransit, List.erase_cons_head, State.arrivals]
/-- The endpoint whose outbound stream is one packet, which has left on module m. -/
def Endpoint.sent (x : Endpoint) (m : Nat) : Endpoint :=
  { x with tx := [], stalled := [], transit := [(m, x.tx.take (32 + 4 * beAt x.tx 2 2))] }
/-- What an endpoint's outbound stream holds, where it is one whole packet, leaves on the module it is given. -/
theorem State.frameTx_whole {x : Endpoint} (hx : s.ep e = x) (herror : x.txError = false) (henable : x.enable = true) (hlink : s.linkUp = true)
    (hstalled : x.stalled = []) (htransit : x.transit = []) (hlength : beAt x.tx 2 2 ≤ 16384) (hwhole : x.tx.length = padded8 (32 + 4 * beAt x.tx 2 2))
    (route : List Nat) (n : Nat) :
    s.frameTx e route (n + 1) = ((s.setEp e (x.sent (s.upModule route.head?))).arrivals e 1).frameTx e route.tail n := by
  have hmin : ¬x.tx.length < 32 := by
    rw [hwhole, padded8]
    omega
  have hgo : (x.txError || !x.enable || !s.linkUp || decide (x.tx.length < 32)) = false := by
    rw [herror, henable, hlink, decide_eq_false hmin]
    rfl
  rw [State.frameTx]
  simp only [hx, hgo, Bool.false_eq_true, if_false, if_neg (Nat.not_lt.mpr hlength), ← hwhole, lt_self_iff_false, List.drop_length, hstalled,
    takeStalled, htransit, List.nil_append, List.length_nil, Nat.zero_add]
  rfl
end

/-! ## Stores, loads and refusals -/

section
variable {s : State} {e : Nat}

/-- A store that fits: 8 or 64 aligned bytes. -/
theorem storeWidth_eq (n off : Nat) : ((n == 8 && off % 8 == 0) || (n == 64 && off % 64 == 0)) = decide ((n = 8 ∧ off % 8 = 0) ∨ (n = 64 ∧ off % 64 = 0)) := by
  simp only [Bool.decide_or, Bool.decide_and, ← Nat.beq_eq_true_eq, Bool.decide_eq_true]
/-- An endpoint whose outbound stream has taken bytes. -/
def Endpoint.holding (x : Endpoint) (b : List Byte) : Endpoint := { x with tx := x.tx ++ b, stalled := [] }
theorem exec_gwyTxStore {off : Nat} {b : List Byte} {route : List Nat} (hfit : (b.length = 8 ∧ off % 8 = 0) ∨ (b.length = 64 ∧ off % 64 = 0)) (he : e < 8)
    (herror : (s.ep e).txError = false) (hstalled : (s.ep e).stalled = []) : exec (.gwyTxStore e off b route) s
      = .next (if (s.ep e).tx.length + b.length ≤ 524288 then (s.setEp e ((s.ep e).holding b)).frameTx e route ((s.ep e).holding b).stored
        else (s.setEp e { s.ep e with stalled := [b] }).frameTx e route { s.ep e with stalled := [b] }.stored) := by
  have harm : exec (.gwyTxStore e off b route) s = execGwyTxStore e off b route s := rfl
  have hgo : (decide (8 ≤ e) || (s.ep e).txError) = false := by simp [herror, he]
  rw [harm, execGwyTxStore]
  simp only [storeWidth_eq, decide_eq_true hfit, Bool.not_true, hgo, Bool.false_eq_true, if_false, hstalled, List.nil_append, takeStalled]
  by_cases hroom : (s.ep e).tx.length + b.length ≤ 524288
  · rw [if_pos hroom, if_pos hroom]
    rfl
  · rw [if_neg hroom, if_neg hroom]
theorem State.frameTx_of_disabled (h : (s.ep e).enable = false) (route : List Nat) (n : Nat) : s.frameTx e route n = s := by
  cases n with
  | zero => rfl
  | succ n =>
    rw [State.frameTx]
    exact if_pos (by simp [h])
/-- An endpoint's store that completes a packet: the packet leaves, arrives and joins the commands that wait. -/
theorem State.frameTx_store {x : Endpoint} {b : List Byte} {route : List Nat} {n m : Nat} {l : List Byte} {c : GwyPkt} (hx : s.ep e = x)
    (hl : l = (x.tx ++ b).take (32 + 4 * beAt (x.tx ++ b) 2 2)) (hc : c = readCmd e l) (hm : m = s.upModule route.head?)
    (herror : x.txError = false) (henable : x.enable = true) (htransit : x.transit = []) (hlength : beAt (x.tx ++ b) 2 2 ≤ 16384)
    (hwhole : x.tx.length + b.length = padded8 (32 + 4 * beAt (x.tx ++ b) 2 2)) (hm4 : m < 4) (hopen : s.modOpen m = true) (horphan : s.orphanModule m = false)
    (hcredit : s.creditUsed c + c.cost ≤ 262144) (hcrc : crcOk l = true) (hseq : c.seq = Tbl.get 0 x.expSeq c.part) (hpart : c.part < 8 ∨ c.part = 15) :
    ∃ t, (s.setEp e (x.holding b)).frameTx e route (n + 1) = t ∧ t.cmdq = s.cmdq ++ [c] ∧ (t.ep e).tx = []
      ∧ (t.ep e).expSeq = x.expSeq.put c.part (c.seq + 1) := by
  subst hc
  set u := s.setEp e (x.holding b) with hu
  have hheld : ∀ i, (u.ep i).heldRx = (s.ep i).heldRx := State.heldRx_setEp (by rw [hx]; rfl)
  have huopen : u.modOpen m = true := hopen
  have hframe := State.frameTx_whole (s := u) (State.ep_setEp s e (x.holding b)) herror henable (State.linkUp_of_modOpen hm4 huopen) rfl htransit hlength
    (List.length_append.trans hwhole) route n
  have humod : u.upModule route.head? = m := hm.symm
  set x1 : Endpoint := (x.holding b).sent m with hx1
  rw [humod, ← hx1] at hframe
  set v := u.setEp e x1 with hv
  have hvx : v.ep e = x1 := State.ep_setEp ..
  have hvheld : ∀ i, (v.ep i).heldRx = (s.ep i).heldRx := fun i => (State.heldRx_setEp (s := u) (by rw [hheld, hx]; rfl) i).trans (hheld i)
  have harrive : v.arrivals e 1 = (v.setEp e { v.ep e with transit := [] }).arriveCmd e m l :=
    State.arrivals_one (by rw [hvx, hx1, hl]; rfl) hopen (by rw [hvx]; exact hseq)
  set w := v.setEp e { v.ep e with transit := [] } with hw
  have hwx : w.ep e = { x1 with transit := [] } := by rw [hw, State.ep_setEp, hvx]
  have hwheld : ∀ i, (w.ep i).heldRx = (s.ep i).heldRx := fun i => (State.heldRx_setEp (s := v) (by rfl) i).trans (hvheld i)
  have hhears : w.arriveCmd e m l = w.hears e m (readCmd e l) :=
    State.arriveCmd_of_valid horphan (by rwa [State.creditUsed_congr hwheld rfl]) hcrc (by rw [hwx]; exact hseq) hpart
  have hend : ((w.hears e m (readCmd e l)).ep e) = (w.ep e).heard (readCmd e l) := State.ep_setEp ..
  have hqueue : w.cmdq = s.cmdq := rfl
  have hcmdq : (w.hears e m (readCmd e l)).cmdq = s.cmdq ++ [readCmd e l] := (w.hears_cmdq e m _).trans (by rw [hqueue])
  have hempty : ((w.hears e m (readCmd e l)).ep e).tx = [] := by
    rw [hend, hwx]
    rfl
  rw [hframe, harrive, hhears, State.frameTx_of_empty hempty]
  refine ⟨_, rfl, hcmdq, hempty, ?_⟩
  rw [hend, hwx]
  rfl
theorem exec_gwyRxLoad {i : RxItem} {r : List RxItem} (hrx : (s.ep e).rx = i :: r) (hheld : (s.ep e).heldRx = []) : exec (.gwyRxLoad e) s
    = .next (s.setEp e { s.ep e with lastLoad := i.bytes.take 8, rx := if i.bytes.length ≤ 8 then r else { i with bytes := i.bytes.drop 8 } :: r }) := by
  have harm : exec (.gwyRxLoad e) s = execGwyRxLoad e s := rfl
  rw [harm, execGwyRxLoad]
  simp only [hrx, hheld, List.length_nil, State.refillRx, List.isEmpty_iff, List.drop_eq_nil_iff]
theorem exec_gwyRxLoad_of_empty (he : e < 8) (hrx : (s.ep e).rx = []) : exec (.gwyRxLoad e) s = .next (s.setEp e { s.ep e with lastLoad := zeros 8 }) := by
  have harm : exec (.gwyRxLoad e) s = execGwyRxLoad e s := rfl
  rw [harm, execGwyRxLoad]
  simp only [hrx, if_pos he]
/-- A command whose fields are wrong is refused. -/
theorem State.acceptCmd_of_wrongFields (c : GwyPkt) (onPart onDev : Bool) (ok : PState → Bool) : (s.acceptCmd c false onPart onDev ok).isSome = true := by
  unfold State.acceptCmd
  extract_lets dev open15
  rw [Bool.and_false, Bool.not_false, Bool.true_or, Bool.true_or, if_pos rfl]
  split
  · rfl
  · split
    · rfl
    · rfl
theorem exec_badOpcode {pv : Nat} {c : GwyPkt} {s1 : State} (h : s.takeCmd pv (fun c => !opcodes.contains c.opcode || reservedOp c) = some (c, s1)) :
    exec (.badOpcode pv) s = if c.opcode ∈ opcodes then (s1.acceptCmd c false true true (fun _ => true)).elim (.next (s1.respond c 0x06 4 0 0 [])) .next
      else .next (s1.respond c 0x05 0 0 0 []) := by
  have harm : exec (.badOpcode pv) s = execBadOpcode pv s := rfl
  rw [harm, execBadOpcode, h]
  by_cases hknown : c.opcode ∈ opcodes
  · simp only [List.contains_iff_mem.mpr hknown, Bool.not_true, Bool.false_eq_true, if_false, if_pos hknown]
    cases s1.acceptCmd c false true true (fun _ => true) with
    | some t => rfl
    | none => rfl
  · simp only [Bool.eq_false_iff.mpr (mt List.contains_iff_mem.mp hknown), Bool.not_false, if_true, if_neg hknown]
end

end Sys2Proof.Machine

open Sys2Proof Sys2Proof.Machine

/-- Settles O31: a store only adds to the outbound stream, and the packet that it completes is followed through its framing and arrival. That a disabled endpoint keeps the bytes stored in it is log 51's reading. -/
theorem endpointBuffers : Obligations.EndpointBuffers := by
  unfold Obligations.EndpointBuffers
  intro e s x
  refine ⟨fun off b route h8 h64 => ?_, fun off b route hfit he => ⟨fun herror => ?_, fun herror henable hstalled => ?_, ?_⟩, fun he hrx => ?_,
    fun i r hrx hheld => ?_, fun he => ?_, fun pv c s1 htake => ⟨fun hknown => ?_, fun hknown => ?_⟩⟩
  · have harm : exec (.gwyTxStore e off b route) s = execGwyTxStore e off b route s := rfl
    rw [harm, execGwyTxStore]
    exact if_pos (by rw [storeWidth_eq, decide_eq_false (not_or.mpr ⟨h8, h64⟩), Bool.not_false])
  · have harm : exec (.gwyTxStore e off b route) s = execGwyTxStore e off b route s := rfl
    have hdiscard : (decide (8 ≤ e) || (s.ep e).txError) = true := by rw [herror, Bool.or_true]
    rw [harm, execGwyTxStore, if_neg (by rw [storeWidth_eq, decide_eq_true hfit]; exact Bool.false_ne_true)]
    exact if_pos hdiscard
  · rw [exec_gwyTxStore hfit he herror hstalled]
    by_cases hroom : x.tx.length + b.length ≤ 524288
    · rw [if_pos hroom, if_pos hroom, State.frameTx_of_disabled (by rw [State.ep_setEp]; exact henable), Endpoint.holding, ← hstalled]
    · rw [if_neg hroom, if_neg hroom, State.frameTx_of_disabled (by rw [State.ep_setEp]; exact henable)]
  · intro l c m herror henable hstalled htransit hroom hlength hwhole hm4 hopen horphan hcredit hcrc hseq hpart
    rw [exec_gwyTxStore hfit he herror hstalled, if_pos hroom]
    obtain ⟨t, ht, hcmdq, htx, hexp⟩ := State.frameTx_store (n := ((x.tx ++ b).length / 32)) (s := s) (x := x) rfl rfl rfl rfl herror henable htransit hlength hwhole hm4
      hopen horphan hcredit hcrc hseq hpart
    exact ⟨t, congrArg _ ht, hcmdq, htx, hexp⟩
  · exact exec_gwyRxLoad_of_empty he hrx
  · exact exec_gwyRxLoad hrx hheld
  · have harm : exec (.resync e) s = execResync e s := rfl
    rw [harm, execResync]
    exact if_pos he
  · rw [exec_badOpcode htake, if_neg hknown]
  · rw [exec_badOpcode htake, if_pos hknown]
    obtain ⟨t, ht⟩ := Option.isSome_iff_exists.mp (s1.acceptCmd_of_wrongFields c true true (fun _ => true))
    exact ⟨t, by rw [ht]; rfl, ht.symm⟩
end

section
/-! SUPPORT. Links and sideband ports: what an event and a report of an error leave of an endpoint's outbound side and of a module, and the link's coming up and going down (spec/12 R402 to R409, spec/17 R554 to R558). -/

namespace Sys2Proof.Machine

/-! ## What events leave of an endpoint -/

/-- An endpoint without what waits for the host. -/
def Endpoint.outbound (x : Endpoint) : Endpoint := { x with rx := [], heldRx := [], evSeq := 0, lostNow := 0, lostCount := 0 }
/-- The endpoints without what waits for the host. -/
def State.outbounds (s : State) (e : Nat) : Endpoint := (s.ep e).outbound
theorem State.setEp_outbounds {s : State} {e : Nat} {x : Endpoint} (h : x.outbound = (s.ep e).outbound) : Stays State.outbounds s (s.setEp e x) := by
  constructor
  funext j
  by_cases hj : j = e
  · rw [hj, State.outbounds, State.ep_setEp, h, State.outbounds]
  · rw [State.outbounds, State.ep_setEp_ne _ _ hj, State.outbounds]
theorem State.pushRx_outbounds (s : State) (e : Nat) (ev : Bool) (l : List Byte) (credit : Option (Nat × Nat)) :
    Stays State.outbounds s (s.pushRx e ev l credit) := by
  unfold State.pushRx
  extract_lets x b s1
  have h1 : Stays State.outbounds s s1 := State.setEp_outbounds (by rfl)
  exact .ite (.ite (h1.trans ⟨rfl⟩) h1) (State.setEp_outbounds (by rfl))
theorem State.pushEvent_outbounds (s : State) (e part code die : Nat) (pl : List Byte) : Stays State.outbounds s (s.pushEvent e part code die pl) :=
  (State.pushRx_outbounds ..).after (State.setEp_outbounds (by rfl))
theorem State.lostError_outbounds (s : State) : Stays State.outbounds s s.lostError := by
  unfold State.lostError
  extract_lets d h s1 s2 s3 g
  have h2 : Stays State.outbounds s s2 := .ite ⟨rfl⟩ ⟨rfl⟩
  clear_value s2
  have h3 : Stays State.outbounds s s3 := h2.trans (.each (fun t _ => .ite (State.pushEvent_outbounds ..) (.refl t)) _ s2)
  clear_value s3
  exact .ite (h3.trans ⟨rfl⟩) h2
theorem State.event_outbounds (s : State) (e part code die : Nat) (pl : List Byte) : Stays State.outbounds s (s.event e part code die pl) := by
  have hset (t : State) (x : Endpoint) (h : x.outbound = (t.ep e).outbound) : Stays State.outbounds t (t.setEp e x) := State.setEp_outbounds h
  unfold State.event
  extract_lets x s1 y
  have h1 : Stays State.outbounds s s1 := (State.pushEvent_outbounds ..).after (hset s _ (by rfl))
  exact .ite (.refl s) (.ite ((State.lostError_outbounds _).after (hset s _ (by rfl))) (.ite (State.pushEvent_outbounds ..)
    (.ite (h1.trans ((State.lostError_outbounds _).after (hset s1 _ (by rfl)))) (h1.trans (State.pushEvent_outbounds ..)))))
theorem State.raise_outbounds (s : State) (die page bit : Nat) : Stays State.outbounds s (s.raise die page bit) := by
  unfold State.raise
  extract_lets h s1 s2 s3 g
  have h1 : Stays State.outbounds s s1 := by
    have heps : s1.eps = s.eps := (State.siteErr_touch (Sub.refl _) _ die page (.refl _ _)).eps rfl
    exact ⟨by funext j; simp only [State.outbounds, State.ep, heps]⟩
  have h2 : Stays State.outbounds s s2 := by
    clear_value s1
    exact .ite h1 (h1.trans ⟨rfl⟩)
  have h3 : Stays State.outbounds s s3 := h2.trans (.each (fun t e => .ite (t.event_outbounds ..) (.refl t)) _ s2)
  clear_value s3 s2
  exact .ite (h3.trans ⟨rfl⟩) h2
/-- LINK_RESET changes nothing of an endpoint but its mark. -/
theorem State.linkReset_ep (s : State) (e j : Nat) : (s.linkReset e).ep j = if j = e then { s.ep e with linkReset := true } else s.ep j := by
  have hset : (s.linkReset e).ep j = (s.setEp e { s.ep e with linkReset := true }).ep j := by
    unfold State.linkReset
    extract_lets x s1
    split
    · rfl
    · rfl
  rw [hset]
  by_cases hj : j = e
  · rw [hj, State.ep_setEp, if_pos rfl]
  · rw [State.ep_setEp_ne _ _ hj, if_neg hj]

/-! ## What events and arrivals leave of a module -/

/-- A module's link. -/
def State.link (m : Nat) (s : State) : Bool × BitVec 2 × Bool := ((s.mod m).up, (s.mod m).speed, (s.mod m).half)
theorem State.setMod_link {s : State} {k m : Nat} {x : Ucie} (h : (x.up, x.speed, x.half) = s.link k) : Stays (State.link m) s (s.setMod k x) := by
  constructor
  by_cases hm : m = k
  · rw [hm, ← h, State.link, State.mod_setMod]
  · rw [State.link, State.mod_setMod_ne _ _ hm, State.link]
theorem Stays.link_of_mods {s t : State} (m : Nat) (h : t.ucie = s.ucie) : Stays (State.link m) s t :=
  ⟨by simp only [State.link, State.mod, h]⟩
/-- Both a module's link and the flags that are set stay. -/
structure LinkStays (m : Nat) (s t : State) : Prop where
  link : Stays (State.link m) s t
  flags : FlagsStay s t
section
variable {m : Nat} {s t u : State}
theorem LinkStays.refl (s : State) : LinkStays m s s := ⟨.refl s, .refl s⟩
theorem LinkStays.trans (h : LinkStays m s t) (k : LinkStays m t u) : LinkStays m s u := ⟨h.link.trans k.link, h.flags.trans k.flags⟩
theorem LinkStays.ite {c : Prop} [Decidable c] (h : LinkStays m s t) (k : LinkStays m s u) : LinkStays m s (if c then t else u) :=
  ⟨.ite h.link k.link, .ite h.flags k.flags⟩
end
theorem LinkStays.of_touch {m k : Nat} {s t : State} (h : Touch k s t) (hmods : k.testBit 14 = false) (hhdrs : k.testBit 32 = false) : LinkStays m s t :=
  ⟨.link_of_mods m (h.ucie hmods), h.flagsStay hhdrs⟩
theorem State.respond_linkStays (m : Nat) (s : State) (c : GwyPkt) (st det arg0 arg1 : Nat) (pl : List Byte) : LinkStays m s (s.respond c st det arg0 arg1 pl) :=
  .of_touch (State.respond_touch (Sub.refl _) s c st det arg0 arg1 pl (.refl _ s)) rfl rfl
theorem State.setEp_linkStays (m : Nat) (s : State) (e : Nat) (x : Endpoint) : LinkStays m s (s.setEp e x) :=
  .of_touch (State.setEp_touch (Sub.refl _) s e x (.refl _ s)) rfl rfl
theorem State.raise_linkStays (m : Nat) (s : State) (die page bit : Nat) : LinkStays m s (s.raise die page bit) :=
  ⟨.link_of_mods m ((State.raise_touch (Sub.refl _) s die page bit (.refl _ s)).ucie rfl), s.raise_flagsStay die page bit⟩
theorem State.setMod_linkStays {m : Nat} {s : State} {k : Nat} {x : Ucie} (h : (x.up, x.speed, x.half) = s.link k) : LinkStays m s (s.setMod k x) :=
  ⟨State.setMod_link h, ⟨fun _ _ _ => id⟩⟩
theorem State.arriveCmd_linkStays (m : Nat) (s : State) (src k : Nat) (l : List Byte) : LinkStays m s (s.arriveCmd src k l) := by
  unfold State.arriveCmd
  extract_lets c x m1 s1 m2 s2 s3
  have h1 : LinkStays m s s1 := State.setMod_linkStays rfl
  have h2 : LinkStays m s s2 := h1.trans (State.setMod_linkStays rfl)
  have h3 : LinkStays m s s3 := h1.trans (State.setEp_linkStays ..)
  have hqueue : ∀ u : State, LinkStays m u { u with cmdq := u.cmdq ++ [c] } := fun u => ⟨⟨rfl⟩, ⟨fun _ _ _ => id⟩⟩
  clear_value s1 s2 s3
  exact .ite (.ite (h1.trans (State.respond_linkStays ..)) (h1.trans (State.respond_linkStays ..))) (.ite (h1.trans (State.respond_linkStays ..))
    (.ite ((h2.trans (State.respond_linkStays ..)).trans (State.raise_linkStays ..)) (.ite (h1.trans (State.respond_linkStays ..))
      (.ite (h3.trans (State.respond_linkStays ..)) (h3.trans (hqueue s3))))))
theorem State.arrivals_linkStays (m : Nat) (s : State) (e n : Nat) : LinkStays m s (s.arrivals e n) := by
  induction n generalizing s with
  | zero => exact .refl s
  | succ n ih =>
    rw [State.arrivals]
    split
    · exact .refl s
    · exact ((State.setEp_linkStays ..).trans (State.arriveCmd_linkStays ..)).trans (ih _)
theorem State.frameTx_linkStays (m : Nat) (s : State) (e : Nat) (route : List Nat) (n : Nat) : LinkStays m s (s.frameTx e route n) := by
  induction n generalizing s route with
  | zero => exact .refl s
  | succ n ih =>
    rw [State.frameTx]
    extract_lets x len size q
    exact .ite (.refl s) (.ite (s.setEp_linkStays ..) (.ite (.refl s) (((s.setEp_linkStays ..).trans (State.arrivals_linkStays ..)).trans (ih _ _))))
theorem State.frameAll_linkStays (m : Nat) (s : State) : LinkStays m s s.frameAll := by
  have hone : ∀ (t : State) (e : Nat), LinkStays m t ((t.arrivals e (t.ep e).transit.length).frameTx e [] (t.ep e).stored) := fun t e =>
    (State.arrivals_linkStays ..).trans (State.frameTx_linkStays ..)
  exact ⟨.each (fun t e => (hone t e).link) _ s, State.each_flagsStay (fun t e => (hone t e).flags) _ s⟩
/-- Updates that leave a state change nothing together. -/
theorem State.each_eq_self_of_mem {α : Type} {s : State} {g : State → α → State} {l : List α} (h : ∀ x ∈ l, g s x = s) : s.each l g = s := by
  induction l with
  | nil => rfl
  | cons x r ih =>
    have hx := h x List.mem_cons_self
    have hr := ih fun y hy => h y (List.mem_cons_of_mem _ hy)
    rw [State.each, List.foldl_cons, hx]
    exact hr
/-- With nothing to frame and nothing on its way, nothing goes on. -/
theorem State.frameAll_of_empty {s : State} (h : ∀ e < 8, (s.ep e).tx = [] ∧ (s.ep e).transit = []) : s.frameAll = s := by
  refine State.each_eq_self_of_mem (fun e he => ?_)
  obtain ⟨htx, htransit⟩ := h e (List.mem_range.mp he)
  rw [htransit, List.length_nil, State.arrivals, State.frameTx_of_empty htx]

/-! ## The link comes up and goes down -/

/-- A module that has trained. -/
def State.trains (s : State) (m : Nat) (half : Bool) : State :=
  (if s.linkUp then s else s.freshLink).setMod m { s.mod m with up := true, speed := if (s.mod m).rate then 1 else 2, half := half }
theorem State.freshLink_mod (s : State) (m : Nat) : (if s.linkUp then s else s.freshLink).mod m = s.mod m := by
  have hfresh : s.freshLink.ucie = s.ucie := State.each_keeps (v := State.ucie) (op := fun s e => s.setEp e { s.ep e with expSeq := [], evSeq := 0 }) (fun _ _ => rfl) _ s
  split
  · rfl
  · simp only [State.mod, hfresh]
theorem State.freshLink_ep {s : State} {e : Nat} (he : e < 8) : s.freshLink.ep e = { s.ep e with expSeq := [], evSeq := 0 } :=
  (State.each_once (Q := fun _ => True) (v := State.ep) (φ := fun x => { x with expSeq := [], evSeq := 0 }) (fun _ _ _ => trivial)
    (fun _ _ _ => State.ep_setEp ..) (fun _ _ _ _ hj => State.ep_setEp_ne _ _ hj) List.nodup_range trivial e).trans (if_pos (List.mem_range.mpr he))
theorem exec_ucieLinkUp {s : State} {m : Nat} (half : Bool) (hm : m < 4) (hdown : (s.mod m).up = false) (hstart : s.linksStart = true) :
    exec (.ucieLinkUp m half) s = .next (if half then (s.trains m half).raise (modPage m).1 (modPage m).2 1 else s.trains m half).frameAll := by
  have harm : exec (.ucieLinkUp m half) s = execUcieLinkUp m half s := rfl
  have hgo : ((s.mod m).up || decide (4 ≤ m) || !s.linksStart) = false := by simp [hdown, hstart, hm]
  rw [harm, execUcieLinkUp]
  simp only [hgo, Bool.false_eq_true, if_false, State.freshLink_mod]
  rfl
theorem State.linkDown_mod (s : State) {m : Nat} (hm : m < 4) : (s.linkDown.mod m).up = false := by
  have hmods : s.linkDown.ucie = (s.each (List.range 4) (fun s m => s.setMod m { s.mod m with up := false, speed := 0, half := false })).ucie :=
    State.each_keeps (v := State.ucie) (op := fun s e => s.setEp e { s.ep e with tx := [], stalled := [], transit := [], heldRx := [] }) (fun _ _ => rfl) _ _
  rw [State.mod, hmods]
  refine State.each_establishes (P := fun t m => (t.mod m).up = false) (fun t k => by rw [State.mod_setMod]) (fun t j k h => ?_) _ s m (List.mem_range.mpr hm)
  by_cases hj : j = k
  · rw [hj, State.mod_setMod]
  · rw [State.mod_setMod_ne _ _ hj, h]
theorem State.linkDown_ep (s : State) {e : Nat} (he : e < 8) : s.linkDown.ep e = { s.ep e with tx := [], stalled := [], transit := [], heldRx := [] } := by
  have heps : (s.each (List.range 4) (fun s m => s.setMod m { s.mod m with up := false, speed := 0, half := false })).eps = s.eps :=
    State.each_keeps (v := State.eps) (op := fun s m => s.setMod m { s.mod m with up := false, speed := 0, half := false }) (fun _ _ => rfl) _ s
  refine (State.each_once (Q := fun _ => True) (v := State.ep) (φ := fun x => { x with tx := [], stalled := [], transit := [], heldRx := [] })
    (op := fun s e => s.setEp e { s.ep e with tx := [], stalled := [], transit := [], heldRx := [] }) (fun _ _ _ => trivial)
    (fun _ _ _ => State.ep_setEp ..) (fun _ _ _ _ hj => State.ep_setEp_ne _ _ hj) List.nodup_range trivial e).trans ?_
  rw [if_pos (List.mem_range.mpr he), State.ep, heps, State.ep]
theorem State.linkDown_cmdq (s : State) : s.linkDown.cmdq = s.cmdq.filter (fun c => c.src == 8) := by
  have hmods : (s.each (List.range 4) (fun s m => s.setMod m { s.mod m with up := false, speed := 0, half := false })).cmdq = s.cmdq :=
    State.each_keeps (v := State.cmdq) (op := fun s m => s.setMod m { s.mod m with up := false, speed := 0, half := false }) (fun _ _ => rfl) _ s
  have heps : ∀ t : State, (t.each (List.range 8) (fun s e => s.setEp e { s.ep e with tx := [], stalled := [], transit := [], heldRx := [] })).cmdq = t.cmdq :=
    fun t => State.each_keeps (v := State.cmdq) (op := fun s e => s.setEp e { s.ep e with tx := [], stalled := [], transit := [], heldRx := [] }) (fun _ _ => rfl) _ t
  rw [State.linkDown]
  simp only [heps, hmods]
theorem State.each_linkReset_ep (s : State) {e : Nat} (he : e < 8) : (s.each (List.range 8) (fun s e => s.linkReset e)).ep e = { s.ep e with linkReset := true } :=
  (State.each_once (Q := fun _ => True) (v := State.ep) (φ := fun x => { x with linkReset := true }) (op := fun s e => s.linkReset e) (fun _ _ _ => trivial)
    (fun t k _ => by rw [State.linkReset_ep, if_pos rfl]) (fun t k j _ hj => by rw [State.linkReset_ep, if_neg hj]) List.nodup_range trivial e).trans
    (if_pos (List.mem_range.mpr he))

/-! ## I3C and JTAG -/

theorem exec_i3cCommand {s : State} {l : List Byte} (hruns : s.secRuns = true) (hlen : 32 ≤ l.length) : exec (.i3cCommand l) s = .next (s.i3cArrive l) := by
  have harm : exec (.i3cCommand l) s = execI3cCommand l s := rfl
  have hgo : (s.secRuns && decide (32 ≤ l.length)) = true := by rw [hruns, decide_eq_true hlen, Bool.and_true]
  rw [harm, execI3cCommand, if_pos hgo]
theorem State.i3cArrive_of_valid {s : State} {l : List Byte} (hfree : s.i3c.outstanding = false) (hwhole : l.length = 32 + 4 * beAt l 2 2) (hcrc : crcOk l = true)
    (hseq : (readCmd 8 l).seq = s.i3c.expSeq) (hknown : (readCmd 8 l).opcode ∈ opcodes) (hpart : (readCmd 8 l).part = 15) (hshort : beAt l 2 2 ≤ 1024) :
    s.i3cArrive l = { s with cmdq := s.cmdq ++ [readCmd 8 l], i3c := { s.i3c with expSeq := (readCmd 8 l).seq + 1, outstanding := true } } := by
  have hsame : (decide (l.length ≠ 32 + 4 * beAt l 2 2) || !crcOk l) = false := by rw [hcrc, decide_eq_false (not_not.mpr hwhole), Bool.not_true, Bool.or_false]
  unfold State.i3cArrive
  extract_lets c refuse i s1
  rw [hfree, if_neg Bool.false_ne_true, hsame, if_neg Bool.false_ne_true, if_neg (not_not.mpr hseq), List.contains_iff_mem.mpr hknown, Bool.not_true,
    if_neg Bool.false_ne_true, if_neg (not_not.mpr hpart), if_neg (Nat.not_lt.mpr hshort)]
/-- A command that comes over I3C while another is outstanding is answered. -/
theorem State.i3cArrive_of_busy {s : State} {l : List Byte} (hbusy : s.i3c.outstanding = true) :
    (s.i3cArrive l).cmdq = s.cmdq ∧ (s.i3cArrive l).i3c.outstanding = true ∧ (s.i3cArrive l).i3c.response ≠ none := by
  unfold State.i3cArrive
  extract_lets c refuse s1
  rw [if_pos hbusy]
  exact ⟨rfl, hbusy, Option.some_ne_none _⟩

end Sys2Proof.Machine

open Sys2Proof Sys2Proof.Machine

/-- Settles O48: each event is one change of a link, of the I3C target or of the TAP. That the link's going down clears the bytes stored and held and keeps those delivered is log 45's reading, that NO_CREDIT leaves the outstanding command outstanding log 100's, and which bit of the debug mask opens which target log 98's. -/
theorem linksAndSidebandPorts : Obligations.LinksAndSidebandPorts := by
  unfold Obligations.LinksAndSidebandPorts
  refine ⟨⟨fun m half s hm hdown hstart => ⟨_, exec_ucieLinkUp half hm hdown hstart, ?_⟩, fun s hup => ?_, fun m retries s hup => ⟨?_, ?_⟩⟩,
    fun s => ⟨fun hphase => ?_, fun l hruns hlen => ⟨fun hfree hwhole hcrc hseq hknown hpart hshort => ?_, fun hbusy => ?_⟩, fun b hb hruns => ?_, fun a hruns => ?_,
      fun n => ⟨fun hidle => ?_, fun hbusy => ?_⟩, rfl, fun tgt => ?_⟩⟩
  · set u := s.trains m half with hu
    set v := if half then u.raise (modPage m).1 (modPage m).2 1 else u with hv
    have humod : u.mod m = { s.mod m with up := true, speed := if (s.mod m).rate then 1 else 2, half := half } := State.mod_setMod ..
    have huv : LinkStays m u v := .ite (State.raise_linkStays ..) (.refl u)
    have hstays := huv.trans (v.frameAll_linkStays m)
    have hlink : v.frameAll.link m = (true, (if (s.mod m).rate then 1 else 2), half) := by
      rw [hstays.link.eq, State.link, humod]
    simp only [State.link, Prod.mk.injEq] at hlink
    obtain ⟨hup, hspeed, hhalf⟩ := hlink
    refine ⟨hup, hhalf, hspeed, fun hfirst hempty e he => ?_, fun hdegraded => ?_⟩
    · have hep : ∀ e < 8, u.ep e = { s.ep e with expSeq := [], evSeq := 0 } := fun e he => by
        rw [← State.freshLink_ep he, hu, State.trains, hfirst, if_neg Bool.false_ne_true]
        rfl
      have hout : ∀ e < 8, (v.ep e).outbound = { s.ep e with expSeq := [], evSeq := 0 }.outbound := fun e he => by
        rw [← hep e he]
        exact congrFun (Stays.ite (u.raise_outbounds ..) (.refl u) : Stays State.outbounds u v).eq e
      rw [State.frameAll_of_empty fun e he => ⟨(congrArg Endpoint.tx (hout e he) :).trans (hempty e he).1, (congrArg Endpoint.transit (hout e he) :).trans (hempty e he).2⟩]
      exact (congrArg Endpoint.expSeq (hout e he) :)
    · refine (v.frameAll_linkStays m).flags.stay _ _ _ ?_
      rw [hv, if_pos hdegraded]
      exact State.raise_errStatus u _ _ (by decide)
  · have hexec : exec .ucieLinkDown s = .next (s.linkDown.each (List.range 8) (fun s e => s.linkReset e)) := if_pos hup
    have hreset := State.each_touch (l := List.range 8) (fun t x h => State.linkReset_touch (Sub.refl _) t x h) (.refl _ s.linkDown)
    refine ⟨_, hexec, fun m hm => ?_, ?_, fun e he => ?_⟩
    · rw [State.mod, hreset.ucie rfl]
      exact s.linkDown_mod hm
    · rw [hreset.cmdq rfl, s.linkDown_cmdq]
    · rw [s.linkDown.each_linkReset_ep he, s.linkDown_ep he]
      exact ⟨rfl, rfl, rfl, rfl, rfl, rfl⟩
  · have harm : exec (.ucieLaneRepair m true retries) s = execUcieLaneRepair m true retries s := rfl
    rw [harm, execUcieLaneRepair]
    simp only [hup, Bool.not_true, Bool.false_eq_true, if_false, if_true]
  · have harm : exec (.ucieLaneRepair m false retries) s = execUcieLaneRepair m false retries s := rfl
    rw [harm, execUcieLaneRepair]
    simp only [hup, Bool.not_true, Bool.false_eq_true, if_false]
  · have harm : exec .i3cBootRead s = execI3cBootRead s := rfl
    rw [harm, execI3cBootRead]
    split
    · next h => exact absurd h hphase
    all_goals rfl
  · rw [exec_i3cCommand hruns hlen, State.i3cArrive_of_valid hfree hwhole hcrc hseq hknown hpart hshort]
  · exact ⟨_, exec_i3cCommand hruns hlen, State.i3cArrive_of_busy hbusy⟩
  · have harm : exec .i3cResponseRead s = execI3cResponseRead s := rfl
    rw [harm, execI3cResponseRead, hb]
    exact if_pos hruns
  · have harm : exec (.i3cDynamicAddress a) s = execI3cDynamicAddress a s := rfl
    rw [harm, execI3cDynamicAddress, if_pos hruns]
  · have harm : exec (.jtagBoundaryScan n) s = execJtagBoundaryScan n s := rfl
    rw [harm, execJtagBoundaryScan, hidle, if_neg Bool.false_ne_true]
  · have harm : exec (.jtagBoundaryScan n) s = execJtagBoundaryScan n s := rfl
    rw [harm, execJtagBoundaryScan, if_pos hbusy]
  · intro opened
    have harm : exec (.jtagDebugAccess tgt) s = execJtagDebugAccess tgt s := rfl
    rw [harm, execJtagDebugAccess]
    exact ⟨fun hclosed => if_neg fun h => hclosed (Bool.and_eq_true_iff.mp h), fun hopen => if_pos (Bool.and_eq_true_iff.mpr hopen)⟩
end

section
/-! SUPPORT. Privileged operations: the audit record that every one of them leaves, the effect of one that is authorised, and the thaw of every partition that DEBUG_ENABLE begins (spec/13 R466 to R471). -/

namespace Sys2Proof.Machine

/-! ## The audit record and the answer -/

/-- The record of an answer is written, and the answer sent. -/
def State.privAnswer (s : State) (c : GwyPkt) (st det : Nat) : State :=
  let l := c.payload
  let s1 := s.audit 1 st 15 c.epByte (sha512 (privMsg l ++ (privBlock l 0).take 24)) (blockKey (privBlock l 0)) (privArg l)
  s1.respond c st det (if st = 0 then s1.flash.auditCount.toNat else 0) 0 []
theorem State.privEnd_eq (s : State) (c : GwyPkt) (st det : Nat) :
    s.privEnd c st det = if st = 0x09 then (s.privAnswer c st det).authFail else s.privAnswer c st det := rfl
theorem State.privAnswer_touch (s : State) (c : GwyPkt) (st det : Nat) : Touch 0x860003400 s (s.privAnswer c st det) := by
  unfold State.privAnswer
  extract_lets l s1
  exact State.respond_touch ((Sub.refl _).of rfl) s1 _ _ _ _ _ _ (State.audit_touch ((Sub.refl _).of rfl) s _ _ _ _ _ _ _ (.refl _ s))
/-- The audit counter advances, and nothing of the flash but it and the record changes. -/
theorem State.audit_flash (s : State) (kind res part ep : Nat) (mHash key arg : List Byte) : (s.audit kind res part ep mHash key arg).flash
    = { s.flash with auditCount := s.flash.auditCount + 1, audit := (s.audit kind res part ep mHash key arg).flash.audit } := rfl
theorem State.privAnswer_flash (s : State) (c : GwyPkt) (st det : Nat) : (s.privAnswer c st det).flash
    = { s.flash with auditCount := s.flash.auditCount + 1, audit := (s.privAnswer c st det).flash.audit } := by
  unfold State.privAnswer
  extract_lets l s1
  have hflash : s1.flash = { s.flash with auditCount := s.flash.auditCount + 1, audit := s1.flash.audit } := State.audit_flash ..
  have hanswer : (s1.respond c st det (if st = 0 then s1.flash.auditCount.toNat else 0) 0 []).flash = s1.flash := (Answers.respond ..).flash rfl
  rw [hanswer]
  exact hflash

/-! ## The checks in common -/

section
variable {op n k : Nat} {needs : Bool} {s s1 : State} {c : GwyPkt}

/-- An operation that passes the checks in common is judged by its signature, then by its own limits. -/
theorem State.runPriv_authorised (h : Claims.Authorised op n k needs s c s1) (signed : Bool) (limits : Option (Nat × Nat)) (effect : State → State) :
    s1.runPriv c op n k needs signed limits effect = if !signed then s1.privEnd c 9 1
      else limits.elim (effect (s1.privEnd c 0 0)) (fun x => s1.privEnd c x.1 x.2) := by
  obtain ⟨htake, haccept, hact, hpending, hneeds, hserial, hcounter⟩ := h
  have htaken := Answers.takeOp htake
  have hfree : (s1.sec.fwAct.isSome || s1.rst.devPending) = false := by
    rw [htaken.sec rfl, htaken.rst rfl, hact, hpending]
    rfl
  have hpresent : (needs && !s1.presenceOk) = false := by
    rw [State.presenceOk, htaken.sec rfl, ← State.presenceOk]
    cases needs with
    | true => rw [hneeds rfl]; rfl
    | false => rfl
  have hdevice : (sliceB c.payload 8 16 != beBytes 16 s1.fuses.serial.toNat || decide (leAt c.payload 24 8 ≠ s1.flash.auditCount.toNat)) = false := by
    rw [htaken.fuses rfl, htaken.flash rfl, hserial, hcounter]
    simp
  simp only [State.runPriv, haccept, hfree, hpresent, hdevice, Bool.false_eq_true, if_false]
  cases limits with
  | none => rfl
  | some x => rfl
theorem State.runPriv_signed (h : Claims.Authorised op n k needs s c s1) {signed : Bool} (hsigned : signed = true) {limits : Option (Nat × Nat)}
    (hlimits : limits = none) (effect : State → State) : s1.runPriv c op n k needs signed limits effect = effect (s1.privAnswer c 0 0) := by
  rw [State.runPriv_authorised h, hsigned, hlimits, Bool.not_true, if_neg Bool.false_ne_true]
  rfl
theorem State.runPriv_unsigned (h : Claims.Authorised op n k needs s c s1) {signed : Bool} (hsigned : signed = false) (limits : Option (Nat × Nat))
    (effect : State → State) : s1.runPriv c op n k needs signed limits effect = (s1.privAnswer c 9 1).authFail := by
  rw [State.runPriv_authorised h, hsigned, Bool.not_false, if_pos rfl]
  rfl
/-- What an authorised operation finds when its effect begins. -/
theorem State.privAnswer_fields (h : Claims.Authorised op n k needs s c s1) (st det : Nat) :
    (s1.privAnswer c st det).flash = { s.flash with auditCount := s.flash.auditCount + 1, audit := (s1.privAnswer c st det).flash.audit }
      ∧ (s1.privAnswer c st det).fuses = s.fuses ∧ (s1.privAnswer c st det).sec = s.sec ∧ (s1.privAnswer c st det).parts = s.parts := by
  have htaken := Answers.takeOp h.1
  have htouch := s1.privAnswer_touch c st det
  rw [htouch.fuses rfl, htouch.sec rfl, htouch.parts rfl, s1.privAnswer_flash, htaken.flash rfl]
  exact ⟨rfl, htaken.fuses rfl, htaken.sec rfl, htaken.parts rfl⟩
end

/-! ## DEBUG_ENABLE thaws every partition -/

/-- A partition that is held begins its thaw. -/
def State.thawHeld (s : State) (p : Nat) : State := if (s.part p).st = .free || (s.part p).st = .thawing then s else s.beginThaw p
theorem State.thawHeld_eq : State.thawHeld = fun s p => if (s.part p).st = .free || (s.part p).st = .thawing then s else s.beginThaw p := rfl
/-- A partition is free, or its thaw has begun. -/
def State.thaws (s : State) (p : Nat) : Prop := (s.part p).st = .free ∨ (s.part p).st = .thawing
theorem State.beginThaw_part_ne (s : State) {p q : Nat} (h : q ≠ p) : (s.beginThaw p).part q = s.part q := by
  have hscrub (t : State) : (t.beginScrub p).part q = t.part q := (State.part_setPart_ne _ _ h).trans (State.part_setPart_ne _ _ h)
  have hparts := (State.returnSteer_touch (Sub.refl _) ((s.abandonOpen p).resetPart p) p).parts rfl
  rw [State.beginThaw_eq, hscrub, State.part_of_parts hparts, State.resetPart_eq, State.part_setPart_ne _ _ h, State.part_of_parts (State.resetFloes_parts ..),
    State.abandonOpen_part]
theorem State.thawHeld_self (s : State) (p : Nat) : (s.thawHeld p).thaws p := by
  rw [State.thawHeld]
  split
  · next h => simpa [State.thaws] using h
  · obtain ⟨weight, hpart⟩ := s.beginThaw_part p
    right
    rw [hpart]
theorem State.thawHeld_thaws {s : State} {p : Nat} (h : s.thaws p) (q : Nat) : (s.thawHeld q).thaws p := by
  by_cases hpq : p = q
  · rw [hpq]
    exact s.thawHeld_self q
  · have hpart : (s.thawHeld q).part p = s.part p := by
      rw [State.thawHeld]
      split
      · rfl
      · rw [s.beginThaw_part_ne hpq]
    rw [State.thaws, hpart]
    exact h
/-- What debug access is open to. -/
def State.debugMask (s : State) : BitVec 2 := s.sec.debugWhat
theorem Stays.debugMask_of_sec {s t : State} (h : t.sec = s.sec) : Stays State.debugMask s t := ⟨by rw [State.debugMask, h, State.debugMask]⟩
theorem State.beginThaw_debugMask (s : State) (p : Nat) : Stays State.debugMask s (s.beginThaw p) := by
  have hscrub (t : State) : Stays State.debugMask t (t.beginScrub p) := ⟨rfl⟩
  have habandon := Stays.debugMask_of_sec ((State.abandonOpen_touch (Sub.refl _) s p (.refl _ s)).sec rfl)
  have hreset (t : State) := Stays.debugMask_of_sec ((State.resetPart_touch (Sub.refl _) t p (.refl _ t)).sec rfl)
  have hsteer (t : State) := Stays.debugMask_of_sec ((State.returnSteer_touch (Sub.refl _) t p).sec rfl)
  rw [State.beginThaw_eq]
  exact ((habandon.trans (hreset _)).trans (hsteer _)).trans (hscrub _)
/-- Every held partition begins its thaw. -/
def State.thawAll (s : State) : State := s.each (List.range 8) State.thawHeld
theorem State.thawAll_flash (s : State) : s.thawAll.flash = s.flash := State.each_keeps (v := State.flash) (fun t p => by
  rw [State.thawHeld]
  split
  · rfl
  · exact (State.beginThaw_touch (Sub.refl _) t p (.refl _ t)).flash rfl) _ s
theorem State.thawAll_debugMask (s : State) : s.thawAll.debugMask = s.debugMask :=
  (Stays.each (fun t p => .ite (.refl t) (t.beginThaw_debugMask p)) (List.range 8) s).eq
theorem State.thawAll_thaws (s : State) {p : Nat} (hp : p < 8) : s.thawAll.thaws p := by
  rw [State.thawAll]
  exact State.each_establishes (P := State.thaws) State.thawHeld_self (fun _ _ y h => State.thawHeld_thaws h y) _ s p (List.mem_range.mpr hp)
/-- Debug access opens. -/
def State.opensDebug (s : State) (what : Nat) : State := s.setSec { s.sec with debugOn := true, debugWhat := s.sec.debugWhat ||| BitVec.ofNat 2 what }
theorem State.opensDebug_fields (s : State) (what : Nat) : (s.opensDebug what).flash = s.flash ∧ (s.opensDebug what).parts = s.parts
    ∧ (s.opensDebug what).sec.debugOn = true ∧ (s.opensDebug what).sec.debugWhat = s.debugMask ||| BitVec.ofNat 2 what := ⟨rfl, rfl, rfl, rfl⟩

/-! ## The seven operations -/

section
variable {s s1 : State} {c : GwyPkt}

theorem exec_ownerChange (h : Claims.Authorised 1 136 1 true s c s1) (hsigned : s1.ownerSigned c.payload (some (privArg c.payload)) = true)
    (hleft : s.fuses.ownerUsed < 16) (hkey : keyOk (privArg c.payload) = true) (hfree : s.allFree = true) : ∃ t, exec .ownerChange s = .next t
      ∧ t.flash = { (s1.privAnswer c 0 0).flash with owner := some (privArg c.payload), imageKeys := [], mins := [] }
      ∧ t.fuses = { (s1.privAnswer c 0 0).fuses with ownerUsed := (s1.privAnswer c 0 0).fuses.ownerUsed + 1 } := by
  have htaken := Answers.takeOp h.1
  have harm : exec .ownerChange s = execOwnerChange s := rfl
  have hused : ¬16 ≤ s1.fuses.ownerUsed := by
    rw [htaken.fuses rfl]
    omega
  have hfree1 : s1.allFree = true := by
    simp only [State.allFree, State.part_of_parts (htaken.parts rfl)]
    exact hfree
  have hlimits : (if 16 ≤ s1.fuses.ownerUsed then some (0x0A, 0) else if !keyOk (privArg c.payload) then some (0x06, 4) else if !s1.allFree then some (0x0B, 0)
      else none : Option (Nat × Nat)) = none := by
    rw [if_neg hused, hkey, hfree1]
    rfl
  rw [harm, execOwnerChange, h.1]
  simp only [State.runPriv_signed h hsigned hlimits]
  exact ⟨_, rfl, rfl, rfl⟩
theorem exec_debugEnable (h : Claims.Authorised 2 4 1 true s c s1) (hsigned : s1.ownerSigned c.payload none = true) (hlocked : s.fuses.debugLocked = false)
    (hwhat : leAt (privArg c.payload) 0 4 < 4) : exec .debugEnable s = .next ((s1.privAnswer c 0 0).thawAll.opensDebug (leAt (privArg c.payload) 0 4)) := by
  have htaken := Answers.takeOp h.1
  have harm : exec .debugEnable s = execDebugEnable s := rfl
  have hlimits : (if s1.fuses.debugLocked then some (0x0A, 0) else if 4 ≤ leAt (privArg c.payload) 0 4 then some (0x06, 4) else none : Option (Nat × Nat)) = none := by
    rw [htaken.fuses rfl, hlocked, if_neg Bool.false_ne_true, if_neg (Nat.not_le.mpr hwhat)]
  rw [harm, execDebugEnable, h.1]
  simp only [State.runPriv_signed h hsigned hlimits, State.opensDebug, State.thawAll, State.thawHeld_eq]
theorem exec_debugLock (h : Claims.Authorised 3 0 1 true s c s1) (hsigned : s1.ownerSigned c.payload none = true) (hlocked : s.fuses.debugLocked = false) :
    ∃ t, exec .debugLock s = .next t ∧ t.flash = (s1.privAnswer c 0 0).flash ∧ t.fuses = { (s1.privAnswer c 0 0).fuses with debugLocked := true } := by
  have htaken := Answers.takeOp h.1
  have harm : exec .debugLock s = execDebugLock s := rfl
  have hlimits : (if s1.fuses.debugLocked then some (0x0A, 0) else none : Option (Nat × Nat)) = none := by
    rw [htaken.fuses rfl, hlocked, if_neg Bool.false_ne_true]
  rw [harm, execDebugLock, h.1]
  simp only [State.runPriv_signed h hsigned hlimits]
  exact ⟨_, rfl, rfl, rfl⟩
theorem exec_keyRevoke_image (h : Claims.Authorised 4 4 1 true s c s1) (hsigned : s1.ownerSigned c.payload none = true)
    (hkind : leAt (privArg c.payload) 0 4 % 256 = 1) (hslot : leAt (privArg c.payload) 0 4 / 256 < 8) : ∃ t, exec .keyRevoke s = .next t
      ∧ t.flash = { (s1.privAnswer c 0 0).flash with imageKeys := (s1.privAnswer c 0 0).flash.imageKeys.del (leAt (privArg c.payload) 0 4 / 256) }
      ∧ t.fuses = (s1.privAnswer c 0 0).fuses := by
  have harm : exec .keyRevoke s = execKeyRevoke s := rfl
  rw [harm, execKeyRevoke, h.1]
  simp only [if_pos hkind, if_pos hslot, State.runPriv_signed h hsigned]
  exact ⟨_, rfl, rfl, rfl⟩
theorem exec_keyRevoke_firmware (h : Claims.Authorised 4 4 1 true s c s1) (hsigned : s1.ownerSigned c.payload none = true)
    (hkind : leAt (privArg c.payload) 0 4 % 256 = 2) (hslot : leAt (privArg c.payload) 0 4 / 256 < 4)
    (hvalid : s.fuses.fwKeyValid.getLsbD (leAt (privArg c.payload) 0 4 / 256) = true) (hmore : 1 < ones 4 s.fuses.fwKeyValid.toNat) :
    ∃ t, exec .keyRevoke s = .next t ∧ t.flash = (s1.privAnswer c 0 0).flash
      ∧ t.fuses = { (s1.privAnswer c 0 0).fuses with
        fwKeyValid := setBit (s1.privAnswer c 0 0).fuses.fwKeyValid (leAt (privArg c.payload) 0 4 / 256) false } := by
  have htaken := Answers.takeOp h.1
  have harm : exec .keyRevoke s = execKeyRevoke s := rfl
  have hkind1 : ¬leAt (privArg c.payload) 0 4 % 256 = 1 := by omega
  have hlimits : (if 4 ≤ leAt (privArg c.payload) 0 4 / 256 || !s1.fuses.fwKeyValid.getLsbD (leAt (privArg c.payload) 0 4 / 256) then some (0x06, 4)
      else if ones 4 s1.fuses.fwKeyValid.toNat ≤ 1 then some (0x0A, 0) else none : Option (Nat × Nat)) = none := by
    rw [htaken.fuses rfl, hvalid, decide_eq_false (Nat.not_le.mpr hslot), if_neg (by decide), if_neg (Nat.not_le.mpr hmore)]
  rw [harm, execKeyRevoke, h.1]
  simp only [if_neg hkind1, if_pos hkind, State.runPriv_signed h hsigned hlimits]
  exact ⟨_, rfl, rfl, rfl⟩
theorem exec_mfgMode (h : Claims.Authorised 5 0 2 true s c s1) (hsigned : s1.ownerSigned c.payload none = true) (hblock : blockKind (privBlock c.payload 1) = 4)
    (hmfg : blockSigns (privBlock c.payload 1) (privMsg c.payload) s.fuses.mfgKey = true) (hfree : s.allFree = true) :
    exec .mfgMode s = .next ((s1.privAnswer c 0 0).setSec { (s1.privAnswer c 0 0).sec with mfg := true }) := by
  have htaken := Answers.takeOp h.1
  have harm : exec .mfgMode s = execMfgMode s := rfl
  have hfree1 : s1.allFree = true := by
    simp only [State.allFree, State.part_of_parts (htaken.parts rfl)]
    exact hfree
  have hboth : (s1.ownerSigned c.payload none && blockKind (privBlock c.payload 1) == 4
      && blockSigns (privBlock c.payload 1) (privMsg c.payload) s1.fuses.mfgKey) = true := by
    rw [htaken.fuses rfl, hsigned, hblock, hmfg]
    rfl
  have hlimits : (if s1.allFree then none else some (0x0B, 0) : Option (Nat × Nat)) = none := if_pos hfree1
  rw [harm, execMfgMode, h.1]
  simp only [State.runPriv_signed h hboth hlimits]
theorem exec_imageKeyEnroll (h : Claims.Authorised 6 140 1 false s c s1) (hsigned : s1.ownerSigned c.payload none = true)
    (hslot : leAt (privArg c.payload) 0 4 < 8) (hkey : keyOk ((privArg c.payload).drop 4) = true) : exec .imageKeyEnroll s
      = .next ((s1.privAnswer c 0 0).setFlash { (s1.privAnswer c 0 0).flash with
        imageKeys := (s1.privAnswer c 0 0).flash.imageKeys.put (leAt (privArg c.payload) 0 4) ((privArg c.payload).drop 4) }) := by
  have harm : exec .imageKeyEnroll s = execImageKeyEnroll s := rfl
  have hlimits : (if leAt (privArg c.payload) 0 4 < 8 && keyOk ((privArg c.payload).drop 4) then none else some (0x06, 4) : Option (Nat × Nat)) = none :=
    if_pos (by rw [hkey, decide_eq_true hslot]; rfl)
  rw [harm, execImageKeyEnroll, h.1]
  simp only [State.runPriv_signed h hsigned hlimits]
theorem exec_imageMinVersion (h : Claims.Authorised 7 8 1 false s c s1) (hsigned : s1.ownerSigned c.payload none = true)
    (hslot : leAt (privArg c.payload) 0 4 < 8) (hmin : (Tbl.get 0 s.flash.mins (leAt (privArg c.payload) 0 4)).toNat ≤ leAt (privArg c.payload) 4 4) :
    exec .imageMinVersion s = .next ((s1.privAnswer c 0 0).setFlash { (s1.privAnswer c 0 0).flash with
      mins := (s1.privAnswer c 0 0).flash.mins.put (leAt (privArg c.payload) 0 4) (BitVec.ofNat 32 (leAt (privArg c.payload) 4 4)) }) := by
  have htaken := Answers.takeOp h.1
  have harm : exec .imageMinVersion s = execImageMinVersion s := rfl
  have hlimits : (if leAt (privArg c.payload) 0 4 < 8 && (Tbl.get 0 s1.flash.mins (leAt (privArg c.payload) 0 4)).toNat ≤ leAt (privArg c.payload) 4 4 then none
      else some (0x06, 4) : Option (Nat × Nat)) = none := if_pos (by rw [htaken.flash rfl, decide_eq_true hslot, decide_eq_true hmin]; rfl)
  rw [harm, execImageMinVersion, h.1]
  simp only [State.runPriv_signed h hsigned hlimits]
/-- An operation that the owner has not signed is answered and recorded, whichever it is. -/
theorem exec_unsigned {op n k : Nat} {needs : Bool} {i : Instr} (hi : (op, n, k, needs, i) ∈ [(1, 136, 1, true, Instr.ownerChange), (2, 4, 1, true, .debugEnable),
      (3, 0, 1, true, .debugLock), (4, 4, 1, true, .keyRevoke), (5, 0, 2, true, .mfgMode), (6, 140, 1, false, .imageKeyEnroll), (7, 8, 1, false, .imageMinVersion)])
    (h : Claims.Authorised op n k needs s c s1) (hsigned : s1.ownerSigned c.payload (if op = 1 then some (privArg c.payload) else none) = false) :
    exec i s = .next (s1.privAnswer c 9 1).authFail := by
  simp only [List.mem_cons, Prod.mk.injEq, List.not_mem_nil, or_false] at hi
  obtain ⟨rfl, rfl, rfl, rfl, rfl⟩ | ⟨rfl, rfl, rfl, rfl, rfl⟩ | ⟨rfl, rfl, rfl, rfl, rfl⟩ | ⟨rfl, rfl, rfl, rfl, rfl⟩ | ⟨rfl, rfl, rfl, rfl, rfl⟩
    | ⟨rfl, rfl, rfl, rfl, rfl⟩ | ⟨rfl, rfl, rfl, rfl, rfl⟩ := hi
  · show execOwnerChange s = _
    rw [execOwnerChange, h.1]
    simp only [State.runPriv_unsigned h (show s1.ownerSigned c.payload (some (privArg c.payload)) = false from hsigned)]
  · show execDebugEnable s = _
    rw [execDebugEnable, h.1]
    simp only [State.runPriv_unsigned h (show s1.ownerSigned c.payload none = false from hsigned)]
  · show execDebugLock s = _
    rw [execDebugLock, h.1]
    simp only [State.runPriv_unsigned h (show s1.ownerSigned c.payload none = false from hsigned)]
  · show execKeyRevoke s = _
    rw [execKeyRevoke, h.1]
    simp only [State.runPriv_unsigned h (show s1.ownerSigned c.payload none = false from hsigned)]
  · have hboth : (s1.ownerSigned c.payload none && blockKind (privBlock c.payload 1) == 4
        && blockSigns (privBlock c.payload 1) (privMsg c.payload) s1.fuses.mfgKey) = false := by
      rw [show s1.ownerSigned c.payload none = false from hsigned]
      rfl
    show execMfgMode s = _
    rw [execMfgMode, h.1]
    simp only [State.runPriv_unsigned h hboth]
  · show execImageKeyEnroll s = _
    rw [execImageKeyEnroll, h.1]
    simp only [State.runPriv_unsigned h (show s1.ownerSigned c.payload none = false from hsigned)]
  · show execImageMinVersion s = _
    rw [execImageMinVersion, h.1]
    simp only [State.runPriv_unsigned h (show s1.ownerSigned c.payload none = false from hsigned)]
end

end Sys2Proof.Machine

open Sys2Proof Sys2Proof.Machine

/-- Settles O49: an operation that passes the checks in common has its record and answer first and then its effect, or, unsigned, its record and the flag. That the fields of an argument are little-endian is log 39's reading, and that an unsigned operation is answered AUTH_FAIL whatever other limit it breaks log 43's. -/
theorem privilegedOperationsAreAuthorised : Obligations.PrivilegedOperationsAreAuthorised := by
  unfold Obligations.PrivilegedOperationsAreAuthorised
  refine ⟨fun s s1 c => ?_, fun s s1 c op n k needs i hi h hsigned => ⟨_, exec_unsigned hi h hsigned, ?_⟩⟩
  · intro l arg n
    refine ⟨fun h hsigned hleft hkey hfree => ?_, fun h hsigned hlocked hwhat => ⟨_, exec_debugEnable h hsigned hlocked hwhat, ?_⟩, fun h hsigned hlocked => ?_,
      fun h hsigned => ⟨fun hkind hslot => ?_, fun hkind hslot hvalid hmore => ?_⟩, fun h hsigned hblock hmfg hfree => ⟨_, exec_mfgMode h hsigned hblock hmfg hfree, ?_⟩,
      fun h hsigned hslot hkey => ⟨_, exec_imageKeyEnroll h hsigned hslot hkey, ?_⟩, fun h hsigned hslot hmin => ⟨_, exec_imageMinVersion h hsigned hslot hmin, ?_⟩⟩
    all_goals obtain ⟨hflash, hfuses, hsec, hparts⟩ := State.privAnswer_fields h 0 0
    · obtain ⟨t, ht, htflash, htfuses⟩ := exec_ownerChange h hsigned hleft hkey hfree
      rw [hflash] at htflash
      rw [hfuses] at htfuses
      refine ⟨t, ht, ?_⟩
      rw [htflash]
      exact ⟨rfl, rfl, rfl, rfl, htfuses⟩
    · obtain ⟨hopen, hthawed, hon, hmask⟩ := (s1.privAnswer c 0 0).thawAll.opensDebug_fields (leAt arg 0 4)
      rw [hopen, State.thawAll_flash, hflash, hon, hmask, State.thawAll_debugMask, State.debugMask, hsec]
      refine ⟨rfl, rfl, rfl, fun p hp => ?_⟩
      rw [State.part_of_parts hthawed]
      exact State.thawAll_thaws _ hp
    · obtain ⟨t, ht, htflash, htfuses⟩ := exec_debugLock h hsigned hlocked
      rw [hfuses] at htfuses
      exact ⟨t, ht, by rw [htflash, hflash], htfuses⟩
    · obtain ⟨t, ht, htflash, htfuses⟩ := exec_keyRevoke_image h hsigned hkind hslot
      rw [hflash] at htflash
      refine ⟨t, ht, ?_⟩
      rw [htflash]
      exact ⟨rfl, rfl, htfuses.trans hfuses⟩
    · obtain ⟨t, ht, htflash, htfuses⟩ := exec_keyRevoke_firmware h hsigned hkind hslot hvalid hmore
      rw [hfuses] at htfuses
      exact ⟨t, ht, by rw [htflash, hflash], htfuses⟩
    · refine ⟨(congrArg Flash.auditCount hflash :), ?_⟩
      rw [hsec]
      rfl
    · rw [hflash]
      exact ⟨rfl, rfl⟩
    · rw [hflash]
      exact ⟨rfl, rfl⟩
  · obtain ⟨hflash, hfuses, hsec, hparts⟩ := State.privAnswer_fields h 9 1
    have hflag := State.authFail_touch (Sub.refl _) (s1.privAnswer c 9 1) (.refl _ _)
    have hlead : (s1.privAnswer c 9 1).lead = s.lead := by
      rw [State.lead, (s1.privAnswer_touch c 9 1).straps rfl, (Answers.takeOp h.1).straps rfl, State.lead]
    rw [hflag.fuses rfl, hflag.sec rfl, hflag.parts rfl, hflag.flash rfl, ← hlead]
    exact ⟨hfuses, hsec, hparts, hflash, State.raise_errStatus _ _ _ (by decide)⟩
end

section
/-! SUPPORT. Firmware: a package's checks read only the fuses, the active slot changes once they pass, and the holds and the end of an activation change only its own record beside the floe and the pages (spec/13 R461 to R463, spec/14 R476 to R479). -/

namespace Sys2Proof.Machine

section
variable {s s1 : State} {c : GwyPkt}

/-! ## FW_STAGE and FW_STATUS -/

theorem exec_fwStage (h : Claims.RunsOp 0x30 (fun c => bitsOf c.arg0.toNat 8 24 == 0 && isComp (bitsOf c.arg0.toNat 0 8)) s c s1)
    (hidle : ∀ a, s.sec.fwAct = some a → a.comp ≠ bitsOf c.arg0.toNat 0 8) (hsome : 0 < c.arg1.toNat)
    (hinside : bitsOf c.arg0.toNat 32 32 + c.payload.length ≤ c.arg1.toNat) {x : Comp} (hx : x = s.comp (bitsOf c.arg0.toNat 0 8)) {y : Slot}
    (hy : y = if x.staged.total = c.arg1.toNat ∧ x.staged.used = false then x.staged else { total := c.arg1.toNat }) : exec .fwStage s
      = .next ((s1.setComp (bitsOf c.arg0.toNat 0 8) (x.setStaged { y with chunks := stageChunk y.chunks (bitsOf c.arg0.toNat 32 32) c.payload })).respond c 0 0 0 0 []) := by
  obtain ⟨htake, haccept⟩ := h
  have htaken := Answers.takeOp htake
  have harm : exec .fwStage s = execFwStage s := rfl
  have hother : (s1.sec.fwAct.any fun a => a.comp == bitsOf c.arg0.toNat 0 8) = false := by
    rw [htaken.sec rfl]
    cases hact : s.sec.fwAct with
    | none => rfl
    | some a => rw [Option.any_some, beq_eq_false_iff_ne.mpr (hidle a hact)]
  have hwithin : (decide (c.arg1.toNat = 0) || decide (c.arg1.toNat < bitsOf c.arg0.toNat 32 32 + c.payload.length)) = false := by
    rw [Bool.or_eq_false_iff, decide_eq_false_iff_not, decide_eq_false_iff_not]
    omega
  have hcomp : s1.comp (bitsOf c.arg0.toNat 0 8) = x := by rw [hx, State.comp, htaken.flash rfl, State.comp]
  have hslot : (if decide (x.staged.total = c.arg1.toNat) && !x.staged.used then x.staged else { total := c.arg1.toNat } : Slot) = y := by
    rw [hy]
    simp only [Bool.and_eq_true, decide_eq_true_eq, Bool.not_eq_true']
  rw [harm, execFwStage, htake]
  simp only [haccept, hother, hwithin, Bool.false_eq_true, if_false, hcomp, hslot]
theorem exec_fwStatus (h : Claims.RunsOp 0x32 Claims.bare s c s1) :
    exec .fwStatus s = .next (s1.respond c 0 0 0 0 ([1, 2, 3, 4, 5, 6].flatMap (fun k => s1.fwRecord k))) := by
  obtain ⟨htake, haccept⟩ := h
  have harm : exec .fwStatus s = execFwStatus s := rfl
  rw [Claims.bare] at haccept
  rw [harm, execFwStatus, htake]
  simp only [haccept]

/-! ## FW_ACTIVATE -/

/-- The checks of a package read nothing of the state but the fuses. -/
theorem State.fwCheck_of_fuses {s t : State} (h : t.fuses = s.fuses) (comp : Nat) (x : Slot) : t.fwCheck comp x = s.fwCheck comp x := by
  have hsigned : t.fwSigned = s.fwSigned := by
    funext l
    rw [State.fwSigned, h, State.fwSigned]
  unfold State.fwCheck
  rw [hsigned, h]
/-- The packages, the fuses and what the security controller holds. -/
def State.packages (s : State) : Tbl Comp × Fuses × Sec := (s.flash.comps, s.fuses, s.sec)
theorem Touch.packages {m : Nat} {s t : State} (h : Touch m s t) (hsec : m.testBit 27 = false) (hfuses : m.testBit 28 = false) (hflash : m.testBit 29 = false) :
    Stays State.packages s t := ⟨by rw [State.packages, h.sec hsec, h.fuses hfuses, h.flash hflash, State.packages]⟩
theorem State.audit_packages (s : State) (kind res part ep : Nat) (mHash key arg : List Byte) : Stays State.packages s (s.audit kind res part ep mHash key arg) :=
  ⟨rfl⟩
/-- An activation that fails its checks leaves its records, a flag and its event. -/
def State.fwFails (s : State) (c : GwyPkt) (comp res det : Nat) (x : Slot) : State :=
  let b := x.bytes.drop (x.bytes.length - 256)
  let dig := if res = 0x06 then [] else blockDigest b
  let key := if res = 0x06 then [] else blockKey b
  let s3 := s.audit 2 res 15 c.epByte dig key []
  let s4 := if res = 0x09 && det = 2 then s3.audit 4 res 15 c.epByte dig key [] else s3
  let s5 := if res = 0x09 then s4.authFail else s4
  (s5.fwEvent comp res (s5.comp comp).active.version.toNat).attestReady
theorem State.fwFails_packages (s : State) (c : GwyPkt) (comp res det : Nat) (x : Slot) : Stays State.packages s (s.fwFails c comp res det x) := by
  unfold State.fwFails
  extract_lets b dig key s3 s4 s5
  have h3 : Stays State.packages s s3 := State.audit_packages ..
  clear_value s3
  have h4 : Stays State.packages s s4 := .ite (h3.trans (State.audit_packages ..)) h3
  clear_value s4
  have h5 : Stays State.packages s s5 := .ite (h4.trans ((State.authFail_touch (Sub.refl _) s4 (.refl _ s4)).packages rfl rfl rfl)) h4
  clear_value s5
  exact (h5.trans ((State.fwEvent_touch (Sub.refl _) s5 comp res _ (.refl _ s5)).packages rfl rfl rfl)).trans
    ((State.attestReady_touch (Sub.refl _) _ (.refl _ _)).packages rfl rfl rfl)
/-- The component with its staged package active. -/
def Comp.switched (x : Comp) : Comp :=
  let l := x.staged.bytes
  let y : Slot := { x.staged with version := BitVec.ofNat 32 (leAt l 8 4), secver := leAt l 12 4, body := sliceB l 64 (leAt l 16 4), used := true }
  if x.activeB then { x with activeB := false, a := y } else { x with activeB := true, b := y }
theorem Comp.switched_active (x : Comp) : x.switched.activeB = (!x.activeB) ∧ x.switched.active.secver = leAt x.staged.bytes 12 4
    ∧ x.switched.active.body = sliceB x.staged.bytes 64 (leAt x.staged.bytes 16 4) := by
  unfold Comp.switched
  extract_lets l y
  split
  · next h => exact ⟨by rw [h]; rfl, rfl, rfl⟩
  · next h => exact ⟨by rw [Bool.eq_false_iff.mpr h]; rfl, rfl, rfl⟩
/-- The staged package is active, its counter is raised and its application begins with some floes. -/
def State.fwSwitch (s : State) (comp : Nat) (todo released : List Nat) : State :=
  let s1 := s.setComp comp (s.comp comp).switched
  let s2 := { s1 with fuses := { s1.fuses with rollback := s1.fuses.rollback.put comp (max (leAt (s.comp comp).staged.bytes 12 4) (Tbl.get 0 s1.fuses.rollback comp)) } }
  s2.setSec { s2.sec with fwAct := some { comp := comp, todo := todo, released := released } }
theorem State.fwSwitch_fields (s : State) (comp : Nat) (todo released : List Nat) : (s.fwSwitch comp todo released).comp comp = (s.comp comp).switched
    ∧ Tbl.get 0 (s.fwSwitch comp todo released).fuses.rollback comp = max (leAt (s.comp comp).staged.bytes 12 4) (Tbl.get 0 s.fuses.rollback comp)
    ∧ (s.fwSwitch comp todo released).sec.fwAct = some { comp := comp, todo := todo, released := released } :=
  ⟨Tbl.get_put_same _ _ _ _, Tbl.get_put_same _ _ _ _, rfl⟩
/-- Once the package is active, only pages, floes and what steps send change. -/
theorem State.fwBegin_touch_fwSwitch (s : State) (comp : Nat) : ∃ todo released, (comp ≠ 3 → todo = []) ∧ Touch 0x1441C1404 (s.fwSwitch comp todo released) (s.fwBegin comp) := by
  unfold State.fwBegin
  extract_lets x l v slot y z s1 fuses s2 todo later sec s3 wait
  have hs3 : s3 = s.fwSwitch comp todo later := rfl
  refine ⟨todo, later, fun hne => if_neg hne, ?_⟩
  rw [← hs3]
  clear_value s3
  refine State.liveStep_touch ((Sub.refl _).of rfl) _ (State.each_touch (fun t f h => State.holdFloe_touch ((Sub.refl _).of rfl) t f h) ?_)
  exact State.each_touch (fun t g h => State.setLive_touch ((Sub.refl _).of rfl) t g true false h) (.refl _ s3)
section
variable (h : Claims.RunsOp 0x31 (fun c => isComp c.arg0.toNat && c.arg1 == 0 && c.payload.isEmpty) s c s1)
include h

theorem exec_fwActivate_good (hact : s.sec.fwAct = none) (hpending : s.rst.devPending = false)
    (hcheck : s.fwCheck c.arg0.toNat (s.comp c.arg0.toNat).staged = none) :
    ∃ dig key, exec .fwActivate s = .next (((s1.respond c 0x01 0 0 0 []).audit 2 0 15 c.epByte dig key []).fwBegin c.arg0.toNat) := by
  obtain ⟨htake, haccept⟩ := h
  have htaken := Answers.takeOp htake
  have harm : exec .fwActivate s = execFwActivate s := rfl
  have hfree : (s1.sec.fwAct.isSome || s1.rst.devPending) = false := by
    rw [htaken.sec rfl, htaken.rst rfl, hact, hpending]
    rfl
  have hcomp : s1.comp c.arg0.toNat = s.comp c.arg0.toNat := by rw [State.comp, htaken.flash rfl, State.comp]
  have hfuses : (s1.respond c 0x01 0 0 0 []).fuses = s.fuses := ((Answers.respond s1 c 0x01 0 0 0 []).fuses rfl).trans (htaken.fuses rfl)
  rw [harm, execFwActivate, htake]
  simp only [haccept, hfree, hcomp, State.fwCheck_of_fuses hfuses, hcheck, Bool.false_eq_true, if_false]
  exact ⟨_, _, rfl⟩
/-- A package that fails its checks leaves its records and events, and no package, fuse or activation. -/
theorem exec_fwActivate_bad (hact : s.sec.fwAct = none) (hpending : s.rst.devPending = false) {res det : Nat}
    (hcheck : s.fwCheck c.arg0.toNat (s.comp c.arg0.toNat).staged = some (res, det)) :
    ∃ t, exec .fwActivate s = .next t ∧ t.flash.comps = s.flash.comps ∧ t.fuses = s.fuses ∧ t.sec.fwAct = none := by
  obtain ⟨htake, haccept⟩ := h
  have htaken := Answers.takeOp htake
  have harm : exec .fwActivate s = execFwActivate s := rfl
  have hfree : (s1.sec.fwAct.isSome || s1.rst.devPending) = false := by
    rw [htaken.sec rfl, htaken.rst rfl, hact, hpending]
    rfl
  have hcomp : s1.comp c.arg0.toNat = s.comp c.arg0.toNat := by rw [State.comp, htaken.flash rfl, State.comp]
  have hfuses : (s1.respond c 0x01 0 0 0 []).fuses = s.fuses := ((Answers.respond s1 c 0x01 0 0 0 []).fuses rfl).trans (htaken.fuses rfl)
  have hkeeps : Stays State.packages s (s1.respond c 0x01 0 0 0 []) := (htaken.packages rfl rfl rfl).trans ((Answers.respond s1 c 0x01 0 0 0 []).packages rfl rfl rfl)
  have hexec : execFwActivate s = .next ((s1.respond c 0x01 0 0 0 []).fwFails c c.arg0.toNat res det (s.comp c.arg0.toNat).staged) := by
    rw [execFwActivate, htake]
    simp only [haccept, hfree, hcomp, State.fwCheck_of_fuses hfuses, hcheck, Bool.false_eq_true, if_false, State.fwFails]
  have hend := (hkeeps.trans ((s1.respond c 0x01 0 0 0 []).fwFails_packages c c.arg0.toNat res det (s.comp c.arg0.toNat).staged)).eq
  simp only [State.packages, Prod.mk.injEq] at hend
  obtain ⟨hcomps, hfuses, hsec⟩ := hend
  exact ⟨_, harm.trans hexec, hcomps, hfuses, (congrArg Sec.fwAct hsec).trans hact⟩
end
end

/-! ## The end of an activation and its holds -/

/-- The blocks that were still to change go on, and the event is sent. -/
def State.fwEnds (s : State) (comp : Nat) : State :=
  let s2 := s.each ((s.fwPages comp).filter (fun g => (s.hdr g.1 g.2).livePending || (s.hdr g.1 g.2).liveActive)) (fun s g => s.endLive g)
  let s3 := if comp = 1 then s2.setFlash { s2.flash with aliasOwner := s2.fuses.ownerUsed } else s2
  let s4 := if s3.straps.boot = 2 && s3.rst.phase = .cold then s3.setRst { s3.rst with recovered := comp :: s3.rst.recovered } else s3
  (s4.fwEvent comp 0 (s4.comp comp).active.version.toNat).attestReady
theorem State.fwEnds_sec (s : State) (comp : Nat) : (s.fwEnds comp).sec = s.sec := by
  unfold State.fwEnds
  extract_lets s2 flash s3 rst s4
  have h2 : s2.sec = s.sec := (State.each_touch (fun t g h => State.endLive_touch (Sub.refl _) t g h) (.refl _ s)).sec rfl
  clear_value s2
  have h3 : s3.sec = s.sec := (apply_ite State.sec ..).trans ((ite_self _).trans h2)
  clear_value s3
  have h4 : s4.sec = s.sec := (apply_ite State.sec ..).trans ((ite_self _).trans h3)
  clear_value s4
  rw [(State.attestReady_touch (Sub.refl _) _ (.refl _ _)).sec rfl, (State.fwEvent_touch (Sub.refl _) s4 comp 0 _ (.refl _ s4)).sec rfl, h4]
section
variable {s : State} {a : FwAct} (h : s.sec.fwAct = some a)
include h

theorem exec_fwActivated (hdone : a.todo = []) : ∃ t, exec .fwActivated s = .next t ∧ t.sec = { s.sec with fwAct := none, epoch := s.sec.epoch + 1 } := by
  have harm : exec .fwActivated s = execFwActivated s := rfl
  have hexec : execFwActivated s = .next (((s.setSec { s.sec with fwAct := none }).newEpoch).fwEnds a.comp) := by
    rw [execFwActivated]
    simp only [h, hdone, List.isEmpty_nil, Bool.not_true, Bool.false_eq_true, if_false, State.fwEnds]
  exact ⟨_, harm.trans hexec, State.fwEnds_sec ..⟩
theorem exec_fwQuietPoint {f : Nat} (hf : f ∈ a.todo) (hheld : f ∉ a.released) (hquiet : s.quiet f = true) : ∃ t, exec (.fwQuietPoint f) s = .next t
    ∧ t.sec.fwAct = some { a with todo := a.todo.filter (fun g => g != f) } ∧ t.floe f = { s.floe f with held := s.calveHolds f } := by
  have harm : exec (.fwQuietPoint f) s = execFwQuietPoint f s := rfl
  rw [harm, execFwQuietPoint]
  simp only [h, List.contains_iff_mem.mpr hf, Bool.eq_false_iff.mpr (mt List.contains_iff_mem.mp hheld), hquiet, Bool.not_false, Bool.and_self, if_true]
  exact ⟨_, rfl, rfl, State.floe_setFloe ..⟩
theorem exec_fwHoldTimeout {f : Nat} (hf : f ∈ a.todo) (hheld : f ∉ a.released) : ∃ t, exec (.fwHoldTimeout f) s = .next t
    ∧ t.sec.fwAct = some { a with released := f :: a.released } ∧ t.floe f = { s.floe f with held := s.calveHolds f } := by
  have harm : exec (.fwHoldTimeout f) s = execFwHoldTimeout f s := rfl
  rw [harm, execFwHoldTimeout]
  simp only [h, List.contains_iff_mem.mpr hf, Bool.eq_false_iff.mpr (mt List.contains_iff_mem.mp hheld), Bool.not_false, Bool.and_self, if_true]
  exact ⟨_, rfl, rfl, State.floe_setFloe ..⟩
theorem exec_fwRehold {f : Nat} (hf : f ∈ a.todo) (hfree : f ∈ a.released) (hcalving : s.calveHolds f = false) : ∃ t, exec (.fwRehold f) s = .next t
    ∧ t.sec.fwAct = some { a with released := a.released.filter (fun g => g != f) } ∧ (t.floe f).held = true := by
  have harm : exec (.fwRehold f) s = execFwRehold f s := rfl
  rw [harm, execFwRehold]
  simp only [h, List.contains_iff_mem.mpr hf, List.contains_iff_mem.mpr hfree, hcalving, Bool.not_false, Bool.and_self, if_true]
  refine ⟨_, rfl, ?_, congrArg Floe.held (State.holdFloe_floe ..)⟩
  rw [(State.holdFloe_touch (Sub.refl _) _ f (.refl _ _)).sec rfl]
  rfl
end

end Sys2Proof.Machine

open Sys2Proof Sys2Proof.Machine

/-- Settles O50: each command or event has one result, and the packages, the counter and the holds are read off it. That a package's header is little-endian is log 39's reading, and that a live update of another component than CONTROL waits for no floe log 99's. -/
theorem firmwareIsStagedAndActivated : Obligations.FirmwareIsStagedAndActivated := by
  unfold Obligations.FirmwareIsStagedAndActivated
  refine ⟨fun s s1 c h => ?_, fun s s1 c h hact hpending => ?_, fun s a h => ⟨fun hdone => ?_, fun f hf => ⟨exec_fwQuietPoint h hf, exec_fwHoldTimeout h hf,
    exec_fwRehold h hf⟩⟩, fun s s1 c h => exec_fwStatus h⟩
  · intro comp off n x y hidle hsome hinside
    exact exec_fwStage h hidle hsome hinside rfl rfl
  · intro comp x v
    refine ⟨fun hcheck => ?_, fun res det hcheck => exec_fwActivate_bad h hact hpending hcheck⟩
    have htaken := Answers.takeOp h.1
    obtain ⟨dig, key, hexec⟩ := exec_fwActivate_good h hact hpending hcheck
    set u := (s1.respond c 0x01 0 0 0 []).audit 2 0 15 c.epByte dig key [] with hu
    have hkeeps : Stays State.packages s u := ((htaken.packages rfl rfl rfl).trans ((Answers.respond s1 c 0x01 0 0 0 []).packages rfl rfl rfl)).trans
      (State.audit_packages ..)
    clear_value u
    have hsame := hkeeps.eq
    simp only [State.packages, Prod.mk.injEq] at hsame
    obtain ⟨hcomps, hfuses, -⟩ := hsame
    have hx : u.comp comp = x := by rw [State.comp, hcomps]; rfl
    obtain ⟨todo, released, hnone, htouch⟩ := u.fwBegin_touch_fwSwitch comp
    obtain ⟨hcomp, hroll, hbegun⟩ := u.fwSwitch_fields comp todo released
    obtain ⟨hactive, hsecver, hbody⟩ := x.switched_active
    rw [hx] at hcomp hroll
    rw [hfuses] at hroll
    have hend : (u.fwBegin comp).comp comp = x.switched := by rw [← hcomp, State.comp, htouch.flash rfl, State.comp]
    refine ⟨_, hexec, ?_⟩
    rw [hend, htouch.fuses rfl, htouch.sec rfl]
    exact ⟨hactive, hsecver, hbody, hroll, _, hbegun, rfl, hnone⟩
  · obtain ⟨t, ht, hsec⟩ := exec_fwActivated h hdone
    exact ⟨t, ht, congrArg Sec.fwAct hsec, congrArg Sec.epoch hsec⟩
end

section
/-! SUPPORT. Spares, swaps and recalibrations: what the move by an average leaves of the lasers, and what the next turn leaves of a chiplet (spec/11 R375 to R379, R385, R392). -/

namespace Sys2Proof.Machine

/-! ## A READY spare stays READY above -2.0 dB -/

/-- A wavelength for which a spare is READY has none tuned beside it. -/
theorem Chip.tune_of_ready {x : Chip} {w : Nat} (h : (x.spare w 3).isSome = true) : x.tune w = x := by
  rw [Chip.tune, h, Bool.or_true, if_pos rfl]
theorem Chip.setWl_laser (x : Chip) (w st l : Nat) : (x.setWl w st).laser l = x.laser l := rfl
section
variable {s : State} {c w : Nat} {d : Int}

theorem State.moveWl_laser_prepared (hwl : (s.chip c).wl w = 2) (hd : -200 < d) (crossed : Bool) (l : Nat) :
    ((s.moveWl c w d crossed).chip c).laser l = (s.chip c).laser l := by
  rw [State.moveWl_prepared hwl hd]
  split
  · split
    · rw [State.chip_setChip, Chip.setWl_laser, State.wlTo_chip, Chip.setWl_laser]
    · rw [State.wlTo_chip, Chip.setWl_laser]
  · rfl
theorem State.moveWl_laser_warn (hwl : (s.chip c).wl w = 1) (hd : -200 < d) (hready : ((s.chip c).spare w 3).isSome = true) (crossed : Bool) (l : Nat) :
    ((s.moveWl c w d crossed).chip c).laser l = (s.chip c).laser l := by
  by_cases hprep : d ≤ -150
  · have hchip : ((s.setChip c ((s.chip c).tune w)).wlTo c w 2).chip c = (s.chip c).setWl w 2 := by
      rw [State.wlTo_chip, State.chip_setChip, Chip.tune_of_ready hready]
    rw [State.moveWl_warn_prepares hwl hprep, State.moveWl_laser_prepared (by rw [hchip, Chip.setWl_wl_same]) hd, hchip, Chip.setWl_laser]
  · rw [State.moveWl_warn hwl (Int.not_le.mp hprep)]
    split
    · rw [State.chip_setChip, Chip.setWl_laser]
    · rfl
/-- Above -2.0 dB a wavelength for which a spare is READY moves without a laser's changing. -/
theorem State.moveWl_laser (hd : -200 < d) (hready : ((s.chip c).spare w 3).isSome = true) (crossed : Bool) (l : Nat) :
    ((s.moveWl c w d crossed).chip c).laser l = (s.chip c).laser l := by
  obtain hwl | hwl | hwl | hwl : (s.chip c).wl w = 0 ∨ (s.chip c).wl w = 1 ∨ (s.chip c).wl w = 2 ∨ 3 ≤ (s.chip c).wl w := by omega
  · by_cases hwarn : d ≤ -100
    · have hchip : (s.wlTo c w 1).chip c = (s.chip c).setWl w 1 := State.wlTo_chip ..
      rw [State.moveWl_normal_warns hwl hwarn, State.moveWl_laser_warn (by rw [hchip, Chip.setWl_wl_same]) hd (by rw [hchip]; exact hready), hchip,
        Chip.setWl_laser]
    · rw [State.moveWl_normal hwl (Int.not_le.mp hwarn)]
  · exact State.moveWl_laser_warn hwl hd hready crossed l
  · exact State.moveWl_laser_prepared hwl hd crossed l
  · have hnone : s.moveWl c w d crossed = s := by
      simp [State.moveWl, show (s.chip c).wl w ≠ 0 by omega, show (s.chip c).wl w ≠ 1 by omega, show (s.chip c).wl w ≠ 2 by omega]
    rw [hnone]
end

/-! ## Lasers that feed nothing are retired -/

theorem Chip.foldl_setLaser_mem {st l : Nat} {ls : List Nat} (h : l ∈ ls) (x : Chip) : (ls.foldl (fun x l => x.setLaser l st) x).laser l = st := by
  induction ls generalizing x with
  | nil => exact absurd h List.not_mem_nil
  | cons k ls ih =>
    rw [List.foldl_cons]
    by_cases hl : l ∈ ls
    · exact ih hl _
    · obtain rfl : l = k := (List.mem_cons.mp h).resolve_right hl
      rw [Chip.foldl_setLaser_laser hl, Chip.setLaser_laser, if_pos rfl]
theorem Chip.retireIdle_laser {x : Chip} {l : Nat} (hl : l < 12) (hactive : x.laser l = 0) (hidle : ∀ v < 8, x.feeds v ≠ l) : x.retireIdle.laser l = 4 := by
  refine Chip.foldl_setLaser_mem (List.mem_filter.mpr ⟨List.mem_range.mpr hl, ?_⟩) x
  have hnone : ((List.range 8).any fun w => x.feeds w == l) = false :=
    List.any_eq_false.mpr fun v hv => by simpa using hidle v (List.mem_range.mp hv)
  rw [hactive, hnone]
  rfl
/-- All of a chiplet but its lasers. -/
def Chip.rest (x : Chip) : Chip := { x with laserState := [] }
theorem Chip.retireIdle_rest (x : Chip) : x.retireIdle.rest = x.rest := by
  have hall : ∀ (ls : List Nat) (y : Chip), (ls.foldl (fun x l => x.setLaser l 4) y).rest = y.rest := fun ls => by
    induction ls with
    | nil => exact fun y => rfl
    | cons l r ih => exact fun y => ih (y.setLaser l 4)
  exact hall _ x

theorem Chip.retireIdle_fields (x : Chip) : x.retireIdle.swaps = x.swaps ∧ x.retireIdle.waiting = x.waiting ∧ x.retireIdle.busy = x.busy
    ∧ x.retireIdle.wlLaser = x.wlLaser :=
  ⟨(congrArg Chip.swaps x.retireIdle_rest :), (congrArg Chip.waiting x.retireIdle_rest :), (congrArg Chip.busy x.retireIdle_rest :),
    (congrArg Chip.wlLaser x.retireIdle_rest :)⟩

/-! ## The next turn -/

/-- What a chiplet counts, and its faulted rings. -/
def Chip.counts (x : Chip) : DWord × DWord × DWord × DWord := (x.swaps, x.recals, x.slotFault, x.rxFault)
theorem Chip.beginWl_counts (x : Chip) (w : Nat) (swap : Bool) : (x.beginWl w swap).counts = x.counts := by
  rw [Chip.beginWl]
  split
  · split
    · rfl
    · rfl
  · rfl
theorem State.nextWl_counts (s : State) (c : Nat) : ((s.nextWl c).chip c).counts = (s.chip c).counts := by
  obtain ⟨q, a, b, hsame | ⟨e, -, hbegun⟩⟩ := s.nextWl_chip_cases c
  · rw [hsame]
    rfl
  · rw [hbegun, Chip.beginWl_counts]
    rfl
/-- A laser that is not READY is not taken by the next turn. -/
theorem Chip.beginWl_laser {x : Chip} {l : Nat} (h : x.laser l ≠ 3) (w : Nat) (swap : Bool) : (x.beginWl w swap).laser l = x.laser l := by
  cases hspare : x.spare w 3 with
  | none =>
    rw [Chip.beginWl, hspare]
    rfl
  | some k =>
    have hne : l ≠ k := fun hk => h (hk ▸ Chip.laser_of_spare hspare)
    rw [Chip.beginWl, hspare]
    cases swap with
    | false => rfl
    | true => exact (Chip.feedFrom_laser _ w k l).trans (if_neg hne)
theorem State.nextWl_laser {s : State} {c l : Nat} (h : (s.chip c).laser l ≠ 3) : ((s.nextWl c).chip c).laser l = (s.chip c).laser l := by
  obtain ⟨q, a, b, hsame | ⟨e, -, hbegun⟩⟩ := s.nextWl_chip_cases c
  · rw [hsame]
    rfl
  · rw [hbegun]
    exact Chip.beginWl_laser (x := { s.chip c with waiting := q, swapReq := a, recalReq := b }) h e.1 e.2
/-- With nothing waiting the next turn changes nothing. -/
theorem State.nextWl_chip_of_none {s : State} {c : Nat} (h : (s.chip c).waiting = []) : (s.nextWl c).chip c = s.chip c := by
  rw [State.nextWl]
  split
  · rfl
  · simp only [h, List.takeWhile_nil, List.length_nil, List.drop_nil, List.any_nil, Bool.false_eq_true, if_false, State.chip_setChip]
    rw [← h]

/-! ## The requests -/

theorem Chip.beginWl_recal (x : Chip) (w : Nat) : x.beginWl w false = { x.setWl w 4 with busy := some (w, false) } := by
  rw [Chip.beginWl]
  split
  · rfl
  · rfl
theorem Chip.beginWl_swapReq (x : Chip) (w : Nat) (swap : Bool) : (x.beginWl w swap).swapReq = x.swapReq := by
  rw [Chip.beginWl]
  split
  · split
    · rfl
    · rfl
  · rfl
section
variable {s : State} {c w : Nat}

theorem exec_optLaserCmdSwap (hc : c < 4) (hw : w < 8) : exec (.optLaserCmdSwap c w) s = .next (s.requestSwap c w) := by
  have harm : exec (.optLaserCmdSwap c w) s = execOptLaserCmdSwap c w s := rfl
  rw [harm, execOptLaserCmdSwap, if_pos (by simp [hc, hw])]
theorem exec_optLaserCmdRecal (hc : c < 4) (hw : w < 8) : exec (.optLaserCmdRecal c w) s = .next (s.requestRecal c w) := by
  have harm : exec (.optLaserCmdRecal c w) s = execOptLaserCmdRecal c w s := rfl
  rw [harm, execOptLaserCmdRecal, if_pos (by simp [hc, hw])]
theorem exec_wavelengthRecal (hc : c < 4) (hw : w < 8) (hlit : (s.chip c).wl w < 3) : exec (.wavelengthRecal c w) s = .next (s.beginWl c w false) := by
  have harm : exec (.wavelengthRecal c w) s = execWavelengthRecal c w s := rfl
  rw [harm, execWavelengthRecal, if_pos (by simp [hc, hw, hlit])]
/-- A chiplet with a swap, or a recalibration, of a wavelength asked for. -/
def Chip.swapAsked (x : Chip) (w : Nat) : Chip := { x with cmdWl := BitVec.ofNat 3 w, swapReq := some w }
def Chip.recalAsked (x : Chip) (w : Nat) : Chip := { x with cmdWl := BitVec.ofNat 3 w, recalReq := some w }
theorem State.requestSwap_eq (s : State) (c w : Nat) : s.requestSwap c w = if (s.chip c).wl w < 3 && ((s.chip c).spare w 3).isSome
    then (s.setChip c ((s.chip c).swapAsked w)).beginWl c w true
    else ((s.setChip c { s.chip c with cmdWl := BitVec.ofNat 3 w }).laserEvent c w).countErr (chipPage c).1 (chipPage c).2 := rfl
theorem State.requestSwap_chip (hlit : (s.chip c).wl w < 3) (hready : ((s.chip c).spare w 3).isSome = true) (hbusy : (s.chip c).busy = none)
    (hsteer : (s.chip c).steering = false) (hsus : s.suspended c = false) : (s.requestSwap c w).chip c = ((s.chip c).swapAsked w).beginWl w true := by
  rw [State.requestSwap_eq, decide_eq_true hlit, hready, Bool.and_self, if_pos rfl]
  exact State.beginWl_setChip_chip (x := (s.chip c).swapAsked w) hbusy hsteer hsus w true
theorem State.requestRecal_chip (hlit : (s.chip c).wl w < 3) (hbusy : (s.chip c).busy = none) (hsteer : (s.chip c).steering = false)
    (hsus : s.suspended c = false) : (s.requestRecal c w).chip c = ((s.chip c).recalAsked w).beginWl w false := by
  rw [State.requestRecal]
  simp only [if_pos hlit, State.chip_setChip]
  exact State.beginWl_setChip_chip (s := s.setChip c { s.chip c with cmdWl := BitVec.ofNat 3 w }) (x := (s.chip c).recalAsked w) hbusy hsteer hsus w false
/-- A spare that is tuned shows READY, and the wavelength moves. -/
def State.showsReady (s : State) (c l : Nat) : State := s.setChip c ((s.chip c).setLaser l 3)
theorem exec_spareReady {l : Nat} (htuned : (s.chip c).laser l = 2) (hfor : (s.chip c).spareFor.find l = some w) (hsus : s.suspended c = false) :
    exec (.spareReady c l) s = .next (if (s.chip c).laser ((s.chip c).feeds w) = 5
      then (((s.setChip c (((s.chip c).feedFrom w l).setWl w 0)).laserEvent c w).recordLasers c).relane c
      else (s.showsReady c l).moveWl c w (Tbl.get 0 (s.chip c).laserDb ((s.chip c).feeds w)) false) := by
  have harm : exec (.spareReady c l) s = execSpareReady c l s := rfl
  rw [harm, execSpareReady]
  simp only [htuned, hfor, hsus, ne_eq, not_true_eq_false, if_false, Bool.false_eq_true]
  exact (apply_ite Host.Outcome.next ..).symm

/-! ## The ends of a swap and of a recalibration -/

/-- The chiplet at the end of a swap. -/
def Chip.swapped (x : Chip) (w : Nat) : Chip :=
  let y := ((x.forget w).setWl w 0).retireIdle
  { y with swaps := bump y.swaps }
theorem Chip.swapped_fields (x : Chip) (w : Nat) : (x.swapped w).swaps = x.swaps + 1 ∧ (x.swapped w).waiting = (x.forget w).waiting
    ∧ (x.swapped w).busy = (x.forget w).busy ∧ (x.swapped w).wlLaser = x.wlLaser := by
  obtain ⟨hswaps, hwaiting, hbusy, hfeeds⟩ := ((x.forget w).setWl w 0).retireIdle_fields
  exact ⟨congrArg bump hswaps, hwaiting, hbusy, hfeeds⟩
/-- The swap ends: the lanes rejoin and the event is sent. -/
def State.swapEnds (s : State) (c w : Nat) : State := ((((s.setChip c ((s.chip c).swapped w)).recordLasers c).relane c).laserEvent c w).rasReport 0
theorem State.swapEnds_chip (s : State) (c w : Nat) : (s.swapEnds c w).chip c = (s.chip c).swapped w := by
  have hras (t : State) : (t.rasReport 0).chip c = t.chip c := rfl
  rw [State.swapEnds, hras, State.laserEvent_chip, State.relane_chip, State.recordLasers_chip, State.chip_setChip]
theorem exec_laserSwapComplete (hbusy : (s.chip c).busy = some (w, true)) (hsus : s.suspended c = false) :
    exec (.laserSwapComplete c) s = .next ((s.swapEnds c w).nextWl c) := by
  have harm : exec (.laserSwapComplete c) s = execLaserSwapComplete c s := rfl
  rw [harm, execLaserSwapComplete]
  simp only [hbusy, hsus, Bool.false_eq_true, if_false, State.swapEnds, Chip.swapped]
/-- The chiplet at the end of a recalibration. -/
def Chip.recalibrated (x : Chip) (c w : Nat) (m r : DWord) : Chip :=
  { (x.forget w).setWl w 0 with slotFault := x.slotFault &&& (~~~ wlMask c w ||| m), rxFault := x.rxFault &&& (~~~ wlMask c w ||| r), recals := bump x.recals }
/-- The recalibration ends: the faulted rings that stay are recorded and the lanes rejoin. -/
def State.recalEnds (s : State) (c w : Nat) (m r : DWord) : State :=
  let x := (s.chip c).recalibrated c w m r
  let s1 := s.setChip c x
  (s1.setFlash { s1.flash with slotFaults := s1.flash.slotFaults.put c x.slotFault, rxFaults := s1.flash.rxFaults.put c x.rxFault }).relane c
theorem State.recalEnds_chip (s : State) (c w : Nat) (m r : DWord) : (s.recalEnds c w m r).chip c = (s.chip c).recalibrated c w m r := by
  have hflash (t : State) (x : Flash) : (t.setFlash x).chip c = t.chip c := rfl
  rw [State.recalEnds, State.relane_chip, hflash, State.chip_setChip]
theorem exec_wavelengthRecalComplete {m r : DWord} (hbusy : (s.chip c).busy = some (w, false)) (hsus : s.suspended c = false) :
    exec (.wavelengthRecalComplete c m r) s = .next ((s.recalEnds c w m r).nextWl c) := by
  have harm : exec (.wavelengthRecalComplete c m r) s = execWavelengthRecalComplete c m r s := rfl
  rw [harm, execWavelengthRecalComplete]
  simp only [hbusy, hsus, Bool.false_eq_true, if_false, State.recalEnds, Chip.recalibrated]
end
/-- What waits for another wavelength still waits; this one is done. -/
theorem Chip.forget_of_busy {x : Chip} {w : Nat} {swap : Bool} (h : x.busy = some (w, swap)) (hnone : x.waiting = []) :
    (x.forget w).busy = none ∧ (x.forget w).waiting = [] := by
  rw [Chip.forget, h, hnone, Option.any_some, beq_self_eq_true, if_pos rfl]
  exact ⟨rfl, rfl⟩
/-- Of the faulted rings of a mask those that fail again stay. -/
theorem and_not_or_eq (a m r : DWord) : a &&& (~~~ m ||| r) = (a &&& ~~~ m) ||| (a &&& m &&& r) := by
  ext i hi
  simp only [BitVec.getElem_and, BitVec.getElem_or, BitVec.getElem_not]
  cases a[i] <;> cases m[i] <;> cases r[i] <;> rfl

end Sys2Proof.Machine

open Sys2Proof Sys2Proof.Machine

/-- Settles O40: each event gives one chiplet, whose feeds, states and counts are read off it, and the next turn leaves what is said of it. -/
theorem lasersAreSparedAndRecalibrated : Obligations.LasersAreSparedAndRecalibrated := by
  unfold Obligations.LasersAreSparedAndRecalibrated
  refine ⟨fun c s hsus => ?_, fun c s hsus => ?_⟩
  · intro x
    refine ⟨fun l w htuned hfor => ⟨fun hfailed => ?_, fun hworks hd hl => ?_⟩, fun w hbusy => ?_, fun w hc hw => ⟨fun hlit hready hbusy hsteer => ?_, fun hno => ?_⟩⟩
    · have hexec := exec_spareReady htuned hfor hsus
      rw [if_pos hfailed] at hexec
      refine ⟨_, hexec, ?_⟩
      rw [State.relane_chip, State.recordLasers_chip, State.laserEvent_chip, State.chip_setChip]
      exact ⟨Tbl.get_put_same .., (Chip.feedFrom_laser x w l l).trans (if_pos rfl), Chip.setWl_wl_same ..⟩
    · have hexec := exec_spareReady htuned hfor hsus
      rw [if_neg hworks] at hexec
      refine ⟨_, hexec, ?_⟩
      have hchip : (s.showsReady c l).chip c = x.setLaser l 3 := State.chip_setChip ..
      have hshows : (x.setLaser l 3).laser l = 3 := (x.setLaser_laser l 3 l).trans (if_pos rfl)
      have hready : ((x.setLaser l 3).spare w 3).isSome = true := by
        refine List.find?_isSome.mpr ⟨l, List.mem_range.mpr hl, ?_⟩
        have hfor3 : (x.setLaser l 3).spareFor.find l = some w := hfor
        rw [hshows, hfor3, beq_self_eq_true, beq_self_eq_true]
        rfl
      rw [State.moveWl_laser hd (by rw [hchip]; exact hready), hchip, hshows]
    · have hexec := exec_laserSwapComplete hbusy hsus
      have hchip := s.swapEnds_chip c w
      generalize s.swapEnds c w = u at hexec hchip
      obtain ⟨hswaps, hwaiting, hdone, hfeeds⟩ := x.swapped_fields w
      refine ⟨_, hexec, ?_, fun l hl hactive hidle => ?_, fun hnone => ?_⟩
      · have hcounts := u.nextWl_counts c
        rw [hchip] at hcounts
        exact (congrArg Prod.fst hcounts :).trans hswaps
      · have hretired : (x.swapped w).laser l = 4 := Chip.retireIdle_laser (x := (x.forget w).setWl w 0) hl hactive hidle
        rw [State.nextWl_laser (by rw [hchip, hretired]; decide), hchip, hretired]
      · obtain ⟨hfree, hempty⟩ := Chip.forget_of_busy hbusy hnone
        rw [State.nextWl_chip_of_none (by rw [hchip, hwaiting, hempty]), hchip, hdone, Chip.feeds, hfeeds]
        refine ⟨?_, hfree, rfl⟩
        exact (Chip.retireIdle_wl ((x.forget w).setWl w 0) w).trans (Chip.setWl_wl_same ..)
    · refine ⟨_, exec_optLaserCmdSwap hc hw, ?_⟩
      rw [State.requestSwap_chip hlit hready hbusy hsteer hsus]
      obtain ⟨hwl, hbegun⟩ := Chip.beginWl_swap (x := x.swapAsked w) hready
      exact ⟨hwl, hbegun, Chip.beginWl_swapReq ..⟩
    · rw [exec_optLaserCmdSwap hc hw, State.requestSwap_eq]
      exact congrArg _ (if_neg (by rwa [Bool.and_eq_true, decide_eq_true_eq]))
  · intro x
    refine ⟨fun w hc hw hlit hbusy hsteer => ⟨?_, ?_⟩, fun w m r hbusy => ?_⟩
    · refine ⟨_, exec_optLaserCmdRecal hc hw, ?_⟩
      rw [State.requestRecal_chip hlit hbusy hsteer hsus, Chip.beginWl_recal]
      exact ⟨Chip.setWl_wl_same .., rfl, rfl⟩
    · refine ⟨_, exec_wavelengthRecal hc hw hlit, ?_⟩
      rw [State.beginWl_chip hbusy hsteer hsus, Chip.beginWl_recal]
      exact ⟨Chip.setWl_wl_same .., rfl⟩
    · have hexec := exec_wavelengthRecalComplete (m := m) (r := r) hbusy hsus
      have hchip := s.recalEnds_chip c w m r
      generalize s.recalEnds c w m r = u at hexec hchip
      have hcounts := u.nextWl_counts c
      rw [hchip] at hcounts
      simp only [Chip.counts, Prod.mk.injEq] at hcounts
      obtain ⟨-, hrecals, hslots, hrx⟩ := hcounts
      refine ⟨_, hexec, hrecals, hslots.trans (and_not_or_eq ..), hrx.trans (and_not_or_eq ..), fun hnone => ?_⟩
      obtain ⟨hfree, hempty⟩ := Chip.forget_of_busy hbusy hnone
      rw [State.nextWl_chip_of_none (by rw [hchip]; exact hempty), hchip]
      exact ⟨Chip.setWl_wl_same .., hfree⟩
end

section
/-! SUPPORT. Rings, shuttles and drains: what sending leaves of the state, the lanes and the announcement that a port shows, and the writes of a service drain one port at a time (spec/11 R383, R384, R388 to R391). -/

namespace Sys2Proof.Machine

/-! ## What a port shows -/

/-- The state, the lanes and the announcement of a port. -/
def Port.shown (x : Port) : PortSt × DWord × Bool := (x.st, x.lanes, x.announced)
/-- What each port shows. -/
def State.shown (s : State) (k : Nat) : PortSt × DWord × Bool := (s.port k).shown
theorem State.shown_fields (s : State) (k : Nat) : (s.shown k).2.2 = (s.port k).announced := rfl
theorem Stays.shown_of_ports {s t : State} (h : t.router.ports = s.router.ports) : Stays State.shown s t :=
  ⟨by funext k; rw [State.shown, State.port, h]; rfl⟩
theorem State.setPort_shown {s : State} {k : Nat} {x : Port} (h : x.shown = (s.port k).shown) : Stays State.shown s (s.setPort k x) := by
  constructor
  funext j
  by_cases hj : j = k
  · rw [hj, State.shown, State.port_setPort, h, State.shown]
  · rw [State.shown, State.port_setPort_ne _ _ hj, State.shown]
theorem Touch.shown {m : Nat} {s t : State} (h : Touch m s t) (hm : m.testBit 18 = false) : Stays State.shown s t := .shown_of_ports (by rw [h.router hm])
theorem State.dropQueued_shown (s : State) (q : Queued) (code : Nat) : Stays State.shown s (s.dropQueued q code) := by
  unfold State.dropQueued
  extract_lets s1
  have h1 : Stays State.shown s s1 := .shown_of_ports rfl
  split
  · exact .ite (h1.trans (State.setPort_shown rfl)) h1
  all_goals exact h1
theorem Port.spend_shown (x : Port) (p : MeshPkt) : (x.spend p).shown = x.shown := by
  unfold Port.spend
  split
  · rfl
  · split <;> rfl
theorem State.emit_shown (s : State) (k : Nat) (p : MeshPkt) (stomp : Bool) : Stays State.shown s (s.emit k p stomp) := by
  unfold State.emit
  extract_lets x m w y s1
  have h1 : Stays State.shown s s1 := State.setPort_shown (((s.port k).filled s.now).spend_shown p)
  exact h1.trans (.shown_of_ports rfl)
theorem State.requeue_shown (s : State) (k : Nat) (queue : List Queued) (wrr : Nat × Nat) (turns : Tbl (Nat × Nat)) :
    Stays State.shown s (s.requeue k queue wrr turns) := by
  have hturns : Stays State.shown s (s.setRouter { s.router with partTurn := turns }) := .shown_of_ports rfl
  exact hturns.trans (State.setPort_shown (by rfl))
theorem State.drainOne_shown (s : State) (k : Nat) : Stays State.shown s (s.drainOne k) := by
  unfold State.drainOne
  split
  case h_1 => exact .refl s
  case h_2 q t hpick =>
    obtain ⟨-, before, after, wrr, turns, -, ht⟩ := State.pick_eq_some hpick
    have hpicked : Stays State.shown s t := ht ▸ s.requeue_shown k _ wrr turns
    exact .ite (hpicked.trans (State.dropQueued_shown ..)) (.ite (hpicked.trans (State.dropQueued_shown ..)) (hpicked.trans (State.emit_shown ..)))
theorem State.drain_shown (s : State) (k : Nat) : Stays State.shown s (s.drain k) := .each (fun t _ => t.drainOne_shown k) _ s
theorem State.sendOn_shown (s : State) (inp k : Nat) (p : MeshPkt) (stomp : Bool) : Stays State.shown s (s.sendOn inp k p stomp) := by
  have hin : Stays State.shown s (s.enqueue inp k p stomp) := (State.drain_shown _ k).after (State.setPort_shown rfl)
  have hout : ∀ code, Stays State.shown s (s.discard code) := fun code => .shown_of_ports rfl
  unfold State.sendOn
  extract_lets x control
  split
  · exact .ite (hout 10) hin
  · exact .ite hin (hout 11)
  · exact .ite hin (.refl s)
  · exact .ite hin (hout 11)
  · exact .ite hin (hout 11)
  · exact .ite hin (hout 11)
  · exact .ite hin (hout 11)
  · exact .refl s
  · exact .refl s
theorem State.flood_shown (s : State) (but : Nat) (pl : List Byte) : Stays State.shown s (s.flood but pl) :=
  .each (fun t _ => .ite (t.sendOn_shown ..) (.refl t)) _ s
theorem State.sendFc_shown (s : State) (k : Nat) : Stays State.shown s (s.sendFc k) := by
  unfold State.sendFc
  extract_lets x m e s1
  have h1 : Stays State.shown s s1 := State.setPort_shown rfl
  exact h1.trans (.shown_of_ports rfl)
theorem State.fcChanged_shown (s : State) (k : Nat) : Stays State.shown s (s.fcChanged k) := .ite (s.sendFc_shown k) (.refl s)
theorem State.fcSweep_shown (s : State) : Stays State.shown s s.fcSweep := .each (fun t k => t.fcChanged_shown k) _ s
theorem State.stompPassage_shown (s : State) (k : Nat) : Stays State.shown s (s.stompPassage k) := by
  unfold State.stompPassage
  extract_lets x s1
  have h1 : Stays State.shown s s1 := State.setPort_shown rfl
  split
  · extract_lets y
    exact .ite (h1.trans (State.setPort_shown rfl)) (h1.trans (.shown_of_ports rfl))
  all_goals exact h1

/-! ## Notices, and a port taken down -/

/-- A port that has been announced, or no longer is. -/
def Port.announcing (x : Port) (up : Bool) : Port := { x with announced := up }
/-- A notice changes the announcement of its port alone. -/
theorem State.announce_shown (s : State) (k : Nat) (up : Bool) : Stays State.shown (s.setPort k ((s.port k).announcing up)) (s.announce k up) := by
  have hports := s.router.join_ports s.now [(k, up)]
  unfold State.announce
  generalize s.router.join s.now [(k, up)] = j at hports ⊢
  obtain ⟨r, t⟩ := j
  dsimp -zeta only
  extract_lets seq pl s1 x s2
  have h1 : s1.port = s.port := by
    funext i
    exact congrArg (fun l => Tbl.get {} l i) hports
  have h2 : s2.port = (s.setPort k ((s.port k).announcing up)).port := by
    have hx : s2 = s1.setPort k ((s.port k).announcing up) := by
      rw [← h1]
      rfl
    funext i
    by_cases hi : i = k
    · rw [hx, hi, State.port_setPort, State.port_setPort]
    · rw [hx, State.port_setPort_ne _ _ hi, State.port_setPort_ne _ _ hi, h1]
  have hshown : Stays State.shown (s.setPort k ((s.port k).announcing up)) s2 := ⟨by funext i; rw [State.shown, h2, State.shown]⟩
  exact hshown.trans (s2.flood_shown 12 pl)
theorem State.announce_shown_other (s : State) {k j : Nat} (h : j ≠ k) (up : Bool) : (s.announce k up).shown j = s.shown j := by
  rw [(s.announce_shown k up).eq, State.shown, State.port_setPort_ne _ _ h, State.shown]
theorem State.notice_shown_other (s : State) {k j : Nat} (h : j ≠ k) (up : Bool) : (s.notice k up).shown j = s.shown j := by
  unfold State.notice
  split
  · rw [State.shown, State.port_setPort_ne _ _ h, State.shown]
  · exact s.announce_shown_other h up
theorem State.notice_announced {s : State} {k : Nat} (h : s.suspended (k / 4) = false) (up : Bool) : ((s.notice k up).port k).announced = up := by
  rw [State.notice, h, if_neg Bool.false_ne_true]
  have hset : ((s.setPort k ((s.port k).announcing up)).shown k).2.2 = up := by
    rw [State.shown, State.port_setPort]
    rfl
  rwa [← (s.announce_shown k up).eq, State.shown_fields] at hset
/-- A port taken down leaves every other port's state, lanes and announcement. -/
theorem State.takeDown_shown_other (s : State) {k j : Nat} (h : j ≠ k) (st : PortSt) : (s.takeDown k st).shown j = s.shown j := by
  unfold State.takeDown
  extract_lets x s1 s2 y z s3 r s4 s5 s6
  have h1 : s1.shown j = s.shown j := congrFun (s.stompPassage_shown k).eq j
  have h2 : s2.shown j = s.shown j := (congrFun (Stays.each (fun t q => t.dropQueued_shown q 5) _ s1).eq j).trans h1
  have h3 : s3.shown j = s.shown j := by
    rw [← h2, State.shown, State.port_setPort_ne _ _ h, State.shown]
  clear_value s3
  have h4 : s4.shown j = s.shown j := by
    refine (congrFun (Stays.ite ?_ (.refl s3) : Stays State.shown s3 s4).eq j).trans h3
    exact ((State.raiseRouter_touch (Sub.refl _) _ 1 (.refl _ _)).shown rfl).after (.shown_of_ports rfl)
  clear_value s4
  have h5 : s5.shown j = s.shown j :=
    (congrFun (Stays.ite (.refl s4) ((State.linkEvent_touch (Sub.refl _) s4 k (.refl _ s4)).shown rfl) : Stays State.shown s4 s5).eq j).trans h4
  clear_value s5
  have h6 : s6.shown j = s.shown j := by
    unfold s6
    split
    · rw [s5.notice_shown_other h, h5]
    · exact h5
  rw [(s6.fcSweep_shown).eq, h6]
theorem State.setLanes_lanes (s : State) (k : Nat) (m : DWord) : ((s.setLanes k m).port k).lanes = m := by
  unfold State.setLanes
  extract_lets x y s1
  have h1 : (s1.shown k).2.1 = m := by rw [State.shown, State.port_setPort]; rfl
  have hgo : ∀ u, Stays State.shown s1 u → (u.port k).lanes = m := fun u hu => by
    rw [← hu.eq] at h1
    exact h1
  split
  case isTrue h => exact h
  case isFalse =>
    have hmarker : ∀ (t : State) (i : Nat), Stays State.shown t
        (t.setRouter { t.router with sent := .marker k i (t.marker k i true (!m.getLsbD i)) :: t.router.sent }) := fun t i => .shown_of_ports rfl
    have hsent : Stays State.shown s1 (((s1.each (laneOrder (x.lanes ||| m)) (fun s i =>
        s.setRouter { s.router with sent := .marker k i (s.marker k i true (!m.getLsbD i)) :: s.router.sent })).drain k).fcChanged k) :=
      (State.fcChanged_shown _ k).after ((State.drain_shown _ k).after (.each hmarker _ s1))
    split
    · exact hgo _ (.refl s1)
    · exact hgo _ (.refl s1)
    all_goals exact hgo _ hsent

/-! ## Rings and the substrate -/

/-- The chiplet's flag is raised and its event sent. -/
def State.optEvent (s : State) (c bit code : Nat) (pl : List Byte) : State := (s.raiseOpt c bit).eventMgmt code (chipPage c).1 pl
theorem State.optEvent_touch (s : State) (c bit code : Nat) (pl : List Byte) : Touch 0x144001400 s (s.optEvent c bit code pl) :=
  State.eventMgmt_touch ((Sub.refl _).of rfl) _ code _ pl (State.raiseOpt_touch ((Sub.refl _).of rfl) s c bit (.refl _ s))
theorem State.optEvent_flag (s : State) (c : Nat) {bit : Nat} (hbit : bit < 32) (code : Nat) (pl : List Byte) :
    ((s.optEvent c bit code pl).hdr (chipPage c).1 (chipPage c).2).errStatus.getLsbD bit = true :=
  (State.eventMgmt_flagsStay ..).stay _ _ _ (s.raise_errStatus _ _ hbit)
section
variable {s : State} {c slot : Nat}

/-- The slot of a port on its chiplet. -/
theorem portSlots_of_slot {c slot : Nat} (hslot : slot < 64) : (portSlots (4 * c + slot % 8 / 2)).getLsbD slot = true := by
  have hport : (4 * c + slot % 8 / 2) % 4 = slot % 8 / 2 := by omega
  have hbit : (slot % 8 == 2 * (slot % 8 / 2) || slot % 8 == 2 * (slot % 8 / 2) + 1) = true := by
    rw [Bool.or_eq_true, beq_iff_eq, beq_iff_eq]
    omega
  rw [portSlots, hport, BitVec.getLsbD_ofNat, decide_eq_true hslot, Bool.true_and, testBit_packBits hslot, hbit]
/-- The faulted slots of a chiplet with one more, of its receive or its send side. -/
def Chip.faulted (x : Chip) (slot : Nat) (rx : Bool) : Chip :=
  if rx then { x with rxFault := x.rxFault ||| BitVec.ofNat 64 (2 ^ slot) } else { x with slotFault := x.slotFault ||| BitVec.ofNat 64 (2 ^ slot) }
/-- The faulted slots are shown and kept in the service record. -/
def State.faultRecorded (s : State) (c : Nat) (y : Chip) : State :=
  let s1 := s.setChip c y
  s1.setFlash { s1.flash with slotFaults := s1.flash.slotFaults.put c y.slotFault, rxFaults := s1.flash.rxFaults.put c y.rxFault }
/-- The lane of a faulted ring leaves, or goes out of lock. -/
def State.faultDark (s : State) (c slot : Nat) (rx loopFirst : Bool) : State :=
  let k := 4 * c + slot % 8 / 2
  let bit := BitVec.ofNat 64 (2 ^ slot)
  if c = 3 then s
  else if rx then s.loseLanes k bit
  else if loopFirst then s.setLanes k ((s.port k).lanes &&& ~~~ bit)
  else s.setPort k { s.port k with lanes := (s.port k).lanes &&& ~~~ bit }
theorem exec_ringFault (hc : c < 4) (hslot : slot < 64) {rx : Bool} (hrx : rx = true → c < 3) (loopFirst : Bool) : exec (.ringFault c slot rx loopFirst) s
    = .next (((s.faultRecorded c ((s.chip c).faulted slot rx)).faultDark c slot rx loopFirst).optEvent c 1 0x31
      (leBytes 1 c ++ zeros 3 ++ leBytes 8 (((s.chip c).faulted slot rx).slotFault ||| ((s.chip c).faulted slot rx).rxFault).toNat)) := by
  have harm : exec (.ringFault c slot rx loopFirst) s = execRingFault c slot rx loopFirst s := rfl
  have hgo : ¬(decide (4 ≤ c) || decide (64 ≤ slot) || (rx && decide (c = 3))) = true := by
    cases rx with
    | false => simp [hc, hslot]
    | true =>
      have := hrx rfl
      simp [hc, hslot]
      omega
  rw [harm, execRingFault, if_neg hgo]
  rfl
theorem State.faultRecorded_fields (s : State) (c : Nat) (y : Chip) : (s.faultRecorded c y).chip c = y ∧ (s.faultRecorded c y).router = s.router
    ∧ Tbl.find (s.faultRecorded c y).flash.slotFaults c = some y.slotFault ∧ Tbl.find (s.faultRecorded c y).flash.rxFaults c = some y.rxFault :=
  ⟨State.chip_setChip .., rfl, (Tbl.find_put ..).trans (if_pos rfl), (Tbl.find_put ..).trans (if_pos rfl)⟩
theorem State.faultDark_touch (s : State) (c slot : Nat) (rx loopFirst : Bool) : Touch 0x1440C1400 s (s.faultDark c slot rx loopFirst) := by
  unfold State.faultDark
  extract_lets k bit
  split
  · exact .refl _ s
  · split
    · exact State.loseLanes_touch ((Sub.refl _).of rfl) s k bit (.refl _ s)
    · split
      · exact State.setLanes_touch ((Sub.refl _).of rfl) s k _ (.refl _ s)
      · exact State.setPort_touch ((Sub.refl _).of rfl) s k _ (.refl _ s)
/-- A modulator's fault leaves the chiplets, and takes its slot from its port's lanes. -/
theorem State.faultDark_send (s : State) (c slot : Nat) (loopFirst : Bool) : (s.faultDark c slot false loopFirst).chip = s.chip
    ∧ (c < 3 → ((s.faultDark c slot false loopFirst).port (4 * c + slot % 8 / 2)).lanes
      = (s.port (4 * c + slot % 8 / 2)).lanes &&& ~~~ BitVec.ofNat 64 (2 ^ slot)) := by
  unfold State.faultDark
  extract_lets k bit
  rw [if_neg Bool.false_ne_true]
  split
  · next h => exact ⟨rfl, fun hlt => by omega⟩
  · split
    · exact ⟨funext fun i => (State.setLanes_touch (Sub.refl _) s k _ (.refl _ s)).chip rfl i, fun _ => s.setLanes_lanes k _⟩
    · exact ⟨rfl, fun _ => by rw [State.port_setPort]⟩
theorem State.loseLanes_rxFault (s : State) (k : Nat) (lost : DWord) : ((s.loseLanes k lost).chip (k / 4)).rxFault = (s.chip (k / 4)).rxFault := by
  unfold State.loseLanes
  extract_lets x ch n left
  split
  · rfl
  · split
    · rw [State.unlock, State.takeDown_chip, State.chip_setChip]
    · rw [State.chip_setChip]
theorem State.loseLanes_rxLocked {k : Nat} (hdown : (s.port k).st ≠ .down) (huncabled : (s.port k).st ≠ .uncabled) {lost : DWord} {i : Nat}
    (hlost : lost.getLsbD i = true) (hport : (portSlots k).getLsbD i = true) : ((s.loseLanes k lost).chip (k / 4)).rxLocked.getLsbD i = false := by
  have hgo : ((s.port k).st == .down || (s.port k).st == .uncabled) = false := by simp [hdown, huncabled]
  unfold State.loseLanes
  extract_lets x ch n left
  rw [hgo, if_neg Bool.false_ne_true]
  split
  · rw [(s.unlock_chip k n).1, BitVec.getLsbD_and, BitVec.getLsbD_not, hport, Bool.not_true, Bool.and_false, Bool.and_false]
  · have hleft : left.getLsbD i = false := by
      rw [BitVec.getLsbD_and, BitVec.getLsbD_not, BitVec.getLsbD_and, hlost, hport, Bool.and_self, Bool.not_true, Bool.and_false, Bool.and_false]
    rw [State.chip_setChip]
    exact hleft
theorem getLsbD_two_pow {slot : Nat} (h : slot < 64) : (BitVec.ofNat 64 (2 ^ slot)).getLsbD slot = true := by
  rw [BitVec.getLsbD_ofNat, decide_eq_true h, Nat.testBit_two_pow_self, Bool.and_self]
/-- A drop ring's fault takes its receive slot out of lock. -/
theorem State.faultDark_receive (hc : c < 3) (hslot : slot < 64) (loopFirst : Bool) : ((s.faultDark c slot true loopFirst).chip c).rxFault = (s.chip c).rxFault
    ∧ ((s.port (4 * c + slot % 8 / 2)).st ≠ .down → (s.port (4 * c + slot % 8 / 2)).st ≠ .uncabled →
      ((s.faultDark c slot true loopFirst).chip c).rxLocked.getLsbD slot = false) := by
  have hdark : s.faultDark c slot true loopFirst = s.loseLanes (4 * c + slot % 8 / 2) (BitVec.ofNat 64 (2 ^ slot)) := by
    rw [State.faultDark, if_neg (by omega), if_pos rfl]
  have hchip : (4 * c + slot % 8 / 2) / 4 = c := by omega
  have hfault := s.loseLanes_rxFault (4 * c + slot % 8 / 2) (BitVec.ofNat 64 (2 ^ slot))
  rw [hchip] at hfault
  rw [hdark]
  refine ⟨hfault, fun hdown huncabled => ?_⟩
  have hlocked := State.loseLanes_rxLocked hdown huncabled (getLsbD_two_pow hslot) (portSlots_of_slot (c := c) hslot)
  rwa [hchip] at hlocked
theorem exec_substrateTempCheck (hc : c < 4) (v : Int) : exec (.substrateTempCheck c v) s
    = .next (if 1280 < v then (s.setChip c { s.chip c with temp := ofInt16 v }).optEvent c 2 0x32 (leBytes 1 c ++ zeros 1 ++ leBytes 2 (ofInt16 v).toNat)
      else s.setChip c { s.chip c with temp := ofInt16 v }) := by
  have harm : exec (.substrateTempCheck c v) s = execSubstrateTempCheck c v s := rfl
  rw [harm, execSubstrateTempCheck, if_neg (Nat.not_le.mpr hc)]
  exact (apply_ite Host.Outcome.next ..).symm

/-! ## Shuttles -/

/-- The port of a chiplet whose light is gone. -/
def State.losesLight (s : State) (p : Nat) : State := if (s.port p).st == .down || (s.port p).st == .uncabled then s else s.unlock p (s.port p).rxPos.length
/-- The light of a chiplet goes to the dump port. -/
def State.dumpLight (s : State) (c : Nat) : State := (s.setChip c { s.chip c with shuttle := false, dump := true }).each (chipPorts c) State.losesLight
/-- The OED ports have no link. -/
def State.oedDark (s : State) (c : Nat) : State :=
  if c = 3 then s.each (List.range 4) (fun s p => s.setOedPort p { s.oedPort p with linkA := false, linkB := false }) else s
theorem exec_shuttleRemoved (hc : c < 4) (hseated : (s.chip c).shuttle = true) : exec (.shuttleRemoved c) s
    = .next (((s.dumpLight c).oedDark c).optEvent c 3 0x33 (leBytes 1 c ++ leBytes 1 (b2n false) ++ zeros 2)) := by
  have harm : exec (.shuttleRemoved c) s = execShuttleRemoved c s := rfl
  have hgo : ¬(decide (4 ≤ c) || !(s.chip c).shuttle) = true := by simp [hc, hseated]
  rw [harm, execShuttleRemoved, if_neg hgo]
  rfl
/-- Where the light of a chiplet goes. -/
def State.light (c : Nat) (s : State) : Bool × Bool := ((s.chip c).shuttle, (s.chip c).dump)
theorem State.losesLight_light (c : Nat) (s : State) (p : Nat) : Stays (State.light c) s (s.losesLight p) := by
  refine .ite (.refl s) ⟨?_⟩
  rw [State.unlock, State.light, State.takeDown_chip]
  by_cases hp : c = p / 4
  · rw [hp, State.chip_setChip]
    rfl
  · rw [State.chip_setChip_ne _ _ hp]
    rfl
/-- The state that a port without light takes. -/
def PortSt.unlit (st : PortSt) : PortSt := if st = .uncabled then .uncabled else .down
theorem State.losesLight_st (s : State) (p : Nat) : ((s.losesLight p).port p).st = (s.port p).st.unlit := by
  unfold State.losesLight PortSt.unlit
  by_cases hdown : (s.port p).st = .down
  · rw [hdown]
    rw [if_pos (by decide), if_neg (by decide), hdown]
  · by_cases huncabled : (s.port p).st = .uncabled
    · rw [huncabled, if_pos (by decide), if_pos rfl, huncabled]
    · rw [if_neg (by simp [hdown, huncabled]), if_neg huncabled, (s.unlock_unlinked p _).st]
theorem State.shown_st (s : State) (k : Nat) : (s.shown k).1 = (s.port k).st := rfl
theorem State.unlock_shown_other (s : State) {k j : Nat} (h : j ≠ k) (n : Nat) : (s.unlock k n).shown j = s.shown j := by
  unfold State.unlock
  extract_lets ch
  rw [State.takeDown_shown_other _ h]
  rfl
theorem State.losesLight_st_other (s : State) {p j : Nat} (h : j ≠ p) : ((s.losesLight p).port j).st = (s.port j).st := by
  unfold State.losesLight
  split
  · rfl
  · rw [← State.shown_st, s.unlock_shown_other h, State.shown_st]
theorem State.dumpLight_light (s : State) (c : Nat) : (s.dumpLight c).light c = (false, true) := by
  have hstay : Stays (State.light c) (s.setChip c { s.chip c with shuttle := false, dump := true }) (s.dumpLight c) := .each (fun t p => t.losesLight_light c p) _ _
  rw [hstay.eq, State.light, State.chip_setChip]
theorem State.dumpLight_port (s : State) {c d : Nat} (hc : c < 3) (hd : d < 4) : ((s.dumpLight c).port (4 * c + d)).st = (s.port (4 * c + d)).st.unlit := by
  have hports : chipPorts c = (List.range 4).map (fun d => 4 * c + d) := if_pos hc
  have hnodup : (chipPorts c).Nodup := by
    rw [hports]
    exact List.nodup_range.map fun a b h => by simpa using h
  have hmem : 4 * c + d ∈ chipPorts c := by
    rw [hports]
    exact List.mem_map.mpr ⟨d, List.mem_range.mpr hd, rfl⟩
  have hset (x : Chip) : (s.setChip c x).port = s.port := rfl
  have hall := State.each_once (Q := fun _ => True) (v := fun t k => (t.port k).st) (φ := PortSt.unlit) (op := State.losesLight) (fun _ _ _ => trivial)
    (fun t k _ => t.losesLight_st k) (fun t k j _ hj => t.losesLight_st_other hj) hnodup
    (s := s.setChip c { s.chip c with shuttle := false, dump := true }) trivial (4 * c + d)
  rw [if_pos hmem, hset] at hall
  rw [State.dumpLight]
  exact hall
theorem State.oedDark_oedPort (s : State) {p : Nat} (hp : p < 4) : ((s.oedDark 3).oedPort p).linkA = false ∧ ((s.oedDark 3).oedPort p).linkB = false := by
  rw [State.oedDark, if_pos rfl]
  refine State.each_establishes (P := fun t p => (t.oedPort p).linkA = false ∧ (t.oedPort p).linkB = false) (fun t k => ?_) (fun t j k h => ?_) _ s p
    (List.mem_range.mpr hp)
  · rw [State.oedPort_setOedPort]
    exact ⟨rfl, rfl⟩
  · by_cases hj : j = k
    · rw [hj, State.oedPort_setOedPort]
      exact ⟨rfl, rfl⟩
    · rwa [State.oedPort_setOedPort_ne _ _ hj]
theorem State.oedDark_touch (s : State) (c : Nat) : Touch 0x100000 s (s.oedDark c) := by
  rw [State.oedDark]
  split
  · exact State.each_touch (fun t p h => State.setOedPort_touch (Sub.refl _) t p _ h) (.refl _ s)
  · exact .refl _ s
theorem exec_shuttleSeated (hc : c < 4) (hout : (s.chip c).shuttle = false) :
    exec (.shuttleSeated c) s = .next ((s.setChip c { s.chip c with shuttle := true, dump := false }).shuttleEvent c true) := by
  have harm : exec (.shuttleSeated c) s = execShuttleSeated c s := rfl
  have hgo : ¬(decide (4 ≤ c) || (s.chip c).shuttle) = true := by simp [hc, hout]
  rw [harm, execShuttleSeated, if_neg hgo]

/-! ## The service drain -/

/-- Port d of a chiplet follows its bit of the drain mask, which was another before. -/
def State.drainBit (c : Nat) (mask was : BitVec 4) (s : State) (d : Nat) : State :=
  let k := 4 * c + d
  if mask.getLsbD d && !was.getLsbD d then
    if (s.port k).announced then s.notice k false
    else if !s.router.bank0.usable.getLsbD k && !s.router.bank1.usable.getLsbD k then s.setChip c { s.chip c with safe := setBit (s.chip c).safe d true }
    else s
  else if !mask.getLsbD d && was.getLsbD d && (s.port k).st == .up && s.time.aligned then s.notice k true
  else s
/-- The drain mask of a chiplet. -/
def State.drainMask (s : State) (c : Nat) (mask : BitVec 4) : State := s.setChip c { s.chip c with drain := mask, safe := (s.chip c).safe &&& mask }
theorem exec_optServiceDrain (hc : c < 4) (mask : BitVec 4) : exec (.optServiceDrain c mask) s
    = .next (if c = 3 then s.drainMask c mask else (s.drainMask c mask).each (List.range 4) (State.drainBit c mask (s.chip c).drain)) := by
  have harm : exec (.optServiceDrain c mask) s = execOptServiceDrain c mask s := rfl
  rw [harm, execOptServiceDrain, if_pos hc]
  rfl
variable {mask was : BitVec 4}
theorem State.notice_chip (s : State) (k : Nat) (up : Bool) (c : Nat) : (s.notice k up).chip c = s.chip c := (State.notice_touch (Sub.refl _) s k up (.refl _ s)).chip rfl c
theorem State.drainBit_drain (s : State) (c d : Nat) (mask was : BitVec 4) : ((State.drainBit c mask was s d).chip c).drain = (s.chip c).drain := by
  unfold State.drainBit
  extract_lets k
  split
  · split
    · rw [State.notice_chip]
    · split
      · rw [State.chip_setChip]
      · rfl
  · split
    · rw [State.notice_chip]
    · rfl
theorem State.drainBit_suspended (s : State) (c d : Nat) (mask was : BitVec 4) (i : Nat) : (State.drainBit c mask was s d).suspended i = s.suspended i := by
  have hnotice : ∀ k up, (s.notice k up).suspended i = s.suspended i := fun k up => by
    rw [State.suspended, State.hdr, (State.notice_touch (Sub.refl _) s k up (.refl _ s)).hdrs rfl]
    rfl
  unfold State.drainBit
  extract_lets k
  split
  · split
    · exact hnotice ..
    · split
      · rfl
      · rfl
  · split
    · exact hnotice ..
    · rfl
/-- A port whose bit sets is no longer announced. -/
theorem State.drainBit_announced {d : Nat} (hd : d < 4) (hsus : s.suspended c = false) (hset : (mask.getLsbD d && !was.getLsbD d) = true) :
    ((State.drainBit c mask was s d).port (4 * c + d)).announced = false := by
  have hchip : (4 * c + d) / 4 = c := by omega
  unfold State.drainBit
  extract_lets k
  rw [if_pos hset]
  split
  · exact State.notice_announced (by rw [hchip]; exact hsus) false
  · next h =>
    split
    · exact Bool.eq_false_iff.mpr h
    · exact Bool.eq_false_iff.mpr h
theorem State.drainBit_announced_other (s : State) {c d e : Nat} (h : e ≠ d) (mask was : BitVec 4) :
    ((State.drainBit c mask was s d).port (4 * c + e)).announced = (s.port (4 * c + e)).announced := by
  have hne : 4 * c + e ≠ 4 * c + d := by omega
  have hnotice : ∀ up, ((s.notice (4 * c + d) up).port (4 * c + e)).announced = (s.port (4 * c + e)).announced := fun up => by
    rw [← State.shown_fields, s.notice_shown_other hne, State.shown_fields]
  unfold State.drainBit
  extract_lets k
  split
  · split
    · exact hnotice false
    · split
      · rfl
      · rfl
  · split
    · exact hnotice true
    · rfl
/-- Every port whose bit sets is no longer announced. -/
theorem State.each_drainBit_announced (hsus : s.suspended c = false) {d : Nat} (hd : d < 4) (hset : (mask.getLsbD d && !was.getLsbD d) = true) :
    ((s.each (List.range 4) (State.drainBit c mask was)).port (4 * c + d)).announced = false := by
  have hrange : (List.range 4) = (List.range d) ++ d :: (List.range' (d + 1) (3 - d)) := by
    interval_cases d <;> rfl
  have hkeeps : ∀ (l : List Nat) (t : State), (t.each l (State.drainBit c mask was)).suspended c = t.suspended c := fun l t =>
    State.each_keeps (v := fun t => t.suspended c) (fun t k => t.drainBit_suspended c k mask was c) l t
  have hafter : ∀ (l : List Nat) (t : State), d ∉ l → (t.port (4 * c + d)).announced = false →
      ((t.each l (State.drainBit c mask was)).port (4 * c + d)).announced = false := fun l => by
    induction l with
    | nil => exact fun t _ h => h
    | cons e r ih =>
      intro t hmem h
      obtain ⟨hne, hr⟩ := not_or.mp (mt List.mem_cons.mpr hmem)
      exact ih _ hr ((t.drainBit_announced_other hne mask was).trans h)
  have hsplit : s.each (List.range 4) (State.drainBit c mask was)
      = (State.drainBit c mask was (s.each (List.range d) (State.drainBit c mask was)) d).each (List.range' (d + 1) (3 - d)) (State.drainBit c mask was) := by
    rw [State.each, hrange, List.foldl_append, List.foldl_cons]
    rfl
  rw [hsplit]
  refine hafter _ _ (fun h => ?_) (State.drainBit_announced hd ((hkeeps _ s).trans hsus) hset)
  rw [List.mem_range'] at h
  omega
/-- A port whose bit stays is left as it is. -/
theorem State.drainBit_of_same {d : Nat} (h : mask.getLsbD d = was.getLsbD d) (s : State) : State.drainBit c mask was s d = s := by
  have hset : (mask.getLsbD d && !was.getLsbD d) = false := by rw [h]; cases was.getLsbD d <;> rfl
  have hclear : (!mask.getLsbD d && was.getLsbD d && (s.port (4 * c + d)).st == .up && s.time.aligned) = false := by rw [h]; cases was.getLsbD d <;> rfl
  unfold State.drainBit
  extract_lets k
  rw [hset, if_neg Bool.false_ne_true, hclear, if_neg Bool.false_ne_true]
/-- Where one bit alone changes, its port alone follows. -/
theorem State.each_drainBit_only {d : Nat} (hd : d < 4) (hother : ∀ e < 4, e ≠ d → mask.getLsbD e = was.getLsbD e) :
    s.each (List.range 4) (State.drainBit c mask was) = State.drainBit c mask was s d := by
  have hrange : (List.range 4) = (List.range d) ++ d :: (List.range' (d + 1) (3 - d)) := by
    interval_cases d <;> rfl
  have hskip : ∀ (l : List Nat) (t : State), (∀ e ∈ l, e < 4 ∧ e ≠ d) → l.foldl (State.drainBit c mask was) t = t := fun l => by
    induction l with
    | nil => exact fun t _ => rfl
    | cons e r ih =>
      intro t h
      obtain ⟨he, hne⟩ := h e List.mem_cons_self
      rw [List.foldl_cons, State.drainBit_of_same (hother e he hne)]
      exact ih t fun i hi => h i (List.mem_cons_of_mem _ hi)
  rw [State.each, hrange, List.foldl_append, List.foldl_cons, hskip _ s fun e he => ?_, hskip _ _ fun e he => ?_]
  · have := List.mem_range'.mp he
    omega
  · have := List.mem_range.mp he
    omega
end

end Sys2Proof.Machine

open Sys2Proof Sys2Proof.Machine

/-- Settles O41: each event is a change of one chiplet, then of its ports, then a flag and an event, and what is shown of each is read off it. -/
theorem chipletsAreServiced : Obligations.ChipletsAreServiced := by
  unfold Obligations.ChipletsAreServiced
  refine ⟨fun c s hc => ?_, fun c s hc => ?_⟩
  · intro x
    refine ⟨fun slot first hslot => ?_, fun v => ⟨fun hcool => ?_, fun hhot => ?_⟩⟩
    · intro k f g
      refine ⟨⟨_, exec_ringFault hc hslot (fun h => absurd h Bool.false_ne_true) first, ?_⟩, fun hmesh => ⟨_, exec_ringFault hc hslot (fun _ => hmesh) first, ?_⟩⟩
      · set y := x.faulted slot false with hy
        obtain ⟨hchip, hrouter, hslots, -⟩ := s.faultRecorded_fields c y
        generalize s.faultRecorded c y = u at hchip hrouter hslots
        obtain ⟨hsame, hlanes⟩ := u.faultDark_send c slot first
        have htouch := u.faultDark_touch c slot false first
        have hport : u.port k = s.port k := by rw [State.port, hrouter, State.port]
        generalize u.faultDark c slot false first = v at hsame hlanes htouch ⊢
        set pl := leBytes 1 c ++ zeros 3 ++ leBytes 8 (y.slotFault ||| y.rxFault).toNat
        have hevent := v.optEvent_touch c 1 0x31 pl
        refine ⟨?_, ?_, v.optEvent_flag c (by decide) _ _, fun hmesh => ?_⟩
        · rw [hevent.chip rfl, hsame, hchip]
          rfl
        · rw [hevent.flash rfl, htouch.flash rfl, hslots]
          rfl
        · rw [State.port, hevent.router rfl, ← hport]
          exact hlanes hmesh
      · set y := x.faulted slot true with hy
        obtain ⟨hchip, hrouter, -, hslots⟩ := s.faultRecorded_fields c y
        generalize s.faultRecorded c y = u at hchip hrouter hslots
        obtain ⟨hsame, hlocked⟩ := State.faultDark_receive (s := u) hmesh hslot first
        have htouch := u.faultDark_touch c slot true first
        have hport : u.port k = s.port k := by rw [State.port, hrouter, State.port]
        generalize u.faultDark c slot true first = v at hsame hlocked htouch ⊢
        set pl := leBytes 1 c ++ zeros 3 ++ leBytes 8 (y.slotFault ||| y.rxFault).toNat
        have hevent := v.optEvent_touch c 1 0x31 pl
        refine ⟨?_, ?_, v.optEvent_flag c (by decide) _ _, fun hdown huncabled => ?_⟩
        · rw [hevent.chip rfl, hsame, hchip]
          rfl
        · rw [hevent.flash rfl, htouch.flash rfl, hslots]
          rfl
        · rw [hevent.chip rfl]
          exact hlocked (by rw [hport]; exact hdown) (by rw [hport]; exact huncabled)
    · rw [exec_substrateTempCheck hc, if_neg (Int.not_lt.mpr hcool)]
    · have hexec := exec_substrateTempCheck (s := s) hc v
      rw [if_pos hhot] at hexec
      refine ⟨_, hexec, ?_, State.optEvent_flag _ c (by decide) _ _⟩
      rw [(State.optEvent_touch ..).chip rfl, State.chip_setChip]
  · intro x
    refine ⟨fun hseated => ⟨_, exec_shuttleRemoved hc hseated, ?_⟩, fun hout => exec_shuttleSeated hc hout, fun mask => ⟨_, exec_optServiceDrain hc mask, ?_⟩,
      fun hready => ?_⟩
    · have hlight := s.dumpLight_light c
      have hports := fun d hc hd => s.dumpLight_port (c := c) (d := d) hc hd
      generalize s.dumpLight c = u at hlight hports
      have hdark := u.oedDark_touch c
      have hevent := (u.oedDark c).optEvent_touch c 3 0x33 (leBytes 1 c ++ leBytes 1 (b2n false) ++ zeros 2)
      have hchip := (hevent.chip rfl c).trans (hdark.chip rfl c)
      simp only [State.light, Prod.mk.injEq] at hlight
      rw [hchip]
      refine ⟨hlight.1, hlight.2, State.optEvent_flag _ c (by decide) _ _, fun d hd hmesh hcabled => ?_, fun p hp hoed => ?_⟩
      · rw [State.port, hevent.router rfl, hdark.router rfl, ← State.port, hports d hmesh hd, PortSt.unlit, if_neg hcabled]
      · subst hoed
        rw [State.oedPort, hevent.oed rfl]
        exact u.oedDark_oedPort hp
    · have hmask : (s.drainMask c mask).chip c = { x with drain := mask, safe := x.safe &&& mask } := State.chip_setChip ..
      refine ⟨?_, fun d hd hmesh hsus hset hclear => ?_⟩
      · split
        · rw [hmask]
        · refine (State.each_keeps (v := fun t => (t.chip c).drain) (fun t k => t.drainBit_drain c k mask x.drain) _ _).trans ?_
          rw [hmask]
      · have hbit : (mask.getLsbD d && !x.drain.getLsbD d) = true := by rw [hset, hclear]; rfl
        rw [if_neg (Nat.ne_of_lt hmesh)]
        refine ⟨fun _ => State.each_drainBit_announced (s := s.drainMask c mask) hsus hd hbit, fun hother hquiet h0 h1 => ?_⟩
        have hbanks : (!(s.drainMask c mask).router.bank0.usable.getLsbD (4 * c + d) && !(s.drainMask c mask).router.bank1.usable.getLsbD (4 * c + d)) = true := by
          show (!s.router.bank0.usable.getLsbD (4 * c + d) && !s.router.bank1.usable.getLsbD (4 * c + d)) = true
          rw [h0, h1]
          rfl
        have hquiet1 : ¬((s.drainMask c mask).port (4 * c + d)).announced = true := Bool.eq_false_iff.mp hquiet
        rw [State.each_drainBit_only hd hother, State.drainBit]
        simp only [if_pos hbit, if_neg hquiet1, if_pos hbanks, State.chip_setChip]
        simp [getLsbD_setBit_true, hd]
    · have harm : exec .sledFrame s = execSledFrame s := rfl
      rw [harm, execSledFrame]
      simp only [hready]
end

section
/-! SUPPORT. OED: a frame received goes one of four ways, a frame to be sent alone leaves at once, and a flush leaves only what may not start (spec/11 R386, R387, R389, R393, spec/13 R454). -/

namespace Sys2Proof.Machine

/-! ## A frame received -/

/-- The FEC codewords of a port are counted. -/
def State.fecCounted (s : State) (port corr bad : Nat) : State :=
  s.setOedPort port { s.oedPort port with fecCorr := (s.oedPort port).fecCorr + BitVec.ofNat 64 corr,
                                          fecUncorr := (s.oedPort port).fecUncorr + BitVec.ofNat 64 bad }
/-- A peer's partition endpoint and this device's, which a traffic key is between. -/
def MeshPkt.flow (p : MeshPkt) : Nat × Nat × Nat := (packCoord (idCoord (idOf p.src)), idPart (idOf p.src), p.part)
/-- A packet under a key is delivered without its trailer, and its counter joins the key's window. -/
def State.oedDeliver (s : State) (port : Nat) (p : MeshPkt) (w : Replay) (n : DWord) : State :=
  ({ s with oed := { s.oed with replay := (p.flow, w.take n.toNat) :: s.oed.replay.filter (fun e => e.1 != p.flow) }, fresh := s.fresh + 1 } : State).arrive
    (13 + port) { p with payload := p.payload.take (p.payload.length - 24) } false
section
variable {s : State} {port : Nat} {b : List Byte} {n : DWord} {tagOk : Bool}

theorem exec_oedFrame (hport : port < 4) (hup : (s.oedPort port).linkA = true ∨ (s.oedPort port).linkB = true) (corr bad : Nat) :
    exec (.oedFrame port b n tagOk corr bad) s = .next ((s.fecCounted port corr bad).oedFrame port b n tagOk) := by
  have harm : exec (.oedFrame port b n tagOk corr bad) s = execOedFrame port b n tagOk corr bad s := rfl
  have hgo : ¬(decide (4 ≤ port) || !((s.oedPort port).linkA || (s.oedPort port).linkB)) = true := by
    rw [(Bool.or_eq_true ..).mpr hup, decide_eq_false (Nat.not_le.mpr hport)]
    decide
  rw [harm, execOedFrame, if_neg hgo]
  rfl
theorem State.oedFrame_of_badHeader (h : s.oedHeaderOk b = false) : s.oedFrame port b n tagOk = s.oedDiscard := by
  unfold State.oedFrame
  extract_lets p
  rw [h, Bool.not_false, if_pos rfl]
theorem State.oedFrame_of_mgmt (h : s.oedHeaderOk b = true) {p : MeshPkt} (hp : p = readPkt (oedAsMesh b)) (hmgmt : idMgmt (idOf p.dst) = true) :
    s.oedFrame port b n tagOk = if p.typ = 8 ∧ s.rst.phase ≠ .warm then s.arrive (13 + port) p false else s.oedDiscard := by
  subst hp
  unfold State.oedFrame
  extract_lets p
  rw [h, Bool.not_true, if_neg Bool.false_ne_true, if_pos hmgmt]
  simp only [Bool.and_eq_true, beq_iff_eq, bne_iff_ne, p]
/-- A packet for a partition is taken: the partition runs or pauses and has keys, the trailer is there, the tag is good and the counter new. -/
def State.oedTakes (s : State) (p : MeshPkt) (w : Replay) (n : DWord) (tagOk : Bool) : Prop :=
  (((s.part p.part).st = .running ∨ (s.part p.part).st = .paused) ∧ (s.part p.part).keys = true ∧ 24 ≤ p.payload.length ∧ tagOk = true) ∧ w.accepts n.toNat = true
theorem State.oedTakes_iff (s : State) (p : MeshPkt) (w : Replay) (n : DWord) (tagOk : Bool) :
    (!((s.part p.part).st == .running || (s.part p.part).st == .paused) || !(s.part p.part).keys || decide (p.payload.length < 24) || !w.accepts n.toNat || !tagOk) = true
      ↔ ¬s.oedTakes p w n tagOk := by
  rw [← Bool.not_eq_false, not_iff_not]
  simp only [Bool.or_eq_false_iff, Bool.not_eq_false', Bool.or_eq_true, beq_iff_eq, decide_eq_false_iff_not, Nat.not_lt, State.oedTakes]
  tauto
theorem State.oedFrame_of_part (h : s.oedHeaderOk b = true) {p : MeshPkt} (hp : p = readPkt (oedAsMesh b)) (hpart : idMgmt (idOf p.dst) = false) :
    (s.oed.session (packCoord (idCoord (idOf p.src))) = none → s.oedFrame port b n tagOk = s.oedDiscard)
      ∧ ∀ e, s.oed.session (packCoord (idCoord (idOf p.src))) = some e →
        (¬s.oedTakes p (s.oedKey e.z p p.flow) n tagOk → s.oedFrame port b n tagOk = s.oedDiscard)
          ∧ (s.oedTakes p (s.oedKey e.z p p.flow) n tagOk → s.oedFrame port b n tagOk = s.oedDeliver port p (s.oedKey e.z p p.flow) n) := by
  subst hp
  unfold State.oedFrame
  extract_lets p st peer key oed
  rw [h, Bool.not_true, if_neg Bool.false_ne_true, hpart, if_neg Bool.false_ne_true]
  refine ⟨fun hnone => ?_, fun e he => ⟨fun hno => ?_, fun hyes => ?_⟩⟩
  · simp only [peer, p, hnone]
  · simp only [peer, p, he]
    exact if_pos ((s.oedTakes_iff ..).mpr hno)
  · simp only [peer, p, he]
    exact if_neg fun hc => (s.oedTakes_iff ..).mp hc hyes
theorem State.oedDeliver_fields (s : State) (port : Nat) (p : MeshPkt) (w : Replay) (n : DWord) :
    (s.oedDeliver port p w n).router.inbox = s.router.inbox ++ [{ port := 13 + port, p := { p with payload := p.payload.take (p.payload.length - 24) }, stomp := false }]
      ∧ (s.oedDeliver port p w n).oed.window p.flow = some (w.take n.toNat) ∧ (s.oedDeliver port p w n).oed.discards = s.oed.discards := by
  refine ⟨rfl, ?_, rfl⟩
  have hreplay : (s.oedDeliver port p w n).oed.replay = (p.flow, w.take n.toNat) :: s.oed.replay.filter (fun e => e.1 != p.flow) := rfl
  simp only [Oed.window, hreplay, List.find?_cons, beq_self_eq_true, Option.map_some]

/-! ## A frame to be sent -/

/-- A frame of priority 0 to be sent on a port that is up, not paused and not drained, with nothing waiting, leaves at once. -/
theorem State.oedSend_sent (hup : (s.oedPort port).linkA = true ∨ (s.oedPort port).linkB = true) (hdrain : (s.chip 3).drain.getLsbD port = false)
    (hpaused : (s.oedPort port).paused.getLsbD 0 = false) (hqueue : (s.oedPort port).queue = []) {f : OedFrame} (hf : f.pcp = 0) :
    (s.oedSend port f).oed.sent = { port := port, frame := f } :: s.oed.sent := by
  have hstart : (s.oedPort port).mayStart f.pcp = true := by
    rw [hf, OedPort.mayStart, (Bool.or_eq_true ..).mpr hup, hpaused]
    rfl
  have hgo : ({ s.oedPort port with queue := [f] } : OedPort).mayStart f.pcp = true := hstart
  rw [State.oedSend, hdrain, if_neg Bool.false_ne_true]
  simp only [hqueue, List.nil_append, State.oedFlush, State.oedPort_setOedPort, List.filter_cons, hgo, if_true, List.filter_nil]
  rfl
theorem State.oedSend_counts (s : State) (port : Nat) (f : OedFrame) : (s.oedSend port f).oed.discards = s.oed.discards
    ∧ (s.oedSend port f).oed.lldpRx = s.oed.lldpRx := by
  unfold State.oedSend
  split
  · exact ⟨rfl, rfl⟩
  · exact ⟨rfl, rfl⟩
/-- What is left of a port's queue may not start. -/
theorem State.oedFlush_port (s : State) (port : Nat) : (s.oedFlush port).oedPort port
    = { s.oedPort port with queue := (s.oedPort port).queue.filter (fun f => !(s.oedPort port).mayStart f.pcp) } := Tbl.get_put_same ..
theorem exec_lldp (hport : port < 4) (hup : (s.oedPort port).linkA = true ∨ (s.oedPort port).linkB = true) (b : List Byte) : exec (.lldp port b) s
    = .next (({ s with oed := { s.oed with lldpRx := (port, b) :: s.oed.lldpRx } }).oedSend port (oedPlain port .lldp)) := by
  have harm : exec (.lldp port b) s = execLldp port b s := rfl
  have hgo : (decide (port < 4) && ((s.oedPort port).linkA || (s.oedPort port).linkB)) = true := by
    rw [(Bool.or_eq_true ..).mpr hup, decide_eq_true hport]
    rfl
  rw [harm, execLldp, if_pos hgo]
/-- The answers to the other frames of a port that is up. -/
theorem exec_icmpv6 (hport : port < 4) (hup : (s.oedPort port).linkA = true ∨ (s.oedPort port).linkB = true) :
    exec (.icmpv6 port true .neighborSolicitation) s = .next (s.oedSend port (oedPlain port .neighborAdvertisement))
      ∧ exec (.icmpv6 port true .echoRequest) s = .next (s.oedSend port (oedPlain port .echoReply))
      ∧ (∀ m, exec (.icmpv6 port false m) s = .next s.oedDiscard) ∧ exec (.icmpv6 port true .other) s = .next s.oedDiscard := by
  have harm : ∀ ours m, exec (.icmpv6 port ours m) s = execIcmpv6 port ours m s := fun _ _ => rfl
  have hgo : ¬(decide (4 ≤ port) || !((s.oedPort port).linkA || (s.oedPort port).linkB)) = true := by
    rw [(Bool.or_eq_true ..).mpr hup, decide_eq_false (Nat.not_le.mpr hport)]
    decide
  refine ⟨?_, ?_, fun m => ?_, ?_⟩
  all_goals
    rw [harm]
    unfold execIcmpv6
    extract_lets y
    rw [if_neg hgo]
  · rfl
  · rfl
  · rfl
  · rfl
theorem exec_pfcFrame (hport : port < 4) (hup : (s.oedPort port).linkA = true ∨ (s.oedPort port).linkB = true) (pause : Bool) (pr : Byte) :
    exec (.pfcFrame port pause pr) s = .next (if pause then s.oedDiscard
      else (s.setOedPort port { s.oedPort port with paused := pr &&& (s.oedPort port).pfcEn }).oedFlush port) := by
  have harm : exec (.pfcFrame port pause pr) s = execPfcFrame port pause pr s := rfl
  have hgo : ¬(decide (4 ≤ port) || !((s.oedPort port).linkA || (s.oedPort port).linkB)) = true := by
    rw [(Bool.or_eq_true ..).mpr hup, decide_eq_false (Nat.not_le.mpr hport)]
    decide
  rw [harm, execPfcFrame, if_neg hgo]
  exact (apply_ite Host.Outcome.next ..).symm
theorem exec_oedPortCfg (hport : port < 4) (m : BitVec 2) : exec (.oedPortCfg port m) s
    = .next (if 2 ≤ m.toNat then s.countErr (chipPage 3).1 (chipPage 3).2 else s.writeOedMode port m) := by
  have harm : exec (.oedPortCfg port m) s = execOedPortCfg port m s := rfl
  rw [harm, execOedPortCfg, if_neg (Nat.not_le.mpr hport)]
  exact (apply_ite Host.Outcome.next ..).symm
theorem exec_oedLinkState (hport : port < 4) {sub : Nat} {up : Bool}
    (hlight : up = true → (s.chip 3).dump = false ∧ s.linksStart = true
      ∧ ¬(if (s.oedPort port).mode = 1 then s.oedHalfOut port sub = true else s.oedHalfOut port 0 = true ∧ s.oedHalfOut port 1 = true)) :
    exec (.oedLinkState port sub up) s = .next (if sub = 0 then (s.setOedPort port { s.oedPort port with linkA := up }).oedFlush port
      else if sub = 1 && (s.oedPort port).mode = 1 then (s.setOedPort port { s.oedPort port with linkB := up }).oedFlush port else s) := by
  have harm : exec (.oedLinkState port sub up) s = execOedLinkState port sub up s := rfl
  have hgo : ¬(decide (4 ≤ port) || (up && ((s.chip 3).dump
      || (if (s.oedPort port).mode = 1 then s.oedHalfOut port sub else s.oedHalfOut port 0 && s.oedHalfOut port 1) || !s.linksStart))) = true := by
    rw [decide_eq_false (Nat.not_le.mpr hport)]
    cases up with
    | false => exact Bool.false_ne_true
    | true =>
      obtain ⟨hdump, hstart, hout⟩ := hlight rfl
      have hin : (if (s.oedPort port).mode = 1 then s.oedHalfOut port sub else s.oedHalfOut port 0 && s.oedHalfOut port 1) = false := by
        by_cases hmode : (s.oedPort port).mode = 1
        · rw [if_pos hmode] at hout
          rw [if_pos hmode, Bool.eq_false_iff.mpr hout]
        · rw [if_neg hmode, ← Bool.and_eq_true] at hout
          rw [if_neg hmode, Bool.eq_false_iff.mpr hout]
      rw [hdump, hstart, hin]
      decide
  rw [harm]
  unfold execOedLinkState
  extract_lets y out
  rw [if_neg hgo, apply_ite Host.Outcome.next, apply_ite Host.Outcome.next]
end

end Sys2Proof.Machine

open Sys2Proof Sys2Proof.Machine

/-- Settles O42: a frame that comes is counted, then discarded, delivered or given to management; a frame that goes leaves at once or stays in the queue that a flush leaves. -/
theorem oedFramesAndPorts : Obligations.OedFramesAndPorts := by
  unfold Obligations.OedFramesAndPorts
  refine ⟨fun port b n tagOk corr bad s hport => ?_, fun port s hport => ?_⟩
  · intro y hup s0 p peer key c discarded takes
    have hexec : exec c s = .next (s0.oedFrame port b n tagOk) := exec_oedFrame hport hup corr bad
    have hdiscard : s0.oedFrame port b n tagOk = s0.oedDiscard → discarded := fun h => hexec.trans (congrArg _ h)
    refine ⟨fun hbad => hdiscard (State.oedFrame_of_badHeader hbad), fun hgood hmgmt => ?_, fun hgood hpart => ?_⟩
    · have hframe := State.oedFrame_of_mgmt (s := s0) (port := port) (n := n) (tagOk := tagOk) hgood rfl hmgmt
      exact ⟨fun hyes => hexec.trans (congrArg _ (hframe.trans (if_pos hyes))), fun hno => hdiscard (hframe.trans (if_neg hno))⟩
    · obtain ⟨hnone, hsome⟩ := State.oedFrame_of_part (s := s0) (port := port) (n := n) (tagOk := tagOk) hgood rfl hpart
      refine ⟨fun h => hdiscard (hnone h), fun e he => ?_⟩
      obtain ⟨hno, hyes⟩ := hsome e he
      exact ⟨fun h => hdiscard (hno h), fun h hw => ⟨_, hexec.trans (congrArg _ (hyes ⟨h, hw⟩)), s0.oedDeliver_fields port p _ n⟩⟩
  · intro y discarded answers
    refine ⟨fun hup => ?_, fun m hm hne => ?_, fun m hm => ?_, fun sub up => ?_, fun hdrain hempty => ?_⟩
    · obtain ⟨hsolicit, hecho, hforeign, hother⟩ := exec_icmpv6 hport hup
      have hsent : ∀ body, (s.chip 3).drain.getLsbD port = false → y.paused.getLsbD 0 = false → y.queue = [] →
          (s.oedSend port (oedPlain port body)).oed.sent = { port := port, frame := oedPlain port body } :: s.oed.sent := fun body hdrain hpaused hqueue =>
        State.oedSend_sent hup hdrain hpaused hqueue rfl
      refine ⟨fun b => ⟨_, exec_lldp hport hup b, (State.oedSend_counts ..).2, fun hdrain hpaused hqueue => ?_⟩,
        ⟨_, hsolicit, (s.oedSend_counts ..).1, hsent _⟩, ⟨_, hecho, (s.oedSend_counts ..).1, hsent _⟩, hforeign, hother, fun pr => ?_, fun pr => ?_⟩
      · exact State.oedSend_sent (s := { s with oed := { s.oed with lldpRx := (port, b) :: s.oed.lldpRx } }) hup hdrain hpaused hqueue rfl
      · rw [exec_pfcFrame hport hup, if_pos rfl]
        rfl
      · refine ⟨_, exec_pfcFrame hport hup false pr, ?_⟩
        rw [if_neg Bool.false_ne_true, State.oedFlush_port, State.oedPort_setOedPort]
        refine ⟨rfl, fun f hf => ?_⟩
        have hstuck := (List.mem_filter.mp hf).2
        have hlit : (y.linkA || y.linkB) = true := (Bool.or_eq_true ..).mpr hup
        rw [OedPort.mayStart, hlit, Bool.true_and, Bool.not_not] at hstuck
        exact hstuck
    · rw [exec_oedPortCfg hport, if_neg (Nat.not_le.mpr hm), State.writeOedMode]
      exact congrArg _ (if_neg hne)
    · rw [exec_oedPortCfg hport, if_pos hm]
    · intro out hlight
      have hexec := exec_oedLinkState hport hlight
      refine ⟨fun hsub => ⟨_, hexec, ?_⟩, fun hsub hmode => ⟨_, hexec, ?_⟩⟩
      · rw [if_pos hsub, State.oedFlush_port, State.oedPort_setOedPort]
        exact ⟨rfl, rfl⟩
      · rw [if_neg (by omega), if_pos (by simpa [hsub] using hmode), State.oedFlush_port, State.oedPort_setOedPort]
        exact ⟨rfl, rfl⟩
    · have harm : exec (.oedDrainSafe port) s = execOedDrainSafe port s := rfl
      have hgo : (decide (port < 4) && (s.chip 3).drain.getLsbD port && (s.oedPort port).queue.isEmpty) = true := by
        have hnone : (s.oedPort port).queue = [] := hempty
        rw [hdrain, hnone, decide_eq_true hport]
        rfl
      rw [harm, execOedDrainSafe]
      exact if_pos hgo
end

section
/-! SUPPORT. A ring instruction is accepted and its step armed (spec/10 R318 to R324, R329 to R342). -/

namespace Sys2Proof.Machine

/-! ## What arming leaves -/

theorem MarksFloes.early {s t : State} (h : MarksFloes s t) (f : Nat) : (t.floe f).early = (s.floe f).early := (congrArg Floe.early (h.floe f) :)
theorem MarksFloes.weights {s t : State} (h : MarksFloes s t) (f : Nat) : (t.floe f).weights = (s.floe f).weights := (congrArg Floe.weights (h.floe f) :)

/-- From s to t partitions and times stay, and floes change in their record bytes and error counts at most. -/
structure MarksOnly (s t : State) : Prop where
  parts : t.parts = s.parts
  time : t.time = s.time
  floes : MarksFloes s t
theorem MarksOnly.refl (s : State) : MarksOnly s s := ⟨rfl, rfl, .refl s⟩
theorem MarksOnly.trans {s t u : State} (h : MarksOnly s t) (k : MarksOnly t u) : MarksOnly s u := ⟨k.parts.trans h.parts, k.time.trans h.time, h.floes.trans k.floes⟩
theorem MarksOnly.part {s t : State} (h : MarksOnly s t) (p : Nat) : t.part p = s.part p := State.part_of_parts h.parts p
theorem State.noteRanges_marksOnly {α : Type} (s : State) (who : Option Nat) (errs : Errs) (l : List α) (a n : α → Nat) :
    MarksOnly s (s.each l (fun s r => s.noteRange who errs (a r) (n r))) := by
  have htouch : Touch 0x144039504 s (s.each l (fun s r => s.noteRange who errs (a r) (n r))) :=
    State.each_touch (fun t r h => State.noteRange_touch (Sub.refl _) t who errs (a r) (n r) h) (.refl _ s)
  exact ⟨htouch.parts rfl, htouch.time rfl, .each (fun s r => s.noteRange_marksFloes who errs (a r) (n r)) l s⟩
theorem State.writePlane_marksFloes (s : State) (f lo : Nat) (r : Nat × Nat) (off : Nat) (l : List Byte) : MarksFloes s (s.writePlane f lo r off l) := by
  unfold State.writePlane
  exact .ite (s.put_marksFloes ..) (.refl s)
theorem State.writePlanes_marksFloes (f off : Nat) (l : List Byte) (ranges : List (Nat × Nat)) (s : State) (lo : Nat) :
    MarksFloes s (ranges.foldl (fun acc r => (State.writePlane acc.1 f acc.2 r off l, acc.2 + r.2)) (s, lo)).1 := by
  induction ranges generalizing s lo with
  | nil => exact .refl s
  | cons r rest ih => exact (s.writePlane_marksFloes f lo r off l).trans (ih _ _)
theorem State.writePiece_marksFloes (s : State) (f : Nat) (d : Desc) (br rows off : Nat) (l : List Byte) : MarksFloes s (s.writePiece f d br rows off l) := by
  unfold State.writePiece
  refine (State.writePlanes_marksFloes f off l (d.pieceRanges br rows) s 0).trans (.each (fun s i => ?_) _ _)
  exact .ite (.each (fun s b => .ite (s.putOcc_marksFloes ..) (.refl s)) _ s) (.refl s)
theorem State.ownCopies_marksOnly (s : State) (p : Nat) (t : Step) : MarksOnly s (s.ownCopies p t) := by
  have htouch := State.ownCopies_touch (Sub.refl _) s p t (.refl _ s)
  refine ⟨htouch.parts rfl, htouch.time rfl, ?_⟩
  unfold State.ownCopies
  extract_lets l s1
  split
  · exact s.writePiece_marksFloes ..
  · have hput : MarksFloes s s1 := s.put_marksFloes ..
    exact .ite (.ite (hput.trans (s1.setRecord_marksFloes ..)) hput) (.refl s)
  · have hput : MarksFloes s s1 := s.put_marksFloes ..
    exact .ite (.ite (hput.trans (s1.setRecord_marksFloes ..)) hput) (.refl s)
  · exact .each (fun s e => .ite (s.writePiece_marksFloes ..) (.refl s)) _ s
  all_goals exact .refl s
theorem State.originate_marksOnly {t : Step} (h : t.kind.isTree = false) (s : State) (p : Nat) : MarksOnly s (s.originate p t) := by
  obtain ⟨r, hr⟩ := State.originate_eq (.inl h) s p
  rw [hr]
  exact ⟨rfl, rfl, .of_floes rfl⟩
theorem State.tagKeeper_congr {s t : State} {p : Nat} (himage : (t.part p).image = (s.part p).image) (hgroups : (t.part p).groups = (s.part p).groups) (tag : Nat) :
    t.tagKeeper p tag = s.tagKeeper p tag := by
  unfold State.tagKeeper State.tagUse State.partFloes
  rw [himage, hgroups]
/-- With no packet held for the tag, arming processes none. -/
theorem State.wakeEarly_none {s : State} {p tag : Nat} (h : ∀ q ∈ (s.floe (s.tagKeeper p tag)).early, ¬(q.tag = tag ∧ q.part = p)) :
    s.wakeEarly p tag = s.setFloe (s.tagKeeper p tag) (s.floe (s.tagKeeper p tag)) := by
  unfold State.wakeEarly
  extract_lets f x
  have hheld : x.early.filter (fun q => q.tag == tag && q.part == p) = [] :=
    List.filter_eq_nil_iff.mpr fun q hq => by simpa using h q hq
  have hrest : x.early.filter (fun q => q.tag != tag || q.part != p) = x.early :=
    List.filter_eq_self.mpr fun q hq => by have := h q hq; simp only [Bool.or_eq_true, bne_iff_ne]; tauto
  rw [hheld, hrest]
  rfl

/-! ## The armed step -/

/-- A step as its attempt 0 begins now, bound to an add unit or none. -/
def State.armed (s : State) (t : Step) (unit : Option Nat) : Step :=
  { t with dhash := t.hash, counts := s.ownCounts t, begun := s.now, deadline := s.stepDeadline t.group, addUnit := unit }
theorem Step.hash_armed (s : State) (t : Step) (unit : Option Nat) : (s.armed t unit).hash = t.hash := rfl
theorem State.bindAdd_snd (s : State) (t : Step) (spare : Bool) : ∃ unit, (s.bindAdd t spare).2 = { t with addUnit := unit } := by
  unfold State.bindAdd
  split
  · exact ⟨_, rfl⟩
  · exact ⟨_, rfl⟩
theorem State.bindAdd_marksOnly (s : State) (t : Step) (spare : Bool) : MarksOnly s (s.bindAdd t spare).1 := by
  have htouch := State.bindAdd_touch (Sub.refl _) s t spare (.refl _ s)
  exact ⟨htouch.parts rfl, htouch.time rfl, .of_floes (htouch.floes rfl)⟩
/-- Before a step joins its partition, an add unit may take it. -/
theorem State.bound_spec (s : State) (t : Step) : ∃ s1 unit, MarksOnly s s1 ∧
    (if t.kind.adds then s.bindAdd { t with dhash := t.hash, counts := s.ownCounts t, begun := s.now, deadline := s.stepDeadline t.group } false
      else (s, { t with dhash := t.hash, counts := s.ownCounts t, begun := s.now, deadline := s.stepDeadline t.group })) = (s1, s.armed t unit) := by
  split
  · obtain ⟨unit, hunit⟩ := s.bindAdd_snd { t with dhash := t.hash, counts := s.ownCounts t, begun := s.now, deadline := s.stepDeadline t.group } false
    exact ⟨_, unit, s.bindAdd_marksOnly _ false, Prod.ext rfl hunit⟩
  · exact ⟨s, t.addUnit, .refl s, rfl⟩
/-- Arming a ring step for whose tag no packet is held adds the step, begun now, and marks floes at most. -/
theorem State.steps_of_arm {s : State} {p : Nat} {t : Step} (hring : t.kind.isTree = false)
    (hearly : ∀ q ∈ (s.floe (s.tagKeeper p t.tag)).early, ¬(q.tag = t.tag ∧ q.part = p)) :
    ∃ unit, ((s.arm p t).part p).steps = (s.part p).steps ++ [s.armed t unit] ∧ MarksFloes s (s.arm p t) := by
  obtain ⟨s1, unit, hs1, hbound⟩ := s.bound_spec t
  unfold State.arm
  dsimp only
  rw [hbound]
  dsimp only
  generalize hs2 : s1.setPart p { s1.part p with steps := (s1.part p).steps ++ [s.armed t unit] } = s2
  have hpart2 : s2.part p = { s.part p with steps := (s.part p).steps ++ [s.armed t unit] } := by rw [← hs2, State.part_setPart, hs1.part]
  have hfloes2 : MarksFloes s s2 := hs1.floes.trans (.of_floes (by rw [← hs2]; rfl))
  have hsent := (s2.ownCopies_marksOnly p (s.armed t unit)).trans (State.originate_marksOnly (t := s.armed t unit) hring _ p)
  generalize (s2.ownCopies p (s.armed t unit)).originate p (s.armed t unit) = s3 at hsent ⊢
  have hpart3 : s3.part p = { s.part p with steps := (s.part p).steps ++ [s.armed t unit] } := (hsent.part p).trans hpart2
  have hfloes3 : MarksFloes s s3 := hfloes2.trans hsent.floes
  have hkeeper : s3.tagKeeper p t.tag = s.tagKeeper p t.tag := State.tagKeeper_congr (by rw [hpart3]) (by rw [hpart3]) _
  have hearly3 : ∀ q ∈ (s3.floe (s3.tagKeeper p t.tag)).early, ¬(q.tag = t.tag ∧ q.part = p) := by
    rw [hkeeper, hfloes3.early]
    exact hearly
  have htag : (s.armed t unit).tag = t.tag := rfl
  rw [htag, State.wakeEarly_none hearly3]
  refine ⟨unit, ?_, hfloes3.trans (.setFloe rfl)⟩
  rw [State.part_of_parts (State.setFloe_parts ..), hpart3]

/-! ## Acceptance -/

section
variable {f p : Nat} {st : Stream} {arb : Arb} {w : IWord} {s s1 : State} {x : Floe} {k : StepKind}

/-- The step that a ring instruction asks for. -/
def State.ringStep (s : State) (p f : Nat) (st : Stream) (k : StepKind) (w : IWord) : Step :=
  { floe := f, stream := st, tag := collTag w, kind := k, ch := collCh w, gidx := collGroup w,
    group := (Tbl.find (s.floe f).groups (collGroup w)).getD {}, exch := (Tbl.find (s.floe f).exchs (collGroup w)).getD {},
    dist := collDist w, serial := (s.part p).serial, dSrc := (s.desc f (collSrc w)).getD {}, dDst := (s.desc f (collDst w)).getD {},
    tagSrc := collSrc w, tagDst := collDst w }
theorem ringAccept_of_granted (hpart : s.floePart f = some p) (hwaits : s.ringWaits f w = false)
    (hgranted : Claims.Granted f 4 st arb [collSrc w, collDst w] s s1 x) (hfault : s1.ringFault p f k w = none) :
    ∃ v, (s.ringAccept f st arb k w) = v.arm p (s1.ringStep p f st k w) ∧
      MarksOnly ((((s1.setFloe f x).setFloe f (x.take [collSrc w] [collDst w])).issue f st)) v := by
  have hstep : (s1.setFloe f x).ringStep p f st k w = s1.ringStep p f st k w := by
    unfold State.ringStep
    rw [granted_desc hgranted, granted_desc hgranted, State.floe_setFloe]
    obtain ⟨-, weights, -, rfl⟩ := hgranted
    rfl
  unfold State.ringAccept
  rw [hpart]
  dsimp only
  rw [hwaits, if_neg Bool.false_ne_true, grant_of_granted hgranted hfault, ← hstep, State.floe_setFloe]
  refine ⟨_, ?_, State.noteRanges_marksOnly (((s1.setFloe f x).setFloe f (x.take [collSrc w] [collDst w])).issue f st) (some f) arb.errs
    (((s1.setFloe f x).desc f (collSrc w)).getD {}).planes (fun r => r.1) (fun r => r.2)⟩
  unfold State.ringStep
  rw [State.floe_setFloe]
theorem exec_ring {c : Instr}
    (hc : (k = .allgather ∧ c = .collShiftAllgather f st arb) ∨ (k = .rotate ∧ c = .collShiftRotate f st arb)
      ∨ (k = .reduceScatter ∧ c = .collReduceScatter f st arb) ∨ (k = .allreduce ∧ c = .collAllreduce f st arb)
      ∨ (k = .permute ∧ c = .collPermute f st arb))
    (h : Claims.Head k.code.1 s f st w) (hkind : collKind w = k.code.2) : exec c s = .next (s.ringAccept f st arb k w) ∧ k.isTree = false := by
  have hok : isColl k w = true := by
    obtain ⟨-, hop, -⟩ := h
    rw [isColl, hop, hkind, beq_self_eq_true, beq_self_eq_true, Bool.true_and]
  rcases hc with ⟨rfl, rfl⟩ | ⟨rfl, rfl⟩ | ⟨rfl, rfl⟩ | ⟨rfl, rfl⟩ | ⟨rfl, rfl⟩
  all_goals exact ⟨congrArg Host.Outcome.next (State.inCycle_onHead_of h hok _), rfl⟩
/-- The floe of an accepted instruction that takes tags. -/
theorem accepted_floe {s2 : State} {tags : List Nat} {unit : Nat} {reads writes : List Nat} (hgranted : Claims.Granted f unit st arb tags s s1 x)
    (hfloe : s2.floe f = (x.take reads writes).setStream st (Claims.issued ((x.take reads writes).stream st) (s2.stream f st).fetch)) :
    (s2.floe f).tags = (x.take reads writes).tags ∧ s2.stream f st = Claims.issued (s1.stream f st) (s2.stream f st).fetch
      ∧ (s2.floe f).weights = x.weights ∧ (s2.floe f).early = (s1.floe f).early := by
  have hearly : x.early = (s1.floe f).early := by
    obtain ⟨-, weights, -, rfl⟩ := hgranted
    rfl
  refine ⟨by rw [hfloe, Floe.setStream_tags], ?_, ?_, ?_⟩
  · rw [← granted_stream hgranted, ← Floe.take_stream x reads writes]
    exact (congrArg (Floe.stream · st) hfloe).trans (Floe.setStream_stream ..)
  · rw [hfloe, Floe.take_eq]
    cases st <;> rfl
  · rw [← hearly, hfloe, Floe.take_eq]
    cases st <;> rfl
theorem some_getD_of_eq_some {α : Type} {o : Option α} {a : α} (h : o = some a) (d : α) : some (o.getD d) = o := by rw [h]; rfl
/-- What the absence of a fault says of the operands: both descriptors and the group are there. -/
theorem ringFault_none (h : s.ringFault p f k w = none) :
    (∃ a, s.desc f (collSrc w) = some a) ∧ (∃ b, s.desc f (collDst w) = some b) ∧ ∃ g, Tbl.find (s.floe f).groups (collGroup w) = some g := by
  unfold State.ringFault at h
  split at h
  · rename_i a b ha hb
    refine ⟨⟨a, ha⟩, ⟨b, hb⟩, ?_⟩
    match hg : Tbl.find (s.floe f).groups (collGroup w) with
    | some g => exact ⟨g, rfl⟩
    | none =>
      extract_lets z g n acc at h
      have hz : Tbl.find z.groups (collGroup w) = none := hg
      split at h
      · rename_i hacc
        rw [h] at hacc
        exact absurd hacc (by decide)
      · rw [hz] at h
        exact absurd h (by simp)
  · exact absurd h (by simp)
end
end Sys2Proof.Machine

open Sys2Proof Sys2Proof.Machine

/-- Settles O23: the grant's floe takes the tags, the head is issued, and arming adds the step, which no held packet meets. -/
theorem ringStepsAreArmed : Obligations.RingStepsAreArmed := by
  unfold Obligations.RingStepsAreArmed
  intro f p st arb w s s1 x c k hc hhead hkind hpart hwaits hgranted hfault hearly
  obtain ⟨hexec, hring⟩ := exec_ring hc hhead hkind
  obtain ⟨v, haccept, hv⟩ := ringAccept_of_granted hpart hwaits hgranted hfault
  obtain ⟨⟨a, ha⟩, ⟨b, hb⟩, g, hg⟩ := ringFault_none hfault
  obtain ⟨hother, hfloe⟩ := accepts_issue s1 f st x (x.take [collSrc w] [collDst w])
  obtain ⟨htags, hstream, hweights, hkept⟩ := accepted_floe hgranted hfloe
  generalize ((s1.setFloe f x).setFloe f (x.take [collSrc w] [collDst w])).issue f st = s2 at hv hother hfloe htags hstream hweights hkept
  have hpartv : v.part p = s1.part p := (hv.part p).trans (State.part_of_parts (by rw [hother.1]) p)
  have hnow : v.time = s1.time := hv.time.trans (by rw [hother.1])
  have hearlyv : ∀ g, (v.floe g).early = (s1.floe g).early := fun g => by
    rw [hv.floes.early]
    by_cases hg : g = f
    · rw [hg, hkept]
    · rw [hother.2 g hg]
  have hkeeper : v.tagKeeper p (collTag w) = s1.tagKeeper p (collTag w) := State.tagKeeper_congr (by rw [hpartv]) (by rw [hpartv]) _
  obtain ⟨unit, hsteps, harm⟩ := State.steps_of_arm (s := v) (p := p) (t := s1.ringStep p f st k w) hring (by
    show ∀ q ∈ (v.floe (v.tagKeeper p (collTag w))).early, _
    rw [hkeeper, hearlyv]
    exact hearly)
  refine ⟨_, v.armed (s1.ringStep p f st k w) unit, hexec, ?_⟩
  rw [haccept]
  generalize v.arm p (s1.ringStep p f st k w) = u at hsteps harm
  refine ⟨?_, ?_, ?_, ?_, rfl, rfl, rfl, rfl, rfl, rfl, ?_, ?_, rfl, rfl, ?_, rfl, rfl, rfl, ?_, ?_, rfl⟩
  · rw [harm.stream, hv.floes.stream]
    exact hstream
  · rw [harm.tags, hv.floes.tags, htags]
  · rw [harm.weights, hv.floes.weights, hweights]
  · rw [hsteps, hpartv]
  · exact some_getD_of_eq_some ha _
  · exact some_getD_of_eq_some hb _
  · exact some_getD_of_eq_some hg _
  · exact congrArg TimeSt.systime hnow
  · exact congrArg (fun z => TimeSt.systime z + _) hnow
end

section
/-! SUPPORT. COLL.VERDICT and COLL.STEER are accepted, and steers end (spec/10 R318, R321, R350, R354 to R356). -/

namespace Sys2Proof.Machine

/-! ## COLL.VERDICT -/

section
variable {f p : Nat} {st : Stream} {arb : Arb} {w : IWord} {s s1 : State} {x : Floe} {k : StepKind}

/-- What floe f adds to a verdict. -/
def Floe.verdictIssue (x : Floe) (f : Nat) (st : Stream) (w : IWord) (y : StreamSt) : Issue :=
  { floe := f, stream := st, rreg := verdictRreg w, creg := BitVec.ofNat 8 (y.regLow 8 (verdictCreg w)), nreg := y.reg32 (verdictNreg w), upd := x.vu.isUpd }
/-- The partition's step of a verdict, begun now with the first floe's issue. -/
def State.verdictStep (s : State) (p f : Nat) (st : Stream) (k : StepKind) (w : IWord) (i : Issue) : Step :=
  let t : Step := { floe := f, stream := st, tag := collTag w, kind := k, ch := 1, gidx := collGroup w,
                    group := (Tbl.find (s.floe f).groups (collGroup w)).getD {}, serial := (s.part p).serial, issues := [i] }
  { t with dhash := t.hash, begun := s.now, deadline := s.stepDeadline t.group }
theorem State.verdictStep_deadline (s : State) (p f : Nat) (st : Stream) (k : StepKind) (w : IWord) (i : Issue) :
    (s.verdictStep p f st k w i).deadline = s.stepDeadline (s.verdictStep p f st k w i).group := by
  unfold State.verdictStep
  rfl
/-- A verdict's head is issued: its result register waits, and a commit of a floe without an UPD tells the buddy its total. -/
def State.issueVerdict (s : State) (p f : Nat) (st : Stream) (k : StepKind) (w : IWord) : State :=
  let s1 := (s.setStream f st ((s.stream f st).addPend (verdictRreg w))).issue f st
  if k == .commit && !(s.floe f).vu.isUpd then s1.tellMirror p f else s1
theorem State.tellMirror_parts (s : State) (p f : Nat) : (s.tellMirror p f).parts = s.parts := (State.tellMirror_touch (Sub.refl _) s p f (.refl _ s)).parts rfl
theorem State.tellMirror_stream (s : State) (p f g : Nat) (st : Stream) : (s.tellMirror p f).stream g st = s.stream g st := by
  have h := tellMirror_unsent s p f g
  cases st
  · exact (congrArg Floe.fwd h :)
  · exact (congrArg Floe.bwd h :)
  · exact (congrArg Floe.upd h :)
theorem State.tellMirror_early (s : State) (p f g : Nat) : ((s.tellMirror p f).floe g).early = (s.floe g).early := (congrArg Floe.early (tellMirror_unsent s p f g) :)
theorem State.issue_early (s : State) (f : Nat) (st : Stream) (y : StreamSt) (g : Nat) : ((((s.setStream f st y).issue f st)).floe g).early = (s.floe g).early := by
  have hset : ∀ (s : State) (y : StreamSt), ((s.setStream f st y).floe g).early = (s.floe g).early := fun s y =>
    State.setFloe_keeps (π := Floe.early) (by cases st <;> rfl) g
  exact (hset ..).trans (hset ..)
theorem State.issueVerdict_spec (s : State) (p f : Nat) (st : Stream) (k : StepKind) (w : IWord) :
    (s.issueVerdict p f st k w).parts = s.parts ∧
    (s.issueVerdict p f st k w).stream f st =
      Claims.issued ((s.stream f st).addPend (verdictRreg w)) ((s.issueVerdict p f st k w).stream f st).fetch ∧
    ∀ g, ((s.issueVerdict p f st k w).floe g).early = (s.floe g).early := by
  have hstream := s.setStream_issue_stream f st ((s.stream f st).addPend (verdictRreg w))
  have hearly := s.issue_early f st ((s.stream f st).addPend (verdictRreg w))
  unfold State.issueVerdict
  extract_lets s1
  split
  · exact ⟨State.tellMirror_parts .., by rw [State.tellMirror_stream]; exact hstream, fun g => (State.tellMirror_early ..).trans (hearly g)⟩
  · exact ⟨rfl, hstream, hearly⟩
/-- A granted verdict: its head is issued, and its floe joins the tag's step or begins it. -/
theorem verdictAccept_of_granted (hpart : s.floePart f = some p) (hwaits : s.verdictWaits f st w = false)
    (hgranted : Claims.Granted f 4 st arb [] s s1 x) (hfault : s1.verdictFault p f w = none) :
    let i := x.verdictIssue f st w (s1.stream f st)
    let s2 := (s1.setFloe f x).issueVerdict p f st k w
    s.verdictAccept f st arb k w = match s1.stepOf p (collTag w) with
      | some t => s2.putStep p { t with issues := t.issues ++ [i] }
      | none => (s2.setPart p { s2.part p with steps := (s2.part p).steps ++ [s1.verdictStep p f st k w i] }).wakeEarly p (collTag w) := by
  intro i s2
  have hstep : (s1.setFloe f x).verdictStep p f st k w i = s1.verdictStep p f st k w i := by
    unfold State.verdictStep
    rw [State.floe_setFloe]
    obtain ⟨-, weights, -, rfl⟩ := hgranted
    rfl
  have hissue : ((s1.setFloe f x).floe f).verdictIssue f st w ((s1.setFloe f x).stream f st) = i := by
    rw [granted_state_stream hgranted, State.floe_setFloe]
  unfold State.verdictAccept
  rw [hpart]
  dsimp only
  rw [hwaits, if_neg Bool.false_ne_true, grant_of_granted hgranted hfault, ← hstep, ← hissue]
  rfl
theorem exec_verdict {c : Instr}
    (hc : (k = .commit ∧ c = .collVerdictCommit f st arb) ∨ (k = .norm ∧ c = .collVerdictNorm f st arb) ∨ (k = .barrier ∧ c = .collVerdictBarrier f st arb))
    (h : Claims.Head 0x44 s f st w) (hkind : collKind w = k.code.2) : exec c s = .next (s.verdictAccept f st arb k w) := by
  have hok : opOf w = 0x44 := h.2.1
  rcases hc with ⟨rfl, rfl⟩ | ⟨rfl, rfl⟩ | ⟨rfl, rfl⟩
  all_goals exact congrArg Host.Outcome.next (State.inCycle_onHead_of h (by rw [isColl, hok, hkind]; rfl) _)
theorem verdictFault_none (h : s.verdictFault p f w = none) : ∃ g, Tbl.find (s.floe f).groups (collGroup w) = some g := by
  unfold State.verdictFault at h
  split at h
  · exact absurd h (by simp)
  · rename_i g hg
    exact ⟨g, hg⟩

/-! ## COLL.STEER -/

theorem State.planHold_steers (s : State) (tag : Nat) (plan : BitVec 4) (masks : List DWord) :
    (s.planHold tag plan masks).parts = s.parts ∧ ∀ f st, (s.planHold tag plan masks).stream f st = s.stream f st := by
  have htouch := State.planHold_touch (Sub.refl _) s tag plan masks (.refl _ s)
  exact ⟨htouch.parts rfl, fun f st => by rw [State.stream, State.floe_of_floes (htouch.floes rfl), State.stream]⟩
/-- The steer that the head asks for. -/
def steerOf (f : Nat) (st : Stream) (w : IWord) : Steer := { floe := f, stream := st, rtag := collTag w, plan := fld w 99 96 }
theorem State.steerAccept_spec (s : State) (p f : Nat) (st : Stream) (w : IWord) :
    (s.steerAccept p f st w).stream f st = Claims.issued (s.stream f st) ((s.steerAccept p f st w).stream f st).fetch ∧
    Tbl.find ((s.steerAccept p f st w).part p).steerPlan (collTag w) = some (fld w 99 96) ∧
    ((s.steerAccept p f st w).part p).steers =
      if s.planInForce (fld w 99 96) then (s.part p).steers else (s.part p).steers ++ [steerOf f st w] := by
  have hissue := s.issue_stream f st
  unfold State.steerAccept
  extract_lets plan s1 y s2 z src s3
  have h1 : s1.parts = s.parts := rfl
  have hy : y = s.part p := rfl
  have hforce : s2.planInForce plan = s.planInForce plan := rfl
  have h2 : s2.part p = { s.part p with steerPlan := (s.part p).steerPlan.put (collTag w) plan } := State.part_setPart ..
  have h3 : s3.part p = { s.part p with steerPlan := (s.part p).steerPlan.put (collTag w) plan, steers := (s.part p).steers ++ [z] } := by
    show (s2.setPart p { s2.part p with steers := (s2.part p).steers ++ [z] }).part p = _
    rw [State.part_setPart, h2]
  have hs2 : s2.stream f st = s1.stream f st := rfl
  have hs3 : s3.stream f st = s1.stream f st := rfl
  rw [hforce]
  have hfind := (Tbl.find_put (s.part p).steerPlan (collTag w) (collTag w) plan).trans (if_pos rfl)
  clear_value s2 s3
  split
  · rw [hs2, h2]
    exact ⟨hissue, hfind, rfl⟩
  · have hend : ∀ u : State, u.parts = s3.parts → u.stream f st = s3.stream f st →
        u.stream f st = Claims.issued (s.stream f st) (u.stream f st).fetch ∧ Tbl.find (u.part p).steerPlan (collTag w) = some plan ∧
          (u.part p).steers = (s.part p).steers ++ [z] := fun u hu hst => by
      rw [hst, hs3, State.part_of_parts hu, h3]
      exact ⟨hissue, hfind, rfl⟩
    split
    · obtain ⟨hparts, hstreams⟩ := s3.planHold_steers (collTag w) (BitVec.ofNat 4 plan) (Tbl.get [] ((s3.part p).image.getD {}).plans plan)
      exact hend _ hparts (hstreams f st)
    · exact hend s3 rfl rfl
theorem exec_collSteer (h : Claims.Head 0x43 s f st w) (hpart : s.floePart f = some p) (hwaits : s.steerWaits f = false)
    (hgranted : Claims.Granted f 4 st arb [] s s1 x) (hfault : s1.steerFault p w = none) :
    exec (.collSteer f st arb) s = .next ((s1.setFloe f x).steerAccept p f st w) := by
  have harm : exec (.collSteer f st arb) s = execCollSteer f st arb s := rfl
  rw [harm, execCollSteer, State.inCycle_onHead h, hpart]
  dsimp only
  rw [hwaits, if_neg Bool.false_ne_true, grant_of_granted hgranted hfault]
end

/-! ## STEER_COMPLETE -/

/-- The steers of each partition that a test keeps. -/
def State.keepSteers (s : State) (keep : Steer → Bool) : State :=
  s.each (List.range 8) (fun s p => s.setPart p { s.part p with steers := (s.part p).steers.filter keep })
theorem State.keepSteers_steers (s : State) (keep : Steer → Bool) {p : Nat} (hp : p < 8) :
    ((s.keepSteers keep).part p).steers = (s.part p).steers.filter keep := by
  have honce := State.each_once (Q := fun _ => True) (v := fun s p => (s.part p).steers) (φ := List.filter keep)
    (op := fun s p => s.setPart p { s.part p with steers := (s.part p).steers.filter keep }) (fun _ _ _ => trivial)
    (fun t k _ => by rw [State.part_setPart]) (fun t k j _ hj => by rw [State.part_setPart_ne _ _ hj]) (List.nodup_range (n := 8)) (s := s) trivial p
  exact honce.trans (if_pos (List.mem_range.mpr hp))
theorem exec_steerComplete (s : State) : exec .steerComplete s = .next (s.planDone.wakeWl.keepSteers fun z =>
    !z.due || ((((s.planDone.chip 0).next.toList ++ (s.planDone.chip 0).after).map fun e => e.tag).contains z.rtag)) := by
  have harm : exec .steerComplete s = execSteerComplete s := rfl
  rw [harm, execSteerComplete]
  generalize s.planDone = v
  dsimp only
  rw [State.keepSteers]
theorem contains_map_tag {α : Type} (l : List α) (tag : α → Nat) (n : Nat) : (l.map tag).contains n = l.any (fun e => tag e == n) := by
  induction l with
  | nil => rfl
  | cons a r ih => rw [List.map_cons, List.contains_cons, List.any_cons, ih, Bool.beq_comm]

end Sys2Proof.Machine

open Sys2Proof Sys2Proof.Machine

/-- Settles O24: the verdict's head is issued and its step joined or begun; a steer joins the waiting ones unless its plan is in force; and STEER_COMPLETE keeps the steers that are not due or whose change still waits. -/
theorem verdictsAndSteersAreIssued : Obligations.VerdictsAndSteersAreIssued := by
  unfold Obligations.VerdictsAndSteersAreIssued
  refine ⟨fun f p st arb w s s1 x c k hc hhead hkind hpart hwaits hgranted hfault => ?_,
    fun f p st arb w s s1 x hhead hpart hwaits hgranted hfault => ?_, fun s => ?_⟩
  · intro y i
    have hexec := exec_verdict hc hhead hkind
    rw [verdictAccept_of_granted (k := k) hpart hwaits hgranted hfault] at hexec
    obtain ⟨hparts, hstream, hearly⟩ := (s1.setFloe f x).issueVerdict_spec p f st k w
    rw [granted_state_stream hgranted] at hstream
    generalize (s1.setFloe f x).issueVerdict p f st k w = s2 at hexec hparts hstream hearly
    have hpart2 : s2.part p = s1.part p := State.part_of_parts hparts p
    have hgroups : x.groups = (s1.floe f).groups ∧ x.early = (s1.floe f).early := by
      obtain ⟨-, weights, -, rfl⟩ := hgranted
      exact ⟨rfl, rfl⟩
    refine ⟨fun t ht => ?_, fun hnone hheld => ?_⟩
    · rw [ht] at hexec
      exact ⟨_, hexec, hstream, State.stepOf_putStep ((State.stepOf_of_parts hparts p _).trans ht) (State.tag_of_stepOf (t := t) ht)⟩
    · rw [hnone] at hexec
      obtain ⟨g, hg⟩ := verdictFault_none hfault
      generalize hs3 : s2.setPart p { s2.part p with steps := (s2.part p).steps ++ [s1.verdictStep p f st k w (x.verdictIssue f st w (s1.stream f st))] } = s3 at hexec
      have hpart3 : s3.part p = { s1.part p with steps := (s1.part p).steps ++ [s1.verdictStep p f st k w (x.verdictIssue f st w (s1.stream f st))] } := by
        rw [← hs3, State.part_setPart, hpart2]
      have hkeeper : s3.tagKeeper p (collTag w) = s1.tagKeeper p (collTag w) := State.tagKeeper_congr (by rw [hpart3]) (by rw [hpart3]) _
      have hearly3 : ∀ q ∈ (s3.floe (s3.tagKeeper p (collTag w))).early, ¬(q.tag = collTag w ∧ q.part = p) := by
        have hsame : (s3.floe (s1.tagKeeper p (collTag w))).early = (s1.floe (s1.tagKeeper p (collTag w))).early := by
          rw [← hs3, State.setPart_floe, hearly]
          exact State.setFloe_keeps (π := Floe.early) hgroups.2 _
        rw [hkeeper, hsame]
        exact hheld
      dsimp only at hexec
      rw [State.wakeEarly_none hearly3] at hexec
      have hmarks : MarksFloes s3 (s3.setFloe (s3.tagKeeper p (collTag w)) (s3.floe (s3.tagKeeper p (collTag w)))) := .setFloe rfl
      have hparts4 := State.setFloe_parts s3 (s3.tagKeeper p (collTag w)) (s3.floe (s3.tagKeeper p (collTag w)))
      generalize s3.setFloe (s3.tagKeeper p (collTag w)) (s3.floe (s3.tagKeeper p (collTag w))) = u at hexec hmarks hparts4
      refine ⟨u, s1.verdictStep p f st k w (x.verdictIssue f st w (s1.stream f st)), hexec, ?_, ?_, rfl, rfl, rfl, ?_, rfl, rfl, rfl, rfl, rfl, State.verdictStep_deadline ..⟩
      · rw [hmarks.stream, ← hs3]
        exact hstream
      · rw [State.part_of_parts hparts4, hpart3]
      · rw [hgroups.1]
        exact some_getD_of_eq_some hg _
  · intro plan
    obtain ⟨hstream, hplan, hsteers⟩ := (s1.setFloe f x).steerAccept_spec p f st w
    rw [granted_state_stream hgranted] at hstream
    exact ⟨_, exec_collSteer hhead hpart hwaits hgranted hfault, hstream, hplan, hsteers⟩
  · intro c
    refine ⟨_, exec_steerComplete s, fun p hp => ?_⟩
    have hparts : s.planDone.wakeWl.parts = s.parts :=
      ((State.wakeWl_touch (Sub.refl _) _ (.refl _ _)).parts rfl).trans ((State.planDone_touch (Sub.refl _) s (.refl _ s)).parts rfl)
    rw [State.keepSteers_steers _ _ hp, State.part_of_parts hparts]
    simp only [contains_map_tag, c]
end

section
/-! SUPPORT. What stores into ranges of good storage: a relation that chains, and the pieces of a tensor (spec/08 R238, R244, spec/10 R326, R330). -/

namespace Sys2Proof.Machine

/-! ## Stores into ranges -/

/-- A range lies in the ranges L. -/
def Covers (L : List (Nat × Nat)) (a n : Nat) : Prop := ∀ b, a ≤ b → b < a + n → ∃ r ∈ L, r.1 ≤ b ∧ b < r.1 + r.2
theorem Covers.of_mem {L : List (Nat × Nat)} {r : Nat × Nat} (hr : r ∈ L) {a n : Nat} (hlo : r.1 ≤ a) (hhi : a + n ≤ r.1 + r.2) : Covers L a n :=
  fun _ hb hb' => ⟨r, hr, Nat.le_trans hlo hb, Nat.lt_of_lt_of_le hb' hhi⟩
/-- With good storage, from s to t storage stays good, memory keeps its form, and bytes outside the ranges L read as before. -/
def Stores (L : List (Nat × Nat)) (s t : State) : Prop :=
  Claims.Good s → Memory.wf s.mem = true → Claims.Good t ∧ Memory.wf t.mem = true ∧ Claims.KeepsOutside L s t

section
variable {L : List (Nat × Nat)} {s t u : State}

theorem Stores.refl (s : State) : Stores L s s := fun hs hwf => ⟨hs, hwf, fun _ _ => rfl⟩
theorem Stores.trans (h : Stores L s t) (k : Stores L t u) : Stores L s u := fun hs hwf => by
  obtain ⟨ht, hwft, hkeep⟩ := h hs hwf
  obtain ⟨hu, hwfu, hkeep'⟩ := k ht hwft
  exact ⟨hu, hwfu, fun a ha => (hkeep' a ha).trans (hkeep a ha)⟩
theorem Stores.ite {c : Prop} [Decidable c] (h : Stores L s t) (k : Stores L s u) : Stores L s (if c then t else u) := by
  by_cases hc : c
  · rwa [if_pos hc]
  · rwa [if_neg hc]
/-- As `ite`, each branch under its condition. -/
theorem Stores.dite {c : Prop} [Decidable c] (h : c → Stores L s t) (k : ¬c → Stores L s u) : Stores L s (if c then t else u) := by
  by_cases hc : c
  · rw [if_pos hc]; exact h hc
  · rw [if_neg hc]; exact k hc
/-- What touches neither memory nor the marks of bad storage nor the grants stores nothing. -/
theorem Stores.of_passes (h : Passes s t) : Stores L s t := fun hs hwf => ⟨h.good hs, h.wf hwf, fun a _ => h.byte a⟩
theorem Stores.each {α : Type} {op : State → α → State} {l : List α} (h : ∀ x ∈ l, ∀ s, Stores L s (op s x)) (s : State) : Stores L s (s.each l op) := by
  induction l generalizing s with
  | nil => exact .refl s
  | cons x r ih => exact (h x List.mem_cons_self s).trans (ih (fun y hy => h y (List.mem_cons_of_mem x hy)) _)
theorem Stores.poke {a : Nat} {l : List Byte} (h : Covers L a l.length) (s : State) : Stores L s (s.poke a l) := fun hs hwf =>
  ⟨hs, putBytes_wf a l hwf, fun b hb => State.poke_byte_other hwf (by
    by_contra hin
    obtain ⟨r, hr, hlo, hhi⟩ := h b (by omega) (by omega)
    rcases hb r hr with hbelow | habove
    · omega
    · omega)⟩
theorem Stores.putStep (s : State) (p : Nat) (t : Step) : Stores L s (s.putStep p t) := fun hs hwf => ⟨hs, hwf, fun a _ => State.putStep_byte s p t a⟩
end

/-! ## A floe's write into good storage -/

theorem Tbl.mem_of_find {α : Type} {t : Tbl α} {k : Nat} {v : α} (h : Tbl.find t k = some v) : (k, v) ∈ t := by
  induction t with
  | nil => cases h
  | cons e r ih =>
    rw [Tbl.find] at h
    split at h
    · rename_i hk
      obtain rfl := Option.some.inj h
      exact hk ▸ List.mem_cons_self
    · exact List.mem_cons_of_mem _ (ih h)
section
variable {s : State} (hs : Claims.Good s)
include hs
theorem Good.cxl_late (k : Nat) : (s.cxl k).late = [] := by
  obtain ⟨-, -, -, hcxl⟩ := hs
  match hk : Tbl.find s.cxls k with
  | none => rw [State.cxl, Tbl.get, hk]; rfl
  | some c => rw [State.cxl, Tbl.get, hk]; exact (hcxl _ (Tbl.mem_of_find hk)).1
theorem Good.lateAt (b : Nat) : s.lateAt b = false := by rw [State.lateAt, Good.cxl_late hs]; exact Bool.and_false _
theorem Good.dueAt (b : Nat) : s.dueAt b = false := by
  obtain ⟨-, -, hdue, -⟩ := hs
  rw [State.dueAt, hdue]
  simp
theorem Good.writeFails (b : Nat) : s.writeFails [] b = false := by rw [State.writeFails, Good.dueAt hs]; rfl
/-- A unit with a working device behind it reads as good. -/
theorem Good.unitBad {b : Nat} (hlost : s.lostAt b = false) : s.unitBad [] b = false := by
  obtain ⟨hsp, hpoison, -, -⟩ := id hs
  rw [State.unitBad, Good.lateAt hs, Good.dueAt hs, hsp, hpoison, hlost]
  by_cases hb : isSp b = true
  · rw [if_pos hb]; rfl
  · rw [if_neg hb]; rfl
theorem Good.unitBad_isSp {b : Nat} (hb : isSp b = true) : s.unitBad [] b = false := by
  obtain ⟨hsp, -⟩ := hs
  rw [State.unitBad, if_pos hb, hsp]
  rfl
omit hs in
theorem State.noteRetries_nil (b : Nat) : s.noteRetries [] b = s := by
  unfold State.noteRetries
  exact if_pos rfl
omit hs in
theorem State.noteUnit_of_good {b : Nat} (h : s.unitBad [] b = false) (who : Option Nat) : s.noteUnit who [] b = s := by
  rw [State.noteUnit, State.noteRetries_nil]
  simp only [h]
  rfl
/-- A unit of good storage is open for a write as it is. -/
theorem Good.openUnit (who : Option Nat) (a n b : Nat) : Passes s (s.openUnit who [] a n b).1 := by
  obtain ⟨hsp, hpoison, -, -⟩ := id hs
  have hsame : { s with spBad := s.spBad.filter (fun x => x ≠ b) } = s := by rw [hsp]; exact congrArg (fun l => { s with spBad := l }) hsp.symm
  have hclean : { s with poison := subRange s.poison b (b + 64) } = s := by rw [hpoison]; exact congrArg (fun l => { s with poison := l }) hpoison.symm
  unfold State.openUnit
  extract_lets z whole s1 s2 poked s3
  by_cases hb : isSp b = true
  · have hbad := Good.unitBad_isSp hs hb
    have hs1 : s1 = s := (if_congr Iff.rfl rfl (State.noteUnit_of_good hbad _)).trans (ite_self s)
    rw [if_pos hb, hbad, Bool.not_false, Bool.or_true, if_pos rfl, hs1, hsame]
    exact .refl _ s
  · rw [if_neg hb]
    by_cases hlost : s.lostAt b = true
    · rw [if_pos hlost]
      exact State.recordLine_touch ((Sub.refl 0x104040004).of rfl) s who b (.refl _ s)
    · have hbad := Good.unitBad hs (Bool.eq_false_iff.mpr hlost)
      have hs3 : s3 = s := State.noteRetries_nil b
      rw [if_neg hlost, Good.lateAt hs, hbad, Good.writeFails hs, if_neg Bool.false_ne_true, if_neg Bool.false_ne_true, if_neg Bool.false_ne_true,
        if_neg Bool.false_ne_true, State.noteUnit_of_good hbad, hs3, hclean]
      split
      · exact .refl _ s
      · exact .refl _ s
end
theorem Good.openUnits (who : Option Nat) (a n : Nat) (l : List Nat) {s : State} (hs : Claims.Good s) : Passes s (s.openUnits who [] a n l).1 := by
  induction l generalizing s with
  | nil => exact .refl _ s
  | cons b r ih =>
    have h := Good.openUnit hs who a n b
    exact h.trans (ih (h.good hs))
/-- A write into good storage stores at most its bytes; one to an address without a device stores nothing. -/
theorem Stores.writeMem {L : List (Nat × Nat)} {a : Nat} {l : List Byte} (h : Covers L a l.length) (who : Option Nat) (s : State) :
    Stores L s (s.writeMem who [] a l).1 := fun hs hwf => by
  rw [State.writeMem, State.allGood_of_good hs]
  by_cases hlost : s.lostAt a = true
  · rw [if_neg (by rw [hlost]; decide), hlost]
    exact Stores.of_passes (Good.openUnits who a l.length (unitBases a l.length) hs) hs hwf
  · rw [if_pos (by rw [Bool.eq_false_iff.mpr hlost]; rfl)]
    exact Stores.poke h s hs hwf
theorem Stores.put {L : List (Nat × Nat)} {a : Nat} {l : List Byte} (h : Covers L a l.length) (f : Nat) (s : State) : Stores L s (s.put f a l) :=
  Stores.writeMem h (some f) s

/-! ## Pieces of a tensor (spec/10 R329, R330, R341) -/

theorem Stores.writePlane {L : List (Nat × Nat)} {r : Nat × Nat} (hr : r ∈ L) (f lo off : Nat) (l : List Byte) (s : State) :
    Stores L s (s.writePlane f lo r off l) := by
  unfold State.writePlane
  extract_lets a b
  refine .dite (fun hab => ?_) fun _ => .refl s
  refine .put (.of_mem hr (Nat.le_add_right ..) ?_) f s
  have hlen : (sliceB l (a - off) (b - a)).length ≤ b - a := by rw [sliceB, List.length_take]; exact Nat.min_le_left ..
  have hlo : lo ≤ a := Nat.le_max_left ..
  have hhi : b ≤ lo + r.2 := Nat.min_le_left ..
  omega
theorem Stores.writePlanes {L : List (Nat × Nat)} (f off : Nat) (l : List Byte) (ranges : List (Nat × Nat)) (hranges : ∀ r ∈ ranges, r ∈ L) (s : State) (lo : Nat) :
    Stores L s (ranges.foldl (fun acc r => (State.writePlane acc.1 f acc.2 r off l, acc.2 + r.2)) (s, lo)).1 := by
  induction ranges generalizing s lo with
  | nil => exact .refl s
  | cons r rest ih => exact (Stores.writePlane (hranges r List.mem_cons_self) f lo off l s).trans (ih (fun r hr => hranges r (List.mem_cons_of_mem _ hr)) _ _)
/-- The byte of a block's occupancy bit. -/
theorem Stores.putOcc {L : List (Nat × Nat)} {d : Desc} {b : Nat} (h : Covers L (d.occBase + b / 8) 1) (f : Nat) (v : Bool) (s : State) : Stores L s (s.putOcc f d b v) :=
  Stores.put h f s
/-- Bytes at an offset of a piece go to the piece. -/
theorem Stores.writePiece (f : Nat) (d : Desc) (br rows off : Nat) (l : List Byte) (s : State) : Stores (Claims.pieceBytes d br rows) s (s.writePiece f d br rows off l) := by
  unfold State.writePiece
  refine (Stores.writePlanes f off l (d.pieceRanges br rows) (fun r hr => List.mem_append_left _ hr) s 0).trans (Stores.each (fun i _ s => ?_) _)
  refine .dite (fun hocc => Stores.each (fun b _ s => .dite (fun hn => ?_) fun _ => .refl s) s) fun _ => .refl s
  have hd : d.occ = true := (Bool.and_eq_true_iff.mp hocc).2
  refine .putOcc (.of_mem (List.mem_append_right _ (by rw [if_pos hd]; exact List.mem_singleton_self _)) ?_ ?_) f _ s
  · dsimp only
    omega
  · dsimp only
    omega

/-! ## SHIFT and PERMUTE packets -/

theorem State.writePiece_stepOf (s : State) (f : Nat) (d : Desc) (br rows off : Nat) (l : List Byte) (p tag : Nat) :
    (s.writePiece f d br rows off l).stepOf p tag = s.stepOf p tag :=
  State.stepOf_of_parts ((State.writePiece_touch (Sub.refl _) s f d br rows off l (.refl _ s)).parts rfl) p tag
/-- What a delivery writes into a piece stays in the piece, and it is counted. -/
theorem State.deliver_piece {s u : State} (h : Passes s u) (hs : Claims.Good s) (hwf : Memory.wf s.mem = true) {p tag : Nat} {t : Step}
    (hstep : u.stepOf p tag = some t) (hopen : t.complete = false) (key n br rows off : Nat) (l : List Byte) :
    (u.deliver p t key n (fun s => s.writePiece t.floe t.dDst br rows off l)).stepOf p tag = some (t.count key n)
      ∧ Claims.KeepsOutside (Claims.pieceBytes t.dDst br rows) s (u.deliver p t key n (fun s => s.writePiece t.floe t.dDst br rows off l)) := by
  rw [State.deliver, hopen, if_neg Bool.false_ne_true]
  have htag : t.tag = tag := State.tag_of_stepOf hstep
  have hstores : Stores (Claims.pieceBytes t.dDst br rows) s ((u.writePiece t.floe t.dDst br rows off l).putStep p (t.count key n)) :=
    (Stores.of_passes h).trans ((Stores.writePiece t.floe t.dDst br rows off l u).trans (Stores.putStep _ p _))
  exact ⟨State.stepOf_putStep ((State.writePiece_stepOf ..).trans hstep) htag, (hstores hs hwf).2.2⟩
/-- A SHIFT or PERMUTE packet that fits its armed step is used. -/
theorem exec_data {typ : Nat} {c : Instr} (hc : (c = .shift ∧ typ = 1) ∨ (c = .permute ∧ typ = 3)) {s s1 : State} {q : MeshPkt} {t : Step}
    (hfits : Claims.Fits q t) (harmed : Claims.Armed (fun q => q.typ == typ) s s1 q t) (htree : s1.tagUse q.part q.tag ≠ some .tree) :
    ∃ u, Passes s u ∧ u.stepOf q.part q.tag = some t ∧ exec c s = .next (u.usePkt q.part t q false false) := by
  obtain ⟨⟨a, htake, rfl, hstomp⟩, hin, hmirror, htag, hstep, hkept⟩ := harmed
  obtain ⟨htyp, hpass⟩ := State.takePkt_eq_some htake
  have htyp : a.p.typ = typ := by simpa using htyp
  have hdata : typ ≠ 4 ∧ typ ≠ 5 := by
    rcases hc with ⟨-, rfl⟩ | ⟨-, rfl⟩
    all_goals decide
  have hof := State.armedFor_eq_some hstep
  have hsaw := Passes.sawAttempt s1 a.p.part t.tag t.serial a.p.attempt
  refine ⟨s1.sawAttempt a.p.part t.tag t.serial a.p.attempt, hpass.trans hsaw, (hsaw.stepOf _ _).trans hof, ?_⟩
  obtain ⟨use, huse⟩ := Option.ne_none_iff_exists'.mp htag
  have hring : (use == TagUse.tree) = false := by
    rw [huse] at htree
    simpa using htree
  have hpkt : s1.collPkt a.p a.stomp false = s1.armedPkt a.p.part t a.p false false := by
    rw [State.collPkt]
    simp [hin, hmirror, huse, hring, htyp, hstep, hstomp, hdata.1, hdata.2]
  have hexec : exec c s = .next (s.onPkt (fun q => q.typ == typ) (fun s a => s.collPkt a.p a.stomp false)) := by
    rcases hc with ⟨rfl, rfl⟩ | ⟨rfl, rfl⟩
    · rfl
    · rfl
  rw [hexec, State.onPkt, htake, ← State.armedPkt_fits (by rwa [State.tag_of_stepOf hof]) hfits hkept]
  exact congrArg Host.Outcome.next hpkt

end Sys2Proof.Machine

open Sys2Proof Sys2Proof.Machine

/-- Settles O27: taking and passing a packet on leave partitions and storage, so a packet that fits finds its step; what it brings is written into its piece and counted. -/
theorem dataPacketsAreCounted : Obligations.DataPacketsAreCounted := by
  unfold Obligations.DataPacketsAreCounted
  intro s s1 q t hfits hs hwf n p
  have hopen : t.complete = false := hfits.2.2.2.2
  refine ⟨fun harmed htree hkind => ?_, fun harmed htree hkind => ?_, fun harmed htree hkind => ?_⟩
  · obtain ⟨u, hpass, hstep, hexec⟩ := exec_data (.inl ⟨rfl, rfl⟩) hfits harmed htree
    have hcopy : Passes u (if t.up = q.member then u else u.copyOn t q false) := by
      split
      · exact .refl _ u
      · exact .copyOn ..
    rw [State.usePkt, hkind] at hexec
    exact ⟨_, hexec, State.deliver_piece (hpass.trans hcopy) hs hwf ((hcopy.stepOf _ _).trans hstep) hopen ..⟩
  · obtain ⟨u, hpass, hstep, hexec⟩ := exec_data (.inl ⟨rfl, rfl⟩) hfits harmed htree
    rw [State.usePkt, hkind] at hexec
    refine ⟨_, hexec, fun hhere => ?_, fun haway => ?_⟩
    · rw [if_neg (not_not_intro hhere)]
      exact State.deliver_piece hpass hs hwf hstep hopen ..
    · rw [if_pos haway]
      have hon := Passes.passOn u t q false
      exact ⟨(hon.stepOf _ _).trans hstep, (hpass.trans hon).mem rfl⟩
  · obtain ⟨u, hpass, hstep, hexec⟩ := exec_data (.inr ⟨rfl, rfl⟩) hfits harmed htree
    rw [State.usePkt, hkind] at hexec
    exact ⟨_, hexec, State.deliver_piece hpass hs hwf hstep hopen ..⟩
end

section
/-! SUPPORT. MIRROR and BULK packets arrive (spec/07 R228 to R231, spec/10 R357, spec/09 R299, R300). -/

namespace Sys2Proof.Machine

/-- What a partition holds besides its grant does not bear on what bytes read as. -/
theorem State.setPart_byte {s : State} {p : Nat} {x : Part} (hheld : x.held = (s.part p).held) (hholds : ∀ a, x.holds a = (s.part p).holds a)
    (hclaim : x.claimNo = (s.part p).claimNo) (a : Nat) : (s.setPart p x).byte a = s.byte a := by
  have hsame : ∀ q, ((s.setPart p x).part q).held = (s.part q).held ∧ ((s.setPart p x).part q).holds a = (s.part q).holds a
      ∧ ((s.setPart p x).part q).claimNo = (s.part q).claimNo := fun q => by
    by_cases hq : q = p
    · rw [hq, State.part_setPart]
      exact ⟨hheld, hholds a, hclaim⟩
    · rw [State.part_setPart_ne _ _ hq]
      exact ⟨rfl, rfl, rfl⟩
  have hblank : (s.setPart p x).blank a = s.blank a := by
    simp only [State.blank, State.unitHolder, (hsame _).1, (hsame _).2.1, (hsame _).2.2]
  rw [State.byte, State.byte, hblank]
  rfl
/-- A good write stands at its place. -/
theorem State.poke_stored {s : State} (hwf : Memory.wf s.mem = true) (a : Nat) (l : List Byte) : Claims.Stored a l s (s.poke a l) := by
  refine ⟨fun i hi => ?_, fun b hb => State.poke_byte_other hwf (hb _ (List.mem_singleton_self _))⟩
  rw [State.poke_byte_in hwf (Nat.le_add_right ..) (Nat.add_lt_add_left hi a), Nat.add_sub_cancel_left, List.getD_eq_getElem?_getD, List.getElem?_eq_getElem hi]
  rfl
theorem Stored.of_bytes {a : Nat} {l : List Byte} {s s' t t' : State} (h : Claims.Stored a l s t) (hs : ∀ b, s.byte b = s'.byte b) (ht : ∀ b, t'.byte b = t.byte b) :
    Claims.Stored a l s' t' := by
  obtain ⟨hin, hout⟩ := h
  exact ⟨fun i hi => by rw [ht]; exact hin i hi, fun b hb => by rw [ht, ← hs]; exact hout b hb⟩

/-- The partition's count of a sender's bytes with n more. -/
def Part.gotMirror (x : Part) (k n : Nat) : Part := { x with mirGot := x.mirGot.put k (Tbl.get 0 x.mirGot k + n) }
/-- A good MIRROR packet whose place the map names and the grant holds is written and counted; the answer, where its total is there, touches the router alone. -/
theorem State.mirrorIn_fits {s : State} {p : Nat} {q : MeshPkt} {e : Nat × Nat × Nat × Nat} (hs : Claims.Good s) (hstep : q.step = (s.part p).serial)
    (hmap : (((s.part p).image.getD {}).mirMap).find? (fun e => e.1 == q.member && e.2.1 == q.tag) = some e)
    (hgrant : s.accessFault p ((if (s.part p).mirHalf then e.2.2.1 else e.2.2.2) + q.offset) q.payload.length = none)
    (hlost : s.lostAt ((if (s.part p).mirHalf then e.2.2.1 else e.2.2.2) + q.offset) = false) :
    Tbl.get 0 ((s.mirrorIn p q).part p).mirGot (mirKey q) = Tbl.get 0 (s.part p).mirGot (mirKey q) + q.payload.length ∧
    ∀ b, (s.mirrorIn p q).byte b = (s.poke ((if (s.part p).mirHalf then e.2.2.1 else e.2.2.2) + q.offset) q.payload).byte b := by
  unfold State.mirrorIn
  extract_lets x n
  rw [if_neg (by rw [bne_iff_ne]; exact not_not_intro hstep), hmap]
  dsimp only
  rw [hgrant, if_neg (by decide), State.writeMem_of_allGood (State.allGood_of_good hs _) hlost]
  dsimp only
  generalize hs1 : s.poke ((if x.mirHalf then e.2.2.1 else e.2.2.2) + q.offset) q.payload = s1
  have hpart1 : s1.part p = x := by rw [← hs1]; rfl
  rw [hpart1]
  have hcount : Tbl.get 0 (x.gotMirror (mirKey q) n).mirGot (mirKey q) = Tbl.get 0 x.mirGot (mirKey q) + n := Tbl.get_put_same ..
  have hbyte : ∀ b, (s1.setPart p (x.gotMirror (mirKey q) n)).byte b = s1.byte b :=
    State.setPart_byte (by rw [hpart1]; rfl) (fun a => by rw [hpart1]; rfl) (by rw [hpart1]; rfl)
  have hpart2 : (s1.setPart p (x.gotMirror (mirKey q) n)).part p = x.gotMirror (mirKey q) n := State.part_setPart ..
  split
  · have hanswer : ∀ (u : State) kind reason total, (u.answerMirror p q kind reason total).parts = u.parts ∧ ∀ b, (u.answerMirror p q kind reason total).byte b = u.byte b := fun u kind reason total => by
      have h : Passes u (u.answerMirror p q kind reason total) := State.answerMirror_touch ((Sub.refl 0x104040004).of rfl) u p q kind reason total (.refl _ u)
      exact ⟨h.parts rfl, h.byte⟩
    refine ⟨?_, fun b => ?_⟩
    · rw [State.part_of_parts (hanswer ..).1, State.part_setPart]
      exact (congrArg (fun y => Tbl.get 0 (Part.mirGot y) (mirKey q)) hpart2).trans hcount
    · rw [(hanswer ..).2]
      refine (State.setPart_byte ?_ (fun a => ?_) ?_ b).trans (hbyte b)
      all_goals rfl
  · refine ⟨?_, hbyte⟩
    exact (congrArg (fun y => Tbl.get 0 (Part.mirGot y) (mirKey q)) hpart2).trans hcount

end Sys2Proof.Machine

open Sys2Proof Sys2Proof.Machine

/-- Settles O30: a MIRROR packet of the step is written at its place in the non-current half and counted; a BULK packet is only taken, as log 33 reads it. -/
theorem mirrorAndBulkArrive : Obligations.MirrorAndBulkArrive := by
  unfold Obligations.MirrorAndBulkArrive
  refine ⟨fun s s1 a e => ?_, fun s s1 a htake hto => ?_⟩
  · intro q p x htake hin hstep hmap at0 hgrant hs hlost hwf
    obtain ⟨-, hpass⟩ := State.takePkt_eq_some htake
    have hpart : s1.part p = x := State.part_of_parts (hpass.parts rfl) p
    have hin1 : s1.inStep p = true := by rw [State.inStep, hpart]; exact hin
    have hlost1 : s1.lostAt at0 = false := by
      rw [State.lostAt, State.window, State.cxl, hpass.cxls rfl]
      exact hlost
    obtain ⟨hcount, hbyte⟩ := State.mirrorIn_fits (s := s1) (p := p) (q := q) (e := e) (hpass.good hs) (by rw [hpart]; exact hstep) (by rw [hpart]; exact hmap)
      (by rw [hpart]; exact hgrant) (by rw [hpart]; exact hlost1)
    rw [hpart] at hcount hbyte
    refine ⟨s1.mirrorIn p q, ?_, hcount, ?_⟩
    · have hexec : exec .mirror s = .next (s.onPkt (fun q => q.typ == 6 && q.step != (s.part q.part).serial + 1) (fun s a =>
          if s.inStep a.p.part then s.mirrorIn a.p.part a.p else s.discard 9)) := rfl
      rw [hexec, State.onPkt, htake]
      exact congrArg Host.Outcome.next (if_pos hin1)
    · exact Stored.of_bytes (State.poke_stored (hpass.wf hwf) at0 q.payload) hpass.byte hbyte
  · obtain ⟨-, hpass⟩ := State.takePkt_eq_some htake
    have hto1 : (idMgmt (idOf a.p.dst) || s1.inStep a.p.part) = true := by
      rw [State.inStep, State.part_of_parts (hpass.parts rfl)]
      exact Bool.or_eq_true_iff.mpr hto
    have hexec : exec .bulk s = .next (s.onPkt (fun q => q.typ == 7) (fun s a => if idMgmt (idOf a.p.dst) || s.inStep a.p.part then s else s.discard 9)) := rfl
    rw [hexec, State.onPkt, htake]
    exact congrArg Host.Outcome.next (if_pos hto1)
end

section
/-! SUPPORT. Verdict packets and notices at an armed step (spec/10 R327, R328, R344 to R348, R351). -/

namespace Sys2Proof.Machine

/-! ## A packet of an armed step is handled -/

section
variable {s s1 : State} {q : MeshPkt} {t : Step} {g : MeshPkt → Bool}

/-- A verdict packet of an armed verdict goes to its step. -/
theorem exec_verdict_armed (harmed : Claims.Armed (fun q => q.typ == 4) s s1 q t) (htree : s1.tagUse q.part q.tag = some .tree) :
    exec .verdict s = .next (s1.verdictPkt q.part t q) ∧ Passes s s1 ∧ s1.stepOf q.part q.tag = some t := by
  obtain ⟨⟨a, htake, rfl, hstomp⟩, hin, hmirror, -, hstep, -⟩ := harmed
  obtain ⟨htyp, hpass⟩ := State.takePkt_eq_some htake
  have htyp : a.p.typ = 4 := by simpa using htyp
  refine ⟨?_, hpass, State.armedFor_eq_some hstep⟩
  have harm : exec .verdict s = .next (s.onPkt (fun q => q.typ == 4) (fun s a => s.collPkt a.p a.stomp false)) := rfl
  rw [harm, State.onPkt, htake]
  refine congrArg Host.Outcome.next ?_
  unfold State.collPkt
  simp [hin, hmirror, htree, htyp, hstep]
/-- A notice at an armed step goes to it. -/
theorem State.onPkt_notice {k : Nat} (hg : ∀ q, g q = true → q.typ = 5 ∧ noticeKind q = k) (harmed : Claims.Armed g s s1 q t) :
    s.onPkt g (fun s a => s.collPkt a.p a.stomp false) = s1.armedNotice q.part t q ∧ Passes s s1 ∧ s1.stepOf q.part q.tag = some t ∧ noticeKind q = k := by
  obtain ⟨⟨a, htake, rfl, hstomp⟩, hin, hmirror, htag, hstep, -⟩ := harmed
  obtain ⟨hof, hpass⟩ := State.takePkt_eq_some htake
  obtain ⟨htyp, hkind⟩ := hg a.p hof
  obtain ⟨use, huse⟩ := Option.ne_none_iff_exists'.mp htag
  refine ⟨?_, hpass, State.armedFor_eq_some hstep, hkind⟩
  rw [State.onPkt, htake]
  show s1.collPkt a.p a.stomp false = _
  unfold State.collPkt
  simp [hin, hmirror, huse, htyp, hstep]
end

/-! ## Verdict packets (spec/10 R351) -/

section
variable {s : State} {p : Nat} {q : MeshPkt} {t : Step}

/-- What a verdict packet brings its step: a child's report, or the parent's result. -/
def State.useVerdict (s : State) (p : Nat) (t : Step) (q : MeshPkt) : State :=
  let tres := beAt q.payload 12 8
  if tres ≠ 0 then
    (if t.group.parent != noEp && sameMember t.group.parent (epOfAddr q.src) then s.gotResult p t (readVerdict q.payload) (BitVec.ofNat 64 tres) q.member
     else s.discard 15)
  else match (List.range t.group.childs.length).find? (fun i => sameMember (t.group.childs.getD i noEp) (epOfAddr q.src)) with
    | some i => (s.putStep p { t with reports := t.reports.put i (readVerdict q.payload) }).report p { t with reports := t.reports.put i (readVerdict q.payload) }
    | none => s.discard 15
/-- A verdict packet of the attempt and hash of its step is used. -/
theorem State.verdictPkt_fits (hstep : s.stepOf p t.tag = some t) (hkept : t.abandoned = false) (hattempt : q.attempt = t.attempt) (hhash : q.dhash = t.dhash)
    (hslow : q.slow = false) : s.verdictPkt p t q = (s.sawAttempt p t.tag t.serial q.attempt).useVerdict p t q := by
  have hstep0 : (s.sawAttempt p t.tag t.serial q.attempt).stepOf p t.tag = some t := ((Passes.sawAttempt ..).stepOf p t.tag).trans hstep
  unfold State.verdictPkt
  extract_lets s0 s1 s2 t1 sender tres
  have hs1 : s1 = s0 := if_neg (by rw [hattempt]; exact Nat.lt_irrefl _)
  have hs2 : s2 = s0 := (if_neg (by rw [hslow]; decide)).trans hs1
  have ht1 : t1 = t := by
    show (s2.stepOf p t.tag).getD t = t
    rw [hs2, hstep0]
    rfl
  rw [if_neg (by simp [hkept, hattempt]), if_neg (by simp [hhash]), hs2, ht1]
  rfl
theorem State.useVerdict_child {i : Nat} (htres : beAt q.payload 12 8 = 0) (hi : i < t.group.childs.length)
    (hmember : sameMember (t.group.childs.getD i noEp) (epOfAddr q.src) = true) (hfirst : ∀ j < i, sameMember (t.group.childs.getD j noEp) (epOfAddr q.src) = false) :
    s.useVerdict p t q = (s.putStep p { t with reports := t.reports.put i (readVerdict q.payload) }).report p { t with reports := t.reports.put i (readVerdict q.payload) } := by
  have hfind : (List.range t.group.childs.length).find? (fun i => sameMember (t.group.childs.getD i noEp) (epOfAddr q.src)) = some i := by
    rw [List.find?_range_eq_some]
    exact ⟨hmember, List.mem_range.mpr hi, fun j hj => by rw [hfirst j hj]; rfl⟩
  unfold State.useVerdict
  extract_lets tres
  rw [if_neg (not_not_intro htres), hfind]
theorem State.useVerdict_parent (htres : beAt q.payload 12 8 ≠ 0) (hparent : t.group.parent ≠ noEp ∧ sameMember t.group.parent (epOfAddr q.src) = true) :
    s.useVerdict p t q = s.gotResult p t (readVerdict q.payload) (BitVec.ofNat 64 (beAt q.payload 12 8)) q.member := by
  unfold State.useVerdict
  extract_lets tres
  rw [if_pos htres, if_pos (by simpa using hparent)]
theorem State.useVerdict_refused (h : beAt q.payload 12 8 ≠ 0 ∧ ¬(t.group.parent ≠ noEp ∧ sameMember t.group.parent (epOfAddr q.src) = true)
      ∨ beAt q.payload 12 8 = 0 ∧ ∀ c ∈ t.group.childs, sameMember c (epOfAddr q.src) = false) : s.useVerdict p t q = s.discard 15 := by
  unfold State.useVerdict
  extract_lets tres
  rcases h with ⟨htres, hparent⟩ | ⟨htres, hnone⟩
  · rw [if_pos htres, if_neg (by simpa using hparent)]
  · have hfind : (List.range t.group.childs.length).find? (fun i => sameMember (t.group.childs.getD i noEp) (epOfAddr q.src)) = none := by
      rw [List.find?_eq_none]
      intro i hi
      have hlen := List.mem_range.mp hi
      rw [List.getD_eq_getElem?_getD, List.getElem?_eq_getElem hlen, Option.getD_some, hnone _ (List.getElem_mem hlen)]
      decide
    rw [if_neg (not_not_intro htres), hfind]
/-- A report, sent on or held, leaves the reports of the step. -/
theorem State.report_reports (hstep : s.stepOf p t.tag = some t)
    (htime : t.group.parent = noEp → s.now.toNat + 60 + 1000 * t.group.guard < 2 ^ 64) : ∃ t1, (s.report p t).stepOf p t.tag = some t1 ∧ t1.reports = t.reports := by
  match hreports : t.childReports with
  | none => exact ⟨t, by rw [State.report_waits hreports]; exact hstep, rfl⟩
  | some l =>
    match hmine : t.mine with
    | none => exact ⟨t, by rw [State.report, hmine]; exact hstep, rfl⟩
    | some m =>
      by_cases hroot : t.group.parent = noEp
      · exact ⟨_, State.report_root hstep hmine hreports hroot (htime hroot), rfl⟩
      · obtain ⟨r, hr⟩ := State.report_member (s := s) hreports hroot p
        exact ⟨t, by rw [hr]; exact hstep, rfl⟩
/-- A result that comes after its moment applies at once: a norm or barrier ends with its key. -/
theorem State.gotResult_late {tres : DWord} (hlate : tres.toNat < s.now.toNat) (hkind : t.kind = .norm ∨ t.kind = .barrier) (v : VVal) (origin : Nat) :
    (s.gotResult p t v tres origin).stepOf p t.tag = none ∧ ((s.gotResult p t v tres origin).part p).lastKey = v.key := by
  unfold State.gotResult
  extract_lets late t1 s1 s2 s3 s4
  have hl : late = true := decide_eq_true hlate
  rw [hl, if_pos rfl]
  clear_value s4
  have hcommit : t1.kind ≠ .commit := by
    show t.kind ≠ .commit
    rcases hkind with h | h
    all_goals rw [h]; decide
  obtain ⟨steers, hsteer⟩ := s4.steerNow_part p t1.tag
  obtain ⟨pausing, hpause⟩ := (s4.endVerdict p t1).pauseCheck_part p
  rw [State.endVerdict_eq (v := v) (tres := tres) rfl (fun h => hcommit h.1), if_neg hcommit] at hpause ⊢
  rw [State.closeVerdict_part] at hpause
  exact ⟨State.stepOf_eq_none_of_filter (s := s4.steerNow p t1.tag) (by rw [hpause]), by rw [hpause]⟩
end

/-! ## Notices at an armed step (spec/10 R328, R344 to R348) -/

/-- Forwarding a notice changes the router alone, and notes in the step what was seen. -/
theorem State.forwardNotice_eq (s : State) (t : Step) (q : MeshPkt) : ∃ r seen, s.forwardNotice t q = (s.setRouter r, { t with seen := seen }) := by
  unfold State.forwardNotice
  extract_lets key tgts r
  split
  · exact ⟨s.router, t.seen, rfl⟩
  · obtain ⟨r', hr⟩ := (State.each_touch (m := 0x40000) (l := tgts) (fun v e hv => State.sendTo_touch (Sub.refl _) v e r false hv) (.refl _ s)).exists_setRouter
    exact ⟨r', _, congrArg (·, _) hr⟩
section
variable {s : State} {p : Nat} {q : MeshPkt} {t : Step} {k : Nat}

/-- A notice of kind 1 to 4 at a step that is not abandoned. -/
theorem State.armedNotice_step (hkept : t.abandoned = false) (hkind : noticeKind q ≤ 4) :
    s.armedNotice p t q = (s.sawAttempt p t.tag t.serial q.attempt).stepNotice p t q := by
  unfold State.armedNotice
  extract_lets s1
  rw [if_neg (by rw [hkept]; decide), if_pos hkind]
/-- DONE or CLOSE at a ring step that is not abandoned. -/
theorem State.armedNotice_token (hkept : t.abandoned = false) (hkind : ¬noticeKind q ≤ 4) (hring : t.kind.isTree = false) :
    s.armedNotice p t q = (s.sawAttempt p t.tag t.serial q.attempt).tokenNotice p t q := by
  unfold State.armedNotice
  extract_lets s1
  rw [if_neg (by rw [hkept]; decide), if_neg hkind, hring, if_neg (by decide)]
/-- DONE or CLOSE at a tree step. -/
theorem State.armedNotice_tree (hkept : t.abandoned = false) (hkind : ¬noticeKind q ≤ 4) (htree : t.kind.isTree = true) :
    s.armedNotice p t q = (s.sawAttempt p t.tag t.serial q.attempt).discard 0 := by
  unfold State.armedNotice
  extract_lets s1
  rw [if_neg (by rw [hkept]; decide), if_neg hkind, if_pos htree]
theorem State.stepOf_noted (hstep : s.stepOf p t.tag = some t) (r : Router) (seen : List (Nat × Nat × Nat)) :
    ((s.setRouter r).putStep p { t with seen := seen }).stepOf p t.tag = some { t with seen := seen } :=
  State.stepOf_putStep (s := s.setRouter r) (u := { t with seen := seen }) hstep rfl
/-- SLOW extends the deadline, to at most 100 ms after the attempt began. -/
theorem State.stepNotice_slow (hstep : s.stepOf p t.tag = some t) (hkind : noticeKind q = 1) : ∃ t1, (s.stepNotice p t q).stepOf p t.tag = some t1 ∧ t1.attempt = t.attempt
    ∧ t1.deadline = BitVec.ofNat 64 (min (max t.deadline.toNat (s.now.toNat + min (8000 * t.group.timeout) 100000000)) (t.begun.toNat + 100000000)) := by
  obtain ⟨r, seen, hforward⟩ := s.forwardNotice_eq t q
  have hslow : s.stepNotice p t q = ((s.setRouter r).putStep p { t with seen := seen }).slowStep p { t with seen := seen } := by
    unfold State.stepNotice
    rw [hforward, hkind]
    rfl
  rw [hslow, State.slowStep]
  exact ⟨_, State.stepOf_putStep (State.stepOf_noted hstep r seen) rfl, rfl, rfl⟩
/-- REPLAY of a later attempt moves the step to it. -/
theorem State.stepNotice_replay (hstep : s.stepOf p t.tag = some t) (hkind : noticeKind q = 2) (hless : t.attempt < noticeAtt q)
    (htree : t.kind.isTree = false ∨ t.group.childs ≠ []) : ∃ t1, (s.stepNotice p t q).stepOf p t.tag = some t1 ∧ t1.attempt = noticeAtt q ∧ t1.begun = s.now
      ∧ t1.deadline = s.stepDeadline t.group ∧ t1.reports = [] ∧ t1.doneHeld = false ∧ t1.complete = t.complete := by
  obtain ⟨r, seen, hforward⟩ := s.forwardNotice_eq t q
  have hmove : s.stepNotice p t q = ((s.setRouter r).putStep p { t with seen := seen }).moveTo p { t with seen := seen } (noticeAtt q) := by
    unfold State.stepNotice
    rw [hforward, hkind]
    exact if_pos hless
  rw [hmove]
  exact ⟨_, State.moveTo_stepOf (t := { t with seen := seen }) (State.stepOf_noted hstep r seen) htree _, rfl, rfl, rfl, rfl, rfl, rfl⟩

/-! ## A step fails by a notice -/

theorem Step.failFloe_fields (t : Step) (reason : Nat) (x : Floe) :
    (t.failFloe reason x).record = setBit x.record 2 true ∧ (t.failFloe reason x).collLastFail = t.lastFail reason := by
  by_cases h : t.kind.isTree = true
  · rw [Step.failFloe, if_pos h]
    exact ⟨rfl, rfl⟩
  · exact Step.failFloe_record (Bool.eq_false_iff.mpr h) reason x
/-- What a floe keeps of the last failure of a step on it. -/
def State.failureOn (s : State) (f : Nat) : Byte × DWord := ((s.floe f).record, (s.floe f).collLastFail)
theorem State.failureOn_of_floes {s u : State} (h : u.floes = s.floes) (f : Nat) : u.failureOn f = s.failureOn f := by
  rw [State.failureOn, State.failureOn, State.floe_of_floes h]
theorem State.loseStep_failureOn (s : State) (p : Nat) (t : Step) (f : Nat) : (s.loseStep p t).failureOn f = s.failureOn f := by
  obtain ⟨r, hr⟩ := s.unbindAdd_eq t
  rw [State.failureOn, State.loseStep, State.setPart_floe, State.dropStep, State.setPart_floe, State.freeRreg_record, hr]
  rfl
theorem State.endSteers_floes (s : State) (p tag : Nat) : (s.endSteers p tag).floes = s.floes := (State.endSteers_touch (Sub.refl _) s p tag (.refl _ s)).floes rfl
theorem State.answerPause_floes (s : State) (p st det arg : Nat) : (s.answerPause p st det arg).floes = s.floes :=
  (State.answerPause_touch (Sub.refl _) s p st det arg (.refl _ s)).floes rfl
theorem State.stopStreams_failureOn (s : State) (p f : Nat) : (s.stopStreams p).failureOn f = s.failureOn f :=
  State.each_keeps (v := fun s => s.failureOn f) (op := fun s g => s.setFloe g (s.floe g).stopAll)
    (fun s g => State.setFloe_keeps (s := s) (f := g) (x := (s.floe g).stopAll) (π := fun x => (x.record, x.collLastFail)) rfl f) _ s
theorem State.verdictLost_failureOn (s : State) (p : Nat) (t : Step) (f : Nat) : (s.verdictLost p t).failureOn f = s.failureOn f := by
  unfold State.verdictLost
  extract_lets s0 src s1
  have hs1 : s1.failureOn f = s.failureOn f := by
    show State.failureOn (if s.inStep p then _ else s) f = _
    split
    · exact (State.failureOn_of_floes (State.answerPause_floes ..) f).trans (s.stopStreams_failureOn p f)
    · rfl
  clear_value s1
  exact (State.failureOn_of_floes (State.eventOwner_floes ..) f).trans hs1
/-- Every floe of a step that fails records it. -/
theorem State.failStep_failureOn (s : State) (p : Nat) (t : Step) (reason : Nat) {f : Nat} (hf : f ∈ t.floes) :
    ((s.failStep p t reason false).floe f).record.getLsbD 2 = true ∧ ((s.failStep p t reason false).floe f).collLastFail = t.lastFail reason := by
  have heach : ((s.eachFloe t (t.failFloe reason)).failureOn f).1.getLsbD 2 = true ∧ ((s.eachFloe t (t.failFloe reason)).failureOn f).2 = t.lastFail reason := by
    refine State.each_establishes (P := fun s f => (s.failureOn f).1.getLsbD 2 = true ∧ (s.failureOn f).2 = t.lastFail reason)
      (fun s f => ?_) (fun s f g h => ?_) t.floes s f hf
    · obtain ⟨hrecord, hlast⟩ := t.failFloe_fields reason (s.floe f)
      rw [State.failureOn, State.floe_setFloe, hrecord, hlast]
      exact ⟨by simp [getLsbD_setBit_true], rfl⟩
    · by_cases hg : f = g
      · obtain ⟨hrecord, hlast⟩ := t.failFloe_fields reason (s.floe g)
        rw [hg, State.failureOn, State.floe_setFloe, hrecord, hlast]
        exact ⟨by simp [getLsbD_setBit_true], rfl⟩
      · rw [State.failureOn, State.floe_setFloe_ne _ _ hg]
        exact h
  have hreport : (s.reportFailure p t reason).failureOn f = (s.eachFloe t (t.failFloe reason)).failureOn f := by
    rw [State.reportFailure, State.failureOn_of_floes (State.eventOwner_floes ..)]
    split
    · rw [State.failureOn_of_floes (State.endSteers_floes ..), State.loseStep_failureOn]
    · rw [State.loseStep_failureOn]
  have hall : (s.failStep p t reason false).failureOn f = (s.reportFailure p t reason).failureOn f := by
    rw [State.failStep_eq]
    split
    · exact State.verdictLost_failureOn ..
    · rfl
  rw [hreport] at hall
  rwa [← hall] at heach
/-- A step that fails leaves its partition, and its floes keep the failure. -/
theorem State.failed_spec (s : State) (p : Nat) (t : Step) (reason : Nat) :
    ((s.failStep p t reason false).pauseCheck p).stepOf p t.tag = none ∧
    ∀ f ∈ t.floes, ((((s.failStep p t reason false).pauseCheck p)).floe f).record.getLsbD 2 = true ∧
      ((((s.failStep p t reason false).pauseCheck p)).floe f).collLastFail = t.lastFail reason := by
  obtain ⟨steers, pausing, hfail⟩ := s.failStep_part p t reason
  refine ⟨?_, fun f hf => ?_⟩
  · rw [State.pauseCheck_stepOf]
    exact State.stepOf_eq_none_of_filter (s := s) (by rw [hfail])
  · rw [State.floe_of_floes (State.pauseCheck_floes ..)]
    exact s.failStep_failureOn p t reason hf
/-- FAIL ends the step with reason 3, MISMATCH with reason 2. -/
theorem State.stepNotice_fails {reason : Nat} (h : (noticeKind q = 3 ∧ reason = 3) ∨ (noticeKind q = 4 ∧ reason = 2)) :
    (s.stepNotice p t q).stepOf p t.tag = none ∧
    ∀ f ∈ t.floes, ((s.stepNotice p t q).floe f).record.getLsbD 2 = true ∧ ((s.stepNotice p t q).floe f).collLastFail = t.lastFail reason := by
  obtain ⟨r, seen, hforward⟩ := s.forwardNotice_eq t q
  rcases h with ⟨hkind, rfl⟩ | ⟨hkind, rfl⟩
  · have hfail : s.stepNotice p t q = (((s.setRouter r).putStep p { t with seen := seen }).failStep p { t with seen := seen } 3 false).pauseCheck p := by
      unfold State.stepNotice
      rw [hforward, hkind]
      rfl
    rw [hfail]
    exact State.failed_spec _ p { t with seen := seen } 3
  · have hfail : s.stepNotice p t q = (s.failStep p t 2 false).pauseCheck p := by
      unfold State.stepNotice
      rw [hforward, hkind]
      rfl
    rw [hfail]
    exact State.failed_spec s p t 2

/-! ## DONE and CLOSE (spec/10 R327) -/

theorem State.sawAttempt_tags (s : State) (p tag : Nat) (step : Word) (a f : Nat) : ((s.sawAttempt p tag step a).floe f).tags = (s.floe f).tags := by
  unfold State.sawAttempt
  extract_lets g x
  split
  · refine State.setFloe_keeps (π := Floe.tags) ?_ f
    rfl
  · rfl
theorem State.sendNotice_eq (s : State) (p : Nat) (t : Step) (e kind att reason origin : Nat) : ∃ r, s.sendNotice p t e kind att reason origin = s.setRouter r :=
  (State.sendNotice_touch (Sub.refl _) s p t e kind att reason origin (.refl _ s)).exists_setRouter
/-- A ring step that closes leaves its partition and releases its sources. -/
theorem State.closed_spec (hring : t.kind.isTree = false) (s : State) (r : Router) :
    ((s.setRouter r).closeStep p t).stepOf p t.tag = none ∧ (((s.setRouter r).closeStep p t).floe t.floe).tags = ((s.floe t.floe).endReaders t.reads).tags := by
  obtain ⟨pausing, hpart⟩ := (s.setRouter r).closeStep_part p t
  exact ⟨State.stepOf_eq_none_of_filter (s := s.setRouter r) (by rw [hpart]), State.closeStep_tags hring ..⟩
section
variable (hstep : s.stepOf p t.tag = some t) (hatt : noticeAtt q = t.attempt)
include hstep hatt
/-- A DONE that has come round to member 0 of a complete ring closes the step. -/
theorem State.tokenNotice_done (hkind : noticeKind q = 5) (hself : t.group.self = 0) (hcomplete : t.complete = true) :
    ∃ r, s.tokenNotice p t q = (s.setRouter r).closeStep p t := by
  obtain ⟨r, hr⟩ := s.sendNotice_eq p t t.group.succ 6 t.attempt 0 0
  refine ⟨r, ?_⟩
  unfold State.tokenNotice
  simp only [hatt, hstep, hkind, hself, hcomplete, Nat.lt_irrefl, if_false, if_true, Option.getD_some]
  rw [hr]
/-- A DONE at another member is held. -/
theorem State.tokenNotice_held (hkind : noticeKind q = 5) (hself : t.group.self ≠ 0) :
    ∃ r, s.tokenNotice p t q = (s.putStep p { t with doneHeld := true }).setRouter r := by
  obtain ⟨r, hr⟩ := (s.putStep p { t with doneHeld := true }).passDone_eq p { t with doneHeld := true }
  unfold State.tokenNotice
  simp only [hatt, hstep, hkind, hself, Nat.lt_irrefl, if_false, if_true, Option.getD_some]
  split
  · exact ⟨r, hr⟩
  · exact ⟨(s.putStep p { t with doneHeld := true }).router, rfl⟩
/-- A CLOSE closes the step. -/
theorem State.tokenNotice_close (hkind : noticeKind q = 6) : ∃ r, s.tokenNotice p t q = (s.setRouter r).closeStep p t := by
  obtain ⟨r, hr⟩ := s.sendNotice_eq p t t.group.succ 6 t.attempt 0 0
  unfold State.tokenNotice
  simp only [hatt, hstep, hkind, Nat.lt_irrefl, if_false, Option.getD_some]
  rw [if_neg (by decide)]
  split
  · exact ⟨s.router, rfl⟩
  · exact ⟨r, by rw [hr]⟩
end
end

/-- The test by which a notice of kind k is taken. -/
def noticeOf (s : State) (k : Nat) (q : MeshPkt) : Bool := q.typ == 5 && noticeKind q == k && !(isMirrorNotice q && q.step == (s.part q.part).serial + 1)
theorem noticeOf_fields {s : State} {k : Nat} {q : MeshPkt} (h : noticeOf s k q = true) : q.typ = 5 ∧ noticeKind q = k := by
  simp only [noticeOf, Bool.and_eq_true, beq_iff_eq] at h
  exact h.1
/-- The notice that an instruction takes. -/
def noticeInstr : Nat → Instr
  | 1 => .noticeSlow
  | 2 => .noticeReplay
  | 3 => .noticeFail
  | 4 => .noticeMismatch
  | 5 => .noticeDone
  | _ => .noticeClose
theorem exec_notice (s : State) {k : Nat} (hlo : 1 ≤ k) (hhi : k ≤ 6) :
    exec (noticeInstr k) s = .next (s.onPkt (noticeOf s k) (fun s a => s.collPkt a.p a.stomp false)) := by
  interval_cases k
  all_goals rfl
/-- A notice at an armed step, with what taking it leaves. -/
theorem exec_notice_armed {s s1 : State} {q : MeshPkt} {t : Step} {k : Nat} (hlo : 1 ≤ k) (hhi : k ≤ 6) (harmed : Claims.Armed (noticeOf s k) s s1 q t) :
    exec (noticeInstr k) s = .next (s1.armedNotice q.part t q) ∧ Passes s s1 ∧ s1.stepOf q.part q.tag = some t ∧ noticeKind q = k ∧ t.abandoned = false := by
  obtain ⟨hpkt, hpass, hstep, hkind⟩ := State.onPkt_notice (fun q => noticeOf_fields) harmed
  obtain ⟨-, -, -, -, -, hkept⟩ := harmed
  exact ⟨(exec_notice s hlo hhi).trans (congrArg Host.Outcome.next hpkt), hpass, hstep, hkind, hkept⟩

end Sys2Proof.Machine

open Sys2Proof Sys2Proof.Machine

/-- Settles O29: a packet of an armed step replaces the step once, and what it sends changes the router alone. That a tree step discards DONE and CLOSE with reason 0 is the model's own reading, for which no log row stands. -/
theorem verdictPacketsAndNotices : Obligations.VerdictPacketsAndNotices := by
  unfold Obligations.VerdictPacketsAndNotices
  refine ⟨fun s s1 q t harmed htree hattempt hhash hslow => ?_, fun s s1 q t => ?_⟩
  · intro tres sender v fromParent
    obtain ⟨hexec, hpass, hstep⟩ := exec_verdict_armed harmed htree
    have hkept : t.abandoned = false := harmed.2.2.2.2.2
    have htag : t.tag = q.tag := State.tag_of_stepOf hstep
    rw [← htag] at hstep ⊢
    rw [State.verdictPkt_fits hstep hkept hattempt hhash hslow] at hexec
    have hpass0 := hpass.trans (Passes.sawAttempt s1 q.part t.tag t.serial q.attempt)
    have hstep0 := ((Passes.sawAttempt s1 q.part t.tag t.serial q.attempt).stepOf q.part t.tag).trans hstep
    generalize s1.sawAttempt q.part t.tag t.serial q.attempt = s0 at hexec hpass0 hstep0 ⊢
    have hnow : s0.now = s.now := congrArg TimeSt.systime (hpass0.time rfl)
    have htime : (BitVec.ofNat 64 tres).toNat = tres := by
      rw [BitVec.toNat_ofNat]
      exact Nat.mod_eq_of_lt (beAt_lt q.payload 12 8)
    refine ⟨fun i htres hi hmember hfirst hguard => ?_, fun htres hparent hearly => ?_, fun htres hparent hlate hkind => ?_, fun hrefused => ?_⟩
    · rw [State.useVerdict_child htres hi hmember hfirst] at hexec
      obtain ⟨t1, ht1, hreports⟩ := State.report_reports (s := s0.putStep q.part { t with reports := t.reports.put i v }) (p := q.part)
        (t := { t with reports := t.reports.put i v }) (State.stepOf_putStep hstep0 rfl) (fun hroot => by
          show s0.now.toNat + 60 + 1000 * t.group.guard < 2 ^ 64
          rw [hnow]
          exact hguard hroot)
      exact ⟨_, t1, hexec, ht1, hreports⟩
    · rw [State.useVerdict_parent htres hparent] at hexec
      exact ⟨_, hexec, State.gotResult_stepOf hstep0 (by rw [hnow]; exact hearly.trans_eq htime.symm) ..⟩
    · rw [State.useVerdict_parent htres hparent] at hexec
      exact ⟨_, hexec, State.gotResult_late (by rw [hnow]; exact htime.trans_lt hlate) hkind ..⟩
    · rw [State.useVerdict_refused hrefused] at hexec
      exact hexec
  · intro p armed closed
    have hnoted : ∀ k, 1 ≤ k → k ≤ 6 → armed k → ∃ s0, exec (noticeInstr k) s = .next (s1.armedNotice p t q)
        ∧ s0 = s1.sawAttempt p t.tag t.serial q.attempt ∧ Passes s s0 ∧ s0.stepOf p t.tag = some t ∧ t.tag = q.tag ∧ noticeKind q = k ∧ t.abandoned = false
        ∧ ∀ f, (s0.floe f).tags = (s1.floe f).tags := fun k hlo hhi h => by
      obtain ⟨hexec, hpass, hstep, hkind, hkept⟩ := exec_notice_armed hlo hhi h
      have htag : t.tag = q.tag := State.tag_of_stepOf hstep
      have hsaw := Passes.sawAttempt s1 p t.tag t.serial q.attempt
      exact ⟨_, hexec, rfl, hpass.trans hsaw, (hsaw.stepOf p t.tag).trans (by rw [htag]; exact hstep), htag, hkind, hkept, s1.sawAttempt_tags p t.tag t.serial q.attempt⟩
    have hnow : ∀ s0, Passes s s0 → s0.now = s.now := fun s0 h => congrArg TimeSt.systime (h.time rfl)
    refine ⟨fun h => ?_, fun h hless htree => ?_, fun k c reason hc h => ?_, fun hring hatt => ⟨fun h hself hcomplete => ?_, fun h hself => ?_, fun h => ?_⟩,
      fun htree k c hc h => ?_⟩
    · obtain ⟨s0, hexec, hs0, hpass, hstep, htag, hkind, hkept, -⟩ := hnoted 1 (by decide) (by decide) h
      rw [State.armedNotice_step hkept (by rw [hkind]; decide), ← hs0] at hexec
      obtain ⟨t1, ht1, hattempt, hdeadline⟩ := State.stepNotice_slow hstep hkind
      exact ⟨_, t1, hexec, htag ▸ ht1, hattempt, by rw [hdeadline, hnow s0 hpass]⟩
    · obtain ⟨s0, hexec, hs0, hpass, hstep, htag, hkind, hkept, -⟩ := hnoted 2 (by decide) (by decide) h
      rw [State.armedNotice_step hkept (by rw [hkind]; decide), ← hs0] at hexec
      obtain ⟨t1, ht1, hattempt, hbegun, hdeadline, hrest⟩ := State.stepNotice_replay hstep hkind hless htree
      exact ⟨_, t1, hexec, htag ▸ ht1, hattempt, by rw [hbegun, hnow s0 hpass], by rw [hdeadline, State.stepDeadline, hnow s0 hpass, State.stepDeadline], hrest⟩
    · have hrange : 3 ≤ k ∧ k ≤ 4 ∧ c = noticeInstr k := by
        rcases hc with ⟨rfl, rfl, -⟩ | ⟨rfl, rfl, -⟩
        all_goals exact ⟨by decide, by decide, rfl⟩
      obtain ⟨hlo, hhi, rfl⟩ := hrange
      obtain ⟨s0, hexec, hs0, hpass, hstep, htag, hkind, hkept, -⟩ := hnoted k (by omega) (by omega) h
      rw [State.armedNotice_step hkept (by omega), ← hs0] at hexec
      have hreason : (noticeKind q = 3 ∧ reason = 3) ∨ (noticeKind q = 4 ∧ reason = 2) := by
        rw [hkind]
        exact hc.imp (fun h => ⟨h.1, h.2.2⟩) (fun h => ⟨h.1, h.2.2⟩)
      obtain ⟨hgone, hfailed⟩ := State.stepNotice_fails (s := s0) (p := p) (t := t) hreason
      exact ⟨_, hexec, htag ▸ hgone, hfailed⟩
    · obtain ⟨s0, hexec, hs0, hpass, hstep, htag, hkind, hkept, htags⟩ := hnoted 5 (by decide) (by decide) h
      obtain ⟨r, hr⟩ := State.tokenNotice_done hstep hatt hkind hself hcomplete
      rw [State.armedNotice_token hkept (by rw [hkind]; decide) hring, ← hs0, hr] at hexec
      obtain ⟨hgone, hfreed⟩ := State.closed_spec (p := p) hring s0 r
      exact ⟨_, hexec, htag ▸ hgone, hfreed.trans (Floe.endReaders_tags_congr (htags _) _)⟩
    · obtain ⟨s0, hexec, hs0, hpass, hstep, htag, hkind, hkept, -⟩ := hnoted 5 (by decide) (by decide) h
      obtain ⟨r, hr⟩ := State.tokenNotice_held hstep hatt hkind hself
      rw [State.armedNotice_token hkept (by rw [hkind]; decide) hring, ← hs0, hr] at hexec
      exact ⟨_, hexec, by rw [← htag]; exact State.stepOf_putStep (u := { t with doneHeld := true }) hstep rfl⟩
    · obtain ⟨s0, hexec, hs0, hpass, hstep, htag, hkind, hkept, htags⟩ := hnoted 6 (by decide) (by decide) h
      obtain ⟨r, hr⟩ := State.tokenNotice_close hstep hatt hkind
      rw [State.armedNotice_token hkept (by rw [hkind]; decide) hring, ← hs0, hr] at hexec
      obtain ⟨hgone, hfreed⟩ := State.closed_spec (p := p) hring s0 r
      exact ⟨_, hexec, htag ▸ hgone, hfreed.trans (Floe.endReaders_tags_congr (htags _) _)⟩
    · rcases hc with ⟨rfl, rfl⟩ | ⟨rfl, rfl⟩
      · obtain ⟨s0, hexec, hs0, -, -, -, hkind, hkept, -⟩ := hnoted 5 (by decide) (by decide) h
        exact hexec.trans (congrArg Host.Outcome.next (State.armedNotice_tree hkept (by rw [hkind]; decide) htree))
      · obtain ⟨s0, hexec, hs0, -, -, -, hkind, hkept, -⟩ := hnoted 6 (by decide) (by decide) h
        exact hexec.trans (congrArg Host.Outcome.next (State.armedNotice_tree hkept (by rw [hkind]; decide) htree))
end

section
/-! SUPPORT. What completing instructions store: blocks of a tensor, copies, and the ranges that they stay in (spec/03 R74, R75, spec/04 R94 to R101, spec/05 R146, R147, spec/06 R186, spec/07 R203, R204, R217 to R220). -/

namespace Sys2Proof.Machine

section
variable {L : List (Nat × Nat)} {s t u : State}

/-! ## What stores nothing, and what stores in several places -/

/-- What touches neither memory nor the marks of bad storage nor the grants stores nothing. -/
theorem Stores.of_touch {m : Nat} (h : Touch m s t) (hclear : m &&& 0x30390 = 0) : Stores L s t := by
  have hbit : ∀ i, Nat.testBit 0x30390 i = true → m.testBit i = false := fun i hi => by
    have hand := congrArg (fun n => Nat.testBit n i) hclear
    simpa [Nat.testBit_and, hi] using hand
  have hmem : t.mem = s.mem := h.mem (hbit 7 rfl)
  have hparts : t.parts = s.parts := h.parts (hbit 4 rfl)
  have hblank : t.blank = s.blank := by
    funext a
    rw [State.blank, State.blank, State.unitHolder, State.unitHolder]
    simp only [State.part_of_parts hparts]
  intro hs hwf
  refine ⟨?_, by rw [hmem]; exact hwf, fun a _ => by rw [State.byte, State.byte, hmem, hblank]⟩
  rw [Claims.Good, h.spBad (hbit 8 rfl), h.poison (hbit 9 rfl), h.nm (hbit 16 rfl), h.cxls (hbit 17 rfl)]
  exact hs
theorem Stores.setFloe (s : State) (f : Nat) (x : Floe) : Stores L s (s.setFloe f x) := .of_passes (State.setFloe_touch ((Sub.refl _).of rfl) s f x (.refl _ s))
theorem Stores.recordNf (s : State) (f : Nat) : Stores L s (s.recordNf f) := .of_passes (State.recordNf_touch ((Sub.refl _).of rfl) s f (.refl _ s))
theorem Stores.noteRange (who : Option Nat) (a n : Nat) (s : State) : Stores L s (s.noteRange who [] a n) := fun hs hwf => by
  rw [State.noteRange_of_allGood (State.allGood_of_good hs a)]
  exact Stores.refl s hs hwf
/-- Reading a unit of good storage, or one without a device, stores nothing. -/
theorem Stores.noteUnit (who : Option Nat) (b : Nat) (s : State) : Stores L s (s.noteUnit who [] b) := fun hs => by
  by_cases hlost : s.lostAt b = true
  · have hsp : isSp b = false := Bool.eq_false_iff.mpr fun h => by rw [State.lostAt_of_isSp h] at hlost; cases hlost
    have hcxl : ¬ b < cxlBase := fun h => by
      rw [State.lostAt, decide_eq_false (Nat.not_le.mpr h)] at hlost
      cases hlost
    have hbad : s.unitBad [] b = true := by
      rw [State.unitBad, hsp, hlost]
      simp
    have hnote : s.noteUnit who [] b = (s.recordLine who b).memError b := by
      rw [State.noteUnit, State.noteRetries_nil, hbad, if_pos rfl, State.noteUe]
      simp only [hsp, hcxl, Good.lateAt hs, hlost, Bool.false_eq_true, if_false, if_true]
    rw [hnote]
    exact ((Stores.of_passes (State.recordLine_touch ((Sub.refl _).of rfl) s who b (.refl _ s))).trans
      (.of_touch (State.memError_touch (Sub.refl _) _ b (.refl _ _)) rfl)) hs
  · rw [State.noteUnit_of_good (Good.unitBad hs (Bool.eq_false_iff.mpr hlost))]
    exact Stores.refl s hs
theorem Stores.noteEnded (who : Option Nat) (ended : List (Nat × Nat)) (a n : Nat) (s : State) : Stores L s (s.noteEnded who ended [] a n) := by
  unfold State.noteEnded
  exact .ite (.noteRange who a n s) (.each (fun b _ s => .noteUnit who b s) s)
/-- A fold over states with something beside them. -/
theorem Stores.foldl {α β : Type} {g : State × β → α → State × β} {l : List α} (h : ∀ x ∈ l, ∀ a, Stores L a.1 (g a x).1) (a : State × β) :
    Stores L a.1 (l.foldl g a).1 := by
  induction l generalizing a with
  | nil => exact .refl _
  | cons x r ih => exact (h x List.mem_cons_self a).trans (ih (fun y hy => h y (List.mem_cons_of_mem x hy)) _)
/-- A copy's write, in one part or line by line, stays in its range. -/
theorem Stores.writeEnded {a : Nat} {l : List Byte} (h : Covers L a l.length) (who : Option Nat) (ended : List (Nat × Nat)) (s : State) :
    Stores L s (s.writeEnded who ended [] a l) := by
  unfold State.writeEnded
  refine .ite (.writeMem h who s) (.each (fun b _ s => .writeMem (fun c hlo hhi => h c ?_ ?_) who s) s)
  · exact Nat.le_trans (Nat.le_max_left a b) hlo
  · have hlen : (sliceB l (max a b - a) (min (a + l.length) (b + unitSize b) - max a b)).length ≤ min (a + l.length) (b + unitSize b) - max a b := by
      rw [sliceB, List.length_take]
      exact Nat.min_le_left ..
    have hend : min (a + l.length) (b + unitSize b) ≤ a + l.length := Nat.min_le_left ..
    omega

/-! ## Blocks of a tensor -/

/-- The bytes of a block and of its occupancy bit are in the ranges L. -/
def BlockIn (L : List (Nat × Nat)) (d : Desc) (br bc : Nat) : Prop :=
  (∀ r ∈ d.blockRanges br bc, r ∈ L) ∧ (d.occ = true → (d.occBase + d.blk br bc / 8, 1) ∈ L)
theorem BlockIn.of_writeRanges {d : Desc} {m0 n0 mb nb br bc : Nat} (hb : (br, bc) ∈ blocksIn m0 n0 mb nb) (hL : ∀ r ∈ d.writeRanges m0 n0 mb nb, r ∈ L) :
    BlockIn L d br bc := by
  refine ⟨fun r hr => hL r (List.mem_append_left _ (List.mem_flatMap.mpr ⟨_, hb, hr⟩)), fun hocc => hL _ (List.mem_append_right _ ?_)⟩
  rw [if_pos hocc]
  exact List.mem_map.mpr ⟨_, hb, rfl⟩
theorem mem_blocksIn {m0 n0 mb nb i j : Nat} (hi : i < mb) (hj : j < nb) : (m0 + i, n0 + j) ∈ blocksIn m0 n0 mb nb :=
  List.mem_flatMap.mpr ⟨i, List.mem_range.mpr hi, List.mem_map.mpr ⟨j, List.mem_range.mpr hj, rfl⟩⟩
theorem mem_blocksIn_zero {mb nb : Nat} {p : Nat × Nat} (hp : p ∈ blocksIn 0 0 mb nb) (m0 n0 : Nat) : (m0 + p.1, n0 + p.2) ∈ blocksIn m0 n0 mb nb := by
  obtain ⟨i, hi, hp⟩ := List.mem_flatMap.mp hp
  obtain ⟨j, hj, rfl⟩ := List.mem_map.mp hp
  have h := mem_blocksIn (m0 := m0) (n0 := n0) (List.mem_range.mp hi) (List.mem_range.mp hj)
  rwa [← Nat.zero_add i, ← Nat.zero_add j] at h
theorem Desc.scaleUnit_of_scaled {d : Desc} (h : scaled d.fmt = true) : d.scaleUnit = if d.shape = 0 then 1 else 32 := by
  rw [Desc.scaleUnit, h]
  rfl
section
variable {d : Desc} {br bc : Nat} (hin : BlockIn L d br bc) (hmeta : d.isMeta = false)
include hin
theorem Stores.markOcc (f : Nat) (v : Bool) (s : State) : Stores L s (s.markOcc f d br bc v) := by
  unfold State.markOcc
  exact .dite (fun hocc => .putOcc (.of_mem (hin.2 hocc) (Nat.le_refl _) (Nat.le_refl _)) f v s) fun _ => .refl s
include hmeta
/-- The element bytes of a block. -/
theorem Stores.putElements (hfmt : d.fmt ≠ 7) {l : List Byte} (hl : l.length ≤ blockBytes d.fmt) (f : Nat) (s : State) :
    Stores L s (s.put f (d.base + d.blk br bc * blockBytes d.fmt) l) := by
  have hne : blockBytes d.fmt ≠ 0 := by
    unfold blockBytes
    split_ifs
    all_goals decide
  have hmem : (d.base + d.blk br bc * blockBytes d.fmt, blockBytes d.fmt) ∈ d.blockRanges br bc := by
    rw [Desc.blockRanges, if_neg hfmt, hmeta, if_neg Bool.false_ne_true]
    exact List.mem_filter.mpr ⟨List.mem_cons_self, by simpa using hne⟩
  exact .put (.of_mem (hin.1 _ hmem) (Nat.le_refl _) (Nat.add_le_add_left hl _)) f s
/-- The scale bytes of a block. -/
theorem Stores.putScales (hscaled : scaled d.fmt = true) (hfmt : d.fmt ≠ 7) {l : List Byte} (hl : l.length ≤ d.scaleUnit) (f : Nat) (s : State) :
    Stores L s (s.put f (d.scaleAt br bc 0 0) l) := by
  have hne : d.scaleUnit ≠ 0 := by
    rw [Desc.scaleUnit_of_scaled hscaled]
    split
    · decide
    · decide
  have hat : d.scaleAt br bc 0 0 = d.scaleBase + d.blk br bc * d.scaleUnit := by
    rw [Desc.scaleAt, Desc.scaleUnit_of_scaled hscaled]
    by_cases hshape : d.shape = 0
    · rw [if_pos hshape, if_pos hshape, Nat.mul_one]
    · rw [if_neg hshape, if_neg hshape, ite_self, Nat.add_zero, Nat.mul_comm]
  have hmem : (d.scaleAt br bc 0 0, d.scaleUnit) ∈ d.blockRanges br bc := by
    rw [Desc.blockRanges, if_neg hfmt, hmeta, if_neg Bool.false_ne_true, hat]
    exact List.mem_filter.mpr ⟨List.mem_cons_of_mem _ List.mem_cons_self, by simpa using hne⟩
  exact .put (.of_mem (hin.1 _ hmem) (Nat.le_refl _) (Nat.add_le_add_left hl _)) f s
end
end

/-! ## The size of what is written into a block -/

/-- At most 32 rows of at most 32 elements. -/
def Block32 {α : Type} (rows : List (List α)) : Prop := rows.length ≤ 32 ∧ ∀ row ∈ rows, row.length ≤ 32
theorem Block32.flatten_length {α : Type} {rows : List (List α)} (h : Block32 rows) : rows.flatten.length ≤ 1024 := by
  obtain ⟨hrows, hrow⟩ := h
  have hsum : rows.flatten.length ≤ rows.length * 32 := by
    clear hrows
    induction rows with
    | nil => exact Nat.le_refl _
    | cons r rest ih =>
      have hr := hrow r List.mem_cons_self
      have hrest := ih fun row h => hrow row (List.mem_cons_of_mem _ h)
      rw [List.flatten_cons, List.length_append, List.length_cons]
      omega
  omega
theorem Block32.map {α β : Type} {rows : List (List α)} (h : Block32 rows) (g : α → β) : Block32 (rows.map (fun row => row.map g)) := by
  refine ⟨by rw [List.length_map]; exact h.1, fun row hrow => ?_⟩
  obtain ⟨r, hr, rfl⟩ := List.mem_map.mp hrow
  rw [List.length_map]
  exact h.2 r hr
theorem Block32.mapIdx {α β : Type} {rows : List (List α)} (h : Block32 rows) (g : Nat → Nat → α → β) : Block32 (rows.mapIdx (fun r row => row.mapIdx (g r))) := by
  refine ⟨by rw [List.length_mapIdx]; exact h.1, fun row hrow => ?_⟩
  obtain ⟨i, hi, rfl⟩ := List.mem_mapIdx.mp hrow
  rw [List.length_mapIdx]
  exact h.2 _ (List.getElem_mem hi)
theorem pairCodes_length (l : List Nat) : (pairCodes l).length ≤ (l.length + 1) / 2 := by
  induction l using pairCodes.induct with
  | case1 a b r ih => rw [pairCodes, List.length_cons, List.length_cons, List.length_cons]; omega
  | case2 a => rw [pairCodes, List.length_singleton, List.length_singleton]
  | case3 => exact Nat.zero_le _
theorem codeBytes_length {fmt : Nat} (hfmt : fmt ≠ 6 ∧ fmt ≠ 7) {l : List Nat} (hl : l.length ≤ 1024) : (codeBytes fmt l).length ≤ blockBytes fmt := by
  rw [codeBytes, blockBytes, if_neg hfmt.1, if_neg hfmt.2]
  split
  · have h := pairCodes_length l
    omega
  · rw [List.length_map]
    exact hl
theorem length_halfBytes (l : List Half) : (l.flatMap (fun x => leBytes 2 x.toNat)).length = 2 * l.length := by
  induction l with
  | nil => rfl
  | cons x r ih => rw [List.flatMap_cons, List.length_append, ih, length_leBytes, List.length_cons]; omega
theorem transpose32_length (l : List (List FVal)) : (transpose32 l).length ≤ 32 := by
  induction l with
  | nil => exact Nat.le_refl _
  | cons row r ih => exact (List.length_zipWith .. ▸ Nat.min_le_right ..).trans ih
theorem blockScales_length {d : Desc} (hscaled : scaled d.fmt = true) {rows : List (List FVal)} (hrows : rows.length ≤ 32) :
    (blockScales d.fmt d.shape rows).length ≤ d.scaleUnit := by
  rw [blockScales, Desc.scaleUnit_of_scaled hscaled]
  by_cases hshape : d.shape = 0
  · rw [if_pos hshape, if_pos hshape]
    exact Nat.le_refl _
  · rw [if_neg hshape, if_neg hshape]
    split
    · rw [List.length_map]
      exact hrows
    · rw [List.length_map]
      exact transpose32_length rows

/-! ## Blocks written in MX, BF16 and BS16 -/

section
variable {L : List (Nat × Nat)} {d : Desc} {br bc : Nat} (hin : BlockIn L d br bc)
include hin
theorem Stores.writeBlock (hmeta : d.isMeta = false) (hfmt : 1 ≤ d.fmt ∧ d.fmt ≤ 6) {rows : List (List FVal)} (hrows : Block32 rows) (f : Nat) (sr : Bool) (s : State) :
    Stores L s (s.writeBlock f d sr br bc rows).1 := by
  unfold State.writeBlock
  extract_lets a h sc codes bad
  have h7 : d.fmt ≠ 7 := by omega
  by_cases h6 : d.fmt = 6
  · rw [if_pos h6]
    have hsize : blockBytes d.fmt = 2048 := by rw [h6]; rfl
    have hlen : (h.flatMap (fun x => leBytes 2 x.toNat)).length ≤ blockBytes d.fmt := by
      have hh : h.length ≤ 1024 := (hrows.mapIdx _).flatten_length
      rw [length_halfBytes, hsize]
      omega
    exact (Stores.putElements hin hmeta h7 hlen f s).trans (.markOcc hin f _ _)
  · rw [if_neg h6]
    have hscaled : scaled d.fmt = true := by
      obtain ⟨hlo, hhi⟩ := hfmt
      generalize d.fmt = n at hlo hhi h6
      interval_cases n
      all_goals simp [scaled, fmtMx, fmt4, fmt8] at h6 ⊢
    have hcodes : codes.length ≤ 1024 := (hrows.mapIdx _).flatten_length
    have hsc : (sc.map (fun x => (BitVec.ofNat 8 x : Byte))).length ≤ d.scaleUnit := by
      rw [List.length_map]
      exact blockScales_length hscaled hrows.1
    exact (Stores.putElements hin hmeta h7 (codeBytes_length ⟨h6, h7⟩ hcodes) f s).trans
      ((Stores.putScales hin hmeta hscaled h7 hsc f _).trans (.markOcc hin f _ _))
omit hin in
theorem bsFit_length {g : Nat → List Int} (hlen : ∀ k, (g k).length ≤ 32) (sat : Bool) (n e : Nat) : (bsFit g sat n e).m.length ≤ 32 := by
  induction n generalizing e with
  | zero => rw [bsFit, List.length_map]; exact hlen e
  | succ n ih =>
    rw [bsFit]
    split
    · exact hlen e
    · split
      · rw [List.length_map]; exact hlen e
      · exact ih (e + 1)
omit hin in
theorem bsConvert_bytes_length {l : List FVal} (hl : l.length ≤ 32) : (bsConvert l).bytes.length ≤ 68 := by
  have hm : (bsConvert l).m.length ≤ 32 := by
    rw [bsConvert]
    split
    · exact Nat.le_refl _
    · dsimp only
      split
      · exact Nat.le_refl _
      · exact bsFit_length (fun k => by rw [List.length_map]; exact hl) ..
  rw [Bs.bytes, List.length_append, bsMantBytes_length]
  exact Nat.add_le_add_right (Nat.mul_le_mul_left 2 hm) 4
theorem Stores.writeBsBlock (hfmt : d.fmt = 7) {rows : List (List FVal)} (hrows : Block32 rows) (f : Nat) (s : State) :
    Stores L s (s.writeBsBlock f d br bc rows).1 := by
  unfold State.writeBsBlock
  extract_lets b s1
  refine Stores.trans (Stores.each (fun e he s => ?_) s) (.markOcc hin f _ _)
  obtain ⟨i, hi, rfl⟩ := List.mem_mapIdx.mp he
  have hi32 : i < 32 := by
    have hlen : b.length ≤ 32 := (List.length_map ..).trans_le hrows.1
    omega
  have hmem : (d.bsAt (32 * br + i) bc, 68) ∈ d.blockRanges br bc := by
    rw [Desc.blockRanges, if_pos hfmt]
    exact List.mem_map.mpr ⟨i, List.mem_range.mpr hi32, rfl⟩
  have hbytes : b[i].bytes.length ≤ 68 := by
    have hrow : i < rows.length := by rw [← List.length_map (as := rows) bsConvert]; exact hi
    have hb : b[i] = bsConvert rows[i] := List.getElem_map ..
    rw [hb]
    exact bsConvert_bytes_length (hrows.2 _ (List.getElem_mem hrow))
  exact .put (.of_mem (hin.1 _ hmem) (Nat.le_refl _) (Nat.add_le_add_left hbytes _)) f s
end

/-! ## The vector engine's stores -/

theorem passBlock_block32 (rows : List (List (Option F32))) (i j : Nat) : Block32 (passBlock rows i j) := by
  refine ⟨?_, fun row hrow => ?_⟩
  · rw [passBlock, List.length_map, List.length_take]
    exact Nat.min_le_left ..
  · obtain ⟨r, -, rfl⟩ := List.mem_map.mp hrow
    rw [List.length_map, List.length_take]
    exact Nat.min_le_left ..
theorem Stores.sink {o : PassOp} (hwritable : passWritable (opOf o.w) o.dDst = true) (f : Nat) (rows : List (List (Option F32))) (s : State) :
    Stores (o.dDst.writeRanges o.m0 o.n0 (passMb o.w) (passNb o.w)) s (s.sink f o rows).1 := by
  unfold State.sink
  refine Stores.foldl (fun p hp a => ?_) (s, false, false)
  have hin : BlockIn (o.dDst.writeRanges o.m0 o.n0 (passMb o.w) (passNb o.w)) o.dDst (o.m0 + p.1) (o.n0 + p.2) :=
    .of_writeRanges (mem_blocksIn_zero hp o.m0 o.n0) fun _ h => h
  have hrows := passBlock_block32 rows p.1 p.2
  obtain ⟨hmeta, hfmt⟩ := Bool.and_eq_true_iff.mp hwritable
  have hmeta : o.dDst.isMeta = false := by simpa using hmeta
  dsimp only
  by_cases hop : opOf o.w = 0x22
  · rw [if_pos hop] at hfmt ⊢
    exact Stores.writeBsBlock hin (by simpa using hfmt) hrows f a.1
  · rw [if_neg hop] at hfmt ⊢
    exact Stores.writeBlock hin hmeta (by simpa using hfmt) hrows f _ a.1
theorem Stores.passComplete {o : PassOp} (h : passIsRed o.w = true ∨ passWritable (opOf o.w) o.dDst = true) (f : Nat) (s : State) :
    Stores (if passIsRed o.w then [] else o.dDst.writeRanges o.m0 o.n0 (passMb o.w) (passNb o.w)) s (s.passComplete f o) := by
  unfold State.passComplete
  extract_lets n src lanes vals fl
  by_cases hred : passIsRed o.w = true
  · rw [if_pos hred, if_pos hred]
    exact .ite ((Stores.setFloe _ f _).trans (Stores.recordNf _ f)) (Stores.setFloe _ f _)
  · rw [if_neg hred, if_neg hred]
    have hsink := Stores.sink (h.resolve_left hred) f vals s
    generalize s.sink f o vals = r at hsink ⊢
    exact .ite (hsink.trans ((Stores.setFloe _ f _).trans (Stores.recordNf _ f))) (hsink.trans (Stores.setFloe _ f _))

/-! ## GATE.TOPK's and PACK.CAP's stores -/

theorem gateRecords_length (s : State) (errs : Errs) (o : CondOp) (l : List Nat) : ((l.map (fun t => s.gateToken errs o t)).flatMap (fun r => r.1)).length = 64 * l.length := by
  induction l with
  | nil => rfl
  | cons t r ih => rw [List.map_cons, List.flatMap_cons, List.length_append, ih, State.gateToken_length, List.length_cons]; omega
theorem CondOp.tokens_length (o : CondOp) (n : Nat) : (o.tokens n).length = n := by rw [CondOp.tokens, List.length_map, List.length_range]
theorem Stores.gateRun (f : Nat) (o : CondOp) (s : State) : Stores [(recAt o.dB o.first, 64 * gateN o.w)] s (s.gateRun f [] o) := by
  unfold State.gateRun
  extract_lets n recs s1 s2 k x s3
  have hlen : (recs.flatMap (fun r => r.1)).length = 64 * n := by rw [gateRecords_length, CondOp.tokens_length]
  have h1 : Stores [(recAt o.dB o.first, 64 * gateN o.w)] s s1 := .each (fun r _ s => .noteRange (some f) r.1 r.2 s) s
  have h2 : Stores [(recAt o.dB o.first, 64 * gateN o.w)] s1 s2 :=
    .put (.of_mem (List.mem_singleton_self _) (Nat.le_refl _) (Nat.add_le_add_left hlen.le _)) f s1
  exact .ite (h1.trans (h2.trans (Stores.setFloe _ f _))) (h1.trans (h2.trans ((Stores.setFloe _ f _).trans (Stores.recordNf _ f))))
theorem Stores.assignRun (f : Nat) (o : CondOp) (s : State) :
    Stores ((assignWrites o (s.assign [] o)).map (fun e => (e.1, e.2.length))) s (s.assignRun f [] o) := by
  unfold State.assignRun
  extract_lets a s1 s2 x
  have h2 : Stores ((assignWrites o a).map (fun e => (e.1, e.2.length))) s1 s2 := .each (fun e he s =>
    .put (.of_mem (List.mem_map.mpr ⟨e, he, rfl⟩) (Nat.le_refl _) (Nat.le_refl _)) f s) s1
  exact (Stores.noteRange (some f) _ _ s).trans (h2.trans (Stores.setFloe _ f _))
theorem Stores.packRun {o : CondOp} (hformat : packTensorOk o.dDst = true) (f : Nat) (s : State) :
    Stores (o.blockRows.flatMap (fun q => o.dDst.writeRanges q 0 1 o.dDst.dim1b)) s (s.packRun f [] o) := by
  obtain ⟨⟨hfmt, -⟩, hmeta⟩ : (fmt8 o.dDst.fmt = true ∧ o.dDst.shape ≤ 1) ∧ o.dDst.isMeta = false := by
    simpa [packTensorOk, Bool.and_eq_true] using hformat
  have hfmt : 1 ≤ o.dDst.fmt ∧ o.dDst.fmt ≤ 6 := by
    simp only [fmt8, Bool.or_eq_true, beq_iff_eq] at hfmt
    omega
  unfold State.packRun
  extract_lets rows s1
  have h1 : Stores (o.blockRows.flatMap (fun q => o.dDst.writeRanges q 0 1 o.dDst.dim1b)) s s1 := .each (fun r _ s => .noteRange (some f) r.1 r.2 s) s
  have hrows : ∀ e ∈ rows, e.1 ∈ o.blockRows ∧ e.2.length = 32 := fun e he => by
    obtain ⟨q, hq, rfl⟩ := List.mem_map.mp he
    exact ⟨hq, by rw [List.length_map, List.length_range]⟩
  clear_value rows s1
  have h2 : Stores (o.blockRows.flatMap (fun q => o.dDst.writeRanges q 0 1 o.dDst.dim1b)) s1 (rows.foldl (fun acc e => (List.range o.dDst.dim1b).foldl (fun acc bc =>
      let (t, b) := State.writeBlock acc.1 f o.dDst (packSr o.w) e.1 bc (e.2.map (fun l => (l.drop (32 * bc)).take 32))
      (t, acc.2 || b)) acc) (s1, false)).1 := by
    refine Stores.foldl (fun e he a => Stores.foldl (fun bc hbc a => ?_) a) (s1, false)
    obtain ⟨hq, hlen⟩ := hrows e he
    have hblock : (e.1, bc) ∈ blocksIn e.1 0 1 o.dDst.dim1b := by
      have h := mem_blocksIn (m0 := e.1) (n0 := 0) Nat.one_pos (List.mem_range.mp hbc)
      rwa [Nat.add_zero, Nat.zero_add] at h
    refine Stores.writeBlock (.of_writeRanges hblock fun r hr => List.mem_flatMap.mpr ⟨e.1, hq, hr⟩) hmeta hfmt ⟨?_, fun row hrow => ?_⟩ f _ a.1
    · rw [List.length_map]
      exact hlen.le
    · obtain ⟨l, -, rfl⟩ := List.mem_map.mp hrow
      rw [List.length_take]
      exact Nat.min_le_left ..
  generalize rows.foldl _ (s1, false) = r at h2 ⊢
  exact .ite (h1.trans (h2.trans (Stores.recordNf _ f))) (h1.trans h2)
theorem Stores.condRun {o : CondOp} (h : opOf o.w = 0x38 ∨ packFormatOk o = true) (f : Nat) (s : State) : Stores (s.condRanges o) s (s.condRun f [] o) := by
  unfold State.condRun State.condRanges
  by_cases hop : opOf o.w = 0x38
  · rw [if_pos hop, if_pos hop]
    exact .gateRun f o s
  · rw [if_neg hop, if_neg hop]
    by_cases hmode : packMode o.w = 0
    · rw [if_pos hmode, if_pos hmode]
      exact .assignRun f o s
    · rw [if_neg hmode, if_neg hmode]
      have hformat := h.resolve_left hop
      simp only [packFormatOk, Bool.or_eq_true, Bool.and_eq_true, beq_iff_eq, hmode, false_or] at hformat
      exact .packRun hformat.1.2 f s


/-! ## The updates' stores -/

theorem Tbl.mem_get {α : Type} {t : Tbl α} {k : Nat} (hk : k ∈ t.map (fun e => e.1)) (d : α) : (k, Tbl.get d t k) ∈ t := by
  induction t with
  | nil => cases hk
  | cons e r ih =>
    by_cases he : e.1 = k
    · have hget : Tbl.get d (e :: r) k = e.2 := by rw [Tbl.get, Tbl.find, if_pos he]; rfl
      rw [hget, ← he]
      exact List.mem_cons_self
    · have hget : Tbl.get d (e :: r) k = Tbl.get d r k := by rw [Tbl.get, Tbl.find, if_neg he]; rfl
      rw [hget]
      exact List.mem_cons_of_mem _ (ih ((List.mem_cons.mp hk).resolve_left (Ne.symm he)))
/-- The ranges of an update. -/
def UpdOp.writeRanges (o : UpdOp) : List (Nat × Nat) := updWriteRanges o.m0 o.n0 (updMb o.w) (updNb o.w) (o.alt.map (fun e => e.2))
section
variable {o : UpdOp} (halt : o.alt.map (fun e => e.1) = updSet o.w) (hfmt : ∀ e ∈ o.alt, updFmtOk e.1 e.2 = true)
include halt
theorem UpdOp.altD_mem {i : Nat} (hi : i ∈ updSet o.w) : (i, o.altD i) ∈ o.alt := Tbl.mem_get (halt ▸ hi) {}
theorem UpdOp.blockIn {i : Nat} (hi : i ∈ updSet o.w) {br bc : Nat} (hb : (br, bc) ∈ blocksIn o.m0 o.n0 (updMb o.w) (updNb o.w)) :
    BlockIn o.writeRanges (o.altD i) br bc :=
  .of_writeRanges hb fun _ hr => List.mem_flatMap.mpr ⟨o.altD i, List.mem_map.mpr ⟨_, UpdOp.altD_mem halt hi, rfl⟩, hr⟩
include hfmt
theorem UpdOp.altD_format {i : Nat} (hi : i ∈ updSet o.w) : updFmtOk i (o.altD i) = true := hfmt _ (UpdOp.altD_mem halt hi)
theorem Stores.updWrite {br bc : Nat} (hb : (br, bc) ∈ blocksIn o.m0 o.n0 (updMb o.w) (updNb o.w)) {rows : List (List UpdEl)} (hrows : Block32 rows) (f : Nat) (s : State) :
    Stores o.writeRanges s (s.updWrite f o br bc rows).1 := by
  have hset : ∀ i ∈ [0, 1, 2, 4], i ∈ updSet o.w := by
    intro i hi
    rw [updSet]
    split
    · revert hi; revert i; decide
    · exact hi
  have hmem : ∀ i ∈ [0, 1, 2, 4], BlockIn o.writeRanges (o.altD i) br bc ∧ updFmtOk i (o.altD i) = true := fun i hi =>
    ⟨UpdOp.blockIn halt (hset i hi) hb, UpdOp.altD_format halt hfmt (hset i hi)⟩
  obtain ⟨hin0, hok0⟩ := hmem 0 (by decide)
  obtain ⟨hin1, hok1⟩ := hmem 1 (by decide)
  obtain ⟨hin2, hok2⟩ := hmem 2 (by decide)
  obtain ⟨hin4, hok4⟩ := hmem 4 (by decide)
  obtain ⟨hmeta0, hfmt0⟩ : (o.altD 0).isMeta = false ∧ (o.altD 0).fmt = 6 := by simpa [updFmtOk] using hok0
  obtain ⟨hmeta1, hfmt1⟩ : (o.altD 1).isMeta = false ∧ (o.altD 1).fmt = 9 := by simpa [updFmtOk] using hok1
  obtain ⟨hmeta2, hfmt2, -⟩ : (o.altD 2).isMeta = false ∧ (o.altD 2).fmt = 4 ∧ (o.altD 2).shape = 1 := by simpa [updFmtOk] using hok2
  obtain ⟨hmeta4, hfmt4, -⟩ : (o.altD 4).isMeta = false ∧ (o.altD 4).fmt = 1 ∧ (o.altD 4).shape = 0 := by simpa [updFmtOk] using hok4
  unfold State.updWrite
  extract_lets ws d1 fl d sc
  have hws : Block32 ws := hrows.map _
  have hfl : fl.length ≤ blockBytes d1.fmt := by
    rw [List.length_map, show d1.fmt = 9 from hfmt1]
    exact hrows.flatten_length
  have hsc : sc.length ≤ 32 := (List.length_map ..).trans_le hrows.1
  have h1 := Stores.writeBlock hin0 hmeta0 (by omega) hws f false s
  generalize s.writeBlock f (o.altD 0) false br bc ws = r1 at h1 ⊢
  dsimp only
  have hsize1 : blockBytes d1.fmt = 1024 := by rw [show d1.fmt = 9 from hfmt1]; rfl
  have h2 := (Stores.putElements hin1 hmeta1 (by omega) hfl f r1.1).trans (Stores.markOcc hin1 f (fl.any (fun b => b != 0)) _)
  rw [hsize1] at h2
  generalize (r1.1.put f (d1.base + d1.blk br bc * 1024) fl).markOcc f d1 br bc (fl.any (fun b => b != 0)) = s2 at h2 ⊢
  have h3 := Stores.writeBlock hin2 hmeta2 (by omega) (hrows.map (fun e => val32 e.m)) f (flag o.w 31) s2
  generalize s2.writeBlock f (o.altD 2) (flag o.w 31) br bc (rows.map (fun r => r.map (fun e => val32 e.m))) = r3 at h3 ⊢
  have hlast : ∀ r : State × Bool, Stores o.writeRanges r3.1 r.1 → Stores o.writeRanges s (r.1.writeBlock f (o.altD 4) false br bc ws).1 := fun r h4 =>
    h1.trans (h2.trans (h3.trans (h4.trans (Stores.writeBlock hin4 hmeta4 (by omega) hws f false r.1))))
  by_cases hadam : updAdam o.w = true
  · rw [if_pos hadam]
    refine hlast (_, _) ?_
    have hset3 : 3 ∈ updSet o.w := by rw [updSet, if_pos hadam]; decide
    have hin3 : BlockIn o.writeRanges d br bc := UpdOp.blockIn halt hset3 hb
    obtain ⟨hmeta3, hfmt3, hshape3⟩ : d.isMeta = false ∧ d.fmt = 10 ∧ d.shape = 1 := by simpa [updFmtOk] using UpdOp.altD_format halt hfmt hset3
    have hscaled : scaled d.fmt = true := by rw [hfmt3]; rfl
    have hunit : d.scaleUnit = 32 := by rw [Desc.scaleUnit_of_scaled hscaled, hshape3]; rfl
    have hsize3 : blockBytes d.fmt = 1024 := by rw [hfmt3]; rfl
    generalize hcodes : (rows.mapIdx (fun r row => row.mapIdx (fun c e => momCode (sc.getD r 0) (r3.1.draws f d (flag o.w 30) br bc r c) (val32 e.s)))).flatten = codes
    have hlen : (codes.map (fun c => (BitVec.ofNat 8 c : Byte))).length ≤ blockBytes d.fmt := by
      rw [List.length_map, hsize3, ← hcodes]
      exact (hrows.mapIdx _).flatten_length
    have hput := Stores.putElements hin3 hmeta3 (by omega) hlen f r3.1
    rw [hsize3] at hput
    exact hput.trans ((Stores.putScales hin3 hmeta3 hscaled (by omega) (by rw [List.length_map, hunit]; exact hsc) f _).trans (Stores.markOcc hin3 f _ _))
  · rw [if_neg hadam]
    exact hlast (r3.1, false) (.refl _)
end
theorem State.updRow_length (s : State) (errs : Errs) (o : UpdOp) (br bc r : Nat) : (s.updRow errs o br bc r).1.length = 32 := by
  unfold State.updRow
  dsimp only
  rw [List.length_map, List.length_range]
/-- What a partition holds besides its grant is not storage. -/
theorem Stores.setPart {L : List (Nat × Nat)} {s : State} {p : Nat} {x : Part} (hheld : x.held = (s.part p).held) (hholds : ∀ a, x.holds a = (s.part p).holds a)
    (hclaim : x.claimNo = (s.part p).claimNo) : Stores L s (s.setPart p x) :=
  fun hs hwf => ⟨hs, hwf, fun a _ => State.setPart_byte hheld hholds hclaim a⟩
theorem Stores.updSettled {L : List (Nat × Nat)} (p f : Nat) (s : State) : Stores L s (s.updSettled p f) := by
  unfold State.updSettled
  extract_lets x s1
  have h1 : Stores L s s1 := .setPart rfl (fun _ => rfl) rfl
  exact .ite (h1.trans (.of_passes (State.tellMirror_touch ((Sub.refl _).of rfl) s1 p f (.refl _ s1)))) h1
theorem Stores.countMalformed {L : List (Nat × Nat)} (f n : Nat) (s : State) : Stores L s (s.countMalformed f n) :=
  .each (fun _ _ s => .of_passes (State.countErr_touch ((Sub.refl _).of rfl) s _ _ (.refl _ s))) s
/-- What an update leaves to do after its blocks are written and its floe is updated. -/
theorem Stores.updTail {L : List (Nat × Nat)} (f : Nat) (l : State → List (Nat × Nat × Nat × Nat)) (mirrored : Bool) (s : State) :
    Stores L s (match s.floePart f with
      | none => s
      | some p => (if mirrored then s.mirrorOut p f (l s) else s).updSettled p f) := by
  split
  · exact .refl s
  · rename_i p _
    exact Stores.trans (.ite (.of_passes (State.mirrorOut_touch ((Sub.refl _).of rfl) s p f (l s) (.refl _ s))) (.refl s)) (.updSettled p f _)
theorem Stores.updRun {o : UpdOp} (halt : o.alt.map (fun e => e.1) = updSet o.w) (hfmt : ∀ e ∈ o.alt, updFmtOk e.1 e.2 = true) (f : Nat) (s : State) :
    Stores o.writeRanges s (s.updRun f [] o) := by
  unfold State.updRun
  extract_lets mb nb blocks rows s1 s2 lane res g
  have h1 : Stores o.writeRanges s s1 := .each (fun r _ s => .noteRange (some f) r.1 r.2 s) s
  have h2 : Stores o.writeRanges s1 s2 := .countMalformed f _ s1
  have hrows : ∀ b ∈ rows, b.1 ∈ blocks ∧ Block32 (b.2.map (fun r => r.1)) := fun b hb => by
    obtain ⟨q, hq, rfl⟩ := List.mem_map.mp hb
    refine ⟨hq, by rw [List.length_map, List.length_map, List.length_range], fun row hrow => ?_⟩
    obtain ⟨e, he, rfl⟩ := List.mem_map.mp hrow
    obtain ⟨r, -, rfl⟩ := List.mem_map.mp he
    exact (State.updRow_length ..).le
  have h3 : Stores o.writeRanges s2 (rows.foldl (fun acc b => let (t, n) := State.updWrite acc.1 f o b.1.1 b.1.2 (b.2.map (fun r => r.1)); (t, acc.2 || n)) (s2, false)).1 := by
    refine Stores.foldl (fun b hb a => ?_) (s2, false)
    exact Stores.updWrite halt hfmt (hrows b hb).1 (hrows b hb).2 f a.1
  generalize rows.foldl (fun acc b => let (t, n) := State.updWrite acc.1 f o b.1.1 b.1.2 (b.2.map (fun r => r.1)); (t, acc.2 || n)) (s2, false) = r3 at h3 ⊢
  obtain ⟨s3, nf0⟩ := r3
  have h03 : Stores o.writeRanges s s3 := h1.trans (h2.trans h3)
  clear_value s1 s2
  dsimp -zeta only
  extract_lets nf x y y1 alt x1 s4 s5
  have h5 : Stores o.writeRanges s3 s5 := .ite ((Stores.setFloe _ f _).trans (Stores.recordNf _ f)) (Stores.setFloe _ f _)
  exact h03.trans (h5.trans (Stores.updTail f (fun s5 => blocks.flatMap (fun b => o.mirrorRuns (s5.floe f) b.1 b.2) ++ o.mirrorOcc (s5.floe f) blocks) (flag o.w 29) s5))

/-! ## The copies' stores -/

theorem Stores.xfer {o : XferOp} (f tag : Nat) (r : List XferOp) (s : State) :
    let s2 := (s.each o.data (fun s e => s.writeEnded (some f) o.ended [] e.1 e.2)).each o.occBits (fun s e => s.putOcc f o.dDst e.1 e.2)
    Stores (o.data.map (fun e => (e.1, e.2.length)) ++ o.occBits.map (fun e => (o.dDst.occBase + e.1 / 8, 1))) s
      (s2.setFloe f { (s2.floe f).endWriters [tag] with xfers := r }) := by
  intro s2
  have hdata : ∀ e ∈ o.data, ∀ s : State, Stores (o.data.map (fun e => (e.1, e.2.length)) ++ o.occBits.map (fun e => (o.dDst.occBase + e.1 / 8, 1))) s
      (s.writeEnded (some f) o.ended [] e.1 e.2) := fun e he s =>
    .writeEnded (.of_mem (r := (e.1, e.2.length)) (List.mem_append_left _ (List.mem_map.mpr ⟨e, he, rfl⟩)) (Nat.le_refl _) (Nat.le_refl _)) (some f) o.ended s
  have hocc : ∀ e ∈ o.occBits, ∀ s : State, Stores (o.data.map (fun e => (e.1, e.2.length)) ++ o.occBits.map (fun e => (o.dDst.occBase + e.1 / 8, 1))) s
      (s.putOcc f o.dDst e.1 e.2) := fun e he s =>
    .putOcc (.of_mem (r := (o.dDst.occBase + e.1 / 8, 1)) (List.mem_append_right _ (List.mem_map.mpr ⟨e, he, rfl⟩)) (Nat.le_refl _) (Nat.le_refl _)) f e.2 s
  exact (Stores.each hdata s).trans ((Stores.each hocc _).trans (Stores.setFloe _ f _))
/-- Writes of some bytes, each in its own range. -/
theorem Stores.writes {α : Type} (place : α → Nat) (planes : List α) (data : List (List Byte)) (f : Nat) (ended : List (Nat × Nat)) (s : State) :
    Stores (List.zipWith (fun p l => (place p, l.length)) planes data) s
      (s.each (List.zipWith (fun p l => (place p, l)) planes data) (fun s e => s.writeEnded (some f) ended [] e.1 e.2)) := by
  refine Stores.each (fun e he s => .writeEnded (.of_mem (r := (e.1, e.2.length)) ?_ (Nat.le_refl _) (Nat.le_refl _)) (some f) ended s) s
  have hranges : List.zipWith (fun p l => (place p, l.length)) planes data = (List.zipWith (fun p l => (place p, l)) planes data).map (fun e => (e.1, e.2.length)) := by
    rw [List.map_zipWith]
  rw [hranges]
  exact List.mem_map.mpr ⟨e, he, rfl⟩
theorem Stores.pushDone (f : Nat) (o : StashOp) (s : State) :
    Stores (List.zipWith (fun p l => ((s.floe f).stashAddr f o.entry.tier o.stack o.entry.off + p.1, l.length)) (stashPlanes o.d) o.data) s (s.pushDone f [] o) := by
  unfold State.pushDone
  extract_lets x a s1 z
  have h1 : Stores (List.zipWith (fun p l => (a + p.1, l.length)) (stashPlanes o.d) o.data) s s1 := .ite (.refl s) (Stores.writes (fun p : Nat × Nat × Nat => a + p.1) (stashPlanes o.d) o.data f o.ended s)
  exact h1.trans (Stores.setFloe _ f _)
theorem Stores.popDone (f : Nat) (o : StashOp) (s : State) :
    Stores (List.zipWith (fun p l => (p.2.1, l.length)) (stashPlanes o.d) (s.stashBytes f [] o)) s (s.popDone f [] o) := by
  unfold State.popDone
  extract_lets x a gone s1 s2
  have h1 : Stores (List.zipWith (fun p l => (p.2.1, l.length)) (stashPlanes o.d) (s.stashBytes f [] o)) s s1 :=
    .ite (Stores.recordNf s f) (.each (fun p _ s => .noteEnded (some f) o.ended (a + p.1) p.2.2 s) s)
  exact h1.trans ((Stores.writes (fun p => p.2.1) (stashPlanes o.d) (s.stashBytes f [] o) f o.ended s1).trans (Stores.setFloe _ f _))

end Sys2Proof.Machine

open Sys2Proof Sys2Proof.Machine

/-- Settles O18: with good storage each write stores its own bytes, each block's bytes lie in the block, and what else a completion does stores nothing. -/
theorem unitStoresStayInOutputs : Obligations.UnitStoresStayInOutputs := by
  unfold Obligations.UnitStoresStayInOutputs
  intro f s t hs hwf x
  have hkeeps : ∀ {L : List (Nat × Nat)} {c : Host.Outcome State Fault Refusal} {u : State}, c = .next u → Stores L s u → c = .next t → Claims.KeepsOutside L s t :=
    fun hc hstores ht => by
      obtain rfl := Host.Outcome.next.inj (hc.symm.trans ht)
      exact (hstores hs hwf).2.2
  refine ⟨fun o hvu hwritable ht => ?_, fun o hvu halt hfmt ht => ?_, fun o hvu hformat ht => ?_, fun tag o r hfirst ht => ?_, fun o hpush ht => ?_,
    fun o hpop ht => ?_⟩
  · have hexec : exec (.vecPassComplete f) s = .next (if (s.floe f).passReady o then s.passComplete f o else s) := by
      have harm : exec (.vecPassComplete f) s = execVecPassComplete f s := rfl
      rw [harm, execVecPassComplete, show (s.floe f).vu = _ from hvu]
      exact (apply_ite Host.Outcome.next ..).symm
    exact hkeeps hexec (.ite (.passComplete hwritable f s) (.refl s)) ht
  · have hexec : exec (.updComplete f []) s = .next (if s.planesHeld o.dG || o.cur.any (fun e => s.planesHeld e.2) || o.alt.any (fun e => s.planesHeld e.2) then s
        else s.updRun f [] o) := by
      have harm : exec (.updComplete f []) s = execUpdComplete f [] s := rfl
      rw [harm, execUpdComplete, show (s.floe f).vu = _ from hvu]
      exact (apply_ite Host.Outcome.next ..).symm
    exact hkeeps hexec (.ite (.refl s) (.updRun halt hfmt f s)) ht
  · have hexec : exec (.gatePackComplete f []) s = .next ((s.condRun f [] o).setFloe f { (((s.condRun f [] o).floe f).endReaders
        (readersOf (condReads o.w) (condWrites o.w))).endWriters (condWrites o.w) with vu := .idle }) := by
      have harm : exec (.gatePackComplete f []) s = execGatePackComplete f [] s := rfl
      rw [harm, execGatePackComplete, show (s.floe f).vu = _ from hvu]
    exact hkeeps hexec ((Stores.condRun hformat f s).trans (Stores.setFloe _ f _)) ht
  · have hexec : exec (.xferComplete f tag []) s = .next (if s.planesHeld o.dDst then s else
        let s2 := (s.each o.data (fun s e => s.writeEnded (some f) o.ended [] e.1 e.2)).each o.occBits (fun s e => s.putOcc f o.dDst e.1 e.2)
        s2.setFloe f { (s2.floe f).endWriters [tag] with xfers := r }) := by
      have harm : exec (.xferComplete f tag []) s = execXferComplete f tag [] s := rfl
      rw [harm, execXferComplete]
      dsimp only
      rw [hfirst]
      exact (apply_ite Host.Outcome.next ..).symm
    exact hkeeps hexec (.ite (.refl s) (Stores.xfer f tag r s)) ht
  · have hexec : exec (.stashCopyComplete f false []) s = .next (if o.readDone && !s.memHeld (x.stashAddr f o.entry.tier o.stack o.entry.off) o.entry.fp
        then s.pushDone f [] o else s) := by
      have harm : exec (.stashCopyComplete f false []) s = execStashCopyComplete f false [] s := rfl
      rw [harm]
      unfold execStashCopyComplete
      dsimp only
      rw [show (s.floe f).push = _ from hpush]
      exact (apply_ite Host.Outcome.next ..).symm
    exact hkeeps hexec (.ite (.pushDone f o s) (.refl s)) ht
  · have hexec : exec (.stashCopyComplete f true []) s = .next (if s.memHeld (x.stashAddr f o.entry.tier o.stack o.entry.off) o.entry.fp
        then s else s.popDone f [] o) := by
      have harm : exec (.stashCopyComplete f true []) s = execStashCopyComplete f true [] s := rfl
      rw [harm]
      unfold execStashCopyComplete
      dsimp only
      rw [show (s.floe f).pop = _ from hpop]
      exact (apply_ite Host.Outcome.next ..).symm
    exact hkeeps hexec (.ite (.refl s) (.popDone f o s)) ht
end
